-- ==== Sys2Proof/Word.lean ====
section
/-! DEFINITION. The word types of the Onrok and the error codes of R531. -/

namespace Sys2Proof

/-- A byte of memory, of a packet or of a frame. -/
abbrev Byte := BitVec 8

/-- A Mule register and a 64-bit device register. -/
abbrev Word := BitVec 64

/-- A 32-bit value: an FP32 or INT32 bit pattern. -/
abbrev W32 := BitVec 32

/-- A byte memory: a canonical list of address and byte pairs (addresses strictly rising, no byte 0 listed). -/
abbrev Mem := List Host.Cell

/-- A sparse table: a canonical list of index and entry pairs. -/
abbrev Tab (α : Type) := List (Nat × α)

abbrev CdId := Fin 16
abbrev PTile := Fin 5
abbrev LTile := Fin 4
abbrev LinkId := Fin 36
abbrev LdId := Fin 6
abbrev EthPort := Fin 8
abbrev SubPort := Fin 4
abbrev Ctrl := Fin 8
abbrev Mbox := Fin 8
abbrev DieId := Fin 25

/-- The error codes of R531, in the order of their values. -/
inductive Err where
  | ok | badcmd | badarg | range | align | denied | busy | seq | quota | nomem | width | unitBusy
  | planeBusy | imemActive | prot | pagefault | aborted | route | epoch | checksum | sig | uncorr
  | residue | internal | schedEarly | schedLate | schedUnderrun | collMismatch | collTimeout
  | collAborted | cfgSeq | cfgDigest
  deriving DecidableEq, Repr, Inhabited

end Sys2Proof
end

