-- ==== Sys2Proof/Syntax.lean ====
section
/-! DEFINITION. The commands of the block, one constructor per row of the opcode table, and their operands. -/

namespace Sys2Proof

/-- The frame a mailbox command came in (R401): controller, mailbox, SEQ, CONTEXT, and whether over the out-of-band port. -/
structure Src where
  ctrl : Ctrl := 0
  mbox : Mbox := 0
  seq : Nat := 0
  context : Nat := 0xFFFF
  oob : Bool := false
  deriving DecidableEq, Repr, Inhabited

/-- A packet header (R324). `cls` 0 SCHED, 1 UNSCHED, 2 MGMT, 3 TIME; `net` 0 REQ, 1 REP. Reserved bits are zero. -/
structure Hdr where
  version : Nat := 1
  net : Nat := 0
  cls : Nat := 0
  epoch : Nat := 0
  hop : Nat := 0
  mc : Bool := false
  route : Nat := 0
  ctx : Nat := 0
  kind : Nat := 0
  period : Nat := 0
  collId : Nat := 0
  length : Nat := 0
  group : Nat := 0
  hcrc : Nat := 0
  deriving DecidableEq, Repr, Inhabited

/-- A packet (R234, R324, R325): header, payload, payload CRC-32, and whether it ended with the poison marker (R532). -/
structure Packet where
  hdr : Hdr := {}
  payload : List Byte := []
  crc : Nat := 0
  poison : Bool := false
  deriving DecidableEq, Repr, Inhabited

/-- A control cell (R316). -/
structure CtlCell where
  nak : Bool := false
  down : Bool := false
  reset : Bool := false
  swap : Bool := false
  ack : Nat := 0
  credits : List Nat := []
  echoTx : Nat := 0
  echoRx : Nat := 0
  swapSeq : Nat := 0
  swapLane : Nat := 0
  ccrc : Nat := 0
  deriving DecidableEq, Repr, Inhabited

/-- A TIME cell (R343). -/
structure TimeCell where
  locked : Bool := false
  root : Bool := false
  dist : Nat := 0
  rootNode : Nat := 0
  txTime : Nat := 0
  tcrc : Nat := 0
  deriving DecidableEq, Repr, Inhabited

/-- A slot of a flit (R313): empty, a cell of a packet of a network and class, a control cell or a TIME cell. -/
inductive FlitSlot where
  | empty
  | cell (net cls : Nat) (first last poison : Bool) (bytes : List Byte)
  | ctl (c : CtlCell)
  | time (c : TimeCell)
  deriving DecidableEq, Repr, Inhabited

/-- A received flit (R313): `ok` unless a codeword is uncorrectable; corrected symbols by physical lane. -/
structure Flit where
  seq : Nat := 0
  ok : Bool := true
  corrected : List Nat := []
  uncorr : Nat := 0
  slots : List FlitSlot := []
  deriving DecidableEq, Repr, Inhabited

/-- What a training found (R318, R319): good physical lanes, whether equalisation, deskew and FEC lock succeeded, the flight
time in ns, and the peer's identity. -/
structure Training where
  good : List (Fin 9) := []
  lock : Bool := false
  flight : Nat := 0
  peerNode : Nat := 0
  peerLink : Fin 36 := 0
  peerBoard : Bool := false
  peerMember : Fin 4 := 0
  deriving DecidableEq, Repr, Inhabited

/-- A SYNC pulse (R347). -/
inductive Pulse where
  | mark | add | hold
  deriving DecidableEq, Repr, Inhabited

/-- A miscompare seen at a pass's completion (R117 to R119): mechanism 0 check column, 1 checksum row; the logical column; the
lowest differing row; the load signature. -/
structure Miscompare where
  mech : Fin 2 := 0
  col : Fin 128 := 0
  row : Nat := 0
  load : Nat := 0
  deriving DecidableEq, Repr, Inhabited

/-- The answer to one remote read of a copy (R217, R334): its status and bytes. -/
structure FarRead where
  status : Err := .ok
  data : List Byte := []
  deriving DecidableEq, Repr, Inhabited

/-- A unit with a sleep state (R27). -/
inductive SleepUnit where
  | tile (d : CdId) (p : PTile)
  | hen (d : CdId)
  | ox (g : Fin 16)
  | link (l : LinkId)
  deriving DecidableEq, Repr, Inhabited

/-- What the scrubber meets (R199, R200): the line's device physical address, its bank and row, and whether it is uncorrectable. -/
structure ScrubFind where
  line : Nat := 0
  bank : Nat := 0
  row : Nat := 0
  uncorrectable : Bool := false
  deriving DecidableEq, Repr, Inhabited

/-- A received Ethernet frame (R378): its bytes without the FCS, and whether the FCS verifies. -/
structure EthFrame where
  bytes : List Byte := []
  fcsOk : Bool := true
  deriving DecidableEq, Repr, Inhabited

/-- A transport segment that passed checks 1 to 5 of R378: the UDP payload, the frame's bytes on the wire, its priority, and
the sender's MAC address, IP address and UDP port. -/
structure RxSegment where
  seg : List Byte := []
  wire : Nat := 0
  pcp : Fin 8 := 0
  mac : Nat := 0
  ip : List Byte := []
  port : Nat := 0
  deriving DecidableEq, Repr, Inhabited

/-- A monitor sample of one die (R433): temperature in 1/16 degree, core voltage, its deviation test, power, margin. -/
structure MonSample where
  die : DieId := 0
  temp : Int := 0
  vcore : Nat := 0
  power : Nat := 0
  margin : Nat := 0
  deriving DecidableEq, Repr, Inhabited

/-- A self-test miscompare (R119, R120): failing physical and logical column, row, load signature. -/
structure TestMiss where
  phys : Fin 132 := 0
  col : Nat := 0
  row : Nat := 0
  load : Nat := 0
  deriving DecidableEq, Repr, Inhabited

/-- What a start-up finds in the physical parts (R459 to R467, R503): PUF reconstruction, the out-of-band port's test, dies that
fail, banks, units, columns and rows found bad, link trainings, PMBus stages that answer, straps, contacts, and the time taken. -/
structure BootFinds where
  pufOk : Bool := true
  idOk : Bool := true
  oobOk : Bool := true
  oobLink : Bool := true
  failed : List (Fin 25) := []
  banks : List (Fin 1056) := []
  oxUnits : List (Fin 272) := []
  columns : List (Fin 80 × Fin 132) := []
  repairs : List (Fin 16 × Fin 34 × Nat × Nat) := []
  links : List (Fin 36 × Training) := []
  stages : List (Fin 8) := []
  grp : Fin 4 := 3
  modEn : Bool := true
  fspiReq : Bool := true
  levelMs : List Nat := []
  deriving DecidableEq, Repr, Inhabited

/-- One stage's answer to a poll (R503): VIN, IIN, PIN, TEMPERATURE_1 and STATUS_WORD, or none when it failed the poll. -/
structure PmbAnswer where
  stage : Fin 8 := 0
  words : Option (List Nat) := none
  deriving DecidableEq, Repr, Inhabited

/-- Test port instructions (R517). -/
inductive TestInstr where
  | bypass | idcode | sample | extest
  deriving DecidableEq, Repr, Inhabited

/-- The commands of the block, one per row of the opcode table (LAWS.json gives each its mnemonic): those with operands in the order of the
table but for seven, those seven, and those without operands. (Lean compiles no constructor with operands past the 245th; its kernel has no
such limit.) -/
inductive Instr where
  | muleInstruction (d : CdId) (p : PTile)
  | ebreak (d : CdId) (p : PTile)
  | maPass (d : CdId) (p : PTile) (rd rs1 rs2 : Fin 32)
  | maPassInputEnd (d : CdId) (p : PTile)
  | maPassComplete (d : CdId) (p : PTile) (mis : Option Miscompare)
  | eeRun (d : CdId) (p : PTile) (rd rs1 rs2 : Fin 32)
  | eeRowEnd (d : CdId) (p : PTile)
  | eeRunComplete (d : CdId) (p : PTile)
  | eeCompress (d : CdId) (p : PTile) (rd rs1 rs2 : Fin 32)
  | eeCompressComplete (d : CdId) (p : PTile)
  | eeExpand (d : CdId) (p : PTile) (rd rs1 rs2 : Fin 32)
  | eeExpandComplete (d : CdId) (p : PTile)
  | dmaCopy (d : CdId) (p : PTile) (rd rs1 rs2 : Fin 32)
  | dmaCopyComplete (d : CdId) (e : Fin 8) (ue : Option Nat) (far : List FarRead)
  | henLaunch (d : CdId) (p : PTile) (rd rs1 rs2 : Fin 32)
  | henLaunchU (d : CdId) (p : PTile) (rd rs1 rs2 : Fin 32)
  | henRequestIssue (d : CdId) (t : Fin 1024)
  | henReply (d : CdId) (t : Fin 1024) (e : Fin 8) (status : Err) (data : List Byte)
  | henRequestTimeout (d : CdId) (t : Fin 1024) (e : Fin 8)
  | henLateReply (d : CdId) (t : Fin 1024)
  | henJobComplete (d : CdId) (j : Fin 8)
  | asStream (d : CdId) (p : PTile) (rd rs1 rs2 : Fin 32)
  | slotArm (d : CdId) (p : PTile) (rd rs1 rs2 : Fin 32)
  | lrWait (d : CdId) (p : PTile) (rs1 : Fin 32)
  | lrTest (d : CdId) (p : PTile) (rd rs1 : Fin 32)
  | endOp (d : CdId) (p : PTile)
  | muleWaitRelease (d : CdId) (p : PTile)
  | callr (d : CdId) (p : PTile) (rd rs1 : Fin 32) (imm : Fin 4096)
  | retr (d : CdId) (p : PTile)
  | routineBudgetPadEnd (d : CdId) (p : PTile)
  | urBr (d : CdId) (p : PTile) (f3 : Fin 8) (rs1 rs2 : Fin 32) (imm : BitVec 13)
  | urJoin (d : CdId) (p : PTile) (rd rs1 : Fin 32) (imm : Fin 4096)
  | urPadEnd (d : CdId) (p : PTile)
  | psyncWrite (d : CdId) (p : PTile) (rd : Fin 32) (value : Word)
  | psyncInsertionEnd (d : CdId) (p : PTile)
  | muleThermalGate (d : CdId) (p : PTile)
  | unitIdleTimerExpiry (u : SleepUnit)
  | unitWake (u : SleepUnit)
  | wakePoint (r : Fin 16) (i : Nat)
  | pageWalkComplete (d : CdId) (slot : Fin 16) (va : Word) (access : Fin 3) (kind : Fin 2) (no : Fin 1024) (stream : Bool)
  | tlbInvalGo (d : CdId) (v : Word)
  | tlbInvalDone (d : CdId)
  | pfResolve (d : CdId) (v : Word)
  | hbmRefreshSlot (d : CdId) (pc : Fin 32) (found : List ScrubFind) (temp : Int)
  | hbmMigrateStart (d : CdId) (v : Word)
  | hbmMigrationComplete (d : CdId)
  | peerRead (d : CdId) (l : LinkId) (k : Packet) (ue : Bool)
  | peerWrite (d : CdId) (l : LinkId) (k : Packet) (ue : Bool)
  | peerAtomic (d : CdId) (l : LinkId) (k : Packet) (ue : Bool)
  | peerReply (d : CdId) (k : Packet)
  | bpApply (d : CdId) (v : Word)
  | bpFwAllocate (d : CdId) (v : Word)
  | bpFwFree (d : CdId) (v : Word)
  | bpFreeWrite (d : CdId) (pool : Fin 6)
  | arrColcfgApply (d : CdId) (p : PTile) (v : Word)
  | hubPacketIngress (src : Fin 54) (k : Packet) (stripe : Fin 32)
  | hubEgressCell (o : Fin 53) (chk : Fin 3)
  | hubPartitionWrite (v : Word)
  | hubDtAlphaWrite (v : Word)
  | hubEgressShareWrite (v : Word)
  | hubBankMigrateStart (v : Word)
  | hubBankRemove (b : Fin 1024)
  | oxDispatch (net : Fin 2) (cls : Fin 3)
  | oxStepFire (b : Fin 1024) (off : Nat) (bad : Option (Fin 272)) (ue : Option Nat)
  | oxStepComplete (b : Fin 1024) (off : Nat)
  | round (b : Fin 1024) (i : Fin 24)
  | carry (b : Fin 1024) (i : Fin 24)
  | merge (b : Fin 1024) (i : Fin 24) (bad : Option (Fin 272))
  | sort (b : Fin 1024) (i : Fin 24) (bad : Option (Fin 272))
  | topk (b : Fin 1024) (i : Fin 24) (bad : Option (Fin 272))
  | filter (b : Fin 1024) (i : Fin 24) (bad : Option (Fin 272))
  | isect (b : Fin 1024) (i : Fin 24) (bad : Option (Fin 272))
  | diff (b : Fin 1024) (i : Fin 24) (bad : Option (Fin 272))
  | union (b : Fin 1024) (i : Fin 24) (bad : Option (Fin 272))
  | load (b : Fin 1024) (i : Fin 24)
  | gather (b : Fin 1024) (i : Fin 24)
  | emit (b : Fin 1024) (i : Fin 24)
  | oxOpenReceive (k : Packet) (owner : Bool)
  | oxAbortReceive (k : Packet)
  | oxAbortSend (b : Fin 1024)
  | collTimeout (b : Fin 1024)
  | collCoolExpiry (b : Fin 1024)
  | collFetchPacket (b : Fin 1024) (ue : Bool)
  | collResultWrite (d : CdId) (k : Packet)
  | collBind (s : Src) (glob loc prog : List Byte)
  | collStart (s : Src) (ctx coll : Nat)
  | collAbort (s : Src) (ctx coll : Nat)
  | collFree (s : Src) (ctx coll : Nat)
  | collStatus (s : Src) (key : Nat)
  | flitSend (l : LinkId)
  | flitReceive (l : LinkId) (f : Flit)
  | controlCell (l : LinkId) (c : CtlCell)
  | linkAckTimeout (l : LinkId)
  | linkSignalLoss (l : LinkId) (lane : Fin 9)
  | linkTrainingComplete (l : LinkId) (t : Training)
  | linkRetrainDelayExpiry (l : LinkId)
  | flightRemeasure (l : LinkId) (f : Nat)
  | laneErrorCheck (l : LinkId)
  | laneSwap (l : LinkId)
  | linkCtlEnableClear (l : LinkId)
  | linkCtlRetrain (l : LinkId)
  | routeWrite (s : Src) (version table first count rsv : Nat) (entries : List Byte)
  | routeCommit (s : Src) (version t : Nat)
  | routeStatus (s : Src)
  | linkSet (s : Src) (mask action mode : Nat)
  | linkStatus (s : Src) (link : Nat)
  | windowSet (s : Src) (ctx window rctx route base len : Nat)
  | epochFlush (s : Src) (epoch : Nat)
  | timeCellSend (l : LinkId)
  | timeCell (l : LinkId) (c : TimeCell)
  | syncPulseDrive (k : Pulse) (foreign : Bool)
  | syncPulseReceive (width at_ : Nat)
  | launchPrewake (r : Fin 16)
  | launchStart (x : Fin 4096)
  | periodStart (r : Fin 16) (refresh replay : Bool)
  | periodLagTimeout (r : Fin 16)
  | slotData (d : CdId) (k : Packet) (arrival : Nat)
  | slotConsume (d : CdId) (e : Fin 4096)
  | schedCollFetchStart (r : Fin 16) (i : Nat)
  | schedAbortSend (r : Fin 16)
  | schedAbortPacket (k : Packet)
  | launchResourcesRelease (r : Fin 16)
  | schedLoad (s : Src) (ctx va len : Nat)
  | schedUnload (s : Src) (ctx : Nat)
  | schedStatus (s : Src) (key : Nat)
  | schedStop (s : Src) (ctx last : Nat)
  | schedAbort (s : Src) (ctx : Nat)
  | timeStatus (s : Src)
  | timeSet (s : Src) (t : Nat)
  | ethFrameReceive (k : EthPort) (q : SubPort) (f : EthFrame)
  | arpRequest (k : EthPort) (q : SubPort) (f : EthFrame)
  | pfcFrame (k : EthPort) (q : SubPort) (enable : Nat) (quanta : List Nat)
  | pfcPauseExpiry (k : EthPort) (q : SubPort) (n : Fin 8)
  | pfcRepeat (k : EthPort) (q : SubPort) (n : Fin 8)
  | pfcXon (k : EthPort) (q : SubPort) (n : Fin 8) (drained : Nat)
  | mboxSegment (k : EthPort) (q : SubPort) (f : RxSegment)
  | dataSegment (k : EthPort) (q : SubPort) (f : RxSegment) (ue : Bool)
  | ackSegment (k : EthPort) (q : SubPort) (f : RxSegment)
  | nakSegment (k : EthPort) (q : SubPort) (f : RxSegment)
  | transportAckTimer (c : Ctrl)
  | xportRtoExpiry (c : Ctrl)
  | xferDoneSend (x : Fin 256)
  | getDataSend (x : Fin 256) (ue : Bool)
  | egressFrameSelect (k : EthPort) (q : SubPort)
  | shaperWheelSlot (k : EthPort) (q : SubPort)
  | entryShaperRelease (port : Fin 17) (l : LinkId)
  | subportLinkChange (k : EthPort) (q : SubPort) (up : Bool)
  | portSet (s : Src) (port mode jumbo txTag : Nat) (addrs : List Byte)
  | portStatus (s : Src) (port : Nat)
  | xferOpen (s : Src) (ctx die dir pcp va len : Nat)
  | xferStatus (s : Src) (x : Nat)
  | xferCancel (s : Src) (x : Nat)
  | meterSet (s : Src) (port meter enable actions cir pir cbs pbs : Nat)
  | queueSet (s : Src) (port sub queue weight rate burst : Nat)
  | entrySet (s : Src) (rate : Nat)
  | mailboxFrame (c : Ctrl) (oob : Bool) (seg : List Byte)
  | mailboxCommandStart (c : Ctrl) (m : Mbox)
  | sessionOpen (s : Src) (modulus exponent : List Byte) (nonce : List Byte)
  | sessionClose (s : Src)
  | ctrlEnrol (s : Src) (who : Nat) (entry : List Byte) (rsv : Nat) (count : Nat) (keyHash sig : List Byte)
  | ctrlRevoke (s : Src) (who rsv count : Nat) (sig : List Byte)
  | ctrlList (s : Src)
  | ctxCreate (s : Src) (want flags rsv mask l1 : Nat)
  | ctxDestroy (s : Src) (ctx : Nat)
  | ctxStatus (s : Src) (ctx : Nat)
  | ctxSave (s : Src) (ctx : Nat)
  | ctxList (s : Src) (first : Nat)
  | ctxReset (s : Src) (ctx : Nat)
  | ctxAdopt (s : Src) (ctx : Nat)
  | ctxHalt (s : Src) (ctx : Nat)
  | memPfResolve (s : Src) (die action id : Nat)
  | tlbFlush (s : Src) (ctx mask all va pages : Nat)
  | exportSet (s : Src) (die entry : Nat) (data : List Byte)
  | poolSet (s : Src) (die region : Nat) (counts : List Nat) (quotas : List (Nat × Nat))
  | memModeSet (s : Src) (ctx mask mode : Nat)
  | poolStatus (s : Src) (die : Nat)
  | progLoad (s : Src) (ctx mask va len : Nat)
  | launch (s : Src) (ctx flags t0 p0 : Nat)
  | routineLoad (s : Src) (ctx mask va len : Nat)
  | routinePatch (s : Src) (ctx mask va len : Nat)
  | unitDisable (s : Src) (die kind index mode : Nat)
  | unitEnable (s : Src) (die kind index : Nat)
  | dbgBreakSet (s : Src) (ctx die tile ctl inst lrc : Nat)
  | dbgResume (s : Src) (ctx mask : Nat)
  | dbgStep (s : Src) (ctx die tile : Nat)
  | dbgHalt (s : Src) (ctx die tile : Nat)
  | devInfo (s : Src)
  | devCaps (s : Src)
  | stateRead (s : Src) (addr len : Nat)
  | stateWrite (s : Src) (addr len : Nat) (data : List Byte)
  | stateSnap (s : Src) (count : Nat) (ranges : List (Nat × Nat))
  | unitMap (s : Src) (die : Nat)
  | collLinesRead (s : Src) (ctx coll first count : Nat) (ue : Option Nat)
  | saveRead (s : Src) (ctx die tile buffer offset len : Nat)
  | ctxView (s : Src) (ctx : Nat)
  | collList (s : Src) (first : Nat)
  | monitorSample (m : List MonSample) (inlet outlet : Int)
  | tileSubstitution (d : CdId) (p : PTile) (ue : Bool)
  | healthStatus (s : Src)
  | monRead (s : Src) (die clear : Nat)
  | logRead (s : Src) (first count : Nat)
  | mirrorRead (s : Src) (first count : Nat)
  | ledgerRead (s : Src) (first count : Nat)
  | spareList (s : Src)
  | spareApply (s : Src) (kind die index : Nat)
  | selftest (s : Src) (die tile repeat_ : Nat) (found : List TestMiss)
  | quarantineGrant (s : Src) (node token t x : Nat)
  | quarantineRelease (s : Src)
  | healthSet (s : Src) (limit margin : Nat)
  | progressRead (s : Src) (ctx : Nat)
  | progressMark (s : Src) (ctx action : Nat)
  | ledgerNote (s : Src) (note : List Byte)
  | histRead (s : Src) (die : Nat)
  | powerOn (b : BootFinds)
  | gooseRestart (b : BootFinds)
  | dieReset (d : DieId) (byCtrl : Bool)
  | configCommitRun (readbackOk repairOk : Bool)
  | cfgRead (s : Src) (source type first : Nat)
  | cfgSet (s : Src) (type index : Nat) (data : List Byte) (len : Nat)
  | cfgCommit (s : Src) (expected : Nat)
  | cfgDiscard (s : Src)
  | cfgStatus (s : Src)
  | ownerSet (s : Src) (modulus exponent : List Byte) (count flags : Nat) (rsv sig : List Byte)
  | idCert (s : Src)
  | attestQuote (s : Src) (nonce : List Byte) (mask : Nat)
  | measRead (s : Src)
  | measExtend (s : Src) (digest : List Byte)
  | fwWrite (s : Src) (offset flags : Nat) (data : List Byte)
  | fwActivate (s : Src) (flags : Nat)
  | fwStatus (s : Src)
  | factoryRead (s : Src) (block : Nat)
  | svnRaise (s : Src) (svn keys : Nat)
  | powerSample (vin iin pin : Nat) (energy : Nat) (sustained : Bool)
  | trip (cause : Fin 5) (die : DieId)
  | pmbusPoll (answers : List PmbAnswer)
  | pmbAlert (answers : List PmbAnswer)
  | smbusBlockRead (cmd : Nat)
  | clkStatus (s : Src) (die : Nat)
  | pwrStatus (s : Src)
  | powerStateSet (s : Src) (state : Nat)
  | idleTimerSet (s : Src) (us : Nat)
  | unitSleep (s : Src) (die kind index state : Nat)
  | thermSet (s : Src) (temp : Nat)
  | tripClear (s : Src)
  | registerWrite (addr : Nat) (v : Word)
  | testPortInstruction (i : TestInstr)
  | pmbusRead (s : Src) (addr cmd len : Nat) (answer : Option (List Byte))
  | dieResetComplete (d : DieId) (passed : Bool)
  | powerTransitionComplete (b : BootFinds)
  | ctxSaveComplete (ctx : Nat)
  | remoteWindowRequest (d : CdId) (l : LinkId) (k : Packet) (write : Bool) (ue : Bool)
  | oobLinkChange (up : Bool)
  | hubSnapTake
  | hubSnapComplete
  | hubBankMigrationComplete
  | routeCommitTakeEffect
  | parentLossTimeout
  | holdoverTimeout
  | syncMarkMissed
  | mbxWatchdogExpiry
  | healthScoreCompute
  | dayRollover
  | qRequestRepeat
  | quarantineTakeEffect
  | tokenLapse
  | logIntake
  | mirrorCopy
  | ledgerRecordWrite
  | claimWindowClose
  | refclkLoss
  | refclkReturn
  | inputPowerLoss
  | insertionLevelStep
  | modEnRise
  | modEnFall
  | smbusAlertResponse
  | fabricTimeUnitFailure
  deriving DecidableEq, Repr

end Sys2Proof
end

