-- ==== Sys2Proof/WellFormed.lean ====
section
/-! DEFINITION. The well-formedness of a command: each operand within the width of the field that carries it. The length fields a
command's own checks read (LEN, count) are operands like any other, since the command answers a wrong one itself. -/

namespace Sys2Proof

/-- A value of `w` bits. -/
def okW (w x : Nat) : Bool := decide (x < 2 ^ w)

/-- A signed value of `w` bits. -/
def okI (w : Nat) (x : Int) : Bool := decide (-(2 ^ (w - 1) : Int) ≤ x ∧ x < 2 ^ (w - 1))

/-- A byte string of `n` bytes. -/
def okLen (n : Nat) (bs : List Byte) : Bool := bs.length == n

/-- A byte string of at most `n` bytes. -/
def okLe (n : Nat) (bs : List Byte) : Bool := decide (bs.length ≤ n)

/-- A mailbox frame's SEQ and CONTEXT (R401). -/
def Src.wf (s : Src) : Bool := okW 32 s.seq && okW 16 s.context

/-- The header's fields (R324). -/
def Hdr.wf (h : Hdr) : Bool :=
  okW 4 h.version && okW 1 h.net && okW 2 h.cls && okW 1 h.epoch && okW 4 h.hop && okW 96 h.route && okW 12 h.ctx && okW 8 h.kind &&
  okW 16 h.period && okW 32 h.collId && okW 13 h.length && okW 12 h.group && okW 16 h.hcrc

/-- A packet carries the LENGTH payload bytes its header states, or fewer when it ended with the poison marker (R234, R532). -/
def Packet.wf (k : Packet) : Bool :=
  k.hdr.wf && okW 32 k.crc && (if k.poison then decide (k.payload.length ≤ k.hdr.length) else k.payload.length == k.hdr.length)

/-- The control cell's fields (R316): six credit counts. -/
def CtlCell.wf (c : CtlCell) : Bool :=
  okW 16 c.ack && (c.credits.length == 6 && c.credits.all (okW 16)) && okW 32 c.echoTx && okW 32 c.echoRx && okW 16 c.swapSeq &&
  okW 3 c.swapLane && okW 16 c.ccrc

/-- The TIME cell's fields (R343). -/
def TimeCell.wf (c : TimeCell) : Bool := okW 4 c.dist && okW 32 c.rootNode && okW 64 c.txTime && okW 16 c.tcrc

/-- One slot of a flit: 128 bytes, of one of the two networks and four classes (R234, R313). -/
def FlitSlot.wf : FlitSlot → Bool
  | .empty => true
  | .cell net cls _ _ _ bytes => okW 1 net && okW 2 cls && okLen 128 bytes
  | .ctl c => c.wf
  | .time c => c.wf

/-- A flit has ten slots (R313). -/
def Flit.wf (f : Flit) : Bool := okW 16 f.seq && f.slots.length == 10 && f.slots.all FlitSlot.wf

/-- The peer's NODE has 32 bits (R343). -/
def Training.wf (t : Training) : Bool := okW 32 t.flight && okW 32 t.peerNode

/-- The fields of a miscompare's log entry (R119). -/
def Miscompare.wf (m : Miscompare) : Bool := okW 16 m.row && okW 32 m.load

/-- One reply carries at most 4,096 bytes (R324). -/
def FarRead.wf (r : FarRead) : Bool := okLe 4096 r.data

/-- A device physical address has 41 bits: offset s of stack n (R205). -/
def ScrubFind.wf (f : ScrubFind) : Bool := okW 41 f.line && okW 16 f.row

/-- An IP address of four or sixteen bytes, a MAC address of six, a UDP port of two (R376, R377). -/
def RxSegment.wf (r : RxSegment) : Bool := okW 48 r.mac && (r.ip.length == 4 || r.ip.length == 16) && okW 16 r.port

/-- A sample's fields (R433). -/
def MonSample.wf (m : MonSample) : Bool := okI 16 m.temp && okW 16 m.vcore && okW 16 m.power && okW 16 m.margin

/-- A self-test miscompare's fields (R119). -/
def TestMiss.wf (m : TestMiss) : Bool := okW 16 m.col && okW 16 m.row && okW 32 m.load

/-- A stage answers with five 16-bit words (R503). -/
def PmbAnswer.wf (a : PmbAnswer) : Bool := a.words.all fun w => w.length == 5 && w.all (okW 16)

/-- The finds of a start-up: at most four LEVEL times; trainings with their own fields right. -/
def BootFinds.wf (b : BootFinds) : Bool := decide (b.levelMs.length ≤ 4) && b.links.all fun l => l.2.wf

/-- A command is well formed when each of its operands is. -/
def Instr.wf : Instr → Bool
  | .muleInstruction _ _ => true
  | .ebreak _ _ => true
  | .maPass _ _ _ _ _ => true
  | .maPassInputEnd _ _ => true
  | .maPassComplete _ _ mis => mis.all Miscompare.wf
  | .eeRun _ _ _ _ _ => true
  | .eeRowEnd _ _ => true
  | .eeRunComplete _ _ => true
  | .eeCompress _ _ _ _ _ => true
  | .eeCompressComplete _ _ => true
  | .eeExpand _ _ _ _ _ => true
  | .eeExpandComplete _ _ => true
  | .dmaCopy _ _ _ _ _ => true
  | .dmaCopyComplete _ _ ue far => ue.all (okW 64) && far.all FarRead.wf
  | .henLaunch _ _ _ _ _ => true
  | .henLaunchU _ _ _ _ _ => true
  | .henRequestIssue _ _ => true
  | .henReply _ _ _ _ data => okLe 4096 data
  | .henRequestTimeout _ _ _ => true
  | .henLateReply _ _ => true
  | .henJobComplete _ _ => true
  | .asStream _ _ _ _ _ => true
  | .slotArm _ _ _ _ _ => true
  | .lrWait _ _ _ => true
  | .lrTest _ _ _ _ => true
  | .endOp _ _ => true
  | .muleWaitRelease _ _ => true
  | .callr _ _ _ _ _ => true
  | .retr _ _ => true
  | .routineBudgetPadEnd _ _ => true
  | .urBr _ _ _ _ _ _ => true
  | .urJoin _ _ _ _ _ => true
  | .urPadEnd _ _ => true
  | .psyncWrite _ _ _ _ => true
  | .psyncInsertionEnd _ _ => true
  | .muleThermalGate _ _ => true
  | .unitIdleTimerExpiry _ => true
  | .unitWake _ => true
  | .wakePoint _ i => okW 16 i
  | .pageWalkComplete _ _ _ _ _ _ _ => true
  | .tlbInvalGo _ _ => true
  | .tlbInvalDone _ => true
  | .pfResolve _ _ => true
  | .hbmRefreshSlot _ _ found temp => found.all ScrubFind.wf && okI 16 temp
  | .hbmMigrateStart _ _ => true
  | .hbmMigrationComplete _ => true
  | .peerRead _ _ k _ => k.wf
  | .peerWrite _ _ k _ => k.wf
  | .peerAtomic _ _ k _ => k.wf
  | .peerReply _ k => k.wf
  | .bpApply _ _ => true
  | .bpFwAllocate _ _ => true
  | .bpFwFree _ _ => true
  | .bpFreeWrite _ _ => true
  | .arrColcfgApply _ _ _ => true
  | .hubPacketIngress _ k _ => k.wf
  | .hubEgressCell _ _ => true
  | .hubPartitionWrite _ => true
  | .hubDtAlphaWrite _ => true
  | .hubEgressShareWrite _ => true
  | .hubBankMigrateStart _ => true
  | .hubBankRemove _ => true
  | .oxDispatch _ _ => true
  | .oxStepFire _ off _ ue => okW 10 off && ue.all (okW 10)
  | .oxStepComplete _ off => okW 16 off
  | .round _ _ => true
  | .carry _ _ => true
  | .merge _ _ _ => true
  | .sort _ _ _ => true
  | .topk _ _ _ => true
  | .filter _ _ _ => true
  | .isect _ _ _ => true
  | .diff _ _ _ => true
  | .union _ _ _ => true
  | .load _ _ => true
  | .gather _ _ => true
  | .emit _ _ => true
  | .oxOpenReceive k _ => k.wf
  | .oxAbortReceive k => k.wf
  | .oxAbortSend _ => true
  | .collTimeout _ => true
  | .collCoolExpiry _ => true
  | .collFetchPacket _ _ => true
  | .collResultWrite _ k => k.wf
  | .collBind src glob loc prog => src.wf && (okLen 64 glob && okLen 128 loc && okLen 512 prog)
  | .collStart src ctx coll => src.wf && (okW 16 ctx && okW 32 coll)
  | .collAbort src ctx coll => src.wf && (okW 16 ctx && okW 32 coll)
  | .collFree src ctx coll => src.wf && (okW 16 ctx && okW 32 coll)
  | .collStatus src key => src.wf && okW 32 key
  | .flitSend _ => true
  | .flitReceive _ f => f.wf
  | .controlCell _ c => c.wf
  | .linkAckTimeout _ => true
  | .linkSignalLoss _ _ => true
  | .linkTrainingComplete _ t => t.wf
  | .linkRetrainDelayExpiry _ => true
  | .flightRemeasure _ f => okW 32 f
  | .laneErrorCheck _ => true
  | .laneSwap _ => true
  | .linkCtlEnableClear _ => true
  | .linkCtlRetrain _ => true
  | .routeWrite src version table first count rsv entries => src.wf && (okW 8 version && okW 8 table && okW 16 first && okW 16 count && okW 16 rsv && okLe 4096 entries)
  | .routeCommit src version t => src.wf && (okW 8 version && okW 64 t)
  | .routeStatus src => src.wf
  | .linkSet src mask action mode => src.wf && (okW 64 mask && okW 8 action && okW 8 mode)
  | .linkStatus src link => src.wf && okW 8 link
  | .windowSet src ctx window rctx route base len => src.wf && (okW 16 ctx && okW 8 window && okW 16 rctx && okW 96 route && okW 64 base && okW 64 len)
  | .epochFlush src epoch => src.wf && okW 8 epoch
  | .timeCellSend _ => true
  | .timeCell _ c => c.wf
  | .syncPulseDrive _ _ => true
  | .syncPulseReceive width at_ => okW 32 width && okW 64 at_
  | .launchPrewake _ => true
  | .launchStart _ => true
  | .periodStart _ _ _ => true
  | .periodLagTimeout _ => true
  | .slotData _ k arrival => k.wf && okW 64 arrival
  | .slotConsume _ _ => true
  | .schedCollFetchStart _ i => okW 16 i
  | .schedAbortSend _ => true
  | .schedAbortPacket k => k.wf
  | .launchResourcesRelease _ => true
  | .schedLoad src ctx va len => src.wf && (okW 16 ctx && okW 64 va && okW 64 len)
  | .schedUnload src ctx => src.wf && okW 16 ctx
  | .schedStatus src key => src.wf && okW 16 key
  | .schedStop src ctx last => src.wf && (okW 16 ctx && okW 64 last)
  | .schedAbort src ctx => src.wf && okW 16 ctx
  | .timeStatus src => src.wf
  | .timeSet src t => src.wf && okW 64 t
  | .ethFrameReceive _ _ _ => true
  | .arpRequest _ _ _ => true
  | .pfcFrame _ _ enable quanta => okW 8 enable && (quanta.length == 8 && quanta.all (okW 16))
  | .pfcPauseExpiry _ _ _ => true
  | .pfcRepeat _ _ _ => true
  | .pfcXon _ _ _ drained => okW 32 drained
  | .mboxSegment _ _ f => f.wf
  | .dataSegment _ _ f _ => f.wf
  | .ackSegment _ _ f => f.wf
  | .nakSegment _ _ f => f.wf
  | .transportAckTimer _ => true
  | .xportRtoExpiry _ => true
  | .xferDoneSend _ => true
  | .getDataSend _ _ => true
  | .egressFrameSelect _ _ => true
  | .shaperWheelSlot _ _ => true
  | .entryShaperRelease _ _ => true
  | .subportLinkChange _ _ _ => true
  | .portSet src port mode jumbo txTag addrs => src.wf && (okW 8 port && okW 8 mode && okW 8 jumbo && okW 8 txTag && okLen 256 addrs)
  | .portStatus src port => src.wf && okW 8 port
  | .xferOpen src ctx die dir pcp va len => src.wf && (okW 16 ctx && okW 8 die && okW 8 dir && okW 8 pcp && okW 64 va && okW 64 len)
  | .xferStatus src x => src.wf && okW 16 x
  | .xferCancel src x => src.wf && okW 16 x
  | .meterSet src port meter enable actions cir pir cbs pbs => src.wf && (okW 8 port && okW 8 meter && okW 8 enable && okW 8 actions && okW 32 cir && okW 32 pir && okW 32 cbs && okW 32 pbs)
  | .queueSet src port sub queue weight rate burst => src.wf && (okW 8 port && okW 8 sub && okW 8 queue && okW 8 weight && okW 32 rate && okW 32 burst)
  | .entrySet src rate => src.wf && okW 32 rate
  | .mailboxFrame _ _ seg => okLe 8192 seg
  | .mailboxCommandStart _ _ => true
  | .sessionOpen src modulus exponent nonce => src.wf && (okLen 384 modulus && okLen 4 exponent && okLen 32 nonce)
  | .sessionClose src => src.wf
  | .ctrlEnrol src who entry rsv count keyHash sig => src.wf && (okW 8 who && okLen 5 entry && okW 16 rsv && okW 64 count && okLen 32 keyHash && okLen 384 sig)
  | .ctrlRevoke src who rsv count sig => src.wf && (okW 8 who && okW 56 rsv && okW 64 count && okLen 384 sig)
  | .ctrlList src => src.wf
  | .ctxCreate src want flags rsv mask l1 => src.wf && (okW 16 want && okW 8 flags && okW 24 rsv && okW 16 mask && okW 64 l1)
  | .ctxDestroy src ctx => src.wf && okW 16 ctx
  | .ctxStatus src ctx => src.wf && okW 16 ctx
  | .ctxSave src ctx => src.wf && okW 16 ctx
  | .ctxList src first => src.wf && okW 16 first
  | .ctxReset src ctx => src.wf && okW 16 ctx
  | .ctxAdopt src ctx => src.wf && okW 16 ctx
  | .ctxHalt src ctx => src.wf && okW 16 ctx
  | .memPfResolve src die action id => src.wf && (okW 8 die && okW 8 action && okW 16 id)
  | .tlbFlush src ctx mask all va pages => src.wf && (okW 16 ctx && okW 16 mask && okW 8 all && okW 64 va && okW 64 pages)
  | .exportSet src die entry data => src.wf && (okW 8 die && okW 8 entry && okLen 16 data)
  | .poolSet src die region counts quotas => src.wf && (okW 8 die && okW 64 region && (counts.length == 6 && counts.all (okW 32)) && (quotas.length == 96 && quotas.all fun q => okW 32 q.1 && okW 32 q.2))
  | .memModeSet src ctx mask mode => src.wf && (okW 16 ctx && okW 16 mask && okW 8 mode)
  | .poolStatus src die => src.wf && okW 8 die
  | .progLoad src ctx mask va len => src.wf && (okW 16 ctx && okW 16 mask && okW 64 va && okW 64 len)
  | .launch src ctx flags t0 p0 => src.wf && (okW 16 ctx && okW 8 flags && okW 64 t0 && okW 64 p0)
  | .routineLoad src ctx mask va len => src.wf && (okW 16 ctx && okW 16 mask && okW 64 va && okW 64 len)
  | .routinePatch src ctx mask va len => src.wf && (okW 16 ctx && okW 16 mask && okW 64 va && okW 64 len)
  | .unitDisable src die kind index mode => src.wf && (okW 8 die && okW 8 kind && okW 8 index && okW 8 mode)
  | .unitEnable src die kind index => src.wf && (okW 8 die && okW 8 kind && okW 8 index)
  | .dbgBreakSet src ctx die tile ctl inst lrc => src.wf && (okW 16 ctx && okW 8 die && okW 8 tile && okW 64 ctl && okW 64 inst && okW 64 lrc)
  | .dbgResume src ctx mask => src.wf && (okW 16 ctx && okW 16 mask)
  | .dbgStep src ctx die tile => src.wf && (okW 16 ctx && okW 8 die && okW 8 tile)
  | .dbgHalt src ctx die tile => src.wf && (okW 16 ctx && okW 8 die && okW 8 tile)
  | .devInfo src => src.wf
  | .devCaps src => src.wf
  | .stateRead src addr len => src.wf && (okW 64 addr && okW 32 len)
  | .stateWrite src addr len data => src.wf && (okW 64 addr && okW 32 len && okLe 256 data)
  | .stateSnap src count ranges => src.wf && (okW 8 count && (ranges.length == count && ranges.all fun r => okW 64 r.1 && okW 32 r.2))
  | .unitMap src die => src.wf && okW 8 die
  | .collLinesRead src ctx coll first count ue => src.wf && (okW 16 ctx && okW 32 coll && okW 32 first && okW 32 count && ue.all (okW 17))
  | .saveRead src ctx die tile buffer offset len => src.wf && (okW 16 ctx && okW 8 die && okW 8 tile && okW 8 buffer && okW 64 offset && okW 32 len)
  | .ctxView src ctx => src.wf && okW 16 ctx
  | .collList src first => src.wf && okW 16 first
  | .monitorSample m inlet outlet => m.all MonSample.wf && (okI 16 inlet && okI 16 outlet)
  | .tileSubstitution _ _ _ => true
  | .healthStatus src => src.wf
  | .monRead src die clear => src.wf && (okW 8 die && okW 8 clear)
  | .logRead src first count => src.wf && (okW 32 first && okW 8 count)
  | .mirrorRead src first count => src.wf && (okW 32 first && okW 8 count)
  | .ledgerRead src first count => src.wf && (okW 32 first && okW 8 count)
  | .spareList src => src.wf
  | .spareApply src kind die index => src.wf && (okW 8 kind && okW 8 die && okW 16 index)
  | .selftest src die tile repeat_ found => src.wf && (okW 8 die && okW 8 tile && okW 8 repeat_ && found.all TestMiss.wf)
  | .quarantineGrant src node token t x => src.wf && (okW 32 node && okW 32 token && okW 64 t && okW 64 x)
  | .quarantineRelease src => src.wf
  | .healthSet src limit margin => src.wf && (okW 16 limit && okW 16 margin)
  | .progressRead src ctx => src.wf && okW 16 ctx
  | .progressMark src ctx action => src.wf && (okW 16 ctx && okW 8 action)
  | .ledgerNote src note => src.wf && okLen 32 note
  | .histRead src die => src.wf && okW 8 die
  | .powerOn b => b.wf
  | .gooseRestart b => b.wf
  | .dieReset _ _ => true
  | .configCommitRun _ _ => true
  | .cfgRead src source type first => src.wf && (okW 8 source && okW 16 type && okW 16 first)
  | .cfgSet src type index data len => src.wf && (okW 16 type && okW 16 index && okLe 3072 data && okW 32 len)
  | .cfgCommit src expected => src.wf && okW 64 expected
  | .cfgDiscard src => src.wf
  | .cfgStatus src => src.wf
  | .ownerSet src modulus exponent count flags rsv sig => src.wf && (okLen 384 modulus && okLen 4 exponent && okW 64 count && okW 8 flags && okLen 7 rsv && okLen 384 sig)
  | .idCert src => src.wf
  | .attestQuote src nonce mask => src.wf && (okLen 32 nonce && okW 8 mask)
  | .measRead src => src.wf
  | .measExtend src digest => src.wf && okLen 32 digest
  | .fwWrite src offset flags data => src.wf && (okW 32 offset && okW 8 flags && okLe 4000 data)
  | .fwActivate src flags => src.wf && okW 8 flags
  | .fwStatus src => src.wf
  | .factoryRead src block => src.wf && okW 8 block
  | .svnRaise src svn keys => src.wf && (okW 32 svn && okW 8 keys)
  | .powerSample vin iin pin energy _ => okW 16 vin && okW 16 iin && okW 16 pin && okW 64 energy
  | .trip _ _ => true
  | .pmbusPoll answers => answers.all PmbAnswer.wf
  | .pmbAlert answers => answers.all PmbAnswer.wf
  | .smbusBlockRead cmd => okW 8 cmd
  | .clkStatus src die => src.wf && okW 8 die
  | .pwrStatus src => src.wf
  | .powerStateSet src state => src.wf && okW 8 state
  | .idleTimerSet src us => src.wf && okW 16 us
  | .unitSleep src die kind index state => src.wf && (okW 8 die && okW 8 kind && okW 8 index && okW 8 state)
  | .thermSet src temp => src.wf && okW 8 temp
  | .tripClear src => src.wf
  | .registerWrite addr _ => okW 64 addr
  | .testPortInstruction _ => true
  | .pmbusRead src addr cmd len answer => src.wf && (okW 8 addr && okW 8 cmd && okW 8 len && answer.all (fun a => okLe 2 a))
  | .dieResetComplete _ _ => true
  | .powerTransitionComplete b => b.wf
  | .ctxSaveComplete ctx => okW 16 ctx
  | .remoteWindowRequest _ _ k _ _ => k.wf
  | .oobLinkChange _ => true
  | .hubSnapTake => true
  | .hubSnapComplete => true
  | .hubBankMigrationComplete => true
  | .routeCommitTakeEffect => true
  | .parentLossTimeout => true
  | .holdoverTimeout => true
  | .syncMarkMissed => true
  | .mbxWatchdogExpiry => true
  | .healthScoreCompute => true
  | .dayRollover => true
  | .qRequestRepeat => true
  | .quarantineTakeEffect => true
  | .tokenLapse => true
  | .logIntake => true
  | .mirrorCopy => true
  | .ledgerRecordWrite => true
  | .claimWindowClose => true
  | .refclkLoss => true
  | .refclkReturn => true
  | .inputPowerLoss => true
  | .insertionLevelStep => true
  | .modEnRise => true
  | .modEnFall => true
  | .smbusAlertResponse => true
  | .fabricTimeUnitFailure => true

/-- The frame a mailbox command came in. -/
def Instr.src? : Instr → Option Src
  | .muleInstruction _ _ => none
  | .ebreak _ _ => none
  | .maPass _ _ _ _ _ => none
  | .maPassInputEnd _ _ => none
  | .maPassComplete _ _ _ => none
  | .eeRun _ _ _ _ _ => none
  | .eeRowEnd _ _ => none
  | .eeRunComplete _ _ => none
  | .eeCompress _ _ _ _ _ => none
  | .eeCompressComplete _ _ => none
  | .eeExpand _ _ _ _ _ => none
  | .eeExpandComplete _ _ => none
  | .dmaCopy _ _ _ _ _ => none
  | .dmaCopyComplete _ _ _ _ => none
  | .henLaunch _ _ _ _ _ => none
  | .henLaunchU _ _ _ _ _ => none
  | .henRequestIssue _ _ => none
  | .henReply _ _ _ _ _ => none
  | .henRequestTimeout _ _ _ => none
  | .henLateReply _ _ => none
  | .henJobComplete _ _ => none
  | .asStream _ _ _ _ _ => none
  | .slotArm _ _ _ _ _ => none
  | .lrWait _ _ _ => none
  | .lrTest _ _ _ _ => none
  | .endOp _ _ => none
  | .muleWaitRelease _ _ => none
  | .callr _ _ _ _ _ => none
  | .retr _ _ => none
  | .routineBudgetPadEnd _ _ => none
  | .urBr _ _ _ _ _ _ => none
  | .urJoin _ _ _ _ _ => none
  | .urPadEnd _ _ => none
  | .psyncWrite _ _ _ _ => none
  | .psyncInsertionEnd _ _ => none
  | .muleThermalGate _ _ => none
  | .unitIdleTimerExpiry _ => none
  | .unitWake _ => none
  | .wakePoint _ _ => none
  | .pageWalkComplete _ _ _ _ _ _ _ => none
  | .tlbInvalGo _ _ => none
  | .tlbInvalDone _ => none
  | .pfResolve _ _ => none
  | .hbmRefreshSlot _ _ _ _ => none
  | .hbmMigrateStart _ _ => none
  | .hbmMigrationComplete _ => none
  | .peerRead _ _ _ _ => none
  | .peerWrite _ _ _ _ => none
  | .peerAtomic _ _ _ _ => none
  | .peerReply _ _ => none
  | .bpApply _ _ => none
  | .bpFwAllocate _ _ => none
  | .bpFwFree _ _ => none
  | .bpFreeWrite _ _ => none
  | .arrColcfgApply _ _ _ => none
  | .hubPacketIngress _ _ _ => none
  | .hubEgressCell _ _ => none
  | .hubPartitionWrite _ => none
  | .hubDtAlphaWrite _ => none
  | .hubEgressShareWrite _ => none
  | .hubBankMigrateStart _ => none
  | .hubBankRemove _ => none
  | .oxDispatch _ _ => none
  | .oxStepFire _ _ _ _ => none
  | .oxStepComplete _ _ => none
  | .round _ _ => none
  | .carry _ _ => none
  | .merge _ _ _ => none
  | .sort _ _ _ => none
  | .topk _ _ _ => none
  | .filter _ _ _ => none
  | .isect _ _ _ => none
  | .diff _ _ _ => none
  | .union _ _ _ => none
  | .load _ _ => none
  | .gather _ _ => none
  | .emit _ _ => none
  | .oxOpenReceive _ _ => none
  | .oxAbortReceive _ => none
  | .oxAbortSend _ => none
  | .collTimeout _ => none
  | .collCoolExpiry _ => none
  | .collFetchPacket _ _ => none
  | .collResultWrite _ _ => none
  | .collBind src _ _ _ => some src
  | .collStart src _ _ => some src
  | .collAbort src _ _ => some src
  | .collFree src _ _ => some src
  | .collStatus src _ => some src
  | .flitSend _ => none
  | .flitReceive _ _ => none
  | .controlCell _ _ => none
  | .linkAckTimeout _ => none
  | .linkSignalLoss _ _ => none
  | .linkTrainingComplete _ _ => none
  | .linkRetrainDelayExpiry _ => none
  | .flightRemeasure _ _ => none
  | .laneErrorCheck _ => none
  | .laneSwap _ => none
  | .linkCtlEnableClear _ => none
  | .linkCtlRetrain _ => none
  | .routeWrite src _ _ _ _ _ _ => some src
  | .routeCommit src _ _ => some src
  | .routeStatus src => some src
  | .linkSet src _ _ _ => some src
  | .linkStatus src _ => some src
  | .windowSet src _ _ _ _ _ _ => some src
  | .epochFlush src _ => some src
  | .timeCellSend _ => none
  | .timeCell _ _ => none
  | .syncPulseDrive _ _ => none
  | .syncPulseReceive _ _ => none
  | .launchPrewake _ => none
  | .launchStart _ => none
  | .periodStart _ _ _ => none
  | .periodLagTimeout _ => none
  | .slotData _ _ _ => none
  | .slotConsume _ _ => none
  | .schedCollFetchStart _ _ => none
  | .schedAbortSend _ => none
  | .schedAbortPacket _ => none
  | .launchResourcesRelease _ => none
  | .schedLoad src _ _ _ => some src
  | .schedUnload src _ => some src
  | .schedStatus src _ => some src
  | .schedStop src _ _ => some src
  | .schedAbort src _ => some src
  | .timeStatus src => some src
  | .timeSet src _ => some src
  | .ethFrameReceive _ _ _ => none
  | .arpRequest _ _ _ => none
  | .pfcFrame _ _ _ _ => none
  | .pfcPauseExpiry _ _ _ => none
  | .pfcRepeat _ _ _ => none
  | .pfcXon _ _ _ _ => none
  | .mboxSegment _ _ _ => none
  | .dataSegment _ _ _ _ => none
  | .ackSegment _ _ _ => none
  | .nakSegment _ _ _ => none
  | .transportAckTimer _ => none
  | .xportRtoExpiry _ => none
  | .xferDoneSend _ => none
  | .getDataSend _ _ => none
  | .egressFrameSelect _ _ => none
  | .shaperWheelSlot _ _ => none
  | .entryShaperRelease _ _ => none
  | .subportLinkChange _ _ _ => none
  | .portSet src _ _ _ _ _ => some src
  | .portStatus src _ => some src
  | .xferOpen src _ _ _ _ _ _ => some src
  | .xferStatus src _ => some src
  | .xferCancel src _ => some src
  | .meterSet src _ _ _ _ _ _ _ _ => some src
  | .queueSet src _ _ _ _ _ _ => some src
  | .entrySet src _ => some src
  | .mailboxFrame _ _ _ => none
  | .mailboxCommandStart _ _ => none
  | .sessionOpen src _ _ _ => some src
  | .sessionClose src => some src
  | .ctrlEnrol src _ _ _ _ _ _ => some src
  | .ctrlRevoke src _ _ _ _ => some src
  | .ctrlList src => some src
  | .ctxCreate src _ _ _ _ _ => some src
  | .ctxDestroy src _ => some src
  | .ctxStatus src _ => some src
  | .ctxSave src _ => some src
  | .ctxList src _ => some src
  | .ctxReset src _ => some src
  | .ctxAdopt src _ => some src
  | .ctxHalt src _ => some src
  | .memPfResolve src _ _ _ => some src
  | .tlbFlush src _ _ _ _ _ => some src
  | .exportSet src _ _ _ => some src
  | .poolSet src _ _ _ _ => some src
  | .memModeSet src _ _ _ => some src
  | .poolStatus src _ => some src
  | .progLoad src _ _ _ _ => some src
  | .launch src _ _ _ _ => some src
  | .routineLoad src _ _ _ _ => some src
  | .routinePatch src _ _ _ _ => some src
  | .unitDisable src _ _ _ _ => some src
  | .unitEnable src _ _ _ => some src
  | .dbgBreakSet src _ _ _ _ _ _ => some src
  | .dbgResume src _ _ => some src
  | .dbgStep src _ _ _ => some src
  | .dbgHalt src _ _ _ => some src
  | .devInfo src => some src
  | .devCaps src => some src
  | .stateRead src _ _ => some src
  | .stateWrite src _ _ _ => some src
  | .stateSnap src _ _ => some src
  | .unitMap src _ => some src
  | .collLinesRead src _ _ _ _ _ => some src
  | .saveRead src _ _ _ _ _ _ => some src
  | .ctxView src _ => some src
  | .collList src _ => some src
  | .monitorSample _ _ _ => none
  | .tileSubstitution _ _ _ => none
  | .healthStatus src => some src
  | .monRead src _ _ => some src
  | .logRead src _ _ => some src
  | .mirrorRead src _ _ => some src
  | .ledgerRead src _ _ => some src
  | .spareList src => some src
  | .spareApply src _ _ _ => some src
  | .selftest src _ _ _ _ => some src
  | .quarantineGrant src _ _ _ _ => some src
  | .quarantineRelease src => some src
  | .healthSet src _ _ => some src
  | .progressRead src _ => some src
  | .progressMark src _ _ => some src
  | .ledgerNote src _ => some src
  | .histRead src _ => some src
  | .powerOn _ => none
  | .gooseRestart _ => none
  | .dieReset _ _ => none
  | .configCommitRun _ _ => none
  | .cfgRead src _ _ _ => some src
  | .cfgSet src _ _ _ _ => some src
  | .cfgCommit src _ => some src
  | .cfgDiscard src => some src
  | .cfgStatus src => some src
  | .ownerSet src _ _ _ _ _ _ => some src
  | .idCert src => some src
  | .attestQuote src _ _ => some src
  | .measRead src => some src
  | .measExtend src _ => some src
  | .fwWrite src _ _ _ => some src
  | .fwActivate src _ => some src
  | .fwStatus src => some src
  | .factoryRead src _ => some src
  | .svnRaise src _ _ => some src
  | .powerSample _ _ _ _ _ => none
  | .trip _ _ => none
  | .pmbusPoll _ => none
  | .pmbAlert _ => none
  | .smbusBlockRead _ => none
  | .clkStatus src _ => some src
  | .pwrStatus src => some src
  | .powerStateSet src _ => some src
  | .idleTimerSet src _ => some src
  | .unitSleep src _ _ _ _ => some src
  | .thermSet src _ => some src
  | .tripClear src => some src
  | .registerWrite _ _ => none
  | .testPortInstruction _ => none
  | .pmbusRead src _ _ _ _ => some src
  | .dieResetComplete _ _ => none
  | .powerTransitionComplete _ => none
  | .ctxSaveComplete _ => none
  | .remoteWindowRequest _ _ _ _ _ => none
  | .oobLinkChange _ => none
  | .hubSnapTake => none
  | .hubSnapComplete => none
  | .hubBankMigrationComplete => none
  | .routeCommitTakeEffect => none
  | .parentLossTimeout => none
  | .holdoverTimeout => none
  | .syncMarkMissed => none
  | .mbxWatchdogExpiry => none
  | .healthScoreCompute => none
  | .dayRollover => none
  | .qRequestRepeat => none
  | .quarantineTakeEffect => none
  | .tokenLapse => none
  | .logIntake => none
  | .mirrorCopy => none
  | .ledgerRecordWrite => none
  | .claimWindowClose => none
  | .refclkLoss => none
  | .refclkReturn => none
  | .inputPowerLoss => none
  | .insertionLevelStep => none
  | .modEnRise => none
  | .modEnFall => none
  | .smbusAlertResponse => none
  | .fabricTimeUnitFailure => none

/-- The packet a command brings. -/
def Instr.packet? : Instr → Option Packet
  | .muleInstruction _ _ => none
  | .ebreak _ _ => none
  | .maPass _ _ _ _ _ => none
  | .maPassInputEnd _ _ => none
  | .maPassComplete _ _ _ => none
  | .eeRun _ _ _ _ _ => none
  | .eeRowEnd _ _ => none
  | .eeRunComplete _ _ => none
  | .eeCompress _ _ _ _ _ => none
  | .eeCompressComplete _ _ => none
  | .eeExpand _ _ _ _ _ => none
  | .eeExpandComplete _ _ => none
  | .dmaCopy _ _ _ _ _ => none
  | .dmaCopyComplete _ _ _ _ => none
  | .henLaunch _ _ _ _ _ => none
  | .henLaunchU _ _ _ _ _ => none
  | .henRequestIssue _ _ => none
  | .henReply _ _ _ _ _ => none
  | .henRequestTimeout _ _ _ => none
  | .henLateReply _ _ => none
  | .henJobComplete _ _ => none
  | .asStream _ _ _ _ _ => none
  | .slotArm _ _ _ _ _ => none
  | .lrWait _ _ _ => none
  | .lrTest _ _ _ _ => none
  | .endOp _ _ => none
  | .muleWaitRelease _ _ => none
  | .callr _ _ _ _ _ => none
  | .retr _ _ => none
  | .routineBudgetPadEnd _ _ => none
  | .urBr _ _ _ _ _ _ => none
  | .urJoin _ _ _ _ _ => none
  | .urPadEnd _ _ => none
  | .psyncWrite _ _ _ _ => none
  | .psyncInsertionEnd _ _ => none
  | .muleThermalGate _ _ => none
  | .unitIdleTimerExpiry _ => none
  | .unitWake _ => none
  | .wakePoint _ _ => none
  | .pageWalkComplete _ _ _ _ _ _ _ => none
  | .tlbInvalGo _ _ => none
  | .tlbInvalDone _ => none
  | .pfResolve _ _ => none
  | .hbmRefreshSlot _ _ _ _ => none
  | .hbmMigrateStart _ _ => none
  | .hbmMigrationComplete _ => none
  | .peerRead _ _ k _ => some k
  | .peerWrite _ _ k _ => some k
  | .peerAtomic _ _ k _ => some k
  | .peerReply _ k => some k
  | .bpApply _ _ => none
  | .bpFwAllocate _ _ => none
  | .bpFwFree _ _ => none
  | .bpFreeWrite _ _ => none
  | .arrColcfgApply _ _ _ => none
  | .hubPacketIngress _ k _ => some k
  | .hubEgressCell _ _ => none
  | .hubPartitionWrite _ => none
  | .hubDtAlphaWrite _ => none
  | .hubEgressShareWrite _ => none
  | .hubBankMigrateStart _ => none
  | .hubBankRemove _ => none
  | .oxDispatch _ _ => none
  | .oxStepFire _ _ _ _ => none
  | .oxStepComplete _ _ => none
  | .round _ _ => none
  | .carry _ _ => none
  | .merge _ _ _ => none
  | .sort _ _ _ => none
  | .topk _ _ _ => none
  | .filter _ _ _ => none
  | .isect _ _ _ => none
  | .diff _ _ _ => none
  | .union _ _ _ => none
  | .load _ _ => none
  | .gather _ _ => none
  | .emit _ _ => none
  | .oxOpenReceive k _ => some k
  | .oxAbortReceive k => some k
  | .oxAbortSend _ => none
  | .collTimeout _ => none
  | .collCoolExpiry _ => none
  | .collFetchPacket _ _ => none
  | .collResultWrite _ k => some k
  | .collBind _ _ _ _ => none
  | .collStart _ _ _ => none
  | .collAbort _ _ _ => none
  | .collFree _ _ _ => none
  | .collStatus _ _ => none
  | .flitSend _ => none
  | .flitReceive _ _ => none
  | .controlCell _ _ => none
  | .linkAckTimeout _ => none
  | .linkSignalLoss _ _ => none
  | .linkTrainingComplete _ _ => none
  | .linkRetrainDelayExpiry _ => none
  | .flightRemeasure _ _ => none
  | .laneErrorCheck _ => none
  | .laneSwap _ => none
  | .linkCtlEnableClear _ => none
  | .linkCtlRetrain _ => none
  | .routeWrite _ _ _ _ _ _ _ => none
  | .routeCommit _ _ _ => none
  | .routeStatus _ => none
  | .linkSet _ _ _ _ => none
  | .linkStatus _ _ => none
  | .windowSet _ _ _ _ _ _ _ => none
  | .epochFlush _ _ => none
  | .timeCellSend _ => none
  | .timeCell _ _ => none
  | .syncPulseDrive _ _ => none
  | .syncPulseReceive _ _ => none
  | .launchPrewake _ => none
  | .launchStart _ => none
  | .periodStart _ _ _ => none
  | .periodLagTimeout _ => none
  | .slotData _ k _ => some k
  | .slotConsume _ _ => none
  | .schedCollFetchStart _ _ => none
  | .schedAbortSend _ => none
  | .schedAbortPacket k => some k
  | .launchResourcesRelease _ => none
  | .schedLoad _ _ _ _ => none
  | .schedUnload _ _ => none
  | .schedStatus _ _ => none
  | .schedStop _ _ _ => none
  | .schedAbort _ _ => none
  | .timeStatus _ => none
  | .timeSet _ _ => none
  | .ethFrameReceive _ _ _ => none
  | .arpRequest _ _ _ => none
  | .pfcFrame _ _ _ _ => none
  | .pfcPauseExpiry _ _ _ => none
  | .pfcRepeat _ _ _ => none
  | .pfcXon _ _ _ _ => none
  | .mboxSegment _ _ _ => none
  | .dataSegment _ _ _ _ => none
  | .ackSegment _ _ _ => none
  | .nakSegment _ _ _ => none
  | .transportAckTimer _ => none
  | .xportRtoExpiry _ => none
  | .xferDoneSend _ => none
  | .getDataSend _ _ => none
  | .egressFrameSelect _ _ => none
  | .shaperWheelSlot _ _ => none
  | .entryShaperRelease _ _ => none
  | .subportLinkChange _ _ _ => none
  | .portSet _ _ _ _ _ _ => none
  | .portStatus _ _ => none
  | .xferOpen _ _ _ _ _ _ _ => none
  | .xferStatus _ _ => none
  | .xferCancel _ _ => none
  | .meterSet _ _ _ _ _ _ _ _ _ => none
  | .queueSet _ _ _ _ _ _ _ => none
  | .entrySet _ _ => none
  | .mailboxFrame _ _ _ => none
  | .mailboxCommandStart _ _ => none
  | .sessionOpen _ _ _ _ => none
  | .sessionClose _ => none
  | .ctrlEnrol _ _ _ _ _ _ _ => none
  | .ctrlRevoke _ _ _ _ _ => none
  | .ctrlList _ => none
  | .ctxCreate _ _ _ _ _ _ => none
  | .ctxDestroy _ _ => none
  | .ctxStatus _ _ => none
  | .ctxSave _ _ => none
  | .ctxList _ _ => none
  | .ctxReset _ _ => none
  | .ctxAdopt _ _ => none
  | .ctxHalt _ _ => none
  | .memPfResolve _ _ _ _ => none
  | .tlbFlush _ _ _ _ _ _ => none
  | .exportSet _ _ _ _ => none
  | .poolSet _ _ _ _ _ => none
  | .memModeSet _ _ _ _ => none
  | .poolStatus _ _ => none
  | .progLoad _ _ _ _ _ => none
  | .launch _ _ _ _ _ => none
  | .routineLoad _ _ _ _ _ => none
  | .routinePatch _ _ _ _ _ => none
  | .unitDisable _ _ _ _ _ => none
  | .unitEnable _ _ _ _ => none
  | .dbgBreakSet _ _ _ _ _ _ _ => none
  | .dbgResume _ _ _ => none
  | .dbgStep _ _ _ _ => none
  | .dbgHalt _ _ _ _ => none
  | .devInfo _ => none
  | .devCaps _ => none
  | .stateRead _ _ _ => none
  | .stateWrite _ _ _ _ => none
  | .stateSnap _ _ _ => none
  | .unitMap _ _ => none
  | .collLinesRead _ _ _ _ _ _ => none
  | .saveRead _ _ _ _ _ _ _ => none
  | .ctxView _ _ => none
  | .collList _ _ => none
  | .monitorSample _ _ _ => none
  | .tileSubstitution _ _ _ => none
  | .healthStatus _ => none
  | .monRead _ _ _ => none
  | .logRead _ _ _ => none
  | .mirrorRead _ _ _ => none
  | .ledgerRead _ _ _ => none
  | .spareList _ => none
  | .spareApply _ _ _ _ => none
  | .selftest _ _ _ _ _ => none
  | .quarantineGrant _ _ _ _ _ => none
  | .quarantineRelease _ => none
  | .healthSet _ _ _ => none
  | .progressRead _ _ => none
  | .progressMark _ _ _ => none
  | .ledgerNote _ _ => none
  | .histRead _ _ => none
  | .powerOn _ => none
  | .gooseRestart _ => none
  | .dieReset _ _ => none
  | .configCommitRun _ _ => none
  | .cfgRead _ _ _ _ => none
  | .cfgSet _ _ _ _ _ => none
  | .cfgCommit _ _ => none
  | .cfgDiscard _ => none
  | .cfgStatus _ => none
  | .ownerSet _ _ _ _ _ _ _ => none
  | .idCert _ => none
  | .attestQuote _ _ _ => none
  | .measRead _ => none
  | .measExtend _ _ => none
  | .fwWrite _ _ _ _ => none
  | .fwActivate _ _ => none
  | .fwStatus _ => none
  | .factoryRead _ _ => none
  | .svnRaise _ _ _ => none
  | .powerSample _ _ _ _ _ => none
  | .trip _ _ => none
  | .pmbusPoll _ => none
  | .pmbAlert _ => none
  | .smbusBlockRead _ => none
  | .clkStatus _ _ => none
  | .pwrStatus _ => none
  | .powerStateSet _ _ => none
  | .idleTimerSet _ _ => none
  | .unitSleep _ _ _ _ _ => none
  | .thermSet _ _ => none
  | .tripClear _ => none
  | .registerWrite _ _ => none
  | .testPortInstruction _ => none
  | .pmbusRead _ _ _ _ _ => none
  | .dieResetComplete _ _ => none
  | .powerTransitionComplete _ => none
  | .ctxSaveComplete _ => none
  | .remoteWindowRequest _ _ k _ _ => some k
  | .oobLinkChange _ => none
  | .hubSnapTake => none
  | .hubSnapComplete => none
  | .hubBankMigrationComplete => none
  | .routeCommitTakeEffect => none
  | .parentLossTimeout => none
  | .holdoverTimeout => none
  | .syncMarkMissed => none
  | .mbxWatchdogExpiry => none
  | .healthScoreCompute => none
  | .dayRollover => none
  | .qRequestRepeat => none
  | .quarantineTakeEffect => none
  | .tokenLapse => none
  | .logIntake => none
  | .mirrorCopy => none
  | .ledgerRecordWrite => none
  | .claimWindowClose => none
  | .refclkLoss => none
  | .refclkReturn => none
  | .inputPowerLoss => none
  | .insertionLevelStep => none
  | .modEnRise => none
  | .modEnFall => none
  | .smbusAlertResponse => none
  | .fabricTimeUnitFailure => none

end Sys2Proof
end

