-- ==== Sys2Proof/Config.lean ====
section
/-! DEFINITION. What an implementation fixes and what the spec leaves open: constants without a body, of which nothing can be
proved (log entries 4 and 9). -/

namespace Sys2Proof

/-- What an address stream descriptor says (R89): an affine nest, innermost dimension first as (count, stride), or an index list
in data memory of `entries` 32-bit entries, scaled and added to the base. -/
structure StreamDesc where
  gen : Fin 4 := 0
  base : Nat := 0
  indexed : Bool := false
  dims : List (Nat × Int) := []
  list : Nat := 0
  entries : Nat := 0
  size : Nat := 1
  deriving DecidableEq, Repr, Inhabited

/-- What a patch image carries (R169): the routine, its directory fields (R144) and code, the digest with the bytes it covers, the
signature with the bytes it signs. -/
structure PatchImage where
  number : Nat := 0
  version : Nat := 0
  flags : Nat := 0
  tags : Nat := 0
  code : List Byte := []
  body : List Byte := []
  digest : List Byte := []
  signed : List Byte := []
  sig : List Byte := []
  deriving DecidableEq, Repr, Inhabited

namespace Config

/-- What an operand bit field reads as when it was written while a pass or an EE.RUN that reads it ran (R102, R125): by draw and
bit address. -/
opaque undefBits : Nat → Nat → Nat

/-- A cell's FP32 value after a group that holds a special product or rounds out of range, which the spec does not give (log entry 14). -/
opaque spoilt : Nat → Nat

/-- How the 56 body bytes of an address stream descriptor are laid out: the spec gives no layout (log entry 13). -/
opaque streamDesc : List Byte → StreamDesc

/-- The address a stream supplies past its last position, which the spec does not give (log entry 13). -/
opaque streamBeyond : List Byte → Nat → Word

/-- How many instructions the epilogue program of a tiled matrix product holds (R154): the spec gives no length (log entry 22). -/
opaque epilogueLen : List Byte → Nat

/-- The k-th free value drawn: a value the spec leaves undefined (log entry 4). -/
opaque freeWord : Nat → Word

/-- The PUF secret S (R459). -/
opaque deviceSecret : List Byte

/-- The identity public key, modulus and exponent (R476). -/
opaque identityKey : List Byte

/-- A signature by the identity key (R476, R482). -/
opaque identitySign : List Byte → List Byte

/-- The k-th session key generated (R399). -/
opaque sessionKey : Nat → List Byte

/-- The k-th initial PSN pair generated (R380). -/
opaque initialPsn : Nat → Nat × Nat

/-- RSA-OAEP encryption under a public key, with the k-th random seed (R399). -/
opaque oaep : List Byte → List Byte → Nat → List Byte

/-- The ROM's hashes of the four release keys (R464). -/
opaque releaseHash : Nat → List Byte

/-- The two library keys whose hashes the ROM holds (R464): modulus and exponent. How a key reaches the check of R168 the spec does not
give (log entry 33). -/
opaque libraryKey : Nat → List Byte

/-- What a patch image carries (R169): the spec gives no layout (log entry 33). -/
opaque patchImage : List Byte → PatchImage

/-- The core voltage setpoint of a die without trim, in mV (R462): the spec gives no value. -/
opaque defaultSetpoint : Nat → Nat

/-- Row repair resources of the 16 stacks together: the spec does not give the number of banks (R202, R442). -/
opaque repairRows : Nat

/-- The silicon revision of a die (R423). -/
opaque revision : Nat → Nat

/-- The state each compute instruction of a routine outside the spec would leave: the status word of an installed routine whose
results the spec does not give (R146). -/
opaque routineResult : Nat → Word

end Config

end Sys2Proof
end

