-- ==== Sys2Proof/Machine/Tab.lean ====
section
/-! DEFINITION. Sparse tables and byte memories as canonical lists, byte order, bit fields, error values. -/

namespace Sys2Proof

/-- The value of an error code (R531). -/
def Err.code : Err → Nat
  | .ok => 0x00 | .badcmd => 0x01 | .badarg => 0x02 | .range => 0x03 | .align => 0x04
  | .denied => 0x05 | .busy => 0x06 | .seq => 0x07 | .quota => 0x08 | .nomem => 0x09
  | .width => 0x0A | .unitBusy => 0x0B | .planeBusy => 0x0C | .imemActive => 0x0D
  | .prot => 0x0E | .pagefault => 0x0F | .aborted => 0x10 | .route => 0x11 | .epoch => 0x12
  | .checksum => 0x13 | .sig => 0x14 | .uncorr => 0x15 | .residue => 0x16 | .internal => 0x17
  | .schedEarly => 0x18 | .schedLate => 0x19 | .schedUnderrun => 0x1A | .collMismatch => 0x1B
  | .collTimeout => 0x1C | .collAborted => 0x1D | .cfgSeq => 0x1E | .cfgDigest => 0x1F

/-- The error a code names, OK for a value R531 reserves. -/
def Err.ofCode (n : Nat) : Err :=
  ([.ok, .badcmd, .badarg, .range, .align, .denied, .busy, .seq, .quota, .nomem, .width, .unitBusy,
    .planeBusy, .imemActive, .prot, .pagefault, .aborted, .route, .epoch, .checksum, .sig, .uncorr,
    .residue, .internal, .schedEarly, .schedLate, .schedUnderrun, .collMismatch, .collTimeout,
    .collAborted, .cfgSeq, .cfgDigest] : List Err).getD n .ok

/-- The lower of two codes, compared as unsigned integers (R76, R304, R359). -/
def Err.min (a b : Err) : Err := if a.code ≤ b.code then a else b

/-- The entry of a table at an index, if one is listed. -/
def Tab.find? {α : Type} : Tab α → Nat → Option α
  | [], _ => none
  | (j, v) :: t, k => if j = k then some v else Tab.find? t k

/-- The entry at an index, with `d` where none is listed. -/
def Tab.get {α : Type} (d : α) (t : Tab α) (k : Nat) : α := (Tab.find? t k).getD d

/-- A table without its entry at `k`. -/
def Tab.del {α : Type} (t : Tab α) (k : Nat) : Tab α := t.filter fun e => e.1 ≠ k

/-- Insert an entry before the first greater index. -/
def Tab.ins {α : Type} : Tab α → Nat → α → Tab α
  | [], k, v => [(k, v)]
  | (j, w) :: t, k, v => if k < j then (k, v) :: (j, w) :: t else (j, w) :: Tab.ins t k v

/-- List an entry at `k`, in place of any other there. -/
def Tab.put {α : Type} (t : Tab α) (k : Nat) (v : α) : Tab α := Tab.ins (Tab.del t k) k v

/-- Set the entry at `k` of a table whose unlisted entries read `d`: `d` itself is never listed. -/
def Tab.set {α : Type} [DecidableEq α] (d : α) (t : Tab α) (k : Nat) (v : α) : Tab α :=
  if v = d then Tab.del t k else Tab.put t k v

/-- Change the entry at `k`. -/
def Tab.modify {α : Type} [DecidableEq α] (d : α) (t : Tab α) (k : Nat) (f : α → α) : Tab α :=
  Tab.set d t k (f (Tab.get d t k))

/-- Change every listed entry. Used with an `f` that leaves the unlisted value alone. -/
def Tab.remap {α : Type} [DecidableEq α] (d : α) (f : Nat → α → α) (t : Tab α) : Tab α :=
  t.foldl (fun r e => Tab.set d r e.1 (f e.1 (Tab.get d t e.1))) t

/-- Whether an index is listed. -/
def Tab.has {α : Type} (t : Tab α) (k : Nat) : Bool := (Tab.find? t k).isSome

/-- The canonical form: strictly rising indices, no entry equal to the unlisted one. -/
def Tab.wf {α : Type} [DecidableEq α] (d : α) (t : Tab α) : Bool :=
  decide (t.Pairwise fun a b => a.1 < b.1) && t.all fun e => decide (e.2 ≠ d)

/-- What an unlisted byte of any memory reads as: zero (DESIGN CHOICE, log entry 3). -/
def Mem.unlisted : Byte := 0

/-- The canonical form of a byte memory. -/
def Memory.wf (m : Mem) : Bool := Tab.wf Mem.unlisted m

/-- One byte of a memory. -/
def Mem.read (m : Mem) (a : Nat) : Byte := Tab.get Mem.unlisted m a

/-- Write one byte. -/
def Mem.write (m : Mem) (a : Nat) (b : Byte) : Mem := Tab.set Mem.unlisted m a b

/-- `n` bytes from `a`, the lowest address first. -/
def Mem.readN (m : Mem) (a : Nat) : Nat → List Byte
  | 0 => []
  | n + 1 => Mem.read m a :: Mem.readN m (a + 1) n

/-- Write bytes at rising addresses from `a`. -/
def Mem.writeN (m : Mem) (a : Nat) : List Byte → Mem
  | [] => m
  | b :: bs => Mem.writeN (Mem.write m a b) (a + 1) bs

/-- Little-endian value of bytes (R8). -/
def leNat : List Byte → Nat
  | [] => 0
  | b :: bs => b.toNat + 256 * leNat bs

/-- `n` little-endian bytes of a value (R8). -/
def leBytes : Nat → Nat → List Byte
  | 0, _ => []
  | n + 1, x => BitVec.ofNat 8 x :: leBytes n (x / 256)

/-- Big-endian value of bytes (keys and signatures, R396). -/
def beNat (bs : List Byte) : Nat := bs.foldl (fun a b => a * 256 + b.toNat) 0

/-- `n` big-endian bytes of a value. -/
def beBytes (n x : Nat) : List Byte := (leBytes n x).reverse

/-- Little-endian value of `n` bytes at `a`. -/
def Mem.readLe (m : Mem) (a n : Nat) : Nat := leNat (Mem.readN m a n)

/-- Write `n` little-endian bytes of a value at `a`. -/
def Mem.writeLe (m : Mem) (a n x : Nat) : Mem := Mem.writeN m a (leBytes n x)

/-- The value of a record's `n` bytes from byte `o` (short records read as zero there). -/
def fld (bs : List Byte) (o n : Nat) : Nat := leNat ((bs.drop o).take n)

/-- Bits [hi:lo] of a value. -/
def bits (x hi lo : Nat) : Nat := (x >>> lo) % 2 ^ (hi + 1 - lo)

/-- Bit `i` of a value. -/
def bit (x i : Nat) : Bool := (x >>> i) % 2 = 1

/-- A flag as a bit. -/
def b2n (b : Bool) : Nat := if b then 1 else 0

/-- Whether every byte of a range of a record is zero (reserved fields, R10). -/
def zeroAt (bs : List Byte) (o n : Nat) : Bool := fld bs o n = 0

/-- The signed value of a `w`-bit pattern. -/
def sx (w x : Nat) : Int := if x % 2 ^ w < 2 ^ (w - 1) then (x % 2 ^ w : Int) else (x % 2 ^ w : Int) - 2 ^ w

/-- The `w`-bit pattern of a signed value. -/
def ux (w : Nat) (x : Int) : Nat := (x % (2 ^ w : Int)).toNat

/-- Ceiling division. -/
def cdiv (a b : Nat) : Nat := (a + b - 1) / b

/-- A counter that holds at its maximum (R524). -/
def sat (w x : Nat) : Nat := if x < 2 ^ w then x else 2 ^ w - 1

/-- Replace the bits of `old` under `mask` by those of `new`. -/
def mergeBits (old new mask : Nat) : Nat := (old - (old &&& mask)) ||| (new &&& mask)

/-- Set a bit of a value to a flag. -/
def setBit (x i : Nat) (b : Bool) : Nat := if bit x i = b then x else if b then x + 2 ^ i else x - 2 ^ i

/-- Replace bytes of a list from offset `o`. -/
def patch (bs : List Byte) (o : Nat) (new : List Byte) : List Byte :=
  bs.take o ++ new ++ bs.drop (o + new.length)

/-- A list padded with zero bytes to length `n`, or cut there. -/
def padTo (n : Nat) (bs : List Byte) : List Byte := (bs ++ List.replicate n 0).take n

/-- The integer square root, by bisection below `2 ^ n`. -/
def isqrtFrom : Nat → Nat → Nat → Nat
  | 0, r, _ => r
  | n + 1, r, x => if (r + 2 ^ n) ^ 2 ≤ x then isqrtFrom n (r + 2 ^ n) x else isqrtFrom n r x

/-- `floor (sqrt x)` for x below 2^256. -/
def isqrt (x : Nat) : Nat := isqrtFrom 128 0 x

end Sys2Proof
end

