-- ==== Sys2Proof/Machine/Crypto.lean ====
section
/-! DEFINITION. Check codes and digests the spec names: CRC-16 and CRC-32 (R325), SHA-256, HMAC-SHA-256 and RSASSA-PKCS1-v1_5
(R379, R396, R397, R401, R459), whose definitions are the published ones (PRESUMED, log entry 10). -/

namespace Sys2Proof

/-- One byte of CRC-16, polynomial 0x1021, no reflection (R325). -/
def crc16Byte (c : Nat) (b : Byte) : Nat :=
  (List.range 8).foldl (fun c _ => if bit c 15 then ((c <<< 1) ^^^ 0x1021) % 65536 else (c <<< 1) % 65536)
    (c ^^^ (b.toNat <<< 8))

/-- CRC-16 of R325. -/
def crc16 (bs : List Byte) : Nat := bs.foldl crc16Byte 0xFFFF

/-- One byte of the reflected CRC-32 (R325). -/
def crc32Byte (c : Nat) (b : Byte) : Nat :=
  (List.range 8).foldl (fun c _ => if bit c 0 then (c >>> 1) ^^^ 0xEDB88320 else c >>> 1) (c ^^^ b.toNat)

/-- CRC-32 of R325. -/
def crc32 (bs : List Byte) : Nat := (bs.foldl crc32Byte 0xFFFFFFFF) ^^^ 0xFFFFFFFF

/-- 32-bit right rotation. -/
def rotr32 (x n : Nat) : Nat := (x >>> n ||| x <<< (32 - n)) % 2 ^ 32

/-- The round constants of SHA-256. -/
def sha256K : List Nat :=
  [0x428a2f98, 0x71374491, 0xb5c0fbcf, 0xe9b5dba5, 0x3956c25b, 0x59f111f1, 0x923f82a4, 0xab1c5ed5] ++
  [0xd807aa98, 0x12835b01, 0x243185be, 0x550c7dc3, 0x72be5d74, 0x80deb1fe, 0x9bdc06a7, 0xc19bf174] ++
  [0xe49b69c1, 0xefbe4786, 0x0fc19dc6, 0x240ca1cc, 0x2de92c6f, 0x4a7484aa, 0x5cb0a9dc, 0x76f988da] ++
  [0x983e5152, 0xa831c66d, 0xb00327c8, 0xbf597fc7, 0xc6e00bf3, 0xd5a79147, 0x06ca6351, 0x14292967] ++
  [0x27b70a85, 0x2e1b2138, 0x4d2c6dfc, 0x53380d13, 0x650a7354, 0x766a0abb, 0x81c2c92e, 0x92722c85] ++
  [0xa2bfe8a1, 0xa81a664b, 0xc24b8b70, 0xc76c51a3, 0xd192e819, 0xd6990624, 0xf40e3585, 0x106aa070] ++
  [0x19a4c116, 0x1e376c08, 0x2748774c, 0x34b0bcb5, 0x391c0cb3, 0x4ed8aa4a, 0x5b9cca4f, 0x682e6ff3] ++
  [0x748f82ee, 0x78a5636f, 0x84c87814, 0x8cc70208, 0x90befffa, 0xa4506ceb, 0xbef9a3f7, 0xc67178f2]

/-- One word of the message schedule; `w` holds the words so far, the latest first. -/
def sha256Extend (w : List Nat) : List Nat :=
  let a := w.getD 14 0
  let b := w.getD 1 0
  let s0 := rotr32 a 7 ^^^ rotr32 a 18 ^^^ (a >>> 3)
  let s1 := rotr32 b 17 ^^^ rotr32 b 19 ^^^ (b >>> 10)
  ((w.getD 15 0 + s0 + w.getD 6 0 + s1) % 2 ^ 32) :: w

/-- One round over the eight working words. -/
def sha256Round : List Nat → Nat × Nat → List Nat
  | [a, b, c, d, e, f, g, h], (k, w) =>
    let t1 := h + (rotr32 e 6 ^^^ rotr32 e 11 ^^^ rotr32 e 25) + ((e &&& f) ^^^ ((2 ^ 32 - 1 - e) &&& g)) + k + w
    let t2 := (rotr32 a 2 ^^^ rotr32 a 13 ^^^ rotr32 a 22) + ((a &&& b) ^^^ (a &&& c) ^^^ (b &&& c))
    [(t1 + t2) % 2 ^ 32, a, b, c, (d + t1) % 2 ^ 32, e, f, g]
  | v, _ => v

/-- One 64-byte block, as 16 big-endian words. -/
def sha256Block (h : List Nat) (block : List Byte) : List Nat :=
  let w0 := (List.range 16).foldl (fun w i => beNat ((block.drop (4 * i)).take 4) :: w) []
  let w := ((List.range 48).foldl (fun w _ => sha256Extend w) w0).reverse
  let v := (sha256K.zip w).foldl sha256Round h
  (h.zip v).map fun p => (p.1 + p.2) % 2 ^ 32

/-- SHA-256. -/
def sha256 (bs : List Byte) : List Byte :=
  let pad := (119 - bs.length % 64) % 64
  let m := bs ++ [0x80] ++ List.replicate pad 0 ++ beBytes 8 (8 * bs.length)
  let h0 := [0x6a09e667, 0xbb67ae85, 0x3c6ef372, 0xa54ff53a, 0x510e527f, 0x9b05688c, 0x1f83d9ab, 0x5be0cd19]
  ((List.range (m.length / 64)).foldl (fun h i => sha256Block h ((m.drop (64 * i)).take 64)) h0).flatMap (beBytes 4)

/-- HMAC-SHA-256 under keys of at most 64 bytes. -/
def hmac (key msg : List Byte) : List Byte :=
  let k := padTo 64 key
  sha256 (k.map (· ^^^ 0x5C) ++ sha256 (k.map (· ^^^ 0x36) ++ msg))

/-- Modular exponentiation over the low `n` bits of the exponent. -/
def powMod : Nat → Nat → Nat → Nat → Nat
  | 0, _, _, m => 1 % m
  | n + 1, b, e, m =>
    let r := powMod n (b * b % m) (e / 2) m
    if e % 2 = 1 then r * b % m else r

/-- The encoded message of RSASSA-PKCS1-v1_5 with SHA-256 in 384 bytes. -/
def pkcs1Digest (msg : List Byte) : List Byte :=
  let t : List Byte := [0x30, 0x31, 0x30, 0x0d, 0x06, 0x09, 0x60, 0x86, 0x48, 0x01, 0x65, 0x03, 0x04, 0x02, 0x01, 0x05,
    0x00, 0x04, 0x20]
  [0x00, 0x01] ++ List.replicate 330 0xFF ++ [0x00] ++ t ++ sha256 msg

/-- Whether a 384-byte signature of a message verifies under a key given as modulus (384) and exponent (4), big-endian. -/
def rsaVerify (key msg sig : List Byte) : Bool :=
  let n := beNat (key.take 384)
  let e := beNat ((key.drop 384).take 4)
  decide (n ≠ 0) && decide (sig.length = 384) && decide (beNat sig < n) &&
    decide (powMod 32 (beNat sig) e n = beNat (pkcs1Digest msg))

end Sys2Proof
end

