-- ==== Sys2Proof/Machine/StTile.lean ====
section
/-! DEFINITION. State of a tile: the Mule, the matrix array, the element engine. Field defaults are the reset values. -/

namespace Sys2Proof.Machine

/-- MULE_STATUS.STATE (R77). -/
inductive MuleSt where
  | idle | run | wait | pad | haltFault | haltBreak | saved | done
  deriving DecidableEq, Repr, Inhabited

/-- Why a Mule is in WAIT or PAD (R86, R96, R149, R352, R533). -/
inductive WaitWhy where
  | none
  | tags (mask : BitVec 64)
  | ending
  | psync
  | insertion (left : Nat)
  | retPad
  | armPad
  deriving DecidableEq, Repr, Inhabited

/-- One resident routine call (R91, R149, R150). `rd` and `ret` are the CALLR's; `budget` 0 is unpadded; `ready` once a routine of the
catalogue has done its work; `from_` the always-on ns of the call. -/
structure Frame where
  rd : Nat := 0
  ret : Word := 0
  number : Nat := 0
  block : Nat := 0
  budget : Nat := 0
  spent : Nat := 0
  ready : Bool := true
  from_ : Nat := 0
  deriving DecidableEq, Repr, Inhabited

/-- An open arm of a compatibility branch (R96). -/
structure Arm where
  budget : Nat := 0
  spent : Nat := 0
  deriving DecidableEq, Repr, Inhabited

/-- An address stream generator (R89, R90): `pos` is the position of the next address. -/
structure Stream where
  bound : Bool := false
  busy : Bool := false
  user : Nat := 0
  desc : List Byte := []
  pos : Nat := 0
  deriving DecidableEq, Repr, Inhabited

/-- The Mule of a physical tile (R73 to R97). -/
structure Mule where
  st : MuleSt := .idle
  bank : Bool := false
  stack : List Frame := []
  urMode : Bool := false
  debug : Bool := false
  brkPending : Bool := false
  logical : Option Nat := none
  pc : Word := 0
  regs : Tab Word := []
  faultCode : Err := .ok
  faultSource : Nat := 0
  faultUnit : Nat := 0
  faultTag : Nat := 0
  faultPc : Word := 0
  faultLrc : Nat := 0
  lrCount : Nat := 0
  instret : Nat := 0
  tags : BitVec 64 := 0
  switchReq : Bool := false
  loadBusy : Bool := false
  switchPc : Nat := 0
  brkInst : Bool := false
  brkLrc : Bool := false
  brkTag : Bool := false
  brkTagNo : Nat := 0
  brkHit : Bool := false
  brkInstVal : Nat := 0
  brkLrcVal : Nat := 0
  brkSkip : Bool := false
  sumVal : W32 := 0
  sumValid : Bool := false
  sumNan : Bool := false
  sumInf : Bool := false
  arm : Option Arm := none
  deriving DecidableEq, Repr, Inhabited

/-- The Mule's memories and what it runs for; `waitFrom` is the always-on ns at which a WAIT started, `gated` one
above the last 20 us of always-on count in which heat gated the Mule (R499). -/
structure MuleMem where
  dmem : Mem := []
  bank0 : Mem := []
  bank1 : Mem := []
  streams : Tab Stream := []
  wait : WaitWhy := .none
  ctx : Option Nat := none
  cycles : Nat := 0
  gated : Nat := 0
  waitFrom : Nat := 0
  deriving DecidableEq, Repr, Inhabited

/-- Plane states (R107). -/
inductive PlaneSt where
  | empty | filling | full | draining | held
  deriving DecidableEq, Repr, Inhabited

/-- A cell of a plane: the FP32 or INT32 accumulator, the sticky bits Q, I, P, N, V (R54), and whether a group raised
UNDERFLOW or INT_OVF (R56, R57). -/
structure CellV where
  val : W32 := 0
  q : Bool := false
  i : Bool := false
  p : Bool := false
  n : Bool := false
  v : Bool := false
  uf : Bool := false
  ovf : Bool := false
  deriving DecidableEq, Repr, Inhabited

/-- An accumulator plane: cell (r, c) at index 128 r + c. -/
structure Plane where
  st : PlaneSt := .empty
  int32 : Bool := false
  cells : Tab CellV := []
  deriving DecidableEq, Repr, Inhabited

/-- A pass in flight (R103, R108, R118, R121): `from_` is the first k to feed, `inCycles` and `total` the cycles of R103 and R118,
`taint` the operand store ranges written while it ran (R102), `startNs` the always-on ns of its start, `serial` ARR_PASSES before it. -/
structure Pass where
  desc : List Byte := []
  tag : Nat := 0
  lrc : Nat := 0
  plane : Nat := 0
  ltile : Nat := 0
  ieee : Bool := false
  checked : Bool := false
  inputDone : Bool := false
  resumed : Bool := false
  fromK : Nat := 0
  inCycles : Nat := 0
  total : Nat := 0
  serial : Nat := 0
  taint : List (Nat × Nat) := []
  startNs : Nat := 0
  deriving DecidableEq, Repr, Inhabited

/-- A 48-bit event counter with its WRAP bit (R522). -/
structure EvCount where
  count : Nat := 0
  wrap : Bool := false
  deriving DecidableEq, Repr, Inhabited

/-- The matrix array of a physical tile (R98 to R123). `evFrom` is the always-on ns since which its PLL has run, beyond the
cycles in `evCycles` (R522); `stopped` a pass stopped by a pre-emption (R121). -/
structure ArrayU where
  plane0 : Plane := {}
  plane1 : Plane := {}
  passes : List Pass := []
  disabled : Bool := false
  draining : Bool := false
  badA : Word := 0
  badB : Word := 0
  badC : Nat := 0
  map : List Nat := List.range 128
  width : Nat := 128
  spareIdle : Nat := 4
  checkedLaunch : Bool := false
  checkCol : Bool := true
  checkNext : Bool := false
  misCount : Nat := 0
  misLimit : Nat := 3
  resumeK : Nat := 0
  resumeValid : Bool := false
  resumePlane : Nat := 0
  resumeAborted : Bool := false
  passCount : Nat := 0
  evCycles : EvCount := {}
  evFrom : Option Nat := none
  evInput : EvCount := {}
  evDrain : EvCount := {}
  evCheck : EvCount := {}
  stopped : Option Pass := none
  deriving DecidableEq, Repr, Inhabited

/-- A long accumulator (R59); `held` and `val` serve maxima and minima (R264, R266). -/
structure Acc where
  a : Int := 0
  nan : Bool := false
  pinf : Bool := false
  ninf : Bool := false
  nonnegz : Bool := false
  held : Bool := false
  val : W32 := 0
  count : Nat := 0
  res : Nat := 0
  deriving DecidableEq, Repr, Inhabited

/-- The running engine instruction (R124, R136, R138, R141): kind 0 EE.RUN, 1 EE.COMPRESS, 2 EE.EXPAND. -/
structure EeRun where
  kind : Nat := 0
  desc : List Byte := []
  prog : List W32 := []
  consts : List W32 := []
  tag : Nat := 0
  lrc : Nat := 0
  ltile : Nat := 0
  ieee : Bool := false
  rows : Nat := 0
  slots : Nat := 0
  row : Nat := 0
  count : Nat := 0
  total : Nat := 0
  sum : Acc := {}
  sumMax : Option W32 := none
  sumNan : Bool := false
  sumInf : Bool := false
  taint : List (Nat × Nat) := []
  startNs : Nat := 0
  deriving DecidableEq, Repr, Inhabited

/-- The element engine of a physical tile (R124 to R142): register v of lane j at 128 v + j, mask m likewise;
`stopped` an instruction stopped by a pre-emption (R141). -/
structure EeU where
  run : Option EeRun := none
  disabled : Bool := false
  draining : Bool := false
  resumePos : Nat := 0
  resumeValid : Bool := false
  resumeAborted : Bool := false
  resumeKind : Nat := 0
  runs : Nat := 0
  lastCount : Nat := 0
  laneFlags : Tab Nat := []
  vregs : Tab W32 := []
  masks : Tab Bool := []
  stopped : Option EeRun := none
  deriving DecidableEq, Repr, Inhabited

/-- Sleep states (R27). -/
inductive Sleep where
  | running | gated | pllOff | retained
  deriving DecidableEq, Repr, Inhabited

/-- The sleep record of a unit: its state, whether its wake has begun, and until when its idle timer is suppressed (R30, R362). -/
structure SleepU where
  st : Sleep := .running
  waking : Bool := false
  holdUntil : Nat := 0
  deriving DecidableEq, Repr, Inhabited

/-- A physical tile (R15, R16); `disabled` and `draining` by UNIT_DISABLE of the tile (R415). -/
structure Tile where
  mule : Mule := {}
  mem : MuleMem := {}
  arr : ArrayU := {}
  ee : EeU := {}
  os : Mem := []
  sleep : SleepU := {}
  disabled : Bool := false
  draining : Bool := false
  deriving DecidableEq, Repr, Inhabited

end Sys2Proof.Machine
end

