-- ==== Sys2Proof/Machine/StDie.lean ====
section
/-! DEFINITION. State of a compute die beside its tiles: Hen, HBM3E controller, translation, DMA, pools, slots, routine store. -/

namespace Sys2Proof.Machine

/-- The routine store and its registers (R143, R145). -/
structure RoutineStore where
  mem : Mem := []
  libVersion : Nat := 0
  patches : Nat := 0
  calls : Nat := 0
  busy : Bool := false
  deriving DecidableEq, Repr, Inhabited

/-- A request entry of a Hen thread (R193), with its bytes, its position in the item, and its reply once it is held (R181); `stuck` when
the job's own side of it faulted (R188). -/
structure HenReq where
  addr : Nat := 0
  target : Nat := 0
  kind : Nat := 0
  item : Nat := 0
  len : Nat := 0
  off : Nat := 0
  held : Bool := false
  stuck : Bool := false
  status : Err := .ok
  data : List Byte := []
  deriving DecidableEq, Repr, Inhabited

/-- A Hen thread (R193): `lo` and `deg` hold the adjacency bounds of the current item, `late` the requests that timed out. -/
structure HenThread where
  st : Nat := 0
  slot : Nat := 0xFF
  k : Nat := 0
  item : Nat := 0
  pos : Nat := 0
  faultVa : Nat := 0
  faultCode : Err := .ok
  lo : Nat := 0
  deg : Nat := 0
  boundsKnown : Bool := false
  reqs : Tab HenReq := []
  late : Nat := 0
  deriving DecidableEq, Repr, Inhabited

/-- A Hen job (R192): `committed` marks the items complete above COMMIT_LOW, `claims` the board-peer slots an INSERT has claimed, `stop`
a data stop, `flags` those raised so far. -/
structure HenJob where
  desc : List Byte := []
  st : Nat := 0
  unordered : Bool := false
  code : Err := .ok
  commitLow : Nat := 0
  lrc : Nat := 0
  faultItem : Nat := 0
  count : Nat := 0
  threads : Nat := 0
  tag : Nat := 0
  ltile : Nat := 0
  ctx : Nat := 0
  ieee : Bool := false
  hash : List Byte := []
  stop : Err := .ok
  flags : Nat := 0
  committed : Tab Bool := []
  claims : Tab (List Byte) := []
  deriving DecidableEq, Repr, Inhabited

/-- The Hen of a compute die (R171 to R196). -/
structure Hen where
  jobs : Tab HenJob := []
  threads : Tab HenThread := []
  allot : Tab Nat := []
  timeout : Nat := 0x64
  jobCount : Nat := 0
  reqCount : Nat := 0
  late : Nat := 0
  disabled : Bool := false
  draining : Bool := false
  quiescing : Bool := false
  sleep : SleepU := {}
  deriving DecidableEq, Repr, Inhabited

/-- An HBM_EXPORT entry (R206). -/
structure Export where
  base : Nat := 0
  len2m : Nat := 0
  peers : Nat := 0
  access : Nat := 0
  deriving DecidableEq, Repr, Inhabited

/-- A repair table entry (R204): kind 1 soft, 2 hard. -/
structure Repair where
  pc : Nat := 0
  bank : Nat := 0
  row : Nat := 0
  kind : Nat := 0
  deriving DecidableEq, Repr, Inhabited

/-- The HBM3E controller (R197 to R206). -/
structure Hbm where
  ready : Bool := false
  fastRef : Bool := false
  sparesUsed : Nat := 0
  migrating : Bool := false
  repairing : Option (Nat × Nat × Nat × Nat) := none
  logicalSel : Nat := 0
  migDone : Bool := false
  migCode : Err := .ok
  ce : Nat := 0
  ue : Nat := 0
  scrubPasses : Nat := 0
  scrubLine : Tab Nat := []
  softRepairs : Nat := 0
  hardRepairs : Nat := 0
  temp : Int := 0
  pcMap : Tab Nat := []
  exports : Tab Export := []
  repairs : List Repair := []
  rowCe : Tab Nat := []
  rowQueue : List (Nat × Nat × Nat) := []
  pcUe : Tab Nat := []
  ueSeen : Tab Bool := []
  deriving DecidableEq, Repr, Inhabited

/-- A translation slot (R209). -/
structure TSlot where
  bound : Bool := false
  ctx : Nat := 0
  fail : Bool := false
  gen : Nat := 0
  l1 : Nat := 0
  deriving DecidableEq, Repr, Inhabited

/-- A TLB entry of a slot (R210). -/
structure TlbE where
  va : Nat := 0
  size : Nat := 0
  pa : Nat := 0
  write : Bool := false
  pinned : Bool := false
  deriving DecidableEq, Repr, Inhabited

/-- A walk-cache entry of a slot (R210): an entry of level 1 to 3 for the addresses from `va`, the next table it names, and whether every
level down to it has WRITE. -/
structure WalkE where
  level : Nat := 0
  va : Nat := 0
  size : Nat := 0
  table : Nat := 0
  write : Bool := false
  deriving DecidableEq, Repr, Inhabited

/-- A requester parked on a page fault: kind 0 a DMA engine, 1 a Hen thread (R213); `call` the physical tile when it works for a
resident routine. -/
structure Requester where
  kind : Nat := 0
  no : Nat := 0
  call : Option Nat := none
  deriving DecidableEq, Repr, Inhabited

/-- A fault record (R213) at a place of the queue, with the requesters waiting on it. -/
structure FaultRec where
  id : Nat := 0
  ctx : Nat := 0
  slot : Nat := 0
  who : Requester := {}
  access : Nat := 0
  level : Nat := 0
  stream : Bool := false
  va : Nat := 0
  time : Nat := 0
  place : Nat := 0
  waiters : List Requester := []
  deriving DecidableEq, Repr, Inhabited

/-- The translation unit (R209 to R216): `overflow` are faults met while the queue was full. -/
structure Trans where
  slots : Tab TSlot := []
  tlb : Tab (List TlbE) := []
  walkc : Tab (List WalkE) := []
  walks : Nat := 0
  misses : Nat := 0
  invSlot : Nat := 0
  invAll : Bool := false
  invDone : Bool := true
  invBase : Nat := 0
  invLen : Nat := 0
  faults : List FaultRec := []
  overflow : List FaultRec := []
  nextId : Nat := 0
  pfHead : Nat := 0
  deriving DecidableEq, Repr, Inhabited

/-- A DMA instruction: descriptor, tag, count and issuing tile. -/
structure DmaInst where
  desc : List Byte := []
  tag : Nat := 0
  lrc : Nat := 0
  ltile : Nat := 0
  ctx : Nat := 0
  deriving DecidableEq, Repr, Inhabited

/-- A DMA engine record (R220): state 0 IDLE, 1 RUN, 2 PARKED, 3 FAILED, 4 ABORTED, 5 SAVED. -/
structure DmaEng where
  st : Nat := 0
  cur : DmaInst := {}
  queue : List DmaInst := []
  code : Err := .ok
  resume : Nat := 0
  faultVa : Nat := 0
  disabled : Bool := false
  draining : Bool := false
  deriving DecidableEq, Repr, Inhabited

/-- The eight DMA engines (R217 to R221). -/
structure Dma where
  engines : Tab DmaEng := []
  bytes : Nat := 0
  deriving DecidableEq, Repr, Inhabited

/-- A quota table entry (R224, R226); `minIn` is the MIN that the last BP_APPLY put in force (R226). -/
structure Quota where
  min : Nat := 0
  max : Nat := 0
  inUse : Nat := 0
  refused : Nat := 0
  minIn : Nat := 0
  deriving DecidableEq, Repr, Inhabited

/-- One pool (R223): `freed` is the free stack above the buffers never yet taken, of which `fresh` have been taken from below. -/
structure Pool where
  count : Nat := 0
  applied : Nat := 0
  fresh : Nat := 0
  freed : List Nat := []
  low : Nat := 0
  deriving DecidableEq, Repr, Inhabited

/-- The pools' default counts (R223). -/
def Pool.defaults : Tab Pool :=
  [(0, { count := 262144 }), (1, { count := 16384 }), (2, { count := 2048 }), (3, { count := 512 }),
   (4, { count := 128 }), (5, { count := 24 })]

/-- The buffer pool manager (R223 to R227): `owner` maps an allocated buffer's stack offset to its requester. -/
structure Bp where
  configured : Bool := false
  busy : Bool := false
  region : Nat := 0
  appliedRegion : Nat := 0
  pools : Tab Pool := Pool.defaults
  resAddr : Nat := 0
  resCode : Err := .ok
  resValid : Bool := false
  allocs : Nat := 0
  frees : Nat := 0
  refused : Nat := 0
  quota : Tab Quota := []
  owner : Tab Nat := []
  deriving DecidableEq, Repr, Inhabited

/-- A slot entry (R354): `image` holds bytes 0 to 31, `first` the image's FIRST. -/
structure SlotE where
  kind : Nat := 0
  tile : Nat := 0
  os : Bool := false
  length : Nat := 0
  base : Nat := 0
  wOpen : Nat := 0
  wClose : Nat := 0
  consume : Nat := 0
  step : Nat := 0
  next : Nat := 0
  received : Nat := 0
  slot : Nat := 0
  ctx : Nat := 0
  armed : Bool := false
  filled : Bool := false
  gap : Bool := false
  filledAt : Nat := 0
  first : Nat := 0
  deriving DecidableEq, Repr, Inhabited

/-- The slot unit of a compute die (R354, R372). -/
structure Slots where
  entries : Tab SlotE := []
  arrivals : Nat := 0
  discards : Nat := 0
  consumed : Nat := 0
  deriving DecidableEq, Repr, Inhabited

/-- CD_TILE_MAP (R18): the physical tile of each logical tile, 7 when absent. -/
structure TileMap where
  lt0 : Nat := 0
  lt1 : Nat := 1
  lt2 : Nat := 2
  lt3 : Nat := 3
  ok : Nat := 0x1F
  deriving DecidableEq, Repr, Inhabited

/-- A compute die. Arithmetic flags and flush counts by logical tile (R51, R52); R113's width; idle insertion (R497). -/
structure ComputeDie where
  map : TileMap := {}
  width : Nat := 0x80
  narrow : Nat := 0
  flags : Tab Nat := []
  flush : Tab Nat := []
  tiles : Tab Tile := []
  rs : RoutineStore := {}
  hen : Hen := {}
  hbm : Hbm := {}
  tr : Trans := {}
  dma : Dma := {}
  bp : Bp := {}
  slots : Slots := {}
  level : Nat := 0
  episode : Option (Nat × Nat) := none
  deriving DecidableEq, Repr, Inhabited

end Sys2Proof.Machine
end

