-- ==== Sys2Proof/Machine/StHub.lean ====
section
/-! DEFINITION. State of the hub (switch core, shared memory, Ox, collectives, routing) and of the fabric links. -/

namespace Sys2Proof.Machine

/-- A packet held in shared memory (R236, R237): `src` its entry port, `cells` its cell addresses, `refs` the outputs that still
read it, `serial` its number in the in-flight accounting of R330, `left` once an
output has sent it. -/
structure HubPkt where
  pkt : Packet := {}
  src : Nat := 0
  cells : List Nat := []
  refs : Nat := 0
  serial : Nat := 0
  left : Bool := false
  deriving DecidableEq, Repr, Inhabited

/-- A queue entry (R236): the descriptor it names and how many cells its output has read. -/
structure QEntry where
  desc : Nat := 0
  sent : Nat := 0
  deriving DecidableEq, Repr, Inhabited

/-- One of the 324 queues (R236, R248). -/
structure Queue where
  entries : List QEntry := []
  len : Nat := 0
  pkts : Nat := 0
  rsv : Nat := 0
  dropped : Nat := 0
  sent : Nat := 0
  deriving DecidableEq, Repr, Inhabited

/-- The copies of a packet that have not left the device (R330). -/
structure Flight where
  port : Nat := 0
  epoch : Nat := 0
  copies : Nat := 0
  deriving DecidableEq, Repr, Inhabited

/-- Switch core and shared memory (R228 to R249). `free` lists per network and bank the cells in use; `inService` the outputs. -/
structure Hub where
  up : Bool := false
  outUp : Tab Bool := []
  reqRows : Nat := 768
  redRows : Nat := 512
  alpha : Nat := 0x9797
  share : Nat := 1
  pkts : Tab HubPkt := []
  queues : Tab Queue := []
  used : Tab Nat := []
  flights : Tab Flight := []
  nextSerial : Nat := 0
  cycle : Tab Nat := []
  pktsIn : Nat := 0
  pktsOut : Nat := 0
  drops : Nat := 0
  hdrErr : Nat := 0
  routeErr : Nat := 0
  poison : Nat := 0
  snapBusy : Bool := false
  snapReady : Bool := false
  snapTime : Nat := 0
  snapTaken : Tab Queue := []
  snapQueues : Tab Queue := []
  snapFreeT : Nat := 0
  snapFree : Nat := 0
  snapUnrsvT : Nat := 0
  snapUnrsv : Nat := 0
  deriving DecidableEq, Repr, Inhabited

/-- Shared memory unit (R245 to R249). `ueCell` holds 1 for a cell that gave an uncorrectable error, 2 once it was rewritten since. -/
structure HubMem where
  sparesUsed : Nat := 0
  migrating : Option (Nat × Nat) := none
  removed : Nat := 0
  ce : Nat := 0
  ue : Nat := 0
  logicalSel : Nat := 0
  done : Bool := false
  code : Err := .ok
  ceLimit : Nat := 0x40
  map : Tab Nat := []
  bankCe : Tab Nat := []
  bankUe : Tab Nat := []
  rowUe : Tab Nat := []
  ueCell : Tab Nat := []
  deriving DecidableEq, Repr, Inhabited

/-- An Ox unit's entry (R287): `takes` is the logical number a spare has taken. -/
structure OxUnit where
  retired : Bool := false
  mismatch : Nat := 0
  takes : Option Nat := none
  deriving DecidableEq, Repr, Inhabited

/-- A contribution held for a block (R265): its element accumulators and the units it counts. -/
structure Contrib where
  run : Nat := 0
  carry : Bool := false
  units : Nat := 1
  data : List Byte := []
  desc : Nat := 0
  deriving DecidableEq, Repr, Inhabited

/-- A block of a reduction (R258, R265): `added` the COUNT units already added, `firing` while a step runs, `lines` once a first step
has taken its lines of the claim, `stored` once a step stored them, `last` when it holds the collective's last element, `written`
once ROUND or CARRY wrote it out. -/
structure Block where
  nrec : Nat := 0
  held : List Contrib := []
  added : Nat := 0
  firing : Option (List Contrib) := none
  lines : Bool := false
  stored : Bool := false
  last : Bool := false
  written : Bool := false
  deriving DecidableEq, Repr, Inhabited

/-- A run of records on an input stream (R270): the records by index, how many its instruction has taken, and the run's length once
LAST has come. -/
structure Run where
  recs : Tab (List Byte) := []
  taken : Nat := 0
  len : Option Nat := none
  deriving DecidableEq, Repr, Inhabited

/-- Records of a run that an instruction may take, in order; `closed` when no more will follow them. -/
structure SRun where
  no : Nat := 0
  recs : List (List Byte) := []
  closed : Bool := false
  deriving DecidableEq, Repr, Inhabited

/-- What instructions have written to a stream T and have not yet read (R263); `whole` once no further run will appear. -/
structure TStream where
  runs : List SRun := []
  whole : Bool := false
  deriving DecidableEq, Repr, Inhabited

/-- The state of a collective's program on the Ox while it runs: blocks by OFFSET, accumulators by element, the lines' places in the
claim, input runs at 65,536 i + RUN, the last record taken by (instruction, side, run), records waiting for a packet of an output,
the packets whose records are not all taken yet (input run, end index, descriptor). -/
structure OxRun where
  blocks : Tab Block := []
  accs : Tab Acc := []
  places : Tab Nat := []
  inputs : Tab Run := []
  ts : Tab TStream := []
  insDone : Tab Bool := []
  prev : Tab (List Byte) := []
  table : List (List Byte) := []
  tableReady : Bool := false
  opened : Tab Bool := []
  outBuf : Tab (List (List Byte)) := []
  nextOff : Tab Nat := []
  recHeld : List (Nat × Nat × Nat) := []
  deriving DecidableEq, Repr, Inhabited

/-- The local fetch (R296). -/
structure Fetch where
  active : Bool := false
  openSent : Bool := false
  done : Bool := false
  pos : Nat := 0
  deriving DecidableEq, Repr, Inhabited

/-- Binding states (R288). -/
inductive BindSt where
  | free | open | running | done | aborted
  deriving DecidableEq, Repr, Inhabited

/-- A binding entry with its control entry (R288, R311). -/
structure Binding where
  st : BindSt := .free
  collId : Nat := 0
  ctx : Nat := 0
  place : Nat := 0
  owner : Nat := 0
  ieee : Bool := false
  lines : Nat := 0
  used : Nat := 0
  finished : Nat := 0
  spill : Nat := 0
  flags : Nat := 0
  code : Err := .ok
  steps : Nat := 0
  sent : Nat := 0
  dhash : Nat := 0
  nmembers : Nat := 0
  myIndex : Nat := 0
  timeoutUs : Nat := 0
  opensIn : Nat := 0
  matchedIn : Nat := 0
  opensOut : Nat := 0
  matchedOut : Nat := 0
  recvUnits : Nat := 0
  written : Nat := 0
  origin : Nat := 0xFFFFFFFF
  tRun : Nat := 0
  tEnd : Nat := 0
  sched : Bool := false
  partial_ : Bool := false
  notify : Bool := false
  deriving DecidableEq, Repr, Inhabited

/-- What a binding keeps beside its entries: the blocks it was bound with, its run state, an abort waiting to be sent (R304). -/
structure BindX where
  global : List Byte := []
  local_ : List Byte := []
  run : OxRun := {}
  fetch : Fetch := {}
  abortDue : Bool := false
  localCause : Bool := false
  period : Option Nat := none
  cooling : Bool := false
  freedOnce : Bool := false
  deriving DecidableEq, Repr, Inhabited

/-- The Ox and the collective control unit (R250 to R311). -/
structure Ox where
  sleeps : Tab SleepU := []
  units : Tab OxUnit := []
  linesRemoved : Nat := 0
  reserved : Nat := 0
  adds : Nat := 0
  steps : Nat := 0
  unbound : Nat := 0
  residueErr : Nat := 0
  binds : Tab Binding := []
  bindx : Tab BindX := []
  progs : Tab (List Byte) := []
  cool : Nat := 10000
  node : Nat := 0
  bindCount : Nat := 0
  doneCount : Nat := 0
  abortCount : Nat := 0
  deriving DecidableEq, Repr, Inhabited

/-- Version states of the routing tables (R329). -/
inductive VerSt where
  | empty | loaded | current | draining
  deriving DecidableEq, Repr, Inhabited

/-- Routing tables (R327 to R331, R340): continuation entries hold ROUTE and VALID; multicast entries their 64 bits. -/
structure Routing where
  v0 : VerSt := .empty
  v1 : VerSt := .empty
  pending : Option (Nat × Nat) := none
  lastVersion : Nat := 0
  commitTime : Nat := 0
  epochErr : Nat := 0
  conts : Nat := 0
  counters : Tab Nat := []
  cont0 : Tab (Nat × Bool) := []
  cont1 : Tab (Nat × Bool) := []
  mc0 : Tab Nat := []
  mc1 : Tab Nat := []
  deriving DecidableEq, Repr, Inhabited

/-- Link states (R339). -/
inductive LinkSt where
  | down | training | up | parked | disabled
  deriving DecidableEq, Repr, Inhabited

/-- A cell waiting on a link or in its current flit, with the packet serial whose last cell it is. -/
structure TxSlot where
  slot : FlitSlot := .empty
  serial : Option Nat := none
  deriving DecidableEq, Repr, Inhabited

/-- A flit kept for replay (R317). -/
structure TxFlit where
  seq : Nat := 0
  slots : List FlitSlot := []
  serials : List Nat := []
  replays : Nat := 0
  deriving DecidableEq, Repr, Inhabited

/-- A lane swap under way (R320): `peer` when the other end sent SWAP, so that the received SEQ counts. -/
structure Swap where
  lane : Nat := 0
  flitsLeft : Nat := 256
  seq : Nat := 0
  sent : Bool := false
  peer : Bool := false
  deriving DecidableEq, Repr, Inhabited

/-- A link's registers (R339). -/
structure Link where
  st : LinkSt := .down
  board : Bool := false
  spareUsed : Bool := false
  swap : Option Swap := none
  retrainDue : Bool := false
  enable : Bool := true
  wantBoard : Bool := false
  auto : Bool := true
  retrainDelay : Nat := 0x3E8
  peerNode : Nat := 0
  peerLink : Nat := 0
  peerMember : Nat := 0
  peerBoard : Bool := false
  flight : Nat := 0
  flightNow : Nat := 0
  laneMap : Nat := 0x876543210
  flitsTx : Nat := 0
  flitsRx : Nat := 0
  fecCorr : Nat := 0
  fecUncorr : Nat := 0
  replays : Nat := 0
  downs : Nat := 0
  lastCause : Nat := 0
  credits : Tab Nat := []
  laneLimit : Nat := 0xF4240
  laneErrs : Tab Nat := []
  laneErrsSec : Tab Nat := []
  deriving DecidableEq, Repr, Inhabited

/-- A link's link-layer state (R313 to R320): slots counted since training, the flit being filled, flits kept for and under replay,
cells taken from the hub by kind, control cells to send, the last SEQ received in order, credits owed and ingress cells held by pool, the
packet being received by pool, the echo stamps, when ACK last advanced and when training starts again (always-on ns). -/
structure LinkX where
  slotNo : Nat := 0
  cur : List TxSlot := []
  nextSeq : Nat := 0
  replay : List TxFlit := []
  resend : List TxFlit := []
  txSched : List TxSlot := []
  txUns : List TxSlot := []
  timeDue : Bool := false
  ctlUrgent : List CtlCell := []
  ctlDue : Bool := false
  unsSinceCtl : Nat := 0
  rxSeq : Nat := 0
  nakSent : Bool := false
  owed : Tab Nat := []
  asm : Tab (List Byte) := []
  lastEcho : Nat := 0
  lastEchoAt : Nat := 0
  lastAckAt : Nat := 0
  trainAt : Option Nat := none
  sleep : SleepU := {}
  deriving DecidableEq, Repr, Inhabited

end Sys2Proof.Machine
end

