-- ==== Sys2Proof/Machine/StTime.lean ====
section
/-! DEFINITION. State of fabric time, the SYNC line, loaded schedules and the schedule sequencer. -/

namespace Sys2Proof.Machine

/-- Fabric time unit states (R342). -/
inductive FtSt where
  | free | acquiring | locked | holdover
  deriving DecidableEq, Repr, Inhabited

/-- A link whose TIME cells were received (R344): the last cell's contents and when it came. -/
structure Cand where
  locked : Bool := false
  dist : Nat := 0
  root : Nat := 0
  offset : Int := 0
  at_ : Nat := 0
  deriving DecidableEq, Repr, Inhabited

/-- The fabric time unit (R341 to R347, R370). `failed` is the island's failure (R26); `stepped` once the first parent cell has
stepped the count (R345), `run16` consecutive good offsets since; `due` ticks to add or hold with the time from which each may be
applied, `owed` the slews a SYNC master has still to apply with a pulse (R347); `silent` a master that stopped driving, or a listener
that takes time from its links; `marked` the time of the last MARK. -/
structure Ft where
  now : Nat := 0
  failed : Bool := false
  st : FtSt := .free
  ctlRoot : Bool := false
  useSync : Bool := true
  limit : Nat := 0x10
  parent : Option Nat := none
  dist : Nat := 0
  offset : Int := 0
  root : Nat := 0
  slews : Nat := 0
  steps : Nat := 0
  lastStep : Int := 0
  syncDelay : Nat := 0
  wasSet : Bool := false
  run16 : Nat := 0
  cands : Tab Cand := []
  lastParent : Nat := 0
  holdFrom : Nat := 0
  saidDist : Bool := false
  saidRoot : Bool := false
  owed : List Int := []
  due : List (Nat × Int) := []
  marked : Nat := 0
  stepped : Bool := false
  silent : Bool := false
  deriving DecidableEq, Repr, Inhabited

/-- A period descriptor (R348). -/
structure PeriodD where
  length : Nat := 1
  slack : Nat := 0
  deriving DecidableEq, Repr, Inhabited

/-- A wake point (R348, R362). -/
structure WakeP where
  desc : Nat := 0
  kind : Nat := 0
  action : Nat := 0
  unit : Nat := 0
  offset : Nat := 0
  hold : Nat := 0
  deriving DecidableEq, Repr, Inhabited

/-- A scheduled collective (R348, R360). -/
structure SColl where
  collId : Nat := 0
  offset : Nat := 0
  period : Nat := 0
  dhash : Nat := 0
  lines : Nat := 0
  deriving DecidableEq, Repr, Inhabited

/-- A reservation (R240, R348). -/
structure Rsv where
  out : Nat := 0
  net : Nat := 0
  cells : Nat := 0
  deriving DecidableEq, Repr, Inhabited

/-- A loaded schedule (R348). `slots` lists its slots by number: die and entry index on that die. -/
structure Sched where
  checked : Bool := false
  id : Nat := 0
  pcount : Nat := 1
  lag : Nat := 0
  abortGroup : Nat := 0
  groupCtx : Nat := 0
  groupSize : Nat := 1
  periods : List PeriodD := []
  slots : List (Nat × Nat) := []
  wakes : List WakeP := []
  colls : List SColl := []
  rsvs : List Rsv := []
  deriving DecidableEq, Repr, Inhabited

/-- Launch record states (R371). -/
inductive RecSt where
  | free | armed | running | stopping | ended | aborted
  deriving DecidableEq, Repr, Inhabited

/-- A launch record (R371). -/
structure Rec where
  st : RecSt := .free
  checked : Bool := false
  lateNow : Bool := false
  ctx : Nat := 0
  lag : Nat := 0
  schedId : Nat := 0
  t0 : Nat := 0
  period : Nat := 0
  nominal : Nat := 0
  lambda : Nat := 0
  peak : Nat := 0
  lates : Nat := 0
  code : Err := .ok
  die : Nat := 0
  unit : Nat := 0
  node : Nat := 0
  p0 : Nat := 0
  last : Nat := 0
  abortPeriod : Nat := 0
  abortTime : Nat := 0
  slack : Nat := 0
  skipped : Nat := 0
  deriving DecidableEq, Repr, Inhabited

/-- What the sequencer keeps beside a record: A(p); the finish so far and the tiles whose PSYNC write has not taken effect; whether the
wakes at T0 - 64,000 ns are done and the reservations taken; the points done, by period and index, and the fetches done; earlier periods
with their A whose consume times, points or fetches are still to come; the run of late periods and its peak, and whether insertion delayed it (R368); the SCHED_ABORT still to send (R364), and whether a received one was the cause (R359);
lines set aside (R278) and reservations (R240); NOTIFY of the launch. -/
structure RecX where
  actual : Nat := 0
  finish : Nat := 0
  waiting : List (Nat × Nat) := []
  prewoken : Bool := false
  taken : Bool := false
  points : List (Nat × Nat) := []
  fetched : List Nat := []
  starts : List (Nat × Nat) := []
  lateRun : Nat := 0
  latePeak : Nat := 0
  inserted : Bool := false
  abortDue : Bool := false
  remote : Bool := false
  lines : Nat := 0
  rsvs : List Rsv := []
  notify : Bool := false
  deriving DecidableEq, Repr, Inhabited

/-- The schedule sequencer (R371). -/
structure Sq where
  recs : Tab Rec := []
  recx : Tab RecX := []
  scheds : Tab Sched := []
  aborts : Nat := 0
  late : Nat := 0
  dups : Nat := 0
  deriving DecidableEq, Repr, Inhabited

end Sys2Proof.Machine
end

