-- ==== Sys2Proof/Machine/StHost.lean ====
section
/-! DEFINITION. State of the host die: Ethernet ports, host transport, mailboxes, controllers, contexts, log and progress. -/

namespace Sys2Proof.Machine

/-- A sent segment kept until acknowledged (R380). -/
structure TxSeg where
  psn : Nat := 0
  type : Nat := 0
  flags : Nat := 0
  xfer : Nat := 0
  status : Nat := 0
  offset : Nat := 0
  payload : List Byte := []
  pcp : Nat := 6
  deriving DecidableEq, Repr, Inhabited

/-- What waits in an egress queue (R387): a transport segment for a controller, which SESSION_OPEN's reply leaves under the all-zero key
(R399), or an ARP or neighbour reply (its MAC address, and its bytes from the EtherType on); `bytes` those on the wire from the
destination address through the FCS. -/
structure TxFrame where
  ctrl : Option Nat := none
  seg : TxSeg := {}
  zeroKey : Bool := false
  mac : Nat := 0
  raw : List Byte := []
  bytes : Nat := 64
  deriving DecidableEq, Repr, Inhabited

/-- An egress queue of a sub-port (R387 to R390, R394): tokens in bytes with 16 fraction bits; `headTag` f of the current head;
`wheel` the slot at which a queue in deficit is returned; `pauseEnd` the fabric time at which a pause ends. -/
structure EgQ where
  weight : Nat := 1
  rate : Nat := 0
  burst : Nat := 1536
  tokens : Int := 0
  tLast : Nat := 0
  fLast : Nat := 0
  headTag : Nat := 0
  frames : Nat := 0
  bytes : Nat := 0
  pauseEnd : Nat := 0
  wheel : Option Nat := none
  fifo : List TxFrame := []
  deriving DecidableEq, Repr, Inhabited

/-- A sub-port's address entry (R394). -/
structure SubAddr where
  vid : Nat := 0
  pcp : Nat := 0
  ip4 : Nat := 0
  ip6 : Nat := 0
  udp : Nat := 47630
  ip4En : Bool := false
  ip6En : Bool := false
  deriving DecidableEq, Repr, Inhabited

/-- What a sub-port keeps beside its tables: virtual time of R388, bytes held by priority in the ingress buffer, the always-on ns of the
last PFC frame to each priority whose sender is paused (R386), ARP answers in the current second (R377). -/
structure SubSt where
  up : Bool := false
  v : Nat := 0
  occ : Tab Nat := []
  xoff : Tab Nat := []
  arpSec : Nat := 0
  arpCount : Nat := 0
  deriving DecidableEq, Repr, Inhabited

/-- An ingress meter (R384, R394): tokens with a 32-bit fraction. -/
structure Meter where
  cir : Nat := 0
  pir : Nat := 0
  cbs : Nat := 0
  pbs : Nat := 0
  enable : Bool := false
  yellowDrop : Bool := false
  redDrop : Bool := true
  green : Nat := 0
  yellow : Nat := 0
  red : Nat := 0
  tc : Nat := 0
  tp : Nat := 0
  tLast : Nat := 0
  deriving DecidableEq, Repr, Inhabited

/-- An Ethernet port (R373, R394). -/
structure Eth where
  mode : Nat := 0
  jumbo : Bool := true
  txTag : Bool := true
  mac : Nat := 0
  lossless : Nat := 0x08
  xoff : Nat := 0x300
  xon : Nat := 0x200
  rx : Nat := 0
  tx : Nat := 0
  pfcRx : Nat := 0
  pfcTx : Nat := 0
  discards : Tab Nat := []
  sigLogged : Option Nat := none
  addrs : Tab SubAddr := []
  subs : Tab SubSt := []
  meters : Tab Meter := []
  queues : Tab EgQ := []
  deriving DecidableEq, Repr, Inhabited

/-- A transport session (R380, R395): state 0 NONE, 1 UP, 2 LOST. -/
structure Xs where
  st : Nat := 0
  primary : Nat := 0
  backup : Nat := 0xFF
  pcp : Nat := 0
  nextPsn : Nat := 0
  expPsn : Nat := 0
  ackPsn : Nat := 0
  timeouts : Nat := 0
  accepted : Nat := 0
  unacked : List TxSeg := []
  waiting : List TxSeg := []
  key : List Byte := []
  naked : Option Nat := none
  toAck : Nat := 0
  ackFrom : Nat := 0
  lastAdv : Nat := 0
  lastSub : Nat := 0
  oob : Bool := false
  peerMac : Nat := 0
  peerIp : List Byte := []
  peerPort : Nat := 0
  deriving DecidableEq, Repr, Inhabited

/-- A pending session (R400). -/
structure PendS where
  key : List Byte := []
  psnTx : Nat := 0
  psnRx : Nat := 0
  claim : Bool := false
  oob : Bool := false
  deriving DecidableEq, Repr, Inhabited

/-- A transfer (R381, R395): state 0 FREE, 1 OPEN, 2 DONE, 3 FAILED. `doneDue` while DONE is still to be sent. -/
structure Xfer where
  st : Nat := 0
  get : Bool := false
  ctx : Nat := 0
  die : Nat := 0
  pcp : Nat := 0
  code : Err := .ok
  va : Nat := 0
  length : Nat := 0
  done : Nat := 0
  opened : Nat := 0
  ended : Nat := 0
  doneDue : Bool := false
  deriving DecidableEq, Repr, Inhabited

/-- An entry shaper (R392). -/
structure EntrySh where
  tokens : Int := 0
  tLast : Nat := 0
  waiting : List Packet := []
  deriving DecidableEq, Repr, Inhabited

/-- Host transport (R379 to R382, R392, R395). -/
structure Xport where
  rto : Nat := 0x64
  retx : Nat := 0
  sess : Tab Xs := []
  pend : Tab PendS := []
  xfers : Tab Xfer := []
  entryRate : Nat := 50000
  shapers : Tab EntrySh := []
  deriving DecidableEq, Repr, Inhabited

/-- An enrolment entry (R396): state 0 EMPTY, 1 ENROLLED, 2 REVOKED. -/
structure Enrol where
  hash : List Byte := []
  st : Nat := 0
  admin : Bool := false
  oob : Bool := false
  primary : Nat := 0
  backup : Nat := 0
  pcp : Nat := 0
  sev : Nat := 0
  count : Nat := 0
  time : Nat := 0
  deriving DecidableEq, Repr, Inhabited

/-- A frame held by a mailbox (R404): `args` its payload, `no` its number in the order of acceptance. -/
structure CmdFrame where
  command : Nat := 0
  seq : Nat := 0
  context : Nat := 0
  args : List Byte := []
  no : Nat := 0
  deriving DecidableEq, Repr, Inhabited

/-- A reply or notice (R401, R405, R406). -/
structure Frame401 where
  ctrl : Nat := 0
  mailbox : Nat := 0
  flags : Nat := 0
  command : Nat := 0
  seq : Nat := 0
  status : Nat := 0
  context : Nat := 0xFFFF
  time : Nat := 0
  payload : List Byte := []
  deriving DecidableEq, Repr, Inhabited

/-- A mailbox (R403, R404, R421), with its last four replies. -/
structure MboxU where
  e : Nat := 0
  frames : List CmdFrame := []
  running : Bool := false
  runCmd : Nat := 0
  runSeq : Nat := 0
  lastStatus : Nat := 0
  accepted : Nat := 0
  replies : List Frame401 := []
  deriving DecidableEq, Repr, Inhabited

/-- The mailbox engine (R421): mailbox m of controller c at 8 c + m; notices and staged configuration records by controller. -/
structure Mbx where
  accepted : Nat := 0
  refused : Nat := 0
  discards : Nat := 0
  watchdog : Nat := 0x7D0
  enrol : Tab Enrol := []
  boxes : Tab MboxU := []
  noticeSeq : Tab Nat := []
  notices : Tab (List Frame401) := []
  sigLogged : Tab Nat := []
  deriving DecidableEq, Repr, Inhabited

/-- Context states (R408). -/
inductive CtxSt where
  | free | open_ | loaded | armed | running | stopping | halted | done | saved
  deriving DecidableEq, Repr, Inhabited

/-- A context entry (R420). -/
structure Ctx where
  st : CtxSt := .free
  owner : Nat := 0
  ieee : Bool := false
  goodput : Bool := false
  debug : Bool := false
  scheduled : Bool := false
  urCompat : Bool := false
  recIdx : Nat := 0xFF
  mask : Nat := 0
  code : Err := .ok
  l1 : Nat := 0
  programId : Nat := 0
  schedId : Nat := 0
  changed : Nat := 0
  saves : Nat := 0
  tiles : Nat := 0
  launches : Nat := 0
  deriving DecidableEq, Repr, Inhabited

/-- A remote window (R185, R338). -/
structure Window where
  ctx : Nat := 0
  route : Nat := 0
  base : Nat := 0
  len : Nat := 0
  deriving DecidableEq, Repr, Inhabited

/-- A loaded program (R69): what a launch still needs of the image. `dies` those it is loaded on, `hen` its HEN_THREADS, `routines` its
list as number + 65,536 version. -/
structure Prog where
  dies : Nat := 0
  flags : Nat := 0
  tiles : Nat := 0
  hen : List Nat := []
  entry : List Nat := []
  reqWidth : Nat := 0
  routines : List Nat := []
  deriving DecidableEq, Repr, Inhabited

/-- A saved logical tile (R412): its state buffer and store buffer, by stack offset, the length of its state record, and the state the
save holds, memories aside. -/
structure SavedTile where
  die : Nat := 0
  ltile : Nat := 0
  buf : Nat := 0
  store : Nat := 0
  len : Nat := 0
  flags : Nat := 0
  flush : Nat := 0
  tile : Tile := {}
  jobs : List (Nat × HenJob) := []
  threads : List (Nat × HenThread) := []
  dmas : List (Nat × DmaEng) := []
  deriving DecidableEq, Repr, Inhabited

/-- What the device keeps of a context beside its entry: windows, program, an unscheduled launch's T0, the launch's flags, its saves,
the save whose reply is due, the last period a clean end reached (R366). -/
structure CtxX where
  windows : Tab Window := []
  prog : Option Prog := none
  t0 : Option Nat := none
  notify : Bool := false
  saves : List SavedTile := []
  saveReply : Option Src := none
  lastPeriod : Option Nat := none
  resume : Bool := false
  debug : Bool := false
  deriving DecidableEq, Repr, Inhabited

/-- A progress entry (R453). `lostFrom` set after an abort or halt until the next launch. -/
structure Progress where
  pending : Nat := 0
  useful : Nat := 0
  lost : Nat := 0
  moved : Nat := 0
  lastTick : Nat := 0
  losing : Bool := false
  deriving DecidableEq, Repr, Inhabited

/-- The context table (R420). -/
structure CtxU where
  creates : Nat := 0
  savesDone : Nat := 0
  tab : Tab Ctx := []
  x : Tab CtxX := []
  progress : Tab Progress := []
  deriving DecidableEq, Repr, Inhabited

/-- A pending UNIT_DISABLE (R416): die, kind, index, prior state of the unit (0 enabled, 1 a disable pending, 2 disabled) and
instructions aborted. -/
structure PendDis where
  src : Src := {}
  die : Nat := 0
  kind : Nat := 0
  index : Nat := 0
  prior : Nat := 0
  aborted : Nat := 0
  deriving DecidableEq, Repr, Inhabited

/-- An event (R446): the entry without its sequence number; the health contributor it counts for (R435, R436) and the ledger
record type it is written as (R450), 0 when none. -/
structure Event where
  time : Nat := 0
  aon : Nat := 0
  die : Nat := 0
  unit : Nat := 0
  sev : Nat := 0
  flags : Nat := 0
  code : Err := .ok
  ctx : Nat := 0xFFFF
  data : List Byte := []
  contrib : Option Nat := none
  ledger : Nat := 0
  deriving DecidableEq, Repr, Inhabited

/-- The event log (R446, R447, R457): `ring` by sequence number modulo 65,536; `readTo` the first sequence number not yet read. -/
structure Log where
  head : Nat := 0
  overwrites : Nat := 0
  lost : Nat := 0
  lostNow : Bool := false
  intake : List Event := []
  ring : Tab (List Byte) := []
  readTo : Nat := 0
  deriving DecidableEq, Repr, Inhabited

/-- The Keeper mirror (R448, R457): entries waiting to be copied, and the ring. -/
structure Mirror where
  head : Nat := 0
  overwrites : Nat := 0
  lost : Nat := 0
  queue : List (List Byte) := []
  ring : Tab (List Byte) := []
  readTo : Nat := 0
  downFrom : Option Nat := none
  deriving DecidableEq, Repr, Inhabited

end Sys2Proof.Machine
end

