-- ==== Sys2Proof/Machine/StKeeper.lean ====
section
/-! DEFINITION. State of the Keeper die: service, monitors, health, ledger, flash, configuration, security, power, contacts. -/

namespace Sys2Proof.Machine

/-- KD_SERVICE (R34). -/
structure Service where
  level : Nat := 0
  oobLink : Bool := false
  cdIn : Nat := 0
  ldIn : Nat := 0
  hubIn : Bool := false
  hdIn : Bool := false
  flashIn : Bool := false
  oobIn : Bool := false
  deriving DecidableEq, Repr, Inhabited

/-- A die's identity block (R423), what its start-up test found, whether a reset of it is under way, and the words of DEV_CAPS as the
Goose recorded them when the die last left service (R428). -/
structure DieU where
  resets : Nat := 0
  resetTime : Nat := 0
  failed : Bool := false
  resetting : Bool := false
  caps : List Nat := []
  deriving DecidableEq, Repr, Inhabited

/-- A monitor entry (R433), with the ALARM bits' last times set (R434) and the recent extremes R435 uses. -/
structure Mon where
  temp : Int := 0
  tempMax : Int := 0
  vcore : Nat := 0
  vcoreMin : Nat := 0
  power : Nat := 0
  margin : Nat := 0
  marginMin : Nat := 0
  alarm : Nat := 0
  samples : Nat := 0
  time : Nat := 0
  lastSet : Tab Nat := []
  hot : List (Nat × Int) := []
  bad : Option Nat := none
  deriving DecidableEq, Repr, Inhabited

/-- Health (R435 to R444, R456): penalties and measures of the 20 contributors; eight day buckets of contributors 13 to 19 at
8 j + d; counts at the last whole hour and in it; histograms at 8 (5 n + p) + bin. -/
structure Health where
  score : Nat := 0x3E8
  band : Nat := 0
  quarantined : Bool := false
  qRequest : Bool := false
  qAt : Nat := 0
  hard : Bool := false
  token : Bool := false
  checking : Bool := false
  domains : Nat := 0
  hardUe : Nat := 0
  tokenId : Nat := 0
  tokenT : Nat := 0
  tokenX : Nat := 0
  marginLimit : Nat := 0xF
  penalty : Tab Nat := []
  measure : Tab Nat := []
  days : Tab Nat := []
  hourBase : Tab Int := []
  hourCount : Tab Nat := []
  hourNo : Nat := 0
  dayNo : Nat := 0
  dayMin : Nat := 0x3E8
  dayMax : Nat := 0
  mons : Tab Mon := []
  hist : Tab Nat := []
  uncorrHour : Tab Nat := []
  subs : Tab Bool := []
  deriving DecidableEq, Repr, Inhabited

/-- The lifetime ledger (R449 to R451): records to write, the next record's sequence number and whether its sector has its header, the
lifetime totals by header byte, powered seconds at power-up, the newest record of type 2 written (`lastSub` one above its number). -/
structure Ledger where
  pending : List (Nat × Event) := []
  seq : Nat := 0
  opened : Bool := false
  totals : Tab Nat := []
  secs : Nat := 0
  lastSub : Nat := 0
  deriving DecidableEq, Repr, Inhabited

/-- A configuration record (R470). -/
structure CfgRec where
  type : Nat := 0
  index : Nat := 0
  data : List Byte := []
  deriving DecidableEq, Repr, Inhabited

/-- A queued commit (R473): whose, the SEQ expected if any, its records, the command that waits with what its reply holds, and whether that
controller's session ends after the reply (R480). -/
structure Commit where
  src : Option Src := none
  command : Nat := 0
  expected : Option Nat := none
  recs : List CfgRec := []
  reply : List Byte := []
  closes : Bool := false
  deriving DecidableEq, Repr, Inhabited

/-- The configuration store unit (R473, R486): the records in use, staging by controller, commits queued. -/
structure Cfg where
  inUse : Nat := 0
  valid0 : Bool := false
  valid1 : Bool := false
  defaults : Bool := false
  facA : Bool := false
  facB : Bool := false
  trimOk : Bool := false
  rebuilt : Bool := false
  rebuiltPartial : Bool := false
  seq : Nat := 0
  commits : Nat := 0
  levelMs : List Nat := [0xFFFF, 0xFFFF, 0xFFFF, 0xFFFF]
  recs : List CfgRec := []
  staged : Tab (List CfgRec) := []
  queue : List Commit := []
  repairHalf : Option Nat := none
  deriving DecidableEq, Repr, Inhabited

/-- Boot state (R465, R486): `held` the sequence waits for MOD_EN (R514), `control` the digest of the control firmware and `library` the
routine library of the running bundle; firmware being written (R485): spans written since the last erase by their offset. -/
structure Boot where
  fwSlot : Nat := 0
  fallback : Bool := false
  tries : Nat := 0
  confirmed : Bool := false
  keyIndex : Nat := 0
  romHold : Bool := false
  version : Nat := 0
  started : Bool := false
  dirty : Tab Nat := []
  activating : Bool := false
  held : Bool := false
  control : List Byte := []
  library : List Byte := []
  deriving DecidableEq, Repr, Inhabited

/-- The security unit (R481, R487). -/
structure Sec where
  pufOk : Bool := false
  idOk : Bool := false
  owned : Bool := false
  claimOpen : Bool := false
  claimSession : Bool := false
  revoked : Nat := 0
  svn : Nat := 0
  svnMin : Nat := 0
  ownerCount : Nat := 0
  ownerKey : List Byte := []
  serial : Nat := 0
  meas : Tab (List Byte) := []
  ext : Tab Nat := []
  deriving DecidableEq, Repr, Inhabited

/-- Power states (R494). -/
inductive PwrSt where
  | run | parked | mgmt
  deriving DecidableEq, Repr, Inhabited

/-- The power unit (R493 to R505): `moving` a transition's target and its command; `tripAt` the always-on ns of the trip;
`stages` PMBus words by stage; `fails` polls failed in succession; `dark` while the dies other than the Keeper die are off. -/
structure Pwr where
  st : PwrSt := .run
  moving : Option (PwrSt × Option Src) := none
  trip : Bool := false
  tripCause : Nat := 0
  tripDie : Nat := 0
  refLost : Bool := false
  vin : Nat := 0
  iin : Nat := 0
  pin : Nat := 0
  energy : Nat := 0
  insertTemp : Nat := 0x64
  inserted : Nat := 0
  inlet : Int := 0
  outlet : Int := 0
  inletHigh : Bool := false
  inletLow : Bool := false
  dtHigh : Bool := false
  coolSet : Tab Nat := []
  idle : Nat := 4
  answered : List Nat := []
  faulty : List Nat := []
  stages : Tab (List Nat) := []
  fails : Tab Nat := []
  tripAt : Nat := 0
  dark : Bool := true
  deriving DecidableEq, Repr, Inhabited

/-- Contacts and straps (R512 to R517, R333). -/
structure Pins where
  modEn : Bool := false
  smbAlert : Bool := false
  member : Nat := 3
  present : Bool := false
  fspiReq : Bool := true
  tapIr : TestInstr := .bypass
  deriving DecidableEq, Repr, Inhabited

end Sys2Proof.Machine
end

