-- ==== Sys2Proof/Machine/State.lean ====
section
/-! DEFINITION. The state of the block, its reset value, and the reasons a step could stop. -/

namespace Sys2Proof.Machine

/-- What the device has sent (log entry 5): replies and notices by the port they leave on, Ethernet frames and PFC frames, flits,
packets taken by a die (selector) or by the Ox, SYNC pulses, SMBus answers, test-port answers. -/
inductive Output where
  | mailbox (oob : Bool) (f : Frame401)
  | frame (port sub : Nat) (bytes : List Byte)
  | pfc (port sub prio quanta : Nat)
  | flit (link : Nat) (seq : Nat) (slots : List FlitSlot)
  | packet (sel : Nat) (k : Packet)
  | send (die : Nat) (k : Packet)
  | pulse (p : Pulse)
  | smbus (bytes : Option (List Byte))
  | tap (ir : TestInstr) (dr : Option Nat)
  deriving DecidableEq, Repr, Inhabited

/-- The block (INVENTORY.md, State). `pending` is its queue of commands, `out` the model's trace of what it sent, `free` the
model's counter of free values drawn, `aonNs` the always-on time (R537) in ns. -/
structure State where
  pending : List Instr := []
  out : List Output := []
  free : Nat := 0
  aonNs : Nat := 0
  cds : Tab ComputeDie := []
  hbm : Mem := []
  poison : Tab Bool := []
  hub : Hub := {}
  hubm : HubMem := {}
  ox : Ox := {}
  rt : Routing := {}
  links : Tab Link := []
  linkx : Tab LinkX := []
  ft : Ft := {}
  sq : Sq := {}
  eths : Tab Eth := []
  xp : Xport := {}
  mbx : Mbx := {}
  ctx : CtxU := {}
  dis : List PendDis := []
  log : Log := {}
  mirror : Mirror := {}
  svc : Service := {}
  dies : Tab DieU := []
  health : Health := {}
  ledger : Ledger := {}
  cfg : Cfg := {}
  boot : Boot := {}
  sec : Sec := {}
  pwr : Pwr := {}
  pins : Pins := {}
  flash : Mem := []
  deriving DecidableEq, Repr, Inhabited

/-- The state right after reset: input power applied, no command received, every register at the reset value of its table, no
byte of any memory listed, the queue empty. -/
def State.reset : State := {}

/-- Reasons a meaning could stop with a fault. There are none: no command of the block stops the block (R76, R405). -/
inductive Fault
  deriving DecidableEq, Repr

/-- Reasons a meaning could refuse. -/
inductive Refusal where
  /-- Raised by an arm of `exec` whose command has no meaning yet; safe: nothing is said of its effect. -/
  | notModelled (mnemonic : String)
  deriving DecidableEq, Repr

end Sys2Proof.Machine
end

