-- ==== Sys2Proof/Machine/Ops.lean ====
section
/-! DEFINITION. Named operations shared by the commands: access to the units, time, events, notices, replies, contexts. -/

namespace Sys2Proof.Machine

/-- Compute die n. -/
def State.cd (s : State) (n : Nat) : ComputeDie := Tab.get {} s.cds n

/-- Change compute die n. -/
def State.modCd (s : State) (n : Nat) (f : ComputeDie → ComputeDie) : State :=
  { s with cds := Tab.set {} s.cds n (f (s.cd n)) }

/-- Physical tile p of compute die n. -/
def State.tile (s : State) (n p : Nat) : Tile := Tab.get {} (s.cd n).tiles p

/-- Change a physical tile. -/
def State.modTile (s : State) (n p : Nat) (f : Tile → Tile) : State :=
  s.modCd n fun c => { c with tiles := Tab.set {} c.tiles p (f (Tab.get {} c.tiles p)) }

/-- Change a Mule's registers. -/
def State.modMule (s : State) (n p : Nat) (f : Mule → Mule) : State := s.modTile n p fun t => { t with mule := f t.mule }

/-- Change a Mule's memories and wait. -/
def State.modMem (s : State) (n p : Nat) (f : MuleMem → MuleMem) : State := s.modTile n p fun t => { t with mem := f t.mem }

/-- Change a matrix array. -/
def State.modArr (s : State) (n p : Nat) (f : ArrayU → ArrayU) : State := s.modTile n p fun t => { t with arr := f t.arr }

/-- Change an element engine. -/
def State.modEe (s : State) (n p : Nat) (f : EeU → EeU) : State := s.modTile n p fun t => { t with ee := f t.ee }

/-- Change the tiles of every die that are listed. -/
def State.remapTiles (s : State) (f : Nat → Nat → Tile → Tile) : State :=
  { s with cds := Tab.remap {} (fun n c => { c with tiles := Tab.remap {} (f n) c.tiles }) s.cds }

/-- The physical tiles of every die that are listed, as (die, tile, state). -/
def State.allTiles (s : State) : List (Nat × Nat × Tile) :=
  s.cds.flatMap fun c => c.2.tiles.map fun t => (c.1, t.1, t.2)

def State.link (s : State) (l : Nat) : Link := Tab.get {} s.links l

def State.modLink (s : State) (l : Nat) (f : Link → Link) : State := { s with links := Tab.set {} s.links l (f (s.link l)) }

def State.lx (s : State) (l : Nat) : LinkX := Tab.get {} s.linkx l

def State.modLx (s : State) (l : Nat) (f : LinkX → LinkX) : State := { s with linkx := Tab.set {} s.linkx l (f (s.lx l)) }

/-- Entry of context x. -/
def State.cx (s : State) (x : Nat) : Ctx := Tab.get {} s.ctx.tab x

def State.modCx (s : State) (x : Nat) (f : Ctx → Ctx) : State :=
  { s with ctx := { s.ctx with tab := Tab.set {} s.ctx.tab x (f (s.cx x)) } }

def State.cxx (s : State) (x : Nat) : CtxX := Tab.get {} s.ctx.x x

def State.modCxx (s : State) (x : Nat) (f : CtxX → CtxX) : State :=
  { s with ctx := { s.ctx with x := Tab.set {} s.ctx.x x (f (s.cxx x)) } }

/-- Launch record r. -/
def State.lrec (s : State) (r : Nat) : Rec := Tab.get {} s.sq.recs r

def State.modRec (s : State) (r : Nat) (f : Rec → Rec) : State :=
  { s with sq := { s.sq with recs := Tab.set {} s.sq.recs r (f (s.lrec r)) } }

def State.recX (s : State) (r : Nat) : RecX := Tab.get {} s.sq.recx r

def State.modRecX (s : State) (r : Nat) (f : RecX → RecX) : State :=
  { s with sq := { s.sq with recx := Tab.set {} s.sq.recx r (f (s.recX r)) } }

/-- Binding entry b. -/
def State.bind (s : State) (b : Nat) : Binding := Tab.get {} s.ox.binds b

def State.modBind (s : State) (b : Nat) (f : Binding → Binding) : State :=
  { s with ox := { s.ox with binds := Tab.set {} s.ox.binds b (f (s.bind b)) } }

def State.bindX (s : State) (b : Nat) : BindX := Tab.get {} s.ox.bindx b

def State.modBindX (s : State) (b : Nat) (f : BindX → BindX) : State :=
  { s with ox := { s.ox with bindx := Tab.set {} s.ox.bindx b (f (s.bindX b)) } }

/-- The transport session of controller c. -/
def State.sess (s : State) (c : Nat) : Xs := Tab.get {} s.xp.sess c

def State.modSess (s : State) (c : Nat) (f : Xs → Xs) : State :=
  { s with xp := { s.xp with sess := Tab.set {} s.xp.sess c (f (s.sess c)) } }

def State.xfer (s : State) (x : Nat) : Xfer := Tab.get {} s.xp.xfers x

def State.modXfer (s : State) (x : Nat) (f : Xfer → Xfer) : State :=
  { s with xp := { s.xp with xfers := Tab.set {} s.xp.xfers x (f (s.xfer x)) } }

/-- Enrolment entry of controller c. -/
def State.enrol (s : State) (c : Nat) : Enrol := Tab.get {} s.mbx.enrol c

/-- Mailbox m of controller c. -/
def State.box (s : State) (c m : Nat) : MboxU := Tab.get {} s.mbx.boxes (8 * c + m)

def State.modBox (s : State) (c m : Nat) (f : MboxU → MboxU) : State :=
  { s with mbx := { s.mbx with boxes := Tab.set {} s.mbx.boxes (8 * c + m) (f (s.box c m)) } }

def State.eth (s : State) (k : Nat) : Eth := Tab.get {} s.eths k

def State.modEth (s : State) (k : Nat) (f : Eth → Eth) : State := { s with eths := Tab.set {} s.eths k (f (s.eth k)) }

def State.dieU (s : State) (d : Nat) : DieU := Tab.get {} s.dies d

def State.modDie (s : State) (d : Nat) (f : DieU → DieU) : State := { s with dies := Tab.set {} s.dies d (f (s.dieU d)) }

/-- What the device sends goes to the front of the trace. -/
def State.emit (s : State) (o : Output) : State := { s with out := o :: s.out }

/-- Draw a free value (log entry 4). -/
def State.fresh (s : State) : Word := Config.freeWord s.free

/-- The state after drawing one. -/
def State.drew (s : State) (n : Nat := 1) : State := { s with free := s.free + n }

/-- Fabric time as the units read it. -/
def State.now (s : State) : Nat := s.ft.now

/-- The always-on count (R537), modulo 2^32 where it is shown. -/
def State.aon (s : State) : Nat := s.aonNs / 1000000

/-- Whether the fabric time unit is LOCKED; the root always is (R342). -/
def State.timeLocked (s : State) : Bool := decide (s.ft.st = .locked) || s.ft.ctlRoot

/-- Fabric time as log entries carry it: 0 when not LOCKED or the island has failed (R26, R446). -/
def State.stamp (s : State) : Nat := if s.timeLocked && !s.ft.failed then s.ft.now else 0

/-- The first slew that may be applied now is taken out of a list: its value, and the rest. -/
def takeDue (now : Nat) : List (Nat × Int) → Int × List (Nat × Int)
  | [] => (0, [])
  | (a, v) :: t => if a ≤ now then (v, t) else ((takeDue now t).1, (a, v) :: (takeDue now t).2)

/-- One ns passes (log entry 1): the always-on time, and fabric time, which moves by 2 or 0 in a tick that applies a slew (R341). -/
def State.tick (s : State) : State :=
  if s.ft.failed then { s with aonNs := s.aonNs + 1 }
  else
    let d := takeDue s.ft.now s.ft.due
    { s with aonNs := s.aonNs + 1, ft := { s.ft with now := ((s.ft.now : Int) + 1 + d.1).toNat, due := d.2 } }

/-- Whether a die is in service (R14, R34). -/
def State.dieIn (s : State) (d : Nat) : Bool :=
  if d < 16 then bit s.svc.cdIn d
  else if d = 16 then s.svc.hubIn
  else if d < 23 then bit s.svc.ldIn (d - 17)
  else if d = 23 then s.svc.hdIn
  else decide (d = 24)

/-- Whether a launch record holds a launch that is ARMED, RUNNING or STOPPING. -/
def RecSt.live : RecSt → Bool
  | .armed | .running | .stopping => true
  | _ => false

/-- Whether a context's launch is ARMED, RUNNING or STOPPING. -/
def CtxSt.live : CtxSt → Bool
  | .armed | .running | .stopping => true
  | _ => false

/-- Whether any launch of the device is ARMED, RUNNING or STOPPING. -/
def State.anyLaunch (s : State) : Bool := s.ctx.tab.any fun e => e.2.st.live

/-- Whether a launch using die n is ARMED, RUNNING or STOPPING. -/
def State.launchOn (s : State) (n : Nat) : Bool := s.ctx.tab.any fun e => e.2.st.live && bit e.2.mask n

/-- Whether a launch is RUNNING or STOPPING on the device. -/
def State.running (s : State) : Bool := s.ctx.tab.any fun e => decide (e.2.st = .running) || decide (e.2.st = .stopping)

/-- The weight of an event contributor (R435). -/
def contribWeight (i : Nat) : Nat := ([20, 30, 60, 60, 10, 5, 100] : List Nat).getD (i - 13) 0

/-- The ledger total an event contributor counts in, by header byte (R449). -/
def contribTotal (i : Nat) : Option Nat := ([some 28, some 44, some 48, some 52, some 56, some 60] : List (Option Nat)).getD (i - 13) none

/-- The histogram bin of a miscompare (R444): 7 for self-test, else by temperature in 1/16 degree. -/
def histBin (mech : Nat) (temp : Int) : Nat :=
  if mech = 2 then 7 else if temp < 800 then 0 else if 1600 ≤ temp then 6 else ((temp - 640) / 160).toNat

/-- A contributor counts an event when it is logged (R436, R444, R449). -/
def State.counted (s : State) (e : Event) : State :=
  match e.contrib with
  | none => s
  | some i =>
    let s := { s with health := { s.health with
      days := Tab.modify 0 s.health.days (8 * (i - 13)) fun b => sat 32 (b + contribWeight i) } }
    let s := match contribTotal i with
      | some k => { s with ledger := { s.ledger with totals := Tab.modify 0 s.ledger.totals k (· + 1) } }
      | none => s
    if i = 15 then
      let bin := histBin (fld e.data 1 1) (sx 16 (fld e.data 16 2))
      { s with health := { s.health with
        hist := Tab.modify 0 s.health.hist (8 * (5 * e.die + fld e.data 0 1) + bin) fun n => sat 16 (n + 1) } }
    else s

/-- An event that the ledger keeps waits for its record (R450): of type 5 at most 64 a contributor and hour. -/
def State.toLedger (s : State) (e : Event) : State :=
  let push (s : State) : State := { s with ledger := { s.ledger with pending := s.ledger.pending ++ [(e.ledger, e)] } }
  if e.ledger = 0 then s
  else if e.ledger = 5 then
    let i := e.contrib.getD 0
    let n := Tab.get 0 s.health.uncorrHour i
    if n < 64 then push { s with health := { s.health with uncorrHour := Tab.set 0 s.health.uncorrHour i (n + 1) } } else s
  else push s

/-- The 64 bytes of an entry (R446). -/
def Event.bytes (e : Event) (seq flags : Nat) : List Byte :=
  leBytes 8 e.time ++ leBytes 4 e.aon ++ leBytes 4 seq ++
    [BitVec.ofNat 8 e.die, BitVec.ofNat 8 e.unit, BitVec.ofNat 8 e.sev, BitVec.ofNat 8 (e.flags + flags)] ++
    leBytes 2 e.code.code ++ leBytes 2 e.ctx ++ leBytes 4 0 ++ padTo 36 e.data

/-- An event reaches the intake of the log (R446, R447), stamped. While the host die is out of service the Goose writes its own
events to the mirror and those of other dies are lost (R448). -/
def State.logEv (s : State) (e : Event) : State :=
  let e := { e with time := s.stamp, aon := s.aon % 2 ^ 32, flags := if s.timeLocked then 0 else 2 }
  if s.svc.hdIn then
    if s.log.intake.length < 256 then { s with log := { s.log with intake := s.log.intake ++ [e] } }
    else { s with log := { s.log with lost := sat 32 (s.log.lost + 1), lostNow := true } }
  else if e.die = 24 then
    ({ s with mirror := { s.mirror with queue := s.mirror.queue ++ [e.bytes 0xFFFFFFFF 8] } }.counted e).toLedger e
  else s

/-- Raise an event with data bytes. -/
def State.raise (s : State) (die unit sev : Nat) (code : Err) (data : List Byte := []) (ctx : Nat := 0xFFFF)
    (contrib : Option Nat := none) (ledger : Nat := 0) : State :=
  s.logEv { die := die, unit := unit, sev := sev, code := code, ctx := ctx, data := data, contrib := contrib,
            ledger := if sev = 5 then 7 else ledger }

/-- A substitution, retirement or map change is logged and written to the ledger (R442, R450), also by a start-up test before the host die
is in service; its data: kind by row of R442, index, physical unit old and new (log entry 15). -/
def State.substituted (s : State) (die unit kind index old new : Nat) (sev : Nat := 1) (code : Err := .ok) : State :=
  let data := [BitVec.ofNat 8 kind, 0, 0, 0] ++ leBytes 4 index ++ leBytes 4 old ++ leBytes 4 new
  if s.svc.hdIn then s.raise die unit sev code data 0xFFFF none 2
  else s.toLedger { time := s.stamp, aon := s.aon % 2 ^ 32, die := die, unit := unit, sev := sev, code := code, data := data, ledger := 2 }

/-- The level the units in service give (R33), under the caps in force (R36, R440, R460, R462, R494). -/
def State.levelOf (s : State) (v : Service) : Nat :=
  let l :=
    if !(v.flashIn && v.oobIn) then 0
    else if !v.hdIn then 1
    else if !(v.hubIn && decide (v.ldIn ≠ 0)) then 2
    else if v.cdIn = 0 then 3
    else 4
  let l := if s.health.quarantined then min l 2 else l
  let l := if s.sec.pufOk then l else min l 1
  let l := if s.cfg.trimOk then l else min l 2
  match s.pwr.st with
  | .run => l
  | .parked => min l 2
  | .mgmt => min l 1

/-- The Goose recomputes LEVEL after a change of KD_SERVICE (R35): a fall is logged at severity 4 with the cause's code, a rise
at severity 1. -/
def State.service (s : State) (v : Service) (cause : Err) : State :=
  let l := s.levelOf v
  let s' := { s with svc := { v with level := l } }
  if l < s.svc.level then s'.raise 24 0x00 4 cause
  else if s.svc.level < l then s'.raise 24 0x00 1 .ok
  else s'

/-- The NODE of this device (R311). -/
def State.node (s : State) : Nat := s.ox.node

/-- The tag f of a queue's head (R388). -/
def EgQ.tagHead (q : EgQ) (v : Nat) : EgQ :=
  match q.fifo with
  | [] => q
  | f :: _ =>
    if q.weight = 0 then { q with headTag := 0 }
    else
      let t := max v q.fLast + f.bytes * 65536 / q.weight
      { q with headTag := t, fLast := t }

/-- A frame joins a queue; the head of a queue gets its tag at once (R388). -/
def EgQ.push (q : EgQ) (v : Nat) (f : TxFrame) : EgQ :=
  if q.fifo = [] then ({ q with fifo := [f] } : EgQ).tagHead v else { q with fifo := q.fifo ++ [f] }

/-- Sub-port s of a port, and egress queue q of it. -/
def Eth.sub (e : Eth) (s : Nat) : SubSt := Tab.get {} e.subs s
def Eth.queue (e : Eth) (s q : Nat) : EgQ := Tab.get {} e.queues (8 * s + q)

/-- A frame joins queue q of sub-port `sub`. -/
def Eth.push (e : Eth) (sub q : Nat) (f : TxFrame) : Eth :=
  { e with queues := Tab.set {} e.queues (8 * sub + q) ((e.queue sub q).push (e.sub sub).v f) }

/-- Whether a sub-port, coded as in PRIMARY (R396), has link. -/
def State.subUp (s : State) (code : Nat) : Bool := ((s.eth (code % 16)).sub (code / 16 % 4)).up

/-- The sub-port on which the device sends to a controller (R374): where its last accepted segment arrived, or the other bound one while
that one is down. -/
def State.outSub (s : State) (x : Xs) : Nat :=
  let other := if x.lastSub = x.primary then x.backup else x.primary
  if s.subUp x.lastSub || other == 0xFF || !s.subUp other then x.lastSub else other

/-- Bytes of a segment's frame on the wire (R375, R377, R379). -/
def segWire (tag v6 : Bool) (n : Nat) : Nat := max 64 (14 + (if tag then 4 else 0) + (if v6 then 40 else 20) + 8 + 48 + n + 4)

/-- A segment for controller c joins the egress queue of its priority (R374, R387). -/
def State.sendSeg (s : State) (c : Nat) (g : TxSeg) (zeroKey : Bool := false) : State :=
  let x := s.sess c
  let o := s.outSub x
  s.modEth (o % 16) fun e => e.push (o / 16 % 4) (g.pcp % 8)
    { ctrl := some c, seg := g, zeroKey := zeroKey, bytes := segWire e.txTag (decide (x.peerIp.length ≠ 4)) g.payload.length }

/-- A segment of a session takes the next PSN and is kept until acknowledged (R380); beyond 1,024 it waits. -/
def State.queueSeg (s : State) (c : Nat) (g : TxSeg) : State :=
  let x := s.sess c
  if x.st ≠ 1 then s
  else
    let g := { g with psn := x.nextPsn, pcp := if g.type = 2 then g.pcp else x.pcp }
    if x.unacked.length < 1024 then
      (s.modSess c fun x => { x with
        nextPsn := (x.nextPsn + 1) % 2 ^ 32, unacked := x.unacked ++ [g],
        lastAdv := if x.unacked = [] then s.aonNs else x.lastAdv }).sendSeg c g
    else s.modSess c fun x => { x with waiting := x.waiting ++ [g] }

/-- The bytes of a reply or notice before its trailer (R401). -/
def Frame401.bytes (f : Frame401) : List Byte :=
  leBytes 2 0x5A4E ++ [1, BitVec.ofNat 8 f.ctrl, BitVec.ofNat 8 f.mailbox, BitVec.ofNat 8 f.flags] ++
    leBytes 2 f.command ++ leBytes 4 f.seq ++ leBytes 2 f.payload.length ++ leBytes 2 f.status ++
    leBytes 2 f.context ++ leBytes 6 0 ++ leBytes 8 f.time ++ f.payload

/-- The whole frame under a session key (R401). -/
def Frame401.sealed (f : Frame401) (key : List Byte) : List Byte := f.bytes ++ hmac key f.bytes

/-- Hand a reply or notice to its port: the out-of-band port sends it at once, the host transport as an MBOX segment. -/
def State.post (s : State) (oob : Bool) (f : Frame401) : State :=
  let s := s.emit (.mailbox oob f)
  if oob then s else s.queueSeg f.ctrl { type := 1, payload := f.sealed (s.sess f.ctrl).key }

/-- A notice to controller c (R406): the next notice SEQ, the last 256 kept. -/
def State.notice (s : State) (c code : Nat) (payload : List Byte) : State :=
  let q := Tab.get 0 s.mbx.noticeSeq c
  let f : Frame401 := { ctrl := c, mailbox := 8, flags := 2, command := code, seq := q, time := s.now, payload := payload }
  let kept := Tab.get [] s.mbx.notices c ++ [f]
  let s := { s with mbx := { s.mbx with
    noticeSeq := Tab.set 0 s.mbx.noticeSeq c ((q + 1) % 2 ^ 32),
    notices := Tab.set [] s.mbx.notices c (kept.drop (kept.length - 256)) } }
  s.post (s.sess c).oob f

/-- The command of a mailbox completes: its frame leaves the queue and the reply is kept among the last four (R404, R405). -/
def MboxU.complete (b : MboxU) (seq : Nat) (f : Frame401) : MboxU :=
  { b with
    frames := if b.running && b.runSeq == seq then b.frames.tail else b.frames,
    running := if b.running && b.runSeq == seq then false else b.running,
    lastStatus := f.status,
    replies := (b.replies ++ [f]).drop ((b.replies ++ [f]).length - 4) }

/-- The reply to a command (R405). -/
def State.reply (s : State) (src : Src) (cmd : Nat) (st : Err) (payload : List Byte) : State :=
  let f : Frame401 := { ctrl := src.ctrl, mailbox := src.mbox, flags := 1, command := cmd, seq := src.seq, status := st.code,
                        context := src.context, time := s.now, payload := if st = Err.ok then payload else [] }
  let s := { s with mbx := { s.mbx with refused := s.mbx.refused + (if st = Err.ok then 0 else 1) } }
  (s.modBox src.ctrl src.mbox fun b => b.complete src.seq f).post src.oob f

/-- Whether the out-of-band port takes a command (R398): groups 0x01, 0x0B, 0x0C and 0x0E, and the reads of group 0x02. -/
def oobAllows (cmd : Nat) : Bool :=
  let g := cmd / 256
  g == 0x01 || g == 0x0B || g == 0x0C || g == 0x0E || cmd == 0x0201 || cmd == 0x0205

/-- Whether a claim session takes a command (R479): DEV_INFO, ID_CERT, ATTEST_QUOTE, MEAS_READ, OWNER_SET (SESSION_OPEN opens it). -/
def claimAllows (cmd : Nat) : Bool :=
  cmd == 0x0101 || cmd == 0x0C07 || cmd == 0x0C08 || cmd == 0x0C09 || cmd == 0x0C06 || cmd == 0x0C01

/-- Whether the port and the session kind allow a command (R398, R479): over the out-of-band port a controller's entry must have OOB, but
for a claim. -/
def State.portAdmits (s : State) (src : Src) (cmd : Nat) : Bool :=
  let claimant := src.ctrl == 0 && (s.sec.claimSession || cmd == 0x0C01)
  (!src.oob || (oobAllows cmd && ((s.enrol src.ctrl).oob || claimant))) &&
  (!(s.sec.claimSession && src.oob && src.ctrl == 0) || claimAllows cmd)

/-- Whether the sender has ADMIN (R396, R407). -/
def State.isAdmin (s : State) (src : Src) : Bool :=
  decide ((s.enrol src.ctrl).st = 1) && (s.enrol src.ctrl).admin

/-- Whether a context is FREE, or is no context at all (R408). -/
def State.noCtx (s : State) (x : Nat) : Bool := decide ((s.cx x).st = .free)

/-- Whether the sender may name context x (R407): its owner. A FREE context has none, and is refused with E_RANGE after this check
(R410). -/
def State.owns (s : State) (src : Src) (x : Nat) : Bool := s.noCtx x || decide ((s.cx x).owner = src.ctrl.val)

/-- The first check that fails. -/
def firstErr : List (Bool × Err) → Option Err
  | [] => none
  | (b, e) :: t => if b then some e else firstErr t

/-- A mailbox command from check 8 of R402 on: port and privilege, CONTEXT's agreement with the arguments, the command's own
checks in order, then its effect. -/
def State.command (s : State) (src : Src) (cmd : Nat) (allowed agrees : Bool) (checks : List (Bool × Err))
    (run : State → State) : State :=
  if !(s.portAdmits src cmd && allowed) then s.reply src cmd .denied []
  else if !agrees then s.reply src cmd .badarg []
  else match firstErr checks with
    | some e => s.reply src cmd e []
    | none => run s

/-- A command of the owner of context x, executed by the host die (R402, R407). -/
def State.ownCommand (s : State) (src : Src) (cmd x : Nat) (checks : List (Bool × Err)) (run : State → State) : State :=
  s.command src cmd (s.owns src x) (decide (src.context = x)) ([(!s.svc.hdIn, .range), (s.noCtx x, .range)] ++ checks) run

/-- The encoding of a context state (R408). -/
def CtxSt.code : CtxSt → Nat
  | .free => 0 | .open_ => 1 | .loaded => 2 | .armed => 3 | .running => 4 | .stopping => 5 | .halted => 6 | .done => 7
  | .saved => 8

/-- Bring a progress entry up to now (R453): time while RUNNING or STOPPING is pending, time after an abort or halt is lost. -/
def Progress.upTo (p : Progress) (now : Nat) (running : Bool) : Progress :=
  let dt := now - p.lastTick
  { p with pending := if running then p.pending + dt else p.pending,
           lost := if !running && p.losing then p.lost + dt else p.lost, lastTick := now }

/-- The progress entry of context x. -/
def State.prog (s : State) (x : Nat) : Progress := Tab.get {} s.ctx.progress x

/-- Whether context x counts pending time. -/
def State.ctxRuns (s : State) (x : Nat) : Bool := decide ((s.cx x).st = .running) || decide ((s.cx x).st = .stopping)

/-- The progress entry brought up to now. -/
def State.progNow (s : State) (x : Nat) : Progress := (s.prog x).upTo s.now (s.ctxRuns x)

/-- Change a progress entry, brought up to now first. -/
def State.modProg (s : State) (x : Nat) (f : Progress → Progress) : State :=
  { s with ctx := { s.ctx with progress := Tab.set {} s.ctx.progress x (f (s.progNow x)) } }

/-- Move pending time (R453). -/
def Progress.toUseful (p : Progress) (now : Nat) : Progress :=
  { p with useful := p.useful + p.pending, pending := 0, moved := now }

def Progress.toLost (p : Progress) (now : Nat) : Progress := { p with lost := p.lost + p.pending, pending := 0, moved := now }

/-- What a state change does to a progress entry (R453): an abort or halt loses pending time in GOODPUT and starts lost time; a
clean end keeps it in GOODPUT; a start ends lost time. -/
def Progress.onState (p : Progress) (goodput : Bool) (now : Nat) : CtxSt → Progress
  | .halted => { (if goodput then p.toLost now else p) with losing := true }
  | .done => if goodput then p.toUseful now else p
  | .running => { p with losing := false }
  | _ => p

/-- A context changes state (R409), stamped, counted in its progress entry and notified to its owner as CTX_STATE (R406). -/
def State.setCtx (s : State) (x : Nat) (st : CtxSt) (code : Err := .ok) (die ltile : Nat := 0xFF) : State :=
  let old := s.cx x
  let s := s.modProg x fun p => p.onState old.goodput s.now st
  let s := s.modCx x fun c => { c with st := st, changed := s.now, code := if code = Err.ok then c.code else code }
  s.notice old.owner 0x0380 (leBytes 2 x ++ [BitVec.ofNat 8 old.st.code, BitVec.ofNat 8 st.code] ++ leBytes 2 code.code ++
    [BitVec.ofNat 8 die, BitVec.ofNat 8 ltile] ++ leBytes 8 s.now)

/-- The context entry as its table shows it (R420). -/
def Ctx.bytes (c : Ctx) : List Byte :=
  [BitVec.ofNat 8 c.st.code, BitVec.ofNat 8 c.owner,
   BitVec.ofNat 8 (b2n c.ieee + 2 * b2n c.goodput + 4 * b2n c.debug + 8 * b2n c.scheduled + 16 * b2n c.urCompat),
   BitVec.ofNat 8 (if c.st = .free then 0 else c.recIdx)] ++ leBytes 2 c.mask ++ leBytes 2 c.code.code ++ leBytes 8 c.l1 ++ leBytes 8 c.programId ++
  leBytes 8 c.schedId ++ leBytes 8 c.changed ++ leBytes 2 c.saves ++ [BitVec.ofNat 8 c.tiles] ++ leBytes 5 0 ++
  leBytes 8 c.launches ++ leBytes 8 0

/-- The encoding of a launch record state (R371). -/
def RecSt.code : RecSt → Nat
  | .free => 0 | .armed => 1 | .running => 2 | .stopping => 3 | .ended => 4 | .aborted => 5

/-- A launch record as its table shows it (R371). -/
def Rec.bytes (r : Rec) : List Byte :=
  [BitVec.ofNat 8 r.st.code, BitVec.ofNat 8 (b2n r.checked + 2 * b2n r.lateNow)] ++ leBytes 2 r.ctx ++ leBytes 4 r.lag ++
  leBytes 8 r.schedId ++ leBytes 8 r.t0 ++ leBytes 8 r.period ++ leBytes 8 r.nominal ++ leBytes 4 r.lambda ++
  leBytes 4 r.peak ++ leBytes 8 r.lates ++ leBytes 2 r.code.code ++ [BitVec.ofNat 8 r.die, BitVec.ofNat 8 r.unit] ++
  leBytes 4 r.node ++ leBytes 8 r.p0 ++ leBytes 8 r.last ++ leBytes 8 r.abortPeriod ++ leBytes 8 r.abortTime ++
  leBytes 4 r.slack ++ leBytes 4 r.skipped ++ leBytes 24 0

/-- The launch record of a context that holds a live launch. -/
def State.liveRec? (s : State) (x : Nat) : Option Nat :=
  (List.find? (fun e => e.2.ctx == x && e.2.st.live) s.sq.recs).map (·.1)

/-- The logical tile a Mule runs for a context: the physical tile of logical tile i on die n (R16, R18). -/
def TileMap.phys (m : TileMap) (i : Nat) : Nat :=
  if i = 0 then m.lt0 else if i = 1 then m.lt1 else if i = 2 then m.lt2 else if i = 3 then m.lt3 else 7

/-- Logical tiles a die offers (R18). -/
def TileMap.count (m : TileMap) : Nat := ((List.range 4).filter fun i => m.phys i ≠ 7).length

/-- CD_TILE_MAP (R18). -/
def TileMap.word (m : TileMap) : Nat :=
  m.lt0 + m.lt1 * 2 ^ 3 + m.lt2 * 2 ^ 6 + m.lt3 * 2 ^ 9 + m.ok * 2 ^ 12 + m.count * 2 ^ 17

/-- Add to a 48-bit event counter (R522). -/
def EvCount.add (e : EvCount) (n : Nat) : EvCount :=
  { count := (e.count + n) % 2 ^ 48, wrap := e.wrap || decide (2 ^ 48 ≤ e.count + n) }

/-- ARR_EV_CYCLES up to an instant: 2.5 cycles to the ns while the PLL runs (R522). -/
def ArrayU.cyclesAt (a : ArrayU) (now : Nat) : EvCount :=
  match a.evFrom with
  | some f => a.evCycles.add ((now - f) * 5 / 2)
  | none => a.evCycles

/-- The array's PLL runs, or does not, from now on (R27, R522). -/
def ArrayU.pll (a : ArrayU) (on : Bool) (now : Nat) : ArrayU :=
  if on then { a with evFrom := some (a.evFrom.getD now) } else { a with evCycles := a.cyclesAt now, evFrom := none }

/-- Whether a tile in a sleep state keeps its PLL running (R27). -/
def Sleep.pllOn : Sleep → Bool
  | .running | .gated => true
  | _ => false

/-- The sleep record of a unit. -/
def State.sleepOf (s : State) : SleepUnit → SleepU
  | .tile d p => (s.tile d p).sleep
  | .hen d => (s.cd d).hen.sleep
  | .ox g => Tab.get {} s.ox.sleeps g
  | .link l => (s.lx l).sleep

/-- Change the sleep record of a unit. -/
def State.modSleep (s : State) (u : SleepUnit) (f : SleepU → SleepU) : State :=
  match u with
  | .tile d p => s.modTile d p fun t => { t with sleep := f t.sleep, arr := t.arr.pll (f t.sleep).st.pllOn s.aonNs }
  | .hen d => s.modCd d fun c => { c with hen := { c.hen with sleep := f c.hen.sleep } }
  | .ox g => { s with ox := { s.ox with sleeps := Tab.set {} s.ox.sleeps g (f (Tab.get {} s.ox.sleeps g)) } }
  | .link l => s.modLx l fun x => { x with sleep := f x.sleep }

end Sys2Proof.Machine
end

