-- ==== Sys2Proof/Machine/HubOps.lean ====
section
/-! DEFINITION. Operations over the hub's packets shared with the Ox, the links and the launches (R236 to R243, R330). -/

namespace Sys2Proof

open Machine

/-- A header as its 30 bytes before the header CRC (R324). -/
def Hdr.body (h : Hdr) : List Byte :=
  [BitVec.ofNat 8 (h.version % 16 + 16 * (h.net % 2) + 32 * (h.cls % 4) + 128 * (h.epoch % 2)),
   BitVec.ofNat 8 (h.hop % 16 + 16 * b2n h.mc)] ++ leBytes 12 h.route ++ leBytes 2 h.ctx ++ [BitVec.ofNat 8 h.kind, 0] ++
  leBytes 2 h.period ++ leBytes 4 h.collId ++ leBytes 2 h.length ++ leBytes 2 h.group ++ leBytes 2 0

/-- The header CRC (R325). -/
def Hdr.crc (h : Hdr) : Nat := crc16 h.body

/-- A header with its CRC. -/
def Hdr.seal (h : Hdr) : Hdr := { h with hcrc := h.crc }

/-- A packet in the bytes it is stored and carried as (R234). -/
def Packet.bytes (k : Packet) : List Byte := k.hdr.body ++ leBytes 2 k.hdr.hcrc ++ k.payload ++ leBytes 4 k.crc

/-- Cells of a packet (R234). -/
def Packet.cells (k : Packet) : Nat := cdiv (36 + k.payload.length) 128

/-- Selector h of a route (R324). -/
def Hdr.sel (h : Hdr) (i : Nat) : Nat := bits h.route (6 * i + 5) (6 * i)

end Sys2Proof

namespace Sys2Proof.Machine

/-- The state of version e of the routing tables (R329). -/
def Routing.ver (r : Routing) (e : Nat) : VerSt := if e = 0 then r.v0 else r.v1

def Routing.setVer (r : Routing) (e : Nat) (v : VerSt) : Routing := if e = 0 then { r with v0 := v } else { r with v1 := v }

/-- The epoch of headers formed now (R329). -/
def State.epochNow (s : State) : Nat := if s.rt.v1 = .current then 1 else 0

/-- A packet this device forms: epoch, length and both CRCs (R325, R331). -/
def State.packet (s : State) (h : Hdr) (payload : List Byte) : Packet :=
  { hdr := { h with epoch := s.epochNow, length := payload.length }.seal, payload := payload, crc := crc32 payload }

/-- A route of one or two selectors, the rest End (R326). -/
def route2 (a b : Nat) : Nat := a + b * 2 ^ 6 + (2 ^ 96 - 2 ^ 12)

/-- A route of one selector. -/
def route1 (a : Nat) : Nat := a + (2 ^ 96 - 2 ^ 6)

/-- Tokens of a shaper brought up to date (R389): bytes with 16 fraction bits, never above the burst. -/
def shaperNow (tokens : Int) (tLast rate burst now : Nat) : Int :=
  min ((burst * 65536 : Nat) : Int) (tokens + ((rate * (now - tLast) * 65536 / 8000 : Nat) : Int))

/-- The in-flight counter of port p and epoch e (R330). -/
def Routing.counter (r : Routing) (p e : Nat) : Nat := Tab.get 0 r.counters (2 * p + e)

/-- A DRAINING version whose 54 counters are all zero becomes LOADED (R330). -/
def Routing.drained (r : Routing) (e : Nat) : Routing :=
  if r.ver e = .draining ∧ (List.range 54).all (fun p => r.counter p e == 0) then r.setVer e .loaded else r

/-- A packet of epoch e enters through port p (R330). -/
def Routing.enter (r : Routing) (p e : Nat) : Routing :=
  { r with counters := Tab.set 0 r.counters (2 * p + e) (r.counter p e + 1) }

/-- Its last copy has left the device. -/
def Routing.leave (r : Routing) (p e : Nat) : Routing :=
  Routing.drained { r with counters := Tab.set 0 r.counters (2 * p + e) (r.counter p e - 1) } e

/-- A packet with `n` copies enters through port p: its number in the in-flight accounting. -/
def State.flightOpen (s : State) (p e n : Nat) : State × Nat :=
  let q := s.hub.nextSerial
  ({ s with rt := s.rt.enter p e,
            hub := { s.hub with nextSerial := q + 1, flights := Tab.set {} s.hub.flights q { port := p, epoch := e, copies := n } } }, q)

/-- One copy of a packet leaves the device (R330). -/
def State.copyLeaves (s : State) (q : Nat) : State :=
  let f := Tab.get {} s.hub.flights q
  if f.copies ≤ 1 then
    if f.copies = 0 then s
    else { s with rt := s.rt.leave f.port f.epoch, hub := { s.hub with flights := Tab.del s.hub.flights q } }
  else { s with hub := { s.hub with flights := Tab.set {} s.hub.flights q { f with copies := f.copies - 1 } } }

/-- Cells in use of network n in a bank. -/
def Hub.usedIn (h : Hub) (n bank : Nat) : Nat := Tab.get 0 h.used (1024 * n + bank)

/-- Free one cell (R237). Cell addresses are bank + 1024 * row (R228). -/
def Hub.freeCell (h : Hub) (n c : Nat) : Hub :=
  { h with used := Tab.set 0 h.used (1024 * n + c % 1024) (h.usedIn n (c % 1024) - 1) }

/-- One reference to a packet falls; at 0 its cells and descriptor return to the free lists (R237). -/
def Hub.release (h : Hub) (d : Nat) : Hub :=
  let k := Tab.get {} h.pkts d
  if k.refs ≤ 1 then
    k.cells.foldl (fun h c => h.freeCell k.pkt.hdr.net c) { h with pkts := Tab.del h.pkts d }
  else { h with pkts := Tab.set {} h.pkts d { k with refs := k.refs - 1 } }

/-- Release a packet read at output 53: its copy has left the device too (R237, R330). -/
def State.releaseOx (s : State) (d : Nat) : State :=
  let q := (Tab.get {} s.hub.pkts d).serial
  ({ s with hub := s.hub.release d }).copyLeaves q

/-- Queue q. -/
def Hub.queue (h : Hub) (q : Nat) : Queue := Tab.get {} h.queues q

def Hub.setQueue (h : Hub) (q : Nat) (v : Queue) : Hub := { h with queues := Tab.set {} h.queues q v }

/-- The queue of output o, network n, class c (R236). -/
def queueNo (o n c : Nat) : Nat := 6 * o + 3 * n + c

/-- Discard every packet of a queue (R244), counting each in DROPPED, and in HUB_DROPS when it leaves by no output. -/
def State.dropQueue (s : State) (q : Nat) : State :=
  let u := s.hub.queue q
  let s := u.entries.foldl (fun s e =>
    let k := Tab.get {} s.hub.pkts e.desc
    let s := { s with hub := { s.hub with drops := s.hub.drops + (if k.refs ≤ 1 && !k.left then 1 else 0) } }
    s.releaseOx e.desc) s
  { s with hub := s.hub.setQueue q { u with entries := [], len := 0, pkts := 0, dropped := u.dropped + u.entries.length } }

/-- Output o leaves service: its six queues are discarded (R244). -/
def State.outputDown (s : State) (o : Nat) : State :=
  let s := { s with hub := { s.hub with outUp := Tab.set false s.hub.outUp o false } }
  (List.range 6).foldl (fun s i => s.dropQueue (6 * o + i)) s

/-- Output o returns to service. -/
def State.outputUp (s : State) (o : Nat) : State :=
  { s with hub := { s.hub with outUp := Tab.set false s.hub.outUp o true } }

/-- Compute die n leaves service for a cause (R19, R35): its hub output is discarded and its bit leaves CD_IN. -/
def State.cdDown (s : State) (n : Nat) (cause : Err) : State :=
  (s.outputDown n).service { s.svc with cdIn := setBit s.svc.cdIn n false } cause

end Sys2Proof.Machine
end

