-- ==== Sys2Proof/Machine/Halt.lean ====
section
/-! DEFINITION. Mule faults and halts (R76, R86), the end of a period on the group (R363, R364), aborts of collectives (R276, R303,
R304): what several commands share. -/

namespace Sys2Proof.Machine

/-- The encoding of a binding state (R288). -/
def BindSt.code : BindSt → Nat
  | .free => 0 | .open => 1 | .running => 2 | .done => 3 | .aborted => 4

/-- A binding entry as its table shows it (R288). -/
def Binding.entryBytes (b : Binding) : List Byte :=
  leBytes 4 b.collId ++ leBytes 2 b.ctx ++ [BitVec.ofNat 8 b.st.code, BitVec.ofNat 8 b.place, BitVec.ofNat 8 b.owner,
    BitVec.ofNat 8 (b2n b.ieee), 0, 0] ++ leBytes 4 b.lines ++ leBytes 4 b.used ++ leBytes 4 b.finished ++
  leBytes 8 b.spill ++ leBytes 4 b.flags ++ leBytes 2 b.code.code ++ leBytes 2 0 ++ leBytes 8 b.steps ++
  leBytes 8 b.sent ++ leBytes 8 0

/-- A control entry as its table shows it (R311). -/
def Binding.controlBytes (b : Binding) : List Byte :=
  leBytes 8 b.dhash ++ leBytes 4 b.nmembers ++ leBytes 4 b.myIndex ++ leBytes 4 b.timeoutUs ++ leBytes 2 b.opensIn ++
  leBytes 2 b.matchedIn ++ leBytes 2 b.opensOut ++ leBytes 2 b.matchedOut ++ leBytes 4 b.recvUnits ++ leBytes 4 b.written ++
  leBytes 4 b.origin ++ leBytes 8 b.tRun ++ leBytes 8 b.tEnd ++ leBytes 4 b.collId ++ leBytes 2 b.ctx ++
  [BitVec.ofNat 8 (b2n b.sched + 2 * b2n b.partial_ + 4 * b2n b.notify), 0]

/-- The returns of COLL_STATUS, and the payload of COLL_END (R310, R406). -/
def Binding.status (b : Binding) : List Byte := b.entryBytes ++ b.controlBytes

/-- A binding that reaches DONE or ABORTED with NOTIFY notifies its context's controller (R302). -/
def State.collEnd (s : State) (b : Nat) : State :=
  if (s.bind b).notify then s.notice (s.cx (s.bind b).ctx).owner 0x0680 (s.bind b).status else s

/-- Packets the Ox still reads for a run. -/
def OxRun.descs (r : OxRun) : List Nat :=
  r.blocks.flatMap (fun e => (e.2.held ++ e.2.firing.getD []).map (·.desc)) ++ r.recHeld.map (·.2.2)

/-- A binding in OPEN, RUNNING or DONE aborts (R276, R304, R305): its program and fetch stop, code and origin are recorded, the
packets and lines it holds are freed, an OX_ABORT falls due; severity 3 for a local cause and 2 for a received one. Of several local
causes in one ns the lowest code is kept, and a local cause takes precedence over a received one. -/
def State.abortBinding (s : State) (b : Nat) (code : Err) (origin sev : Nat) (data : List Byte := []) (contrib : Option Nat := none)
    (ledger : Nat := 0) : State :=
  let x := s.bind b
  match x.st with
  | .open | .running | .done =>
    let s := (s.bindX b).run.descs.foldl (fun s d => s.releaseOx d) s
    let s := s.modBind b fun v => { v with st := .aborted, code := code, origin := origin, tEnd := s.now, used := 0 }
    let s := s.modBindX b fun v => { v with
      abortDue := true, localCause := decide (sev = 3), fetch := { v.fetch with active := false },
      run := { v.run with blocks := Tab.remap {} (fun _ k => { k with held := [], firing := none }) v.run.blocks, recHeld := [],
                          inputs := [], ts := [], table := [] } }
    let s := { s with ox := { s.ox with abortCount := s.ox.abortCount + 1 } }
    (s.raise 16 0x04 sev code data x.ctx contrib ledger).collEnd b
  | .aborted =>
    if sev = 3 ∧ x.tEnd = s.now ∧ x.code ≠ .ok then
      let s := if !(s.bindX b).localCause then s.modBind b fun v => { v with code := code, origin := origin }
        else s.modBind b fun v => { v with code := Err.min v.code code }
      (s.modBindX b fun v => { v with localCause := true }).raise 16 0x04 sev code data x.ctx contrib ledger
    else s
  | .free => s

/-- Halt a Mule that is executing, waiting or at a break: its fault registers take the code (R76, R77). -/
def Mule.halt (m : Mule) (code : Err) (source unit tag lrc : Nat) : Mule :=
  { m with st := .haltFault, faultCode := code, faultSource := source, faultUnit := unit, faultTag := tag,
           faultPc := m.pc, faultLrc := lrc }

/-- Whether a Mule can still be halted. -/
def MuleSt.active : MuleSt → Bool
  | .run | .wait | .pad | .haltBreak => true
  | _ => false

/-- Every active Mule of context x halts with SOURCE 4 and a code (R76, R364). -/
def State.haltLaunch (s : State) (x : Nat) (code : Err) : State :=
  s.remapTiles fun _ _ t =>
    if t.mem.ctx = some x ∧ t.mule.st.active = true then { t with mule := t.mule.halt code 4 0x1F 0 0 } else t

/-- Whether a unit that UNIT_DISABLE names is quiescent (R415, R416): kind 0 a matrix array, 1 an element engine, 2 the Hen, 3 a DMA
engine, 4 a tile, whose Mule and whose launch must have ended. -/
def State.unitQuiet (s : State) (d kind index : Nat) : Bool :=
  let t := s.tile d index
  match kind with
  | 0 => decide (t.arr.passes = [])
  | 1 => t.ee.run.isNone
  | 2 => (s.cd d).hen.jobs.all (fun j => decide (j.2.st ≠ 1)) &&
         (s.cd d).hen.threads.all fun h => (List.all (h.2.reqs.map (·.2)) fun r : HenReq => r.held)
  | 3 => let e : DmaEng := Tab.get {} (s.cd d).dma.engines index
         decide (e.st ≠ 1 ∧ e.st ≠ 2)
  | _ => decide (t.arr.passes = []) && t.ee.run.isNone && !t.mule.st.active &&
         !(match t.mem.ctx with
           | some x => (s.cx x).st.live
           | none => false)

/-- Set the disabled and draining marks of a unit (R415). -/
def State.markUnit (s : State) (d kind index : Nat) (off drain : Bool) : State :=
  let arr (s : State) : State := s.modArr d index fun a => { a with disabled := off, draining := drain }
  let ee (s : State) : State := s.modEe d index fun e => { e with disabled := off, draining := drain }
  match kind with
  | 0 => arr s
  | 1 => ee s
  | 2 => s.modCd d fun c => { c with hen := { c.hen with disabled := off, draining := drain, quiescing := false } }
  | 3 => s.modCd d fun c => { c with dma := { c.dma with engines := Tab.modify {} c.dma.engines index fun e =>
           { e with disabled := off, draining := drain } } }
  | _ => if drain then s.modTile d index fun t => { t with draining := true }
         else (ee (arr s)).modTile d index fun t => { t with disabled := off, draining := false }

/-- The state of a unit as UNIT_DISABLE returns it: 0 enabled, 1 a disable pending, 2 disabled (log entry 34). -/
def State.unitState (s : State) (d kind index : Nat) : Nat :=
  let t := s.tile d index
  let e : DmaEng := Tab.get {} (s.cd d).dma.engines index
  let off := match kind with
    | 0 => t.arr.disabled
    | 1 => t.ee.disabled
    | 2 => (s.cd d).hen.disabled
    | 3 => e.disabled
    | _ => t.disabled
  if s.dis.any fun q => q.die == d && q.kind == kind && q.index == index then 1 else if off then 2 else 0

/-- UNIT_DISABLE commands whose unit has become quiescent disable it and reply (R416). -/
def State.settle (s : State) : State :=
  s.dis.foldl (fun s q =>
    if s.unitQuiet q.die q.kind q.index then
      ({ s with dis := s.dis.filter fun o => o ≠ q }.markUnit q.die q.kind q.index true false).reply q.src 0x0B10 .ok
        ([BitVec.ofNat 8 q.prior] ++ leBytes 4 q.aborted)
    else s) s

/-- A launch ends (R406, R416): the LAUNCH_END notice if it asked for it; disables that waited for it complete. -/
def State.launchEnd (s : State) (x : Nat) : State :=
  State.settle <| match (s.cx x).recIdx with
  | 0xFF => if (s.cxx x).notify then s.notice (s.cx x).owner 0x0580 (s.cx x).bytes else s
  | r => if (s.recX r).notify then s.notice (s.cx x).owner 0x0580 (s.lrec r).bytes else s

/-- The lower of two codes where the first may be absent. -/
def Err.orMin (a b : Err) : Err := if a = .ok then b else Err.min a b

/-- A period ends on this device (R364): the record, the Mules, the scheduled collectives, the log entry, the SCHED_ABORT to come.
`slot` is a slot number or 0xFFFF, `missed` the signed ns by which an edge was missed. A fault met in the same ns as the record's
abort is logged; the lowest code is recorded, and a local fault counts before a received abort (R359). -/
def State.endPeriod (s : State) (r : Nat) (code : Err) (die unit : Nat) (slot : Nat := 0xFFFF) (missed : Int := 0)
    (node : Option Nat := none) (sev : Nat := 3) : State :=
  let k := s.lrec r
  let data := leBytes 8 k.period ++ leBytes 2 slot ++ leBytes 2 0 ++ leBytes 4 (ux 32 missed) ++ leBytes 8 k.schedId
  if k.st.live then
    let s := s.modRec r fun k => { k with st := .aborted, code := code, abortPeriod := k.period, abortTime := s.now,
                                          die := die, unit := unit, node := node.getD s.node }
    let s := s.modRecX r fun x => { x with abortDue := true, remote := decide (sev = 2) }
    let s := { s with sq := { s.sq with aborts := s.sq.aborts + 1 } }
    let s := s.haltLaunch k.ctx code
    let colls := ((Tab.get {} s.sq.scheds k.ctx).colls).map (·.collId)
    let s := s.ox.binds.foldl (fun s e =>
      if e.2.sched ∧ e.2.ctx = k.ctx ∧ colls.contains e.2.collId ∧ (e.2.st = .open ∨ e.2.st = .running)
      then s.abortBinding e.1 .collAborted s.node 3 else s) s
    let s := s.raise die unit sev code data k.ctx
    (s.setCtx k.ctx .halted code die).launchEnd k.ctx
  else if k.st = .aborted ∧ k.abortTime = s.now then
    let wins := (s.recX r).remote || decide (code.code < k.code.code)
    let s := s.modRecX r fun x => { x with remote := false }
    (s.modRec r fun k => if wins then { k with code := code, die := die, unit := unit, node := s.node } else k).raise die unit sev code data
      k.ctx
  else s

/-- A collective aborts; in a scheduled launch the period ends with its code (R306). -/
def State.collAbortBy (s : State) (b : Nat) (code : Err) (origin sev : Nat) (data : List Byte := []) (contrib : Option Nat := none)
    (ledger : Nat := 0) : State :=
  let x := s.bind b
  let s := s.abortBinding b code origin sev data contrib ledger
  if x.sched then
    match s.liveRec? x.ctx with
    | some r => s.endPeriod r code 16 0x04
    | none => s
  else s

/-- A collective aborts for a local cause (R304). -/
def State.collFail (s : State) (b : Nat) (code : Err) (data : List Byte := []) (contrib : Option Nat := none) (ledger : Nat := 0) :
    State :=
  s.collAbortBy b code s.node 3 data contrib ledger

/-- A Mule halts with a fault (R76, R86): in a schedule group the period ends; otherwise every other Mule of the launch halts and
the context becomes HALTED. -/
def State.muleFault (s : State) (d p : Nat) (code : Err) (source : Nat) (unit : Nat := 0x1F) (tag lrc : Nat := 0) : State :=
  let t := s.tile d p
  if t.mule.st.active then
    let s := s.modMule d p fun m => m.halt code source unit tag lrc
    match t.mem.ctx with
    | none => s
    | some x =>
      match s.liveRec? x with
      | some r => s.endPeriod r code d (8 + p)
      | none =>
        let s := s.haltLaunch x code
        if (s.cx x).st = .running ∨ (s.cx x).st = .stopping ∨ (s.cx x).st = .armed then
          (s.setCtx x .halted code d (t.mule.logical.getD 0xFF)).launchEnd x
        else s.modCx x fun c => { c with code := Err.orMin c.code code }
  else s

/-- A long-running instruction fails during execution: its tag stays set and the Mule halts with SOURCE 2 (R85, R86). The Mule is
that of logical tile i of die d for the context. -/
def State.unitFault (s : State) (d i : Nat) (code : Err) (unit tag lrc : Nat) : State :=
  (s.muleFault d ((s.cd d).map.phys i) code 2 unit tag lrc).settle

/-- A long-running instruction completes: its tag clears (R85) and the streams it used are no longer busy (R89). -/
def State.tagDone (s : State) (d i tag : Nat) : State :=
  State.settle <| s.modTile d ((s.cd d).map.phys i) fun t =>
    { t with mule := { t.mule with tags := t.mule.tags &&& ~~~ (1#64 <<< tag) },
             mem := { t.mem with streams := Tab.remap {} (fun _ g =>
               if g.busy ∧ g.user = tag then { g with busy := false } else g) t.mem.streams } }

/-- An unscheduled launch whose tiles are all DONE ends cleanly (R86, R409). -/
def State.checkDone (s : State) (x : Nat) : State :=
  let mine := s.allTiles.filter fun t => decide (t.2.2.mem.ctx = some x)
  if (s.cx x).st = .running ∧ (s.cx x).recIdx = 0xFF ∧ mine ≠ [] ∧ mine.all (fun t => decide (t.2.2.mule.st = .done)) then
    (s.setCtx x .done).launchEnd x
  else s

end Sys2Proof.Machine
end

