-- ==== Sys2Proof/Machine/MuleOps.lean ====
section
/-! DEFINITION. The Mule's registers as words, its memory map, retirement and breaks (R74 to R77, R92, R93, R149, R96). -/

namespace Sys2Proof.Machine

/-- What a meaning answers. -/
abbrev Out := Host.Outcome State Fault Refusal

/-- Integer register i; x0 reads as zero. -/
def Mule.x (m : Mule) (i : Nat) : Word := if i = 0 then 0 else Tab.get 0 m.regs i

/-- Write integer register i; a write of x0 is discarded. -/
def Mule.setX (m : Mule) (i : Nat) (v : Word) : Mule := if i = 0 then m else { m with regs := Tab.set 0 m.regs i v }

/-- The encoding of MULE_STATUS.STATE (R77). -/
def MuleSt.code : MuleSt → Nat
  | .idle => 0 | .run => 1 | .wait => 2 | .pad => 3 | .haltFault => 4 | .haltBreak => 5 | .saved => 6 | .done => 7

/-- MULE_STATUS (R77). -/
def Mule.statusWord (m : Mule) : Nat :=
  m.st.code + b2n m.bank * 2 ^ 4 + b2n m.switchReq * 2 ^ 5 + m.stack.length * 2 ^ 6 + b2n m.urMode * 2 ^ 9 +
  b2n m.debug * 2 ^ 10 + b2n m.brkPending * 2 ^ 11 + m.logical.getD 0x3F * 2 ^ 12

/-- MULE_FAULT (R77). -/
def Mule.faultWord (m : Mule) : Nat :=
  m.faultCode.code + m.faultSource * 2 ^ 16 + m.faultUnit * 2 ^ 19 + m.faultTag * 2 ^ 24

/-- MULE_IMEM_CTL (R78). -/
def Mule.imemWord (m : Mule) : Nat := b2n m.switchReq + b2n m.loadBusy * 2 + m.switchPc * 4

/-- MULE_BRK_CTL. -/
def Mule.brkWord (m : Mule) : Nat :=
  b2n m.brkInst + b2n m.brkLrc * 2 + b2n m.brkTag * 4 + m.brkTagNo * 8 + b2n m.brkHit * 2 ^ 9

/-- MULE_SUMMARY. -/
def Mule.sumWord (m : Mule) : Nat :=
  m.sumVal.toNat + b2n m.sumValid * 2 ^ 32 + b2n m.sumNan * 2 ^ 33 + b2n m.sumInf * 2 ^ 34

/-- The Mule register at offset 8 k of its unit (R77). -/
def Mule.regAt (m : Mule) (k : Nat) : Option Nat :=
  match k with
  | 0 => some m.statusWord
  | 1 => some m.pc.toNat
  | 2 => some m.faultWord
  | 3 => some m.faultPc.toNat
  | 4 => some m.faultLrc
  | 5 => some m.lrCount
  | 6 => some m.instret
  | 7 => some m.tags.toNat
  | 8 => some m.imemWord
  | 9 => some m.brkWord
  | 10 => some m.brkInstVal
  | 11 => some m.brkLrcVal
  | 12 => some m.sumWord
  | _ => none

/-- The active instruction bank (window A) and the inactive one (window B), R78. -/
def Tile.bankA (t : Tile) : Mem := if t.mule.bank then t.mem.bank1 else t.mem.bank0
def Tile.bankB (t : Tile) : Mem := if t.mule.bank then t.mem.bank0 else t.mem.bank1

/-- Change the inactive bank. -/
def Tile.modB (t : Tile) (f : Mem → Mem) : Tile :=
  if t.mule.bank then { t with mem := { t.mem with bank0 := f t.mem.bank0 } }
  else { t with mem := { t.mem with bank1 := f t.mem.bank1 } }

/-- The windows of R74. -/
inductive Win where
  | a | b | data | store
  deriving DecidableEq, Repr

/-- The window that holds n bytes at an address, with the offset in it. -/
def winOf (a n : Nat) : Option (Win × Nat) :=
  if a + n ≤ 0x40000 then some (.a, a)
  else if 0x40000 ≤ a ∧ a + n ≤ 0x80000 then some (.b, a - 0x40000)
  else if 0x10000000 ≤ a ∧ a + n ≤ 0x10080000 then some (.data, a - 0x10000000)
  else if 0x20000000 ≤ a ∧ a + n ≤ 0x20400000 then some (.store, a - 0x20000000)
  else none

/-- The memory a window shows. -/
def winMem (t : Tile) (rs : Mem) : Win → Mem
  | .a => t.bankA
  | .b => t.bankB
  | .data => t.mem.dmem
  | .store => rs

/-- Data memory in a Mule's map (R74). -/
def dmemBase : Nat := 0x10000000

/-- One halfword of an instruction: window A or the routine store (R74). -/
def fetchHalf (t : Tile) (rs : Mem) (a : Nat) : Except Err Nat :=
  match winOf a 2 with
  | some (.a, o) => .ok (Mem.readLe t.bankA o 2)
  | some (.store, o) => .ok (Mem.readLe rs o 2)
  | some (.b, _) => .error .imemActive
  | some (.data, _) => .error .denied
  | none => .error .range

/-- Cycles counted against every open call and arm (R149, R96). -/
def Mule.spend (m : Mule) (n : Nat) : Mule :=
  { m with stack := m.stack.map fun f => { f with spent := f.spent + n },
           arm := m.arm.map fun a => { a with spent := a.spent + n } }

/-- An instruction retires: rd takes v, the PC moves, the retired count rises. -/
def Mule.retire (m : Mule) (rd : Nat) (v : Word) (pc : Word) (cycles : Nat) : Mule :=
  let m := (m.spend cycles).setX rd v
  { m with pc := pc, instret := m.instret + 1, brkSkip := false }

/-- Retire an instruction of the Mule at (d, p), counting its control cycles. -/
def State.retire (s : State) (d p rd : Nat) (v pc : Word) (cycles : Nat) : State :=
  s.modTile d p fun t =>
    { t with mule := t.mule.retire rd v pc cycles, mem := { t.mem with cycles := t.mem.cycles + cycles } }

/-- Whether a break falls due before the Mule's next instruction (R92, R93): `tag` of a long-running instruction. -/
def Mule.breakDue (m : Mule) (tag : Option Nat) : Bool :=
  m.debug && !m.brkSkip &&
  (m.brkPending || (m.brkInst && m.instret == m.brkInstVal) ||
   (m.brkLrc && tag.isSome && m.lrCount + 1 == m.brkLrcVal) || (m.brkTag && tag == some m.brkTagNo))

/-- Take a break (R92): only this Mule stops, before the instruction. -/
def Mule.break_ (m : Mule) : Mule := { m with st := .haltBreak, brkHit := true, brkPending := false }

/-- A Mule at (d, p) starts an instruction: nothing unless it is in RUN; a break due is taken; otherwise it executes. -/
def State.muleStep (s : State) (d p : Nat) (tag : Option Nat) (run : Tile → State) : Out :=
  let t := s.tile d p
  if t.mule.st ≠ .run then .next s
  else if t.mule.breakDue tag then .next (s.modMule d p Mule.break_)
  else .next (run t)

/-- The logical tile a physical tile's Mule carries. -/
def Tile.li (t : Tile) : Nat := t.mule.logical.getD 0

/-- The context a tile runs for. -/
def Tile.cx (t : Tile) : Nat := t.mem.ctx.getD 0xFFFF

/-- A branch or call into the routine store costs 4 cycles more (R75). -/
def storeCost (target : Word) : Nat := if 0x20000000 ≤ target.toNat ∧ target.toNat < 0x20400000 then 4 else 0

end Sys2Proof.Machine
end

