-- ==== Sys2Proof/Machine/Mule.lean ====
section
/-! DEFINITION. MULE_INSTRUCTION: one ordinary RV64IMC instruction of a Mule (R73 to R79). Encodings and results of RV64I, M, C and of
the CSR instructions are those of the RISC-V specification, which R73 names (PRESUMED, log entry 12). -/

namespace Sys2Proof.Machine

/-- What an ordinary instruction does, from its word and the registers. `other` marks the words that are rows of their own. -/
inductive Eff where
  | write (rd : Nat) (v : Word) (cycles : Nat)
  | jump (rd : Nat) (target : Word)
  | branch (taken : Bool) (target : Word)
  | load (rd n : Nat) (signed : Bool) (a : Word)
  | store (n : Nat) (a v : Word)
  | csr (rd no : Nat) (writes : Bool) (plain : Bool)
  | illegal
  | other
  deriving DecidableEq, Repr

/-- Sign extension of the low w bits. -/
def sext (w x : Nat) : Word := BitVec.ofInt 64 (sx w x)

/-- The low 32 bits, sign extended (the W forms). -/
def wres (x : Word) : Word := (x.setWidth 32).signExtend 64

/-- Signed and unsigned division with the RISC-V results for a zero divisor and for overflow. -/
def rvDiv (w : Nat) (a b : BitVec w) : BitVec w := if b = 0 then BitVec.allOnes w else a.sdiv b
def rvDivu (w : Nat) (a b : BitVec w) : BitVec w := if b = 0 then BitVec.allOnes w else a.udiv b
def rvRem (w : Nat) (a b : BitVec w) : BitVec w := if b = 0 then a else a.srem b
def rvRemu (w : Nat) (a b : BitVec w) : BitVec w := if b = 0 then a else a.umod b

/-- The high half of a product of two integers. -/
def mulHigh (a b : Int) : Word := BitVec.ofInt 64 (a * b / 2 ^ 64)

/-- Register-register operations of 64 bits. -/
def rvOp (f7 f3 : Nat) (a b : Word) : Option (Word × Nat) :=
  let sh := b.toNat % 64
  match f7, f3 with
  | 0, 0 => some (a + b, 1)
  | 32, 0 => some (a - b, 1)
  | 0, 1 => some (a <<< sh, 1)
  | 0, 2 => some (if a.slt b then 1 else 0, 1)
  | 0, 3 => some (if a.ult b then 1 else 0, 1)
  | 0, 4 => some (a ^^^ b, 1)
  | 0, 5 => some (a >>> sh, 1)
  | 32, 5 => some (a.sshiftRight sh, 1)
  | 0, 6 => some (a ||| b, 1)
  | 0, 7 => some (a &&& b, 1)
  | 1, 0 => some (a * b, 3)
  | 1, 1 => some (mulHigh a.toInt b.toInt, 3)
  | 1, 2 => some (mulHigh a.toInt b.toNat, 3)
  | 1, 3 => some (mulHigh a.toNat b.toNat, 3)
  | 1, 4 => some (rvDiv 64 a b, 34)
  | 1, 5 => some (rvDivu 64 a b, 34)
  | 1, 6 => some (rvRem 64 a b, 34)
  | 1, 7 => some (rvRemu 64 a b, 34)
  | _, _ => none

/-- Register-register operations of 32 bits. -/
def rvOpW (f7 f3 : Nat) (a b : Word) : Option (Word × Nat) :=
  let x := a.setWidth 32
  let y := b.setWidth 32
  let sh := b.toNat % 32
  let r (v : W32) (c : Nat) : Option (Word × Nat) := some (v.signExtend 64, c)
  match f7, f3 with
  | 0, 0 => r (x + y) 1
  | 32, 0 => r (x - y) 1
  | 0, 1 => r (x <<< sh) 1
  | 0, 5 => r (x >>> sh) 1
  | 32, 5 => r (x.sshiftRight sh) 1
  | 1, 0 => r (x * y) 3
  | 1, 4 => r (rvDiv 32 x y) 34
  | 1, 5 => r (rvDivu 32 x y) 34
  | 1, 6 => r (rvRem 32 x y) 34
  | 1, 7 => r (rvRemu 32 x y) 34
  | _, _ => none

/-- Register-immediate operations; `w` holds the whole word. -/
def rvOpI (w f3 : Nat) (a : Word) : Option Word :=
  let imm := sext 12 (bits w 31 20)
  let sh := bits w 25 20
  match f3 with
  | 0 => some (a + imm)
  | 1 => if bits w 31 26 = 0 then some (a <<< sh) else none
  | 2 => some (if a.slt imm then 1 else 0)
  | 3 => some (if a.ult imm then 1 else 0)
  | 4 => some (a ^^^ imm)
  | 5 => if bits w 31 26 = 0 then some (a >>> sh) else if bits w 31 26 = 16 then some (a.sshiftRight sh) else none
  | 6 => some (a ||| imm)
  | _ => some (a &&& imm)

def rvOpIW (w f3 : Nat) (a : Word) : Option Word :=
  let x := a.setWidth 32
  let sh := bits w 24 20
  match f3 with
  | 0 => some (wres (a + sext 12 (bits w 31 20)))
  | 1 => if bits w 31 25 = 0 then some ((x <<< sh).signExtend 64) else none
  | 5 => if bits w 31 25 = 0 then some ((x >>> sh).signExtend 64)
         else if bits w 31 25 = 32 then some ((x.sshiftRight sh).signExtend 64) else none
  | _ => none

/-- Branch conditions. -/
def rvBranch (f3 : Nat) (a b : Word) : Option Bool :=
  match f3 with
  | 0 => some (a == b)
  | 1 => some (a != b)
  | 4 => some (a.slt b)
  | 5 => some (!a.slt b)
  | 6 => some (a.ult b)
  | 7 => some (!a.ult b)
  | _ => none

/-- Branch and jump immediates. -/
def immB (w : Nat) : Word :=
  sext 13 (bits w 31 31 * 2 ^ 12 + bits w 7 7 * 2 ^ 11 + bits w 30 25 * 2 ^ 5 + bits w 11 8 * 2)
def immJ (w : Nat) : Word :=
  sext 21 (bits w 31 31 * 2 ^ 20 + bits w 19 12 * 2 ^ 12 + bits w 20 20 * 2 ^ 11 + bits w 30 21 * 2)

/-- Whether funct7 and funct3 name a row of R83 (R534). -/
def lrRow (f7 f3 : Nat) : Bool :=
  (f3 == 0 && [0x08, 0x10, 0x11, 0x12, 0x18, 0x20, 0x28, 0x30, 0x38].contains f7) ||
  (f7 == 0x20 && f3 == 1) || (f7 == 0x38 && (f3 == 1 || f3 == 2))

/-- What a 32-bit word does (R73, R81, R534). -/
def muleEff (x : Nat → Word) (pc : Word) (w : Nat) : Eff :=
  let rd := bits w 11 7
  let f3 := bits w 14 12
  let f7 := bits w 31 25
  let a := x (bits w 19 15)
  let b := x (bits w 24 20)
  match bits w 6 0 with
  | 0x37 => .write rd (sext 32 (bits w 31 12 * 2 ^ 12)) 1
  | 0x17 => .write rd (pc + sext 32 (bits w 31 12 * 2 ^ 12)) 1
  | 0x6F => .jump rd (pc + immJ w)
  | 0x67 => if f3 = 0 then .jump rd ((a + sext 12 (bits w 31 20)) &&& ~~~1#64) else .illegal
  | 0x63 => match rvBranch f3 a b with
    | some t => .branch t (pc + immB w)
    | none => .illegal
  | 0x03 =>
    if f3 = 7 then .illegal
    else .load rd (2 ^ (f3 % 4)) (decide (f3 < 4)) (a + sext 12 (bits w 31 20))
  | 0x23 => if f3 < 4 then .store (2 ^ f3) (a + sext 12 (f7 * 32 + rd)) b else .illegal
  | 0x13 => match rvOpI w f3 a with
    | some v => .write rd v 1
    | none => .illegal
  | 0x1B => match rvOpIW w f3 a with
    | some v => .write rd v 1
    | none => .illegal
  | 0x33 => match rvOp f7 f3 a b with
    | some (v, c) => .write rd v c
    | none => .illegal
  | 0x3B => match rvOpW f7 f3 a b with
    | some (v, c) => .write rd v c
    | none => .illegal
  | 0x0F => if f3 < 2 then .write 0 0 1 else .illegal
  | 0x73 =>
    if f3 = 0 then (if w = 0x00100073 then .other else .illegal)
    else if f3 = 4 then .illegal
    else .csr rd (bits w 31 20) (f3 % 4 = 1 || bits w 19 15 ≠ 0) (f3 % 4 = 1)
  | 0x0B => if lrRow f7 f3 then .other else .illegal
  | 0x2B => if f3 < 2 then .other else .illegal
  | 0x5B => if f3 = 6 then .illegal else .other
  | _ => .illegal

/-- Encoding of an I, S, B, R, U or J word from its fields, for the compressed forms. -/
def encI (op f3 rd rs1 imm : Nat) : Nat := op + rd * 2 ^ 7 + f3 * 2 ^ 12 + rs1 * 2 ^ 15 + imm % 2 ^ 12 * 2 ^ 20
def encS (f3 rs1 rs2 imm : Nat) : Nat :=
  0x23 + bits imm 4 0 * 2 ^ 7 + f3 * 2 ^ 12 + rs1 * 2 ^ 15 + rs2 * 2 ^ 20 + bits imm 11 5 * 2 ^ 25
def encR (op f3 f7 rd rs1 rs2 : Nat) : Nat := op + rd * 2 ^ 7 + f3 * 2 ^ 12 + rs1 * 2 ^ 15 + rs2 * 2 ^ 20 + f7 * 2 ^ 25
def encB (f3 rs1 imm : Nat) : Nat :=
  0x63 + bits imm 11 11 * 2 ^ 7 + bits imm 4 1 * 2 ^ 8 + f3 * 2 ^ 12 + rs1 * 2 ^ 15 + bits imm 10 5 * 2 ^ 25 + bits imm 12 12 * 2 ^ 31
def encJ (imm : Nat) : Nat :=
  0x6F + bits imm 19 12 * 2 ^ 12 + bits imm 11 11 * 2 ^ 20 + bits imm 10 1 * 2 ^ 21 + bits imm 20 20 * 2 ^ 31

/-- A w-bit immediate sign extended to n bits. -/
def sextN (w n x : Nat) : Nat := ux n (sx w x)

/-- Quadrant 0 of the compressed forms. -/
def expandC0 (h : Nat) : Option Nat :=
  let r := 8 + bits h 4 2
  let b := 8 + bits h 9 7
  let u4 := bits h 12 10 * 8 + bits h 6 6 * 4 + bits h 5 5 * 64
  let u8 := bits h 12 10 * 8 + bits h 6 5 * 64
  match bits h 15 13 with
  | 0 =>
    let u := bits h 12 11 * 16 + bits h 10 7 * 64 + bits h 6 6 * 4 + bits h 5 5 * 8
    if u = 0 then none else some (encI 0x13 0 r 2 u)
  | 2 => some (encI 0x03 2 r b u4)
  | 3 => some (encI 0x03 3 r b u8)
  | 6 => some (encS 2 b r u4)
  | 7 => some (encS 3 b r u8)
  | _ => none

/-- Quadrant 1. -/
def expandC1 (h : Nat) : Option Nat :=
  let rd := bits h 11 7
  let i6 := bits h 12 12 * 32 + bits h 6 2
  let imm := sextN 6 12 i6
  let r := 8 + bits h 9 7
  match bits h 15 13 with
  | 0 => some (encI 0x13 0 rd rd imm)
  | 1 => if rd = 0 then none else some (encI 0x1B 0 rd rd imm)
  | 2 => some (encI 0x13 0 rd 0 imm)
  | 3 =>
    if i6 = 0 then none
    else if rd = 2 then
      some (encI 0x13 0 2 2 (sextN 10 12 (bits h 12 12 * 512 + bits h 6 6 * 16 + bits h 5 5 * 64 + bits h 4 3 * 128 + bits h 2 2 * 32)))
    else some (0x37 + rd * 2 ^ 7 + sextN 6 20 i6 * 2 ^ 12)
  | 4 =>
    match bits h 11 10 with
    | 0 => some (encI 0x13 5 r r i6)
    | 1 => some (encI 0x13 5 r r (i6 + 0x400))
    | 2 => some (encI 0x13 7 r r imm)
    | _ =>
      let q := 8 + bits h 4 2
      match bits h 12 12 * 4 + bits h 6 5 with
      | 0 => some (encR 0x33 0 32 r r q)
      | 1 => some (encR 0x33 4 0 r r q)
      | 2 => some (encR 0x33 6 0 r r q)
      | 3 => some (encR 0x33 7 0 r r q)
      | 4 => some (encR 0x3B 0 32 r r q)
      | 5 => some (encR 0x3B 0 0 r r q)
      | _ => none
  | 5 =>
    some (encJ (sextN 12 21 (bits h 12 12 * 2048 + bits h 11 11 * 16 + bits h 10 9 * 256 + bits h 8 8 * 1024 +
      bits h 7 7 * 64 + bits h 6 6 * 128 + bits h 5 3 * 2 + bits h 2 2 * 32)))
  | f =>
    some (encB (f - 6) r (sextN 9 13 (bits h 12 12 * 256 + bits h 11 10 * 8 + bits h 6 5 * 64 + bits h 4 3 * 2 + bits h 2 2 * 32)))

/-- Quadrant 2. -/
def expandC2 (h : Nat) : Option Nat :=
  let rd := bits h 11 7
  let r2 := bits h 6 2
  let hi := bits h 12 12
  match bits h 15 13 with
  | 0 => some (encI 0x13 1 rd rd (hi * 32 + r2))
  | 2 => if rd = 0 then none else some (encI 0x03 2 rd 2 (hi * 32 + bits h 6 4 * 4 + bits h 3 2 * 64))
  | 3 => if rd = 0 then none else some (encI 0x03 3 rd 2 (hi * 32 + bits h 6 5 * 8 + bits h 4 2 * 64))
  | 4 =>
    if hi = 0 then
      if r2 = 0 then (if rd = 0 then none else some (encI 0x67 0 0 rd 0)) else some (encR 0x33 0 0 rd 0 r2)
    else if r2 = 0 then (if rd = 0 then some 0x00100073 else some (encI 0x67 0 1 rd 0))
    else some (encR 0x33 0 0 rd rd r2)
  | 6 => some (encS 2 2 r2 (bits h 12 9 * 4 + bits h 8 7 * 64))
  | 7 => some (encS 3 2 r2 (bits h 12 10 * 8 + bits h 9 7 * 64))
  | _ => none

/-- The 32-bit form of a compressed instruction; none for the forms outside RV64C without F and D. -/
def expandC (h : Nat) : Option Nat :=
  match h % 4 with
  | 0 => expandC0 h
  | 1 => expandC1 h
  | _ => expandC2 h

/-- Fetch at the PC: the 32-bit word and the instruction's length, a compressed form that does not exist as word 0 (illegal). -/
def fetch (t : Tile) (rs : Mem) : Except Err (Nat × Nat) :=
  let pc := t.mule.pc.toNat
  match fetchHalf t rs pc with
  | .error e => .error e
  | .ok h =>
    if h % 4 = 3 then
      match fetchHalf t rs (pc + 2) with
      | .error e => .error e
      | .ok g => .ok (h + g * 2 ^ 16, 4)
    else .ok ((expandC h).getD 0, 2)

/-- The period PSYNC reads for a tile of a scheduled context (R352), if it may be read. -/
def State.psync (s : State) (t : Tile) : Option Nat :=
  if (s.cx t.cx).scheduled then (s.liveRec? t.cx).map fun r => (s.lrec r).period % 2 ^ 16 else none

/-- A load of n bytes (R74, R76): misalignment comes before every other fault. -/
def muleLoad (t : Tile) (rs : Mem) (n : Nat) (signed : Bool) (a : Nat) : Except Err Word :=
  if a % n ≠ 0 then .error .align
  else match winOf a n with
    | none => .error .range
    | some (w, o) =>
      let v := Mem.readLe (winMem t rs w) o n
      .ok (if signed then sext (8 * n) v else BitVec.ofNat 64 v)

/-- A store of n bytes (R74, R76). -/
def muleStore (t : Tile) (n a v : Nat) : Except Err Tile :=
  if a % n ≠ 0 then .error .align
  else match winOf a n with
    | none => .error .range
    | some (.a, _) => .error .imemActive
    | some (.store, _) => .error .denied
    | some (.b, o) => .ok (t.modB fun m => Mem.writeLe m o n v)
    | some (.data, o) => .ok { t with mem := { t.mem with dmem := Mem.writeLe t.mem.dmem o n v } }

/-- Carry out what an instruction of `len` bytes does. -/
def State.muleDo (s : State) (d p : Nat) (t : Tile) (len : Nat) (e : Eff) : State :=
  let pc := t.mule.pc
  let nextPc := pc + BitVec.ofNat 64 len
  let fault (c : Err) : State := s.muleFault d p c 0
  match e with
  | .write rd v c => s.retire d p rd v nextPc c
  | .jump rd target => s.retire d p rd nextPc target (2 + storeCost target)
  | .branch false _ => s.retire d p 0 0 nextPc 1
  | .branch true target => s.retire d p 0 0 target (2 + storeCost target)
  | .load rd n signed a =>
    match muleLoad t (s.cd d).rs.mem n signed a.toNat with
    | .error c => fault c
    | .ok v => s.retire d p rd v nextPc 2
  | .store n a v =>
    match muleStore t n a.toNat v.toNat with
    | .error c => fault c
    | .ok t' => (s.modTile d p fun _ => t').retire d p 0 0 nextPc 1
  | .csr rd no writes plain =>
    if no = 0x7E0 then
      match s.psync t with
      | some v => if plain then s else if writes then fault .badcmd else s.retire d p rd (BitVec.ofNat 64 v) nextPc 1
      | none => fault .badcmd
    else if writes ∨ no < 0x7C0 then fault .badcmd
    else match t.mule.regAt (no - 0x7C0) with
      | some v => s.retire d p rd (BitVec.ofNat 64 v) nextPc 1
      | none => fault .badcmd
  | .illegal => fault .badcmd
  | .other => s

/-- MULE_INSTRUCTION (R73 to R77, R534): fetch at the PC, execute, retire; a fault halts the Mule precisely. A word that is a row of
its own (a long-running instruction, a call, a compatibility branch, EBREAK, a PSYNC write) is left to that row. -/
def execMuleInstruction (d : CdId) (p : PTile) (s : State) : Out :=
  match fetch (s.tile d p) (s.cd d).rs.mem with
  | .error c => s.muleStep d p none fun _ => s.muleFault d p c 0
  | .ok (w, len) =>
    match muleEff (s.tile d p).mule.x (s.tile d p).mule.pc w with
    | .other => .next s
    | .csr rd no writes plain =>
      if no = 0x7E0 ∧ plain = true ∧ (s.psync (s.tile d p)).isSome then .next s
      else s.muleStep d p none fun t => s.muleDo d p t len (.csr rd no writes plain)
    | e => s.muleStep d p none fun t => s.muleDo d p t len e

/-- EBREAK (R92): a debug break in a debug context, otherwise E_BADCMD. -/
def execEbreak (d : CdId) (p : PTile) (s : State) : Out :=
  s.muleStep d p none fun t =>
    if t.mule.debug then s.modMule d p Mule.break_ else s.muleFault d p .badcmd 0

/-- Control cycles a WAIT took: at least 2 (R533), 1.25 to the ns. -/
def State.waited (s : State) (t : Tile) : Nat := max 2 (cdiv ((s.aonNs - t.mem.waitFrom) * 5) 4)

/-- A Mule in WAIT whose awaited tags are complete continues, or enters DONE after END (R86, R533). -/
def execMuleWaitRelease (d : CdId) (p : PTile) (s : State) : Out :=
  let t := s.tile d p
  if t.mule.st ≠ .wait then .next s
  else match t.mem.wait with
    | .tags mask =>
      if t.mule.tags &&& mask = 0 then
        .next ((s.modMem d p fun m => { m with wait := .none }).modMule d p fun m =>
          { (m.retire 0 0 (m.pc + 4) (s.waited t)) with st := .run })
      else .next s
    | .ending =>
      if t.mule.tags = 0 then
        let s := (s.modMem d p fun m => { m with wait := .none }).modMule d p fun m =>
          { (m.retire 0 0 (m.pc + 4) (s.waited t)) with st := .done }
        .next (s.checkDone t.cx)
      else .next s
    | _ => .next s

/-- LR.WAIT (R83, R86, R533): the mask of tags is in rs1; it holds the Mule in WAIT at its own PC until they are complete. -/
def execLrWait (d : CdId) (p : PTile) (rs1 : Fin 32) (s : State) : Out :=
  s.muleStep d p none fun t =>
    let mask := t.mule.x rs1
    if t.mule.tags &&& mask = 0 then s.retire d p 0 0 (t.mule.pc + 4) 2
    else s.modTile d p fun t =>
      { t with mule := { t.mule with st := .wait }, mem := { t.mem with wait := .tags mask, waitFrom := s.aonNs } }

/-- LR.TEST (R83): rd takes the mask of complete tags among those of rs1. -/
def execLrTest (d : CdId) (p : PTile) (rd rs1 : Fin 32) (s : State) : Out :=
  s.muleStep d p none fun t =>
    if t.mule.arm.isSome then s.muleFault d p .denied 0 7
    else s.retire d p rd (t.mule.x rs1 &&& ~~~t.mule.tags) (t.mule.pc + 4) 2

/-- END (R86): WAIT until every outstanding tag is complete, then DONE. -/
def execEndOp (d : CdId) (p : PTile) (s : State) : Out :=
  s.muleStep d p none fun t =>
    if t.mule.arm.isSome then s.muleFault d p .denied 0 7
    else if t.mule.tags = 0 then
      let s := (s.retire d p 0 0 (t.mule.pc + 4) 2).modMule d p fun m => { m with st := .done }
      s.checkDone t.cx
    else s.modTile d p fun t => { t with mule := { t.mule with st := .wait }, mem := { t.mem with wait := .ending, waitFrom := s.aonNs } }

end Sys2Proof.Machine
end

