-- ==== Sys2Proof/Machine/Issue.lean ====
section
/-! DEFINITION. Issue of a long-running instruction: the checks of R87 in their orders, the count and tag it receives, address streams
(R81 to R90, R97). -/

namespace Sys2Proof.Machine

/-- An instruction at issue: die, physical and logical tile, funct7, funct3, descriptor, tag, the count it would receive. -/
structure Issue where
  d : Nat
  p : Nat
  i : Nat
  f7 : Nat
  f3 : Nat := 0
  desc : List Byte
  tag : Nat
  lrc : Nat
  ctx : Nat
  inRoutine : Bool
  deriving DecidableEq, Repr

/-- The funct7[6:3] unit number (R77). -/
def Issue.unit (k : Issue) : Nat := k.f7 / 8

/-- A unit's own refusals by the order of R87; `late` is the end of order 3 (E_WIDTH before E_DENIED) and `early` the end of order 4. -/
structure UnitChecks where
  align : List (Bool × Err) := []
  arg : List (Bool × Err) := []
  range : List (Bool × Err) := []
  late : List (Bool × Err) := []
  seq : List (Bool × Err) := []
  early : List (Bool × Err) := []
  quota : List (Bool × Err) := []
  plane : List (Bool × Err) := []
  unit : List (Bool × Err) := []
  deriving Repr

/-- The STREAMS byte's sources and destinations in use (R82). -/
def streamsUsed (b : Nat) : List Nat := (if bit b 4 then [bits b 1 0] else []) ++ (if bit b 5 then [bits b 3 2] else [])

/-- The checks of R87 in order. `a` is the descriptor's address in the Mule's map, `rs2` the register that holds the tag. Nothing
is read of a descriptor outside data memory (log entry 76). -/
def issueChecks (t : Tile) (k : Issue) (a : Nat) (rs2 : Word) (u : UnitChecks) : List (Bool × Err) :=
  let st := fld k.desc 2 1
  let out := decide (a < dmemBase ∨ dmemBase + 0x80000 < a + 64)
  [(decide (a % 64 ≠ 0), .align), (out && decide (64 ≤ rs2.toNat), .badarg), (out, .range)] ++ u.align ++
  [(decide (fld k.desc 0 1 ≠ k.f7), .badarg), (decide (fld k.desc 1 1 ≠ 1), .badarg),
   (!zeroAt k.desc 3 1 || !zeroAt k.desc 6 2 || decide (64 ≤ st) || decide (56 < fld k.desc 4 2), .badarg),
   (decide (rs2.toNat ≥ 64), .badarg)] ++ u.arg ++ u.range ++
  [(if k.inRoutine then decide (k.tag < 48) else decide (48 ≤ k.tag), .range),
   ((streamsUsed st).any fun g => !(Tab.get {} t.mem.streams g).bound, .range)] ++ u.late ++
  [(t.mule.tags.getLsbD k.tag, .seq)] ++ u.seq ++ u.early ++ u.quota ++ u.plane ++
  [((streamsUsed st).any fun g => (Tab.get {} t.mem.streams g).busy, .unitBusy)] ++ u.unit

/-- Mark the streams an instruction uses busy until it completes (R89). -/
def takeStreams (m : MuleMem) (k : Issue) : MuleMem :=
  (streamsUsed (fld k.desc 2 1)).foldl (fun m g =>
    { m with streams := Tab.modify {} m.streams g fun x => { x with busy := true, user := k.tag } }) m

/-- Issue succeeds (R81, R83): the count, the tag (unless the instruction completes at issue), rd, 4 control cycles. -/
def State.issued (s : State) (k : Issue) (rd : Nat) (held : Bool) : State :=
  (s.modTile k.d k.p fun t =>
    { t with mule := { t.mule with lrCount := k.lrc,
                                   tags := if held then t.mule.tags ||| (1#64 <<< k.tag) else t.mule.tags },
             mem := takeStreams t.mem k }).retire k.d k.p rd (BitVec.ofNat 64 k.lrc) ((s.tile k.d k.p).mule.pc + 4) 4

/-- The instruction an issue names. -/
def State.issueOf (s : State) (d p f7 f3 : Nat) (rs1 rs2 : Fin 32) : Issue :=
  let t := s.tile d p
  { d := d, p := p, i := t.li, f7 := f7, f3 := f3, desc := Mem.readN t.mem.dmem ((t.mule.x rs1).toNat - dmemBase) 64,
    tag := (t.mule.x rs2).toNat % 64, lrc := t.mule.lrCount + 1, ctx := t.cx, inRoutine := decide (t.mule.stack ≠ []) }

/-- A long-running instruction at issue: break, arm permission (R97), the checks of R87; then it starts. A failing instruction has
no effect and receives no count; the Mule halts with SOURCE 1. -/
def State.issue (s : State) (d p f7 f3 : Nat) (rd rs1 rs2 : Fin 32) (armOk held : Bool)
    (checks : State → Issue → UnitChecks) (start : State → Issue → State) : Out :=
  let k := s.issueOf d p f7 f3 rs1 rs2
  s.muleStep d p (some k.tag) fun t =>
    if t.mule.arm.isSome && !armOk then s.muleFault d p .denied 0 k.unit k.tag
    else match firstErr (issueChecks t k (t.mule.x rs1).toNat (t.mule.x rs2) (checks s k)) with
      | some e => s.muleFault d p e 1 k.unit k.tag
      | none => start (s.issued k rd held) k

/-- The address at a position of a stream (R89, R90). -/
def streamAt (g : StreamDesc) (desc : List Byte) (dmem : Mem) (pos : Nat) : Nat :=
  if g.indexed then
    if pos < g.entries then (g.base + Mem.readLe dmem (g.list + 4 * pos) 4 * g.size) % 2 ^ 64
    else (Config.streamBeyond desc pos).toNat
  else
    if pos < (g.dims.map (·.1)).foldl (· * ·) 1 then
      let r := g.dims.foldl (fun (a : Nat × Int) e => (a.1 / max e.1 1, a.2 + ((a.1 % max e.1 1 : Nat) : Int) * e.2)) (pos, (g.base : Int))
      ux 64 r.2
    else (Config.streamBeyond desc pos).toNat

/-- The address generator g of a tile supplies at a position. -/
def Tile.streamAddr (t : Tile) (g pos : Nat) : Nat :=
  let x := Tab.get {} t.mem.streams g
  streamAt (Config.streamDesc (x.desc.drop 8)) (x.desc.drop 8) t.mem.dmem pos

/-- The refusals of AS.STREAM in the orders of R87 (R89). -/
def streamChecks (s : State) (k : Issue) : UnitChecks :=
  let g := Config.streamDesc (k.desc.drop 8)
  { arg := [(decide (4 < g.dims.length) || decide (65536 < g.entries), .badarg)],
    range := [(g.indexed && decide (0x80000 < g.list + 4 * g.entries), .range)],
    unit := [((Tab.get {} (s.tile k.d k.p).mem.streams g.gen).busy, .unitBusy)] }

/-- AS.STREAM binds a descriptor to a generator (R89); it completes at once. Its body layout is Config.streamDesc (log entry 13). -/
def execAsStream (d : CdId) (p : PTile) (rd rs1 rs2 : Fin 32) (s : State) : Out :=
  s.issue d p 0x28 0 rd rs1 rs2 false false streamChecks
    (fun s k =>
      let g := Config.streamDesc (k.desc.drop 8)
      s.modMem k.d k.p fun m =>
        { m with streams := Tab.set {} m.streams g.gen { bound := true, desc := k.desc } })

end Sys2Proof.Machine
end

