-- ==== Sys2Proof/Machine/Num.lean ====
section
/-! DEFINITION. Number formats and arithmetic (R37 to R67, R131, R132): encodings, rounding, special values, block scales, the long
accumulator. A flag set is a value in the layout of R51. -/

namespace Sys2Proof

/-- The floating-point formats of R37. -/
inductive FF where
  | fp32 | fp16 | bf16 | e5m2 | e4m3 | e2m1
  deriving DecidableEq, Repr, Inhabited

/-- Exponent bits. -/
def FF.eb : FF → Nat
  | .fp32 => 8 | .fp16 => 5 | .bf16 => 8 | .e5m2 => 5 | .e4m3 => 4 | .e2m1 => 2

/-- Mantissa bits. -/
def FF.mb : FF → Nat
  | .fp32 => 23 | .fp16 => 10 | .bf16 => 7 | .e5m2 => 2 | .e4m3 => 3 | .e2m1 => 1

/-- Exponent bias. -/
def FF.bias : FF → Nat
  | .fp32 => 127 | .fp16 => 15 | .bf16 => 127 | .e5m2 => 15 | .e4m3 => 7 | .e2m1 => 1

/-- Pattern of the largest finite value. -/
def FF.maxFin : FF → Nat
  | .fp32 => 0x7F7FFFFF | .fp16 => 0x7BFF | .bf16 => 0x7F7F | .e5m2 => 0x7B | .e4m3 => 0x7E | .e2m1 => 0x7

/-- The canonical NaN (R40); E2M1 has none. -/
def FF.nan : FF → Nat
  | .fp32 => 0x7FC00000 | .fp16 => 0x7E00 | .bf16 => 0x7FC0 | .e5m2 => 0x7E | .e4m3 => 0x7F | .e2m1 => 0

/-- The sign bit's weight. -/
def FF.sign (f : FF) : Nat := 2 ^ (f.eb + f.mb)

/-- A pattern's value: NaN, an infinity, or (-1)^neg * m * 2^e. -/
inductive Val where
  | nan
  | inf (neg : Bool)
  | fin (neg : Bool) (m : Nat) (e : Int)
  deriving DecidableEq, Repr, Inhabited

/-- The value of a pattern (R37). Subnormals count at full value. -/
def FF.val (f : FF) (x : Nat) : Val :=
  let neg := decide (f.sign ≤ x % (2 * f.sign))
  let ex := (x >>> f.mb) % 2 ^ f.eb
  let m := x % 2 ^ f.mb
  let top := 2 ^ f.eb - 1
  match f with
  | .e4m3 => if ex = top ∧ m = 7 then .nan else .fin neg (if ex = 0 then m else m + 8) (if ex = 0 then -9 else (ex : Int) - 10)
  | .e2m1 => .fin neg (if ex = 0 then m else m + 2) (if ex = 0 then -1 else (ex : Int) - 2)
  | _ =>
    if ex = top then (if m = 0 then .inf neg else .nan)
    else .fin neg (if ex = 0 then m else m + 2 ^ f.mb) ((max ex 1 : Nat) - (f.bias : Int) - f.mb)

/-- Flags of R51. -/
def flInvalid : Nat := 1
def flOverflow : Nat := 2
def flUnderflow : Nat := 4
def flIntOvf : Nat := 8
def flMxSpecial : Nat := 16

/-- An infinite result (R45): `input` when it comes from an infinite input or intermediate. -/
def FF.infinite (f : FF) (ieee neg input : Bool) : Nat × Nat :=
  let sg := if neg then f.sign else 0
  match f with
  | .e4m3 => (if ieee then 0x7F else sg + 0x7E, flOverflow)
  | .e2m1 => (sg + 0x7, flOverflow)
  | _ => if ieee then (sg + (2 ^ f.eb - 1) * 2 ^ f.mb, if input then 0 else flOverflow) else (sg + f.maxFin, flOverflow)

/-- The rounded magnitude of m * 2^e, with `sticky` when a nonzero remainder below m is left out, before overflow is resolved:
pattern and inexactness (R43). -/
def FF.roundMag (f : FF) (m : Nat) (e : Int) (sticky : Bool) : Nat × Bool :=
  if m = 0 then (0, sticky)
  else
    let emin : Int := 1 - (f.bias : Int) - f.mb
    let q : Int := max ((m.log2 : Int) + e - f.mb) emin
    if (m.log2 : Int) + e + 2 < emin then (0, true)
    else
      let r := if q ≤ e then m <<< (e - q).toNat else m >>> (q - e).toNat
      let rem := if q ≤ e then 0 else m % 2 ^ (q - e).toNat
      let half := if q ≤ e then 1 else 2 ^ ((q - e).toNat - 1)
      let up := decide (half < rem) || (decide (rem = half) && (sticky || decide (r % 2 = 1)))
      ((q - emin).toNat * 2 ^ f.mb + r + b2n up, decide (rem ≠ 0) || sticky)

/-- Round to nearest even into a format (R43, R45, R47): pattern and flags. -/
def FF.round (f : FF) (ieee neg : Bool) (m : Nat) (e : Int) (sticky : Bool) : Nat × Nat :=
  let r := f.roundMag m e sticky
  if f.maxFin < r.1 then f.infinite ieee neg false
  else ((if neg then f.sign else 0) + r.1, if r.2 && decide (r.1 < 2 ^ f.mb) then flUnderflow else 0)

/-- A signed integer times a power of two, rounded; `zneg` gives the sign of an exact zero. -/
def FF.roundInt (f : FF) (ieee : Bool) (a : Int) (e : Int) (zneg : Bool) : Nat × Nat :=
  if a = 0 then (if zneg then f.sign else 0, 0) else f.round ieee (decide (a < 0)) a.natAbs e false

/-- Conversion between floating-point formats (R45, R64). -/
def FF.convert (f g : FF) (ieee : Bool) (x : Nat) : Nat × Nat :=
  match f.val x with
  | .nan => (g.nan, 0)
  | .inf neg => g.infinite ieee neg true
  | .fin neg m e => g.round ieee neg m e false

/-- A finite value as an integer at exponent `base`, which is at most its own exponent. -/
def scaled (neg : Bool) (m : Nat) (e base : Int) : Int :=
  let v : Int := (m * 2 ^ (e - base).toNat : Nat)
  if neg then -v else v

/-- FP32 addition (R48, R50). -/
def fadd (ieee : Bool) (a b : Nat) : Nat × Nat :=
  match FF.fp32.val a, FF.fp32.val b with
  | .nan, _ => (FF.fp32.nan, 0)
  | _, .nan => (FF.fp32.nan, 0)
  | .inf p, .inf q => if p = q then FF.fp32.infinite ieee p true else (FF.fp32.nan, flInvalid)
  | .inf p, _ => FF.fp32.infinite ieee p true
  | _, .inf q => FF.fp32.infinite ieee q true
  | .fin p m e, .fin q n d =>
    let base := min e d
    FF.fp32.roundInt ieee (scaled p m e base + scaled q n d base) base (p && q && decide (m = 0) && decide (n = 0))

/-- FP32 negation of a pattern. -/
def fneg (x : Nat) : Nat := if x < 2 ^ 31 then x + 2 ^ 31 else x - 2 ^ 31

/-- FP32 subtraction. -/
def fsub (ieee : Bool) (a b : Nat) : Nat × Nat :=
  match FF.fp32.val b with
  | .nan => (FF.fp32.nan, 0)
  | _ => fadd ieee a (fneg b)

/-- The exact product of two values. -/
def Val.mul : Val → Val → Option Val
  | .nan, _ => some .nan
  | _, .nan => some .nan
  | .inf p, .inf q => some (.inf (p != q))
  | .inf p, .fin q n _ => if n = 0 then none else some (.inf (p != q))
  | .fin p m _, .inf q => if m = 0 then none else some (.inf (p != q))
  | .fin p m e, .fin q n d => some (.fin (p != q) (m * n) (e + d))

/-- A value rounded into FP32. -/
def Val.toFp32 (ieee : Bool) : Val → Nat × Nat
  | .nan => (FF.fp32.nan, 0)
  | .inf p => FF.fp32.infinite ieee p true
  | .fin p m e => if m = 0 then (if p then 2 ^ 31 else 0, 0) else FF.fp32.round ieee p m e false

/-- FP32 multiplication. -/
def fmul (ieee : Bool) (a b : Nat) : Nat × Nat :=
  match (FF.fp32.val a).mul (FF.fp32.val b) with
  | none => (FF.fp32.nan, flInvalid)
  | some v => v.toFp32 ieee

/-- Fused multiply-add (R48): a product 0 * infinity is INVALID whatever the addend. -/
def ffma (ieee : Bool) (a b c : Nat) : Nat × Nat :=
  match (FF.fp32.val a).mul (FF.fp32.val b) with
  | none => (FF.fp32.nan, flInvalid)
  | some .nan => (FF.fp32.nan, 0)
  | some (.inf p) =>
    match FF.fp32.val c with
    | .nan => (FF.fp32.nan, 0)
    | .inf q => if p = q then FF.fp32.infinite ieee p true else (FF.fp32.nan, flInvalid)
    | .fin .. => FF.fp32.infinite ieee p true
  | some (.fin p m e) =>
    match FF.fp32.val c with
    | .nan => (FF.fp32.nan, 0)
    | .inf q => FF.fp32.infinite ieee q true
    | .fin q n d =>
      let base := min e d
      FF.fp32.roundInt ieee (scaled p m e base + scaled q n d base) base (p && q && decide (m = 0) && decide (n = 0))

/-- FP32 division (R45, R48). -/
def fdiv (ieee : Bool) (a b : Nat) : Nat × Nat :=
  match FF.fp32.val a, FF.fp32.val b with
  | .nan, _ => (FF.fp32.nan, 0)
  | _, .nan => (FF.fp32.nan, 0)
  | .inf _, .inf _ => (FF.fp32.nan, flInvalid)
  | .inf p, .fin q _ _ => FF.fp32.infinite ieee (p != q) true
  | .fin p _ _, .inf q => (if p != q then 2 ^ 31 else 0, 0)
  | .fin p m e, .fin q n d =>
    if n = 0 then (if m = 0 then (FF.fp32.nan, flInvalid) else FF.fp32.infinite ieee (p != q) true)
    else if m = 0 then (if p != q then 2 ^ 31 else 0, 0)
    else
      let k := 56
      FF.fp32.round ieee (p != q) ((m <<< k) / n) (e - d - k) (decide ((m <<< k) % n ≠ 0))

/-- FP32 square root (R48, R131). -/
def fsqrt (ieee : Bool) (a : Nat) : Nat × Nat :=
  match FF.fp32.val a with
  | .nan => (FF.fp32.nan, 0)
  | .inf p => if p then (FF.fp32.nan, flInvalid) else FF.fp32.infinite ieee false true
  | .fin p m e =>
    if m = 0 then (a, 0)
    else if p then (FF.fp32.nan, flInvalid)
    else
      let k := if e % 2 = 0 then 64 else 65
      let r := isqrt (m <<< k)
      FF.fp32.round ieee false r ((e - k) / 2) (decide (r * r ≠ m <<< k))

/-- FP32 1.0. -/
def fone : Nat := 0x3F800000

/-- An order on finite and infinite FP32 values, -0 below +0 (R49). -/
def fkey (x : Nat) : Int := if x < 2 ^ 31 then (x : Int) else -((x - 2 ^ 31 : Nat) : Int) - 1

/-- Maximum of two FP32 patterns (R49): NaN operands are ignored. -/
def fmaxBits (a b : Nat) : Nat :=
  match FF.fp32.val a, FF.fp32.val b with
  | .nan, .nan => FF.fp32.nan
  | .nan, _ => b
  | _, .nan => a
  | _, _ => if fkey a < fkey b then b else a

/-- Minimum of two FP32 patterns (R49). -/
def fminBits (a b : Nat) : Nat :=
  match FF.fp32.val a, FF.fp32.val b with
  | .nan, .nan => FF.fp32.nan
  | .nan, _ => b
  | _, .nan => a
  | _, _ => if fkey b < fkey a then b else a

/-- An infinite result of an operation that rounds once (R45, R58). -/
def fclamp (ieee : Bool) (x : Nat) : Nat × Nat :=
  match FF.fp32.val x with
  | .inf p => FF.fp32.infinite ieee p true
  | _ => (x, 0)

/-- The engine's maximum and minimum: R58 rounds the result once and R49 sets no flag (log entry 11). -/
def fmax (ieee : Bool) (a b : Nat) : Nat × Nat := ((fclamp ieee (fmaxBits a b)).1, 0)
def fmin (ieee : Bool) (a b : Nat) : Nat × Nat := ((fclamp ieee (fminBits a b)).1, 0)

/-- The result of a one-operand sign operation: a NaN gives the canonical NaN. -/
def fsignOp (ieee : Bool) (a r : Nat) : Nat × Nat :=
  match FF.fp32.val a with
  | .nan => (FF.fp32.nan, 0)
  | _ => fclamp ieee r

def fabs32 (ieee : Bool) (a : Nat) : Nat × Nat := fsignOp ieee a (a % 2 ^ 31)
def fneg32 (ieee : Bool) (a : Nat) : Nat × Nat := fsignOp ieee a (fneg a)

/-- An exact integer result in `w` bits (R46). -/
def intResult (w : Nat) (ieee : Bool) (v : Int) : Nat × Nat :=
  if -(2 ^ (w - 1) : Int) ≤ v ∧ v < 2 ^ (w - 1) then (ux w v, 0)
  else if ieee then (ux w v, flIntOvf)
  else (ux w (if v < 0 then -(2 ^ (w - 1) : Int) else 2 ^ (w - 1) - 1), flIntOvf)

/-- Nearest integer, ties to even, of (-1)^neg * m * 2^e. -/
def nearestInt (neg : Bool) (m : Nat) (e : Int) : Int :=
  let a : Nat :=
    if 0 ≤ e then m <<< (min e 400).toNat
    else
      let k := (min (-e) 400).toNat
      let r := m >>> k
      let rem := m % 2 ^ k
      if 2 ^ (k - 1) < rem ∨ (rem = 2 ^ (k - 1) ∧ r % 2 = 1) then r + 1 else r
  if neg then -(a : Int) else a

/-- CVT.F2I (R46, R131). -/
def f2i (ieee : Bool) (a : Nat) : Nat × Nat :=
  match FF.fp32.val a with
  | .nan => (0, flInvalid)
  | .inf p => (if p then 2 ^ 31 else 2 ^ 31 - 1, flInvalid)
  | .fin p m e => intResult 32 ieee (nearestInt p m e)

/-- CVT.I2F (R43). -/
def i2f (ieee : Bool) (a : Nat) : Nat × Nat := FF.fp32.roundInt ieee (sx 32 a) 0 false

/-- T[i] of R132. -/
def exp2T : List Nat :=
  [4611686018427387904, 4661903986662671290, 4712668792719003884, 4763986391269842979] ++
  [4815862801830788490, 4868304109465667592, 4921316465500308116, 4974906088244084429] ++
  [5029079263719320435, 5083842346398635251, 5139201759950318048, 5195163997991819502] ++
  [5251735624851448219, 5308923276338361494, 5366733660520940721, 5425173558513642752] ++
  [5484249825272419512, 5543969390398799154, 5604339258952723100, 5665366512274234280] ++
  [5727058308814112983, 5789421884973557729, 5852464555953009676, 5916193716610220111] ++
  [5980616842327661685, 6045741489889385141, 6111575298367424380, 6178125990017853852] ++
  [6245401371186603363, 6313409333225136570, 6382157853416100552, 6451654995909055045] ++
  [6521908912666391106, 6592927844419550153, 6664720121635655541, 6737294165494670078] ++
  [6810658488877194079, 6884821697363019841, 6959792490240559659, 7035579661527265796] ++
  [7112192101001162095, 7189638795243608238, 7267928828693418961, 7347071384712461870] ++
  [7427075746662858866, 7507951298995917514, 7589707528352920109, 7672354024677899536] ++
  [7755900482342532474, 7840356701283281883, 7925732588150922155, 8012038157472581778] ++
  [8099283532826439817, 8187478948029213993, 8276634748336579668, 8366761391656660532] ++
  [8457869449776733335, 8549969609603290562, 8643072674415606502, 8737189565132953757] ++
  [8832331321595618838, 8928509103859867100, 9025734193507008925, 9124017994966720698]

/-- L[i] of R132. -/
def log2L : List Nat :=
  [0, 103153330606121625, 204731739545776358, 304782595603293869] ++
  [403351162126124447, 500480719981309593, 596212681665212875, 690586697319517456] ++
  [783640753332765648, 875411264141121919, 965933157783587320, 1055239955714717668] ++
  [1143363847331251474, 1230335759627285963, 1316185422355184002, 1400941429035756762] ++
  [1484631294131014398, 1567281506665531296, 1648917580557901400, 1729564101901571123] ++
  [1809244773414275253, 1887982456257138845, 1965799209408045220, 2042716326758930046] ++
  [2118754372093087486, 2193933212086227468, 2268272047463780046, 2341789442436693607] ++
  [2414503352528620721, 2486431150898841404, 2557589653257460679, 2627995141462265872] ++
  [2697663385880076776, 2766609666589412753, 2834848793495784858, 2902395125425853134] ++
  [2969262588262028797, 3035464692174811580, 3101014548006201223, 3165924882853879154] ++
  [3230208054902495130, 3293876067545289651, 3356940582836414350, 3419412934311659540] ++
  [3481304139212842424, 3542624910148834945, 3603385666224101885, 3663596543663664096] ++
  [3723267405961586381, 3782407853578403233, 3841027233211328250, 3899134646659635119] ++
  [3956738959306241175, 4013848808235260778, 4070472610004118119, 4126618568087710828] ++
  [4182294680011091174, 4237508744186174972, 4292268366467094717, 4346580966437978175] ++
  [4400453783446152532, 4453893882393043195, 4506908159294352029, 4559503346620458693]

/-- C1, C2, C3 and K of R132. -/
def exp2C1 : Nat := 3196577161300663915
def exp2C2 : Nat := 1107849223398934356
def exp2C3 : Nat := 255967521894832113
def log2K : Nat := 6653256548922161246

/-- floor (x * 2^k) of a finite value. -/
def floorAt (neg : Bool) (m : Nat) (e : Int) (k : Nat) : Int :=
  let s : Int := if neg then -(m : Int) else m
  if 0 ≤ e + k then s * 2 ^ (e + k).toNat else s / 2 ^ (-(e + k)).toNat

/-- EXP2 (R132). -/
def fexp2 (ieee : Bool) (a : Nat) : Nat × Nat :=
  match FF.fp32.val a with
  | .nan => (FF.fp32.nan, 0)
  | .inf p => if p then (0, 0) else FF.fp32.infinite ieee false true
  | .fin p m e =>
    if !p && decide (128 ≤ floorAt p m e 0) then FF.fp32.infinite ieee false false
    else
      let n := floorAt p m e 0
      let u := (floorAt p m e 40 - n * 2 ^ 40).toNat
      let i := u >>> 34
      let r := u % 2 ^ 34
      let r2 := (r * r) >>> 40
      let r3 := (r2 * r) >>> 40
      let q := 2 ^ 62 + ((exp2C1 * r) >>> 40) + ((exp2C2 * r2) >>> 40) + ((exp2C3 * r3) >>> 40)
      FF.fp32.round ieee false ((exp2T.getD i 0 * q) >>> 62) (n - 62) false

/-- LOG2 (R132). -/
def flog2 (ieee : Bool) (a : Nat) : Nat × Nat :=
  match FF.fp32.val a with
  | .nan => (FF.fp32.nan, 0)
  | .inf p => if p then (FF.fp32.nan, flInvalid) else FF.fp32.infinite ieee false true
  | .fin p m e =>
    if m = 0 then FF.fp32.infinite ieee true true
    else if p then (FF.fp32.nan, flInvalid)
    else
      let sh := 23 - m.log2
      let mant := m <<< sh
      let ex : Int := e - sh + 23
      let i := (mant >>> 17) - 64
      let c := (mant >>> 17) <<< 17
      let d := ((mant - c) <<< 40) / c
      let d2 := (d * d) >>> 40
      let d3 := (d2 * d) >>> 40
      let d4 := (d3 * d) >>> 40
      let g := d - d2 / 2 + d3 / 3 - d4 / 4
      let v : Int := ex * 2 ^ 62 + log2L.getD i 0 + ((g * log2K) >>> 40 : Nat)
      FF.fp32.roundInt ieee v (-62) false

/-- Run a second operation on a first one's result; the flags of both are raised (R131). -/
def andThen (r : Nat × Nat) (f : Nat → Nat × Nat) : Nat × Nat :=
  let q := f r.1
  (q.1, r.2 ||| q.2)

def frcp (ieee : Bool) (a : Nat) : Nat × Nat := fdiv ieee fone a
def frsqrt (ieee : Bool) (a : Nat) : Nat × Nat := andThen (fsqrt ieee a) (fdiv ieee fone)
def fexp (ieee : Bool) (a : Nat) : Nat × Nat := andThen (fmul ieee a 0x3FB8AA3B) (fexp2 ieee)
def fln (ieee : Bool) (a : Nat) : Nat × Nat := andThen (flog2 ieee a) fun x => fmul ieee x 0x3F317218
def fsigmoid (ieee : Bool) (a : Nat) : Nat × Nat :=
  andThen (andThen (andThen (fmul ieee a 0xBFB8AA3B) (fexp2 ieee)) (fadd ieee fone)) (fdiv ieee fone)
def ftanh (ieee : Bool) (a : Nat) : Nat × Nat :=
  andThen (andThen (fmul ieee a 0x40000000) (fsigmoid ieee)) fun x => ffma ieee x 0x40000000 0xBF800000

/-- FP32 comparisons (R131): NaN compares false, -0 equals +0. 0 LT, 1 LE, 2 EQ, 3 NE. -/
def fcmp (op a b : Nat) : Bool :=
  let z (x : Nat) : Int := if x % 2 ^ 31 = 0 then 0 else fkey x
  match FF.fp32.val a, FF.fp32.val b with
  | .nan, _ => op == 3
  | _, .nan => op == 3
  | _, _ =>
    match op with
    | 0 => decide (z a < z b)
    | 1 => decide (z a ≤ z b)
    | 2 => decide (z a = z b)
    | _ => decide (z a ≠ z b)

/-- Element formats of an MX block (R38). -/
inductive MxF where
  | fp8 (f : FF)
  | int8
  deriving DecidableEq, Repr, Inhabited

/-- The FP32 value of an MX element under a scale byte (R38), rounded into FP32 as any conversion is (R45). -/
def mxDecode (ieee : Bool) (f : MxF) (scale x : Nat) : Nat × Nat :=
  if scale = 0xFF then (FF.fp32.nan, 0)
  else
    let k : Int := (scale : Int) - 127
    match f with
    | .int8 => FF.fp32.roundInt ieee (sx 8 x) (k - 6) false
    | .fp8 g =>
      match g.val x with
      | .nan => (FF.fp32.nan, 0)
      | .inf p => FF.fp32.infinite ieee p true
      | .fin p m e => if m = 0 then (if p then 2 ^ 31 else 0, 0) else FF.fp32.round ieee p m (e + k) false

/-- The exponent of the largest normal element (R65). -/
def MxF.emax : MxF → Int
  | .fp8 .e4m3 => 8
  | .fp8 .e5m2 => 15
  | .fp8 _ => 2
  | .int8 => 0

/-- One element of a block at scale exponent k (R65, R66). -/
def MxF.quant (f : MxF) (p : Bool) (m : Nat) (e k : Int) : Nat :=
  match f with
  | .int8 => ux 8 (let v := nearestInt p m (e - k + 6); if v < -127 then -127 else if 127 < v then 127 else v)
  | .fp8 g => (if p then g.sign else 0) + min g.maxFin (g.roundMag m (e - k) false).1

/-- Whether an element reads as zero. -/
def MxF.isZero (f : MxF) (x : Nat) : Bool :=
  match f with
  | .int8 => decide (x = 0)
  | .fp8 g => decide (x % g.sign = 0)

/-- The position of the top bit of a finite value's magnitude: floor (log2 |v|). -/
def topExp (m : Nat) (e : Int) : Int := (m.log2 : Int) + e

/-- Conversion of a block of FP32 patterns (R65): scale, elements, MX_SPECIAL, elements flushed. -/
def mxEncode (f : MxF) (xs : List Nat) : Nat × List Nat × Bool × Nat :=
  let vs := xs.map FF.fp32.val
  let special := vs.any fun v => match v with | .nan => true | .inf _ => true | .fin .. => false
  if special then (0xFF, xs.map fun _ => 0, true, 0)
  else
    let tops := vs.filterMap fun v => match v with | .fin _ m e => if m = 0 then none else some (topExp m e) | _ => none
    match tops with
    | [] => (0x7F, vs.map fun v => match v with | .fin p _ _ => f.quant p 0 0 0 | _ => 0, false, 0)
    | t :: ts =>
      let k := max (-127) (min 127 (ts.foldl max t - f.emax))
      let q := vs.map fun v => match v with | .fin p m e => (f.quant p m e k, decide (m ≠ 0)) | _ => (0, false)
      ((k + 127).toNat, q.map (·.1), false, (q.filter fun e => e.2 && f.isZero e.1).length)

/-- The long accumulator's operations (R59 to R62). -/
structure Sum320 where
  a : Int := 0
  nan : Bool := false
  pinf : Bool := false
  ninf : Bool := false
  nonnegz : Bool := false
  count : Nat := 0
  deriving DecidableEq, Repr, Inhabited

/-- A floating-point contribution (R60). -/
def Sum320.addFp (s : Sum320) (f : FF) (x : Nat) : Sum320 :=
  let s := { s with count := s.count + 1 }
  match f.val x with
  | .nan => { s with nan := true, nonnegz := true }
  | .inf p => if p then { s with ninf := true, nonnegz := true } else { s with pinf := true, nonnegz := true }
  | .fin p m e => { s with a := s.a + scaled p m e (-149), nonnegz := s.nonnegz || !(p && decide (m = 0)) }

/-- An INT32 contribution (R60). -/
def Sum320.addInt (s : Sum320) (x : Nat) : Sum320 :=
  { s with count := s.count + 1, a := s.a + sx 32 x * 2 ^ 149, nonnegz := true }

/-- Final rounding into a floating-point format (R62). -/
def Sum320.toFp (s : Sum320) (f : FF) (ieee : Bool) : Nat × Nat :=
  if s.nan || (s.pinf && s.ninf) then (f.nan, if s.pinf && s.ninf then flInvalid else 0)
  else if s.pinf then f.infinite ieee false true
  else if s.ninf then f.infinite ieee true true
  else f.roundInt ieee s.a (-149) (decide (0 < s.count) && !s.nonnegz)

/-- Final rounding into INT32 (R62). -/
def Sum320.toInt (s : Sum320) (ieee : Bool) : Nat × Nat := intResult 32 ieee (s.a / 2 ^ 149)

end Sys2Proof
end

