-- ==== Sys2Proof/Machine/Operands.lean ====
section
/-! DEFINITION. Operand forms: the stream formats of the element engine (R127) and elements held at bit addresses of a store. -/

namespace Sys2Proof

/-- Bits of an element of a stream format (R127). -/
def sfBits : Nat → Nat
  | 0 => 32 | 1 => 32 | 2 => 16 | 3 => 16 | 9 => 4 | _ => 8

/-- Whether a stream format is floating-point or MX (R131); the integer formats are INT32 and INT8. -/
def sfFloat (f : Nat) : Bool := f != 1 && f != 6

/-- The MX element format of a stream format (R127). -/
def sfMx : Nat → Option MxF
  | 7 => some (.fp8 .e4m3)
  | 8 => some (.fp8 .e5m2)
  | 9 => some (.fp8 .e2m1)
  | 10 => some .int8
  | _ => none

/-- An element of `w` bits at a bit address of a store: 4-bit elements take the low half of a byte first (R39). -/
def loadBits (m : Mem) (a w : Nat) : Nat :=
  if w = 4 then ((Mem.read m (a / 8)).toNat >>> (a % 8)) % 16 else Mem.readLe m (a / 8) (w / 8)

/-- Write an element of `w` bits at a bit address. A 4-bit element leaves the other half of its byte (R135). -/
def storeBits (m : Mem) (a w x : Nat) : Mem :=
  if w = 4 then
    let old := (Mem.read m (a / 8)).toNat
    Mem.write m (a / 8) (BitVec.ofNat 8 (if a % 8 = 0 then old / 16 * 16 + x % 16 else old % 16 + x % 16 * 16))
  else Mem.writeLe m (a / 8) (w / 8) x

/-- What a stream element is delivered as (R127): FP32 or INT32 bits, and the flags of widening (R45). -/
def sfDecode (ieee : Bool) (f scale raw : Nat) : Nat × Nat :=
  match f with
  | 0 => (raw, 0)
  | 1 => (raw, 0)
  | 2 => FF.bf16.convert .fp32 ieee raw
  | 3 => FF.fp16.convert .fp32 ieee raw
  | 4 => FF.e4m3.convert .fp32 ieee raw
  | 5 => FF.e5m2.convert .fp32 ieee raw
  | 6 => (ux 32 (sx 8 raw), 0)
  | 7 => mxDecode ieee (.fp8 .e4m3) scale raw
  | 8 => mxDecode ieee (.fp8 .e5m2) scale raw
  | 9 => mxDecode ieee (.fp8 .e2m1) scale raw
  | _ => mxDecode ieee .int8 scale raw

/-- An output value narrowed to a stream format that is not MX (R64, R131). -/
def sfEncode (ieee : Bool) (f x : Nat) : Nat × Nat :=
  match f with
  | 2 => FF.fp32.convert .bf16 ieee x
  | 3 => FF.fp32.convert .fp16 ieee x
  | 4 => FF.fp32.convert .e4m3 ieee x
  | 5 => FF.fp32.convert .e5m2 ieee x
  | 6 => intResult 8 ieee (sx 32 x)
  | _ => (x, 0)

end Sys2Proof
end

