-- ==== Sys2Proof/Machine/Array.lean ====
section
/-! DEFINITION. The matrix array: MA.PASS at issue, at the end of its input phase and at completion; cells, planes and readout
(R54 to R57, R98 to R123). -/

namespace Sys2Proof.Machine

/-- The encoding of a plane state (R107). -/
def PlaneSt.code : PlaneSt → Nat
  | .empty => 0 | .filling => 1 | .full => 2 | .draining => 3 | .held => 4

def ArrayU.plane (a : ArrayU) (n : Nat) : Plane := if n = 0 then a.plane0 else a.plane1

def ArrayU.setPlane (a : ArrayU) (n : Nat) (p : Plane) : ArrayU := if n = 0 then { a with plane0 := p } else { a with plane1 := p }

def ArrayU.setPlaneSt (a : ArrayU) (n : Nat) (st : PlaneSt) : ArrayU := a.setPlane n { a.plane n with st := st }

/-- Bytes written over the crossbar into an operand store mark every pass and EE.RUN in flight (R102, R125). -/
def Tile.crossbar (t : Tile) (a n : Nat) : Tile :=
  { t with arr := { t.arr with passes := t.arr.passes.map fun p => { p with taint := (a, n) :: p.taint } },
           ee := { t.ee with run := t.ee.run.map fun r => { r with taint := (a, n) :: r.taint } } }

/-- A crossbar write of bytes into the operand store. -/
def Tile.osWrite (t : Tile) (a : Nat) (bs : List Byte) : Tile :=
  { (t.crossbar a bs.length) with os := Mem.writeN t.os a bs }

/-- An operand field of `w` bits at a bit address: undefined where its bytes were written while the reader ran. -/
def rdBits (os : Mem) (taint : List (Nat × Nat)) (draw a w : Nat) : Nat :=
  if taint.any fun r => decide (8 * r.1 < a + w ∧ a < 8 * (r.1 + r.2)) then Config.undefBits draw a % 2 ^ w else loadBits os a w

/-- The MA.PASS descriptor (R99). -/
structure PassD where
  k : Nat
  m : Nat
  n : Nat
  fmt : Nat
  mode : Nat
  aBase : Nat
  bBase : Nat
  aPitch : Nat
  bPitch : Nat
  aScale : Nat
  bScale : Nat
  biasBase : Nat
  biasPitch : Nat
  deriving DecidableEq, Repr

def passD (b : List Byte) : PassD :=
  { k := fld b 8 4, m := fld b 12 1, n := fld b 13 1, fmt := fld b 14 1, mode := fld b 15 1, aBase := fld b 16 4,
    bBase := fld b 20 4, aPitch := fld b 24 4, bPitch := fld b 28 4, aScale := fld b 32 4, bScale := fld b 36 4,
    biasBase := fld b 40 4, biasPitch := fld b 44 4 }

def PassD.plane (p : PassD) : Nat := bits p.mode 0 0
def PassD.aT (p : PassD) : Bool := bit p.mode 1
def PassD.bT (p : PassD) : Bool := bit p.mode 2
def PassD.init (p : PassD) : Nat := bits p.mode 4 3
def PassD.mx (p : PassD) : Bool := decide (5 ≤ p.fmt ∧ p.fmt ≤ 8)
def PassD.int8 (p : PassD) : Bool := decide (p.fmt = 4)

/-- Bits of an element of a pass format (R100). -/
def PassD.w (p : PassD) : Nat := if p.fmt = 2 ∨ p.fmt = 3 then 16 else if p.fmt = 7 then 4 else 8

/-- Cycles to feed `k` slices: ceil (k * rate) (R83, R103). -/
def PassD.feed (p : PassD) (k : Nat) : Nat :=
  if p.fmt = 2 ∨ p.fmt = 3 then 2 * k else if p.fmt = 7 then cdiv k 2 else k

/-- Bytes of `n` elements of a pass format. -/
def PassD.bytes (p : PassD) (n : Nat) : Nat := cdiv (n * p.w) 8

/-- Stored rows and bytes of a row of A and of B. -/
def PassD.aRows (p : PassD) : Nat := if p.aT then p.k else p.m
def PassD.aRow (p : PassD) : Nat := if p.k = 0 then 0 else p.bytes (if p.aT then p.m else p.k)
def PassD.bRows (p : PassD) : Nat := if p.bT then p.n else p.k
def PassD.bRow (p : PassD) : Nat := if p.k = 0 then 0 else p.bytes (if p.bT then p.k else p.n)

/-- The operand store is 16 MiB: whether `rows` rows of `len` bytes at a pitch leave it. -/
def osOut (base pitch rows len : Nat) : Bool :=
  decide (rows ≠ 0 ∧ len ≠ 0 ∧ 2 ^ 24 < base + (rows - 1) * pitch + len)

/-- The refusals of R101 in the orders of R87. -/
def passChecks (t : Tile) (width : Nat) (desc : List Byte) : UnitChecks :=
  let p := passD desc
  let mis (x n : Nat) : Bool × Err := (decide (x % n ≠ 0), .align)
  { align := [(p.mx && (decide (p.aScale % 64 ≠ 0) || decide (p.bScale % 64 ≠ 0)), .align), mis p.aBase 128, mis p.bBase 128,
              (decide ((p.init = 1 ∨ p.init = 2) ∧ p.biasBase % 128 ≠ 0), .align), mis p.aPitch 128, mis p.bPitch 128,
              (decide (p.init = 2 ∧ p.biasPitch % 128 ≠ 0), .align)],
    arg := [(decide (fld desc 4 2 ≠ 40) || !zeroAt desc 48 16 || decide (bits p.mode 7 5 ≠ 0 ∨ p.init = 3 ∨ 8 < p.fmt), .badarg),
            (decide (p.m = 0 ∨ 128 < p.m ∨ p.n = 0), .badarg),
            (p.mx && (decide (p.k % 32 ≠ 0) || p.aT || !p.bT), .badarg),
            (decide (p.aPitch < p.aRow ∨ p.bPitch < p.bRow), .badarg),
            (decide (p.init = 2 ∧ p.biasPitch < 4 * p.n), .badarg)],
    range := [(decide (32768 < p.k), .range),
              (osOut p.aBase p.aPitch p.aRows p.aRow || osOut p.bBase p.bPitch p.bRows p.bRow, .range),
              (p.mx && (osOut p.aScale 0 1 (p.m * (p.k / 32)) || osOut p.bScale 0 1 (p.n * (p.k / 32))), .range),
              ((decide (p.init = 1) && osOut p.biasBase 0 1 (4 * p.n)) ||
               (decide (p.init = 2) && osOut p.biasBase p.biasPitch p.m (4 * p.n)), .range)],
    late := [(decide (width < p.n), .width)],
    plane := [(decide ((t.arr.plane p.plane).st ≠ .empty), .planeBusy)],
    unit := [(decide (t.sleep.st ≠ .running), .unitBusy), (t.arr.disabled || t.arr.draining, .unitBusy),
             (t.arr.passes.any fun q => !q.inputDone, .unitBusy)] }

/-- Cycles of the input phase for `k` slices, the check cycles of a checked pass included (R103, R118). -/
def passInput (p : PassD) (checked : Bool) (k : Nat) : Nat :=
  p.feed k + (if checked then cdiv (p.feed k) 16 else 0)

/-- MA.PASS (R98 to R109): the pass starts, its plane FILLING. -/
def execMaPass (d : CdId) (p : PTile) (rd rs1 rs2 : Fin 32) (s : State) : Out :=
  s.issue d p 0x08 0 rd rs1 rs2 false true
    (fun s k => passChecks (s.tile k.d k.p) (s.cd k.d).width k.desc)
    (fun s k =>
      s.modArr k.d k.p fun a =>
        let q := passD k.desc
        let n := passInput q a.checkedLaunch q.k
        let pass : Pass := { desc := k.desc, tag := k.tag, lrc := k.lrc, plane := q.plane, ltile := k.i,
                             ieee := (s.cx k.ctx).ieee, checked := a.checkedLaunch, inputDone := decide (q.k = 0),
                             inCycles := n, total := n + 270, serial := a.passCount, startNs := s.aonNs }
        { (a.setPlane q.plane { st := .filling, int32 := q.int8, cells := [] }) with
          passes := a.passes ++ [pass], passCount := a.passCount + 1 })

/-- The input phase of the pass being fed ends (R103, R118); the event counters take its cycles (R522). -/
def execMaPassInputEnd (d : CdId) (p : PTile) (s : State) : Out :=
  .next <| s.modArr d p fun a =>
    match List.find? (fun q : Pass => !q.inputDone) a.passes with
    | none => a
    | some q =>
      let k := passD q.desc
      { a with passes := a.passes.map fun r => if r.inputDone then r else { r with inputDone := true },
               evInput := a.evInput.add q.inCycles,
               evCheck := a.evCheck.add (if q.checked then cdiv (k.feed (k.k - q.fromK)) 16 else 0) }

/-- An element of a pass format under its scale, as an exact value (R37, R38, R54). -/
def passVal (fmt scale raw : Nat) : Val :=
  let under (v : Val) : Val :=
    if scale = 0xFF then .nan
    else match v with
      | .fin neg m e => .fin neg m (e + scale - 127)
      | v => v
  match fmt with
  | 0 => FF.e4m3.val raw
  | 1 => FF.e5m2.val raw
  | 2 => FF.bf16.val raw
  | 3 => FF.fp16.val raw
  | 5 => under (FF.e4m3.val raw)
  | 6 => under (FF.e5m2.val raw)
  | 7 => under (FF.e2m1.val raw)
  | _ => under (.fin (decide (sx 8 raw < 0)) (sx 8 raw).natAbs (-6))

/-- The finest exponent of any term of a group: below every product and every FP32 value. -/
def groupExp : Int := -320

/-- What a list of products sets: Q, I, P, N (R54). -/
def CellV.mark (c : CellV) (ps : List (Option Val)) : CellV :=
  ps.foldl (fun c v =>
    match v with
    | none => { c with i := true }
    | some .nan => { c with q := true }
    | some (.inf neg) => if neg then { c with n := true } else { c with p := true }
    | some (.fin ..) => c) c

/-- Whether every product of a group is finite. -/
def allFinite (ps : List (Option Val)) : Bool :=
  ps.all fun v => match v with
    | some (.fin ..) => true
    | _ => false

/-- The exact sum of finite products, and whether all are -0. -/
def groupSum (ps : List (Option Val)) : Int × Bool :=
  ps.foldl (fun (a : Int × Bool) v =>
    match v with
    | some (.fin neg m e) => (a.1 + scaled neg m e groupExp, a.2 && neg && decide (m = 0))
    | _ => a) (0, true)

/-- One group of a floating-point cell (R55): one rounding of the accumulator and the products; no change of the value once P, N
or Q is set; the value after a special group is Config.spoilt (log entry 14). -/
def CellV.group (c : CellV) (ps : List (Option Val)) : CellV :=
  if !allFinite ps then
    let stuck := c.q || c.p || c.n
    let c := c.mark ps
    if stuck then c else { c with val := BitVec.ofNat 32 (Config.spoilt c.val.toNat) }
  else if c.q || c.p || c.n then c
  else match FF.fp32.val c.val.toNat with
    | .fin neg m e =>
      let g := groupSum ps
      let r := FF.fp32.roundInt true (g.1 + scaled neg m e groupExp) groupExp (g.2 && neg && decide (m = 0))
      if r.1 % 2 ^ 31 = 0x7F800000 then
        { c with v := true, p := c.p || decide (r.1 < 2 ^ 31), n := c.n || decide (2 ^ 31 ≤ r.1),
                 val := BitVec.ofNat 32 (Config.spoilt c.val.toNat) }
      else { c with val := BitVec.ofNat 32 r.1, uf := c.uf || decide (r.2 &&& flUnderflow ≠ 0) }
    | _ => c

/-- One group of an INT32 cell (R57). -/
def CellV.groupInt (c : CellV) (ieee : Bool) (sum : Int) : CellV :=
  let r := intResult 32 ieee (sx 32 c.val.toNat + sum)
  { c with val := BitVec.ofNat 32 r.1, ovf := c.ovf || decide (r.2 ≠ 0) }

/-- C0 as the first group is taken (R106): a NaN sets Q, an infinity P or N. -/
def CellV.first (c : CellV) : CellV :=
  match FF.fp32.val c.val.toNat with
  | .nan => { c with q := true }
  | .inf neg => if neg then { c with n := true } else { c with p := true }
  | .fin .. => c

/-- Raw element and scale of A (i, k) and of B (k, j). -/
def PassD.aRaw (p : PassD) (rd : Nat → Nat → Nat) (i k : Nat) : Nat :=
  rd (8 * (p.aBase + (if p.aT then k else i) * p.aPitch) + (if p.aT then i else k) * p.w) p.w
def PassD.bRaw (p : PassD) (rd : Nat → Nat → Nat) (k j : Nat) : Nat :=
  rd (8 * (p.bBase + (if p.bT then j else k) * p.bPitch) + (if p.bT then k else j) * p.w) p.w
def PassD.aSc (p : PassD) (rd : Nat → Nat → Nat) (i k : Nat) : Nat :=
  if p.mx then rd (8 * (p.aScale + i * (p.k / 32) + k / 32)) 8 else 0
def PassD.bSc (p : PassD) (rd : Nat → Nat → Nat) (k j : Nat) : Nat :=
  if p.mx then rd (8 * (p.bScale + j * (p.k / 32) + k / 32)) 8 else 0

/-- C0 of cell (i, j) (R105). -/
def PassD.c0 (p : PassD) (rd : Nat → Nat → Nat) (i j : Nat) : Nat :=
  match p.init with
  | 1 => rd (8 * (p.biasBase + 4 * j)) 32
  | 2 => rd (8 * (p.biasBase + i * p.biasPitch + 4 * j)) 32
  | _ => 0

/-- Cell (i, j) after the products k0 to k1, taken in groups of 16 (R55, R57). -/
def PassD.cell (p : PassD) (rd : Nat → Nat → Nat) (ieee : Bool) (c : CellV) (i j k0 k1 : Nat) : CellV :=
  (List.range (cdiv (k1 - k0) 16)).foldl (fun c g =>
    let ks := (List.range (min 16 (k1 - (k0 + 16 * g)))).map (k0 + 16 * g + ·)
    if p.int8 then
      c.groupInt ieee (ks.foldl (fun a k => a + sx 8 (p.aRaw rd i k) * sx 8 (p.bRaw rd k j)) 0)
    else
      c.group (ks.map fun k =>
        (passVal p.fmt (p.aSc rd i k) (p.aRaw rd i k)).mul (passVal p.fmt (p.bSc rd k j) (p.bRaw rd k j)))) c

/-- The cells of a plane after the products k0 to k1 of a pass: from C0, or from the cells held when the pass is resumed (R122). -/
def PassD.cells (p : PassD) (rd : Nat → Nat → Nat) (ieee resumed : Bool) (held : Tab CellV) (k0 k1 : Nat) : Tab CellV :=
  ((List.range p.m).flatMap fun i => (List.range p.n).map fun j =>
    let start : CellV :=
      if resumed then Tab.get {} held (128 * i + j)
      else
        let c : CellV := { val := BitVec.ofNat 32 (p.c0 rd i j) }
        if p.k = 0 ∨ p.int8 = true then c else c.first
    (128 * i + j, p.cell rd ieee start i j k0 k1)).filter fun e => e.2 ≠ {}

/-- The plane a pass leaves once k1 slices of it have been taken. -/
def Tile.passPlane (t : Tile) (draw : Nat) (q : Pass) (k1 : Nat) : Plane :=
  let p := passD q.desc
  { t.arr.plane q.plane with
    cells := p.cells (rdBits t.os q.taint draw) q.ieee q.resumed (t.arr.plane q.plane).cells q.fromK k1 }

/-- A logical column's physical column (R112). -/
def ArrayU.phys (a : ArrayU) (j : Nat) : Nat := a.map.getD j 0xFFFF

/-- Good physical columns in ascending order. -/
def ArrayU.good (a : ArrayU) : List Nat :=
  (List.range 132).filter fun c =>
    !(if c < 64 then a.badA.getLsbD c else if c < 128 then a.badB.getLsbD (c - 64) else bit a.badC (c - 128))

/-- The physical column that runs as the check column: the lowest idle spare (R117). -/
def ArrayU.checkPhys (a : ArrayU) : Nat := a.good.getD a.width 0xFFFF

/-- The data of a miscompare's log entry (R119). -/
def misData (p mech phys col row lrc temp vcore load fmt count chk : Nat) : List Byte :=
  [BitVec.ofNat 8 p, BitVec.ofNat 8 mech] ++ leBytes 2 phys ++ leBytes 2 col ++ leBytes 2 row ++ leBytes 8 lrc ++
  leBytes 2 temp ++ leBytes 2 vcore ++ leBytes 3 load ++ [BitVec.ofNat 8 fmt] ++ leBytes 2 count ++ leBytes 2 chk ++ leBytes 8 0

/-- A miscompare on a tile (R119): COUNT rises, the substitution request at LIMIT, the log entry and ledger record. -/
def State.miscompare (s : State) (d p mech phys col row lrc load fmt chk ctx : Nat) : State :=
  let s := s.modArr d p fun a => { a with misCount := min 0xFFFF (a.misCount + 1) }
  let a := (s.tile d p).arr
  let m := Tab.get {} s.health.mons d
  let s := if a.misLimit ≤ a.misCount then
      { s with health := { s.health with subs := Tab.set false s.health.subs (5 * d + p) true } } else s
  s.raise d (0x10 + p) 3 .checksum (misData p mech phys col row lrc (ux 16 m.temp) m.vcore load fmt a.misCount chk) ctx
    (some 15) 3

/-- The miscompare that a pass's checks see, if its mechanism runs (R117, R118). -/
def ArrayU.caught (a : ArrayU) (q : Pass) (mis : Option Miscompare) : Option Miscompare :=
  match mis with
  | none => none
  | some m =>
    let p := passD q.desc
    if p.k = 0 then none
    else if m.mech = 0 then (if a.checkCol ∧ 1 ≤ a.spareIdle then some { m with col := Fin.ofNat 128 (q.serial % max p.n 1) } else none)
    else if q.checked then some m else none

/-- The oldest pass completes (R103, R107): its plane FULL and its tag clear, or, on a miscompare, HELD with the Mule halted. -/
def execMaPassComplete (d : CdId) (p : PTile) (mis : Option Miscompare) (s : State) : Out :=
  let t := s.tile d p
  match t.arr.passes with
  | [] => .next s
  | q :: rest =>
    if !q.inputDone then .next s
    else
      let k := passD q.desc
      let plane := t.passPlane s.free q k.k
      let bad := t.arr.caught q mis
      let s := (s.modArr d p fun a =>
        { (a.setPlane q.plane { plane with st := if bad.isSome then .held else .full }) with passes := rest }).drew
      match bad with
      | none => .next (s.tagDone d q.ltile q.tag)
      | some m =>
        let a := t.arr
        let s := s.miscompare d p m.mech (a.phys m.col) m.col (if m.mech = 0 then m.row else 0xFFFF) q.lrc m.load k.fmt
          (if m.mech = 0 then a.checkPhys else 0xFFFF) t.cx
        .next (s.unitFault d q.ltile .checksum 1 q.tag q.lrc)

/-- A cell read out (R56, R57, R106): value and flags. -/
def CellV.read (c : CellV) (int32 ieee : Bool) : Nat × Nat :=
  let x := c.val.toNat
  if int32 then (x, if c.ovf then flIntOvf else 0)
  else if c.q || c.i || (c.p && c.n) then (FF.fp32.nan, if c.i || (c.p && c.n) then flInvalid else 0)
  else if c.p then (if ieee then 0x7F800000 else 0x7F7FFFFF, if !ieee || c.v then flOverflow else 0)
  else if c.n then (if ieee then 0xFF800000 else 0xFF7FFFFF, if !ieee || c.v then flOverflow else 0)
  else match FF.fp32.val x with
    | .nan => (FF.fp32.nan, 0)
    | _ => (x, if c.uf then flUnderflow else 0)

/-- The column map, width and idle spares the bad columns give (R112). -/
def ArrayU.remap (a : ArrayU) : ArrayU :=
  let g := a.good
  let bad := 132 - g.length
  let w := if bad ≤ 4 then 128 else if bad ≤ 12 then 120 else 0
  { a with width := w, map := g.take w, spareIdle := if bad ≤ 4 then 4 - bad else if bad ≤ 12 then 12 - bad else 0 }

/-- The reported width and narrow bits of a die, and TILE_OK of unfit tiles (R17, R112, R113). -/
def ComputeDie.reWidth (c : ComputeDie) : ComputeDie :=
  let w (p : Nat) : Nat := (Tab.get {} c.tiles p : Tile).arr.width
  let used := ([c.map.lt0, c.map.lt1, c.map.lt2, c.map.lt3].filter (· ≠ 7)).map w
  { c with width := if used = [] then 0 else used.foldl min 128,
           narrow := (List.range 5).foldl (fun a p => if w p = 120 then a + 2 ^ p else a) 0,
           map := { c.map with ok := (List.range 5).foldl (fun a p => if w p = 0 then setBit a p false else a) c.map.ok } }

/-- Whether a physical tile carries a logical one. -/
def ComputeDie.carries (c : ComputeDie) (p : Nat) : Bool := (List.range 4).any fun i => c.map.phys i == p

/-- Whether T4 can take a logical tile (R443). -/
def ComputeDie.spareFit (c : ComputeDie) : Bool :=
  !c.carries 4 && bit c.map.ok 4 && decide (0 < (Tab.get {} c.tiles 4 : Tile).arr.width)

/-- Bad columns beyond 4 request a substitution while T4 is fit and has width 128 (R443). -/
def State.subsForColumns (s : State) (d p : Nat) : State :=
  let c := s.cd d
  if (s.tile d p).arr.width < 128 ∧ c.carries p = true ∧ p ≠ 4 ∧ c.spareFit = true ∧ (s.tile d 4).arr.width = 128 then
    { s with health := { s.health with subs := Tab.set false s.health.subs (5 * d + p) true } }
  else s

/-- A write of ARR_COLCFG with APPLY (R114, R115): refused by the register write unless both planes are EMPTY, no pass is in flight
and no launch on the die runs; here the map is rebuilt from the three bad-column fields. -/
def State.colcfgApply (s : State) (d p : Nat) : State :=
  let a := (s.tile d p).arr
  let s := ((s.modArr d p ArrayU.remap).modCd d ComputeDie.reWidth).subsForColumns d p
  s.raise d (0x10 + p) 1 .ok
    ([1, 0, 0, 0] ++ leBytes 4 p ++ leBytes 8 a.badA.toNat ++ leBytes 8 a.badB.toNat ++ [BitVec.ofNat 8 a.badC]) 0xFFFF none 2

end Sys2Proof.Machine
end

