-- ==== Sys2Proof/Machine/EeOps.lean ====
section
/-! DEFINITION. The element engine's descriptor, instruction encoding, issue checks and lane operations (R124 to R137). -/

namespace Sys2Proof.Machine

/-- The EE.RUN descriptor (R126). -/
structure EeD where
  progAddr : Nat
  progLen : Nat
  src : Nat
  rows : Nat
  cols : Nat
  nElem : Nat
  base : Nat → Nat
  fmt : Nat → Nat
  trans : Nat
  inPitch : Nat
  outPitch : Nat
  scale0 : Nat
  scale1 : Nat

/-- Streams are numbered 0 to 2 for IN0 to IN2, 3 and 4 for OUT0 and OUT1. -/
def eeD (b : List Byte) : EeD :=
  { progAddr := fld b 8 4, progLen := fld b 12 1, src := fld b 13 1, rows := fld b 14 1, cols := fld b 15 1, nElem := fld b 16 4,
    base := fun i => fld b (20 + 4 * i) 4,
    fmt := fun i => if i = 4 then bits (fld b 42 1) 3 0 else bits (fld b 40 2) (4 * i + 3) (4 * i),
    trans := fld b 43 1, inPitch := fld b 44 4, outPitch := fld b 48 4, scale0 := fld b 52 4, scale1 := fld b 56 4 }

def EeD.plane? (e : EeD) : Option Nat := if bits e.src 1 0 = 0 then none else some (bits e.src 1 0 - 1)
def EeD.summary (e : EeD) : Bool := bit e.src 2
def EeD.sumOp (e : EeD) : Nat := bits e.src 4 3
def EeD.isTrans (e : EeD) (i : Nat) : Bool := bit e.trans i
def EeD.outScale (e : EeD) (i : Nat) : Nat := if i = 3 then e.scale0 else e.scale1

/-- Rows the engine clocks (R124). -/
def EeD.allRows (e : EeD) : Nat := if e.plane?.isSome then 128 else cdiv e.nElem 128

/-- Whether lane j of row r is active (R133). -/
def EeD.active (e : EeD) (r j : Nat) : Bool :=
  decide (j < e.cols) && (if e.plane?.isSome then decide (r < e.rows) else decide (128 * r + j < e.nElem))

/-- An element instruction (R130). -/
structure EeI where
  op : Nat
  dst : Nat
  a : Nat
  b : Nat
  c : Nat
  mask : Nat
  mneg : Bool
  ty : Nat
  deriving DecidableEq, Repr

def eeI (w : Nat) : EeI :=
  { op := bits w 31 25, dst := bits w 24 20, a := bits w 19 15, b := bits w 14 10, c := bits w 9 5, mask := bits w 4 3,
    mneg := bit w 2, ty := bits w 1 0 }

/-- The operations of R131: operands, type (0 FP32, 1 INT32, 2 any), slots. -/
def eeOp (op : Nat) : Option (Nat × Nat × Nat) :=
  if op = 0x00 then some (0, 2, 1)
  else if op = 0x01 then some (1, 2, 1)
  else if op = 0x05 then some (3, 0, 1)
  else if 0x02 ≤ op ∧ op ≤ 0x07 then some (2, 0, 1)
  else if op = 0x08 ∨ op = 0x09 then some (1, 0, 1)
  else if op = 0x0A then some (2, 0, 4)
  else if op = 0x0B ∨ op = 0x0C then some (1, 0, 4)
  else if op = 0x0D then some (1, 0, 8)
  else if op = 0x0E ∨ op = 0x0F then some (1, 0, 2)
  else if op = 0x10 ∨ op = 0x11 then some (1, 0, 3)
  else if op = 0x12 then some (1, 0, 8)
  else if op = 0x13 then some (1, 0, 10)
  else if 0x20 ≤ op ∧ op ≤ 0x2A then some (2, 1, 1)
  else if 0x30 ≤ op ∧ op ≤ 0x33 then some (2, 0, 1)
  else if op = 0x34 ∨ op = 0x35 then some (2, 1, 1)
  else if op = 0x38 then some (2, 2, 1)
  else if op = 0x40 then some (1, 0, 1)
  else if op = 0x41 then some (1, 1, 1)
  else if 0x48 ≤ op ∧ op ≤ 0x4A then some (1, 0, 2)
  else none

/-- Whether an operation writes a mask. -/
def eeCompares (op : Nat) : Bool := decide (0x30 ≤ op ∧ op ≤ 0x35)

def EeI.slots (i : EeI) : Nat := match eeOp i.op with
  | some (_, _, n) => n
  | none => 0

/-- The sources an instruction reads. -/
def EeI.sources (i : EeI) : List Nat := match eeOp i.op with
  | some (n, _, _) => [i.a, i.b, i.c].take n
  | none => []

/-- The output stream (3 or 4) an instruction writes. -/
def EeI.out? (i : EeI) : Option Nat :=
  if i.op = 0 ∨ eeCompares i.op = true ∨ (eeOp i.op).isNone = true then none
  else if i.dst = 16 then some 3 else if i.dst = 17 then some 4 else none

/-- The slots of a program, L. -/
def eeSlots (p : List EeI) : Nat := p.foldl (fun a i => a + i.slots) 0

/-- The input streams a program names, and the outputs it writes. -/
def eeIns (p : List EeI) : List Nat := (List.range 3).filter fun i => p.any fun x => x.sources.contains (25 + i)
def eeOuts (p : List EeI) : List Nat := p.filterMap EeI.out?

/-- Whether a source is typed integer, given the formats and the plane's type; none for a register, a constant or ZERO. -/
def EeD.srcInt (e : EeD) (planeInt : Option Bool) (s : Nat) : Option Bool :=
  if s = 24 then planeInt
  else if 25 ≤ s ∧ s ≤ 27 then some (!sfFloat (e.fmt (s - 25)))
  else if s = 28 ∨ s = 29 then some true
  else none

/-- Encoding faults of one instruction (R130, R131, R137). -/
def EeI.bad (i : EeI) : Bool :=
  match eeOp i.op with
  | none => true
  | some (n, ty, _) =>
    decide (2 ≤ i.ty) || (decide (ty ≠ 2) && decide (i.ty ≠ ty)) || (i.sources.any (· == 31)) ||
    (decide (n < 1) && decide (i.a ≠ 0)) || (decide (n < 2) && decide (i.b ≠ 0)) || (decide (n < 3) && decide (i.c ≠ 0)) ||
    (if eeCompares i.op then decide (i.dst % 4 = 0) else decide (i.op ≠ 0) && decide (17 < i.dst))

/-- Type faults of one instruction (R131, R137). -/
def EeI.mismatch (i : EeI) (e : EeD) (planeInt : Option Bool) : Bool :=
  (i.sources.any fun s => match e.srcInt planeInt s with
    | some b => b != decide (i.ty = 1)
    | none => false) ||
  (match i.out? with
    | some o => sfFloat (e.fmt o) == decide (i.ty = 1)
    | none => false)

/-- Whether any byte of a stream's active region lies outside the operand store (R127, R137). -/
def EeD.streamOut (e : EeD) (i : Nat) : Bool :=
  let f := e.fmt i
  let pitch := if i < 3 then e.inPitch else e.outPitch
  let row (n : Nat) := cdiv (n * sfBits f) 8
  if e.plane?.isSome then
    (if e.isTrans i then osOut (e.base i) pitch e.cols (row e.rows) else osOut (e.base i) pitch e.rows (row e.cols)) ||
    ((sfMx f).isSome &&
      osOut (if i < 3 then e.base i + 128 * pitch else e.outScale i) 4 e.rows (cdiv e.cols 32))
  else
    osOut (e.base i) 0 1 (row e.nElem) ||
    ((sfMx f).isSome &&
      osOut (if i < 3 then e.base i + cdiv e.nElem 128 * (128 * sfBits f / 8) else e.outScale i) 4 e.allRows 4)

/-- The program block the Mule copies at issue (R126): constants and instruction words. -/
def eeBlock (dmem : Mem) (e : EeD) : List Nat × List Nat :=
  ((List.range 8).map fun i => Mem.readLe dmem (e.progAddr + 4 * i) 4,
   (List.range e.progLen).map fun i => Mem.readLe dmem (e.progAddr + 32 + 4 * i) 4)

/-- Checks the three engine instructions share at the end: asleep, disabled, busy (R87, R137). -/
def eeUnit (t : Tile) : List (Bool × Err) :=
  [(decide (t.sleep.st ≠ .running), .unitBusy), (t.ee.disabled || t.ee.draining || t.ee.run.isSome, .unitBusy)]

/-- The refusals of EE.RUN (R95, R126 to R137) in the orders of R87. `ur` is the context's UR_COMPAT. Nothing is read of a program
block outside data memory (log entry 76). -/
def eeRunChecks (t : Tile) (ur : Bool) (desc : List Byte) : UnitChecks :=
  let e := eeD desc
  let out := decide (0x80000 < e.progAddr + 32 + 4 * e.progLen)
  let p := if out then [] else (eeBlock t.mem.dmem e).2.map eeI
  let ins := eeIns p
  let outs := eeOuts p
  let used := ins ++ outs
  let planeInt := match e.plane? with
    | some n => if (t.arr.plane n).st = .empty then none else some (t.arr.plane n).int32
    | none => none
  let isPlane := e.plane?.isSome
  let l := eeSlots p
  let mxOut (o : Nat) : Bool := (sfMx (e.fmt o)).isSome
  { align := [(decide (e.progAddr % 32 ≠ 0), .align), (used.any fun i => decide (e.base i % 128 ≠ 0), .align),
              (outs.any fun o => mxOut o && decide (e.outScale o % 64 ≠ 0), .align),
              (isPlane && ((decide (ins ≠ []) && decide (e.inPitch % 128 ≠ 0)) ||
                           (decide (outs ≠ []) && decide (e.outPitch % 128 ≠ 0))), .align)],
    arg := [(decide (fld desc 4 2 ≠ 52) || !zeroAt desc 60 4 || decide (bits e.src 7 5 ≠ 0 ∨ bits e.src 1 0 = 3) ||
             decide (bits (fld desc 42 1) 7 4 ≠ 0 ∨ bits e.trans 7 5 ≠ 0), .badarg),
            (decide (e.progLen = 0 ∨ 64 < e.progLen ∨ 64 < l), .badarg), (p.any EeI.bad, .badarg),
            (if isPlane then decide (e.rows = 0 ∨ 128 < e.rows ∨ e.nElem ≠ 0)
             else decide (e.rows ≠ 0 ∨ e.nElem = 0 ∨ 4194304 < e.nElem), .badarg),
            (decide (e.cols = 0 ∨ 128 < e.cols), .badarg),
            (decide (l < used.length) || (!out && decide (outs = [])) || decide (outs = [3, 3] ∨ 2 < outs.length ∨ outs = [4, 4]), .badarg),
            (used.any fun i => decide (0xB ≤ e.fmt i), .badarg),
            (p.any fun i => i.mismatch e planeInt, .badarg),
            (!isPlane && p.any fun i => i.sources.contains 24, .badarg),
            (decide (fld desc 2 1 ≠ 0), .badarg),
            (p.any fun i => match i.out? with
              | some o => mxOut o && (decide (e.cols % 32 ≠ 0 ∨ i.mask ≠ 0) || i.mneg || e.isTrans o)
              | none => false, .badarg),
            (isPlane && ins.any fun i => (sfMx (e.fmt i)).isSome && e.isTrans i, .badarg),
            (e.summary && (!ur || decide (e.sumOp = 3) || !(out || outs.contains 3) || !([0, 2, 3, 4, 5].contains (e.fmt 3))), .badarg)],
    range := [(out, .range), (used.any fun i => e.streamOut i, .range)],
    plane := [(match e.plane? with
      | some n => decide ((t.arr.plane n).st ≠ .full)
      | none => false, .planeBusy)],
    unit := eeUnit t }

/-- One-operand and two-operand results of R131: bits and flags. -/
def eeAlu (ieee : Bool) (op a b c : Nat) : Nat × Nat :=
  match op with
  | 0x01 => (a, 0)
  | 0x02 => fadd ieee a b
  | 0x03 => fsub ieee a b
  | 0x04 => fmul ieee a b
  | 0x05 => ffma ieee a b c
  | 0x06 => fmax ieee a b
  | 0x07 => fmin ieee a b
  | 0x08 => fabs32 ieee a
  | 0x09 => fneg32 ieee a
  | 0x0A => fdiv ieee a b
  | 0x0B => fsqrt ieee a
  | 0x0C => frcp ieee a
  | 0x0D => frsqrt ieee a
  | 0x0E => fexp2 ieee a
  | 0x0F => flog2 ieee a
  | 0x10 => fexp ieee a
  | 0x11 => fln ieee a
  | 0x12 => fsigmoid ieee a
  | 0x13 => ftanh ieee a
  | 0x20 => intResult 32 ieee (sx 32 a + sx 32 b)
  | 0x21 => intResult 32 ieee (sx 32 a - sx 32 b)
  | 0x22 => intResult 32 ieee (sx 32 a * sx 32 b)
  | 0x23 => (if sx 32 a < sx 32 b then b else a, 0)
  | 0x24 => (if sx 32 b < sx 32 a then b else a, 0)
  | 0x25 => (a &&& b, 0)
  | 0x26 => (a ||| b, 0)
  | 0x27 => (a ^^^ b, 0)
  | 0x28 => ((a <<< (b % 32)) % 2 ^ 32, 0)
  | 0x29 => (a >>> (b % 32), 0)
  | 0x2A => (ux 32 (sx 32 a / 2 ^ (b % 32)), 0)
  | 0x40 => f2i ieee a
  | _ => i2f ieee a

/-- Comparisons (R131). -/
def eeCmp (op a b : Nat) : Bool :=
  if op < 0x34 then fcmp (op - 0x30) a b
  else if op = 0x34 then decide (sx 32 a < sx 32 b)
  else decide (a = b)

/-- The lanes of a row being executed: registers, masks, lane flags, flags of the row, and what was written to OUT0 and OUT1. -/
structure RowSt where
  v : Tab W32
  m : Tab Bool
  fl : Tab Nat
  o0 : Tab Nat := []
  o1 : Tab Nat := []

/-- What a row reads: constants, plane cells and input elements by lane. -/
structure RowIn where
  ieee : Bool
  consts : List W32
  row : Nat
  lanes : List Nat
  plane : Tab Nat
  ins : Tab Nat

/-- A source in lane j (R129). -/
def RowSt.src (s : RowSt) (k : RowIn) (j x : Nat) : Nat :=
  if x < 16 then (Tab.get 0 s.v (128 * x + j)).toNat
  else if x < 24 then (k.consts.getD (x - 16) 0).toNat
  else if x = 24 then Tab.get 0 k.plane j
  else if x < 28 then Tab.get 0 k.ins (128 * (x - 25) + j)
  else if x = 28 then j
  else if x = 29 then k.row
  else 0

/-- Mask q of lane j (R129). -/
def RowSt.mask (s : RowSt) (q j : Nat) : Bool := q == 0 || Tab.get false s.m (128 * q + j)

/-- Lane flags keep INVALID, OVERFLOW, UNDERFLOW and INT_OVF (R134). -/
def RowSt.flag (s : RowSt) (j f : Nat) : RowSt :=
  if f = 0 then s else { s with fl := Tab.set 0 s.fl j (Tab.get 0 s.fl j ||| (f % 16)) }

/-- Write a destination in lane j. -/
def RowSt.write (s : RowSt) (j d x : Nat) : RowSt :=
  if d < 16 then { s with v := Tab.set 0 s.v (128 * d + j) (BitVec.ofNat 32 x) }
  else if d = 16 then { s with o0 := Tab.put s.o0 j x }
  else { s with o1 := Tab.put s.o1 j x }

/-- A reduction over the row's active lanes (R131): RSUM, RMAX, RMIN. -/
def eeReduce (ieee : Bool) (op : Nat) (xs : List Nat) : Nat × Nat :=
  if op = 0x48 then (xs.foldl (fun (a : Sum320) x => a.addFp .fp32 x) {}).toFp .fp32 ieee
  else match xs with
    | [] => (FF.fp32.nan, 0)
    | x :: t =>
      let r := t.foldl (if op = 0x49 then fmaxBits else fminBits) x
      ((fclamp ieee (match FF.fp32.val r with
        | .nan => FF.fp32.nan
        | _ => r)).1, 0)

/-- Execute one instruction in every active lane (R124, R131, R133). -/
def RowSt.exec (s : RowSt) (k : RowIn) (i : EeI) : RowSt :=
  let on (j : Nat) : Bool := s.mask i.mask j != i.mneg
  if i.op = 0 then s
  else if eeCompares i.op then
    k.lanes.foldl (fun t j =>
      if on j then { t with m := Tab.set false t.m (128 * (i.dst % 4) + j) (eeCmp i.op (s.src k j i.a) (s.src k j i.b)) } else t) s
  else if i.op = 0x38 then
    k.lanes.foldl (fun t j => t.write j i.dst (if on j then s.src k j i.a else s.src k j i.b)) s
  else if 0x48 ≤ i.op then
    let r := eeReduce k.ieee i.op (k.lanes.map fun j => s.src k j i.a)
    k.lanes.foldl (fun t j => if on j then (t.write j i.dst r.1).flag j r.2 else t) s
  else
    k.lanes.foldl (fun t j =>
      if on j then
        let r := eeAlu k.ieee i.op (s.src k j i.a) (s.src k j i.b) (s.src k j i.c)
        (t.write j i.dst r.1).flag j r.2
      else t) s

/-- The address in bits of element (r, j) of stream i (R127). -/
def EeD.addr (e : EeD) (i r j : Nat) : Nat :=
  let w := sfBits (e.fmt i)
  let pitch := if i < 3 then e.inPitch else e.outPitch
  if e.plane?.isSome then
    if e.isTrans i then 8 * (e.base i + j * pitch) + r * w else 8 * (e.base i + r * pitch) + j * w
  else 8 * e.base i + (128 * r + j) * w

/-- The scale base of stream i (R127). -/
def EeD.scaleBase (e : EeD) (i : Nat) : Nat :=
  if i < 3 then
    if e.plane?.isSome then e.base i + 128 * e.inPitch else e.base i + cdiv e.nElem 128 * (16 * sfBits (e.fmt i))
  else e.outScale i

end Sys2Proof.Machine
end

