-- ==== Sys2Proof/Machine/Flags.lean ====
section
/-! DEFINITION. The arithmetic flags and flush counts of the logical tiles (R51 to R53). -/

namespace Sys2Proof.Machine

/-- The flag FLUSH_SAT (R51). -/
def flFlushSat : Nat := 64

/-- The flag MASKED_ROW (R51). -/
def flMaskedRow : Nat := 32

/-- OR flags into CD_ARITH_FLAGSi of logical tile i (R51). -/
def ComputeDie.orFlags (c : ComputeDie) (i fl : Nat) : ComputeDie :=
  { c with flags := Tab.set 0 c.flags i (Tab.get 0 c.flags i ||| fl) }

/-- Count flushed elements in CD_FLUSH_COUNTi (R52): saturating, and FLUSH_SAT when the count is at its maximum. -/
def ComputeDie.addFlush (c : ComputeDie) (i n : Nat) : ComputeDie :=
  if n = 0 then c
  else
    let v := sat 32 (Tab.get 0 c.flush i + n)
    let c := { c with flush := Tab.set 0 c.flush i v }
    if v = 0xFFFFFFFF then c.orFlags i flFlushSat else c

/-- Software writes CD_ARITH_FLAGSi: the bits written 1 clear (R9, R51). -/
def ComputeDie.clearFlags (c : ComputeDie) (i w : Nat) : ComputeDie :=
  { c with flags := Tab.set 0 c.flags i (Tab.get 0 c.flags i - (Tab.get 0 c.flags i &&& (w % 128))) }

/-- OR flags and count flushes for a logical tile of die d. -/
def State.orFlags (s : State) (d i fl flush : Nat) : State := s.modCd d fun c => (c.orFlags i fl).addFlush i flush

end Sys2Proof.Machine
end

