-- ==== Sys2Proof/Machine/Ee.lean ====
section
/-! DEFINITION. EE.RUN, EE.COMPRESS and EE.EXPAND: issue, rows, completion (R124 to R142). -/

namespace Sys2Proof.Machine

/-- An engine instruction starts: lane flags clear, EE_RUNS rises (R134, R140). -/
def EeU.start (u : EeU) (r : EeRun) : EeU := { u with run := some r, laneFlags := [], runs := u.runs + 1 }

/-- EE.RUN (R124 to R137): the program block is copied, registers and masks clear, a plane source drains. -/
def execEeRun (d : CdId) (p : PTile) (rd rs1 rs2 : Fin 32) (s : State) : Out :=
  s.issue d p 0x10 0 rd rs1 rs2 true true
    (fun s k => eeRunChecks (s.tile k.d k.p) (s.cx k.ctx).urCompat k.desc)
    (fun s k => s.modTile k.d k.p fun t =>
      let e := eeD k.desc
      let blk := eeBlock t.mem.dmem e
      let l := eeSlots (blk.2.map eeI)
      let run : EeRun := { kind := 0, desc := k.desc, prog := blk.2.map (BitVec.ofNat 32), consts := blk.1.map (BitVec.ofNat 32),
                           tag := k.tag, lrc := k.lrc, ltile := k.i, ieee := (s.cx k.ctx).ieee, rows := e.allRows, slots := l,
                           total := e.allRows * l + 12, startNs := s.aonNs }
      { t with ee := { (t.ee.start run) with vregs := [], masks := [] },
               arr := match e.plane? with
                 | some n => t.arr.setPlaneSt n .draining
                 | none => t.arr })

/-- The input elements of a row in active lanes, with the flags their widening raises in each lane (R127, R45). -/
def EeRun.inputs (q : EeRun) (e : EeD) (os : Mem) (draw : Nat) (ins lanes : List Nat) : Tab Nat × Tab Nat :=
  ins.foldl (fun (a : Tab Nat × Tab Nat) i =>
    lanes.foldl (fun (a : Tab Nat × Tab Nat) j =>
      let f := e.fmt i
      let raw := rdBits os q.taint draw (e.addr i q.row j) (sfBits f)
      let sc := if (sfMx f).isSome then rdBits os q.taint draw (8 * (e.scaleBase i + 4 * q.row + j / 32)) 8 else 0
      let v := sfDecode q.ieee f sc raw
      (Tab.put a.1 (128 * i + j) v.1, if v.2 = 0 then a.2 else Tab.set 0 a.2 j (Tab.get 0 a.2 j ||| v.2))) a) ([], [])

/-- One output row: bytes written, flags, flushes (R64, R127, R133, R135). -/
def EeRun.output (q : EeRun) (e : EeD) (os : Mem) (i : Nat) (vals : Tab Nat) : Mem × Nat × Nat :=
  let f := e.fmt i
  match sfMx f with
  | none =>
    vals.foldl (fun (a : Mem × Nat × Nat) v =>
      let x := sfEncode q.ieee f v.2
      (storeBits a.1 (e.addr i q.row v.1) (sfBits f) x.1, a.2.1 ||| x.2, a.2.2)) (os, 0, 0)
  | some g =>
    (List.range (e.cols / 32)).foldl (fun (a : Mem × Nat × Nat) b =>
      let blk := mxEncode g ((List.range 32).map fun l => Tab.get 0 vals (32 * b + l))
      let os := Mem.writeLe a.1 (e.scaleBase i + 4 * q.row + b) 1 blk.1
      let os := (List.range 32).foldl (fun os l =>
        if Tab.has vals (32 * b + l) then storeBits os (e.addr i q.row (32 * b + l)) (sfBits f) (blk.2.1.getD l 0) else os) os
      (os, a.2.1 ||| (if blk.2.2.1 then flMxSpecial else 0), a.2.2 + blk.2.2.2)) (os, 0, 0)

/-- The ranges of the operand store a row's output touches, for the passes that read them (R125). -/
def EeRun.outRanges (q : EeRun) (e : EeD) (i : Nat) (vals : Tab Nat) : List (Nat × Nat) :=
  vals.map (fun v => (e.addr i q.row v.1 / 8, cdiv (sfBits (e.fmt i)) 8)) ++
  (if (sfMx (e.fmt i)).isSome then [(e.scaleBase i + 4 * q.row, e.cols / 32)] else [])

/-- Engine writes mark the passes in flight (R125). -/
def ArrayU.engineWrote (a : ArrayU) (rs : List (Nat × Nat)) : ArrayU :=
  { a with passes := a.passes.map fun p => { p with taint := rs ++ p.taint } }

/-- The summary after a row's OUT0 values (R136). -/
def EeRun.summarise (q : EeRun) (op : Nat) (vals : Tab Nat) : EeRun :=
  vals.foldl (fun q v =>
    let x := v.2
    let q := match FF.fp32.val x with
      | .nan => { q with sumNan := true }
      | .inf _ => { q with sumInf := true }
      | .fin .. => q
    if op = 0 then
      let u : Sum320 := { a := q.sum.a, nan := q.sum.nan, pinf := q.sum.pinf, ninf := q.sum.ninf, nonnegz := q.sum.nonnegz,
                          count := q.sum.count }
      let u := u.addFp .fp32 x
      { q with sum := { q.sum with a := u.a, nan := u.nan, pinf := u.pinf, ninf := u.ninf, nonnegz := u.nonnegz, count := u.count } }
    else
      { q with sumMax := some (BitVec.ofNat 32 (match q.sumMax with
          | none => x
          | some y => (if op = 1 then fmaxBits else fminBits) y.toNat x)) }) q

/-- Everything one row of an EE.RUN does to its tile (R124 to R136): the tile, and the flags and flushes for its logical tile. -/
def Tile.eeRow (t : Tile) (q : EeRun) (draw : Nat) : Tile × Nat × Nat :=
  let e := eeD q.desc
  let lanes := (List.range 128).filter fun j => e.active q.row j
  let prog := q.prog.map fun w => eeI w.toNat
  let cells := match e.plane? with
    | some n => lanes.map fun j => (j, (Tab.get {} (t.arr.plane n).cells (128 * q.row + j) : CellV).read (t.arr.plane n).int32 q.ieee)
    | none => []
  let ins := q.inputs e t.os draw (eeIns prog) lanes
  let k : RowIn := { ieee := q.ieee, consts := q.consts, row := q.row, lanes := lanes, plane := cells.map fun c => (c.1, c.2.1),
                     ins := ins.1 }
  let st0 : RowSt := { v := t.ee.vregs, m := t.ee.masks, fl := ins.2 }
  let st : RowSt := prog.foldl (fun (st : RowSt) i => st.exec k i) st0
  let outs := if lanes = [] then [] else eeOuts prog
  let w0 := if outs.contains 3 then q.output e t.os 3 st.o0 else (t.os, 0, 0)
  let w1 := if outs.contains 4 then q.output e w0.1 4 st.o1 else (w0.1, 0, 0)
  let lane := st.fl.foldl (fun a f => a ||| f.2) 0
  let fl := cells.foldl (fun a c => a ||| c.2.2) 0 ||| lane ||| w0.2.1 ||| w1.2.1
  let q' := { (if e.summary then q.summarise e.sumOp st.o0 else q) with row := q.row + 1 }
  ({ t with os := w1.1,
            arr := { (t.arr.engineWrote ((if outs.contains 3 then q.outRanges e 3 st.o0 else []) ++
                        (if outs.contains 4 then q.outRanges e 4 st.o1 else []))) with
                     evDrain := if e.plane?.isSome then t.arr.evDrain.add 1 else t.arr.evDrain },
            ee := { t.ee with run := some q', vregs := st.v, masks := st.m,
                              laneFlags := st.fl.foldl (fun a f => Tab.set 0 a f.1 (Tab.get 0 a f.1 ||| f.2)) t.ee.laneFlags } },
   fl, w0.2.2 + w1.2.2)

/-- The running EE.RUN ends a row (R124, R134). -/
def execEeRowEnd (d : CdId) (p : PTile) (s : State) : Out :=
  let t := s.tile d p
  match t.ee.run with
  | none => .next s
  | some q =>
    if q.kind ≠ 0 ∨ q.rows ≤ q.row then .next s
    else
      let r := t.eeRow q s.free
      .next (((s.modTile d p fun _ => r.1).orFlags d q.ltile r.2.1 r.2.2).drew)

/-- The summary an EE.RUN leaves (R95, R136): value and INVALID or OVERFLOW flags of its rounding. -/
def EeRun.summaryVal (q : EeRun) (op : Nat) (free : Word) : Nat × Nat :=
  if op = 0 then
    ({ a := q.sum.a, nan := q.sum.nan, pinf := q.sum.pinf, ninf := q.sum.ninf, nonnegz := q.sum.nonnegz,
       count := q.sum.count } : Sum320).toFp .fp32 q.ieee
  else match q.sumMax with
    | none => (free.toNat % 2 ^ 32, 0)
    | some x => (match FF.fp32.val x.toNat with
        | .nan => FF.fp32.nan
        | _ => x.toNat, 0)

/-- The running EE.RUN completes (R107, R110, R136): its plane is EMPTY and cleared, its summary written, its tag clear. -/
def execEeRunComplete (d : CdId) (p : PTile) (s : State) : Out :=
  let t := s.tile d p
  match t.ee.run with
  | none => .next s
  | some q =>
    if q.kind ≠ 0 ∨ q.row < q.rows then .next s
    else
      let e := eeD q.desc
      let v := q.summaryVal e.sumOp s.fresh
      let s := s.modTile d p fun t =>
        { t with ee := { t.ee with run := none },
                 arr := match e.plane? with
                   | some n => t.arr.setPlane n {}
                   | none => t.arr,
                 mule := if e.summary then
                     { t.mule with sumVal := BitVec.ofNat 32 v.1, sumValid := true, sumNan := q.sumNan, sumInf := q.sumInf }
                   else t.mule }
      let s := if e.summary then (s.orFlags d q.ltile v.2 0).drew else s
      .next (s.tagDone d q.ltile q.tag)

/-- The EE.COMPRESS and EE.EXPAND descriptor (R138). -/
structure CxD where
  n : Nat
  esize : Nat
  mode : Nat
  src : Nat
  mask : Nat
  dst : Nat
  count : Nat
  fill : Nat
  idx : Nat
  deriving DecidableEq, Repr

def cxD (b : List Byte) : CxD :=
  { n := fld b 8 4, esize := fld b 12 1, mode := fld b 13 1, src := fld b 16 4, mask := fld b 20 4, dst := fld b 24 4,
    count := fld b 28 4, fill := fld b 32 4, idx := fld b 36 4 }

def CxD.maskSrc (c : CxD) : Nat := bits c.mode 1 0
def CxD.index (c : CxD) : Bool := bit c.mode 2
def CxD.keep (c : CxD) : Bool := bit c.mode 3

/-- Whether two byte ranges overlap. -/
def overlap (a n b m : Nat) : Bool := decide (n ≠ 0 ∧ m ≠ 0 ∧ a < b + m ∧ b < a + n)

/-- The refusals of R139 in the orders of R87. -/
def cxChecks (t : Tile) (expand : Bool) (desc : List Byte) : UnitChecks :=
  let c := cxD desc
  let srcN := c.n * c.esize
  let dstN := if c.index then 4 * c.n else c.n * c.esize
  let maskN := if c.maskSrc = 0 then cdiv c.n 8 else 0
  { align := [(decide (c.src % 128 ≠ 0) || (decide (c.maskSrc = 0) && decide (c.mask % 128 ≠ 0)) || decide (c.dst % 128 ≠ 0) ||
               decide (c.count % 4 ≠ 0), .align)],
    arg := [(decide (fld desc 4 2 ≠ 32) || !zeroAt desc 14 2 || !zeroAt desc 40 24 || decide (16 ≤ c.mode), .badarg),
            (decide (fld desc 2 1 ≠ 0), .badarg), (!([1, 2, 4].contains c.esize), .badarg),
            (c.index && (expand || decide (c.esize ≠ 4)), .badarg), (c.keep && !expand, .badarg),
            (decide (c.maskSrc = 3) || (expand && decide (c.maskSrc ≠ 0)), .badarg), (decide (4194304 < c.n), .badarg),
            ((overlap c.src srcN c.dst dstN && (expand || decide (c.src ≠ c.dst))) || overlap c.mask maskN c.dst dstN, .badarg)],
    range := [(osOut c.src 0 1 srcN || osOut c.mask 0 1 maskN || osOut c.dst 0 1 dstN, .range),
              (decide (0x80000 < c.count + 4), .range)],
    unit := eeUnit t }

/-- Start a compress (kind 1) or an expand (kind 2). -/
def State.cxStart (s : State) (k : Issue) (kind : Nat) : State :=
  s.modEe k.d k.p fun u =>
    u.start { kind := kind, desc := k.desc, tag := k.tag, lrc := k.lrc, ltile := k.i, total := cdiv (cxD k.desc).n 128 + 12,
              startNs := s.aonNs }

/-- EE.COMPRESS (R138, R139). -/
def execEeCompress (d : CdId) (p : PTile) (rd rs1 rs2 : Fin 32) (s : State) : Out :=
  s.issue d p 0x11 0 rd rs1 rs2 true true (fun s k => cxChecks (s.tile k.d k.p) false k.desc) (fun s k => s.cxStart k 1)

/-- EE.EXPAND (R138, R139). -/
def execEeExpand (d : CdId) (p : PTile) (rd rs1 rs2 : Fin 32) (s : State) : Out :=
  s.issue d p 0x12 0 rd rs1 rs2 true true (fun s k => cxChecks (s.tile k.d k.p) true k.desc) (fun s k => s.cxStart k 2)

/-- Element e of the source as stored. -/
def CxD.elem (c : CxD) (os : Mem) (taint : List (Nat × Nat)) (draw e : Nat) : Nat :=
  rdBits os taint draw (8 * (c.src + e * c.esize)) (8 * c.esize)

/-- Whether element e is active (R138). -/
def CxD.on (c : CxD) (os : Mem) (taint : List (Nat × Nat)) (draw e : Nat) : Bool :=
  match c.maskSrc with
  | 0 => bit (rdBits os taint draw (8 * (c.mask + e / 8)) 8) (e % 8)
  | 1 => decide (c.elem os taint draw e ≠ 0)
  | _ => decide (c.elem os taint draw e % 2 ^ (8 * c.esize - 1) ≠ 0)

/-- Compress elements `e0` up to `e1`, `n` already written: the store and the count. -/
def CxD.compress (c : CxD) (os : Mem) (taint : List (Nat × Nat)) (draw e0 e1 n : Nat) : Mem × Nat :=
  (List.range (e1 - e0)).foldl (fun (a : Mem × Nat) i =>
    let e := e0 + i
    if c.on os taint draw e then
      (if c.index then Mem.writeLe a.1 (c.dst + 4 * a.2) 4 (c.idx + e)
       else Mem.writeLe a.1 (c.dst + c.esize * a.2) c.esize (c.elem os taint draw e), a.2 + 1)
    else a) (os, n)

/-- Expand elements `e0` up to `e1`, `n` packed elements already taken. -/
def CxD.expand (c : CxD) (os : Mem) (taint : List (Nat × Nat)) (draw e0 e1 n : Nat) : Mem × Nat :=
  (List.range (e1 - e0)).foldl (fun (a : Mem × Nat) i =>
    let e := e0 + i
    if c.on os taint draw e then (Mem.writeLe a.1 (c.dst + c.esize * e) c.esize (c.elem os taint draw a.2), a.2 + 1)
    else (if c.keep then a.1 else Mem.writeLe a.1 (c.dst + c.esize * e) c.esize c.fill, a.2)) (os, n)

/-- The elements from the resume point on, done up to element `e1`: tile and count. -/
def Tile.cxRun (t : Tile) (q : EeRun) (draw e1 : Nat) : Tile × Nat :=
  let c := cxD q.desc
  let r := if q.kind = 1 then c.compress t.os q.taint draw q.row e1 q.count else c.expand t.os q.taint draw q.row e1 q.count
  let range := if q.kind = 1 then (c.dst + (if c.index then 4 else c.esize) * q.count, (if c.index then 4 else c.esize) * (r.2 - q.count))
    else (c.dst + c.esize * q.row, c.esize * (e1 - q.row))
  ({ t with os := r.1, arr := t.arr.engineWrote [range] }, r.2)

/-- A compress or expand completes (R138): its elements, the count to data memory and EE_LAST_COUNT, its tag clear. -/
def State.cxComplete (s : State) (d p kind : Nat) : State :=
  let t := s.tile d p
  match t.ee.run with
  | none => s
  | some q =>
    if q.kind ≠ kind then s
    else
      let c := cxD q.desc
      let r := t.cxRun q s.free c.n
      let s := (s.modTile d p fun _ =>
        { r.1 with ee := { r.1.ee with run := none, lastCount := r.2 },
                   mem := { r.1.mem with dmem := Mem.writeLe r.1.mem.dmem c.count 4 r.2 } }).drew
      s.tagDone d q.ltile q.tag

/-- EE.COMPRESS completes. -/
def execEeCompressComplete (d : CdId) (p : PTile) (s : State) : Out := .next (s.cxComplete d p 1)

/-- EE.EXPAND completes. -/
def execEeExpandComplete (d : CdId) (p : PTile) (s : State) : Out := .next (s.cxComplete d p 2)

end Sys2Proof.Machine
end

