-- ==== Sys2Proof/Machine/MemOps.lean ====
section
/-! DEFINITION. System addresses, the stacks, translation and page faults, atomics (R178, R179, R198 to R216, R333, R334). -/

namespace Sys2Proof.Machine

/-- Where a system address leads (R205). -/
inductive Target where
  | dev (a : Nat)
  | peer (m p : Nat)
  | hole
  deriving DecidableEq, Repr

/-- The target of a 44-bit system address (R205). -/
def State.target (s : State) (a : Nat) : Target :=
  if a < 2 ^ 41 then (if a % 2 ^ 37 < 0x1800000000 then .dev a else .hole)
  else if a < 0xA0000000000 then
    (if a / 2 ^ 41 - 1 = s.pins.member then .hole else .peer (a / 2 ^ 41 - 1) (a % 2 ^ 41))
  else .hole

/-- Whether a board link is UP in board mode towards member m (R205). -/
def State.peerLink (s : State) (m l : Nat) : Bool :=
  decide ((s.link l).st = .up) && (s.link l).board && (s.link l).peerBoard && (s.link l).peerMember == m

/-- The link an access to address p of member m takes (R333, R334), if the member is reachable. -/
def State.peerRoute (s : State) (m p : Nat) : Option Nat :=
  let lo := 28 + 2 * ((m + 4 - s.pins.member) % 4)
  let want := if bit p 8 then lo + 1 else lo
  let other := if bit p 8 then lo else lo + 1
  if s.peerLink m want then some want else if s.peerLink m other then some other else none

/-- The line of a device physical address. -/
def lineOf (a : Nat) : Nat := a / 64

/-- Logical pseudo-channel of a stack offset (R198). -/
def pcOf (o : Nat) : Nat := bits o 12 8 ^^^ bits o 17 13

/-- Read bytes within one line of device memory (R19, R199). -/
def State.devRead (s : State) (a n : Nat) : Except Err (List Byte) :=
  if !(s.dieIn (a / 2 ^ 37)) || Tab.get false s.poison (lineOf a) then .error .uncorr else .ok (Mem.readN s.hbm a n)

/-- Write bytes within one line of device memory (R199): all 64 bytes replace poison, a part of a poisoned line fails. -/
def State.devWrite (s : State) (a : Nat) (bs : List Byte) : Except Err State :=
  if !(s.dieIn (a / 2 ^ 37)) then .error .uncorr
  else if Tab.get false s.poison (lineOf a) && !(decide (bs.length = 64) && decide (a % 64 = 0)) then .error .uncorr
  else .ok { s with hbm := Mem.writeN s.hbm a bs, poison := Tab.set false s.poison (lineOf a) false }

/-- An uncorrectable line is met (R199, R202, R203, R441): poisoned, counted, logged; hard when it recurs after a full rewrite. -/
def State.hbmUe (s : State) (a : Nat) : State :=
  let n := a / 2 ^ 37
  let o := a % 2 ^ 37 / 64 * 64
  let h := (s.cd n).hbm
  let l := pcOf o
  let hard := Tab.get false h.ueSeen (o / 64)
  if Tab.get false s.poison (lineOf a) then s else
  let s := { s with poison := Tab.set false s.poison (lineOf a) true }
  let h' := { h with ue := h.ue + 1, ueSeen := Tab.set false h.ueSeen (o / 64) true,
                     pcUe := Tab.set 0 h.pcUe l (Tab.get 0 h.pcUe l + 1) }
  let s := s.modCd n fun c => { c with hbm := h' }
  let data := leBytes 8 o ++ [BitVec.ofNat 8 (Tab.get l h.pcMap l)]
  let s := s.raise n 0x24 3 .uncorr data 0xFFFF (some 13) 5
  if hard then
    { s with health := { s.health with hard := true, hardUe := s.health.hardUe + 1 } }.raise n 0x24 5 .uncorr data
  else s

/-- Pieces of [a, a + n) that do not cross a 64-byte line: offsets and lengths. -/
def linePieces (a n : Nat) : List (Nat × Nat) :=
  let first := min n (64 - a % 64)
  if n = 0 then [] else
    (0, first) :: (List.range (cdiv (n - first) 64)).map fun i => (first + 64 * i, min 64 (n - first - 64 * i))

/-- Read device memory across lines. -/
def State.devReadN (s : State) (a n : Nat) : Except Err (List Byte) :=
  (linePieces a n).foldl (fun r p =>
    match r with
    | .error e => .error e
    | .ok bs => match s.devRead (a + p.1) p.2 with
      | .error e => .error e
      | .ok b => .ok (bs ++ b)) (.ok [])

/-- Write device memory across lines; stops at the first line that fails. -/
def State.devWriteN (s : State) (a : Nat) (bs : List Byte) : State × Err :=
  (linePieces a bs.length).foldl (fun (r : State × Err) p =>
    if r.2 ≠ Err.ok then r
    else match r.1.devWrite (a + p.1) ((bs.drop p.1).take p.2) with
      | .error e => (r.1, e)
      | .ok s => (s, .ok)) (s, .ok)

/-- The outcome of a translation (R212). -/
inductive Xl where
  | ok (sa : Nat)
  | err (e : Err)
  | fault (level : Nat)
  deriving DecidableEq, Repr

/-- Whether a table or page address is a legal one for its level: in this device's HBM (tables), aligned (R208). -/
def entryBad (level e : Nat) : Bool :=
  let leaf := bit e 1
  let addr := bits e 43 8 * 256
  decide (bits e 7 4 ≠ 0 ∨ bits e 63 44 ≠ 0) ||
  (if level ≤ 2 then leaf else decide (level = 4) && !leaf) ||
  (if leaf then decide (addr % (if level = 3 then 2 ^ 21 else 2 ^ 16) ≠ 0)
   else decide (2 ^ 41 ≤ addr) || decide (0x1800000000 ≤ addr % 2 ^ 37) || decide (addr % (if level = 3 then 256 else 4096) ≠ 0))

/-- Index of a va at a level (R207). -/
def vaIndex (va level : Nat) : Nat :=
  if level = 1 then bits va 47 39 else if level = 2 then bits va 38 30 else if level = 3 then bits va 29 21 else bits va 20 16

/-- Walk from a table at a level (R207, R208, R212): the leaf, or what stops it. -/
def State.walkFrom (s : State) (va : Nat) : Nat → Nat → Bool → Except Xl TlbE
  | 0, _, _ => .error (.err .prot)
  | fuel + 1, table, write =>
    let level := 5 - (fuel + 1)
    match s.devRead (table + 8 * vaIndex va level) 8 with
    | .error e => .error (.err e)
    | .ok bs =>
      let e := leNat bs
      if !bit e 0 then .error (.fault level)
      else if entryBad level e then .error (.err .prot)
      else
        let w := write && bit e 2
        let addr := bits e 43 8 * 256
        if bit e 1 then
          let size := if level = 3 then 2 ^ 21 else 2 ^ 16
          .ok { va := va / size * size, size := size, pa := addr, write := w, pinned := bit e 3 }
        else s.walkFrom va fuel addr w

/-- The table entries of levels 1 to 3 that a walk passes on its way down (R210), as the walk cache holds them. -/
def State.walkPath (s : State) (va : Nat) : Nat → Nat → Bool → List WalkE
  | 0, _, _ => []
  | fuel + 1, table, write =>
    let level := 5 - (fuel + 1)
    match s.devRead (table + 8 * vaIndex va level) 8 with
    | .error _ => []
    | .ok bs =>
      let e := leNat bs
      if !bit e 0 || entryBad level e || bit e 1 then []
      else
        let size := if level = 1 then 2 ^ 39 else if level = 2 then 2 ^ 30 else 2 ^ 21
        let w := write && bit e 2
        let addr := bits e 43 8 * 256
        { level := level, va := va / size * size, size := size, table := addr, write := w } :: s.walkPath va fuel addr w

/-- Where a walk in a slot starts (R210): below the deepest entry its walk cache holds for the va, else at the level-1 table. The
levels left, the table, and WRITE so far. -/
def Trans.walkStart (t : Trans) (slot va l1 : Nat) : Nat × Nat × Bool :=
  let es := (Tab.get [] t.walkc slot).filter fun e : WalkE => decide (e.va ≤ va ∧ va < e.va + e.size)
  match es.foldl (fun (b : Option WalkE) e => if (b.map (·.level)).getD 0 < e.level then some e else b) none with
  | none => (4, l1, true)
  | some e => (4 - e.level, e.table, e.write)

/-- What a walk passed enters the slot's walk cache: 4 entries to a slot, the oldest leaving (R210, log entry 18). -/
def Trans.keep (t : Trans) (slot : Nat) (path : List WalkE) : Trans :=
  let old := (Tab.get [] t.walkc slot).filter fun e => !path.any fun p => p.level == e.level && p.va == e.va
  { t with walkc := Tab.set [] t.walkc slot ((path.reverse ++ old).take 4) }

/-- The translation slot bound to a context on a die, if any. -/
def Trans.slotOf (t : Trans) (x : Nat) : Option Nat :=
  (List.find? (fun e => e.2.bound && e.2.ctx == x) t.slots).map (·.1)

/-- The cached entry of a slot that holds a va. -/
def Trans.hit (t : Trans) (slot va : Nat) : Option TlbE :=
  List.find? (fun e : TlbE => decide (e.va ≤ va ∧ va < e.va + e.size)) (Tab.get [] t.tlb slot)

/-- Cache an entry: at most 512 to a slot, the oldest leaving (R210; the replacement is the model's, log entry 18). -/
def Trans.fill (t : Trans) (slot : Nat) (e : TlbE) : Trans :=
  { t with tlb := Tab.set [] t.tlb slot ((e :: (Tab.get [] t.tlb slot).filter (· ≠ e)).take 512) }

/-- Checks 5 and 6 of R212 on a leaf. -/
def TlbE.use (e : TlbE) (va access : Nat) (remote : Bool) : Xl :=
  if access ≠ 0 ∧ e.write = false then .err .prot
  else if remote && !e.pinned then .err .pagefault
  else .ok (e.pa + (va - e.va))

/-- Translate a va in a slot of die d for an access (0 read, 1 write, 2 atomic), R212. -/
def State.translate (s : State) (d slot va access : Nat) (remote : Bool := false) : State × Xl :=
  let t := (s.cd d).tr
  let b := Tab.get {} t.slots slot
  if 2 ^ 48 ≤ va then (s, .err .range)
  else if !b.bound then (s, .err .pagefault)
  else match t.hit slot va with
    | some e => (s, e.use va access remote)
    | none =>
      let s := s.modCd d fun c => { c with tr := { c.tr with misses := c.tr.misses + 1 } }
      let w := t.walkStart slot va b.l1
      let path := s.walkPath va w.1 w.2.1 w.2.2
      match s.walkFrom va w.1 w.2.1 w.2.2 with
      | .error x => (s.modCd d fun c => { c with tr := c.tr.keep slot path }, x)
      | .ok e => (s.modCd d fun c => { c with tr := { ((c.tr.fill slot e).keep slot path) with walks := c.tr.walks + 1 } },
                  e.use va access remote)

/-- Requesters a record holds. -/
def FaultRec.all (f : FaultRec) : List Requester := f.who :: f.waiters

/-- A fault record as its queue shows it (R213). -/
def FaultRec.bytes (f : FaultRec) : List Byte :=
  leBytes 2 f.id ++ leBytes 2 f.ctx ++ [BitVec.ofNat 8 f.slot, BitVec.ofNat 8 f.who.kind] ++ leBytes 2 f.who.no ++
  [BitVec.ofNat 8 f.access, BitVec.ofNat 8 f.level, BitVec.ofNat 8 (b2n f.stream)] ++ leBytes 5 0 ++ leBytes 8 f.va ++ leBytes 8 f.time

/-- The record of a PAGE_FAULT notice goes to the owner of its context (R406). -/
def State.faultNotice (s : State) (d : Nat) (f : FaultRec) : State :=
  s.notice (s.cx f.ctx).owner 0x0480 ([BitVec.ofNat 8 d] ++ leBytes 7 0 ++ f.bytes)

/-- PF_HEAD names the oldest record (R216). -/
def Trans.headed (t : Trans) : Trans :=
  match t.faults with
  | [] => t
  | f :: _ => { t with pfHead := f.place }

/-- Queue a fault record at the lowest free place; with the queue full it waits (R213). -/
def State.queueFault (s : State) (d : Nat) (f : FaultRec) : State :=
  let t := (s.cd d).tr
  if t.faults.length < 64 then
    let place := ((List.range 64).filter fun i => !(t.faults.any fun g => g.place == i)).headD 0
    let f := { f with id := t.nextId, place := place }
    (s.modCd d fun c => { c with tr := Trans.headed { c.tr with faults := c.tr.faults ++ [f], nextId := (t.nextId + 1) % 2 ^ 16 } }
      ).faultNotice d f
  else s.modCd d fun c => { c with tr := { c.tr with overflow := c.tr.overflow ++ [f] } }

/-- Whether a record or a record to come covers the 64 KiB page of a va in a slot. -/
def FaultRec.covers (f : FaultRec) (slot va : Nat) : Bool := f.slot == slot && f.va / 2 ^ 16 == va / 2 ^ 16

/-- A requester parks on a page fault (R213): on the record of its page when one is pending, else on a new one. -/
def State.parkFault (s : State) (d slot x : Nat) (who : Requester) (access level : Nat) (stream : Bool) (va : Nat) : State :=
  let t := (s.cd d).tr
  let add (l : List FaultRec) : List FaultRec :=
    l.map fun f => if f.covers slot va then { f with waiters := f.waiters ++ [who] } else f
  if t.faults.any fun f => f.covers slot va then s.modCd d fun c => { c with tr := { c.tr with faults := add c.tr.faults } }
  else
    s.queueFault d { ctx := x, slot := slot, who := who, access := access, level := level, stream := stream, va := va,
                     time := s.stamp }

/-- A record waiting for room is queued as space frees (R213). -/
def State.refillFaults (s : State) (d : Nat) : State :=
  match (s.cd d).tr.overflow with
  | [] => s
  | f :: rest =>
    if (s.cd d).tr.faults.length < 64 then
      (s.modCd d fun c => { c with tr := { c.tr with overflow := rest } }).queueFault d f
    else s

/-- The atomic operations (R178, R179): width, then the new value and flags from the old value and the 16-byte operand. -/
def aopWidth (op : Nat) : Nat := if op = 1 ∨ 7 ≤ op then 8 else 4

def aopApply (ieee : Bool) (op old operand : Nat) : Nat × Nat :=
  let a := operand % 2 ^ 32
  let w := operand % 2 ^ 64
  match op with
  | 0x0 => ((old + a) % 2 ^ 32, 0)
  | 0x1 => ((old + w) % 2 ^ 64, 0)
  | 0x2 => fadd ieee old a
  | 0x3 => (min old a, 0)
  | 0x4 => (max old a, 0)
  | 0x5 => (fminBits old a, 0)
  | 0x6 => (fmaxBits old a, 0)
  | 0x7 => (old ||| w, 0)
  | 0x8 => (old &&& w, 0)
  | 0x9 => (w, 0)
  | _ => (if old = w then operand / 2 ^ 64 else old, 0)

/-- An atomic executed by the controller that owns its line (R179): the old value and flags, or why it fails. -/
def State.devAtomic (s : State) (ieee : Bool) (a op operand : Nat) : Except Err (State × Nat × Nat) :=
  let w := aopWidth op
  match s.devRead a w with
  | .error e => .error e
  | .ok bs =>
    let old := leNat bs
    let r := aopApply ieee op old operand
    match s.devWrite a (leBytes w r.1) with
    | .error e => .error e
    | .ok s => .ok (s, old, r.2)

/-- A request a die sends over a board link (R334, R335). -/
def State.peerSend (s : State) (d m p kind : Nat) (sched : Bool) (x tag : Nat) (len aop : Nat) (data : List Byte) : State :=
  match s.peerRoute m p with
  | none => s
  | some l =>
    let payload := leBytes 8 p ++ [BitVec.ofNat 8 len, BitVec.ofNat 8 aop, BitVec.ofNat 8 d, 0] ++ leBytes 4 tag ++ data
    let h : Hdr := { net := 0, cls := if sched then 0 else 1, kind := kind, ctx := x, route := route2 l (36 + p / 2 ^ 37) }
    s.emit (.send d (s.packet h payload))

end Sys2Proof.Machine
end

