-- ==== Sys2Proof/Machine/Dma.lean ====
section
/-! DEFINITION. The DMA engines (R84, R217 to R221). -/

namespace Sys2Proof.Machine

/-- The DMA.COPY descriptor (R217). -/
structure DmaD where
  engine : Nat
  spaces : Nat
  window : Nat
  rows : Nat
  rowLen : Nat
  srcPitch : Nat
  dstPitch : Nat
  src : Nat
  dst : Nat
  streams : Nat
  deriving DecidableEq, Repr

def dmaD (b : List Byte) : DmaD :=
  { engine := fld b 8 1, spaces := fld b 9 1, window := fld b 10 1, rows := fld b 12 4, rowLen := fld b 16 4,
    srcPitch := fld b 20 4, dstPitch := fld b 24 4, src := fld b 28 8, dst := fld b 36 8, streams := fld b 2 1 }

def DmaD.srcSpace (c : DmaD) : Nat := bits c.spaces 1 0
def DmaD.dstSpace (c : DmaD) : Nat := bits c.spaces 3 2
def DmaD.remote (c : DmaD) : Bool := bit c.spaces 4
def DmaD.srcStream (c : DmaD) : Bool := bit c.streams 4
def DmaD.dstStream (c : DmaD) : Bool := bit c.streams 5
def DmaD.bytes (c : DmaD) : Nat := c.rows * c.rowLen

/-- Bytes of a space: operand store, data memory, window B. -/
def spaceSize (sp : Nat) : Nat := if sp = 1 then 2 ^ 24 else if sp = 2 then 0x80000 else 0x40000

/-- Whether a side's range leaves its space (R219). -/
def spaceOut (sp base pitch rows len : Nat) (stream : Bool) : Bool :=
  if sp = 0 then !stream && decide (2 ^ 48 ≤ base) else decide (spaceSize sp < base + (rows - 1) * pitch + len)

/-- The refusals of R219 and R84 in the orders of R87. -/
def dmaChecks (s : State) (k : Issue) : UnitChecks :=
  let c := dmaD k.desc
  let e := Tab.get {} (s.cd k.d).dma.engines c.engine
  { align := [(decide (c.rowLen % 4 ≠ 0 ∨ c.srcPitch % 4 ≠ 0 ∨ c.dstPitch % 4 ≠ 0) ||
               (!c.srcStream && decide (c.src % 4 ≠ 0)) || (!c.dstStream && decide (c.dst % 4 ≠ 0)), .align)],
    arg := [(decide (fld k.desc 4 2 ≠ 36) || decide (32 ≤ c.spaces) || !zeroAt k.desc 11 1 || !zeroAt k.desc 44 20 ||
             (!c.remote && decide (c.window ≠ 0)), .badarg),
            (decide (c.srcSpace = 3) || decide (c.rows = 0 ∨ 65536 < c.rows) || decide (c.rowLen = 0 ∨ 2 ^ 30 < c.rowLen), .badarg),
            (c.remote && decide (c.srcSpace ≠ 0), .badarg),
            ((c.srcStream && decide (c.srcSpace ≠ 0)) || (c.dstStream && decide (c.dstSpace ≠ 0)), .badarg)],
    range := [(decide (c.engine / 2 ≠ k.i), .range),
              ((!c.remote && spaceOut c.srcSpace c.src c.srcPitch c.rows c.rowLen c.srcStream) ||
               spaceOut c.dstSpace c.dst c.dstPitch c.rows c.rowLen c.dstStream, .range),
              (c.remote && decide ((Tab.get {} (s.cxx k.ctx).windows c.window).len = 0), .range)],
    unit := [(decide ((s.tile k.d k.p).sleep.st ≠ .running), .unitBusy),
             (e.disabled || e.draining || decide (3 ≤ e.st) || (decide (e.st ≠ 0) && decide (3 ≤ e.queue.length)), .unitBusy)] }

/-- Change a DMA engine. -/
def State.modEng (s : State) (d e : Nat) (f : DmaEng → DmaEng) : State :=
  s.modCd d fun c => { c with dma := { c.dma with engines := Tab.modify {} c.dma.engines e f } }

/-- Whether an engine instruction of a tile writes window B (LOAD_BUSY, R78). -/
def ComputeDie.loadsB (c : ComputeDie) (i : Nat) : Bool :=
  c.dma.engines.any fun e => e.2.st ≠ 0 &&
    (e.2.cur :: e.2.queue).any fun q => q.ltile == i && (dmaD q.desc).dstSpace == 3

/-- LOAD_BUSY of a logical tile follows its engines. -/
def State.setLoadBusy (s : State) (d i : Nat) : State :=
  s.modMule d ((s.cd d).map.phys i) fun m => { m with loadBusy := (s.cd d).loadsB i }

/-- DMA.COPY (R217, R219): the engine named takes it, or queues it behind up to three others. -/
def execDmaCopy (d : CdId) (p : PTile) (rd rs1 rs2 : Fin 32) (s : State) : Out :=
  s.issue d p 0x18 0 rd rs1 rs2 true true dmaChecks
    (fun s k =>
      let q : DmaInst := { desc := k.desc, tag := k.tag, lrc := k.lrc, ltile := k.i, ctx := k.ctx }
      (s.modEng k.d (dmaD k.desc).engine fun e =>
        if e.st = 0 then { e with st := 1, cur := q, resume := 0, code := .ok, faultVa := 0 } else { e with queue := e.queue ++ [q] }
        ).setLoadBusy k.d k.i)

/-- A copy in progress: the state, the bytes written, the remote answers left, why it stops. -/
inductive CpEnd where
  | go
  | err (e : Err)
  | park (level va access : Nat)
  | wait
  deriving DecidableEq, Repr

structure Cp where
  s : State
  far : List FarRead
  at_ : Nat := 0
  stop : CpEnd := .go

/-- Where one access of a copy goes. -/
inductive Acc1 where
  | mem (a : Nat)
  | far (m p : Nat)
  | window
  | stop (e : CpEnd)
  deriving DecidableEq, Repr

/-- Resolve a va of a copy (R205, R212). -/
def State.copyTarget (s : State) (d slot va access : Nat) : State × Acc1 :=
  match s.translate d slot va access with
  | (s, .err e) => (s, .stop (.err e))
  | (s, .fault l) => (s, .stop (.park l va access))
  | (s, .ok sa) =>
    match s.target sa with
    | .hole => (s, .stop (.err .range))
    | .dev a => (s, .mem a)
    | .peer m p => (s, if (s.peerRoute m p).isSome then .far m p else .stop (.err .uncorr))

/-- Take the next remote answer. -/
def Cp.takeFar (c : Cp) (n : Nat) : Cp × List Byte :=
  match c.far with
  | [] => ({ c with stop := .wait }, [])
  | f :: rest =>
    if f.status ≠ Err.ok then ({ c with far := rest, stop := .err f.status }, []) else ({ c with far := rest }, padTo n f.data)

/-- Read `n` bytes of the source within one line at copy offset `o`: the bytes read, fewer when it stops. -/
def Cp.read (c : Cp) (d p slot : Nat) (q : DmaInst) (sp : Nat) (remote : Bool) (a n o : Nat) (ue : Option Nat) (sched : Bool) :
    Cp × List Byte :=
  let t := c.s.tile d p
  let k := dmaD q.desc
  if sp = 1 then (c, Mem.readN t.os a n)
  else if sp = 2 then (c, Mem.readN t.mem.dmem a n)
  else if remote then
    if (Tab.get {} (c.s.cxx q.ctx).windows k.window).len < a + n then ({ c with stop := .err .range }, []) else c.takeFar n
  else
    match c.s.copyTarget d slot a 0 with
    | (s, .stop e) => ({ c with s := s, stop := e }, [])
    | (s, .far m pa) => ({ c with s := s.peerSend d m pa 0x20 sched q.ctx (2 ^ 31 + k.engine) n 0 [] }.takeFar n)
    | (s, .window) => ({ c with s := s }, [])
    | (s, .mem pa) =>
      let s := match ue with
        | some u => if o ≤ u ∧ u < o + n then s.hbmUe pa else s
        | none => s
      match s.devRead pa n with
      | .error e => ({ c with s := s, stop := .err e }, [])
      | .ok bs => ({ c with s := s }, bs)

/-- Write bytes of the destination within one line. -/
def Cp.write (c : Cp) (d p slot : Nat) (q : DmaInst) (sp a : Nat) (bs : List Byte) (sched : Bool) : Cp :=
  let n := bs.length
  let k := dmaD q.desc
  if n = 0 then c
  else if sp = 1 then { c with s := c.s.modTile d p fun t => t.osWrite a bs, at_ := c.at_ + n }
  else if sp = 2 then { c with s := c.s.modMem d p fun m => { m with dmem := Mem.writeN m.dmem a bs }, at_ := c.at_ + n }
  else if sp = 3 then { c with s := c.s.modTile d p fun t => t.modB fun m => Mem.writeN m a bs, at_ := c.at_ + n }
  else
    match c.s.copyTarget d slot a 1 with
    | (s, .stop e) => { c with s := s, stop := if c.stop = .go then e else c.stop }
    | (s, .window) => { c with s := s }
    | (s, .far m pa) =>
      let r := { c with s := s.peerSend d m pa 0x21 sched q.ctx (2 ^ 31 + k.engine) n 0 bs }.takeFar 0
      if r.1.stop = .go then { r.1 with at_ := r.1.at_ + n } else r.1
    | (s, .mem pa) =>
      match s.devWrite pa bs with
      | .error e => { c with s := s, stop := if c.stop = .go then .err e else c.stop }
      | .ok s => { c with s := s, at_ := c.at_ + n }

/-- Whether source and destination overlap in one space with DST above SRC: the values written are then undefined (R218). -/
def DmaD.undefined (c : DmaD) : Bool :=
  decide (c.srcSpace = c.dstSpace) && !c.remote && !c.srcStream && !c.dstStream && decide (c.src < c.dst) &&
  decide (c.dst < c.src + (c.rows - 1) * c.srcPitch + c.rowLen)

/-- One destination piece of a copy: gather its source, in the source's own lines, then write what was read (R218). -/
def Cp.piece (c : Cp) (d p slot : Nat) (q : DmaInst) (ue : Option Nat) (sched : Bool) (src dst o n : Nat) : Cp :=
  let k := dmaD q.desc
  let r := (linePieces src n).foldl (fun (r : Cp × List Byte) x =>
    if r.1.stop ≠ .go then r
    else
      let y := r.1.read d p slot q k.srcSpace k.remote (src + x.1) x.2 (o + x.1) ue sched
      (y.1, r.2 ++ y.2)) (c, [])
  let bs := if k.undefined then r.2.zipIdx.map fun b => BitVec.ofNat 8 (Config.undefBits c.s.free (o + b.2)) else r.2
  r.1.write d p slot q k.dstSpace dst bs sched

/-- The copy from its resume point on (R218, R221), up to the copy offset `limit` where a pre-emption or an abort stops it. -/
def State.copyRun (s : State) (d p : Nat) (e : DmaEng) (ue : Option Nat) (far : List FarRead) (limit : Option Nat := none) : Cp :=
  let q := e.cur
  let k := dmaD q.desc
  let slot := ((s.cd d).tr.slotOf q.ctx).getD 16
  let t := s.tile d p
  let sched := (s.cx q.ctx).scheduled
  let sg := bits k.streams 1 0
  let dg := bits k.streams 3 2
  let r0 := e.resume / max k.rowLen 1
  (List.range (k.rows - r0)).foldl (fun c i =>
    let r := r0 + i
    let skip := if i = 0 then e.resume % max k.rowLen 1 else 0
    let src := if k.srcStream then t.streamAddr sg ((Tab.get {} t.mem.streams sg).pos + r) else k.src + r * k.srcPitch
    let dst := if k.dstStream then t.streamAddr dg ((Tab.get {} t.mem.streams dg).pos + r) else k.dst + r * k.dstPitch
    (linePieces (dst + skip) (k.rowLen - skip)).foldl (fun (c : Cp) x =>
      if c.stop ≠ .go then c
      else if limit.any fun n => n ≤ r * k.rowLen + skip + x.1 then { c with stop := .wait }
      else c.piece d p slot q ue sched (src + skip + x.1) (dst + skip + x.1) (r * k.rowLen + skip + x.1) x.2) c)
    { s := s, far := far, at_ := e.resume }

/-- The next queued copy runs. -/
def DmaEng.next (e : DmaEng) : DmaEng :=
  match e.queue with
  | [] => { disabled := e.disabled, draining := e.draining }
  | q :: rest => { st := 1, cur := q, queue := rest, disabled := e.disabled, draining := e.draining }

/-- Streams a finished copy used have moved past its rows (R90). -/
def State.advanceStreams (s : State) (d p : Nat) (k : DmaD) : State :=
  s.modMem d p fun m =>
    let move (on : Bool) (g : Nat) (m : MuleMem) : MuleMem :=
      if on then { m with streams := Tab.modify {} m.streams g fun x => { x with pos := x.pos + k.rows } } else m
    move k.dstStream (bits k.streams 3 2) (move k.srcStream (bits k.streams 1 0) m)

/-- A requester of die d fails on its fault: a DMA engine stops in FAILED and its Mule halts (R86, R213, R218). -/
def State.dmaFail (s : State) (d e : Nat) (code : Err) (resume : Nat) : State :=
  let q := (Tab.get {} (s.cd d).dma.engines e).cur
  let s := (s.modEng d e fun x => { x with st := 3, code := code, resume := resume }).setLoadBusy d q.ltile
  s.unitFault d q.ltile code 3 q.tag q.lrc

/-- The running copy of an engine ends (R218): complete, failed at its first failing byte, or parked on a page fault (R213). `ue` is
the copy offset of an uncorrectable line met, `far` the answers of board peers and remote windows in the order asked. -/
def execDmaCopyComplete (d : CdId) (e : Fin 8) (ue : Option Nat) (far : List FarRead) (s : State) : Out :=
  let x := Tab.get {} (s.cd d).dma.engines e.val
  if x.st ≠ 1 then .next s
  else
    let q := x.cur
    let k := dmaD q.desc
    let p := (s.cd d).map.phys q.ltile
    let slot := ((s.cd d).tr.slotOf q.ctx).getD 16
    let c := s.copyRun d p x ue far
    let count (s : State) : State := s.modCd d fun y => { y with dma := { y.dma with bytes := y.dma.bytes + (c.at_ - x.resume) } }
    let s' := count (c.s.drew)
    match c.stop with
    | .wait => .next s
    | .go =>
      let s' := (s'.modEng d e.val DmaEng.next).setLoadBusy d q.ltile
      .next ((s'.advanceStreams d p k).tagDone d q.ltile q.tag)
    | .err code => .next (s'.dmaFail d e.val code c.at_)
    | .park level va access =>
      if (Tab.get {} (s'.cd d).tr.slots slot).fail then .next (s'.dmaFail d e.val .pagefault c.at_)
      else
        let s' := s'.modEng d e.val fun x => { x with st := 2, resume := c.at_, faultVa := va }
        .next (s'.parkFault d slot q.ctx { kind := 0, no := e.val } access level
          (if access = 0 then k.srcStream else k.dstStream) va)

end Sys2Proof.Machine
end

