-- ==== Sys2Proof/Machine/Hen.lean ====
section
/-! DEFINITION. The gather threads: launch, requests, replies, ordered commits, completion (R171 to R196). -/

namespace Sys2Proof.Machine

/-- The HEN.LAUNCH descriptor (R175). -/
structure HenD where
  kind : Nat
  aop : Nat
  flags : Nat
  window : Nat
  threads : Nat
  n : Nat
  rowBytes : Nat
  base : Nat
  stride : Nat
  idx : Nat
  data : Nat
  aux : Nat
  result : Nat
  streams : Nat
  deriving DecidableEq, Repr

def henD (b : List Byte) : HenD :=
  { kind := fld b 8 1, aop := fld b 9 1, flags := fld b 10 1, window := fld b 11 1, threads := fld b 12 2, n := fld b 16 4,
    rowBytes := fld b 20 4, base := fld b 24 8, stride := fld b 32 4, idx := fld b 36 4, data := fld b 40 8, aux := fld b 48 8,
    result := fld b 56 4, streams := fld b 2 1 }

def HenD.idx64 (k : HenD) : Bool := bit k.flags 0
def HenD.dataOs (k : HenD) : Bool := bit k.flags 1
def HenD.ret (k : HenD) : Bool := bit k.flags 2
def HenD.remote (k : HenD) : Bool := bit k.flags 3
def HenD.hashed (k : HenD) : Bool := decide (k.kind = 4 ∨ k.kind = 5)
def HenD.useStream (k : HenD) : Bool := bit k.streams 4

/-- Bytes of DATA the job touches. -/
def HenD.dataBytes (k : HenD) : Nat :=
  match k.kind with
  | 0 => k.n * k.rowBytes
  | 1 => k.n * k.rowBytes
  | 2 => if k.ret then 8 * k.n else 0
  | 3 => 4 * k.n * (k.rowBytes + 1)
  | 4 => 8 * k.n
  | _ => 0

/-- The hash block (R177). -/
def hSeed (h : List Byte) : Nat := fld h 0 8
def hMiss (h : List Byte) : Nat := fld h 8 8
def hAux (h : List Byte) : Nat := fld h 16 8
def hLog (h : List Byte) : Nat := fld h 24 1

/-- The tile's free allotment of threads (R171). -/
def ComputeDie.freeThreads (c : ComputeDie) (i : Nat) : Nat :=
  Tab.get 0 c.hen.allot i - c.hen.jobs.foldl (fun a j => if j.2.st ≠ 0 ∧ j.2.ltile = i then a + j.2.threads else a) 0

/-- The lower free job slot of a tile (R171). -/
def Hen.slotFor (h : Hen) (i : Nat) : Option Nat :=
  List.find? (fun j => (Tab.get {} h.jobs j : HenJob).st == 0) [2 * i, 2 * i + 1]

/-- The refusals of R180 in the orders of R87. -/
def henChecks (s : State) (k : Issue) : UnitChecks :=
  let c := henD k.desc
  let die := s.cd k.d
  let t := s.tile k.d k.p
  let blk := Mem.readN t.mem.dmem c.aux 32
  let rows := c.kind = 0 ∨ c.kind = 1
  { align := [(decide (c.idx % 128 ≠ 0) || decide (c.data % (if c.dataOs then 128 else 64) ≠ 0) ||
               (decide (c.kind = 2) && decide (c.aux % 128 ≠ 0)) || (c.hashed && decide (c.aux % 8 ≠ 0)) ||
               decide (c.result % 8 ≠ 0), .align)],
    arg := [(decide (5 < c.kind) || (decide (c.kind = 2) && decide (0xA < c.aop)) || (decide (c.kind ≠ 2) && decide (c.aop ≠ 0)), .badarg),
            (decide (fld k.desc 4 2 ≠ 52 ∨ 16 ≤ c.flags) || !zeroAt k.desc 14 2 || !zeroAt k.desc 60 4 ||
             (!c.remote && decide (c.window ≠ 0)) || decide (c.threads = 0 ∨ 1024 < c.threads), .badarg),
            ((decide rows && decide (c.rowBytes < 4 ∨ 65536 < c.rowBytes ∨ c.rowBytes % 4 ≠ 0)) ||
             (decide (c.kind = 3) && decide (c.rowBytes = 0 ∨ 65536 < c.rowBytes)) ||
             (decide (c.kind = 2 ∨ 4 ≤ c.kind) && decide (c.rowBytes ≠ 0)) || decide (c.stride % 4 ≠ 0) ||
             (decide rows && decide (c.aux ≠ 0)), .badarg),
            (bit c.streams 5 || (c.useStream && decide (c.idx ≠ 0)), .badarg), (c.hashed && !c.idx64, .badarg),
            (c.hashed && decide (c.aux + 32 ≤ 0x80000) && (decide (hLog blk < 4 ∨ 30 < hLog blk) || !zeroAt blk 25 7), .badarg)],
    range := [(decide (4194304 < c.n), .range),
              (!c.useStream && osOut c.idx 0 1 (c.n * (if c.idx64 then 8 else 4)), .range),
              ((decide (c.kind = 2) && osOut c.aux 0 1 (16 * c.n)) || (c.dataOs && osOut c.data 0 1 c.dataBytes), .range),
              (decide (0x80000 < c.result + 8) || (c.hashed && decide (0x80000 < c.aux + 32)), .range),
              (c.remote && decide ((Tab.get {} (s.cxx k.ctx).windows c.window).len = 0), .range)],
    late := [(c.remote && decide (c.kind = 1 ∨ c.kind = 2 ∨ c.kind = 5), .denied)],
    quota := [(decide (die.freeThreads k.i < c.threads), .quota)],
    unit := [(decide (die.hen.sleep.st ≠ .running) || decide (t.sleep.st ≠ .running), .unitBusy),
             (die.hen.disabled || die.hen.draining || die.hen.quiescing || (die.hen.slotFor k.i).isNone, .unitBusy)] }

/-- Change a Hen job or thread. -/
def State.modJob (s : State) (d j : Nat) (f : HenJob → HenJob) : State :=
  s.modCd d fun c => { c with hen := { c.hen with jobs := Tab.modify {} c.hen.jobs j f } }

def State.modThr (s : State) (d t : Nat) (f : HenThread → HenThread) : State :=
  s.modCd d fun c => { c with hen := { c.hen with threads := Tab.modify {} c.hen.threads t f } }

/-- The lowest-numbered free physical threads (R172). -/
def Hen.freeList (h : Hen) : List Nat := (List.range 1024).filter fun t => (Tab.get {} h.threads t : HenThread).st == 0

/-- A job starts (R171, R172): the lower free slot, the lowest free threads, thread k at item k. -/
def State.henStart (s : State) (k : Issue) (unordered : Bool) : State :=
  s.modCd k.d fun c =>
    match c.hen.slotFor k.i with
    | none => c
    | some j =>
      let q := henD k.desc
      let job : HenJob :=
        { desc := k.desc, st := 1, unordered := unordered, lrc := k.lrc, threads := q.threads, tag := k.tag, ltile := k.i, ctx := k.ctx,
          ieee := (s.cx k.ctx).ieee,
          hash := if q.hashed then Mem.readN (s.tile k.d k.p).mem.dmem q.aux 32 else [] }
      let ts := (c.hen.freeList.take q.threads).zipIdx
      { c with hen := { c.hen with
          jobs := Tab.set {} c.hen.jobs j job, jobCount := c.hen.jobCount + 1,
          threads := ts.foldl (fun m t => Tab.set {} m t.1 { st := 1, slot := j, k := t.2, item := t.2 }) c.hen.threads } }

/-- HEN.LAUNCH: ordered atomics (R171 to R181). -/
def execHenLaunch (d : CdId) (p : PTile) (rd rs1 rs2 : Fin 32) (s : State) : Out :=
  s.issue d p 0x20 0 rd rs1 rs2 false true henChecks fun s k => s.henStart k false

/-- HEN.LAUNCH.U: unordered atomics (R182). -/
def execHenLaunchU (d : CdId) (p : PTile) (rd rs1 rs2 : Fin 32) (s : State) : Out :=
  s.issue d p 0x20 1 rd rs1 rs2 false true henChecks fun s k => s.henStart k true

/-- mix and rand64 (R162). -/
def mix64 (z : Nat) : Nat :=
  let z := ((z ^^^ (z >>> 30)) * 0xBF58476D1CE4E5B9) % 2 ^ 64
  let z := ((z ^^^ (z >>> 27)) * 0x94D049BB133111EB) % 2 ^ 64
  z ^^^ (z >>> 31)

def rand64 (seed stream i : Nat) : Nat :=
  let g := 0x9E3779B97F4A7C15
  mix64 ((mix64 (seed ^^^ ((stream * g) % 2 ^ 64)) + i * g) % 2 ^ 64)

/-- The key that marks an empty slot (R163). -/
def emptyKey : Nat := 2 ^ 64 - 1

/-- The slot a key's probe visits after `n` others (R163). -/
def hashSlot (seed log key n : Nat) : Nat := ((mix64 (key ^^^ seed) >>> (64 - log)) + n) % 2 ^ log

/-- A job's tile. -/
def State.jobTile (s : State) (d : Nat) (q : HenJob) : Tile := s.tile d ((s.cd d).map.phys q.ltile)

/-- Index x_i (R176). -/
def State.henIdx (s : State) (d : Nat) (q : HenJob) (i : Nat) : Nat :=
  let k := henD q.desc
  let n := if k.idx64 then 8 else 4
  Mem.readLe (s.jobTile d q).os (k.idx + n * i) n

/-- The target of item i (R176). -/
def State.henTarget (s : State) (d : Nat) (q : HenJob) (i : Nat) : Nat :=
  let k := henD q.desc
  if k.useStream then
    let t := s.jobTile d q
    t.streamAddr (bits k.streams 1 0) ((Tab.get {} t.mem.streams (bits k.streams 1 0)).pos + i)
  else (k.base + s.henIdx d q i * k.stride) % 2 ^ 64

/-- The next request of a thread's item: address, length, position, kind (R173, R176); none when the item needs no more. -/
def State.henNext (s : State) (d : Nat) (q : HenJob) (t : HenThread) : Option (Nat × Nat × Nat × Nat) :=
  let k := henD q.desc
  let piece (a off left kind : Nat) : Nat × Nat × Nat × Nat := (a, min left (64 - a % 64), off, kind)
  match k.kind with
  | 0 => if t.pos < k.rowBytes then some (piece ((s.henTarget d q t.item + t.pos) % 2 ^ 64) t.pos (k.rowBytes - t.pos) 0) else none
  | 1 => if t.pos < k.rowBytes then some (piece ((s.henTarget d q t.item + t.pos) % 2 ^ 64) t.pos (k.rowBytes - t.pos) 1) else none
  | 2 => if t.pos = 0 then some (s.henTarget d q t.item, aopWidth k.aop, 0, 2) else none
  | 3 =>
    let x := s.henIdx d q t.item
    if !t.boundsKnown then
      (if t.reqs = [] then some ((k.base + 8 * x + 8 * t.pos) % 2 ^ 64, 8, t.pos, 0) else none)
    else
      let n := min t.deg k.rowBytes
      if t.pos < n then
        let p := piece ((k.aux + 4 * (t.lo + t.pos)) % 2 ^ 64) t.pos (4 * (n - t.pos)) 0
        some p
      else none
  | _ =>
    if t.reqs = [] ∧ t.pos < 2 ^ hLog q.hash ∧ s.henIdx d q t.item ≠ emptyKey then
      some ((k.base + 16 * hashSlot (hSeed q.hash) (hLog q.hash) (s.henIdx d q t.item) t.pos) % 2 ^ 64, 16, t.pos,
            if k.kind = 5 then 1 else 0)
    else none

/-- Job j of die d. -/
def State.job (s : State) (d j : Nat) : HenJob := Tab.get {} (s.cd d).hen.jobs j

def State.thr (s : State) (d t : Nat) : HenThread := Tab.get {} (s.cd d).hen.threads t

/-- A job fails (R187, R189): its threads are HELD, what it holds is dropped, its flags are raised, its Mule halts. A later failure
of a lower item takes over the record. -/
def State.henFail (s : State) (d j item : Nat) (code : Err) : State :=
  let q := s.job d j
  if q.st = 2 then
    if item < q.faultItem then s.modJob d j fun q => { q with code := code, faultItem := item } else s
  else if q.st = 1 then
    let s := s.modJob d j fun q => { q with st := 2, code := code, faultItem := item }
    let s := s.modCd d fun c => { c with hen := { c.hen with threads := Tab.remap {} (fun _ t =>
      if t.st ≠ 0 ∧ t.slot = j then { t with st := 3, reqs := t.reqs.filter fun r => !r.2.held } else t) c.hen.threads } }
    let s := s.orFlags d q.ltile q.flags 0
    s.unitFault d q.ltile code 4 q.tag q.lrc
  else s

/-- A thread is released from a page fault: what was stuck may be tried again. -/
def HenThread.release (t : HenThread) : HenThread :=
  { t with st := 1, faultVa := 0, faultCode := .ok, reqs := Tab.remap {} (fun _ r => { r with stuck := false }) t.reqs }

/-- A thread parks on a page fault, or its job fails when the slot's mode is FAIL (R187, R213). -/
def State.henFault (s : State) (d t : Nat) (slot level va access : Nat) (stream : Bool) : State :=
  let h := s.thr d t
  let q := s.job d h.slot
  if (Tab.get {} (s.cd d).tr.slots slot).fail then s.henFail d h.slot h.item .pagefault
  else (s.modThr d t fun h => { h with st := 2, faultVa := va, faultCode := .pagefault }).parkFault d slot q.ctx
    { kind := 1, no := t } access level stream va

/-- A free request entry of a thread (R173). -/
def HenThread.freeReq (t : HenThread) : Option Nat := List.find? (fun e => !Tab.has t.reqs e) (List.range 8)

/-- How a commit ends. -/
inductive HenEnd where
  | more
  | item
  | fail (e : Err)
  | park (level va access : Nat)
  | full
  deriving DecidableEq, Repr

/-- Write bytes at a va of the job's own side (R176); a board-peer page is written by request. -/
def State.vaWrite (s : State) (d slot x va : Nat) (bs : List Byte) : State × HenEnd :=
  (linePieces va bs.length).foldl (fun (r : State × HenEnd) p =>
    if r.2 ≠ .more then r
    else
      let b := (bs.drop p.1).take p.2
      match r.1.copyTarget d slot (va + p.1) 1 with
      | (s, .stop (.err e)) => (s, .fail e)
      | (s, .stop (.park l v a)) => (s, .park l v a)
      | (s, .stop _) => (s, .more)
      | (s, .window) => (s, .more)
      | (s, .far m pa) => (s.peerSend d m pa 0x21 (s.cx x).scheduled x (2 ^ 30) p.2 0 b, .more)
      | (s, .mem pa) => match s.devWrite pa b with
        | .error e => (s, .fail e)
        | .ok s => (s, .more)) (s, .more)

/-- Read bytes at a va of the job's own side; a board-peer page there gives free values (log entry 19). -/
def State.vaRead (s : State) (d slot va n : Nat) : State × HenEnd × List Byte :=
  (linePieces va n).foldl (fun (r : State × HenEnd × List Byte) p =>
    if r.2.1 ≠ .more then r
    else
      match r.1.copyTarget d slot (va + p.1) 0 with
      | (s, .stop (.err e)) => (s, .fail e, r.2.2)
      | (s, .stop (.park l v a)) => (s, .park l v a, r.2.2)
      | (s, .stop _) => (s, .more, r.2.2)
      | (s, .window) => (s, .more, r.2.2)
      | (s, .far _ _) => (s.drew, .more, r.2.2 ++ leBytes p.2 (Config.undefBits s.free (va + p.1)))
      | (s, .mem pa) => match s.devRead pa p.2 with
        | .error e => (s, .fail e, r.2.2)
        | .ok b => (s, .more, r.2.2 ++ b)) (s, .more, [])

/-- Set or clear FOUND bit i of a probe (R176, R177). -/
def State.henFound (s : State) (d slot x : Nat) (hash : List Byte) (i : Nat) (found : Bool) : State × HenEnd :=
  let va := hAux hash + i / 8
  if hAux hash = 0 then (s, .item)
  else
    let f := s.vaRead d slot va 1
    if f.2.1 ≠ .more then (f.1, f.2.1)
    else
      let w := f.1.vaWrite d slot x va (leBytes 1 (setBit (leNat f.2.2) (i % 8) found))
      (w.1, if w.2 = .more then .item else w.2)

/-- Write to DATA (R175): operand store or va. -/
def State.henData (s : State) (d : Nat) (q : HenJob) (off : Nat) (bs : List Byte) : State × HenEnd :=
  let k := henD q.desc
  if k.dataOs then (s.modTile d ((s.cd d).map.phys q.ltile) fun t => t.osWrite (k.data + off) bs, .more)
  else s.vaWrite d (((s.cd d).tr.slotOf q.ctx).getD 16) q.ctx (k.data + off) bs

/-- The bytes a request's read returns: device memory, or the reply of a peer or a remote device; a board peer's slot that the job has
claimed since holds what it wrote there (R181). -/
def State.henRead (s : State) (q : HenJob) (r : HenReq) : Except Err (List Byte) :=
  if r.target < 2 then s.devReadN r.addr r.len else .ok (padTo r.len (Tab.get r.data q.claims r.addr))

/-- Carry out one request whose reply has come (R176 to R182). -/
def State.henCommit (s : State) (d : Nat) (q : HenJob) (h : HenThread) (r : HenReq) : State × HenEnd × HenThread × Nat :=
  let k := henD q.desc
  let slot := ((s.cd d).tr.slotOf q.ctx).getD 16
  match k.kind with
  | 0 =>
    match s.henRead q r with
    | .error e => (s, .fail e, h, 0)
    | .ok bs => let w := s.henData d q (r.item * k.rowBytes + r.off) bs; (w.1, w.2, h, 0)
  | 1 =>
    let src : State × HenEnd × List Byte :=
      if k.dataOs then (s, .more, Mem.readN (s.jobTile d q).os (k.data + r.item * k.rowBytes + r.off) r.len)
      else s.vaRead d slot (k.data + r.item * k.rowBytes + r.off) r.len
    if src.2.1 ≠ .more then (src.1, src.2.1, h, 0)
    else if r.target < 2 then
      match src.1.devWrite r.addr src.2.2 with
      | .error e => (src.1, .fail e, h, 0)
      | .ok s => (s, .more, h, 0)
    else (src.1, .more, h, 0)
  | 2 =>
    let operand := Mem.readLe (s.jobTile d q).os (k.aux + 16 * r.item) 16
    let done : Except Err (State × Nat × Nat) :=
      if r.target < 2 then s.devAtomic q.ieee r.addr k.aop operand
      else .ok (s, leNat (padTo r.len r.data), (aopApply q.ieee k.aop (leNat (padTo r.len r.data)) operand).2)
    match done with
    | .error e => (s, .fail e, h, 0)
    | .ok (s, old, fl) =>
      if k.ret then let w := s.henData d q (8 * r.item) (leBytes 8 old); (w.1, w.2, h, fl) else (s, .more, h, fl)
  | 3 =>
    match s.henRead q r with
    | .error e => (s, .fail e, h, 0)
    | .ok bs =>
      let row := 4 * r.item * (k.rowBytes + 1)
      if !h.boundsKnown then
        if r.off = 0 then (s, .more, { h with lo := leNat bs, pos := 1 }, 0)
        else
          let deg := (leNat bs + 2 ^ 64 - h.lo) % 2 ^ 64
          let n := min deg k.rowBytes
          let w := s.henData d q row (leBytes 4 n)
          let w2 := if w.2 = .more then
              w.1.henData d q (row + 4 + 4 * n) ((List.range (k.rowBytes - n)).flatMap fun _ => leBytes 4 0xFFFFFFFF) else w
          (w2.1, w2.2, { h with deg := deg, boundsKnown := true, pos := 0 }, 0)
      else let w := s.henData d q (row + 4 + 4 * r.off) bs; (w.1, w.2, h, 0)
  | 4 =>
    match s.henRead q r with
    | .error e => (s, .fail e, h, 0)
    | .ok bs =>
      let key := s.henIdx d q r.item
      let found := leNat (bs.take 8) = key
      let miss := leNat (bs.take 8) = emptyKey ∨ h.pos + 1 = 2 ^ hLog q.hash
      if found ∨ miss then
        let w := s.henData d q (8 * r.item) (if found then bs.drop 8 else leBytes 8 (hMiss q.hash))
        if w.2 ≠ .more then (w.1, w.2, h, 0)
        else
          let f := w.1.henFound d slot q.ctx q.hash r.item (decide found)
          (f.1, f.2, h, 0)
      else (s, .more, { h with pos := h.pos + 1 }, 0)
  | _ =>
    match s.henRead q r with
    | .error e => (s, .fail e, h, 0)
    | .ok bs =>
      let key := s.henIdx d q r.item
      if leNat (bs.take 8) = key then (s, .item, h, 0)
      else if leNat (bs.take 8) = emptyKey then
        let v := s.vaRead d slot (hAux q.hash + 8 * r.item) 8
        if v.2.1 ≠ .more then (v.1, v.2.1, h, 0)
        else if 2 ≤ r.target then
          ((v.1.peerSend d (r.addr / 2 ^ 41 - 1) (r.addr % 2 ^ 41) 0x21 (s.cx q.ctx).scheduled q.ctx (2 ^ 30) 16 0
            (leBytes 8 key ++ v.2.2)).modJob d h.slot fun q => { q with claims := Tab.set [] q.claims r.addr (leBytes 8 key ++ v.2.2) },
            .item, { h with deg := 1 }, 0)
        else
          let w := v.1.devWriteN r.addr (leBytes 8 key ++ v.2.2)
          if w.2 ≠ Err.ok then (w.1, .fail w.2, h, 0) else (w.1, .item, { h with deg := 1 }, 0)
      else if h.pos + 1 = 2 ^ hLog q.hash then (s, .full, h, 0)
      else (s, .more, { h with pos := h.pos + 1 }, 0)

/-- Items committed above COMMIT_LOW move it up. -/
def HenJob.advance : Nat → HenJob → HenJob
  | 0, q => q
  | n + 1, q =>
    if Tab.get false q.committed q.commitLow then
      HenJob.advance n { q with commitLow := q.commitLow + 1, committed := Tab.del q.committed q.commitLow }
    else q

/-- What an item adds to the count (R176): 1, the entries written, 1 for a key found or added. -/
def itemCount (k : HenD) (h : HenThread) (found : Bool) : Nat :=
  if k.kind = 3 then min h.deg k.rowBytes else if k.kind < 3 then 1 else if found then 1 else 0

/-- An item of a thread is complete: the thread takes its next item (R172). -/
def State.henItemDone (s : State) (d t : Nat) (found : Bool) : State :=
  let h := s.thr d t
  let k := henD (s.job d h.slot).desc
  let s := s.modJob d h.slot fun q =>
    HenJob.advance (q.committed.length + 1)
      { q with committed := Tab.set false q.committed h.item true, count := q.count + itemCount k h found }
  s.modThr d t fun h => { h with item := h.item + k.threads, pos := 0, lo := 0, deg := 0, boundsKnown := false }

/-- Whether a thread's item is complete once its requests are: every byte issued and answered. -/
def HenThread.itemOver (h : HenThread) (k : HenD) : Bool :=
  decide (h.reqs = []) &&
  (match k.kind with
    | 0 => decide (k.rowBytes ≤ h.pos)
    | 1 => decide (k.rowBytes ≤ h.pos)
    | 2 => decide (h.pos = 1)
    | 3 => h.boundsKnown && decide (min h.deg k.rowBytes ≤ h.pos)
    | _ => false)

/-- Carry out request e of thread t: its effect, then the end of the item, a park, a failure or a data stop (R181 to R189). -/
def State.henRun (s : State) (d t e : Nat) : State :=
  let h := s.thr d t
  let q := s.job d h.slot
  let k := henD q.desc
  let r := Tab.get {} h.reqs e
  if r.status ≠ Err.ok then
    let s := if r.status = Err.uncorr ∧ r.target < 2 then s.hbmUe r.addr else s
    s.henFail d h.slot r.item r.status
  else
    let c := s.henCommit d q h r
    let s' := c.1.modJob d h.slot fun q => { q with flags := q.flags ||| c.2.2.2 }
    let clear (s : State) : State := s.modThr d t fun _ => { c.2.2.1 with reqs := Tab.del c.2.2.1.reqs e }
    match c.2.1 with
    | .fail x => (clear s').henFail d h.slot r.item x
    | .park l va a =>
      let s' := s'.modThr d t fun _ => { c.2.2.1 with reqs := Tab.set {} c.2.2.1.reqs e { r with held := true, stuck := true } }
      if h.st = 2 then s' else s'.henFault d t (((s.cd d).tr.slotOf q.ctx).getD 16) l va a false
    | .full => (clear s').modJob d h.slot fun q => { q with stop := .nomem }
    | .item =>
      let found := if k.kind = 5 then decide (c.2.2.1.deg = 1) else
        match s.henRead q r with
        | .ok bs => decide (leNat (bs.take 8) = s.henIdx d q r.item)
        | .error _ => false
      (clear s').henItemDone d t found
    | .more =>
      let s' := clear s'
      if (s'.thr d t).itemOver k then s'.henItemDone d t false else s'

/-- The bytes of virtual addresses that bytes o to o + n of item i touch, and whether they are written (R176): the row of a gather or
a scatter, the line of an atomic, the output of NEIGHBOURS and PROBE. -/
def State.henTouch (s : State) (d : Nat) (q : HenJob) (i o n : Nat) : List (Nat × Nat × Bool) :=
  let k := henD q.desc
  let mine (off n : Nat) (w : Bool) : List (Nat × Nat × Bool) := if k.dataOs then [] else [(k.data + off, n, w)]
  match k.kind with
  | 0 => (s.henTarget d q i + o, n, false) :: mine (i * k.rowBytes + o) n true
  | 1 => (s.henTarget d q i + o, n, true) :: mine (i * k.rowBytes + o) n false
  | 2 => (s.henTarget d q i, aopWidth k.aop, true) :: (if k.ret then mine (8 * i) 8 true else [])
  | 3 => mine (4 * i * (k.rowBytes + 1) + o) n true
  | _ => mine (8 * i) 8 true ++ (if hAux q.hash = 0 then [] else [(hAux q.hash + i / 8, 1, true)])

/-- Whether two ranges, one of them written, share a 64-byte line. -/
def linesMeet (a b : Nat × Nat × Bool) : Bool :=
  (a.2.2 || b.2.2) &&
  decide (a.2.1 ≠ 0 ∧ b.2.1 ≠ 0 ∧ a.1 / 64 ≤ (b.1 + b.2.1 - 1) / 64 ∧ b.1 / 64 ≤ (a.1 + a.2.1 - 1) / 64)

/-- The byte of its item's row that a request starts at, and its bytes there; all of a row whose bounds are being read. -/
def HenThread.span (h : HenThread) (k : HenD) (off n : Nat) : Nat × Nat :=
  if k.kind = 3 then (if h.boundsKnown then (4 + 4 * off, n) else (0, 4 * (k.rowBytes + 1))) else (off, n)

/-- What item i of job j has still to touch: all of it, or the rest of it where its thread is at it. -/
def State.henRest (s : State) (d j : Nat) (q : HenJob) (i : Nat) : List (Nat × Nat × Bool) :=
  let k := henD q.desc
  let size := if k.kind = 3 then 4 * (k.rowBytes + 1) else k.rowBytes
  let from_ := match List.find? (fun t => t.2.slot == j && t.2.st != 0 && t.2.item == i) (s.cd d).hen.threads with
    | none => 0
    | some t => (t.2.span k ((t.2.reqs.map (·.2.off)).foldl min t.2.pos) 0).1
  s.henTouch d q i from_ (size - from_)

/-- Whether a request of an ordered job may commit (R181, R188): no earlier item has still to touch a line it touches; an insertion
waits for every earlier item. -/
def State.henTurn (s : State) (d j : Nat) (q : HenJob) (h : HenThread) (r : HenReq) : Bool :=
  let k := henD q.desc
  if k.kind = 5 then decide (r.item = q.commitLow)
  else
    let at_ := h.span k r.off r.len
    let mine := s.henTouch d q r.item at_.1 at_.2
    (List.range (r.item - q.commitLow)).all fun n =>
      Tab.get false q.committed (q.commitLow + n) ||
      !((s.henRest d j q (q.commitLow + n)).any fun a => mine.any (linesMeet a))

/-- A held request of job j that may commit now: of an ordered job in its turn, the lowest position of its item first (R181). -/
def State.henReady (s : State) (d j : Nat) : Option (Nat × Nat) :=
  let q := s.job d j
  ((s.cd d).hen.threads.flatMap fun t =>
    if t.2.slot = j ∧ (t.2.st = 1 ∨ t.2.st = 2) then
      (t.2.reqs.filter fun r => r.2.held && !r.2.stuck &&
        (q.unordered || ((t.2.reqs.all fun x => decide (r.2.off ≤ x.2.off)) && s.henTurn d j q t.2 r.2))).map fun r => (t.1, r.1)
    else []).head?

/-- Commit every held request that may commit now. -/
def State.henDrain (s : State) (d j : Nat) : Nat → State
  | 0 => s
  | n + 1 =>
    if (s.job d j).st ≠ 1 then s
    else match s.henReady d j with
      | none => s
      | some (t, e) => (s.henRun d t e).henDrain d j n

/-- Requests held by a job. -/
def Hen.heldBy (h : Hen) (j : Nat) : Nat :=
  h.threads.foldl (fun a t => if t.2.slot = j then a + (t.2.reqs.filter fun r => r.2.held).length else a) 0

/-- What a job holds may have come to its turn: commit it. -/
def State.henGo (s : State) (d j : Nat) : State := s.henDrain d j ((s.cd d).hen.heldBy j + 1)

/-- A reply reaches request e of a thread (R173, R181, R187, R188): an unordered job commits at once, an ordered one in each line's item
order, a parked thread like any other; an error fails the job. A thread of a failed job only gives up the entry. -/
def State.henReply (s : State) (d t e : Nat) (status : Err) (data : List Byte) : State :=
  let h := s.thr d t
  if !Tab.has h.reqs e then s
  else
    let r := Tab.get {} h.reqs e
    if h.st = 3 then
      let s := s.modThr d t fun h => { h with reqs := Tab.del h.reqs e }
      (if status = Err.ok then s else s.henFail d h.slot r.item status).settle
    else if r.held then s
    else
      let s := s.modThr d t fun h => { h with reqs := Tab.set {} h.reqs e { r with held := true, status := status, data := data } }
      if status ≠ Err.ok then s.henRun d t e else s.henGo d h.slot

/-- HEN_REPLY: see `State.henReply`. -/
def execHenReply (d : CdId) (t : Fin 1024) (e : Fin 8) (status : Err) (data : List Byte) (s : State) : Out :=
  .next (s.henReply d t e status data)

/-- No reply within HEN_TIMEOUT (R187, R190): the job fails with E_UNCORR. -/
def execHenRequestTimeout (d : CdId) (t : Fin 1024) (e : Fin 8) (s : State) : Out :=
  let h := s.thr d t
  let r := Tab.get {} h.reqs e.val
  if !Tab.has h.reqs e.val || r.held then .next s
  else
    .next ((s.modThr d t fun h => { h with reqs := Tab.del h.reqs e.val, late := h.late + 1 }).henFail d h.slot r.item .uncorr).settle

/-- A reply after its request has timed out (R190): discarded and counted. -/
def execHenLateReply (d : CdId) (t : Fin 1024) (s : State) : Out :=
  if (s.thr d t).late = 0 then .next s
  else .next ((s.modThr d t fun h => { h with late := h.late - 1 }).modCd d fun c => { c with hen := { c.hen with late := c.hen.late + 1 } })

/-- Items that need no request (an empty key) complete as they are met (R163, R164). -/
def State.henSkip (s : State) (d t : Nat) : State :=
  let h := s.thr d t
  let q := s.job d h.slot
  let k := henD q.desc
  if h.st = 1 ∧ q.st = 1 ∧ h.item < k.n ∧ k.hashed = true ∧ s.henIdx d q h.item = emptyKey then
    if k.kind = 5 then s.henItemDone d t false
    else
      let slot := ((s.cd d).tr.slotOf q.ctx).getD 16
      let w := s.henData d q (8 * h.item) (leBytes 8 (hMiss q.hash))
      let w := if w.2 = .more then w.1.henFound d slot q.ctx q.hash h.item false else w
      match w.2 with
      | .fail e => w.1.henFail d h.slot h.item e
      | .park l va a => w.1.henFault d t (((s.cd d).tr.slotOf q.ctx).getD 16) l va a false
      | _ => w.1.henItemDone d t false
  else s

/-- A thread of the Hen issues its next request (R173, R184, R187): it resolves the address, parks on a page fault, and fails the
job on a protection, alignment or range error. -/
def execHenRequestIssue (d : CdId) (t : Fin 1024) (s : State) : Out :=
  let h := s.thr d t
  let q := s.job d h.slot
  let k := henD q.desc
  if h.st ≠ 1 ∨ q.st ≠ 1 ∨ q.stop ≠ Err.ok ∨ k.n ≤ h.item ∨ (s.cd d).hen.quiescing = true then .next s
  else match s.henNext d q h, h.freeReq with
    | some (a, n, off, kind), some e =>
      let step (s : State) (addr target : Nat) : State :=
        (s.modThr d t fun h =>
          { h with pos := if k.kind = 0 ∨ k.kind = 1 then h.pos + n else if k.kind = 2 then 1
                          else if k.kind = 3 ∧ h.boundsKnown = true then h.pos + n / 4 else h.pos,
                   reqs := Tab.set {} h.reqs e { addr := addr, target := target, kind := kind, item := h.item, len := n, off := off } }
          ).modCd d fun c => { c with hen := { c.hen with reqCount := c.hen.reqCount + 1 } }
      let unaligned := if k.kind = 2 then a % aopWidth k.aop ≠ 0 else k.kind ≤ 3 ∧ a % 4 ≠ 0
      if unaligned then .next (s.henFail d h.slot h.item .align)
      else if k.remote && !(decide (k.kind = 3) && h.boundsKnown) then
        if (Tab.get {} (s.cxx q.ctx).windows k.window).len < a + n then .next (s.henFail d h.slot h.item .range)
        else .next (step s a 3)
      else
        let slot := ((s.cd d).tr.slotOf q.ctx).getD 16
        match s.copyTarget d slot a kind with
        | (s, .stop (.err c)) => .next (s.henFail d h.slot h.item c)
        | (s, .stop (.park level va access)) => .next (s.henFault d t slot level va access k.useStream)
        | (s, .stop _) => .next s
        | (s, .window) => .next s
        | (s, .mem pa) => .next (step s pa (if pa / 2 ^ 37 = d.val then 0 else 1))
        | (s, .far m pa) =>
          let pkt := if k.kind = 2 then 0x22 else if k.kind = 1 then 0x21 else 0x20
          if decide (pkt ≠ 0x20) && !q.unordered && !s.henTurn d h.slot q h { item := h.item, off := off, len := n } then .next s
          else
            let x : State × HenEnd × List Byte :=
              if k.kind = 2 then (s, .more, Mem.readN (s.jobTile d q).os (k.aux + 16 * h.item) 16)
              else if k.kind ≠ 1 then (s, .more, [])
              else if k.dataOs then (s, .more, Mem.readN (s.jobTile d q).os (k.data + h.item * k.rowBytes + off) n)
              else s.vaRead d slot (k.data + h.item * k.rowBytes + off) n
            match x.2.1 with
            | .fail c => .next (x.1.henFail d h.slot h.item c)
            | .park level va access => .next (x.1.henFault d t slot level va access false)
            | _ => .next (step (x.1.peerSend d m pa pkt (s.cx q.ctx).scheduled q.ctx (8 * t.val + e) n
                (if k.kind = 2 then k.aop else 0) x.2.2) (2 ^ 41 * (m + 1) + pa) 2)
    | _, _ => .next (s.henSkip d t)

/-- Empty keys at the head of every thread of a job are passed over. -/
def State.henSkips (s : State) (d j : Nat) : Nat → State
  | 0 => s
  | n + 1 => (((s.cd d).hen.threads.filter fun t => t.2.slot == j).foldl (fun s t => s.henSkip d t.1) s).henSkips d j n

/-- A job completes (R174): every item committed, or a data stop with nothing outstanding: flags, RESULT, threads and slot free, tag
clear. -/
def execHenJobComplete (d : CdId) (j : Fin 8) (s : State) : Out :=
  let q := s.job d j
  if q.st ≠ 1 then .next s
  else
    let k := henD q.desc
    let s := s.henSkips d j (if k.hashed then k.n + 1 else 0)
    let q := s.job d j
    let quiet := (s.cd d).hen.threads.all fun t => t.2.slot ≠ j.val || t.2.reqs = []
    if q.st = 1 ∧ quiet = true ∧ (k.n ≤ q.commitLow ∨ q.stop ≠ Err.ok) then
      let p := (s.cd d).map.phys q.ltile
      let s := s.orFlags d q.ltile q.flags 0
      let s := s.modMem d p fun m =>
        { m with dmem := Mem.writeN m.dmem k.result (leBytes 4 q.count ++ leBytes 2 q.stop.code ++ leBytes 2 0) }
      let s := s.modCd d fun c => { c with hen := { c.hen with
        jobs := Tab.del c.hen.jobs j.val, threads := c.hen.threads.filter fun t => t.2.slot ≠ j.val } }
      let s := if k.useStream then s.modMem d p fun m =>
          { m with streams := Tab.modify {} m.streams (bits k.streams 1 0) fun x => { x with pos := x.pos + k.n } } else s
      .next (s.tagDone d q.ltile q.tag)
    else .next s

end Sys2Proof.Machine
end

