-- ==== Sys2Proof/Machine/Mem.lean ====
section
/-! DEFINITION. Page walks, invalidations, fault resolution, refresh and repair, migrations, board-peer and remote-window
requests, buffer pools, column maps (R112 to R115, R185, R199 to R216, R223 to R227, R334, R335). -/

namespace Sys2Proof.Machine

/-- Carry out a register write that a rule may refuse; a refusal changes nothing. -/
def wrote (s : State) (r : Except Err State) : Out :=
  match r with
  | .ok t => .next t
  | .error _ => .next s

/-- What a translation that did not succeed does to a Hen thread (R187, R213). -/
def State.henXl (s : State) (d t slot va access : Nat) (stream : Bool) (x : Xl) : State :=
  let h := s.thr d t
  match x with
  | .ok _ => s
  | .err e => s.henFail d h.slot h.item e
  | .fault l => s.henFault d t slot l va access stream

/-- A copy whose walk did not succeed goes on up to the faulting byte (R213, R218). -/
def State.dmaXl (s : State) (d : CdId) (e : Fin 8) : State :=
  let x := Tab.get {} (s.cd d).dma.engines e.val
  if x.st ≠ 1 then s
  else
    match (s.copyRun d ((s.cd d).map.phys x.cur.ltile) x none []).stop with
    | .go => s
    | .wait => s
    | _ => match execDmaCopyComplete d e none [] s with
      | .next t => t
      | _ => s

/-- A walk completes (R210 to R213): the slot's caches take the leaf; a walk that fails parks or fails its requester, kind 0 a DMA
engine, kind 1 a Hen thread whose next target is the va. -/
def execPageWalkComplete (d : CdId) (slot : Fin 16) (va : Word) (access : Fin 3) (kind : Fin 2) (no : Fin 1024) (stream : Bool)
    (s : State) : Out :=
  match s.translate d slot va.toNat access with
  | (s', .ok _) => .next s'
  | (s', x) =>
    if kind = 0 then (if h : no.val < 8 then .next (s'.dmaXl d ⟨no.val, h⟩) else .next s')
    else
      let h := s'.thr d no
      let due := match s'.henNext d (s'.job d h.slot) h with
        | some (a, _, _, _) => decide (h.st = 1 ∧ (s'.job d h.slot).st = 1 ∧ a = va.toNat)
        | none => false
      .next (if due then s'.henXl d no slot va.toNat access stream x else s')

/-- An invalidation of a slot, or of a range of it (R211): the generation rises and cached entries in the range go. -/
def Trans.inval (t : Trans) (slot : Nat) (all : Bool) (base pages : Nat) : Trans :=
  { t with
    slots := Tab.modify {} t.slots slot fun b => { b with gen := (b.gen + 1) % 2 ^ 16 },
    tlb := Tab.modify [] t.tlb slot fun l => l.filter fun e =>
      !(all || decide (e.va < base + pages * 2 ^ 16 ∧ base < e.va + e.size)),
    walkc := Tab.modify [] t.walkc slot fun l => l.filter fun e =>
      !(all || decide (e.va < base + pages * 2 ^ 16 ∧ base < e.va + e.size)),
    invDone := false }

/-- A write of TLB_INVAL (R211, R216, R528): SLOT and ALL are stored; GO starts the invalidation while DONE is set. -/
def State.tlbInval (s : State) (d v : Nat) : State :=
  s.modCd d fun c =>
    let t := { c.tr with invSlot := bits v 3 0, invAll := bit v 4 }
    { c with tr := if bit v 5 && t.invDone then t.inval t.invSlot t.invAll t.invBase t.invLen else t }

/-- TLB_INVAL with GO (R211). -/
def execTlbInvalGo (d : CdId) (v : Word) (s : State) : Out :=
  if bit v.toNat 5 then .next (s.tlbInval d v.toNat) else .next s

/-- Nothing of an older generation remains outstanding: DONE is set again (R211). -/
def execTlbInvalDone (d : CdId) (s : State) : Out :=
  .next (s.modCd d fun c => { c with tr := { c.tr with invDone := true } })

/-- A requester is released from its fault (R213, R214, R188): it translates again and goes on, or fails with E_PAGEFAULT. -/
def State.unpark (s : State) (d : Nat) (fail : Bool) (w : Requester) : State :=
  if let some p := w.call then
    match (s.tile d p).mule.stack with
    | f :: _ => if fail && !f.ready then s.muleFault d p .pagefault 2 (if w.kind = 0 then 3 else 4) else s
    | [] => s
  else if w.kind = 0 then
    let x := Tab.get {} (s.cd d).dma.engines w.no
    if x.st ≠ 2 then s
    else if fail then s.dmaFail d w.no .pagefault x.resume
    else s.modEng d w.no fun x => { x with st := 1, faultVa := 0 }
  else
    let h := s.thr d w.no
    if h.st ≠ 2 then s
    else if fail then s.henFail d h.slot h.item .pagefault
    else (s.modThr d w.no HenThread.release).henGo d h.slot

/-- The record of a FAULT_ID on a die. -/
def Trans.record? (t : Trans) (id : Nat) : Option FaultRec := List.find? (fun f => f.id == id) t.faults

/-- PF_RESOLVE (R213, R216): an unknown FAULT_ID is ignored. -/
def State.pfResolve (s : State) (d id : Nat) (fail : Bool) : State :=
  match (s.cd d).tr.record? id with
  | none => s
  | some f =>
    let s := s.modCd d fun c => { c with tr := Trans.headed { c.tr with faults := c.tr.faults.filter fun g => g.id ≠ id } }
    (f.all.foldl (fun s w => s.unpark d fail w) s).refillFaults d

/-- Firmware writes PF_RESOLVE. -/
def execPfResolve (d : CdId) (v : Word) (s : State) : Out := .next (s.pfResolve d (bits v.toNat 15 0) (bit v.toNat 16))

/-- Lines of a pseudo-channel (R200). -/
def scrubLines : Nat := 50331648

/-- Line index of a stack offset within its pseudo-channel (R198). -/
def lineIdx (o : Nat) : Nat := (o >>> 13) * 4 + bits o 7 6

/-- The key of a row in the row counts. -/
def rowKey (pc bank row : Nat) : Nat := (pc * 256 + bank) * 2 ^ 32 + row

/-- A row has no repair resource left in its bank (R202): its soft repair is taken. -/
def Hbm.noResource (h : Hbm) (pc bank : Nat) : Bool := h.repairs.any fun r => r.pc == pc && r.bank == bank

/-- A row qualifies for repair once (R202). -/
def Hbm.qualify (h : Hbm) (pc bank row : Nat) : Hbm :=
  if h.rowQueue.contains (pc, bank, row) ∨ (h.repairing.map fun r => (r.1, r.2.1, r.2.2.1)) = some (pc, bank, row) then h
  else { h with rowQueue := h.rowQueue ++ [(pc, bank, row)] }

/-- A corrected error of a row (R202): its third different scrub pass qualifies the row. An entry holds 4 (pass + 1) + count. -/
def Hbm.corrected (h : Hbm) (pc bank row : Nat) : Hbm :=
  let k := rowKey pc bank row
  let v := Tab.get 0 h.rowCe k
  let h := { h with ce := h.ce + 1 }
  if v / 4 = h.scrubPasses + 1 then h
  else
    let n := min 3 (v % 4 + 1)
    let h := { h with rowCe := Tab.set 0 h.rowCe k (4 * (h.scrubPasses + 1) + n) }
    if n = 3 then h.qualify pc bank row else h

/-- Row repair in a refresh slot of pseudo-channel pc (R202): four consecutive slots of the pseudo-channel from the first copy; then
the repair is in force. The next queued row of the pseudo-channel starts when none is under repair. -/
def Hbm.repairSlot (h : Hbm) (pc : Nat) : Hbm :=
  match h.repairing with
  | some (p, b, r, n) =>
    if p ≠ pc then h
    else if n < 3 then { h with repairing := some (p, b, r, n + 1) }
    else { h with repairing := none, softRepairs := h.softRepairs + 1,
                  repairs := h.repairs ++ [{ pc := p, bank := b, row := r, kind := 1 }], rowCe := Tab.del h.rowCe (rowKey p b r) }
  | none =>
    match List.find? (fun q : Nat × Nat × Nat => q.1 == pc && !h.noResource q.1 q.2.1) h.rowQueue with
    | none => h
    | some q => { h with repairing := some (q.1, q.2.1, q.2.2, 1), rowQueue := h.rowQueue.filter (· ≠ q) }

/-- The scrubber of pseudo-channel pc moves 8 lines on (R200); the last pseudo-channel to end a pass completes it. -/
def Hbm.scrub (h : Hbm) (pc : Nat) : Hbm :=
  let l := Tab.get 0 h.scrubLine pc + 8
  if l < scrubLines then { h with scrubLine := Tab.set 0 h.scrubLine pc l }
  else { h with scrubLine := Tab.set 0 h.scrubLine pc 0, scrubPasses := h.scrubPasses + (if pc = 31 then 1 else 0) }

/-- The refresh interval follows the hottest DRAM die (R200): halved above 85 degrees, restored below 80. -/
def Hbm.refresh (h : Hbm) (temp : Int) : Hbm :=
  { h with temp := temp, fastRef := if 1360 < temp then true else if temp < 1280 then false else h.fastRef }

/-- A refresh slot of a logical pseudo-channel (R199 to R202): the scrubber meets what its next 8 lines hold, repairs progress. In PARKED the
stacks are in self-refresh, with no scrubbing (R494). -/
def execHbmRefreshSlot (d : CdId) (pc : Fin 32) (found : List ScrubFind) (temp : Int) (s : State) : Out :=
  if !s.dieIn d ∨ s.pwr.st = .parked then .next s
  else
    let modH (s : State) (f : Hbm → Hbm) : State := s.modCd d fun c => { c with hbm := f c.hbm }
    let at_ := Tab.get 0 (s.cd d).hbm.scrubLine pc.val
    let due (f : ScrubFind) : Bool :=
      let o := f.line % 2 ^ 37
      f.line / 2 ^ 37 == d.val && pcOf o == pc.val && decide (at_ ≤ lineIdx o ∧ lineIdx o < at_ + 8)
    let s := (found.filter due).foldl (fun s f =>
      if f.uncorrectable then
        if Tab.get false s.poison (lineOf f.line) then s else modH (s.hbmUe (f.line / 64 * 64)) fun h => h.qualify pc f.bank f.row
      else modH s fun h => h.corrected pc f.bank f.row) s
    let h := (s.cd d).hbm.repairSlot pc
    let s := if (s.cd d).hbm.softRepairs < h.softRepairs then
        match h.repairs.getLast? with
        | some r => s.substituted d 0x24 5 r.row (256 * r.pc + r.bank) 1
        | none => s
      else s
    .next (modH s fun _ => (h.scrub pc).refresh temp)

/-- A write of HBM_MIGRATE (R203, R204): refused while a launch runs; a third retirement takes the die out of service. -/
def State.hbmMigrate (s : State) (d v : Nat) : Except Err State :=
  let h := (s.cd d).hbm
  let s' := s.modCd d fun c => { c with hbm := { c.hbm with logicalSel := bits v 4 0 } }
  if !bit v 5 then .ok s'
  else if s.running || h.migrating then .error .busy
  else if h.sparesUsed < 2 then
    .ok (s'.modCd d fun c => { c with hbm := { c.hbm with migrating := true, migDone := false, migCode := .ok } })
  else .ok ((s'.modCd d fun c => { c with hbm := { c.hbm with ready := false } }).cdDown d .uncorr)

/-- HBM_MIGRATE with START. -/
def execHbmMigrateStart (d : CdId) (v : Word) (s : State) : Out := wrote s (s.hbmMigrate d v.toNat)

/-- A migration completes (R203): entry l of HBM_PC_MAP switches to the spare in one step. -/
def execHbmMigrationComplete (d : CdId) (s : State) : Out :=
  let h := (s.cd d).hbm
  if !h.migrating then .next s
  else
    let l := h.logicalSel
    let s := s.modCd d fun c => { c with hbm := { c.hbm with
      migrating := false, migDone := true, migCode := .ok, sparesUsed := h.sparesUsed + 1,
      pcMap := Tab.set l h.pcMap l (32 + h.sparesUsed), pcUe := Tab.del h.pcUe l } }
    .next (s.substituted d 0x24 6 l (Tab.get l h.pcMap l) (32 + h.sparesUsed))

/-- A board-peer request's fields (R335). -/
structure PeerReq where
  p : Nat
  len : Nat
  aop : Nat
  who : Nat
  tag : Nat
  data : List Byte
  deriving DecidableEq, Repr

def peerReq (bs : List Byte) : PeerReq :=
  { p := fld bs 0 8, len := fld bs 8 1, aop := fld bs 9 1, who := fld bs 10 1, tag := fld bs 12 4, data := bs.drop 16 }

/-- A received packet is discarded without a word when it ended with the poison marker (R532), and logged when its payload check
fails (R325). -/
def State.badPacket (s : State) (die : Nat) (k : Packet) : Option State :=
  if k.poison then some s
  else if crc32 k.payload = k.crc then none
  else some (s.raise die 0x24 3 .checksum [] k.hdr.ctx)

/-- The reply to a request goes back over its link to the requesting die (R335). -/
def State.peerAnswer (s : State) (d l : Nat) (k : Packet) (q : PeerReq) (e : Err) (data : List Byte) : State :=
  let payload := leBytes 4 q.tag ++ leBytes 2 e.code ++ leBytes 2 0 ++ (if e = Err.ok then data else [])
  let h : Hdr := { net := 1, cls := k.hdr.cls, kind := 0x23, ctx := k.hdr.ctx, route := route2 l (36 + q.who) }
  s.emit (.send d (s.packet h payload))

/-- Whether HBM_EXPORT lets member m access a stack offset (R206). -/
def Hbm.exported (h : Hbm) (m o n : Nat) (write : Bool) : Bool :=
  (List.range 8).any fun i =>
    let x : Export := Tab.get {} h.exports i
    bit x.peers m && decide (x.base ≤ o ∧ o + n ≤ x.base + x.len2m * 2 ^ 21) && (!write || bit x.access 0)

/-- A board-peer request at the owning controller (R206, R335): the range, the export check, then the access. -/
def State.peerServe (s : State) (d l : Nat) (k : Packet) (ue : Bool) (kind : Nat) : Out :=
  if k.hdr.kind ≠ kind ∨ s.dieIn d = false then .next s
  else match s.badPacket d k with
    | some t => .next t
    | none =>
      let q := peerReq k.payload
      let o := q.p % 2 ^ 37
      let n := q.len
      let bad := decide (n = 0 ∨ 64 < n ∨ 64 < q.p % 64 + n) || (decide (kind ≠ 0x22) && decide (q.aop ≠ 0)) ||
        (decide (kind = 0x22) && decide (0xA < q.aop ∨ n ≠ aopWidth q.aop))
      if bad then .next (s.peerAnswer d l k q .badarg [])
      else if q.p / 2 ^ 37 ≠ d ∨ 0x1800000000 < o + n then .next (s.peerAnswer d l k q .range [])
      else if !(s.cd d).hbm.exported (s.link l).peerMember o n (decide (kind ≠ 0x20)) then .next (s.peerAnswer d l k q .prot [])
      else if decide (kind = 0x22) && decide (q.p % n ≠ 0) then .next (s.peerAnswer d l k q .align [])
      else
        let s := if ue then s.hbmUe (q.p / 64 * 64) else s
        if kind = 0x20 then
          match s.devRead q.p n with
          | .ok bs => .next (s.peerAnswer d l k q .ok bs)
          | .error e => .next (s.peerAnswer d l k q e [])
        else if kind = 0x21 then
          match s.devWrite q.p (padTo n q.data) with
          | .ok s => .next (s.peerAnswer d l k q .ok [])
          | .error e => .next (s.peerAnswer d l k q e [])
        else
          match s.devAtomic (s.cx k.hdr.ctx).ieee q.p q.aop (leNat (padTo 16 q.data)) with
          | .ok (s, old, _) => .next (s.peerAnswer d l k q .ok (leBytes n old))
          | .error e => .next (s.peerAnswer d l k q e [])

/-- PEER_READ arrives (R335). -/
def execPeerRead (d : CdId) (l : LinkId) (k : Packet) (ue : Bool) (s : State) : Out := s.peerServe d l k ue 0x20

/-- PEER_WRITE arrives (R335); an uncorrectable line met matters to a write of part of a line (R199). -/
def execPeerWrite (d : CdId) (l : LinkId) (k : Packet) (ue : Bool) (s : State) : Out :=
  s.peerServe d l k (ue && decide ((peerReq k.payload).len ≠ 64)) 0x21

/-- PEER_ATOMIC arrives (R335, R179); its ADD_F32 follows the mode of the local context its header names (log entry 20). -/
def execPeerAtomic (d : CdId) (l : LinkId) (k : Packet) (ue : Bool) (s : State) : Out := s.peerServe d l k ue 0x22

/-- PEER_REPLY arrives (R335): a Hen request's tag is 8 t + e; a DMA engine's answers come with its completion (`FarRead`), and an
own-side write's reply needs nothing more. -/
def execPeerReply (d : CdId) (k : Packet) (s : State) : Out :=
  if k.hdr.kind ≠ 0x23 then .next s
  else match s.badPacket d k with
    | some t => .next t
    | none =>
      let tag := fld k.payload 0 4
      let e := Tab.get {} (s.thr d (tag / 8)).reqs (tag % 8)
      if tag < 8192 ∧ Tab.has (s.thr d (tag / 8)).reqs (tag % 8) = true ∧ e.target = 2 then
        .next (s.henReply d (tag / 8) (tag % 8) (Err.ofCode (fld k.payload 4 2)) (k.payload.drop 8))
      else .next s

/-- A request through a remote window (R185, R215), its payload as of a board-peer read with the va in place of p (log entry 21):
translated in the slot of the context it names, never parked. Only reads exist; a write is answered E_DENIED. -/
def execRemoteWindowRequest (d : CdId) (l : LinkId) (k : Packet) (write : Bool) (ue : Bool) (s : State) : Out :=
  if s.dieIn d = false then .next s
  else match s.badPacket d k with
    | some t => .next t
    | none =>
      let q := peerReq k.payload
      let answer (s : State) (e : Err) (bs : List Byte) : Out := .next (s.peerAnswer d l k q e bs)
      if write then answer s .denied []
      else if q.len = 0 ∨ 64 < q.len ∨ 64 < q.p % 64 + q.len then answer s .badarg []
      else match (s.cd d).tr.slotOf k.hdr.ctx with
        | none => answer s .pagefault []
        | some slot =>
          match s.translate d slot q.p 0 true with
          | (s, .err e) => answer s e []
          | (s, .fault _) => answer s .pagefault []
          | (s, .ok sa) =>
            match s.target sa with
            | .dev a =>
              let s := if ue then s.hbmUe (a / 64 * 64) else s
              match s.devRead a q.len with
              | .ok bs => answer s .ok bs
              | .error e => answer s e []
            | _ => answer s .range []

/-- Buffer bytes of a pool (R223). -/
def poolSize (p : Nat) : Nat := [0x100, 0x1000, 0x10000, 0x40000, 0x200000, 0x1000000].getD p 1

def Bp.pool (b : Bp) (p : Nat) : Pool := Tab.get {} b.pools p

/-- Free buffers of a pool. -/
def Pool.free (x : Pool) : Nat := x.applied - x.fresh + x.freed.length

/-- Stack offset at which a pool's buffers start (R223). -/
def Bp.base (b : Bp) (p : Nat) : Nat :=
  b.appliedRegion * 2 ^ 21 + (List.range p).foldl (fun a i => a + (b.pool i).applied * poolSize i) 0

def Bp.quotaOf (b : Bp) (r p : Nat) : Quota := Tab.get {} b.quota (6 * r + p)

/-- Buffers of pool p guaranteed and not yet in use (R225). -/
def Bp.owed (b : Bp) (p : Nat) : Nat :=
  (List.range 16).foldl (fun a q => a + ((b.quotaOf q p).minIn - (b.quotaOf q p).inUse)) 0

/-- Whether requester r may have a buffer of pool p (R225). -/
def Bp.grant (b : Bp) (r p : Nat) : Err :=
  let q := b.quotaOf r p
  if q.inUse < q.minIn then .ok
  else if q.max ≤ q.inUse then .quota
  else if b.owed p < (b.pool p).free then .ok
  else .nomem

/-- Take a buffer from a pool's stack: the last freed, else the lowest never taken (R223). -/
def Pool.take (x : Pool) : Pool × Nat :=
  let r := match x.freed with
    | i :: rest => ({ x with freed := rest }, i)
    | [] => ({ x with fresh := x.fresh + 1 }, x.fresh)
  ({ r.1 with low := min r.1.low r.1.free }, r.2)

/-- An allocation by requester r from pool p (R225): the stack offset granted. -/
def Bp.alloc (b : Bp) (r p : Nat) : Bp × Except Err Nat :=
  match b.grant r p with
  | .ok =>
    let t := (b.pool p).take
    let a := b.base p + t.2 * poolSize p
    ({ b with pools := Tab.set {} b.pools p t.1, allocs := b.allocs + 1, owner := Tab.set 16 b.owner a r,
              quota := Tab.modify {} b.quota (6 * r + p) fun q => { q with inUse := q.inUse + 1 } }, .ok a)
  | e => ({ b with refused := b.refused + 1,
                   quota := Tab.modify {} b.quota (6 * r + p) fun q => { q with refused := sat 32 (q.refused + 1) } }, .error e)

/-- The pool an address lies in. -/
def Bp.poolAt (b : Bp) (a : Nat) : Option Nat :=
  List.find? (fun p => decide (b.base p ≤ a ∧ a < b.base p + (b.pool p).applied * poolSize p)) (List.range 6)

/-- A free by requester r (R225). -/
def Bp.release (b : Bp) (r a : Nat) : Except Err Bp :=
  match b.poolAt a with
  | none => .error .range
  | some p =>
    if (a - b.base p) % poolSize p ≠ 0 then .error .align
    else if Tab.get 16 b.owner a = 16 then .error .seq
    else if Tab.get 16 b.owner a ≠ r then .error .denied
    else .ok { b with pools := Tab.modify {} b.pools p fun x => { x with freed := (a - b.base p) / poolSize p :: x.freed },
                      frees := b.frees + 1, owner := Tab.del b.owner a,
                      quota := Tab.modify {} b.quota (6 * r + p) fun q => { q with inUse := q.inUse - 1 } }

/-- Allocate on die d: the granted stack offset, or the refusal. -/
def State.bpAlloc (s : State) (d r p : Nat) : State × Except Err Nat :=
  let x := (s.cd d).bp.alloc r p
  (s.modCd d fun c => { c with bp := x.1 }, x.2)

/-- Free on die d; a refused free is counted and logged at severity 2 (R225). -/
def State.bpFree (s : State) (d r a : Nat) : State × Err :=
  match (s.cd d).bp.release r a with
  | .ok b => (s.modCd d fun c => { c with bp := b }, .ok)
  | .error e => ((s.modCd d fun c => { c with bp := { c.bp with refused := c.bp.refused + 1 } }).raise d 0x27 2 e (leBytes 8 a), e)

/-- Bytes of a region with its metadata (R223). -/
def Bp.regionBytes (b : Bp) : Nat :=
  let n := (List.range 6).foldl (fun a i => a + (b.pool i).count) 0
  (List.range 6).foldl (fun a i => a + (b.pool i).count * poolSize i) 0 + cdiv (5 * n) (2 ^ 21) * 2 ^ 21

/-- BP_APPLY (R226, R227): the region, the counts and the MIN values come into force, each stack filled to give the lowest address
first. -/
def Bp.apply (b : Bp) : Except Err Bp :=
  if b.quota.any fun q => q.2.inUse ≠ 0 then .error .busy
  else if (List.range 6).any fun p =>
      decide ((b.pool p).count < (List.range 16).foldl (fun a r => a + (b.quotaOf r p).min) 0) then .error .quota
  else if 0x1800000000 < b.region * 2 ^ 21 + b.regionBytes then .error .range
  else .ok { b with configured := true, appliedRegion := b.region,
                    pools := (List.range 6).foldl (fun m p => Tab.modify {} m p fun x =>
                      { x with applied := x.count, fresh := 0, freed := [], low := x.count }) b.pools,
                    quota := Tab.remap {} (fun _ q => { q with minIn := q.min }) b.quota }

/-- A write of BP_APPLY. -/
def State.bpApply (s : State) (d v : Nat) : Except Err State :=
  if !bit v 0 then .ok s
  else match (s.cd d).bp.apply with
    | .ok b => .ok (s.modCd d fun c => { c with bp := b })
    | .error e => .error e

def execBpApply (d : CdId) (v : Word) (s : State) : Out := wrote s (s.bpApply d v.toNat)

/-- BP_FW_CMD (R226): an allocation or a free by firmware, requester 11; BP_FW_RESULT takes the outcome. -/
def State.bpFw (s : State) (d v : Nat) : State :=
  let put (s : State) (a : Nat) (e : Err) : State :=
    s.modCd d fun c => { c with bp := { c.bp with resAddr := a, resCode := e, resValid := true } }
  if bit v 3 then
    let r := s.bpFree d 11 (bits v 44 8 * 256)
    put r.1 0 r.2
  else if 6 ≤ v % 8 then put s 0 .range
  else match s.bpAlloc d 11 (v % 8) with
    | (s, .ok a) => put s a .ok
    | (s, .error e) => put s 0 e

/-- BP_FW_CMD with bit 3 clear: allocate. -/
def execBpFwAllocate (d : CdId) (v : Word) (s : State) : Out := if bit v.toNat 3 then .next s else .next (s.bpFw d v.toNat)

/-- BP_FW_CMD with bit 3 set: free. -/
def execBpFwFree (d : CdId) (v : Word) (s : State) : Out := if bit v.toNat 3 then .next (s.bpFw d v.toNat) else .next s

/-- A write of BP_FREEp sets its low-water field to the current free count (R226). -/
def execBpFreeWrite (d : CdId) (pool : Fin 6) (s : State) : Out :=
  .next (s.modCd d fun c => { c with bp := { c.bp with pools := Tab.modify {} c.bp.pools pool.val fun x => { x with low := x.free } } })

/-- A write of ARR_COLCFG (R114, R115): BADCOL_C is stored, and APPLY rebuilds the map unless a plane is not EMPTY, a pass is in flight
or a launch runs on the die. -/
def State.colcfg (s : State) (d p v : Nat) : Except Err State :=
  let a := (s.tile d p).arr
  if !bit v 4 then .ok (s.modArr d p fun a => { a with badC := v % 16 })
  else if a.plane0.st ≠ .empty ∨ a.plane1.st ≠ .empty ∨ a.passes ≠ [] ∨
      (s.ctx.tab.any fun e => (decide (e.2.st = .running) || decide (e.2.st = .stopping)) && bit e.2.mask d) = true then .error .busy
  else .ok ((s.modArr d p fun a => { a with badC := v % 16 }).colcfgApply d p)

/-- ARR_COLCFG with APPLY. -/
def execArrColcfgApply (d : CdId) (p : PTile) (v : Word) (s : State) : Out := wrote s (s.colcfg d p v.toNat)

end Sys2Proof.Machine
end

