-- ==== Sys2Proof/Machine/Routines.lean ====
section
/-! DEFINITION. What the routines of the catalogue compute (R147 to R167). The code of the library is no part of the spec; its results
are, and these are they. -/

namespace Sys2Proof.Machine

/-- No os field, where it is optional (R153). -/
def osNone : Nat := 0xFFFFFFFF

/-- A routine's work on the operand store: the store after it, the flags raised, the status, COUNT_OUT. -/
structure OsRes where
  os : Mem
  flags : Nat := 0
  status : Err := .ok
  count : Nat := 0

/-- A 32-bit word of a memory. -/
def w32 (m : Mem) (a : Nat) : Nat := Mem.readLe m a 4

/-- Store an FP32 value in an output format (R64, R153). -/
def putFmt (ieee : Bool) (f : Nat) (r : OsRes) (a x : Nat) : OsRes :=
  let v := sfEncode ieee f x
  { r with os := Mem.writeLe r.os a (sfBits f / 8) v.1, flags := r.flags ||| v.2 }

/-- Apply an operation and keep its flags. -/
def OsRes.op (r : OsRes) (v : Nat × Nat) : OsRes × Nat := ({ r with flags := r.flags ||| v.2 }, v.1)

/-- An exact sum of FP32 values rounded once (R62). -/
def sumFp (ieee : Bool) (xs : List Nat) : Nat × Nat := (xs.foldl (fun (a : Sum320) x => a.addFp .fp32 x) {}).toFp .fp32 ieee

def isNan (x : Nat) : Bool := decide (FF.fp32.val x = .nan)

/-- A positive finite FP32 value. -/
def posFinite (x : Nat) : Bool :=
  match FF.fp32.val x with
  | .fin neg m _ => !neg && decide (m ≠ 0)
  | _ => false

/-- SOFTMAX_MASKED's body (R155). -/
structure SoftD where
  x : Nat
  y : Nat
  mask : Nat
  rows : Nat
  n : Nat
  px : Nat
  py : Nat
  scale : Nat
  fmt : Nat

def softD (b : List Byte) : SoftD :=
  { x := fld b 16 4, y := fld b 20 4, mask := fld b 24 4, rows := fld b 28 4, n := fld b 32 4, px := fld b 36 4, py := fld b 40 4,
    scale := fld b 44 4, fmt := fld b 48 4 }

/-- One row of SOFTMAX_MASKED (R155). -/
def softRow (ieee : Bool) (k : SoftD) (r : OsRes) (i : Nat) : OsRes :=
  let mp := cdiv k.n 1024 * 128
  let keep (j : Nat) : Bool := k.mask == osNone || bit (Mem.read r.os (k.mask + i * mp + j / 8)).toNat (j % 8)
  let xs := (List.range k.n).map fun j => (j, w32 r.os (k.x + i * k.px + 4 * j))
  let on := xs.filter fun e => keep e.1 && e.2 != 0xFF800000
  let out (r : OsRes) (f : Nat → Nat) : OsRes :=
    (List.range k.n).foldl (fun r j => putFmt ieee k.fmt r (k.y + i * k.py + j * (sfBits k.fmt / 8)) (f j)) r
  let infs := on.filter fun e => e.2 == 0x7F800000
  if on.any fun e => isNan e.2 then out r fun _ => FF.fp32.nan
  else if infs ≠ [] then
    let q := (fdiv ieee fone (i2f ieee infs.length).1).1
    out r fun j => if infs.any fun e => e.1 == j then q else 0
  else match on with
    | [] => { (out r fun _ => 0) with flags := r.flags ||| flMaskedRow, count := r.count + 1 }
    | e0 :: rest =>
      let m := rest.foldl (fun a e => fmaxBits a e.2) e0.2
      let es := on.map fun e =>
        let a := fsub ieee e.2 m
        let b := fmul ieee a.1 k.scale
        let c := fexp ieee b.1
        (e.1, c.1, a.2 ||| b.2 ||| c.2)
      let s := sumFp ieee (es.map fun e => e.2.1)
      let ys := es.map fun e => let y := fdiv ieee e.2.1 s.1; (e.1, y.1, e.2.2 ||| y.2)
      let fl := ys.foldl (fun a e => a ||| e.2.2) s.2
      out { r with flags := r.flags ||| fl } fun j => ((List.find? (fun e => e.1 == j) ys).map (·.2.1)).getD 0

def softmax (ieee : Bool) (b : List Byte) (os : Mem) : OsRes :=
  let k := softD b
  (List.range k.rows).foldl (softRow ieee k) { os := os }

/-- LAYERNORM's and RMSNORM's body (R156). -/
structure NormD where
  x : Nat
  y : Nat
  gamma : Nat
  beta : Nat
  stats : Nat
  rows : Nat
  n : Nat
  px : Nat
  py : Nat
  eps : Nat
  fmt : Nat

def normD (b : List Byte) : NormD :=
  { x := fld b 16 4, y := fld b 20 4, gamma := fld b 24 4, beta := fld b 28 4, stats := fld b 32 4, rows := fld b 36 4,
    n := fld b 40 4, px := fld b 44 4, py := fld b 48 4, eps := fld b 52 4, fmt := fld b 56 4 }

/-- Flags gathered along a list of results. -/
def flagsOf (xs : List (Nat × Nat)) : Nat := xs.foldl (fun a e => a ||| e.2) 0

/-- One row of LAYERNORM or RMSNORM (R156). -/
def normRow (ieee layer : Bool) (k : NormD) (r : OsRes) (i : Nat) : OsRes :=
  let xs := (List.range k.n).map fun j => w32 r.os (k.x + i * k.px + 4 * j)
  let nf := (i2f ieee k.n).1
  let s1 := sumFp ieee xs
  let mean := fdiv ieee s1.1 nf
  let ds := if layer then xs.map fun x => fsub ieee x mean.1 else xs.map fun x => (x, 0)
  let sq := ds.map fun d => fmul ieee d.1 d.1
  let s2 := sumFp ieee (sq.map (·.1))
  let v := fdiv ieee s2.1 nf
  let ve := fadd ieee v.1 k.eps
  let rs := frsqrt ieee ve.1
  let fl := (if layer then s1.2 ||| mean.2 else 0) ||| flagsOf ds ||| flagsOf sq ||| s2.2 ||| v.2 ||| ve.2 ||| rs.2
  let r := { r with flags := r.flags ||| fl }
  let r := ds.zipIdx.foldl (fun r d =>
    let g := w32 r.os (k.gamma + 4 * d.2)
    let t := fmul ieee d.1.1 rs.1
    let y := if layer then ffma ieee t.1 g (w32 r.os (k.beta + 4 * d.2)) else fmul ieee t.1 g
    putFmt ieee k.fmt { r with flags := r.flags ||| t.2 ||| y.2 } (k.y + i * k.py + d.2 * (sfBits k.fmt / 8)) y.1) r
  if k.stats = osNone then r
  else { r with os := Mem.writeLe (Mem.writeLe r.os (k.stats + 8 * i) 4 (if layer then mean.1 else 0)) (k.stats + 8 * i + 4) 4 rs.1 }

def norm (ieee layer : Bool) (b : List Byte) (os : Mem) : OsRes :=
  let k := normD b
  { (List.range k.rows).foldl (normRow ieee layer k) { os := os } with count := k.rows }

/-- The order of R157: whether a key is a NaN, and its rank. -/
def sortKey (fmt : Nat) (desc : Bool) (x : Nat) : Bool × Int :=
  if fmt = 1 ∧ isNan x = true then (true, 0)
  else
    let k : Int := if fmt = 0 then sx 32 x else if fmt = 1 then fkey x else (x : Int)
    (false, if desc then -k else k)

/-- Whether a key may stand before a later one (R157). -/
def keyLe (a b : Bool × Int) : Bool := if a.1 then b.1 else b.1 || decide (a.2 ≤ b.2)

/-- Insert before the first element that is not before it. -/
def insertBy {α : Type} (le : α → α → Bool) (x : α) : List α → List α
  | [] => [x]
  | y :: t => if le x y then x :: y :: t else y :: insertBy le x t

/-- A stable sort. -/
def sortBy {α : Type} (le : α → α → Bool) (xs : List α) : List α := xs.foldr (insertBy le) []

/-- SORT_KV (R158). -/
def sortKv (b : List Byte) (os : Mem) : OsRes :=
  let keys := fld b 16 4
  let vals := fld b 20 4
  let n := fld b 24 4
  let fmt := fld b 28 4
  let desc := bit (fld b 32 4) 0
  let es := (List.range n).map fun i => (w32 os (keys + 4 * i), if vals = osNone then 0 else w32 os (vals + 4 * i))
  let out := sortBy (fun a b => keyLe (sortKey fmt desc a.1) (sortKey fmt desc b.1)) es
  let os := out.zipIdx.foldl (fun os e => Mem.writeLe os (keys + 4 * e.2) 4 e.1.1) os
  let os := if vals = osNone then os else out.zipIdx.foldl (fun os e => Mem.writeLe os (vals + 4 * e.2) 4 e.1.2) os
  { os := os, count := n }

/-- The pitch of TOPK's outputs (R159). -/
def topPitch (k : Nat) : Nat := cdiv (4 * k) 128 * 128

/-- TOPK (R159). -/
def topkRows (b : List Byte) (os : Mem) : OsRes :=
  let x := fld b 16 4
  let ov := fld b 20 4
  let oi := fld b 24 4
  let rows := fld b 28 4
  let n := fld b 32 4
  let pitch := fld b 36 4
  let k := fld b 40 4
  let fmt := fld b 44 4
  let desc := !bit (fld b 48 4) 0
  let row (os : Mem) (i : Nat) : Mem :=
    let es := (List.range n).map fun j => (w32 os (x + i * pitch + 4 * j), j)
    let out := (sortBy (fun a b => keyLe (sortKey fmt desc a.1) (sortKey fmt desc b.1)) es).take k
    out.zipIdx.foldl (fun os e =>
      Mem.writeLe (Mem.writeLe os (ov + i * topPitch k + 4 * e.2) 4 e.1.1) (oi + i * topPitch k + 4 * e.2) 4 e.1.2) os
  { os := (List.range rows).foldl row os, count := rows * k }

/-- A column of a segment (R160): FP32 or INT32 by the format. -/
def segCol (ieee : Bool) (op fmt : Nat) (xs : List (Nat × Nat)) : Nat × Nat :=
  let vs := xs.map (·.1)
  let wide := flagsOf xs
  if fmt = 1 then
    match op, vs with
    | 0, _ => intResult 32 ieee (vs.foldl (fun a x => a + sx 32 x) 0)
    | 1, v :: t => (t.foldl (fun a x => if sx 32 a < sx 32 x then x else a) v, 0)
    | _, v :: t => (t.foldl (fun a x => if sx 32 x < sx 32 a then x else a) v, 0)
    | _, [] => (0, 0)
  else
    match op with
    | 0 => let r := sumFp ieee vs; (r.1, r.2 ||| wide)
    | 3 => let r := sumFp ieee vs; let q := fdiv ieee r.1 (i2f ieee vs.length).1; (q.1, r.2 ||| q.2 ||| wide)
    | _ =>
      let r := eeReduce ieee (if op = 1 then 0x49 else 0x4A) vs
      (r.1, r.2 ||| wide)

/-- SEGREDUCE (R160): segments in order until a bad bound. -/
def segReduce (ieee : Bool) (b : List Byte) (os : Mem) : OsRes :=
  let vals := fld b 16 4
  let offs := fld b 20 4
  let out := fld b 24 4
  let nseg := fld b 28 4
  let w := fld b 32 4
  let pitch := fld b 36 4
  let op := fld b 40 4
  let fmt := fld b 44 4
  let fill := fld b 48 4
  let size := sfBits fmt / 8
  let bound (os : Mem) (i : Nat) : Int := sx 32 (w32 os (offs + 4 * i))
  let badB (os : Mem) (i : Nat) : Bool :=
    let x := bound os i
    decide (x < 0) || (decide (0 < i) && decide (x < bound os (i - 1))) || osOut vals pitch x.toNat (w * size)
  (List.range nseg).foldl (fun (r : OsRes) s =>
    if r.status ≠ Err.ok then r
    else if (s = 0 ∧ badB r.os 0 = true) ∨ badB r.os (s + 1) = true then { r with status := .badarg }
    else
      let lo := (bound r.os s).toNat
      let hi := (bound r.os (s + 1)).toNat
      if op = 3 ∧ 2 ^ 24 < hi - lo then { r with status := .range }
      else
        let r := (List.range w).foldl (fun (r : OsRes) j =>
          let v := if lo = hi then (fill, 0)
            else segCol ieee op fmt ((List.range (hi - lo)).map fun i =>
              sfDecode ieee fmt 0 (Mem.readLe r.os (vals + (lo + i) * pitch + j * size) size))
          { r with os := Mem.writeLe r.os (out + s * pitch + 4 * j) 4 v.1, flags := r.flags ||| v.2 }) r
        { r with count := s + 1 }) { os := os }

/-- The set operations' place in A, B and the output. -/
structure SetSt where
  r : OsRes
  i : Nat := 0
  j : Nat := 0
  full : Bool := false

/-- SET_INTERSECT and SET_DIFF (R161): the output in order, until a bad key, a full output or the end. -/
def setOp (diff : Bool) (b : List Byte) (os : Mem) : OsRes :=
  let a := fld b 16 4
  let bb := fld b 20 4
  let na := fld b 24 4
  let nb := fld b 28 4
  let av := fld b 32 4
  let out := fld b 36 4
  let outv := fld b 40 4
  let cap := fld b 44 4
  let kw := fld b 48 4
  let key (os : Mem) (base i : Nat) : Nat := Mem.readLe os (base + kw * i) kw
  let badKey (os : Mem) (base n i : Nat) : Bool := decide (0 < i ∧ i < n) && decide (key os base i ≤ key os base (i - 1))
  let put (t : SetSt) : SetSt :=
    if cap ≤ t.r.count then { t with r := { t.r with status := .nomem }, full := true }
    else
      let o := Mem.writeLe t.r.os (out + kw * t.r.count) kw (key t.r.os a t.i)
      let o := if av = osNone then o else Mem.writeLe o (outv + 4 * t.r.count) 4 (w32 t.r.os (av + 4 * t.i))
      { t with r := { t.r with os := o, count := t.r.count + 1 }, i := t.i + 1 }
  ((List.range (na + nb)).foldl (fun (t : SetSt) _ =>
    if t.full ∨ na ≤ t.i ∨ (nb ≤ t.j ∧ diff = false) then t
    else if badKey t.r.os a na t.i ∨ badKey t.r.os bb nb t.j then { t with r := { t.r with status := .badarg }, full := true }
    else if nb ≤ t.j then put t
    else
      let x := key t.r.os a t.i
      let y := key t.r.os bb t.j
      if x < y then (if diff then put t else { t with i := t.i + 1 })
      else if y < x then { t with j := t.j + 1 }
      else if diff then { t with i := t.i + 1, j := t.j + 1 }
      else let u := put t; if u.full then u else { u with j := u.j + 1 }) { r := { os := os } }).r

/-- DROPOUT_MASK (R167). -/
def dropout (b : List Byte) (os : Mem) : OsRes :=
  let out := fld b 16 4
  let n := fld b 20 4
  let p24 := fld b 24 4
  let os := (List.range n).foldl (fun os e =>
    let r := rand64 (fld b 28 8) (fld b 36 4) ((fld b 40 8 + e) % 2 ^ 64)
    let old := (Mem.read os (out + e / 8)).toNat
    Mem.write os (out + e / 8) (BitVec.ofNat 8 (setBit old (e % 8) (decide (p24 ≤ r >>> 40))))) os
  { os := os, count := n }

/-- RAND_UNIFORM (R167). -/
def randUniform (b : List Byte) (os : Mem) : OsRes :=
  let out := fld b 16 4
  let n := fld b 20 4
  let os := (List.range n).foldl (fun os e =>
    let r := rand64 (fld b 24 8) (fld b 32 4) ((fld b 36 8 + e) % 2 ^ 64)
    Mem.writeLe os (out + 4 * e) 4 (FF.fp32.roundInt true (r >>> 40 : Nat) (-24) false).1) os
  { os := os, count := n }

/-- A routine's work on memory beyond the tile: the state, why it stopped, the status, COUNT_OUT, flags. -/
structure VaRes where
  s : State
  stop : HenEnd := .more
  status : Err := .ok
  count : Nat := 0
  flags : Nat := 0

/-- Where a routine runs: die, physical and logical tile, translation slot, context. -/
structure Where where
  d : Nat
  p : Nat
  i : Nat
  slot : Nat
  x : Nat
  ieee : Bool

def VaRes.going (r : VaRes) : Bool := decide (r.stop = .more) && decide (r.status = Err.ok)

/-- Read at a va. -/
def VaRes.rd (r : VaRes) (w : Where) (va n : Nat) : VaRes × List Byte :=
  if r.going then
    let x := r.s.vaRead w.d w.slot va n
    ({ r with s := x.1, stop := x.2.1 }, padTo n x.2.2)
  else (r, padTo n [])

/-- Write at a va. -/
def VaRes.wr (r : VaRes) (w : Where) (va : Nat) (bs : List Byte) : VaRes :=
  if r.going then
    let x := r.s.vaWrite w.d w.slot w.x va bs
    { r with s := x.1, stop := x.2 }
  else r

/-- Probe for a key (R163): the slot that holds it (true) or the first empty one (false), none in a full table. -/
def VaRes.probe (w : Where) (table log seed key : Nat) : Nat → Nat → VaRes → VaRes × Option (Nat × Bool × Nat)
  | 0, _, r => (r, none)
  | fuel + 1, n, r =>
    let a := table + 16 * hashSlot seed log key n
    let x := r.rd w a 16
    if !x.1.going then (x.1, none)
    else if leNat (x.2.take 8) = key then (x.1, some (a, true, leNat (x.2.drop 8)))
    else if leNat (x.2.take 8) = emptyKey then (x.1, some (a, false, 0))
    else VaRes.probe w table log seed key fuel (n + 1) x.1

/-- An order of n items drawn by free values, for work whose order varies (R163). -/
def freeOrder (draw : Nat) : Nat → List Nat → List Nat
  | 0, _ => []
  | n + 1, l =>
    let i := Config.undefBits draw n % max l.length 1
    l.getD i 0 :: freeOrder draw n (l.eraseIdx i)

/-- HASH_BUILD (R163): pairs in index order, or with PARALLEL in an order that varies. -/
def hashBuild (w : Where) (b : List Byte) (s : State) : VaRes :=
  let table := fld b 16 8
  let log := fld b 24 4
  let keys := fld b 28 8
  let vals := fld b 36 8
  let n := fld b 44 4
  let seed := fld b 48 8
  let order := if bit (fld b 56 4) 0 then freeOrder s.free n (List.range n) else List.range n
  order.foldl (fun (r : VaRes) i =>
    let k := r.rd w (keys + 8 * i) 8
    let key := leNat k.2
    if !k.1.going ∨ key = emptyKey then k.1
    else
      let p := VaRes.probe w table log seed key (2 ^ log) 0 k.1
      if !p.1.going then p.1
      else match p.2 with
        | none => { p.1 with status := .nomem }
        | some (_, true, _) => p.1
        | some (a, false, _) =>
          let v := p.1.rd w (vals + 8 * i) 8
          let r := v.1.wr w a (leBytes 8 key ++ v.2)
          if r.going then { r with count := r.count + 1 } else r) { s := s.drew }

/-- HASH_PROBE (R164). -/
def hashProbe (w : Where) (b : List Byte) (s : State) : VaRes :=
  let table := fld b 16 8
  let log := fld b 24 4
  let seed := fld b 28 8
  let qkeys := fld b 36 8
  let out := fld b 44 8
  let found := fld b 52 8
  let n := fld b 60 4
  let miss := fld b 64 8
  (List.range n).foldl (fun (r : VaRes) i =>
    let k := r.rd w (qkeys + 8 * i) 8
    let key := leNat k.2
    let p := if key = emptyKey then (k.1, none) else VaRes.probe w table log seed key (2 ^ log) 0 k.1
    if !p.1.going then p.1
    else
      let hit := match p.2 with
        | some (_, true, v) => some v
        | _ => none
      let r := p.1.wr w (out + 8 * i) (leBytes 8 (hit.getD miss))
      let r := if found = 0 then r
        else
          let f := r.rd w (found + i / 8) 1
          f.1.wr w (found + i / 8) (leBytes 1 (setBit (leNat f.2) (i % 8) hit.isSome))
      { r with count := r.count + b2n hit.isSome }) { s := s }

/-- The adjacency bounds of a vertex (R165, R166): first position and degree. -/
def VaRes.adj (r : VaRes) (w : Where) (offs v : Nat) : VaRes × Nat × Nat :=
  let x := r.rd w (offs + 8 * v) 16
  (x.1, leNat (x.2.take 8), (leNat (x.2.drop 8) + 2 ^ 64 - leNat (x.2.take 8)) % 2 ^ 64)

/-- FRONTIER_EXPAND (R165): the set of unvisited neighbours in ascending order. -/
def frontier (w : Where) (b : List Byte) (s : State) : VaRes :=
  let offs := fld b 16 8
  let adj := fld b 24 8
  let vis := fld b 32 8
  let nv := fld b 40 4
  let inp := fld b 44 4
  let nin := fld b 48 4
  let out := fld b 52 4
  let cap := fld b 56 4
  let os := (s.tile w.d w.p).os
  let g := (List.range nin).foldl (fun (r : VaRes × Tab Unit) i =>
    let v := w32 os (inp + 4 * i)
    if !r.1.going then r
    else if nv ≤ v then ({ r.1 with status := .range }, r.2)
    else
      let a := r.1.adj w offs v
      (List.range a.2.2).foldl (fun (r : VaRes × Tab Unit) p =>
        let x := r.1.rd w (adj + 4 * (a.2.1 + p)) 4
        let u := leNat x.2
        if !x.1.going then (x.1, r.2)
        else if nv ≤ u then ({ x.1 with status := .range }, r.2)
        else
          let m := x.1.rd w (vis + u / 8) 1
          (m.1, if !m.1.going ∨ bit (leNat m.2) (u % 8) = true then r.2 else Tab.put r.2 u ())) (a.1, r.2)) ({ s := s }, [])
  if !g.1.going then g.1
  else
    let us := (g.2.map (·.1)).take cap
    let r := us.zipIdx.foldl (fun (r : VaRes) e =>
      let m := r.rd w (vis + e.1 / 8) 1
      let r := m.1.wr w (vis + e.1 / 8) (leBytes 1 (setBit (leNat m.2) (e.1 % 8) true))
      if r.going then
        { r with s := r.s.modTile w.d w.p fun t => t.osWrite (out + 4 * e.2) (leBytes 4 e.1), count := r.count + 1 }
      else r) g.1
    if r.going ∧ cap < g.2.length then { r with status := .nomem } else r

/-- The positions SAMPLE_NEIGHBOURS takes of a vertex of degree d (R166), ascending. -/
def samplePos (seed stream v d fan : Nat) : List Nat :=
  if d ≤ fan then List.range d
  else
    let ranked := (List.range d).map fun p => (rand64 seed stream ((v * 2 ^ 32 + p) % 2 ^ 64), p)
    sortBy (fun a b => decide (a ≤ b))
      (((sortBy (fun (a b : Nat × Nat) => decide (a.1 < b.1 ∨ (a.1 = b.1 ∧ a.2 ≤ b.2))) ranked).take fan).map (·.2))

/-- SAMPLE_NEIGHBOURS (R166): every row is formed before any is written, so that a refusal writes nothing. -/
def sample (w : Where) (b : List Byte) (s : State) : VaRes :=
  let offs := fld b 16 8
  let adj := fld b 24 8
  let nv := fld b 32 4
  let seeds := fld b 36 4
  let n := fld b 40 4
  let fan := fld b 44 4
  let seed := fld b 48 8
  let stream := fld b 56 4
  let out := fld b 60 4
  let cnt := fld b 64 4
  let os := (s.tile w.d w.p).os
  let g := (List.range n).foldl (fun (r : VaRes × List (List Nat)) i =>
    let v := w32 os (seeds + 4 * i)
    if !r.1.going then r
    else if nv ≤ v then ({ r.1 with status := .range }, r.2)
    else
      let a := r.1.adj w offs v
      if !a.1.going then (a.1, r.2)
      else if 2 ^ 32 ≤ a.2.2 then ({ a.1 with status := .range }, r.2)
      else
        let row := (samplePos seed stream v a.2.2 fan).foldl (fun (q : VaRes × List Nat) p =>
          let x := q.1.rd w (adj + 4 * (a.2.1 + p)) 4
          if !x.1.going then (x.1, q.2)
          else if nv ≤ leNat x.2 then ({ x.1 with status := .range }, q.2)
          else (x.1, q.2 ++ [leNat x.2])) (a.1, [])
        (row.1, r.2 ++ [row.2])) ({ s := s }, [])
  if !g.1.going then g.1
  else
    let s := g.2.zipIdx.foldl (fun (s : State) e =>
      let row := e.1 ++ List.replicate (fan - e.1.length) 0xFFFFFFFF
      s.modTile w.d w.p fun t =>
        (t.osWrite (out + 4 * fan * e.2) (row.flatMap (leBytes 4))).osWrite (cnt + 4 * e.2) (leBytes 4 e.1.length)) g.1.s
    { g.1 with s := s, count := n }

/-- MM_TILED's body (R154). -/
structure MmD where
  a : Nat
  b : Nat
  c : Nat
  bias : Nat
  lda : Nat
  ldb : Nat
  ldc : Nat
  m : Nat
  n : Nat
  k : Nat
  kc : Nat
  flags : Nat
  epi : Nat
  scr : Nat
  scrLen : Nat

def mmD (b : List Byte) : MmD :=
  { a := fld b 16 8, b := fld b 24 8, c := fld b 32 8, bias := fld b 40 8, lda := fld b 48 4, ldb := fld b 52 4, ldc := fld b 56 4,
    m := fld b 60 4, n := fld b 64 4, k := fld b 68 4, kc := fld b 72 4, flags := fld b 76 4, epi := fld b 80 4, scr := fld b 84 4,
    scrLen := fld b 88 4 }

def MmD.fmt (k : MmD) : Nat := bits k.flags 7 0
def MmD.cf (k : MmD) : Nat := bits k.flags 11 8
def MmD.aT (k : MmD) : Bool := bit k.flags 12
def MmD.bT (k : MmD) : Bool := bit k.flags 13

/-- The one pass over all of K that the tiles' passes amount to (R106, R154): A from 0, B from 2^50, C0 from 2^51, scales from 2^52
in the image that its reads are taken from. -/
def MmD.pass (k : MmD) : PassD :=
  { k := k.k, m := k.m, n := k.n, fmt := k.fmt, mode := 2 * b2n k.aT + 4 * b2n k.bT + (if k.bias = 0 then 0 else 8),
    aBase := 0, bBase := 2 ^ 50, aPitch := k.lda, bPitch := k.ldb, aScale := 2 ^ 52, bScale := 2 ^ 53, biasBase := 2 ^ 51,
    biasPitch := 0 }

/-- Copy rows of an operand into the image. -/
def VaRes.rows (r : VaRes × Mem) (w : Where) (va pitch rows len at_ : Nat) : VaRes × Mem :=
  (List.range rows).foldl (fun (r : VaRes × Mem) i =>
    let x := r.1.rd w (va + i * pitch) len
    (x.1, if x.1.going then Mem.writeN r.2 (at_ + i * pitch) x.2 else r.2)) r

/-- One row of a tile of C through the epilogue program (R126, R154), whose length the spec leaves open: the lanes' values to OUT0 and
the flags, registers kept from row to row of the tile. -/
def epiRow (ieee : Bool) (prog : List EeI) (consts : List W32) (st : RowSt) (row : Nat) (plane : Tab Nat) : RowSt :=
  let k : RowIn := { ieee := ieee, consts := consts, row := row, lanes := plane.map (·.1), plane := plane, ins := [] }
  prog.foldl (fun (st : RowSt) i => st.exec k i) { st with o0 := [], o1 := [] }

/-- MM_TILED (R154): tiles of 128 rows by W columns in row-major tile order, each written once. The operands' scales in an MX format
are not among its arguments: they are free values (log entry 22). -/
def mmTiled (w : Where) (b : List Byte) (s : State) : VaRes :=
  let k := mmD b
  let p := k.pass
  let width := max ((s.cd w.d).width) 1
  let dmem := (s.tile w.d w.p).mem.dmem
  let consts := (List.range 8).map fun i => BitVec.ofNat 32 (Mem.readLe dmem (k.epi + 4 * i) 4)
  let words := (List.range (Config.epilogueLen (Mem.readN dmem k.epi 288))).map fun i => eeI (Mem.readLe dmem (k.epi + 32 + 4 * i) 4)
  let draw := s.free
  let r := VaRes.rows ({ s := s.drew }, []) w k.a k.lda p.aRows p.aRow 0
  let r := VaRes.rows r w k.b k.ldb p.bRows p.bRow (2 ^ 50)
  let r := if k.bias = 0 then r else VaRes.rows r w k.bias 0 1 (4 * k.n) (2 ^ 51)
  let rd (a n : Nat) : Nat := if 8 * 2 ^ 52 ≤ a then Config.undefBits draw a % 2 ^ n else loadBits r.2 a n
  let cell (i j : Nat) : Nat × Nat :=
    let c : CellV := { val := BitVec.ofNat 32 (p.c0 rd i j) }
    let c := if p.k = 0 ∨ p.int8 = true then c else c.first
    (p.cell rd w.ieee c i j 0 p.k).read p.int8 w.ieee
  let tiles := (List.range (cdiv k.m 128)).flatMap fun ti => (List.range (cdiv k.n width)).map fun tj => (128 * ti, width * tj)
  if k.m = 0 ∨ k.n = 0 then { r.1 with s := s }
  else tiles.foldl (fun (r : VaRes) t =>
    let cols := min width (k.n - t.2)
    let x := (List.range (min 128 (k.m - t.1))).foldl (fun (x : VaRes × RowSt) i =>
      let cs := (List.range cols).map fun j => (j, cell (t.1 + i) (t.2 + j))
      let plane := cs.map fun c => (c.1, c.2.1)
      let st := if k.epi = 0 then { x.2 with o0 := plane } else epiRow w.ieee words consts x.2 i plane
      let outs := st.o0.map fun e => (e.1, sfEncode w.ieee k.cf e.2)
      let r := outs.foldl (fun (r : VaRes) e =>
        r.wr w (k.c + (t.1 + i) * k.ldc + (t.2 + e.1) * (sfBits k.cf / 8)) (leBytes (sfBits k.cf / 8) e.2.1)) x.1
      let fl := cs.foldl (fun a c => a ||| c.2.2) 0 ||| outs.foldl (fun a e => a ||| e.2.2) 0 ||| st.fl.foldl (fun a f => a ||| f.2) 0
      ({ r with flags := r.flags ||| fl }, st)) (r, ({ v := [], m := [], fl := [] } : RowSt))
    if x.1.going then { x.1 with count := x.1.count + 1 } else x.1) r.1

end Sys2Proof.Machine
end

