-- ==== Sys2Proof/Machine/Calls.lean ====
section
/-! DEFINITION. Resident routine calls, bank switches, budgets and compatibility branches (R79, R91, R96, R97, R143 to R153). -/

namespace Sys2Proof.Machine

/-- The routine store in a Mule's map (R74). -/
def storeBase : Nat := 0x20000000

/-- A directory entry (R144). -/
structure DirE where
  offset : Nat
  length : Nat
  version : Nat
  flags : Nat
  tags : Nat
  deriving DecidableEq, Repr

/-- Directory entry n of a store (R143). -/
def dirEntry (m : Mem) (n : Nat) : DirE :=
  let b := Mem.readN m (0x400 + 16 * n) 16
  { offset := fld b 0 4, length := fld b 4 4, version := fld b 8 2, flags := fld b 10 2, tags := fld b 12 1 }

/-- The routines of the catalogue (R152) beyond NULL. -/
def catalogue : List Nat := [0x010, 0x020, 0x021, 0x022, 0x030, 0x031, 0x040, 0x050, 0x051, 0x060, 0x061, 0x070, 0x080, 0x081, 0x082]

/-- Whether a routine number names a routine whose results the catalogue gives: one at version 1 (R152). -/
def DirE.known (e : DirE) (n : Nat) : Bool := catalogue.contains n && e.version == 1

/-- Bytes of a catalogue routine's whole block (R147, R153). -/
def blockLen (n : Nat) : Nat :=
  match n with
  | 0x010 => 92 | 0x020 => 52 | 0x021 => 60 | 0x022 => 60 | 0x030 => 44 | 0x031 => 52 | 0x040 => 52 | 0x050 => 52 | 0x051 => 52
  | 0x060 => 64 | 0x061 => 76 | 0x070 => 64 | 0x080 => 72 | 0x081 => 48 | 0x082 => 44
  | _ => 16

/-- Refusals of a catalogue routine's arguments (R148, R153 to R167): misalignment, malformed fields, bytes outside the store, Hen
threads. -/
structure RtChecks where
  align : List Bool := []
  arg : List Bool := []
  range : List Bool := []
  threads : Option Nat := none
  scr : Nat × Nat := (0, 0)

/-- Argument checks by routine. -/
def rtChecks (n : Nat) (b : List Byte) : RtChecks :=
  let f (o : Nat) : Nat := fld b o 4
  let f8 (o : Nat) : Nat := fld b o 8
  let os (x : Nat) : Bool := decide (x % 128 ≠ 0)
  let opt (x : Nat) : Bool := decide (x ≠ osNone ∧ x % 128 ≠ 0)
  let va (x : Nat) : Bool := decide (x % 64 ≠ 0)
  let hi (x : Nat) : Bool := decide (2 ^ 48 ≤ x)
  let thr (o : Nat) : Bool := decide (f o = 0 ∨ 1024 < f o)
  match n with
  | 0x010 =>
    let k := mmD b
    let p := k.pass
    let e2 := if k.fmt = 2 ∨ k.fmt = 3 then 4 else if k.fmt = 7 then 1 else 2
    let need := 4 * 128 * k.kc * e2 / 2 + 2 * 65536 + (if 5 ≤ k.fmt then 4 * 128 * k.kc / 32 else 0)
    { align := [va k.a || va k.b || va k.c || va k.bias, decide (k.epi % 32 ≠ 0), os k.scr],
      arg := [decide (k.lda % 64 ≠ 0 ∨ k.ldb % 64 ≠ 0 ∨ k.ldc % 64 ≠ 0), decide (2 ^ 31 < k.m ∨ 2 ^ 31 < k.n ∨ 2 ^ 24 < k.k),
              decide (k.kc < 16 ∨ 32768 < k.kc ∨ k.kc % (if 5 ≤ k.fmt then 32 else 16) ≠ 0),
              decide (8 < k.fmt ∨ 7 ≤ k.cf ∨ 2 ^ 14 ≤ k.flags), p.mx && (k.aT || !k.bT || decide (k.k % 32 ≠ 0)),
              decide (k.epi = 0) && (sfFloat k.cf == p.int8)],
      range := [hi k.a || hi k.b || hi k.c || hi k.bias, decide (k.scrLen < need), osOut k.scr 0 1 k.scrLen,
                decide (k.epi ≠ 0 ∧ 0x80000 < k.epi + 32)],
      scr := (k.scr, k.scrLen) }
  | 0x020 =>
    let k := softD b
    { align := [os k.x || os k.y || opt k.mask],
      arg := [decide (k.rows = 0 ∨ 65536 < k.rows ∨ k.n = 0 ∨ 32768 < k.n), os k.px || os k.py, !posFinite k.scale,
              !([0, 2, 3].contains k.fmt)],
      range := [osOut k.x k.px k.rows (4 * k.n) || osOut k.y k.py k.rows (k.n * (sfBits k.fmt / 8)) ||
                (decide (k.mask ≠ osNone) && osOut k.mask (cdiv k.n 1024 * 128) k.rows (cdiv k.n 8))] }
  | 0x030 =>
    { align := [os (f 16) || opt (f 20), os (f 36)],
      arg := [decide (1048576 < f 24), decide (2 < f 28 ∨ 1 < f 32)],
      range := [osOut (f 16) 0 1 (4 * f 24) || (decide (f 20 ≠ osNone) && osOut (f 20) 0 1 (4 * f 24)), decide (f 40 < 8 * f 24),
                osOut (f 36) 0 1 (f 40)],
      scr := (f 36, f 40) }
  | 0x031 =>
    { align := [os (f 16) || os (f 20) || os (f 24)],
      arg := [decide (f 32 = 0 ∨ 32768 < f 32), os (f 36), decide (f 32 < f 40), decide (2 < f 44 ∨ 1 < f 48)],
      range := [osOut (f 16) (f 36) (f 28) (4 * f 32) || osOut (f 20) (topPitch (f 40)) (f 28) (4 * f 40) ||
                osOut (f 24) (topPitch (f 40)) (f 28) (4 * f 40)] }
  | 0x040 =>
    { align := [os (f 16) || os (f 20) || os (f 24)],
      arg := [decide (262144 < f 28), decide (f 32 = 0 ∨ 128 < f 32), os (f 36), decide (3 < f 40), !([0, 1, 2].contains (f 44)),
              decide (f 40 = 3 ∧ f 44 = 1)],
      range := [osOut (f 20) 0 1 (4 * (f 28 + 1)) || osOut (f 24) (f 36) (f 28) (4 * f 32)] }
  | 0x050 => setChecks b
  | 0x051 => setChecks b
  | 0x060 =>
    { align := [va (f8 16) || va (f8 28) || va (f8 36)],
      arg := [decide (f 24 < 4 ∨ 30 < f 24), decide (2 ^ 31 < f 44), decide (1 < f 56), thr 60],
      range := [hi (f8 16) || hi (f8 28) || hi (f8 36)], threads := some (f 60) }
  | 0x061 =>
    { align := [va (f8 16) || va (f8 36) || va (f8 44) || va (f8 52)],
      arg := [decide (f 24 < 4 ∨ 30 < f 24), decide (2 ^ 31 < f 60), thr 72],
      range := [hi (f8 16) || hi (f8 36) || hi (f8 44) || hi (f8 52)], threads := some (f 72) }
  | 0x070 =>
    { align := [va (f8 16) || va (f8 24) || va (f8 32), os (f 44) || os (f 52)],
      arg := [decide (f 40 = 0), decide (4194304 < f 48), thr 60],
      range := [hi (f8 16) || hi (f8 24) || hi (f8 32), osOut (f 44) 0 1 (4 * f 48) || osOut (f 52) 0 1 (4 * f 56)],
      threads := some (f 60) }
  | 0x080 =>
    { align := [va (f8 16) || va (f8 24), os (f 36) || os (f 60) || os (f 64)],
      arg := [decide (f 32 = 0), decide (f 44 = 0 ∨ 64 < f 44), thr 68],
      range := [hi (f8 16) || hi (f8 24), osOut (f 36) 0 1 (4 * f 40) || osOut (f 60) 0 1 (4 * f 40 * f 44) || osOut (f 64) 0 1 (4 * f 40)],
      threads := some (f 68) }
  | 0x081 =>
    { align := [os (f 16)], arg := [decide (33554432 < f 20), decide (16777216 < f 24)], range := [osOut (f 16) 0 1 (cdiv (f 20) 8)] }
  | 0x082 => { align := [os (f 16)], arg := [decide (33554432 < f 20)], range := [osOut (f 16) 0 1 (4 * f 20)] }
  | _ =>
    let k := normD b
    let layer := decide (n = 0x021)
    { align := [os k.x || os k.y || os k.gamma || (layer && os k.beta) || opt k.stats],
      arg := [decide (k.rows = 0 ∨ 65536 < k.rows ∨ k.n = 0 ∨ 32768 < k.n), os k.px || os k.py, !posFinite k.eps,
              !([0, 2, 3].contains k.fmt)],
      range := [osOut k.x k.px k.rows (4 * k.n) || osOut k.y k.py k.rows (k.n * (sfBits k.fmt / 8)) || osOut k.gamma 0 1 (4 * k.n) ||
                (layer && osOut k.beta 0 1 (4 * k.n)) || (decide (k.stats ≠ osNone) && osOut k.stats 0 1 (8 * k.rows))] }
where
  setChecks (b : List Byte) : RtChecks :=
    let f (o : Nat) : Nat := fld b o 4
    let os (x : Nat) : Bool := decide (x % 128 ≠ 0)
    { align := [os (f 16) || os (f 20), decide (f 32 ≠ osNone) && (os (f 32) || os (f 40)), os (f 36)],
      arg := [decide (4194304 < f 24 ∨ 4194304 < f 28), decide (f 48 ≠ 4 ∧ f 48 ≠ 8)],
      range := [osOut (f 16) 0 1 (f 48 * f 24) || osOut (f 20) 0 1 (f 48 * f 28) || osOut (f 36) 0 1 (f 48 * min (f 44) (f 24)) ||
                (decide (f 32 ≠ osNone) && (osOut (f 32) 0 1 (4 * f 24) || osOut (f 40) 0 1 (4 * min (f 44) (f 24))))] }

/-- The block's place in data memory, if the whole block lies there aligned (R147). -/
def blockAt (a : Nat) : Option Nat := if dmemBase ≤ a ∧ a < dmemBase + 0x80000 then some (a - dmemBase) else none

/-- The refusal of a routine's arguments, if any (R147 to R151). -/
def rtRefusal (t : Tile) (n blk free : Nat) (sched : Bool) : Option Err :=
  match blockAt blk with
  | none => some (if blk % 64 ≠ 0 then .align else .range)
  | some o =>
    let b := Mem.readN t.mem.dmem o 256
    let c := rtChecks n b
    let sp := (t.mule.x 2).toNat
    firstErr ([(decide (blk % 64 ≠ 0), Err.align)] ++ c.align.map (·, .align) ++
      [(decide (fld b 0 2 ≠ n ∨ fld b 2 2 ≠ blockLen n) || !zeroAt b 12 4 || (sched && decide (fld b 4 4 = 0)), .badarg)] ++
      c.arg.map (·, .badarg) ++
      [(decide (0x80000 < o + blockLen n) || decide (sp < dmemBase + 4096 ∨ dmemBase + 0x80000 < sp), .range)] ++
      c.range.map (·, .range) ++
      [(match c.threads with
        | some k => decide (free < k)
        | none => false, .quota)])

/-- A unit a routine needs that would refuse its instructions (R87): the code and the unit number of R77. -/
def State.rtBusy (s : State) (d p i n : Nat) : Option (Err × Nat) :=
  let t := s.tile d p
  let c := s.cd d
  let ee := decide (n = 0x010 ∨ n = 0x081 ∨ n = 0x082 ∨ (0x020 ≤ n ∧ n < 0x060))
  let hen := decide (0x060 ≤ n ∧ n ≤ 0x080)
  let eng (e : Nat) : Bool := let x : DmaEng := Tab.get {} c.dma.engines e; x.disabled || x.draining || decide (3 ≤ x.st)
  if n = 0x010 ∧ t.arr.plane0.st ≠ .empty ∧ t.arr.plane1.st ≠ .empty then some (.planeBusy, 1)
  else if t.sleep.st ≠ .running then some (.unitBusy, if hen then 4 else 2)
  else if n = 0x010 ∧ (t.arr.disabled ∨ t.arr.draining ∨ (t.arr.passes.any fun q => !q.inputDone) = true) then some (.unitBusy, 1)
  else if ee = true ∧ (t.ee.disabled ∨ t.ee.draining ∨ t.ee.run.isSome) then some (.unitBusy, 2)
  else if n = 0x010 ∧ (eng (2 * i) ∨ eng (2 * i + 1)) then some (.unitBusy, 3)
  else if hen = true ∧ (c.hen.sleep.st ≠ .running ∨ c.hen.disabled ∨ c.hen.draining ∨ c.hen.quiescing ∨ (c.hen.slotFor i).isNone) then some (.unitBusy, 4)
  else none

/-- What a catalogue routine does to the state once its arguments are accepted. -/
def State.rtWork (s : State) (w : Where) (n : Nat) (b : List Byte) : VaRes :=
  let os := (s.tile w.d w.p).os
  let onOs (r : OsRes) : VaRes :=
    { s := s.modTile w.d w.p fun t => { t with os := r.os }, status := r.status, count := r.count, flags := r.flags }
  match n with
  | 0x010 => mmTiled w b s
  | 0x020 => onOs (softmax w.ieee b os)
  | 0x021 => onOs (norm w.ieee true b os)
  | 0x022 => onOs (norm w.ieee false b os)
  | 0x030 => onOs (sortKv b os)
  | 0x031 => onOs (topkRows b os)
  | 0x040 => onOs (segReduce w.ieee b os)
  | 0x050 => onOs (setOp false b os)
  | 0x051 => onOs (setOp true b os)
  | 0x060 => hashBuild w b s
  | 0x061 => hashProbe w b s
  | 0x070 => frontier w b s
  | 0x080 => sample w b s
  | 0x081 => onOs (dropout b os)
  | _ => onOs (randUniform b os)

/-- `n` bytes that a routine leaves undefined (log entry 23). -/
def freeBytes (draw n : Nat) : List Byte := (List.range n).map fun i => BitVec.ofNat 8 (Config.undefBits draw i)

/-- What a routine that ran leaves undefined on its tile (R151): registers but sp and a0, the counts, 4 KiB below sp, its scratch
(log entry 23). -/
def Tile.clobber (t : Tile) (draw : Nat) (scr : Nat × Nat) : Tile :=
  let sp := (t.mule.x 2).toNat - dmemBase
  let m := (List.range 32).foldl (fun (m : Mule) i => if i = 2 ∨ i = 10 then m else m.setX i (Config.freeWord (draw + i))) t.mule
  let m := { m with lrCount := m.lrCount + Config.undefBits draw 0 % 2 ^ 32, instret := m.instret + Config.undefBits draw 1 % 2 ^ 32 }
  { t with mule := m, mem := { t.mem with dmem := Mem.writeN t.mem.dmem (sp - 4096) (freeBytes draw 4096) },
           os := if scr.2 = 0 then t.os else Mem.writeN t.os scr.1 (freeBytes (draw + 1) scr.2) }

/-- A routine's status in a0 and COUNT_OUT in its block (R147, R148); it stands at its RETR. -/
def Tile.rtDone (t : Tile) (blk : Nat) (e : Err) (count : Nat) : Tile :=
  let m := t.mule.setX 10 (BitVec.ofNat 64 e.code)
  { t with mule := { m with stack := match m.stack with
             | f :: rest => { f with ready := true } :: rest
             | [] => [] },
           mem := match blockAt blk with
             | some o => if blk % 64 = 0 then { t.mem with dmem := Mem.writeLe t.mem.dmem (o + 8) 4 (count % 2 ^ 32) } else t.mem
             | none => t.mem }

/-- The catalogue routine a Mule has entered does its work (R148): a refusal or a result leaves it at its RETR; a unit's refusal or a
failure halts the Mule; a page fault parks it, to work again once resolved. -/
def State.rtCall (s : State) (d p n blk : Nat) : State :=
  let t := s.tile d p
  let i := t.li
  let free := (s.cd d).freeThreads i
  match rtRefusal t n blk free (s.cx t.cx).scheduled with
  | some e => s.modTile d p fun t => t.rtDone blk e 0
  | none =>
    match s.rtBusy d p i n with
    | some (e, u) => s.muleFault d p e 1 u
    | none =>
      let b := Mem.readN t.mem.dmem ((blockAt blk).getD 0) 256
      let slot := ((s.cd d).tr.slotOf t.cx).getD 16
      let r := s.rtWork { d := d, p := p, i := i, slot := slot, x := t.cx, ieee := (s.cx t.cx).ieee } n b
      let unit := if n = 0x010 then 3 else 4
      match r.stop with
      | .fail e => s.muleFault d p e 2 unit
      | .park level va access =>
        if (Tab.get {} (s.cd d).tr.slots slot).fail then s.muleFault d p .pagefault 2 unit
        else
          let who : Requester :=
            { kind := if n = 0x010 then 0 else 1, no := if n = 0x010 then 2 * i else (s.cd d).hen.freeList.headD 0, call := some p }
          if ((s.cd d).tr.faults ++ (s.cd d).tr.overflow).any fun f => f.all.contains who then s
          else s.parkFault d slot t.cx who access level false va
      | _ =>
        let s := (r.s.orFlags d i r.flags 0).modTile d p fun t =>
          (t.clobber s.free (rtChecks n b).scr).rtDone blk r.status r.count
        s.drew 64

/-- Enter a routine (R91, R147, R149): the frame, a0 the block, ra and the return address, the PC at the routine's code, 8 cycles. -/
def Tile.enter (t : Tile) (rd n blk offset budget now : Nat) (ready : Bool) : Tile :=
  let ret := t.mule.pc + 4
  let m := { t.mule with stack := { rd := rd, ret := ret, number := n, block := blk, budget := budget, spent := 0, ready := ready,
                                    from_ := now } :: t.mule.stack }
  let m := ((m.spend 8).setX 10 (BitVec.ofNat 64 blk)).setX 1 ret
  { t with mule := { m with pc := BitVec.ofNat 64 (storeBase + offset), instret := m.instret + 1, brkSkip := false },
           mem := { t.mem with cycles := t.mem.cycles + 8 } }

/-- Complete a RETR (R79, R91): the status of the call goes to its rd, the PC to the return address; at a boundary with SWITCH_REQ the
banks are exchanged and execution goes on at SWITCH_PC. `extra` are the cycles not yet counted against the callers. -/
def Tile.leave (t : Tile) (extra : Nat) : Tile :=
  match t.mule.stack with
  | [] => t
  | f :: rest =>
    let switch := rest.isEmpty && t.mule.switchReq
    let m := ({ t.mule with stack := rest } : Mule).spend (extra + 6 + (if switch then 2 else 0))
    let m := m.setX f.rd (t.mule.x 10)
    let m := { m with st := .run, instret := m.instret + 1, brkSkip := false,
                      pc := if switch then BitVec.ofNat 64 (4 * m.switchPc) else f.ret }
    { t with mule := if switch then { m with bank := !m.bank, switchReq := false } else m,
             mem := { t.mem with wait := .none, cycles := t.mem.cycles + 6 + (if switch then 2 else 0) } }

/-- Whether a RETR is held up at its boundary by an outstanding write of window B (R79). -/
def Tile.loadHeld (t : Tile) : Bool := decide (t.mule.stack.length = 1) && t.mule.switchReq && t.mule.loadBusy

/-- Cycles of a call up to the end of its RETR (R149): those counted, and for a catalogue routine the time since its call. -/
def Frame.cycles (f : Frame) (now : Nat) : Nat :=
  (if catalogue.contains f.number then max f.spent (cdiv ((now - f.from_) * 5) 4) else f.spent) + 6

/-- RETR (R79, R85, R91, R149): a call at its budget returns, an early one pads, a late one halts the Mule. -/
def State.retr (s : State) (d p : Nat) : State :=
  let t := s.tile d p
  match t.mule.stack with
  | [] => s.muleFault d p .badcmd 0
  | f :: _ =>
    if t.mule.tags >>> 48 ≠ 0 then s.muleFault d p .seq 0
    else if t.loadHeld then s.muleFault d p .imemActive 0
    else if f.budget = 0 ∨ f.cycles s.aonNs = f.budget then s.modTile d p fun t => t.leave (f.cycles s.aonNs - 6 - f.spent)
    else if f.budget < f.cycles s.aonNs then s.muleFault d p .schedLate 0
    else s.modTile d p fun t => { t with mule := { t.mule with st := .pad }, mem := { t.mem with wait := .retPad } }

/-- RETR, after the work of a catalogue routine that a page fault has held up. -/
def execRetr (d : CdId) (p : PTile) (s : State) : Out :=
  s.muleStep d p none fun t =>
    match t.mule.stack with
    | f :: _ =>
      if f.ready then s.retr d p
      else
        let s := s.rtCall d p f.number f.block
        let u := s.tile d p
        if u.mule.st = .run ∧ (match u.mule.stack with
          | g :: _ => g.ready
          | [] => false) = true then s.retr d p else s
    | [] => s.retr d p

/-- The pad of a call ends (R149): its RETR completes at BUDGET. -/
def execRoutineBudgetPadEnd (d : CdId) (p : PTile) (s : State) : Out :=
  let t := s.tile d p
  if t.mule.st = .pad ∧ t.mem.wait = .retPad then
    match t.mule.stack with
    | f :: _ =>
      if t.loadHeld then .next ((s.modMule d p fun m => { m with st := .run }).muleFault d p .imemActive 0)
      else .next (s.modTile d p fun t => t.leave (f.budget - 6 - f.spent))
    | [] => .next s
  else .next s

/-- CALLR (R79, R91, R97, R146 to R149): routine 0 returns at once; a catalogue routine does its work and stands at its RETR; any
other runs as the Mule code the store holds. -/
def execCallr (d : CdId) (p : PTile) (rd rs1 : Fin 32) (imm : Fin 4096) (s : State) : Out :=
  s.muleStep d p none fun t =>
    let n := imm.val
    let e := dirEntry (s.cd d).rs.mem n
    let listed := match (s.cxx t.cx).prog with
      | some g => g.routines.any fun r => r % 4096 == n
      | none => false
    let blk := (t.mule.x rs1).toNat
    if e.offset = 0 ∨ 4 ≤ t.mule.stack.length ∨ (n ≠ 0 ∧ listed = false) then s.muleFault d p .range 0
    else if t.mule.arm.isSome = true ∧ bit e.flags 0 = false then s.muleFault d p .denied 0
    else
      let budget := match blockAt blk with
        | some o => if n = 0 ∨ blk % 64 ≠ 0 then 0 else Mem.readLe t.mem.dmem (o + 4) 4
        | none => 0
      let s := s.modCd d fun c => { c with rs := { c.rs with calls := c.rs.calls + 1 } }
      let s := s.modTile d p fun t => t.enter rd n blk e.offset budget s.aonNs (!e.known n)
      if n = 0 then (s.modMule d p fun m => m.setX 10 0).retr d p
      else if e.known n then s.rtCall d p n blk
      else if (s.cx t.cx).scheduled = true ∧ budget = 0 then s.modTile d p fun t => t.rtDone blk .badarg 0
      else s

/-- The condition of a compatibility branch (R96). -/
def Mule.urCond (m : Mule) (f3 : Nat) : Bool :=
  let v := m.sumVal.toNat
  let special := m.sumNan || m.sumInf
  match f3 with
  | 0 => decide (v % 2 ^ 31 = 0)
  | 1 => decide (v % 2 ^ 31 ≠ 0)
  | 2 => !special
  | 3 => special
  | 4 => fcmp 0 0 v
  | _ => fcmp 0 v 0

/-- UR.BR (R95, R96): the first arm follows, the second stands at the offset; an arm opens. -/
def execUrBr (d : CdId) (p : PTile) (f3 : Fin 8) (rs1 rs2 : Fin 32) (imm : BitVec 13) (s : State) : Out :=
  s.muleStep d p none fun t =>
    if t.mule.urMode = false ∨ rs1 ≠ 0 ∨ rs2 ≠ 0 ∨ 5 < f3.val then s.muleFault d p .badcmd 0
    else if t.mule.arm.isSome then s.muleFault d p .badcmd 0
    else if !t.mule.sumValid then s.muleFault d p .seq 0
    else
      let taken := !t.mule.urCond f3
      let pc := if taken then t.mule.pc + imm.signExtend 64 else t.mule.pc + 4
      (s.retire d p 0 0 pc (2 + (if taken then storeCost pc else 0))).modMule d p fun m => { m with arm := some {} }

/-- Close an arm (R96): execution goes on after the join. -/
def Mule.join (m : Mule) (pad : Nat) : Mule :=
  let m := ({ m with arm := none } : Mule).spend pad
  { m with st := .run, pc := m.pc + 4, instret := m.instret + 1, brkSkip := false }

/-- UR.JOIN (R96): an arm at its budget goes on, an early one pads, a late one halts the Mule. -/
def execUrJoin (d : CdId) (p : PTile) (rd rs1 : Fin 32) (imm : Fin 4096) (s : State) : Out :=
  s.muleStep d p none fun t =>
    if t.mule.urMode = false ∨ rd ≠ 0 ∨ rs1 ≠ 0 then s.muleFault d p .badcmd 0
    else match t.mule.arm with
      | none => s.muleFault d p .badcmd 0
      | some a =>
        if imm.val < a.spent then s.muleFault d p .schedLate 0
        else if a.spent = imm.val then s.modMule d p fun m => m.join 0
        else s.modTile d p fun t =>
          { t with mule := { t.mule with st := .pad, arm := some { a with budget := imm } }, mem := { t.mem with wait := .armPad } }

/-- The pad of an arm ends at its budget (R96). -/
def execUrPadEnd (d : CdId) (p : PTile) (s : State) : Out :=
  let t := s.tile d p
  match t.mule.arm with
  | some a =>
    if t.mule.st = .pad ∧ t.mem.wait = .armPad then
      .next (s.modTile d p fun t => { t with mule := t.mule.join (a.budget - a.spent), mem := { t.mem with wait := .none } })
    else .next s
  | none => .next s

end Sys2Proof.Machine
end

