-- ==== Sys2Proof/Machine/Hub.lean ====
section
/-! DEFINITION. The switch core: ingress, admission, egress, registers, spare banks (R228 to R249, R324 to R330, R392). -/

namespace Sys2Proof

open Machine

/-- Whether a header passes the first check of R235 (R324, R325). -/
def Hdr.good (h : Hdr) : Bool := decide (h.hcrc = h.crc) && decide (h.version = 1) && decide (h.length ≤ 4096)

/-- A unicast packet leaves on a link with its hop index raised and a new header CRC (R326); a multicast one unchanged. -/
def Packet.hopped (k : Packet) : Packet :=
  if k.hdr.mc then k else { k with hdr := { k.hdr with hop := k.hdr.hop + 1 }.seal }

end Sys2Proof

namespace Sys2Proof.Machine

/-- Rows of a network's region in a bank (R229). -/
def Hub.rows (h : Hub) (n : Nat) : Nat := if n = 0 then h.reqRows else 2048 - h.redRows - h.reqRows

/-- First row of a network's region. -/
def Hub.row0 (h : Hub) (n : Nat) : Nat := if n = 0 then 0 else h.reqRows

/-- Physical bank of a logical one (R249): 0x7FF when removed. -/
def HubMem.phys (m : HubMem) (b : Nat) : Nat := Tab.get b m.map b

/-- Whether a logical bank has been removed (R247). -/
def HubMem.gone (m : HubMem) (b : Nat) : Bool := m.phys b == 0x7FF

/-- Free cells of network n in stripe st (R228): every bank's rows less its cells in use. -/
def State.stripeFree (s : State) (n st : Nat) : Nat :=
  (List.range 32).foldl (fun a i =>
    let b := 32 * st + i
    if s.hubm.gone b then a else a + (s.hub.rows n - s.hub.usedIn n b)) 0

/-- Free cells of a network. -/
def State.netFree (s : State) (n : Nat) : Nat := (List.range 32).foldl (fun a st => a + s.stripeFree n st) 0

/-- U(n) (R242). -/
def Hub.unconsumed (h : Hub) (n : Nat) : Nat :=
  (List.range 54).foldl (fun a o => let q := h.queue (queueNo o n 0); a + (q.rsv - q.len)) 0

/-- F(n) (R242). -/
def State.hubF (s : State) (n : Nat) : Nat :=
  let least := (List.range 31).foldl (fun a i => min a (s.stripeFree n (i + 1))) (s.stripeFree n 0)
  32 * least - s.hub.unconsumed n

/-- The admission threshold of a class and network (R242). -/
def State.threshold (s : State) (n c : Nat) : Nat :=
  (s.hubF n * 2 ^ bits s.hub.alpha (8 * n + 4 * (c - 1) + 3) (8 * n + 4 * (c - 1))) >>> 8

/-- Rows in use in a bank. -/
def Hub.rowsUsed (h : Hub) (b : Nat) : List Nat :=
  h.pkts.flatMap fun k => (k.2.cells.filter fun c => c % 1024 == b).map (· / 1024)

/-- The banks a die port writes to in one cycle (R232): those of the stripe with a free cell, fewest cells first. -/
def State.banksFor (s : State) (n st : Nat) : List Nat :=
  let free := (List.range 32).map (32 * st + ·) |>.filter fun b => !s.hubm.gone b && decide (s.hub.usedIn n b < s.hub.rows n)
  sortBy (fun a b => decide (s.hub.usedIn 0 a + s.hub.usedIn 1 a ≤ s.hub.usedIn 0 b + s.hub.usedIn 1 b)) free

/-- Write a cell of network n into a bank: the lowest free row. A cell that gave an uncorrectable error is then rewritten (R245). -/
def State.putCell (s : State) (n b : Nat) (taken : List Nat) : State × Nat :=
  let used := s.hub.rowsUsed b ++ taken
  let row := ((List.range (s.hub.rows n)).map (s.hub.row0 n + ·) |>.filter fun r => !used.contains r).headD 0
  let c := b + 1024 * row
  ({ s with hub := { s.hub with used := Tab.set 0 s.hub.used (1024 * n + b) (s.hub.usedIn n b + 1) },
            hubm := { s.hubm with ueCell := if Tab.get 0 s.hubm.ueCell c = 1 then Tab.set 0 s.hubm.ueCell c 2 else s.hubm.ueCell } }, c)

/-- Write `n` cells of a network from a stripe on (R232): up to 8 a cycle, each to another bank of the cycle's stripe. -/
def State.putCells (s : State) (net : Nat) : Nat → Nat → Nat → List Nat → State × List Nat
  | 0, _, _, acc => (s, acc)
  | fuel + 1, n, st, acc =>
    if n = 0 then (s, acc)
    else
      let bs := (s.banksFor net (st % 32)).take (min n 8)
      let r := bs.foldl (fun (r : State × List Nat) b =>
        let x := r.1.putCell net b ((r.2.filter fun c => c % 1024 == b).map (· / 1024))
        (x.1, r.2 ++ [x.2])) (s, acc)
      r.1.putCells net fuel (n - bs.length) (st + 1) r.2

/-- Whether an output is in service. -/
def Hub.outIn (h : Hub) (o : Nat) : Bool := h.up && Tab.get false h.outUp o

/-- The selector of the lowest free descriptor number. -/
def Hub.newDesc (h : Hub) : Nat := (h.pkts.foldl (fun a e => max a (e.1 + 1)) 0)

/-- Descriptors and queue entries in use (R236). -/
def Hub.entriesUsed (h : Hub) : Nat := h.queues.foldl (fun a q => a + q.2.entries.length) 0

/-- Append a packet to a member queue (R236, R237). -/
def Hub.enqueue (h : Hub) (o n c d cells : Nat) : Hub :=
  let q := h.queue (queueNo o n c)
  h.setQueue (queueNo o n c) { q with entries := q.entries ++ [{ desc := d }], len := q.len + cells, pkts := q.pkts + 1 }

/-- Count a drop on a member (R242, R244). -/
def Hub.dropOn (h : Hub) (o n c : Nat) : Hub :=
  let q := h.queue (queueNo o n c)
  h.setQueue (queueNo o n c) { q with dropped := q.dropped + 1 }

/-- Why a member does not take a packet of c cells (R241, R242), none when it does. -/
def State.memberErr (s : State) (k : Packet) (o : Nat) : Option Err :=
  let n := k.hdr.net
  let c := k.hdr.cls
  let cells := k.cells
  let q := s.hub.queue (queueNo o n c)
  if c = 0 then
    if q.rsv < q.len + cells then some .quota
    else if s.netFree n < cells then some .nomem
    else none
  else if s.threshold n c < q.len + cells then some .quota
  else none

/-- Admission (R240 to R243): a SCHED member that fails is logged, every member that fails counts a drop; stored once with a reference
for each member admitted. -/
def State.takeIn (s : State) (src : Nat) (k : Packet) (members : List Nat) (stripe : Nat) : State :=
  let n := k.hdr.net
  let c := k.hdr.cls
  let cells := k.cells
  let full := decide (262144 ≤ s.hub.pkts.length) || decide (524288 < s.hub.entriesUsed + members.length) ||
    (decide (c ≠ 0) && decide (s.netFree n < s.hub.unconsumed n + cells))
  let judged := members.map fun o => (o, if full then some Err.quota else s.memberErr k o)
  let bad := judged.filterMap fun e => e.2.map fun x => (e.1, x)
  let ok := (judged.filter fun e => e.2.isNone).map (·.1)
  let s := bad.foldl (fun s e =>
    let s := { s with hub := s.hub.dropOn e.1 n c }
    if c = 0 then
      s.raise 16 0x01 3 e.2 (leBytes 2 e.1 ++ [BitVec.ofNat 8 n, 0] ++ leBytes 2 k.hdr.period ++ leBytes 2 0 ++ leBytes 4 k.hdr.collId)
        k.hdr.ctx
    else s) s
  if ok = [] then { s with hub := { s.hub with drops := s.hub.drops + 1 } }
  else
    let f := s.flightOpen src k.hdr.epoch ok.length
    let r := f.1.putCells n (32 * cells + 32) cells stripe []
    let d := r.1.hub.newDesc
    let h := { r.1.hub with pkts := Tab.set {} r.1.hub.pkts d { pkt := k, src := src, cells := r.2, refs := ok.length, serial := f.2 },
                            pktsIn := r.1.hub.pktsIn + 1 }
    { r.1 with hub := ok.foldl (fun h o => h.enqueue o n c d cells) h }

/-- A packet that no output can take (third row of R235). -/
def State.routeError (s : State) (k : Packet) : State :=
  ({ s with hub := { s.hub with routeErr := sat 32 (s.hub.routeErr + 1) } }).raise 16 0x01 2 .route [] k.hdr.ctx

/-- A packet that needs a table whose version is EMPTY (R329). -/
def State.epochError (s : State) (k : Packet) : State :=
  ({ s with rt := { s.rt with epochErr := sat 32 (s.rt.epochErr + 1) } }).raise 16 0x05 2 .epoch [] k.hdr.ctx

/-- What the hub makes of a packet's header (R326 to R329). -/
inductive Resolved where
  | out (k : Packet) (members : List Nat) (cont : Bool)
  | noRoute
  | noEpoch
  deriving DecidableEq, Repr

/-- A unicast selector (R326). -/
def unicast (k : Packet) (cont : Bool) : Resolved :=
  let sel := k.hdr.sel k.hdr.hop
  if 54 ≤ sel ∨ (sel < 36 ∧ k.hdr.hop = 15) then .noRoute else .out k [sel] cont

/-- Resolve a packet that entered through port src (R326 to R329). -/
def State.resolve (s : State) (src : Nat) (k : Packet) : Resolved :=
  let e := k.hdr.epoch
  let h := k.hdr
  if h.mc then
    if s.rt.ver e = .empty then .noEpoch
    else
      let x := Tab.get 0 (if e = 0 then s.rt.mc0 else s.rt.mc1) h.group
      let ms := (List.range 54).filter fun o => bit x o && o != src
      if !bit x 63 ∨ ms = [] then .noRoute else .out k ms false
  else if h.sel h.hop = 54 then
    if 14 ≤ h.hop then .noRoute
    else if s.rt.ver e = .empty then .noEpoch
    else
      let x := Tab.get (0, false) (if e = 0 then s.rt.cont0 else s.rt.cont1) (h.sel (h.hop + 1) + 64 * h.sel (h.hop + 2))
      if x.2 then unicast { k with hdr := { h with route := x.1, hop := 0 }.seal } true else .noRoute
  else unicast k false

/-- Members out of service are dropped (R244); with none left the packet finds no route. -/
def State.toMembers (s : State) (src : Nat) (k : Packet) (members : List Nat) (cont : Bool) (stripe : Nat) : State :=
  let s := if cont then { s with rt := { s.rt with conts := s.rt.conts + 1 } } else s
  let off := members.filter fun o => !s.hub.outIn o
  let on := members.filter fun o => s.hub.outIn o
  if on = [] then s.routeError k
  else ({ s with hub := off.foldl (fun h o => h.dropOn o k.hdr.net k.hdr.cls) s.hub }).takeIn src k on stripe

/-- The entry shaper of a die port and a link (R392): port n for CDn, 16 for HD. -/
def Xport.shaper (x : Xport) (port l : Nat) : EntrySh := Tab.get {} x.shapers (36 * port + l)

/-- Pass the shaper with a packet, or wait (R389, R392). -/
def State.shape (s : State) (port l : Nat) (k : Packet) : State × Bool :=
  let e := s.xp.shaper port l
  let t := shaperNow e.tokens e.tLast s.xp.entryRate 4224 s.now
  let put (e : EntrySh) : State := { s with xp := { s.xp with shapers := Tab.set {} s.xp.shapers (36 * port + l) e } }
  if e.waiting = [] ∧ 0 ≤ t then (put { e with tokens := t - ((128 * k.cells * 65536 : Nat) : Int), tLast := s.now }, true)
  else (put { e with waiting := e.waiting ++ [k] }, false)

/-- A packet past the entry shaper is resolved and admitted (R235). -/
def State.enterHub (s : State) (src : Nat) (k : Packet) (stripe : Nat) : State :=
  match s.resolve src k with
  | .noRoute => s.routeError k
  | .noEpoch => s.epochError k
  | .out k ms cont => s.toMembers src k ms cont stripe

/-- HUB_PACKET_INGRESS (R235, R392, R532): a packet from port src, its cells written from a stripe on. -/
def State.ingress (s : State) (src : Nat) (k : Packet) (stripe : Nat) : State :=
  if !s.hub.up then s
  else if k.poison then { s with hub := { s.hub with poison := sat 32 (s.hub.poison + 1) } }
  else if !k.hdr.good ∨ k.hdr.cls = 3 then { s with hub := { s.hub with hdrErr := sat 32 (s.hub.hdrErr + 1) } }
  else
    let link := match s.resolve src k with
      | .out _ ms _ => List.find? (fun o => decide (o < 36)) ms
      | _ => none
    match link with
    | some l =>
      if k.hdr.cls = 1 ∧ 36 ≤ src ∧ src < 53 then
        let r := s.shape (src - 36) l k
        if r.2 then r.1.enterHub src k stripe else r.1
      else s.enterHub src k stripe
    | none => s.enterHub src k stripe

def execHubPacketIngress (src : Fin 54) (k : Packet) (stripe : Fin 32) (s : State) : Out := .next (s.ingress src k stripe)

/-- The head packet of an entry shaper passes when its tokens allow (R389, R392). -/
def execEntryShaperRelease (port : Fin 17) (l : LinkId) (s : State) : Out :=
  let e := s.xp.shaper port l
  match e.waiting with
  | [] => .next s
  | k :: rest =>
    let t := shaperNow e.tokens e.tLast s.xp.entryRate 4224 s.now
    if 0 ≤ t then
      let e := { e with tokens := t - ((128 * k.cells * 65536 : Nat) : Int), tLast := s.now, waiting := rest }
      let s := { s with xp := { s.xp with shapers := Tab.set {} s.xp.shapers (36 * port.val + l.val) e } }
      .next (if s.hub.up then s.enterHub (36 + port.val) k 0 else s)
    else .next s

/-- D of R238. -/
def Hub.shareD (h : Hub) : Nat := if h.share = 0 then 32 else if h.share = 1 then 16 else 8

/-- Queues an egress cycle may serve, in order (R238); a packet begun is finished first. -/
def Hub.order (h : Hub) (o : Nat) (unsched : Bool) : List Nat :=
  let l := (if unsched then [(1, 2), (0, 2), (1, 1), (0, 1)] else [(1, 0), (0, 0)]).map fun e : Nat × Nat => queueNo o e.1 e.2
  let begun (q : Nat) : Bool := match (h.queue q).entries with
    | e :: _ => decide (0 < e.sent)
    | [] => false
  l.filter begun ++ l.filter fun q => !begun q

/-- The credit pool of a class and network (R315). -/
def poolOf (n c : Nat) : Nat := 2 * c + n

/-- The head entry of a queue leaves it; its packet has been sent, or ended with the poison marker. -/
def State.dequeue (s : State) (q : Nat) (k : HubPkt) (e : QEntry) : State :=
  let u := s.hub.queue q
  let h := s.hub.setQueue q { u with entries := u.entries.tail, len := u.len - k.cells.length, pkts := u.pkts - 1, sent := u.sent + 1 }
  let h := { h with pkts := Tab.set {} h.pkts e.desc { k with left := true }, pktsOut := h.pktsOut + 1 }
  { s with hub := h.release e.desc }

/-- An uncorrectable cell is read (R245, R249, R441): counted and logged; hard when the cell was rewritten since its last one. -/
def State.hubUe (s : State) (cell o : Nat) : State :=
  let m := s.hubm
  let phys := m.phys (cell % 1024)
  let row := cell / 1024
  let hard := decide (Tab.get 0 m.ueCell cell = 2)
  let data := leBytes 2 phys ++ leBytes 2 row ++ leBytes 2 o
  let s := { s with hubm := { m with ue := m.ue + 1, bankUe := Tab.set 0 m.bankUe phys (sat 8 (Tab.get 0 m.bankUe phys + 1)),
                                     rowUe := Tab.set 0 m.rowUe (phys * 2048 + row) (Tab.get 0 m.rowUe (phys * 2048 + row) + 1),
                                     ueCell := Tab.set 0 m.ueCell cell 1 } }
  let s := s.raise 16 0x02 3 .uncorr data 0xFFFF (some 14) 5
  if hard then
    { s with health := { s.health with hard := true, hardUe := s.health.hardUe + 1 } }.raise 16 0x02 5 .uncorr data
  else s

/-- A corrected cell is counted against its bank (R245, R249). -/
def HubMem.corrected (m : HubMem) (cell : Nat) : HubMem :=
  let p := m.phys (cell % 1024)
  { m with ce := m.ce + 1, bankCe := Tab.set 0 m.bankCe p (sat 24 (Tab.get 0 m.bankCe p + 1)) }

/-- An output reads cell `e.sent` of the packet at the head of a queue (R237, R239, R245). -/
def State.readCell (s : State) (o q : Nat) (e : QEntry) (chk : Nat) : State :=
  let k := Tab.get {} s.hub.pkts e.desc
  let n := k.pkt.hdr.net
  let c := k.pkt.hdr.cls
  let cell := k.cells.getD e.sent 0
  let last := decide (k.cells.length ≤ e.sent + 1)
  let s := if chk = 1 then { s with hubm := s.hubm.corrected cell } else if chk = 2 then s.hubUe cell o else s
  let ends := last || decide (chk = 2)
  let s := if o < 36 then
      let bytes := (k.pkt.hopped.bytes.drop (128 * e.sent)).take 128
      let slot : TxSlot := { slot := .cell n c (decide (e.sent = 0)) last (decide (chk = 2)) bytes,
                             serial := if ends then some k.serial else none }
      let s := s.modLink o fun l => { l with credits := Tab.set 0 l.credits (poolOf n c) (Tab.get 0 l.credits (poolOf n c) - 1) }
      s.modLx o fun x => if c = 0 then { x with txSched := x.txSched ++ [slot] } else { x with txUns := x.txUns ++ [slot] }
    else if ends then (s.emit (.packet o { k.pkt with poison := decide (chk = 2) })).copyLeaves k.serial
    else s
  if ends then s.dequeue q k e
  else
    let u := s.hub.queue q
    { s with hub := s.hub.setQueue q { u with entries := { e with sent := e.sent + 1 } :: u.entries.tail } }

/-- HUB_EGRESS_CELL (R238, R239): one egress cycle of an output. `chk` is what the check code finds: 0 clean, 1 corrected, 2
uncorrectable. -/
def execHubEgressCell (o : Fin 53) (chk : Fin 3) (s : State) : Out :=
  if !s.hub.outIn o then .next s
  else
    let c := Tab.get 0 s.hub.cycle o.val
    let unsched := decide (c % s.hub.shareD = s.hub.shareD - 1)
    let s := { s with hub := { s.hub with cycle := Tab.set 0 s.hub.cycle o.val (c + 1) } }
    match List.find? (fun q => (s.hub.queue q).entries ≠ []) (s.hub.order o unsched) with
    | none => .next s
    | some q =>
      match (s.hub.queue q).entries with
      | [] => .next s
      | e :: _ =>
        let k := Tab.get {} s.hub.pkts e.desc
        if o.val < 36 ∧ Tab.get 0 (s.link o).credits (poolOf k.pkt.hdr.net k.pkt.hdr.cls) = 0 then .next s
        else .next (s.readCell o q e chk)

/-- A write of HUB_PARTITION (R230, R248). -/
def State.hubPartition (s : State) (v : Nat) : Except Err State :=
  let req := bits v 10 0
  let red := bits v 21 11
  if 1024 < red ∨ req < 128 ∨ 2048 < req + red + 128 then .error .range
  else if s.hub.pkts ≠ [] ∨ s.hub.queues.any (fun q => decide (q.2.entries ≠ [])) = true ∨
      s.ox.binds.any (fun b => decide (b.2.st = .open ∨ b.2.st = .running)) = true then .error .busy
  else .ok { s with hub := { s.hub with reqRows := req, redRows := red } }

def execHubPartitionWrite (v : Word) (s : State) : Out := wrote s (s.hubPartition v.toNat)

/-- A write of HUB_DT_ALPHA (R242, R243): codes 12 to 15 store 11. -/
def State.hubAlpha (s : State) (v : Nat) : State :=
  let f (i : Nat) : Nat := min 11 (bits v (4 * i + 3) (4 * i)) * 2 ^ (4 * i)
  { s with hub := { s.hub with alpha := f 0 + f 1 + f 2 + f 3 } }

def execHubDtAlphaWrite (v : Word) (s : State) : Out := .next (s.hubAlpha v.toNat)

/-- A write of HUB_EGRESS_SHARE (R248). -/
def State.hubShare (s : State) (v : Nat) : Except Err State :=
  if v % 4 = 3 then .error .badarg
  else if s.anyLaunch then .error .busy
  else .ok { s with hub := { s.hub with share := v % 4 } }

def execHubEgressShareWrite (v : Word) (s : State) : Out := wrote s (s.hubShare v.toNat)

/-- A TAKE written to HUB_SNAP (R248): the tables of one instant, unless a copy is under way. -/
def State.hubSnap (s : State) : State :=
  if s.hub.snapBusy then s
  else { s with hub := { s.hub with
    snapBusy := true, snapReady := false, snapTime := s.now, snapTaken := s.hub.queues,
    snapFreeT := s.netFree 0 + s.netFree 1 * 2 ^ 22, snapUnrsvT := s.hub.unconsumed 0 + s.hub.unconsumed 1 * 2 ^ 22 } }

def execHubSnapTake (s : State) : Out := .next s.hubSnap

/-- The copy is complete: the shadow shows it (R248). -/
def execHubSnapComplete (s : State) : Out :=
  if !s.hub.snapBusy then .next s
  else .next { s with hub := { s.hub with
    snapBusy := false, snapReady := true, snapQueues := s.hub.snapTaken, snapTaken := [], snapFree := s.hub.snapFreeT,
    snapUnrsv := s.hub.snapUnrsvT } }

/-- A write of HUB_BANK_MIGRATE (R246, R247, R249). -/
def State.bankMigrate (s : State) (v : Nat) : Except Err State :=
  let b := bits v 9 0
  let m := { s.hubm with logicalSel := b }
  if !bit v 10 then .ok { s with hubm := m }
  else if m.migrating.isSome then .error .busy
  else if 32 ≤ m.sparesUsed then .error .nomem
  else if m.gone b then .error .range
  else .ok { s with hubm := { m with migrating := some (b, 1024 + m.sparesUsed), done := false, code := .ok } }

def execHubBankMigrateStart (v : Word) (s : State) : Out := wrote s (s.bankMigrate v.toNat)

/-- A bank migration completes (R246): HUB_BANK_MAP changes in one step. -/
def execHubBankMigrationComplete (s : State) : Out :=
  match s.hubm.migrating with
  | none => .next s
  | some (b, p) =>
    let s' : State := { s with hubm := { s.hubm with migrating := none, done := true, code := .ok, sparesUsed := s.hubm.sparesUsed + 1,
                                                     map := Tab.set b s.hubm.map b p } }
    .next (s'.substituted 16 0x02 3 b (s.hubm.phys b) p)

/-- A retired bank is removed when no spare is left (R247, R277): its cells leave the networks, its lines the region. -/
def execHubBankRemove (b : Fin 1024) (s : State) : Out :=
  if s.hubm.sparesUsed < 32 ∨ s.hubm.migrating.isSome ∨ s.hubm.gone b = true then .next s
  else
    let old := s.hubm.phys b
    let s := { s with hubm := { s.hubm with removed := s.hubm.removed + 1, map := Tab.set b.val s.hubm.map b.val 0x7FF },
                      ox := { s.ox with linesRemoved := s.ox.linesRemoved + s.hub.redRows } }
    .next (s.substituted 16 0x02 3 b old 0x7FF 4 .nomem)

end Sys2Proof.Machine
end

