-- ==== Sys2Proof/Machine/OxProg.lean ====
section
/-! DEFINITION. Programs of the Ox: their fields, checks, units and lines (R254 to R264, R277, R284, R285). -/

namespace Sys2Proof.Machine

/-- An output specification (R255). -/
structure OutSpec where
  route : Nat
  group : Nat
  netcls : Nat
  kind : Nat
  run : Nat
  rest : Nat
  deriving DecidableEq, Repr

/-- An instruction (R261). -/
structure OxI where
  op : Nat
  dst : Nat
  a : Nat
  b : Nat
  kfmt : Nat
  ca : Nat
  cb : Nat
  imm : Nat
  pred : Nat
  rsv : Nat
  desc : Bool
  deriving DecidableEq, Repr

def oxI (w : Nat) : OxI :=
  { op := bits w 63 56, dst := bits w 55 52, a := bits w 51 48, b := bits w 47 44, kfmt := bits w 43 40, ca := bits w 39 36,
    cb := bits w 35 32, imm := bits w 31 16, pred := bits w 15 8, rsv := bits w 7 1, desc := bit w 0 }

/-- A program entry (R254). -/
structure OxP where
  nins : Nat
  inputs : Nat
  fmt : Nat
  ofmt : Nat
  groupN : Nat
  groups : Nat
  units : Nat
  expect : Nat
  lines : Nat
  runs : List Nat
  rw : List Nat
  consts : List Nat
  outs : List OutSpec
  code : List OxI

def outSpec (bs : List Byte) : OutSpec :=
  { route := fld bs 0 12, group := fld bs 12 2, netcls := fld bs 14 1, kind := fld bs 15 1, run := fld bs 16 2, rest := fld bs 18 14 }

def oxP (b : List Byte) : OxP :=
  { nins := fld b 0 1, inputs := fld b 1 1, fmt := fld b 2 1 % 16, ofmt := fld b 2 1 / 16, groupN := fld b 3 1, groups := fld b 4 2,
    units := fld b 6 1, expect := fld b 8 4, lines := fld b 0xC 4,
    runs := (List.range 8).map fun i => fld b (0x10 + i) 1, rw := (List.range 8).map fun i => fld b (0x18 + i) 1,
    consts := (List.range 8).map fun i => fld b (0x40 + 8 * i) 8,
    outs := (List.range 4).map fun i => outSpec (b.drop (0x80 + 32 * i)),
    code := (List.range (min 24 (fld b 0 1))).map fun i => oxI (fld b (0x100 + 8 * i) 8) }

def OxP.runsOf (p : OxP) (i : Nat) : Nat := p.runs.getD i 0
def OxP.rwOf (p : OxP) (i : Nat) : Nat := p.rw.getD i 0
def OxP.out (p : OxP) (o : Nat) : OutSpec := p.outs.getD o (outSpec [])
def OxP.ins (p : OxP) (i : Nat) : OxI := p.code.getD i (oxI 0)

/-- I0 carries elements (R254, R256). -/
def OxP.elements (p : OxP) : Bool := bit p.inputs 0 && decide (p.rwOf 0 = 0)

/-- The RED instruction's operation, if any. -/
def OxP.red? (p : OxP) : Option Nat := (List.find? (fun i : OxI => decide (1 ≤ i.op ∧ i.op ≤ 3)) p.code).map (·.op)

/-- Bytes of an element in a format of R254. -/
def oxSize (f : Nat) : Nat := if f < 2 then 4 else 2

/-- The floating-point format of a code of R254. -/
def oxFF (f : Nat) : FF := if f = 2 then .bf16 else if f = 3 then .fp16 else .fp32

/-- Operations that read records. -/
def isRecOp (op : Nat) : Bool := decide (op ∈ [0x10, 0x11, 0x12, 0x18, 0x20, 0x21, 0x22, 0x28, 0x29, 0x30])
def isSetOp (op : Nat) : Bool := decide (0x20 ≤ op ∧ op ≤ 0x22)

/-- Streams an instruction reads. -/
def OxI.sources (i : OxI) : List Nat := if isSetOp i.op then [i.a, i.b] else [i.a]

/-- The stream an instruction writes; LOAD writes the table. -/
def OxI.dest (i : OxI) : Option Nat := if i.op = 0x28 then none else some i.dst

/-- What the dataflow check knows of a T or an O: the operation that writes it, whether it is a single run, its record width. -/
structure TInfo where
  op : Nat
  single : Bool
  rw : Nat
  deriving DecidableEq, Repr, Inhabited

/-- A source of an instruction, from the streams written so far. -/
def OxP.source (p : OxP) (written : Tab TInfo) (s : Nat) : Option TInfo :=
  if s < 8 then
    if bit p.inputs s then some { op := 0, single := decide (p.runsOf s = 1), rw := p.rwOf s } else none
  else if s < 12 then Tab.find? written s
  else none

/-- One instruction against its row of R262, R263, R271 to R274. -/
def OxP.insBad (p : OxP) (written : Tab TInfo) (table : Option Nat) (i : OxI) : Bool :=
  let src := i.sources.map (p.source written)
  let a := ((src.getD 0 none).getD {op := 0, single := false, rw := 0})
  let b := ((src.getD 1 none).getD {op := 0, single := false, rw := 0})
  let t := decide (8 ≤ i.dst ∧ i.dst < 12)
  let o := decide (12 ≤ i.dst)
  decide (i.rsv ≠ 0) || src.any (·.isNone) || (!isSetOp i.op && decide (i.b ≠ 0)) ||
  (match i.dest with
   | some d => Tab.has written d
   | none => false) ||
  (if decide (1 ≤ i.op ∧ i.op ≤ 3) then decide (i.a ≠ 0) || !p.elements || !t
   else if decide (i.op = 8 ∨ i.op = 9) then
     !o || !decide (1 ≤ a.op ∧ a.op ≤ 3) || (decide (i.op = 8) && decide (a.op ≠ 1) && decide (p.ofmt ≠ p.fmt))
   else if isRecOp i.op then
     decide (1 ≤ a.op ∧ a.op ≤ 3) || decide (1 ≤ b.op ∧ b.op ≤ 3) || decide (a.rw = 0) || decide (4 < i.kfmt) ||
     (decide (i.op ≠ 0x28) && !(t || o)) || (decide (i.op = 0x30) && !o) ||
     (decide (i.op = 0x12) && decide (i.imm = 0 ∨ 4096 < i.imm)) ||
     (decide (i.op = 0x18) && decide (3 < i.pred)) ||
     (isSetOp i.op && (decide (i.kfmt = 2) || i.desc || decide (a.rw ≠ b.rw) || !b.single)) ||
     (decide (i.op = 0x29) && (decide (i.kfmt = 2) || table.isNone)) ||
     (decide (i.op = 0x28) && table.isSome) ||
     ((decide (i.op = 0x12) || decide (i.op = 0x30) || isSetOp i.op) && !a.single)
   else true)

/-- What an instruction writes. -/
def OxP.insOut (p : OxP) (written : Tab TInfo) (table : Option Nat) (i : OxI) : TInfo :=
  let a := (p.source written i.a).getD {op := 0, single := false, rw := 0}
  { op := i.op, single := if decide (i.op = 0x18 ∨ i.op = 0x29) then a.single else true,
    rw := if i.op = 0x29 then table.getD 0 else a.rw }

/-- The dataflow of a program (R263): the streams written with what writes them, the sources read, whether a check failed. -/
def OxP.flow (p : OxP) : Tab TInfo × List Nat × Bool :=
  let r := p.code.foldl (fun (r : Tab TInfo × List Nat × Bool × Option Nat) i =>
    let bad := r.2.2.1 || p.insBad r.1 r.2.2.2 i || i.sources.any fun s => r.2.1.contains s
    let x := p.insOut r.1 r.2.2.2 i
    match i.dest with
    | some d => (Tab.put r.1 d x, r.2.1 ++ i.sources, bad, r.2.2.2)
    | none => (r.1, r.2.1 ++ i.sources, bad, some x.rw)) ([], [], false, none)
  (r.1, r.2.1, r.2.2.1)

/-- The kind an output carries (R257, R262). -/
def oxKind (op : Nat) : Nat := if op = 8 then 0x43 else if op = 9 then 0x41 else 0x42

/-- Checks of R256 that answer E_BADARG. -/
def oxBad (b : List Byte) : Bool :=
  let p := oxP b
  let f := p.flow
  decide (p.nins = 0 ∨ 24 < p.nins) || decide (p.groupN = 0 ∨ 64 < p.groupN) || decide (p.groups = 0) ||
  decide (p.units ≠ 15 ∧ p.units ≠ 16) || !zeroAt b 7 1 || decide (p.expect = 0) || decide (p.lines = 0 ∨ 16384 < p.lines) ||
  p.runs.any (fun x => decide (64 < x)) || p.rw.any (fun x => decide (64 < x)) || !zeroAt b 0x20 32 || !zeroAt b 0x1C0 64 ||
  decide (3 < p.fmt ∨ 3 < p.ofmt) || decide ((p.fmt = 1) ≠ (p.ofmt = 1)) ||
  (List.range 7).any (fun i => bit p.inputs (i + 1) && decide (p.rwOf (i + 1) = 0)) ||
  f.2.2 || (List.range 8).any (fun i => bit p.inputs i && !f.2.1.contains i) ||
  f.1.any (fun e => decide (e.1 < 12) && !f.2.1.contains e.1) ||
  decide (1 < (p.code.filter fun i => decide (1 ≤ i.op ∧ i.op ≤ 3)).length) ||
  (List.range 4).any fun o =>
    let x := p.out o
    match Tab.find? f.1 (12 + o) with
    | none => !zeroAt b (0x80 + 32 * o) 32
    | some w => decide (4095 < x.group ∧ x.group ≠ 0xFFFF) || decide (5 < x.netcls) || decide (x.kind ≠ oxKind w.op) || decide (x.rest ≠ 0)

/-- Lines of the region (R277), less those removed banks withdrew (R247). -/
def State.oxLines (s : State) : Nat := 32 * (32 * s.hub.redRows / 6) - s.ox.linesRemoved

/-- Lines neither reserved nor claimed (R278, R287). -/
def State.oxFree (s : State) : Nat :=
  s.oxLines - s.ox.reserved - s.ox.binds.foldl (fun a e => if e.2.st ≠ .free ∧ e.2.place = 0 then a + e.2.lines else a) 0

/-- Unit p of the Ox. -/
def State.oxu (s : State) (p : Nat) : OxUnit := Tab.get {} s.ox.units p

/-- The logical number a physical unit holds (R250, R284). -/
def State.oxLogical (s : State) (p : Nat) : Option Nat :=
  let u := s.oxu p
  if u.retired then none else if p % 17 < 16 then some (p % 17) else u.takes

/-- The in-service units of group g in ascending logical number. -/
def State.oxGroup (s : State) (g : Nat) : List Nat :=
  sortBy (fun a b => decide ((s.oxLogical a).getD 16 ≤ (s.oxLogical b).getD 16))
    (((List.range 17).map (17 * g + ·)).filter fun p => (s.oxLogical p).isSome)

/-- Groups of a mask, ascending. -/
def oxGroups (m : Nat) : List Nat := (List.range 16).filter (bit m)

/-- The physical unit of line l (R264, R285). -/
def State.oxUnitOf (s : State) (groups l : Nat) : Option Nat :=
  let us := (oxGroups groups).flatMap s.oxGroup
  if us = [] then none else us[l % us.length]?

/-- The physical unit that instruction j runs on (R263). -/
def State.oxInsUnit (s : State) (groups j : Nat) : Option Nat :=
  let us := s.oxGroup ((oxGroups groups).headD 0)
  if us = [] then none else us[j % us.length]?

/-- The check of a program at bind (R256). -/
def State.oxCheck (s : State) (b : List Byte) : Err :=
  let p := oxP b
  if oxBad b then .badarg
  else if (oxGroups p.groups).any fun g => decide ((s.oxGroup g).length < p.units) then .width
  else .ok

/-- The program of binding b. -/
def State.oxProg (s : State) (b : Nat) : OxP := oxP (Tab.get [] s.ox.progs b)

/-- The binding in OPEN or RUNNING that holds a collective id (R253). -/
def State.collLive (s : State) (id : Nat) : Option Nat :=
  (List.find? (fun e => e.2.collId == id && (decide (e.2.st = .open) || decide (e.2.st = .running))) s.ox.binds).map (·.1)

/-- The binding, not FREE, that holds a collective id (R308). -/
def State.collHeld (s : State) (id : Nat) : Option Nat :=
  (List.find? (fun e => e.2.collId == id && decide (e.2.st ≠ .free)) s.ox.binds).map (·.1)

/-- A packet for no binding (R253). -/
def State.oxUnbound (s : State) (k : Packet) : State :=
  ({ s with ox := { s.ox with unbound := sat 32 (s.ox.unbound + 1) } }).raise 16 0x03 2 .range (leBytes 4 k.hdr.collId) k.hdr.ctx

/-- The stream prefix of R257. -/
def oxPrefix (run stream flags offset nrec count : Nat) : List Byte :=
  leBytes 2 run ++ leBytes 1 stream ++ leBytes 1 flags ++ leBytes 4 offset ++ leBytes 2 nrec ++ leBytes 2 0 ++ leBytes 4 count

/-- Change the run state of binding b. -/
def State.modRun (s : State) (b : Nat) (f : OxRun → OxRun) : State := s.modBindX b fun x => { x with run := f x.run }

/-- The gate of R300: every stream feeding this device has shown a matching hash. -/
def Binding.gate (b : Binding) : Bool := decide (b.matchedIn = b.opensIn)

/-- Lines records and table rows take in the claim, as many to a line as fit (log entry 24). -/
def recLines (rw n : Nat) : Nat := if n = 0 then 0 else cdiv n (max 1 (768 / (4 * rw)))

/-- Lines in use of a claim: blocks not yet written out, buffered runs, table rows (R277, R281). -/
def OxRun.usedLines (p : OxP) (r : OxRun) : Nat :=
  r.blocks.foldl (fun a e => if e.2.lines && !e.2.written then a + cdiv e.2.nrec 16 else a) 0 +
  (List.range 8).foldl (fun a i =>
    a + recLines (p.rwOf i) (r.inputs.foldl (fun n e => if e.1 / 65536 = i then n + e.2.recs.length else n) 0)) 0 +
  recLines (((r.table.headD []).length) / 4) r.table.length

/-- Show the lines in use in the binding entry (R288). -/
def State.countLines (s : State) (b : Nat) : State :=
  s.modBind b fun x => { x with used := (s.bindX b).run.usedLines (s.oxProg b) }

/-- A header of a packet the collective sends (R255, R296). -/
def State.collHdr (s : State) (b netcls route group kind : Nat) : Hdr :=
  let x := s.bind b
  { net := netcls % 2, cls := netcls / 2, mc := decide (group ≠ 0xFFFF), route := route, ctx := x.ctx, kind := kind,
    period := ((s.bindX b).period.getD 0) % 65536, collId := x.collId, group := if group = 0xFFFF then 0 else group }

/-- Send a packet on output o, its OX_OPEN ahead of the first (R298). Output packets carry STREAM 0 (log entry 25). -/
def State.oxSend (s : State) (b o kind flags offset nrec count : Nat) (data : List Byte) : State :=
  let x := (s.oxProg b).out o
  let h := s.collHdr b x.netcls x.route x.group
  let s := if Tab.get false (s.bindX b).run.opened o then s
    else (s.emit (.send 16 (s.packet (h 0x44) (oxPrefix x.run 0 0 0 0 1 ++ leBytes 8 (s.bind b).dhash ++ leBytes 4 s.node ++ leBytes 4 0))))
      |>.modRun b fun r => { r with opened := Tab.set false r.opened o true }
  (s.emit (.send 16 (s.packet (h kind) (oxPrefix x.run 0 flags offset nrec count ++ data)))).modBind b fun v =>
    { v with sent := v.sent + nrec }

/-- A COLL slot is filled when its binding reaches DONE (R360). -/
def State.collSlots (s : State) (x id : Nat) : State :=
  { s with cds := Tab.remap {} (fun _ c => { c with slots := { c.slots with
      entries := Tab.remap {} (fun _ e =>
        if e.kind = 2 ∧ e.ctx = x ∧ e.length = id then { e with filled := true, filledAt := s.now } else e) c.slots.entries } }) s.cds }

/-- Whether every instruction of a program has completed (R301). -/
def State.oxAllDone (s : State) (b : Nat) : Bool :=
  (List.range (s.oxProg b).nins).all fun i => Tab.get false (s.bindX b).run.insDone i

/-- RUNNING becomes DONE once the last condition holds (R301, R302, R360). -/
def State.collProgress (s : State) (b : Nat) : State :=
  let x := s.bind b
  if x.st = .running ∧ s.oxAllDone b = true ∧ x.matchedIn = x.opensIn ∧ x.matchedOut = x.opensOut ∧ x.written = x.recvUnits ∧
      (s.bindX b).fetch.done = true then
    let s := s.modBind b fun v => { v with st := .done, tEnd := s.now, used := 0 }
    let s := { s with ox := { s.ox with doneCount := s.ox.doneCount + 1 } }
    (s.collSlots x.ctx x.collId).collEnd b
  else s

/-- The first packet matched of an unscheduled collective starts it (R301). -/
def State.collFirst (s : State) (b : Nat) : State :=
  if (s.bind b).st = .open ∧ (s.bind b).sched = false then s.modBind b fun v => { v with st := .running, tRun := s.now } else s

/-- What the PERIOD of a SCHED packet of a scheduled collective says (R356, R360). -/
def State.collPeriodErr (s : State) (b : Nat) (k : Packet) : Option Err :=
  match (s.bindX b).period with
  | some p =>
    if k.hdr.cls = 0 ∧ (s.bind b).sched = true then
      let d := (k.hdr.period + 65536 - p % 65536) % 65536
      if d = 0 then none else if d < 32768 then some .schedEarly else some .schedLate
    else none
  | none => none

end Sys2Proof.Machine
end

