-- ==== Sys2Proof/Machine/Ox.lean ====
section
/-! DEFINITION. Dispatch to the Ox, reduction steps, ROUND and CARRY, retirement of units (R251 to R268, R276 to R286). -/

namespace Sys2Proof.Machine

/-- The accumulator of an element as the sum of R60. -/
def Acc.sum (x : Acc) : Sum320 := { a := x.a, nan := x.nan, pinf := x.pinf, ninf := x.ninf, nonnegz := x.nonnegz, count := x.count }

/-- Take a sum back, with its residue (R63). -/
def Acc.put (x : Acc) (s : Sum320) : Acc :=
  { x with a := s.a, nan := s.nan, pinf := s.pinf, ninf := s.ninf, nonnegz := s.nonnegz, count := s.count,
           res := (s.a % 255).toNat }

/-- A value of a collective's format on the scale of R49: none for a NaN. -/
def oxOrd (fmt x : Nat) : Option Int :=
  if fmt = 1 then some (sx 32 x)
  else
    let f := oxFF fmt
    if f.val x = .nan then none else some (if x < f.sign then (x : Int) else -((x - f.sign : Nat) : Int) - 1)

/-- A maximum or minimum takes a value (R266). -/
def Acc.take (x : Acc) (max_ : Bool) (fmt v : Nat) : Acc :=
  match oxOrd fmt v with
  | none => x
  | some n =>
    match oxOrd fmt x.val.toNat with
    | none => { x with val := BitVec.ofNat 32 v, held := true }
    | some m =>
      if !x.held || (if max_ then decide (m < n) else decide (n < m)) then { x with val := BitVec.ofNat 32 v, held := true } else x

/-- An OX_ELEM element (R60, R266). -/
def Acc.elem (red fmt : Nat) (x : Acc) (v : Nat) : Acc :=
  if red = 1 then x.put (if fmt = 1 then x.sum.addInt v else x.sum.addFp (oxFF fmt) v)
  else { (x.take (decide (red = 2)) fmt v) with count := x.count + 1 }

/-- An OX_CARRY element of 40 bytes (R259, R266). -/
def Acc.carry (red fmt count : Nat) (x : Acc) (bs : List Byte) : Acc :=
  let f := fld bs 39 1
  if red = 1 then
    let s := x.sum
    x.put { a := s.a + sx 312 (fld bs 0 39), nan := s.nan || bit f 0, pinf := s.pinf || bit f 1, ninf := s.ninf || bit f 2,
            nonnegz := s.nonnegz || bit f 3, count := s.count + count }
  else
    let x := { x with count := x.count + count }
    if bit f 4 then x.take (decide (red = 2)) fmt (fld bs 0 (oxSize fmt)) else x

/-- Flags of an accumulator (R264). -/
def Acc.flagByte (x : Acc) : Nat := b2n x.nan + 2 * b2n x.pinf + 4 * b2n x.ninf + 8 * b2n x.nonnegz + 16 * b2n x.held

/-- The exact partial of an element (R259). -/
def Acc.carryBytes (red fmt : Nat) (x : Acc) : List Byte :=
  if red = 1 then leBytes 39 (ux 312 x.a) ++ leBytes 1 (x.flagByte % 16)
  else padTo 39 (leBytes (oxSize fmt) x.val.toNat) ++ leBytes 1 (16 * b2n x.held)

/-- An accumulator in a line (R264). -/
def Acc.bytes (red : Nat) (x : Acc) : List Byte :=
  (if red = 1 then leBytes 40 (ux 320 x.a) else padTo 40 (leBytes 4 x.val.toNat)) ++
  [BitVec.ofNat 8 x.flagByte, BitVec.ofNat 8 x.res, 0, 0] ++ leBytes 4 x.count

/-- An accumulator read from a line. -/
def accOf (red : Nat) (bs : List Byte) : Acc :=
  let f := fld bs 40 1
  { a := if red = 1 then sx 320 (fld bs 0 40) else 0, nan := bit f 0, pinf := bit f 1, ninf := bit f 2, nonnegz := bit f 3,
    held := bit f 4, val := if red = 1 then 0 else BitVec.ofNat 32 (fld bs 0 4), count := fld bs 44 4, res := fld bs 41 1 }

/-- Line l of a run (R264). -/
def OxRun.line (r : OxRun) (red l : Nat) : List Byte :=
  (List.range 16).flatMap fun i => (Tab.get {} r.accs (16 * l + i)).bytes red

/-- Elements of a block. -/
def blockEls (off : Nat) (k : Block) : List Nat := (List.range k.nrec).map (off + ·)

/-- Lines of a block (R258). -/
def blockLines (off : Nat) (k : Block) : List Nat := (List.range (cdiv k.nrec 16)).map (off / 16 + ·)

/-- Units held for a block. -/
def Block.heldUnits (k : Block) : Nat := k.held.foldl (fun a c => a + c.units) 0

/-- Units a running step adds. -/
def Block.firingUnits (k : Block) : Nat := (k.firing.getD []).foldl (fun a c => a + c.units) 0

/-- Whether the Ox may read elements or records from a packet (R257, R258): its shape; otherwise the streams disagree. -/
def oxShape (p : OxP) (kind : Nat) (bs : List Byte) : Bool :=
  let flags := fld bs 3 1
  let off := fld bs 4 4
  let n := fld bs 8 2
  let count := fld bs 12 4
  let st := fld bs 2 1
  let last := bit flags 0
  if kind = 0x42 then
    decide (st < 8) && bit p.inputs st && decide (0 < p.rwOf st) && decide (count = 1) &&
    decide (bs.length = 16 + n * 4 * p.rwOf st) && (if bit flags 1 then decide (n = 0) && last else decide (0 < n))
  else
    let each := if kind = 0x41 then 40 else oxSize p.fmt
    let most := if kind = 0x41 then 96 else if each = 4 then 1008 else 2032
    p.red?.isSome && decide (kind = 0x40 ∨ kind = 0x41) && decide (st = 0) && decide (off % 16 = 0) && decide (0 < n ∧ n ≤ most) &&
    decide (bs.length = 16 + n * each) && (last || decide (n % 16 = 0)) && (if kind = 0x41 then decide (0 < count) else decide (count = 1))

/-- A contribution joins its block (R258, R265); none when it disagrees. -/
def OxRun.contribute (r : OxRun) (p : OxP) (d kind : Nat) (bs : List Byte) : Option OxRun :=
  let off := fld bs 4 4
  let n := fld bs 8 2
  let carry := decide (kind = 0x41)
  let units := if carry then fld bs 12 4 else 1
  let other := r.blocks.any fun e => decide (e.1 < off + n ∧ off < e.1 + e.2.nrec ∧ (e.1 ≠ off ∨ e.2.nrec ≠ n))
  let k := { (Tab.get {} r.blocks off) with nrec := n }
  if other ∨ p.expect < k.added + k.firingUnits + k.heldUnits + units then none
  else
    let k := { k with last := k.last || bit (fld bs 3 1) 0,
                      held := k.held ++ [{ run := fld bs 0 2, carry := carry, units := units, data := bs.drop 16, desc := d }] }
    some { r with blocks := Tab.set {} r.blocks off k }

/-- Records join their run (R270); none when an index comes twice, records pass the run's end, or too many runs come. -/
def OxRun.records (r : OxRun) (p : OxP) (d : Nat) (bs : List Byte) : Option OxRun :=
  let st := fld bs 2 1
  let key := 65536 * st + fld bs 0 2
  let off := fld bs 4 4
  let n := fld bs 8 2
  let w := 4 * p.rwOf st
  let last := bit (fld bs 3 1) 0
  let x := Tab.get {} r.inputs key
  let known := Tab.has r.inputs key
  let runs := (r.inputs.filter fun e => decide (e.1 / 65536 = st)).length
  let twice := (List.range n).any fun i => decide (off + i < x.taken) || Tab.has x.recs (off + i)
  let past := match x.len with
    | some l => decide (l < off + n) || last
    | none => last && x.recs.any fun e => decide (off + n ≤ e.1)
  if (!known && decide (p.runsOf st ≤ runs)) || twice || past then none
  else
    let recs := (List.range n).foldl (fun t i => Tab.put t (off + i) ((bs.drop (16 + i * w)).take w)) x.recs
    some { r with inputs := Tab.put r.inputs key { x with recs := recs, len := if last then some (off + n) else x.len },
                  recHeld := if n = 0 then r.recHeld else r.recHeld ++ [(key, off + n, d)] }

/-- The packet at the head of a queue of output 53 leaves it; `keep` while the Ox still reads it. -/
def State.oxTake (s : State) (q d : Nat) (k : HubPkt) (keep : Bool) : State :=
  let u := s.hub.queue q
  let h := s.hub.setQueue q { u with entries := u.entries.tail, len := u.len - k.cells.length, pkts := u.pkts - 1, sent := u.sent + 1 }
  let s := { s with hub := { h with pkts := Tab.set {} h.pkts d { k with left := true }, pktsOut := h.pktsOut + 1 } }
  if keep then s else s.releaseOx d

/-- The group a packet is dispatched to (R260): that of its first line, or of the instruction that reads its stream. -/
def State.oxPacketUnit (s : State) (b : Nat) (k : Packet) : Option Nat :=
  let p := s.oxProg b
  if k.hdr.kind = 0x42 then
    let st := fld k.payload 2 1
    s.oxInsUnit p.groups (p.code.findIdx fun i => i.sources.contains st)
  else s.oxUnitOf p.groups (fld k.payload 4 4 / 16)

/-- Whether the claim has no line for what a packet brings (R281). -/
def State.oxNoRoom (s : State) (b : Nat) (k : Packet) : Bool :=
  let p := s.oxProg b
  let r := (s.bindX b).run
  let free := (s.bind b).lines - (s.bind b).used
  if k.hdr.kind = 0x42 then decide (free < recLines (p.rwOf (fld k.payload 2 1)) (fld k.payload 8 2))
  else !(Tab.get {} r.blocks (fld k.payload 4 4)).lines && decide (free < cdiv (fld k.payload 8 2) 16)

/-- Elements or records reach the Ox. -/
def State.oxData (s : State) (b q d : Nat) (h : HubPkt) : State :=
  let k := h.pkt
  let p := s.oxProg b
  if (s.bind b).sched = false ∧ s.oxNoRoom b k = true then s
  else
    let s := s.collFirst b
    let r := if !oxShape p k.hdr.kind k.payload then none
      else if k.hdr.kind = 0x42 then (s.bindX b).run.records p d k.payload
      else (s.bindX b).run.contribute p d k.hdr.kind k.payload
    match r with
    | none => (s.oxTake q d h false).collFail b .collMismatch
    | some r =>
      let keep := decide (k.hdr.kind ≠ 0x42) || decide (0 < fld k.payload 8 2)
      let s := ((s.oxTake q d h keep).modRun b fun _ => r).countLines b
      if k.hdr.kind = 0x42 ∧ (s.bind b).lines < (s.bind b).used then s.collFail b .nomem else s

/-- OX_DISPATCH (R253, R260, R301, R360): the head packet of a queue of output 53. An OX_OPEN or OX_ABORT is handed on as taken by
selector 53, and its own command follows. A packet for a sleeping group waits while the group wakes (R252). -/
def execOxDispatch (net : Fin 2) (cls : Fin 3) (s : State) : Out :=
  let q := queueNo 53 net cls
  match (s.hub.queue q).entries with
  | [] => .next s
  | e :: _ =>
    if !s.hub.outIn 53 then .next s
    else
      let h := Tab.get {} s.hub.pkts e.desc
      let k := h.pkt
      if k.hdr.kind = 0x44 ∨ k.hdr.kind = 0x45 then .next ((s.oxTake q e.desc h false).emit (.packet 53 k))
      else match s.collLive k.hdr.collId with
        | none => .next ((s.oxTake q e.desc h false).oxUnbound k)
        | some b =>
          let g := (s.oxPacketUnit b k).map (· / 17)
          let asleep : Bool := match g with
            | some g => decide ((s.sleepOf (.ox ⟨g % 16, Nat.mod_lt _ (by decide)⟩)).st ≠ .running)
            | none => false
          if asleep then
            .next (s.modSleep (.ox ⟨(g.getD 0) % 16, Nat.mod_lt _ (by decide)⟩) fun u => { u with waking := true })
          else if crc32 k.payload ≠ k.crc then .next ((s.oxTake q e.desc h false).collFail b .checksum)
          else match s.collPeriodErr b k with
            | some c => .next ((s.oxTake q e.desc h false).collFail b c)
            | none => .next (s.oxData b q e.desc h)

/-- Release the packets of contributions whose step is over (R237, R260). -/
def State.oxRelease (s : State) (cs : List Contrib) : State := cs.foldl (fun s c => s.releaseOx c.desc) s

/-- Key of a line of a claim in the table of uncorrectable locations (R441). -/
def lineUeKey (b place bank : Nat) : Nat := 2 ^ 21 + (b * 32768 + place) * 65536 + bank

/-- A line read with an uncorrectable cell, or from a poisoned spill line (R282, R441): counted and logged as `say` does with the entry's
data, hard when the line's location was written since its last one. -/
def State.lineUe (s : State) (b line bank : Nat) (say : List Byte → State → State) : State :=
  let spill := decide ((s.bind b).place = 2)
  let bank := if spill then 0xFFFF else bank
  let key := lineUeKey b (Tab.get 0 (s.bindX b).run.places line) bank
  let hard := decide (Tab.get 0 s.hubm.ueCell key = 2)
  let data := leBytes 2 bank ++ leBytes 2 0 ++ leBytes 4 line
  let s := if spill then s
    else { s with hubm := { s.hubm with ue := s.hubm.ue + 1, ueCell := Tab.set 0 s.hubm.ueCell key 1,
                                        bankUe := Tab.set 0 s.hubm.bankUe bank (sat 8 (Tab.get 0 s.hubm.bankUe bank + 1)) } }
  let s := say data s
  if hard then
    { s with health := { s.health with hard := true, hardUe := s.health.hardUe + 1 } }.raise 16 0x03 5 .uncorr data
  else s

/-- Such a line in a step: the collective aborts (R282). -/
def State.oxLineUe (s : State) (b line bank : Nat) : State :=
  s.lineUe b line bank fun data s => s.collFail b .uncorr data (some 14) 5

/-- A retirement at the third mismatch (R284, R285, R442): steps on the unit are abandoned, the spare takes its place, or the group
offers 15 units and scheduled bindings that need 16 abort. -/
def State.oxRetire (s : State) (u : Nat) : State :=
  let g := u / 17
  let n := s.oxLogical u
  let uses (s : State) (b : Nat) : Bool :=
    let p := s.oxProg b
    (s.bindX b).run.blocks.any fun e => e.2.firing.isSome && (blockLines e.1 e.2).any fun l => s.oxUnitOf p.groups l == some u
  let hit := (s.ox.binds.filter fun e => decide (e.2.st = .running ∨ e.2.st = .open) && uses s e.1).map (·.1)
  let s := { s with ox := { s.ox with units := Tab.modify {} s.ox.units u fun x => { x with retired := true } } }
  let s : State := hit.foldl (fun (s : State) b => s.collFail b .residue (leBytes 2 u)) s
  let sp := 17 * g + 16
  let x := s.oxu sp
  if u ≠ sp ∧ x.takes = none ∧ x.retired = false then
    ({ s with ox := { s.ox with units := Tab.set {} s.ox.units sp { x with takes := n } } }).substituted 16 0x03 4 (16 * g + n.getD 0x1F) u sp
  else
    let s := s.substituted 16 0x03 4 (16 * g + n.getD 0x1F) u 0xFFFF
    s.ox.binds.foldl (fun s e =>
      if e.2.sched ∧ e.2.st ≠ .free ∧ e.2.st ≠ .aborted ∧ bit (s.oxProg e.1).groups g = true ∧ (s.oxProg e.1).units = 16
      then s.collFail e.1 .width else s) s

/-- A residue mismatch or a comparator disagreement (R283, R284). -/
def State.oxMismatch (s : State) (b u : Nat) : State :=
  let m := (s.oxu u).mismatch + 1
  let s := { s with ox := { s.ox with residueErr := s.ox.residueErr + 1,
                                      units := Tab.modify {} s.ox.units u fun x => { x with mismatch := min 3 m } } }
  let s := s.collFail b .residue (leBytes 2 u) (some 16) 4
  if m = 3 then s.oxRetire u else s

/-- The lowest place of the claim not taken by another line. -/
def OxRun.newPlaces (r : OxRun) (ls : List Nat) : OxRun :=
  ls.foldl (fun r l =>
    let n := ((List.range (r.places.length + 1)).filter fun i => !r.places.any fun e => e.2 == i + 1).headD 0
    { r with places := Tab.set 0 r.places l (n + 1) }) r

/-- Whether a step of a block is due (R265). -/
def Block.due (p : OxP) (k : Block) : Bool :=
  decide (k.held ≠ []) && k.firing.isNone &&
  (decide (p.groupN ≤ k.held.length) || decide (k.heldUnits = p.expect - k.added))

/-- OX_STEP_FIRE (R265, R276, R280 to R284): the step of the block at OFFSET off. `bad` is a unit whose check disagrees, `ue` the bank
of an uncorrectable cell the step meets when it loads its first line. -/
def execOxStepFire (b : Fin 1024) (off : Nat) (bad : Option (Fin 272)) (ue : Option Nat) (s : State) : Out :=
  let x := s.bind b
  let p := s.oxProg b
  let r := (s.bindX b).run
  let k := Tab.get {} r.blocks off
  if x.st ≠ .running ∨ k.due p = false then .next s
  else
    let ls := blockLines off k
    if k.lines = false ∧ x.lines < x.used + ls.length then
      .next (if x.sched then s.collFail b .nomem else s)
    else
      let go := k.held.take p.groupN
      let k' := { k with held := k.held.drop p.groupN, firing := some go, lines := true }
      let r' := if k.lines then r else r.newPlaces ls
      let s := (s.modRun b fun _ => { r' with blocks := Tab.set {} r.blocks off k' }).countLines b
      let units := ls.filterMap (s.oxUnitOf p.groups)
      match bad with
      | some u =>
        if units.contains u.val then .next (s.oxMismatch b u)
        else .next { s with ox := { s.ox with adds := s.ox.adds + go.length * k.nrec } }
      | none =>
        match k.stored, ue with
        | true, some bank => .next (s.oxLineUe b (ls.headD 0) bank)
        | _, _ => .next { s with ox := { s.ox with adds := s.ox.adds + go.length * k.nrec } }

/-- Where a spilled line stands (R280). -/
def State.spillAt (s : State) (b l : Nat) : Nat :=
  (s.bind b).owner * 2 ^ 37 + (s.bind b).spill + 768 * (Tab.get 0 (s.bindX b).run.places l - 1)

/-- Load the lines of a spilled block (R280). -/
def State.spillLoad (s : State) (b red : Nat) (ls : List Nat) : Except Nat (Tab Acc) :=
  ls.foldl (fun r l =>
    match r with
    | .error e => .error e
    | .ok accs =>
      match s.devReadN (s.spillAt b l) 768 with
      | .error _ => .error l
      | .ok bs => .ok ((List.range 16).foldl (fun t i => Tab.set {} t (16 * l + i) (accOf red (bs.drop (48 * i)))) accs))
    (.ok (s.bindX b).run.accs)

/-- Store the lines of a block: to the owner's stack when spilled; what was uncorrectable there is then rewritten (R282). -/
def State.lineStore (s : State) (b red : Nat) (ls : List Nat) : State :=
  let places := ls.map fun l => Tab.get 0 (s.bindX b).run.places l
  let s := { s with hubm := { s.hubm with ueCell := Tab.remap 0 (fun key v =>
    if v = 1 ∧ 2 ^ 21 ≤ key ∧ (places.any fun n => (key - 2 ^ 21) / 65536 == b * 32768 + n) = true then 2 else v) s.hubm.ueCell } }
  if (s.bind b).place = 2 then
    ls.foldl (fun s l => (s.devWriteN (s.spillAt b l) ((s.bindX b).run.line red l)).1) s
  else s

/-- OX_STEP_COMPLETE (R265 to R268): the step's contributions are added, its lines stored or finished, its packets released. -/
def execOxStepComplete (b : Fin 1024) (off : Nat) (s : State) : Out :=
  let p := s.oxProg b
  let r := (s.bindX b).run
  let k := Tab.get {} r.blocks off
  match k.firing, p.red? with
  | some cs, some red =>
    let ls := blockLines off k
    let loaded := if (s.bind b).place = 2 ∧ k.stored = true then s.spillLoad b red ls else .ok r.accs
    match loaded with
    | .error l => .next (s.oxLineUe b l 0xFFFF)
    | .ok accs =>
      let accs := cs.foldl (fun accs c =>
        (blockEls off k).zipIdx.foldl (fun accs e =>
          let a := Tab.get {} accs e.1
          let a := if c.carry then a.carry red p.fmt c.units ((c.data.drop (40 * e.2)).take 40)
            else a.elem red p.fmt (fld c.data (oxSize p.fmt * e.2) (oxSize p.fmt))
          Tab.set {} accs e.1 a) accs) accs
      let added := k.added + k.firingUnits
      let more := decide (added < p.expect)
      let s := s.modRun b fun r =>
        { r with accs := accs, blocks := Tab.set {} r.blocks off { k with firing := none, added := added, stored := k.stored || more } }
      let s := if more then s.lineStore b red ls else s
      let s := s.oxRelease cs
      .next { (s.modBind b fun x => { x with steps := x.steps + 1 }) with ox :=
        { (s.modBind b fun x => { x with steps := x.steps + 1 }).ox with steps := s.ox.steps + 1 } }
  | _, _ => .next s

/-- Pieces of a block of n elements in packets of at most `most`. -/
def chunks (n most : Nat) : List (Nat × Nat) := (List.range (cdiv n most)).map fun i => (i * most, min most (n - i * most))

/-- Whether a reduction's blocks reach the collective's last element without a gap, all written out. -/
def OxRun.reduced (r : OxRun) : Bool :=
  r.blocks.any (fun e => e.2.last) && r.blocks.all (fun e => e.2.written) &&
  r.blocks.all fun e => e.2.last || Tab.has r.blocks (e.1 + e.2.nrec)

/-- The blocks that are finished and not yet written out (R265). -/
def OxRun.finished (p : OxP) (r : OxRun) : List (Nat × Block) :=
  r.blocks.filter fun e => !e.2.written && e.2.firing.isNone && decide (e.2.added = p.expect)

/-- A finished element in the output format, with its flags (R62, R267). -/
def Acc.out (x : Acc) (red fmt ofmt : Nat) (ieee : Bool) : Nat × Nat :=
  if red = 1 then (if ofmt = 1 then x.sum.toInt ieee else x.sum.toFp (oxFF ofmt) ieee)
  else if x.held then (x.val.toNat, 0)
  else (if fmt = 1 then 0 else (oxFF fmt).nan, 0)

/-- One finished block is written out by ROUND (`rnd`) or CARRY (R267). -/
def State.oxWrite (s : State) (b o red : Nat) (rnd : Bool) (off : Nat) (k : Block) : State :=
  let p := s.oxProg b
  let accs := (s.bindX b).run.accs
  let vals := (blockEls off k).map fun e => (Tab.get {} accs e).out red p.fmt p.ofmt (s.bind b).ieee
  let piece (e : Nat × Nat) : List Byte :=
    if rnd then ((vals.drop e.1).take e.2).flatMap fun v => leBytes (oxSize p.ofmt) v.1
    else (List.range e.2).flatMap fun i => (Tab.get {} accs (off + e.1 + i)).carryBytes red p.fmt
  let most := if !rnd then 96 else if oxSize p.ofmt = 4 then 1008 else 2032
  let s := (chunks k.nrec most).foldl (fun s e =>
    s.oxSend b o (if rnd then 0x43 else 0x41) (b2n (k.last && decide (k.nrec ≤ e.1 + e.2))) (off + e.1) e.2
      (if rnd then 1 else p.expect) (piece e)) s
  let s := s.modBind b fun x => { x with flags := if rnd then x.flags ||| flagsOf vals else x.flags,
                                         finished := x.finished + cdiv k.nrec 16 }
  (s.modRun b fun r => { r with blocks := Tab.set {} r.blocks off { k with written := true },
                                places := (blockLines off k).foldl Tab.del r.places }).countLines b

/-- ROUND or CARRY at position i takes what is finished, once the gate of R300 is open. -/
def State.oxFinal (s : State) (b i op : Nat) : State :=
  let p := s.oxProg b
  let c := p.ins i
  if (s.bind b).st ≠ .running ∨ (s.bind b).gate = false ∨ p.nins ≤ i ∨ c.op ≠ op then s
  else match p.red? with
    | none => s
    | some red =>
      let s := ((s.bindX b).run.finished p).foldl (fun s e => s.oxWrite b (c.dst - 12) red (decide (op = 8)) e.1 e.2) s
      let s := if (s.bindX b).run.reduced then
          s.modRun b fun r => { r with insDone := (List.range p.nins).foldl (fun t j =>
            if j = i ∨ (1 ≤ (p.ins j).op ∧ (p.ins j).op ≤ 3) then Tab.set false t j true else t) r.insDone }
        else s
      s.collProgress b

def execRound (b : Fin 1024) (i : Fin 24) (s : State) : Out := .next (s.oxFinal b i 0x08)
def execCarry (b : Fin 1024) (i : Fin 24) (s : State) : Out := .next (s.oxFinal b i 0x09)

end Sys2Proof.Machine
end

