-- ==== Sys2Proof/Machine/OxRec.lean ====
section
/-! DEFINITION. Record instructions of the Ox (R262, R269 to R275): each takes what its sources offer now. -/

namespace Sys2Proof.Machine

/-- A source as an instruction sees it: its runs in RUN order, and whether no further run will come. -/
structure SrcView where
  runs : List SRun
  whole : Bool

/-- Records from index n on that have arrived without a gap. -/
def availFrom (recs : Tab (List Byte)) : Nat → Nat → List (List Byte)
  | 0, _ => []
  | fuel + 1, n => match Tab.find? recs n with
    | some r => r :: availFrom recs fuel (n + 1)
    | none => []

/-- Stream s of a run. -/
def OxRun.view (p : OxP) (r : OxRun) (s : Nat) : SrcView :=
  if s < 8 then
    let mine := r.inputs.filter fun e => decide (e.1 / 65536 = s)
    { runs := mine.map fun e =>
        let a := availFrom e.2.recs e.2.recs.length e.2.taken
        { no := e.1 % 65536, recs := a, closed := decide (e.2.len = some (e.2.taken + a.length)) },
      whole := decide (mine.length = p.runsOf s) }
  else
    let t := Tab.get {} r.ts (s - 8)
    { runs := t.runs, whole := t.whole }

/-- Every run of the source is complete (R270). -/
def SrcView.closed (v : SrcView) : Bool := v.whole && v.runs.all (·.closed)

/-- Records a source offers. -/
def SrcView.count (v : SrcView) : Nat := v.runs.foldl (fun a r => a + r.recs.length) 0

/-- Runs that may be read one after another in RUN order: the complete ones and the first that is not. -/
def inOrder : List SRun → List SRun
  | [] => []
  | r :: t => if r.closed then r :: inOrder t else [r]

/-- Take n records of run `no` of stream s. -/
def OxRun.consume (r : OxRun) (s no n : Nat) : OxRun :=
  if s < 8 then
    let key := 65536 * s + no
    let x := Tab.get {} r.inputs key
    { r with inputs := Tab.put r.inputs key { x with taken := x.taken + n, recs := x.recs.filter fun e => decide (x.taken + n ≤ e.1) } }
  else
    let t := Tab.get {} r.ts (s - 8)
    { r with ts := Tab.set {} r.ts (s - 8) { t with runs := t.runs.map fun e => if e.no = no then { e with recs := e.recs.drop n } else e } }

/-- Take every record of the runs. -/
def OxRun.consumeAll (r : OxRun) (s : Nat) (runs : List SRun) : OxRun := runs.foldl (fun r e => r.consume s e.no e.recs.length) r

/-- Append records to a run of a list of runs. -/
def addRun (rs : List SRun) (x : SRun) : List SRun :=
  if rs.any fun e => e.no == x.no then
    rs.map fun e => if e.no = x.no then { e with recs := e.recs ++ x.recs, closed := e.closed || x.closed } else e
  else sortBy (fun a b => decide (a.no ≤ b.no)) (x :: rs)

/-- What an instruction does now: the run state with its sources read, what it writes, whether it has completed, or why it aborts. -/
structure InsOut where
  r : OxRun
  outs : List SRun := []
  whole : Bool := false
  done : Bool := false
  err : Option Err := none

/-- The key of a record (R269): whether it is a NaN, and its rank. -/
def recKey (kfmt : Nat) (desc : Bool) (bs : List Byte) : Bool × Int :=
  let x := fld bs 0 (if kfmt < 3 then 4 else 8)
  if kfmt = 2 ∧ isNan x = true then (true, 0)
  else
    let k : Int := if kfmt = 1 then sx 32 x else if kfmt = 2 then fkey x else if kfmt = 4 then sx 64 x else (x : Int)
    (false, if desc then -k else k)

/-- The records of runs with the key they are ordered by. -/
def SrcView.sorted (v : SrcView) (c : OxI) : List (List Byte) :=
  sortBy (fun a b => keyLe (recKey c.kfmt c.desc a) (recKey c.kfmt c.desc b)) (v.runs.flatMap (·.recs))

/-- Key of the last record an instruction took from a side and run. -/
def prevKey (i side no : Nat) : Nat := (2 * i + side) * 65536 + no

/-- MERGE's next record: the least head, of the lowest run among equals. -/
def leastHead (c : OxI) : List SRun → Option SRun
  | [] => none
  | r :: t => match r.recs, leastHead c t with
    | [], m => m
    | _ :: _, none => some r
    | x :: _, some m =>
      if keyLe (recKey c.kfmt c.desc x) (recKey c.kfmt c.desc (m.recs.headD [])) then some r else some m

/-- MERGE (R270): while every incomplete run has a record at its head, the least goes out; a run out of order aborts. -/
def mergeGo (c : OxI) (i s : Nat) : Nat → List SRun → OxRun → List (List Byte) → OxRun × List (List Byte) × Option Err
  | 0, _, r, out => (r, out, none)
  | fuel + 1, runs, r, out =>
    if runs.any fun e => !e.closed && e.recs.isEmpty then (r, out, none)
    else match leastHead c runs with
      | none => (r, out, none)
      | some m =>
        let x := m.recs.headD []
        let key := prevKey i 0 m.no
        let bad := match Tab.find? r.prev key with
          | some y => !keyLe (recKey c.kfmt c.desc y) (recKey c.kfmt c.desc x)
          | none => false
        if bad then (r, out, some .badarg)
        else
          mergeGo c i s fuel (runs.map fun e => if e.no = m.no then { e with recs := e.recs.tail } else e)
            { (r.consume s m.no 1) with prev := Tab.put r.prev key x } (out ++ [x])

def insMerge (p : OxP) (r : OxRun) (i : Nat) (c : OxI) : InsOut :=
  let v := r.view p c.a
  if !v.whole then { r := r }
  else
    let m := mergeGo c i c.a v.count v.runs r []
    let done := (m.1.view p c.a).closed && decide ((m.1.view p c.a).count = 0)
    { r := m.1, outs := [{ no := 0, recs := m.2.1, closed := done }], whole := true, done := done, err := m.2.2 }

/-- SORT (R271). -/
def insSort (p : OxP) (r : OxRun) (c : OxI) : InsOut :=
  let v := r.view p c.a
  if 65536 < v.count then { r := r, err := some .nomem }
  else if !v.closed then { r := r }
  else { r := r.consumeAll c.a v.runs, outs := [{ no := 0, recs := v.sorted c, closed := true }], whole := true, done := true }

/-- TOPK (R271). -/
def insTopk (p : OxP) (r : OxRun) (c : OxI) : InsOut :=
  let v := r.view p c.a
  if !v.closed then { r := r }
  else { r := r.consumeAll c.a v.runs, outs := [{ no := 0, recs := (v.sorted c).take c.imm, closed := true }], whole := true, done := true }

/-- Whether FILTER keeps a record (R272). -/
def filterKeep (p : OxP) (c : OxI) (bs : List Byte) : Bool :=
  let w := if c.kfmt < 3 then 4 else 8
  let a := leBytes w (p.consts.getD c.ca 0)
  let b := leBytes w (p.consts.getD c.cb 0)
  let k (x : List Byte) : Bool × Int := recKey c.kfmt false x
  let range := !(k bs).1 && keyLe (k a) (k bs) && keyLe (k bs) (k b)
  match c.pred with
  | 0 => range
  | 1 => !range
  | 2 => decide (fld bs 0 w &&& leNat a = leNat b)
  | _ => !(k bs).1

/-- Runs to read: to a T each run on its own, to an output one after another once every run is known. -/
def SrcView.toRead (v : SrcView) (dst : Nat) : List SRun := if dst < 12 then v.runs else if v.whole then inOrder v.runs else []

/-- An instruction that treats records one by one and keeps the runs of its source. -/
def insMap (p : OxP) (r : OxRun) (c : OxI) (f : List Byte → Option (List Byte)) : InsOut :=
  let v := r.view p c.a
  let rs := v.toRead c.dst
  { r := r.consumeAll c.a rs, outs := rs.map fun e => { e with recs := e.recs.filterMap f }, whole := v.whole, done := v.closed }

/-- FILTER (R272). -/
def insFilter (p : OxP) (r : OxRun) (c : OxI) : InsOut := insMap p r c fun x => if filterKeep p c x then some x else none

/-- EMIT (R275). -/
def insEmit (p : OxP) (r : OxRun) (c : OxI) : InsOut := insMap p r c some

/-- LOAD (R274): rows in the order of the source. -/
def insLoad (p : OxP) (r : OxRun) (c : OxI) : InsOut :=
  let v := r.view p c.a
  let rs := v.toRead 12
  let done := v.closed
  { r := { (r.consumeAll c.a rs) with table := r.table ++ rs.flatMap (·.recs), tableReady := done }, done := done }

/-- GATHER (R274), once LOAD's source is complete. -/
def insGather (p : OxP) (r : OxRun) (c : OxI) : InsOut :=
  if !r.tableReady then { r := r }
  else
    let key (x : List Byte) : Nat := fld x 0 (if c.kfmt < 3 then 4 else 8)
    let rs := (r.view p c.a).toRead c.dst
    let o := insMap p r c fun x => r.table[key x]?
    if rs.any fun e => e.recs.any fun x => decide (r.table.length ≤ key x) then { o with err := some .range } else o

/-- ISECT, DIFF and UNION (R273) on the heads of both sources: `op` 0x20 to 0x22. -/
def setGo (c : OxI) (i : Nat) : Nat → SRun → SRun → OxRun → List (List Byte) → OxRun × List (List Byte) × Option Err × Bool
  | 0, a, b, r, out => (r, out, none, a.closed && b.closed && a.recs.isEmpty && b.recs.isEmpty)
  | fuel + 1, a, b, r, out =>
    let key (x : List Byte) : Int := (recKey c.kfmt false x).2
    let low (side : Nat) (x : List Byte) : Bool := match Tab.find? r.prev (prevKey i side 0) with
      | some y => decide (key x ≤ key y)
      | none => false
    let takeA := { (r.consume c.a a.no 1) with prev := Tab.put r.prev (prevKey i 0 0) (a.recs.headD []) }
    let takeB := { (r.consume c.b b.no 1) with prev := Tab.put r.prev (prevKey i 1 0) (b.recs.headD []) }
    let both := { (takeA.consume c.b b.no 1) with prev := Tab.put takeA.prev (prevKey i 1 0) (b.recs.headD []) }
    let a' := { a with recs := a.recs.tail }
    let b' := { b with recs := b.recs.tail }
    match a.recs, b.recs with
    | [], [] => (r, out, none, a.closed && b.closed)
    | x :: _, [] =>
      if low 0 x then (r, out, some .badarg, false)
      else if !b.closed then (r, out, none, false)
      else setGo c i fuel a' b takeA (if c.op = 0x20 then out else out ++ [x])
    | [], y :: _ =>
      if low 1 y then (r, out, some .badarg, false)
      else if !a.closed then (r, out, none, false)
      else setGo c i fuel a b' takeB (if c.op = 0x22 then out ++ [y] else out)
    | x :: _, y :: _ =>
      if low 0 x || low 1 y then (r, out, some .badarg, false)
      else if key x < key y then setGo c i fuel a' b takeA (if c.op = 0x20 then out else out ++ [x])
      else if key y < key x then setGo c i fuel a b' takeB (if c.op = 0x22 then out ++ [y] else out)
      else setGo c i fuel a' b' both (if c.op = 0x21 then out else out ++ [x])

def insSet (p : OxP) (r : OxRun) (i : Nat) (c : OxI) : InsOut :=
  let va := r.view p c.a
  let vb := r.view p c.b
  let a := va.runs.headD {}
  let b := vb.runs.headD {}
  let m := setGo c i (va.count + vb.count) a b r []
  { r := m.1, outs := [{ no := 0, recs := m.2.1, closed := m.2.2.2 }], whole := true, done := m.2.2.2, err := m.2.2.1 }

/-- Records of one packet of an output (R275). -/
def perPacket (rw : Nat) : Nat := 4080 / (4 * max 1 rw)

/-- Send records that fill packets, and the last ones once the run is closed (R275): the last packet carries LAST, an empty run one
packet with EMPTY and LAST. -/
def State.oxFlush (s : State) (b o : Nat) (closed : Bool) : Nat → State
  | 0 => s
  | fuel + 1 =>
    let r := (s.bindX b).run
    let buf := Tab.get [] r.outBuf o
    let off := Tab.get 0 r.nextOff o
    let n := perPacket ((buf.headD []).length / 4)
    if buf = [] then (if closed ∧ off = 0 then s.oxSend b o 0x42 3 0 0 1 [] else s)
    else if n < buf.length ∨ closed = true then
      let k := min n buf.length
      let last := closed && decide (buf.length ≤ n)
      let s := s.oxSend b o 0x42 (b2n last) off k 1 (buf.take k).flatten
      let s := s.modRun b fun r => { r with outBuf := Tab.set [] r.outBuf o (buf.drop k), nextOff := Tab.set 0 r.nextOff o (off + k) }
      if last then s else s.oxFlush b o closed fuel
    else s

/-- What an instruction writes goes to its T or its output. -/
def State.oxPut (s : State) (b dst : Nat) (x : InsOut) : State :=
  if dst < 12 then
    s.modRun b fun r =>
      let t := Tab.get {} r.ts (dst - 8)
      { r with ts := Tab.set {} r.ts (dst - 8) { runs := x.outs.foldl addRun t.runs, whole := t.whole || x.whole } }
  else
    let o := dst - 12
    let recs := x.outs.flatMap (·.recs)
    let s := s.modRun b fun r => { r with outBuf := Tab.set [] r.outBuf o (Tab.get [] r.outBuf o ++ recs) }
    s.oxFlush b o x.done (recs.length + (Tab.get [] (s.bindX b).run.outBuf o).length + 1)

/-- Packets whose records have all been taken are released (R260). -/
def State.oxRecRelease (s : State) (b : Nat) : State :=
  let r := (s.bindX b).run
  let gone (e : Nat × Nat × Nat) : Bool := decide (e.2.1 ≤ (Tab.get {} r.inputs e.1).taken)
  let s := (r.recHeld.filter gone).foldl (fun s e => s.releaseOx e.2.2) s
  s.modRun b fun r => { r with recHeld := r.recHeld.filter fun e => !gone e }

/-- The record instruction at position i, if it is operation `op` and the program runs (R262, R283, R300): `bad` is a unit whose
comparators disagree. -/
def State.oxRecord (s : State) (b i op : Nat) (bad : Option (Fin 272)) (f : OxP → OxRun → OxI → InsOut) : State :=
  let p := s.oxProg b
  let c := p.ins i
  let r := (s.bindX b).run
  if (s.bind b).st ≠ .running ∨ p.nins ≤ i ∨ c.op ≠ op ∨ Tab.get false r.insDone i = true then s
  else if c.op ≠ 0x28 ∧ 12 ≤ c.dst ∧ (s.bind b).gate = false then s
  else match bad with
    | some u => if s.oxInsUnit p.groups i = some u.val then s.oxMismatch b u else s
    | none =>
      let x := f p r c
      match x.err with
      | some e => s.collFail b e
      | none =>
        let s := s.modRun b fun _ => { x.r with insDone := if x.done then Tab.set false x.r.insDone i true else x.r.insDone }
        let s := if op = 0x28 then s else s.oxPut b c.dst x
        ((s.oxRecRelease b).countLines b).collProgress b

def execMerge (b : Fin 1024) (i : Fin 24) (bad : Option (Fin 272)) (s : State) : Out :=
  .next (s.oxRecord b i 0x10 bad fun p r c => insMerge p r i c)
def execSort (b : Fin 1024) (i : Fin 24) (bad : Option (Fin 272)) (s : State) : Out := .next (s.oxRecord b i 0x11 bad insSort)
def execTopk (b : Fin 1024) (i : Fin 24) (bad : Option (Fin 272)) (s : State) : Out := .next (s.oxRecord b i 0x12 bad insTopk)
def execFilter (b : Fin 1024) (i : Fin 24) (bad : Option (Fin 272)) (s : State) : Out := .next (s.oxRecord b i 0x18 bad insFilter)
def execIsect (b : Fin 1024) (i : Fin 24) (bad : Option (Fin 272)) (s : State) : Out :=
  .next (s.oxRecord b i 0x20 bad fun p r c => insSet p r i c)
def execDiff (b : Fin 1024) (i : Fin 24) (bad : Option (Fin 272)) (s : State) : Out :=
  .next (s.oxRecord b i 0x21 bad fun p r c => insSet p r i c)
def execUnion (b : Fin 1024) (i : Fin 24) (bad : Option (Fin 272)) (s : State) : Out :=
  .next (s.oxRecord b i 0x22 bad fun p r c => insSet p r i c)
def execLoad (b : Fin 1024) (i : Fin 24) (s : State) : Out := .next (s.oxRecord b i 0x28 none insLoad)
def execGather (b : Fin 1024) (i : Fin 24) (s : State) : Out := .next (s.oxRecord b i 0x29 none insGather)
def execEmit (b : Fin 1024) (i : Fin 24) (s : State) : Out := .next (s.oxRecord b i 0x30 none insEmit)

end Sys2Proof.Machine
end

