-- ==== Sys2Proof/Machine/Coll.lean ====
section
/-! DEFINITION. Collectives: opening and aborting streams, local fetch and results, the collectives group (R290 to R311). -/

namespace Sys2Proof.Machine

/-- The global block (R290). -/
structure CollG where
  id : Nat
  type : Nat
  op : Nat
  fmt : Nat
  key : Nat
  size : Nat
  rw : Nat
  topk : Nat
  members : Nat
  root : Nat
  timeout : Nat
  flags : Nat

def collG (b : List Byte) : CollG :=
  { id := fld b 0 4, type := fld b 4 1, op := fld b 5 1, fmt := fld b 6 1, key := fld b 7 1, size := fld b 8 8, rw := fld b 16 2,
    topk := fld b 18 2, members := fld b 20 4, root := fld b 24 4, timeout := fld b 28 4, flags := fld b 32 4 }

/-- The local part (R293). -/
structure CollL where
  ctx : Nat
  owner : Nat
  lflags : Nat
  me : Nat
  membersVa : Nat
  srcVa : Nat
  dstVa : Nat
  srcOff : Nat
  srcUnits : Nat
  inRoute : Nat
  inGroup : Nat
  inNetcls : Nat
  inStream : Nat
  stride : Nat
  recv : Nat
  opensIn : Nat
  opensOut : Nat
  abortGroup : Nat

def collL (b : List Byte) : CollL :=
  { ctx := fld b 0 2, owner := fld b 2 1, lflags := fld b 3 1, me := fld b 4 4, membersVa := fld b 8 8, srcVa := fld b 16 8,
    dstVa := fld b 24 8, srcOff := fld b 32 4, srcUnits := fld b 36 4, inRoute := fld b 40 12, inGroup := fld b 52 2,
    inNetcls := fld b 54 1, inStream := fld b 55 1, stride := fld b 56 4, recv := fld b 60 4, opensIn := fld b 64 2,
    opensOut := fld b 66 2, abortGroup := fld b 68 2 }

/-- Check 1 of R294: lengths, ranges and reserved fields of R290 and R293. -/
def collFieldsBad (g l p : List Byte) : Bool :=
  let x := collG g
  let y := collL l
  let recs := decide (2 ≤ x.type)
  let ops : List Nat := if x.type ≤ 1 then [1, 2, 3] else if x.type = 5 then [0x10, 0x12] else [0]
  decide (g.length ≠ 64 ∨ l.length ≠ 128 ∨ p.length ≠ 512) || decide (x.id = 0 ∨ x.id = 0xFFFFFFFF) || decide (5 < x.type) ||
  !ops.contains x.op ||
  (if recs then decide (x.fmt ≠ 0xFF) || decide (x.rw = 0 ∨ 64 < x.rw) else decide (3 < x.fmt % 16 ∨ 3 < x.fmt / 16) || decide (x.rw ≠ 0)) ||
  (if x.type = 5 then decide (4 < x.key % 8 ∨ 15 < x.key) else decide (x.key ≠ 0)) || decide (x.size = 0 ∨ 2 ^ 32 ≤ x.size) ||
  (if x.op = 0x12 then decide (x.topk = 0 ∨ 4096 < x.topk) else decide (x.topk ≠ 0)) || decide (x.members = 0 ∨ 65536 < x.members) ||
  (if x.type = 3 then decide (x.members ≤ x.root) else decide (x.root ≠ 0)) || decide (x.timeout = 0 ∨ 2 ^ 24 ≤ x.timeout) ||
  decide (3 < x.flags) || !zeroAt g 36 28 || decide (4095 < y.ctx) || decide (15 < y.owner) || decide (1 < y.lflags) ||
  decide (x.members ≤ y.me) || decide (4095 < y.inGroup ∧ y.inGroup ≠ 0xFFFF) || decide (5 < y.inNetcls) || decide (7 < y.inStream) ||
  decide (y.stride % 4 ≠ 0) || decide (4095 < y.abortGroup) || !zeroAt l 70 58

/-- Check 3 of R294: the member list (R291). -/
def memberListBad (ml : List Byte) (n me node ctx : Nat) : Bool :=
  let nodes := (List.range n).map fun i => fld ml (8 * i) 4
  let sorted := sortBy (fun a b => decide (a ≤ b)) nodes
  (List.range n).any (fun i => decide (4095 < fld ml (8 * i + 4) 2) || !zeroAt ml (8 * i + 6) 2) ||
  (sorted.zip (sorted.drop 1)).any (fun e => decide (e.1 = e.2)) || decide (fld ml (8 * me) 4 ≠ node) || decide (fld ml (8 * me + 4) 2 ≠ ctx)

/-- Check 8 of R294: the program agrees with TYPE (R295). -/
def collProgBad (x : CollG) (p : OxP) : Bool :=
  let final (op : Nat) : Bool := p.code.any fun i => i.op == op
  if x.type ≤ 1 then
    (match p.red? with
     | some r => decide (r ≠ x.op) || decide (p.fmt ≠ x.fmt % 16)
     | none => false) ||
    (final 8 && decide (p.ofmt ≠ x.fmt / 16)) || (decide (x.type = 1) && decide (x.size % (16 * x.members) ≠ 0))
  else
    p.red?.isSome || (decide (x.type < 5) && (final 8 || final 9)) ||
    (decide (x.type = 5) && p.code.any fun i =>
      decide (i.op = 0x10 ∨ i.op = 0x12) && (decide (i.kfmt ≠ x.key % 8) || (i.desc != bit x.key 3) ||
        (decide (i.op = 0x12) && decide (i.imm ≠ x.topk))))

/-- A coll's error from how a va access ended (R294, R296, R297). -/
def HenEnd.collErr : HenEnd → Option Err
  | .fail e => some e
  | .park .. => some .pagefault
  | _ => none

/-- The translation slot of a context on its owner die (R209); 16 names none. -/
def State.collSlot (s : State) (d x : Nat) : Nat := ((s.cd d).tr.slotOf x).getD 16

/-- Whether an entry is free for a new binding (R308). -/
def State.collEligible (s : State) (b : Nat) : Bool := decide ((s.bind b).st = .free) && !(s.bindX b).cooling

/-- The eligible entry freed longest ago (R308). -/
def State.collEntry (s : State) : Option Nat :=
  (List.range 1024).foldl (fun a b =>
    if s.collEligible b then
      match a with
      | some c => if (s.bind b).tEnd < (s.bind c).tEnd then some b else a
      | none => some b
    else a) none

/-- DHASH (R292). -/
def collHash (g ml : List Byte) : Nat := leNat ((sha256 (g ++ ml)).take 8)

/-- Admission (R278, R279): where the claim is placed and the spill buffer, none when refused. -/
def State.collAdmit (s : State) (sched : Bool) (ctx owner need : Nat) : Option (State × Nat × Nat) :=
  let mine := s.ox.binds.foldl (fun a e => if e.2.st ≠ .free ∧ e.2.ctx = ctx ∧ e.2.place = 1 then a + e.2.lines else a) 0
  let kept := match s.liveRec? ctx with
    | some r => (s.recX r).lines
    | none => 0
  if sched && decide (mine + need ≤ kept) then some (s, 1, 0)
  else if need ≤ s.oxFree then some (s, 0, 0)
  else match s.bpAlloc owner 9 5 with
    | (t, .ok a) => some (t, 2, a)
    | (_, .error _) => none

/-- Bind (R288, R293, R311): the entry OPEN, the reply's entry index, DHASH and WHERE. -/
def State.collOpen (s : State) (src : Src) (b place spill : Nat) (dh : Nat) (g l p : List Byte) : State :=
  let x := collG g
  let y := collL l
  let v : Binding := {
    st := .open, collId := x.id, ctx := y.ctx, place := place, owner := y.owner, ieee := (s.cx y.ctx).ieee, lines := (oxP p).lines,
    spill := spill, dhash := dh, nmembers := x.members, myIndex := y.me, timeoutUs := x.timeout, opensIn := y.opensIn,
    opensOut := y.opensOut, recvUnits := y.recv, sched := bit x.flags 0, partial_ := bit x.flags 1, notify := bit y.lflags 0 }
  let s := s.modBind b fun _ => v
  let named := List.find? (fun c : SColl => c.collId == x.id) (Tab.get {} s.sq.scheds y.ctx).colls
  let s := s.modBindX b fun _ =>
    { global := g, local_ := l, fetch := { done := decide (y.srcUnits = 0) },
      period := if bit x.flags 0 then named.map (·.period) else none }
  let s := { s with ox := { s.ox with progs := Tab.set [] s.ox.progs b p, bindCount := s.ox.bindCount + 1 } }
  s.reply src 0x0601 .ok (leBytes 2 b ++ leBytes 8 dh ++ leBytes 1 place)

/-- The checks of COLL_BIND in order (R279, R294, R295, R310, R440). -/
def State.bindChecks (s : State) (g l p : List Byte) : List (Bool × Err) :=
  let x := collG g
  let y := collL l
  let m := s.vaRead y.owner (s.collSlot y.owner y.ctx) y.membersVa (8 * x.members)
  let dh := collHash g m.2.2
  let sched := bit x.flags 0
  let named := match Tab.find? s.sq.scheds y.ctx with
    | some k => k.colls.any fun c => c.collId == x.id && c.dhash == dh
    | none => false
  let prog := s.oxCheck p
  [(s.health.quarantined, .denied), (!s.svc.hubIn, .range), (collFieldsBad g l p, .badarg), (s.noCtx y.ctx || !s.dieIn y.owner, .range),
   (decide (m.2.1.collErr = some .prot), .prot), (m.2.1.collErr.isSome, .pagefault),
   (memberListBad m.2.2 x.members y.me s.node y.ctx, .badarg), (bit x.flags 1 && !(s.cx y.ctx).goodput, .denied),
   (s.ox.binds.any fun e => decide (e.2.collId = x.id) && (decide (e.2.st ≠ .free) || (s.bindX e.1).cooling), .busy),
   (s.collEntry.isNone, .quota), (decide (prog ≠ .ok), prog), (collProgBad x (oxP p), .badarg),
   (sched && !named, .collMismatch), ((s.collAdmit sched y.ctx y.owner (oxP p).lines).isNone, .nomem)]

/-- COLL_BIND (R293 to R295): a refused bind changes no state. -/
def execCollBind (src : Src) (g l p : List Byte) (s : State) : Out :=
  let x := collG g
  let y := collL l
  let m := s.vaRead y.owner (s.collSlot y.owner y.ctx) y.membersVa (8 * x.members)
  .next (s.command src 0x0601 (s.owns src y.ctx) (decide (src.context = y.ctx)) (s.bindChecks g l p)
    fun s => match s.collAdmit (bit x.flags 0) y.ctx y.owner (oxP p).lines with
      | some (t, place, spill) => t.collOpen src (s.collEntry.getD 0) place spill (collHash g m.2.2) g l p
      | none => s)

/-- A collectives command that names CTX and COLL_ID (R310): the binding, and the checks that come before its own. -/
def State.collCmd (s : State) (src : Src) (cmd ctx coll : Nat) (checks : Nat → List (Bool × Err)) (run : Nat → State → State) : State :=
  let b := s.collHeld coll
  let n := b.getD 1024
  s.command src cmd (s.owns src ctx) (decide (src.context = ctx))
    ([(!s.svc.hubIn || s.noCtx ctx, .range), (b.isNone, .range), (decide ((s.bind n).ctx ≠ ctx), .denied)] ++ checks n) (run n)

/-- COLL_START (R301, R310): the fetch starts and the binding enters RUNNING. -/
def execCollStart (src : Src) (ctx coll : Nat) (s : State) : Out :=
  .next (s.collCmd src 0x0602 ctx coll
    (fun b => [(decide ((s.bind b).st ≠ .open), .seq), ((s.bind b).sched, .denied)])
    fun b s =>
      let s := s.modBind b fun v => { v with st := .running, tRun := s.now }
      let s := s.modBindX b fun v => { v with fetch := { v.fetch with active := !v.fetch.done } }
      (s.reply src 0x0602 .ok []).collProgress b)

/-- COLL_ABORT (R303, R310): returns the state before. -/
def execCollAbort (src : Src) (ctx coll : Nat) (s : State) : Out :=
  .next (s.collCmd src 0x0603 ctx coll (fun _ => [])
    fun b s =>
      let before := leBytes 1 (s.bind b).st.code
      (if (s.bind b).st = .aborted then s else s.collFail b .collAborted).reply src 0x0603 .ok before)

/-- A binding becomes FREE (R308): its claim returns, its spill buffer too, the id cools. -/
def State.collRelease (s : State) (b : Nat) : State :=
  let x := s.bind b
  let s := (s.bindX b).run.descs.foldl (fun s d => s.releaseOx d) s
  let s := if x.place = 2 then (s.bpFree x.owner 9 x.spill).1 else s
  let s := s.modBind b fun v => { v with st := .free, lines := 0, used := 0, place := 0, spill := 0, tEnd := s.now }
  s.modBindX b fun v => { v with run := {}, fetch := {}, cooling := true, freedOnce := true }

/-- COLL_FREE (R308, R310). -/
def execCollFree (src : Src) (ctx coll : Nat) (s : State) : Out :=
  .next (s.collCmd src 0x0604 ctx coll
    (fun b => [(decide ((s.bind b).st = .open ∨ (s.bind b).st = .running), .busy)])
    fun b s => (s.collRelease b).reply src 0x0604 .ok [])

/-- COLL_STATUS (R310): a COLL_ID, or an entry index with bit 31 set. -/
def execCollStatus (src : Src) (key : Nat) (s : State) : Out :=
  let b := if 2 ^ 31 ≤ key then (if key - 2 ^ 31 < 1024 then some (key - 2 ^ 31) else none) else s.collHeld key
  let mine := match b with
    | some b => decide ((s.bind b).st = .free) || s.owns src (s.bind b).ctx
    | none => true
  .next (s.command src 0x0605 mine true [(!s.svc.hubIn, .range), (b.isNone, .range)]
    fun s => s.reply src 0x0605 .ok (s.bind (b.getD 0)).status)

/-- An OX_OPEN checked where it is delivered (R299): by the Ox, or by the hub for the owner die. A poisoned one is
discarded (R532), as every packet below is. -/
def execOxOpenReceive (k : Packet) (owner : Bool) (s : State) : Out :=
  if k.hdr.kind ≠ 0x44 ∨ k.poison = true then .next s
  else match s.collLive k.hdr.collId with
    | none => .next (s.oxUnbound k)
    | some b =>
      if crc32 k.payload ≠ k.crc then .next (s.collFail b .checksum)
      else
        let late := if owner then none else s.collPeriodErr b k
        match late with
        | some e => .next (s.collFail b e)
        | none =>
          let s := s.collFirst b
          let x := s.bind b
          let full := if owner then decide (x.opensOut ≤ x.matchedOut) else decide (x.opensIn ≤ x.matchedIn)
          if fld k.payload 16 8 ≠ x.dhash ∨ full = true then
            .next (s.collFail b .collMismatch (padTo 12 (k.payload.drop 16) ++ leBytes 4 x.collId))
          else
            .next ((s.modBind b fun v => if owner then { v with matchedOut := v.matchedOut + 1 }
              else { v with matchedIn := v.matchedIn + 1 }).collProgress b)

/-- OX_ABORT arrives (R305): matched by COLL_ID alone. -/
def execOxAbortReceive (k : Packet) (s : State) : Out :=
  if k.hdr.kind ≠ 0x45 ∨ k.poison = true then .next s
  else match s.collHeld k.hdr.collId with
    | none => .next (s.oxUnbound k)
    | some b =>
      if (s.bind b).st = .aborted then .next s
      else if crc32 k.payload ≠ k.crc then .next (s.collFail b .checksum)
      else .next (s.collAbortBy b (Err.ofCode (fld k.payload 28 2)) (fld k.payload 24 4) 2)

/-- The OX_ABORT of an aborted binding enters the egress queues of its ABORT_GROUP, class MGMT, network REP (R304, R305). -/
def execOxAbortSend (b : Fin 1024) (s : State) : Out :=
  if !(s.bindX b).abortDue then .next s
  else
    let x := s.bind b
    let s := s.modBindX b fun v => { v with abortDue := false }
    let payload := oxPrefix x.myIndex 0 0 0 0 1 ++ leBytes 8 x.dhash ++ leBytes 4 x.origin ++ leBytes 2 x.code.code ++ leBytes 2 0
    let h := s.collHdr b 5 (2 ^ 96 - 1) (collL (s.bindX b).local_).abortGroup 0x45
    .next (s.enterHub 53 (s.packet h payload) 0)

/-- TIMEOUT_US has elapsed since RUNNING (R303). -/
def execCollTimeout (b : Fin 1024) (s : State) : Out :=
  let x := s.bind b
  if x.st = .running ∧ x.tRun + x.timeoutUs * 1000 ≤ s.now then .next (s.collFail b .collTimeout) else .next s

/-- The cooling of an id ends (R308, R311). -/
def execCollCoolExpiry (b : Fin 1024) (s : State) : Out :=
  if (s.bind b).st = .free ∧ (s.bindX b).cooling = true ∧ (s.bind b).tEnd + s.ox.cool * 1000 ≤ s.now then
    .next (s.modBindX b fun v => { v with cooling := false })
  else .next s

/-- A packet of the local fetch enters the hub at the owner die's port (R296). -/
def State.fetchSend (s : State) (b kind : Nat) (payload : List Byte) : State :=
  let y := collL (s.bindX b).local_
  s.emit (.send y.owner (s.packet (s.collHdr b y.inNetcls y.inRoute y.inGroup kind) payload))

/-- COLL_FETCH_PACKET (R296, R298): the next packet of the local fetch, its OX_OPEN first. `ue` when a line read is uncorrectable. -/
def execCollFetchPacket (b : Fin 1024) (ue : Bool) (s : State) : Out :=
  let x := s.bind b
  let g := collG (s.bindX b).global
  let y := collL (s.bindX b).local_
  let f := (s.bindX b).fetch
  if !f.active ∨ (x.st ≠ .open ∧ x.st ≠ .running) then .next s
  else if !f.openSent then
    .next ((s.fetchSend b 0x44 (oxPrefix y.me y.inStream 0 0 0 1 ++ leBytes 8 x.dhash ++ leBytes 4 s.node ++ leBytes 4 0)).modBindX b
      fun v => { v with fetch := { v.fetch with openSent := true } })
  else
    let elems := decide (g.type ≤ 1)
    let size := if elems then oxSize (g.fmt % 16) else 4 * g.rw
    let most := if elems then (if size = 4 then 1008 else 2032) else 4080 / size
    let n := min most (y.srcUnits - f.pos)
    let va := y.srcVa + f.pos * size
    let slot := s.collSlot y.owner x.ctx
    if ue then
      match s.translate y.owner slot va 0 with
      | (t, .ok sa) => match t.target sa with
        | .dev a => .next ((t.hbmUe (a / 64 * 64)).collFail b .uncorr)
        | _ => .next s
      | _ => .next s
    else
      let m := s.vaRead y.owner slot va (n * size)
      match m.2.1.collErr with
      | some e => .next (m.1.collFail b e)
      | none =>
        let last := decide (y.srcUnits ≤ f.pos + n)
        let s := m.1.fetchSend b (if elems then 0x40 else 0x42) (oxPrefix y.me y.inStream (b2n last) (y.srcOff + f.pos) n 1 ++ m.2.2)
        .next ((s.modBindX b fun v => { v with fetch := { v.fetch with pos := f.pos + n, active := !last, done := last } }).collProgress b)

/-- Records or results of a packet at the owner die: element size and address (R297); none when the packet disagrees. -/
def collDest (g : CollG) (y : CollL) (kind : Nat) (bs : List Byte) : Option (Nat × Nat) :=
  let off := fld bs 4 4
  if kind = 0x43 ∧ g.type ≤ 1 then
    let size := oxSize (g.fmt / 16)
    if bs.length = 16 + fld bs 8 2 * size then some (size, y.dstVa + off * size) else none
  else if kind = 0x42 ∧ 2 ≤ g.type then
    let size := 4 * g.rw
    if bs.length = 16 + fld bs 8 2 * size then some (size, y.dstVa + fld bs 0 2 * y.stride + off * size) else none
  else none

/-- COLL_RESULT_WRITE (R297): a packet the hub delivers to compute die d for a binding that owns it. -/
def execCollResultWrite (d : CdId) (k : Packet) (s : State) : Out :=
  if k.poison then .next s
  else if k.hdr.kind = 0x44 then execOxOpenReceive k true s
  else match s.collLive k.hdr.collId with
    | none => .next (s.oxUnbound k)
    | some b =>
      let x := s.bind b
      if x.owner ≠ d.val then .next (s.oxUnbound k)
      else if crc32 k.payload ≠ k.crc then .next (s.collFail b .checksum)
      else
        let s := s.collFirst b
        let n := fld k.payload 8 2
        match collDest (collG (s.bindX b).global) (collL (s.bindX b).local_) k.hdr.kind k.payload with
        | none => .next (s.collFail b .collMismatch)
        | some (_, va) =>
          if x.recvUnits < x.written + n then .next (s.collFail b .collMismatch)
          else
            let w := s.vaWrite d (s.collSlot d x.ctx) x.ctx va (k.payload.drop 16)
            match w.2.collErr with
            | some e => .next (w.1.collFail b e)
            | none => .next ((w.1.modBind b fun v => { v with written := v.written + n }).collProgress b)

/-- The end of a context (R309): its bindings abort with E_COLL_ABORTED and are freed. -/
def State.collEndCtx (s : State) (x : Nat) : State :=
  ((s.ox.binds.filter fun e => decide (e.2.st ≠ .free ∧ e.2.ctx = x)).map (·.1)).foldl
    (fun s b => ((s.abortBinding b .collAborted s.node 3).collRelease b)) s

end Sys2Proof.Machine
end

