-- ==== Sys2Proof/Machine/FTime.lean ====
section
/-! DEFINITION. Fabric time, TIME cells and the SYNC line (R26, R336, R341 to R347, R369, R370, R520). -/

namespace Sys2Proof.Machine

/-- A TIME cell's bytes 0 to 125 (R343). -/
def timeCellBytes (c : TimeCell) : List Byte :=
  [0x03, BitVec.ofNat 8 (b2n c.locked + 2 * b2n c.root), BitVec.ofNat 8 c.dist, 0] ++ leBytes 4 c.rootNode ++ leBytes 8 c.txTime ++ leBytes 110 0

/-- The TIME cell this device sends now (R343). -/
def State.timeCellNow (s : State) : TimeCell :=
  let c : TimeCell := { locked := s.timeLocked, root := s.ft.ctlRoot, dist := if s.ft.ctlRoot then 0 else s.ft.dist,
                        rootNode := if s.ft.ctlRoot then s.node else s.ft.root, txTime := s.now, tcrc := 0 }
  { c with tcrc := crc16 (timeCellBytes c) }

/-- A TIME cell falls due on an UP link, once in every 1,024 ns (R343); it leaves in the next unscheduled slot. -/
def execTimeCellSend (l : LinkId) (s : State) : Out :=
  if (s.link l).st = .up then .next (s.modLx l fun x => { x with timeDue := true }) else .next s

/-- The board links to a member (R333). -/
def State.boardLinks (s : State) (m : Nat) : List Nat :=
  let lo := 28 + 2 * ((m + 4 - s.pins.member) % 4)
  [lo, lo + 1]

/-- The other members some board link of which is UP. -/
def State.presentPeers (s : State) : List Nat :=
  (List.range 4).filter fun m => decide (m ≠ s.pins.member) && (s.boardLinks m).any (s.peerLink m)

/-- Whether this device is the SYNC master (R336): every board link to a present peer is UP and no present peer has a lower id. The
peers are taken to use SYNC, which no contact shows (log entry 26). -/
def State.syncMaster (s : State) : Bool :=
  s.ft.useSync && s.presentPeers.all fun m => decide (s.pins.member < m) && (s.boardLinks m).all (s.peerLink m)

/-- The member that drives SYNC, as this device sees it. -/
def State.syncDriver (s : State) : Option Nat := s.presentPeers.head?.filter fun m => decide (m < s.pins.member)

/-- Whether this device takes time from SYNC (R347). -/
def State.syncListener (s : State) : Bool := s.ft.useSync && s.syncDriver.isSome && !s.ft.silent

/-- Every scheduled launch ends with E_SCHED_LATE (R346). -/
def State.endScheduled (s : State) : State :=
  s.sq.recs.foldl (fun s e => if e.2.st.live then s.endPeriod e.1 .schedLate 23 0x02 else s) s

/-- Entry into ACQUIRING (R346): from LOCKED it is logged; scheduled launches end. -/
def State.acquire (s : State) : State :=
  let s := if s.ft.st = .locked then s.raise 23 0x02 3 .schedLate else s
  let s := { s with ft := { s.ft with st := .acquiring, stepped := false, run16 := 0 } }
  s.endScheduled

/-- Links that give a candidate now (R344): UP, their last cell LOCKED and no older than 8,192 ns. -/
def State.candidates (s : State) : List (Nat × Cand) :=
  s.ft.cands.filter fun e => decide (e.1 < 36) && decide ((s.link e.1).st = .up) && e.2.locked && decide (s.now < e.2.at_ + 8192)

/-- The parent the candidates give (R344): of the lowest root, the lowest DIST, then the lowest link; none with DIST 15. -/
def State.bestParent (s : State) : Option (Nat × Cand) :=
  let cs := s.candidates
  match cs with
  | [] => none
  | c :: _ =>
    let root := cs.foldl (fun a e => min a e.2.root) c.2.root
    let best := (cs.filter fun e => e.2.root == root).foldl (fun (a : Option (Nat × Cand)) e =>
      match a with
      | none => some e
      | some x => if e.2.dist < x.2.dist then some e else a) none
    best.filter fun e => decide (e.2.dist < 15)

/-- What R344 says once: several roots, or a best DIST of 15. -/
def State.timeComplaints (s : State) : State :=
  let cs := s.candidates
  let roots := cs.any fun e => cs.any fun f => e.2.root != f.2.root
  let far := decide (cs ≠ []) && s.bestParent.isNone
  let s := if roots && !s.ft.saidRoot then ({ s with ft := { s.ft with saidRoot := true } }).raise 23 0x02 3 .range else s
  if far && !s.ft.saidDist then ({ s with ft := { s.ft with saidDist := true } }).raise 23 0x02 3 .range else s

/-- The offset as FT_STATUS holds it (R370). -/
def offSat (o : Int) : Int := max (-32767) (min 32767 o)

/-- Follow a parent: its DIST plus 1, or the master's own for a listener; PARENT reads none for SYNC (R344, R347). -/
def State.follow (s : State) (l : Nat) (c : Cand) (sync : Bool) : State :=
  { s with ft := { s.ft with parent := if sync then none else some l, dist := if sync then c.dist else c.dist + 1, root := c.root,
                             offset := offSat c.offset, lastParent := s.now } }

/-- A slew by one tick (R344, R347): a master owes it to a pulse, any other device applies it at its next tick. -/
def State.slew (s : State) (v : Int) : State :=
  if s.syncMaster && !s.ft.silent then { s with ft := { s.ft with owed := s.ft.owed ++ [v], slews := s.ft.slews + 1 } }
  else { s with ft := { s.ft with due := s.ft.due ++ [(s.now, v)], slews := s.ft.slews + 1 } }

/-- A parent cell with offset o, which came with `target` = TX_TIME + f + 32, in each state (R342, R344 to R346). -/
def State.parentCell (s : State) (o : Int) (target : Nat) (sync : Bool) : State :=
  let within := decide (o.natAbs ≤ s.ft.limit)
  match s.ft.st with
  | .locked =>
    if !within then s.acquire
    else if sync then s
    else if 1 ≤ o then s.slew 1 else if o ≤ -1 then s.slew (-1) else s
  | .holdover => if within then { s with ft := { s.ft with st := .locked } } else s.acquire
  | _ =>
    let s := { s with ft := { s.ft with st := .acquiring } }
    if !s.ft.stepped then
      if s.sq.recs.any fun e => e.2.st.live then s
      else
        let d : Int := (target : Int) - s.now
        ({ s with ft := { s.ft with now := target, stepped := true, run16 := 0, steps := sat 32 (s.ft.steps + 1), lastStep := d, due := [],
                                    owed := [] } }).raise 23 0x02 1 .ok (leBytes 8 (ux 64 d))
    else if within then
      if 15 ≤ s.ft.run16 then { s with ft := { s.ft with st := .locked, run16 := 0 } } else { s with ft := { s.ft with run16 := s.ft.run16 + 1 } }
    else { s with ft := { s.ft with stepped := false, run16 := 0 } }

/-- A TIME cell arrives on link l (R343 to R346). The root takes time from nobody. -/
def State.timeCell (s : State) (l : Nat) (c : TimeCell) : State :=
  if c.tcrc ≠ crc16 (timeCellBytes c) ∨ (s.link l).st ≠ .up ∨ s.ft.failed = true then s
  else
    let target := c.txTime + (s.link l).flight + 32
    let o : Int := (target : Int) - s.now
    let k : Cand := { locked := c.locked, dist := c.dist, root := c.rootNode, offset := o, at_ := s.now }
    let s := { s with ft := { s.ft with cands := Tab.put s.ft.cands l k } }
    if s.ft.ctlRoot then s
    else
      let s := s.timeComplaints
      match s.syncListener, s.syncDriver with
      | true, some m =>
        if c.locked && (s.boardLinks m).contains l then (s.follow l k true).parentCell o target true else s
      | _, _ =>
        match s.bestParent with
        | none => s
        | some (p, _) =>
          if p ≠ l then s
          else
            let s := if s.ft.parent ≠ some l ∧ s.ft.st ≠ .locked then { s with ft := { s.ft with stepped := false, run16 := 0 } } else s
            (s.follow l k false).parentCell o target false

def execTimeCell (l : LinkId) (c : TimeCell) (s : State) : Out := .next (s.timeCell l c)

/-- Select a parent among the links while LOCKED (R346, R347): kept LOCKED within TIME_LIMIT, else ACQUIRING; none gives HOLDOVER. -/
def State.reparent (s : State) : State :=
  match s.bestParent with
  | none => { s with ft := { s.ft with st := .holdover, parent := none, holdFrom := s.now } }
  | some (l, c) =>
    let s := s.follow l c false
    if c.offset.natAbs ≤ s.ft.limit then s else s.acquire

/-- No valid parent cell for 8,192 ns (R346). -/
def execParentLossTimeout (s : State) : Out :=
  if s.ft.st = .locked ∧ s.ft.ctlRoot = false ∧ s.ft.lastParent + 8192 ≤ s.now ∧ (s.syncListener = false ∨ s.ft.marked + 3 * 2 ^ 20 ≤ s.now) then
    .next s.reparent
  else .next s

/-- 100 us in HOLDOVER (R346). -/
def execHoldoverTimeout (s : State) : Out :=
  if s.ft.st = .holdover ∧ s.ft.holdFrom + 100000 ≤ s.now then .next s.endScheduled else .next s

/-- Within 128 ns of a MARK, where a master applies no slew (R347). -/
def nearMark (t : Nat) : Bool := decide (t % 2 ^ 20 ≤ 128) || decide (2 ^ 20 - 128 ≤ t % 2 ^ 20)

/-- The master drives a pulse (R347): a MARK at its time, an ADD or HOLD with the slew it applies. A master that sees another's edge
(`foreign`) stops driving until its next pulse time (R520). -/
def execSyncPulseDrive (k : Pulse) (foreign : Bool) (s : State) : Out :=
  if !s.syncMaster ∨ !s.timeLocked then .next s
  else if foreign then
    if s.ft.silent then .next s else .next (({ s with ft := { s.ft with silent := true } }).raise 23 0x02 3 .range)
  else
    match k, s.ft.owed with
    | .mark, _ =>
      if s.now % 2 ^ 20 = 0 then .next (({ s with ft := { s.ft with silent := false } }).emit (.pulse .mark)) else .next s
    | .add, v :: rest =>
      if v = 1 ∧ nearMark s.now = false then
        .next (({ s with ft := { s.ft with silent := false, owed := rest, due := s.ft.due ++ [(s.now, 1)] } }).emit (.pulse .add))
      else .next s
    | .hold, v :: rest =>
      if v = -1 ∧ nearMark s.now = false then
        .next (({ s with ft := { s.ft with silent := false, owed := rest, due := s.ft.due ++ [(s.now, -1)] } }).emit (.pulse .hold))
      else .next s
    | _, [] => .next s

/-- A member with USE_SYNC set that is not the master measures a pulse (R347), told apart at 16 and 44 ns (log entry 26). A MARK within
TIME_LIMIT brings a listener back to SYNC; one beyond it sends it to its links. -/
def execSyncPulseReceive (width at_ : Nat) (s : State) : Out :=
  if !s.ft.useSync ∨ s.syncDriver.isNone ∨ s.ft.failed = true then .next s
  else if width < 44 then
    if s.ft.silent then .next s
    else .next { s with ft := { s.ft with due := s.ft.due ++ [(at_ + 32, if width < 16 then 1 else -1)], slews := s.ft.slews + 1 } }
  else
    let nominal := (at_ + 2 ^ 19 - s.ft.syncDelay) / 2 ^ 20 * 2 ^ 20
    let o : Int := ((nominal + s.ft.syncDelay : Nat) : Int) - at_
    let s := { s with ft := { s.ft with marked := s.now, offset := offSat o } }
    if s.ft.limit < o.natAbs then
      let s := { s with ft := { s.ft with silent := true } }
      .next (if s.ft.st = .locked then s.reparent else s)
    else
      let s := { s with ft := { s.ft with silent := false, parent := none } }
      .next (if s.ft.st ≠ .locked then s else if 1 ≤ o then s.slew 1 else if o ≤ -1 then s.slew (-1) else s)

/-- A listener that misses 3 consecutive MARKs selects a parent among its links (R347). -/
def execSyncMarkMissed (s : State) : Out :=
  if s.syncListener = true ∧ s.ft.marked + 3 * 2 ^ 20 ≤ s.now then
    let s := { s with ft := { s.ft with silent := true } }
    .next (if s.ft.st = .locked then s.reparent else s)
  else .next s

/-- The always-on island of the host die fails: fabric time stops (R26). -/
def execFabricTimeUnitFailure (s : State) : Out := .next { s with ft := { s.ft with failed := true } }

/-- FT_STATUS (R370). -/
def State.ftStatus (s : State) : Nat :=
  let st := if s.ft.ctlRoot then 2 else match s.ft.st with
    | .free => 0
    | .acquiring => 1
    | .locked => 2
    | .holdover => 3
  st + 4 * b2n s.ft.ctlRoot + 8 * b2n (s.syncMaster && s.timeLocked && !s.ft.silent) + 16 * b2n s.syncListener +
  32 * s.ft.parent.getD 0x3F + 2 ^ 11 * (if s.ft.ctlRoot then 0 else s.ft.dist % 16) + 2 ^ 16 * ux 16 s.ft.offset

/-- FT registers 0x0000 to 0x003F (R370). -/
def State.ftReg (s : State) (k : Nat) : Nat :=
  match k with
  | 0 => s.now
  | 1 => s.ftStatus
  | 2 => b2n s.ft.ctlRoot + 2 * b2n s.ft.useSync + 4 * s.ft.limit
  | 3 => if s.ft.ctlRoot then s.node else s.ft.root
  | 4 => s.ft.slews
  | 5 => s.ft.steps
  | 6 => ux 64 s.ft.lastStep
  | 7 => s.ft.syncDelay
  | _ => 0

/-- TIME_STATUS (R369). -/
def execTimeStatus (src : Src) (s : State) : Out :=
  .next (s.command src 0x0806 true true [(!s.svc.hdIn, .range)]
    fun s => s.reply src 0x0806 .ok ((List.range 8).flatMap fun k => leBytes 8 (s.ftReg k)))

/-- TIME_SET (R342, R369): the root, once. -/
def execTimeSet (src : Src) (t : Nat) (s : State) : Out :=
  .next (s.command src 0x0807 (s.isAdmin src) true
    [(!s.svc.hdIn, .range), (!s.ft.ctlRoot || s.ft.wasSet, .denied),
     (s.ctx.tab.any fun e => decide (e.2.st = .armed ∨ e.2.st = .running), .busy)]
    fun s => ({ s with ft := { s.ft with now := t, wasSet := true } }).reply src 0x0807 .ok [])

end Sys2Proof.Machine
end

