-- ==== Sys2Proof/Machine/Links.lean ====
section
/-! DEFINITION. Fabric links: flits, control cells, credits and replay, training, lanes, loss of a link (R312 to R326, R339, R535, R536). -/

namespace Sys2Proof

open Machine

/-- A header from its 32 bytes (R324). -/
def Hdr.ofBytes (b : List Byte) : Hdr :=
  let b0 := fld b 0 1
  let b1 := fld b 1 1
  { version := b0 % 16, net := b0 / 16 % 2, cls := b0 / 32 % 4, epoch := b0 / 128, hop := b1 % 16, mc := bit b1 4, route := fld b 2 12,
    ctx := fld b 14 2 % 4096, kind := fld b 16 1, period := fld b 18 2, collId := fld b 20 4, length := fld b 24 2 % 8192,
    group := fld b 26 2 % 4096, hcrc := fld b 30 2 }

/-- A packet from the bytes it is carried as (R234, R325). -/
def Packet.ofBytes (b : List Byte) (poison : Bool) : Packet :=
  let h := Hdr.ofBytes b
  { hdr := h, payload := padTo h.length (b.drop 32), crc := fld b (32 + h.length) 4, poison := poison }

/-- A control cell's bytes 0 to 125 (R316). -/
def CtlCell.bytes (c : CtlCell) : List Byte :=
  [0x01, BitVec.ofNat 8 (b2n c.nak + 2 * b2n c.down + 4 * b2n c.reset + 8 * b2n c.swap)] ++ leBytes 2 c.ack ++
  ((List.range 6).flatMap fun i => leBytes 2 (c.credits.getD i 0)) ++ leBytes 4 c.echoTx ++ leBytes 4 c.echoRx ++
  leBytes 2 c.swapSeq ++ [BitVec.ofNat 8 c.swapLane] ++ leBytes 99 0

end Sys2Proof

namespace Sys2Proof.Machine

/-- The link die of link l, and the unit of its registers there (R339). -/
def linkDie (l : Nat) : Nat := 17 + l / 6
def linkUnit (l : Nat) : Nat := l % 6

/-- Capacity of a pool (R315). -/
def poolCells (k : Nat) : Nat := if k < 2 then 768 else 128

/-- The next control cell (R316). -/
def State.ctlCell (s : State) (l : Nat) (c : CtlCell) : CtlCell :=
  let x := s.lx l
  let c := { c with ack := x.rxSeq, credits := (List.range 6).map fun k => Tab.get 0 x.owed k, echoTx := s.aonNs % 2 ^ 32,
                    echoRx := (x.lastEcho + (s.aonNs - x.lastEchoAt)) % 2 ^ 32 }
  { c with ccrc := crc16 c.bytes }

/-- Copies a link still holds or has sent without an acknowledgement are lost with it (R322, R330). -/
def LinkX.serials (x : LinkX) : List Nat :=
  x.replay.flatMap (·.serials) ++ (x.cur ++ x.txSched ++ x.txUns).filterMap (·.serial)

/-- Hen requests outstanding over a board link, as (die, thread, entry) (R322). -/
def State.peerOutstanding (s : State) (l : Nat) : List (Nat × Nat × Nat) :=
  s.cds.flatMap fun c => c.2.hen.threads.flatMap fun t => t.2.reqs.filterMap fun r =>
    match s.target r.2.addr with
    | .peer m p => if r.2.target = 2 ∧ r.2.held = false ∧ s.peerRoute m p = some l then some (c.1, t.1, r.1) else none
    | _ => none

/-- What every loss of a link does (R321, R322): the DOWN cell unless the peer announced it or the lanes drop at once (`say`), the hub
output and its queues, the replay buffer, the credits, outstanding board-peer requests, the count and the log. -/
def State.linkDown (s : State) (l cause : Nat) (st : LinkSt) (say : Bool) : State :=
  let k := s.link l
  if k.st ≠ .up then s.modLink l fun k => { k with st := st, board := false }
  else
    let out := s.peerOutstanding l
    let s := if say then s.emit (.flit l (s.lx l).nextSeq [.ctl (s.ctlCell l { down := true })]) else s
    let lost := (s.lx l).serials
    let s := s.outputDown l
    let s := lost.foldl (fun s q => s.copyLeaves q) s
    let s := s.modLx l fun x => { sleep := x.sleep, trainAt := if k.auto && k.enable && decide (cause ≠ 7) then some (s.aonNs + k.retrainDelay * 1000) else none }
    let s := s.modLink l fun k => { k with st := st, board := false, swap := none, credits := [], downs := sat 32 (k.downs + 1), lastCause := cause }
    let s := out.foldl (fun s e => s.henReply e.1 e.2.1 e.2.2 .uncorr []) s
    let quiet := decide (cause = 7 ∨ cause = 8)
    s.raise (linkDie l) (linkUnit l) (if quiet then 1 else 3) .uncorr [BitVec.ofNat 8 l, BitVec.ofNat 8 cause] 0xFFFF
      (if cause = 1 ∨ cause = 4 ∨ cause = 5 ∨ cause = 6 then some 17 else none)

/-- A loss for a cause of R321 that leaves the link DOWN. -/
def State.linkLoss (s : State) (l cause : Nat) : State := s.linkDown l cause .down (decide (cause ≠ 2 ∧ cause ≠ 3))

/-- Training starts (R318); an UP link first goes DOWN with cause 8. -/
def State.trainStart (s : State) (l : Nat) : State :=
  let s := if (s.link l).st = .up then s.linkDown l 8 .down true else s
  (s.modLink l fun k => { k with st := .training }).modLx l fun x => { x with trainAt := none }

/-- Empty and fill a slot of the flit: what leaves in an unscheduled slot (R314), and the state after it. -/
def State.unschedSlot (s : State) (l : Nat) : State × TxSlot :=
  let x := s.lx l
  let ctl (c : CtlCell) (rest : List CtlCell) : State × TxSlot :=
    (s.modLx l fun x => { x with ctlUrgent := rest, owed := [], ctlDue := false, unsSinceCtl := 0 }, { slot := .ctl (s.ctlCell l c) })
  match x.ctlUrgent with
  | c :: rest => ctl c rest
  | [] =>
    if x.timeDue then (s.modLx l fun x => { x with timeDue := false, unsSinceCtl := x.unsSinceCtl + 1 }, { slot := .time s.timeCellNow })
    else if x.ctlDue ∨ 15 ≤ x.unsSinceCtl then ctl {} []
    else match x.txUns with
      | t :: rest => (s.modLx l fun x => { x with txUns := rest, unsSinceCtl := x.unsSinceCtl + 1 }, t)
      | [] => (s.modLx l fun x => { x with unsSinceCtl := x.unsSinceCtl + 1 }, {})

/-- A scheduled slot (R314). -/
def State.schedSlot (s : State) (l : Nat) : State × TxSlot :=
  match (s.lx l).txSched with
  | t :: rest => (s.modLx l fun x => { x with txSched := rest }, t)
  | [] => (s, {})

/-- A full flit leaves (R313, R317): kept for replay with the next SEQ, or all empty with no SEQ advance while the buffer is full. -/
def State.flitOut (s : State) (l : Nat) (slots : List TxSlot) : State :=
  let x := s.lx l
  let full := decide (128 ≤ x.replay.length)
  let seq := if full then (x.nextSeq + 65535) % 65536 else x.nextSeq
  let fs := slots.map (·.slot)
  let s := s.emit (.flit l seq fs)
  let s := s.modLink l fun k => { k with flitsTx := k.flitsTx + 1, swap := k.swap.map fun w => { w with flitsLeft := w.flitsLeft - 1 } }
  s.modLx l fun x => { x with
    cur := [], nextSeq := if full then x.nextSeq else (x.nextSeq + 1) % 65536,
    lastAckAt := if x.replay = [] then s.aonNs else x.lastAckAt,
    replay := if full then x.replay else x.replay ++ [{ seq := seq, slots := fs, serials := slots.filterMap (·.serial) }] }

/-- Replay the next flit due (R317); the eighth replay of one flit takes the link DOWN (R321). -/
def State.flitAgain (s : State) (l : Nat) (f : TxFlit) (rest : List TxFlit) : State :=
  if 8 ≤ f.replays + 1 then s.linkLoss l 4
  else
    let s := (s.emit (.flit l f.seq f.slots)).modLink l fun k => { k with flitsTx := k.flitsTx + 1 }
    s.modLx l fun x => { x with resend := rest, slotNo := x.slotNo + 10,
                                replay := x.replay.map fun g => if g.seq = f.seq then { g with replays := g.replays + 1 } else g }

/-- FLIT_SEND (R314, R317): the next slot of the link's flit, or a whole flit under replay. -/
def execFlitSend (l : LinkId) (s : State) : Out :=
  let x := s.lx l
  if (s.link l).st ≠ .up then .next s
  else if x.sleep.st ≠ .running then .next (s.modSleep (.link l) fun u => { u with waking := true })
  else match x.resend, x.cur with
    | f :: rest, [] => .next (s.flitAgain l f rest)
    | _, _ =>
      let uns := decide (x.slotNo % s.hub.shareD = s.hub.shareD - 1)
      let r := if 128 ≤ x.replay.length then (s, ({} : TxSlot)) else if uns then s.unschedSlot l else s.schedSlot l
      let s := r.1.modLx l fun x => { x with slotNo := x.slotNo + 1, cur := x.cur ++ [r.2] }
      .next (if (s.lx l).cur.length < 10 then s else s.flitOut l (s.lx l).cur)

/-- ACK covers flits up to its SEQ (R317, R330). -/
def State.linkAck (s : State) (l ack : Nat) : State :=
  let x := s.lx l
  let gone (f : TxFlit) : Bool := decide ((ack + 65536 - f.seq) % 65536 < 32768)
  let s := ((x.replay.filter gone).flatMap (·.serials)).foldl (fun s q => s.copyLeaves q) s
  s.modLx l fun y => { y with replay := y.replay.filter fun f => !gone f, resend := y.resend.filter fun f => !gone f,
                              lastAckAt := if (x.replay.any gone) = true then s.aonNs else y.lastAckAt }

/-- The logical lane a physical lane carries, if any. -/
def laneOf (map q : Nat) : Option Nat := List.find? (fun i => decide (bits map (4 * i + 3) (4 * i) = q)) (List.range 8)

/-- The map after logical lane i has moved to the spare (R320). -/
def laneSwapped (map i : Nat) : Nat :=
  let spare := bits map 35 32
  (List.range 8).foldl (fun a j => a + (if j = i then spare else bits map (4 * j + 3) (4 * j)) * 2 ^ (4 * j)) (0xF * 2 ^ 32)

/-- A swap is requested for a physical lane (R320); the request itself is no cell of R316 (log entry 27). -/
def State.swapStart (s : State) (l q : Nat) : State :=
  match laneOf (s.link l).laneMap q, (s.link l).swap with
  | some i, none => s.modLink l fun k => { k with swap := some { lane := i } }
  | _, _ => s

/-- A control cell (R316, R317, R321). A cell whose CCRC fails is discarded. -/
def State.controlCell (s : State) (l : Nat) (c : CtlCell) : State :=
  if (s.link l).st ≠ .up ∨ c.ccrc ≠ crc16 c.bytes then s
  else if c.down then s.linkLoss l 2
  else if c.reset then s.linkLoss l 3
  else
    let x := s.lx l
    let behind := (x.nextSeq + 65535 - c.ack) % 65536
    if 128 < behind then s.linkLoss l 6
    else
      let s := s.modLx l fun x => { x with lastEcho := c.echoTx, lastEchoAt := s.aonNs }
      let s := s.linkAck l c.ack
      let s := s.modLink l fun k => { k with credits := (List.range 6).foldl (fun t i => Tab.set 0 t i (Tab.get 0 t i + c.credits.getD i 0)) k.credits }
      let s := if c.nak then (s.modLx l fun x => { x with resend := x.replay }).modLink l fun k => { k with replays := k.replays + 1 } else s
      if c.swap then s.modLink l fun k => { k with swap := some { lane := c.swapLane % 8, flitsLeft := 0, seq := c.swapSeq, sent := true, peer := true } } else s

def execControlCell (l : LinkId) (c : CtlCell) (s : State) : Out := .next (s.controlCell l c)

/-- One slot of an accepted flit: a cell joins its packet, which enters the hub with its last cell, and its credit is returned as it
passes into the hub (R315). -/
def State.rxSlot (s : State) (l : Nat) : FlitSlot → State
  | .empty => s
  | .ctl c => s.controlCell l c
  | .time c => s.timeCell l c
  | .cell net cls first last poison bytes =>
    let p := poolOf net cls
    if (s.link l).st ≠ .up then s
    else if poolCells p ≤ Tab.get 0 (s.lx l).owed p then s.linkLoss l 6
    else
      let held := (if first then [] else Tab.get [] (s.lx l).asm p) ++ bytes
      let s := s.modLx l fun x => { x with owed := Tab.set 0 x.owed p (Tab.get 0 x.owed p + 1), ctlDue := true,
                                           asm := Tab.set [] x.asm p (if last || poison then [] else held) }
      if last || poison then s.ingress l (Packet.ofBytes held poison) 0 else s

/-- FLIT_RECEIVE (R313, R317, R320, R321). -/
def execFlitReceive (l : LinkId) (f : Flit) (s : State) : Out :=
  if (s.link l).st ≠ .up then .next s
  else
    let s := s.modLink l fun k => { k with
      fecCorr := k.fecCorr + f.corrected.length,
      laneErrs := f.corrected.foldl (fun t q => Tab.set 0 t q (Tab.get 0 t q + 1)) k.laneErrs,
      laneErrsSec := f.corrected.foldl (fun t q => Tab.set 0 t q (Tab.get 0 t q + 1)) k.laneErrsSec }
    let nak (s : State) : State :=
      if (s.lx l).nakSent then s else s.modLx l fun x => { x with nakSent := true, ctlUrgent := x.ctlUrgent ++ [{ nak := true }] }
    if !f.ok then .next (nak (s.modLink l fun k => { k with fecUncorr := k.fecUncorr + f.uncorr }))
    else
      let d := (f.seq + 65536 - (s.lx l).rxSeq) % 65536
      if d = 1 then
        let s := s.modLx l fun x => { x with rxSeq := f.seq, nakSent := false, ctlDue := true }
        let s := s.modLink l fun k => { k with flitsRx := k.flitsRx + 1 }
        .next (f.slots.foldl (fun s t => s.rxSlot l t) s)
      else if d ≤ 128 ∧ d ≠ 0 then .next (nak s)
      else if d = 0 ∨ 65536 - 128 ≤ d then .next s
      else .next (s.linkLoss l 6)

/-- No ACK advance for 10 us with flits unacknowledged (R321). -/
def execLinkAckTimeout (l : LinkId) (s : State) : Out :=
  if (s.link l).st = .up ∧ (s.lx l).replay ≠ [] ∧ (s.lx l).lastAckAt + 10000 ≤ s.aonNs then .next (s.linkLoss l 5) else .next s

/-- A lane loses signal or lock (R320, R321): the spare takes it, or the link goes DOWN. -/
def execLinkSignalLoss (l : LinkId) (lane : Fin 9) (s : State) : Out :=
  let k := s.link l
  if k.st ≠ .up then .next s
  else match laneOf k.laneMap lane with
    | none => .next s
    | some _ => .next (if k.spareUsed ∨ k.swap.isSome then s.linkLoss l 1 else s.swapStart l lane)

/-- The member a board link leads to (R333). -/
def boardPeer (me l : Nat) : Nat := (me + (l - 28) / 2) % 4

/-- LINK_TRAINING_COMPLETE (R318, R319). -/
def execLinkTrainingComplete (l : LinkId) (t : Training) (s : State) : Out :=
  let k := s.link l
  if k.st ≠ .training then .next s
  else
    let fail (s : State) : State :=
      (s.modLink l fun k => { k with st := .down }).modLx l fun x =>
        { x with trainAt := if k.auto then some (s.aonNs + k.retrainDelay * 1000) else none }
    let good := sortBy (fun a b => decide (a ≤ b)) ((t.good.map (·.val)).eraseDups)
    if good.length < 8 ∨ t.lock = false then .next (fail s)
    else
      let s := s.modLink l fun k => { k with peerNode := t.peerNode, peerLink := t.peerLink, peerMember := t.peerMember, peerBoard := t.peerBoard }
      let board := k.wantBoard && t.peerBoard && decide (30 ≤ l.val) && decide (t.peerMember.val = boardPeer s.pins.member l)
      if !board ∧ (k.wantBoard ∨ t.peerBoard) then
        .next (fail (s.raise (linkDie l) (linkUnit l) 3 .range ([BitVec.ofNat 8 l.val, 0, 0, 0] ++ leBytes 4 t.peerNode)))
      else if (if board then 3 else 50) < t.flight then .next (fail s)
      else
        let spare := decide (9 ≤ good.length)
        let map := (List.range 8).foldl (fun a i => a + good.getD i 0 * 2 ^ (4 * i)) ((if spare then good.getD 8 0 else 0xF) * 2 ^ 32)
        let s := s.modLink l fun k => { k with st := .up, board := board, spareUsed := !spare, swap := none, retrainDue := false,
                                               flight := t.flight, flightNow := t.flight, laneMap := map,
                                               credits := (List.range 6).map fun i => (i, poolCells i) }
        let s := s.modLx l fun x => { sleep := x.sleep, rxSeq := 65535, lastAckAt := s.aonNs }
        .next (s.outputUp l)

/-- RETRAIN_DELAY after a loss expires (R318). -/
def execLinkRetrainDelayExpiry (l : LinkId) (s : State) : Out :=
  match (s.lx l).trainAt with
  | some t => if t ≤ s.aonNs ∧ (s.link l).st = .down ∧ (s.link l).auto = true ∧ (s.link l).enable = true then .next (s.trainStart l) else .next s
  | none => .next s

/-- FLIGHT_REMEASURE (R320): a change above 2 ns makes a retraining due, which waits for a running launch to end. -/
def execFlightRemeasure (l : LinkId) (f : Nat) (s : State) : Out :=
  let k := s.link l
  if k.st ≠ .up then .next s
  else
    let due := k.retrainDue || decide (k.flight + 2 < f ∨ f + 2 < k.flight)
    let s := s.modLink l fun k => { k with flightNow := f, retrainDue := due }
    .next (if due && !s.running then s.trainStart l else s)

/-- LANE_ERROR_CHECK, each second (R320). -/
def execLaneErrorCheck (l : LinkId) (s : State) : Out :=
  let k := s.link l
  let worst := List.find? (fun q => decide (k.laneLimit < Tab.get 0 k.laneErrsSec q)) (List.range 9)
  let s := s.modLink l fun k => { k with laneErrsSec := [] }
  match worst with
  | some q => .next (if k.st = .up ∧ k.spareUsed = false then s.swapStart l q else s)
  | none => .next s

/-- The new map is in force: the spare carries the lane (R320, R442). -/
def State.swapDone (s : State) (l : Nat) (w : Swap) : State :=
  let old := bits (s.link l).laneMap (4 * w.lane + 3) (4 * w.lane)
  (s.modLink l fun k => { k with swap := none, spareUsed := true, laneMap := laneSwapped k.laneMap w.lane }).substituted (linkDie l)
    (linkUnit l) 2 (8 * l + w.lane) old (bits (s.link l).laneMap 35 32)

/-- LANE_SWAP (R320): after 256 flits SWAP is sent, 16 flits ahead of the change (log entry 27); from SWAP_SEQ on the new map holds. -/
def execLaneSwap (l : LinkId) (s : State) : Out :=
  let x := s.lx l
  match (s.link l).swap with
  | none => .next s
  | some w =>
    if (s.link l).st ≠ .up then .next s
    else if !w.sent then
      if w.flitsLeft = 0 then
        let seq := (x.nextSeq + 16) % 65536
        .next ((s.modLink l fun k => { k with swap := some { w with sent := true, seq := seq } }).modLx l fun x =>
          { x with ctlUrgent := x.ctlUrgent ++ [{ swap := true, swapSeq := seq, swapLane := w.lane }] })
      else .next s
    else
      let at_ := if w.peer then (x.rxSeq + 1) % 65536 else x.nextSeq
      .next (if (at_ + 65536 - w.seq) % 65536 < 32768 then s.swapDone l w else s)

/-- A link is disabled (R321, R339, R536). -/
def State.linkDisable (s : State) (l : Nat) : State := (s.linkDown l 7 .disabled true).modLx l fun x => { x with trainAt := none }

/-- A write of LINK_CTL (R339). -/
def State.linkCtl (s : State) (l v : Nat) : State :=
  let old := s.link l
  let delay := bits v 19 4
  let s := s.modLink l fun k => { k with enable := bit v 0, wantBoard := bit v 1 && decide (30 ≤ l), auto := bit v 3,
                                         retrainDelay := if delay = 0 then 1 else delay }
  if old.enable && !bit v 0 then s.linkDisable l
  else if !bit v 0 then s
  else if (!old.enable && decide (old.st = .disabled)) || bit v 2 then s.trainStart l
  else s

/-- LINK_CTL.ENABLE is cleared, the rest of the register kept. -/
def execLinkCtlEnableClear (l : LinkId) (s : State) : Out :=
  let k := s.link l
  .next (s.linkCtl l (2 * b2n k.wantBoard + 8 * b2n k.auto + 16 * k.retrainDelay))

/-- A 1 is written to LINK_CTL.RETRAIN, the rest of the register kept; ignored while ENABLE is clear (R536). -/
def execLinkCtlRetrain (l : LinkId) (s : State) : Out :=
  let k := s.link l
  .next (s.linkCtl l (b2n k.enable + 2 * b2n k.wantBoard + 4 + 8 * b2n k.auto + 16 * k.retrainDelay))

/-- LINK_SET's action on one link (R536). -/
def State.linkAct (s : State) (l action : Nat) : State × Err :=
  let st := (s.link l).st
  match action with
  | 0 => if st = .disabled ∨ st = .parked then ((s.modLink l fun k => { k with enable := true }).trainStart l, .ok) else (s, .ok)
  | 1 => if st = .disabled then (s, .ok) else ((s.linkDisable l).modLink l fun k => { k with enable := false }, .ok)
  | 2 => if st = .disabled ∨ st = .parked then (s, .seq) else (s.trainStart l, .ok)
  | _ => if st = .disabled then (s, .seq) else ((s.linkDown l 7 .parked true).modLx l fun x => { x with trainAt := none }, .ok)

/-- Links of a mask. -/
def maskLinks (m : Nat) : List Nat := (List.range 36).filter (bit m)

/-- LINK_SET (R338, R536). -/
def execLinkSet (src : Src) (mask action mode : Nat) (s : State) : Out :=
  .next (s.command src 0x0704 (s.isAdmin src) true
    [(decide (mode = 1 ∧ mask % 2 ^ 30 ≠ 0), .denied), (decide (2 ^ 36 ≤ mask ∨ 3 < action), .range), (decide (1 < mode), .badarg),
     ((maskLinks mask).any fun l => !s.dieIn (linkDie l), .range)]
    fun s =>
      let r := (maskLinks mask).foldl (fun (r : State × List Byte) l =>
        let s := r.1.modLink l fun k => { k with wantBoard := decide (mode = 1) }
        let a := s.linkAct l action
        (a.1, r.2 ++ leBytes 2 a.2.code)) (s, [])
      r.1.reply src 0x0704 .ok r.2)

/-- The encoding of a link state (R339). -/
def LinkSt.code : LinkSt → Nat
  | .down => 0 | .training => 1 | .up => 2 | .parked => 3 | .disabled => 4

/-- The link register at offset 8 k (R339). -/
def Link.reg (k : Link) (i : Nat) : Nat :=
  match i with
  | 0 => k.st.code + 8 * b2n k.board + 16 * b2n k.spareUsed + 32 * b2n k.swap.isSome + 64 * b2n k.retrainDue
  | 1 => b2n k.enable + 2 * b2n k.wantBoard + 8 * b2n k.auto + 16 * k.retrainDelay
  | 2 => k.peerNode + k.peerLink * 2 ^ 32 + k.peerMember * 2 ^ 38 + b2n k.peerBoard * 2 ^ 40
  | 3 => k.flight + 256 * k.flightNow
  | 4 => k.laneMap
  | 5 => k.flitsTx
  | 6 => k.flitsRx
  | 7 => k.fecCorr
  | 8 => k.fecUncorr
  | 9 => k.replays
  | 10 => k.downs + k.lastCause * 2 ^ 32
  | 11 => (List.range 6).foldl (fun a p => a + Tab.get 0 k.credits p * 2 ^ (10 * p)) 0
  | 12 => k.laneLimit
  | i => if 32 ≤ i ∧ i < 41 then Tab.get 0 k.laneErrs (i - 32) else 0

/-- LINK_STATUS (R338): the registers from LINK_STATUS to the lane error counts. -/
def execLinkStatus (src : Src) (link : Nat) (s : State) : Out :=
  .next (s.command src 0x0705 (s.isAdmin src) true [(decide (35 < link), .range), (!s.dieIn (linkDie link), .range)]
    fun s => s.reply src 0x0705 .ok ((List.range 41).flatMap fun i => leBytes 8 ((s.link link).reg i)))

end Sys2Proof.Machine
end

