-- ==== Sys2Proof/Machine/Route.lean ====
section
/-! DEFINITION. Routing tables, epochs, remote windows (R185, R327 to R332, R338, R340, R535). -/

namespace Sys2Proof.Machine

/-- The encoding of a version state (R329). -/
def VerSt.code : VerSt → Nat
  | .empty => 0 | .loaded => 1 | .current => 2 | .draining => 3

/-- RT_STATUS (R340). -/
def Routing.status (r : Routing) : Nat := r.v0.code + 4 * r.v1.code + 16 * b2n r.pending.isSome + 32 * r.lastVersion

/-- Version v becomes CURRENT, the one that was becomes DRAINING (R331), and LOADED at once when nothing of its epoch is held (R330). -/
def Routing.commit (r : Routing) (v t : Nat) : Routing :=
  let o := 1 - v
  let was := decide (r.ver o = .current)
  let r := { (r.setVer v .current) with pending := none, lastVersion := v, commitTime := t }
  if was then (r.setVer o .draining).drained o else r

/-- The commit time comes (R331). -/
def execRouteCommitTakeEffect (s : State) : Out :=
  match s.rt.pending with
  | some (v, t) => if t ≤ s.now then .next { s with rt := s.rt.commit v t } else .next s
  | none => .next s

/-- A continuation or multicast entry that may not be written (R535, check 4). -/
def routeEntryBad (cont : Bool) (e : List Byte) : Bool :=
  if cont then
    decide (1 < fld e 12 1) || !zeroAt e 13 3 || decide (fld e 0 1 % 64 = 54) ||
    (List.range 16).any fun h => decide (55 ≤ bits (fld e 0 12) (6 * h + 5) (6 * h) ∧ bits (fld e 0 12) (6 * h + 5) (6 * h) ≤ 62)
  else decide (bits (fld e 0 8) 62 54 ≠ 0)

/-- Entries of a payload, of `size` bytes. -/
def entriesOf (size n : Nat) (bs : List Byte) : List (List Byte) := (List.range n).map fun i => (bs.drop (size * i)).take size

/-- Write entries of a version (R327, R328): an EMPTY version becomes LOADED. -/
def Routing.write (r : Routing) (v first : Nat) (cont : Bool) (es : List (List Byte)) : Routing :=
  let ix := es.zipIdx.map fun e => (first + e.2, e.1)
  let c (t : Tab (Nat × Bool)) : Tab (Nat × Bool) := ix.foldl (fun t e => Tab.set (0, false) t e.1 (fld e.2 0 12, bit (fld e.2 12 1) 0)) t
  let m (t : Tab Nat) : Tab Nat := ix.foldl (fun t e => Tab.set 0 t e.1 (fld e.2 0 8)) t
  let r := if r.ver v = .empty then r.setVer v .loaded else r
  match cont, v with
  | true, 0 => { r with cont0 := c r.cont0 }
  | true, _ => { r with cont1 := c r.cont1 }
  | false, 0 => { r with mc0 := m r.mc0 }
  | false, _ => { r with mc1 := m r.mc1 }

/-- ROUTE_WRITE (R331, R535). `rsv` holds the reserved argument bytes. -/
def execRouteWrite (src : Src) (version table first count rsv : Nat) (entries : List Byte) (s : State) : Out :=
  let cont := decide (table = 0)
  let size := if cont then 16 else 8
  let es := entriesOf size count entries
  .next (s.command src 0x0701 (s.isAdmin src) true
    [(!s.svc.hubIn, .range),
     (decide (1 < version ∨ 1 < table ∨ count = 0 ∨ (if cont then 255 else 511) < count ∨ entries.length ≠ size * count ∨ rsv ≠ 0), .badarg),
     (decide (s.rt.ver version = .current ∨ s.rt.ver version = .draining), .epoch),
     (decide (4096 < first + count), .range), (es.any (routeEntryBad cont), .badarg)]
    fun s => ({ s with rt := s.rt.write version first cont es }).reply src 0x0701 .ok [])

/-- ROUTE_COMMIT (R331): a T that has passed takes effect at once. -/
def execRouteCommit (src : Src) (version t : Nat) (s : State) : Out :=
  let cur := if s.rt.v0 = .current then 0 else if s.rt.v1 = .current then 1 else 0xFF
  .next (s.command src 0x0702 (s.isAdmin src) true
    [(!s.svc.hubIn, .range), (decide (1 < version), .badarg),
     (decide (s.rt.ver version = .empty ∨ s.rt.ver version = .current ∨ s.rt.ver (1 - version) = .draining), .epoch),
     (s.rt.pending.isSome, .seq)]
    fun s =>
      let rt := if t ≤ s.now then s.rt.commit version t
        else { s.rt with pending := some (version, t), lastVersion := version, commitTime := t }
      ({ s with rt := rt }).reply src 0x0702 .ok (leBytes 1 cur))

/-- ROUTE_STATUS (R338): RT_STATUS, RT_COMMIT_TIME and the counters, 448 bytes. -/
def execRouteStatus (src : Src) (s : State) : Out :=
  .next (s.command src 0x0703 (s.isAdmin src) true [(!s.svc.hubIn, .range)]
    fun s => s.reply src 0x0703 .ok (leBytes 8 s.rt.status ++ leBytes 8 s.rt.commitTime ++
      (List.range 108).flatMap fun i => leBytes 4 (Tab.get 0 s.rt.counters i)))

/-- The last selector of a route before End, if it names outputs only (R326). -/
def routeEnd (route : Nat) : Option Nat :=
  (((List.range 16).map fun h => bits route (6 * h + 5) (6 * h)).takeWhile fun x => decide (x ≠ 63)).getLast?

/-- WINDOW_SET (R185, R338): refused while a launch of the context runs and the window is set. -/
def execWindowSet (src : Src) (ctx window rctx route base len : Nat) (s : State) : Out :=
  let end_ := routeEnd route
  .next (s.command src 0x0706 (s.owns src ctx) (decide (src.context = ctx))
    [(s.noCtx ctx || decide (255 < window ∨ 4095 < rctx ∨ 2 ^ 48 < base + len), .range),
     ((s.cx ctx).st.live && decide ((Tab.get {} (s.cxx ctx).windows window).len ≠ 0), .busy),
     (!(match end_ with
        | some e => decide (36 ≤ e ∧ e < 52)
        | none => false), .badarg)]
    fun s => (s.modCxx ctx fun c => { c with windows := Tab.set {} c.windows window { ctx := rctx, route := route, base := base, len := len } }
      ).reply src 0x0706 .ok [])

/-- Discard what a queue holds of an epoch; a packet begun on a link ends there with the poison marker. -/
def State.flushQueue (s : State) (e q : Nat) : State :=
  let u := s.hub.queue q
  let mine (x : QEntry) : Bool := (Tab.get {} s.hub.pkts x.desc).pkt.hdr.epoch == e
  let gone := u.entries.filter mine
  let cells := gone.foldl (fun a x => a + (Tab.get {} s.hub.pkts x.desc).cells.length) 0
  let s := { s with hub := s.hub.setQueue q { u with entries := u.entries.filter fun x => !mine x, len := u.len - cells, pkts := u.pkts - gone.length } }
  gone.foldl (fun s x =>
    let k := Tab.get {} s.hub.pkts x.desc
    let o := q / 6
    let s := if 0 < x.sent ∧ o < 36 then
        let t : TxSlot := { slot := .cell k.pkt.hdr.net k.pkt.hdr.cls false true true [] }
        s.modLx o fun y => if k.pkt.hdr.cls = 0 then { y with txSched := y.txSched ++ [t] } else { y with txUns := y.txUns ++ [t] }
      else s
    s.releaseOx x.desc) s

/-- EPOCH_FLUSH (R338): every packet of the epoch held in the hub, counted in HUB_DROPS. -/
def State.epochFlush (s : State) (e : Nat) : State × Nat :=
  let held := (s.hub.pkts.filter fun k => k.2.pkt.hdr.epoch == e &&
    s.hub.queues.any fun q => q.2.entries.any fun x => x.desc == k.1).length
  let wait := s.xp.shapers.foldl (fun a x => a + (x.2.waiting.filter fun k => k.hdr.epoch == e).length) 0
  let s := (s.hub.queues.map (·.1)).foldl (fun s q => s.flushQueue e q) s
  let s := { s with hub := { s.hub with drops := s.hub.drops + held + wait },
                    xp := { s.xp with shapers := Tab.remap {} (fun _ x => { x with waiting := x.waiting.filter fun k => k.hdr.epoch != e }) s.xp.shapers } }
  (s, held + wait)

def execEpochFlush (src : Src) (epoch : Nat) (s : State) : Out :=
  .next (s.command src 0x0707 (s.isAdmin src) true
    [(!s.svc.hubIn, .range), (decide (1 < epoch), .badarg), (decide (s.rt.ver epoch = .current), .epoch)]
    fun s => let r := s.epochFlush epoch
             r.1.reply src 0x0707 .ok (leBytes 4 r.2))

end Sys2Proof.Machine
end

