-- ==== Sys2Proof/Machine/Sched.lean ====
section
/-! DEFINITION. Schedules, slots, periods, wake points and the end of a period on the group (R28 to R30, R240, R278, R348 to R372,
R498). -/

namespace Sys2Proof.Machine

/-- The slot entry of a context by slot number, with its index (R354). -/
def Slots.find (u : Slots) (x n : Nat) : Option (Nat × SlotE) := List.find? (fun e => e.2.kind != 0 && e.2.ctx == x && e.2.slot == n) u.entries

/-- Change slot entry e of die d. -/
def State.modSlot (s : State) (d e : Nat) (f : SlotE → SlotE) : State :=
  s.modCd d fun c => { c with slots := { c.slots with entries := Tab.modify {} c.slots.entries e f } }

/-- The sum of LENGTH(q mod NPER) over q < n (R351). -/
def Sched.sumTo (k : Sched) (n : Nat) : Nat :=
  let l := k.periods.map (·.length)
  n / max 1 l.length * l.sum + (l.take (n % max 1 l.length)).sum

/-- The descriptor of period p. -/
def Sched.desc (k : Sched) (p : Nat) : PeriodD := k.periods.getD (p % max 1 k.periods.length) {}

/-- The schedule of a launch record. -/
def State.schedOf (s : State) (r : Nat) : Sched := Tab.get {} s.sq.scheds (s.lrec r).ctx

/-- N(p) of a launch (R351). -/
def State.nominal (s : State) (r p : Nat) : Nat :=
  let k := s.lrec r
  k.t0 + (s.schedOf r).sumTo p - (s.schedOf r).sumTo k.p0

/-- The tiles of a context's loaded program, by die and physical tile. -/
def State.ctxTiles (s : State) (x : Nat) : List (Nat × Nat) :=
  (s.allTiles.filter fun t => decide (t.2.2.mem.ctx = some x)).map fun t => (t.1, t.2.1)

/-- Whether a record's launch is RUNNING or STOPPING. -/
def RecSt.runs : RecSt → Bool
  | .running | .stopping => true
  | _ => false

/-- Whether a fault of a record's launch is taken now: the launch runs, or ended in this same ns (R359). -/
def State.recHears (s : State) (r : Nat) : Bool :=
  let k := s.lrec r
  k.st.runs || (decide (k.st = .aborted) && decide (k.abortTime = s.now))

/-- Add the reservations of a launch to the hub's queues (R240). -/
def Hub.reserve (h : Hub) (l : List Rsv) : Hub :=
  l.foldl (fun h e => let q := queueNo e.out e.net 0
                      h.setQueue q { h.queue q with rsv := (h.queue q).rsv + e.cells }) h

/-- Give reservations back. -/
def Hub.unreserve (h : Hub) (l : List Rsv) : Hub :=
  l.foldl (fun h e => let q := queueNo e.out e.net 0
                      h.setQueue q { h.queue q with rsv := (h.queue q).rsv - e.cells }) h

/-- Release what a launch holds of the hub and the region (R240, R278). -/
def State.schedRelease (s : State) (r : Nat) : State :=
  let x := s.recX r
  let s := { s with hub := if x.taken then s.hub.unreserve x.rsvs else s.hub, ox := { s.ox with reserved := s.ox.reserved - x.lines } }
  s.modRecX r fun x => { x with taken := false, lines := 0 }

/-- The last period ends (R352, R366, R409): the launch ends cleanly and releases what it holds. -/
def State.launchDone (s : State) (r : Nat) : State :=
  let k := s.lrec r
  let s := (s.modRec r fun k => { k with st := .ended }).schedRelease r
  let s := s.modCxx k.ctx fun c => { c with lastPeriod := some k.period }
  (s.setCtx k.ctx .done).launchEnd k.ctx

/-- A(q) of a period that has started, while anything is still timed from it (R351). -/
def State.startOf (s : State) (r q : Nat) : Option Nat :=
  if q = (s.lrec r).period then some (s.recX r).actual
  else (List.find? (fun e => e.1 == q) (s.recX r).starts).map (·.2)

/-- Whether anything timed from A(q) is still to come (R358, R360, R362): a slot that expects period q, a wake point, a fetch. -/
def State.startNeeded (s : State) (r q : Nat) : Bool :=
  let x := (s.lrec r).ctx
  let k := s.schedOf r
  let done := s.recX r
  s.cds.any (fun c => c.2.slots.entries.any fun e => e.2.kind != 0 && e.2.ctx == x && e.2.next == q) ||
    k.wakes.zipIdx.any (fun w => decide (q % max 1 k.periods.length = w.1.desc) && !done.points.contains (q, w.2)) ||
    k.colls.zipIdx.any (fun c => decide (c.1.period = q) && !done.fetched.contains c.2)

/-- A period starts at `a` (R351, R362, R368): its measures, the tiles it waits for, the log of timing variations. `mask` is the cause
mask of R368. With no tile of the launch here it finishes as it starts. -/
def State.startPeriod (s : State) (r p n a mask : Nat) : State :=
  let k := s.lrec r
  let x := s.recX r
  let lam := a - n
  let late := decide (0 < lam)
  let first := late && decide (x.lateRun = 0)
  let starts : List (Nat × Nat) := if p = k.p0 then [] else (x.starts ++ [(k.period, x.actual)]).filter fun e => s.startNeeded r e.1
  let s := s.modRec r fun k => { k with
    period := p, nominal := n, lambda := lam, peak := max k.peak lam, lates := k.lates + b2n late, lateNow := late,
    slack := ((s.schedOf r).desc p).slack }
  let s := { s with sq := { s.sq with late := s.sq.late + b2n late } }
  let peak := max x.latePeak lam
  let s := if first then s.raise 23 0x03 1 .ok ([0, BitVec.ofNat 8 mask, 0, 0] ++ leBytes 4 lam ++ leBytes 8 p) k.ctx
    else if !late && decide (0 < x.lateRun) then
      s.raise 23 0x03 1 .ok ([1, BitVec.ofNat 8 mask, 0, 0] ++ leBytes 4 x.latePeak ++ leBytes 8 p ++ leBytes 4 x.lateRun) k.ctx
    else s
  let s := s.modRecX r fun x => { x with
    actual := a, finish := a, waiting := s.ctxTiles k.ctx, starts := starts,
    points := x.points.filter fun e => starts.any fun q => q.1 == e.1, fetched := if p = k.p0 then [] else x.fetched,
    lateRun := if late then x.lateRun + 1 else 0, latePeak := if late then peak else 0, inserted := x.inserted && late }
  if s.ctxTiles k.ctx = [] ∧ k.last ≤ p then s.launchDone r else s

/-- A PSYNC write takes effect (R351, R352): the tile has finished the period; after the last period the launch ends. -/
def State.psyncDone (s : State) (r d p : Nat) : State :=
  let s := s.modRecX r fun x => { x with finish := s.now, waiting := x.waiting.filter fun e => e ≠ (d, p) }
  if (s.recX r).waiting = [] ∧ (s.lrec r).last ≤ (s.lrec r).period then s.launchDone r else s

/-- PSYNC_WRITE (R352, R498): a CSRRW or CSRRWI of `value`. On a hot die the tile is gated for I ns before the write takes effect. -/
def execPsyncWrite (d : CdId) (p : PTile) (rd : Fin 32) (value : Word) (s : State) : Out :=
  s.muleStep d p none fun t =>
    match (if (s.cx t.cx).scheduled then s.liveRec? t.cx else none) with
    | none => s.muleFault d p .badcmd 0
    | some r =>
      let per := (s.lrec r).period % 2 ^ 16
      if value.toNat ≠ per then s.muleFault d p .seq 0
      else
        let s := s.retire d p rd (BitVec.ofNat 64 per) (t.mule.pc + 4) 1
        let l := (s.cd d).level
        let gate := l * ((s.schedOf r).desc (s.lrec r).period).length / 20
        let s := s.modTile d p fun t =>
          { t with mule := { t.mule with st := .wait },
                   mem := { t.mem with wait := if 0 < gate then .insertion gate else .psync, waitFrom := s.aonNs } }
        if 0 < gate then
          let s := s.modCd d fun c => { c with episode := c.episode.map fun e => (e.1, e.2 + gate) }
          ({ s with pwr := { s.pwr with inserted := s.pwr.inserted + gate } }).modRecX r fun x => { x with inserted := true }
        else s.psyncDone r d p

/-- The idle inserted after a PSYNC write ends (R498). -/
def execPsyncInsertionEnd (d : CdId) (p : PTile) (s : State) : Out :=
  let t := s.tile d p
  match t.mem.wait, s.liveRec? t.cx with
  | .insertion n, some r =>
    if (t.mule.st = .wait ∨ t.mule.st = .haltBreak) ∧ t.mem.waitFrom + n ≤ s.aonNs then
      .next ((s.modMem d p fun m => { m with wait := .psync }).psyncDone r d p)
    else .next s
  | _, _ => .next s

/-- PERIOD_START (R351, R352, R359): period p + 1 starts at max(N(p + 1), F(p)), no later than N + LAG_BOUND; Mules waiting after PSYNC go
on. `refresh` and `replay` say whether those events delayed the launch since the last period that started on time (R368). -/
def execPeriodStart (r : Fin 16) (refresh replay : Bool) (s : State) : Out :=
  let k := s.lrec r
  let x := s.recX r
  let n := s.nominal r (k.period + 1)
  let a := max n x.finish
  if !k.st.runs ∨ x.waiting ≠ [] ∨ k.last ≤ k.period ∨ s.now < a ∨ n + k.lag < a then .next s
  else
    let mask := b2n refresh + 2 * b2n replay + 4 * b2n x.inserted
    let s := if (s.cx k.ctx).goodput then s.modProg k.ctx fun p => p.toUseful s.now else s
    let s := s.startPeriod r (k.period + 1) n a mask
    .next (s.remapTiles fun _ _ t =>
      if t.mem.ctx = some k.ctx ∧ t.mem.wait = .psync then
        { t with mule := { t.mule with st := if t.mule.st = .wait then .run else t.mule.st }, mem := { t.mem with wait := .none } }
      else t)

/-- PERIOD_LAG_TIMEOUT (R353): N(p) + LAG_BOUND + 1 is reached before period p has started. -/
def execPeriodLagTimeout (r : Fin 16) (s : State) : Out :=
  let k := s.lrec r
  let x := s.recX r
  let edge := s.nominal r (k.period + 1) + k.lag
  if !s.recHears r ∨ k.last ≤ k.period ∨ s.now ≤ edge ∨ (x.waiting = [] ∧ x.finish ≤ edge) then .next s
  else .next (s.endPeriod r .schedLate 23 0x03 0xFFFF ((s.now : Int) - edge))

/-- The slot entry SLOT.ARM names (R357). -/
def State.armed? (s : State) (k : Issue) : Option (Nat × SlotE) := (s.cd k.d).slots.find k.ctx (fld k.desc 8 2 % 4096)

/-- The refusals of SLOT.ARM in the orders of R87 (R357). -/
def armChecks (s : State) (k : Issue) : UnitChecks :=
  let e := s.armed? k
  { arg := [(decide (fld k.desc 4 2 ≠ 4) || decide (4096 ≤ fld k.desc 8 2) || !zeroAt k.desc 10 54, .badarg)],
    range := [(match e with
      | some e => decide (e.2.tile ≠ k.i)
      | none => true, .range)],
    seq := [(match e with
      | some e => e.2.armed
      | none => false, .seq)],
    early := [(match e, s.liveRec? k.ctx with
      | some e, some r => decide ((s.lrec r).period < e.2.next)
      | _, _ => false, .schedEarly)] }

/-- SLOT.ARM (R357): arms the slot's expected instance; it completes at once. -/
def execSlotArm (d : CdId) (p : PTile) (rd rs1 rs2 : Fin 32) (s : State) : Out :=
  s.issue d p 0x30 0 rd rs1 rs2 false false armChecks
    (fun s k =>
      match s.armed? k with
      | some e => s.modSlot k.d e.1 fun x => { x with armed := true }
      | none => s)

/-- The launch whose schedule has a GROUP_CTX and that takes slot data now (R356, row 2). -/
def State.groupRec (s : State) (g : Nat) : Option Nat :=
  (List.find? (fun e => s.recHears e.1 && (Tab.get {} s.sq.scheds e.2.ctx).groupCtx == g) s.sq.recs).map (·.1)

/-- The fault of rows 4 to 8 of R356, with the ns by which an edge was missed. -/
def State.slotFault (s : State) (r : Nat) (e : SlotE) (period arrival off n : Nat) : Option (Err × Int) :=
  let d := (period + 65536 - e.next % 65536) % 65536
  let base := s.nominal r e.next
  let lo := base + e.wOpen
  let hi := base + e.wClose + (s.lrec r).lag
  if 1 ≤ d ∧ d < 32768 then some (.schedEarly, 0)
  else if 32768 ≤ d then some (.schedLate, 0)
  else if arrival < lo then some (.schedEarly, (arrival : Int) - lo)
  else if hi < arrival then some (.schedLate, (arrival : Int) - hi)
  else if e.length < off + n ∨ off < e.received then some (.seq, 0)
  else none

/-- A packet discarded under R356 (R372). -/
def State.slotDiscard (s : State) (d : Nat) : State :=
  s.modCd d fun c => { c with slots := { c.slots with discards := sat 32 (c.slots.discards + 1) } }

/-- Write slot data into its buffer (R354, R356 row 10): the operand store of TILE or a va. -/
def State.slotWrite (s : State) (d x : Nat) (e : SlotE) (off : Nat) (data : List Byte) : State × HenEnd :=
  if e.os then
    (s.modTile d ((s.cd d).map.phys e.tile) fun t => { t with os := Mem.writeN t.os (e.base + off) data }, .more)
  else s.vaWrite d (s.collSlot d x) x (e.base + off) data

/-- SLOT_DATA (R355, R356): a packet for compute die d whose header entered the hub at `arrival`; a poisoned one is discarded (R532). -/
def execSlotData (d : CdId) (k : Packet) (arrival : Nat) (s : State) : Out :=
  if k.hdr.kind ≠ 0x10 ∨ s.dieIn d = false ∨ k.poison = true then .next s
  else if crc32 k.payload ≠ k.crc then .next ((s.slotDiscard d).raise d 0x28 3 .checksum [] k.hdr.ctx)
  else match s.groupRec k.hdr.ctx with
    | none => .next (s.slotDiscard d)
    | some r =>
      let x := (s.lrec r).ctx
      let no := fld k.payload 0 2 % 4096
      let off := fld k.payload 4 4
      let data := k.payload.drop 16
      match ((s.cd d).slots.find x no).filter fun e => e.2.kind == 1 with
      | none => .next (s.endPeriod r .range d 0x28 no)
      | some (i, e) =>
        match s.slotFault r e k.hdr.period arrival off data.length with
        | some (c, m) => .next (s.endPeriod r c d 0x28 no m)
        | none =>
          if !(s.lrec r).st.runs then .next (s.slotDiscard d)
          else if e.received < off then .next ((s.modSlot d i fun v => { v with gap := true }).slotDiscard d)
          else
            let w := s.slotWrite d x e off data
            match w.2.collErr with
            | some c => .next (w.1.endPeriod r c d 0x28 no)
            | none =>
              let full := decide (e.received + data.length = e.length) && !e.gap
              let s := w.1.modSlot d i fun v => { v with
                received := v.received + data.length, filled := v.filled || full, filledAt := if full then s.now else v.filledAt }
              .next (s.modCd d fun c => { c with slots := { c.slots with arrivals := c.slots.arrivals + 1 } })

/-- The Mule of logical tile i of die d halts with SOURCE 3 (R358); the period's end halts the others. -/
def State.slotHalt (s : State) (d i : Nat) (c : Err) : State :=
  s.modMule d ((s.cd d).map.phys i) fun m => if m.st.active then m.halt c 3 0x1F 0 0 else m

/-- SLOT_CONSUME (R358): entry e of die d at A(NEXT) + CONSUME. -/
def execSlotConsume (d : CdId) (e : Fin 4096) (s : State) : Out :=
  let v : SlotE := Tab.get {} (s.cd d).slots.entries e.val
  match (List.find? (fun r => r.2.ctx == v.ctx && s.recHears r.1) s.sq.recs).map (·.1) with
  | none => .next s
  | some r =>
    if v.kind = 0 ∨ !(s.startOf r v.next).any (fun a => decide (a + v.consume ≤ s.now)) then .next s
    else if v.armed && v.filled then
      if !(s.lrec r).st.runs then .next s
      else
        let s := s.modSlot d e fun v => { v with armed := false, filled := false, gap := false, received := 0, next := v.next + v.step }
        .next (s.modCd d fun c => { c with slots := { c.slots with consumed := c.slots.consumed + 1 } })
    else
      let c : Err := if v.armed then .schedUnderrun else .schedLate
      .next ((s.slotHalt d v.tile c).endPeriod r c d 0x28 v.slot)

/-- SCHED_COLL_FETCH_START (R360): entry i of the schedule's collectives at A(period) + OFFSET. -/
def execSchedCollFetchStart (r : Fin 16) (i : Nat) (s : State) : Out :=
  let k := s.lrec r
  let x := s.recX r
  match (s.schedOf r).colls[i]? with
  | none => .next s
  | some c =>
    if !k.st.runs ∨ !(s.startOf r c.period).any (fun a => decide (a + c.offset ≤ s.now)) ∨ x.fetched.contains i = true then .next s
    else
      let s := s.modRecX r fun x => { x with fetched := i :: x.fetched }
      match (s.collHeld c.collId).filter fun b => decide ((s.bind b).ctx = k.ctx) && decide ((s.bind b).st = .open) with
      | none => .next (s.endPeriod r .schedLate 16 0x04)
      | some b =>
        let s := s.modBind b fun v => { v with st := .running, tRun := s.now }
        .next ((s.modBindX b fun v => { v with fetch := { v.fetch with active := !v.fetch.done } }).collProgress b)

/-- The unit a wake point names (R348); none where the logical tile is absent. -/
def State.wakeUnit (s : State) (kind no : Nat) : Option SleepUnit :=
  match kind with
  | 0 => let p := (s.cd (no / 4)).map.phys (no % 4)
         if h : no / 4 < 16 ∧ p < 5 then some (.tile ⟨no / 4, h.1⟩ ⟨p, h.2⟩) else none
  | 1 => if h : no < 16 then some (.hen ⟨no, h⟩) else none
  | 2 => if h : no < 16 then some (.ox ⟨no, h⟩) else none
  | _ => if h : no < 36 then some (.link ⟨no, h⟩) else none

/-- Whether a unit has work outstanding (R28, R362, R491). -/
def State.unitWorks (s : State) (u : SleepUnit) : Bool :=
  match u with
  | .tile d p =>
    let t := s.tile d p
    let waits := decide (t.mule.st = .wait) && decide (t.mem.wait ≠ .psync)
    decide (t.mule.st = .run) || decide (t.mule.st = .pad) || waits || decide (t.arr.passes ≠ []) || t.ee.run.isSome
  | .hen d => (s.cd d).hen.jobs.any (fun j => decide (j.2.st = 1)) || (s.cd d).hen.threads.any fun t => decide (t.2.reqs ≠ [])
  | .ox g => s.ox.binds.any fun b =>
      decide (b.2.st = .running) && (oxGroups (s.oxProg b.1).groups).contains g.val &&
        (s.bindX b.1).run.blocks.any fun k => decide (k.2.held ≠ []) || k.2.firing.isSome
  | .link l =>
    let x := s.lx l
    decide (x.cur ≠ []) || decide (x.txSched ≠ []) || decide (x.txUns ≠ []) || decide (x.replay ≠ []) || decide (x.resend ≠ [])

/-- Whether a unit's kind has a sleep state (R27). -/
def sleepSupports (u : SleepUnit) (st : Sleep) : Bool :=
  match u, st with
  | .ox _, .retained => false
  | .link _, .retained => false
  | _, _ => true

/-- A unit begins to wake (R27, R29): it runs once its latency has passed. -/
def SleepU.wake (u : SleepU) : SleepU := if u.st = .running then u else { u with waking := true }

/-- A wake point acts on its unit (R362): a sleep point whose unit is busy, or has no such state, is skipped and counted (log entry
28). -/
def State.wakeAct (s : State) (r : Nat) (w : WakeP) : State :=
  match s.wakeUnit w.kind w.unit with
  | none => s
  | some u =>
    if w.action = 0 then s.modSleep u fun v => { v.wake with holdUntil := s.now + w.hold }
    else
      let st : Sleep := if w.action = 1 then .pllOff else .retained
      if s.unitWorks u || !sleepSupports u st then s.modRec r fun k => { k with skipped := sat 32 (k.skipped + 1) }
      else s.modSleep u fun v => { v with st := st, waking := false }

/-- The earliest period in which point i of the schedule has not acted and is due (R362). -/
def State.pointDue (s : State) (r i : Nat) (w : WakeP) : Option Nat :=
  let k := s.lrec r
  let x := s.recX r
  (List.find? (fun e => decide (e.1 % max 1 (s.schedOf r).periods.length = w.desc) && !x.points.contains (e.1, i) &&
    decide (e.2 + w.offset ≤ s.now)) (x.starts ++ [(k.period, x.actual)])).map (·.1)

/-- WAKE_POINT (R362): point i of the schedule at A(p) + OFFSET of every period of its descriptor. -/
def execWakePoint (r : Fin 16) (i : Nat) (s : State) : Out :=
  match (s.schedOf r).wakes[i]? with
  | none => .next s
  | some w =>
    match (if (s.lrec r).st.runs then s.pointDue r i w else none) with
    | none => .next s
    | some q => .next ((s.modRecX r fun x => { x with points := (q, i) :: x.points }).wakeAct r w)

/-- LAUNCH_PREWAKE (R350): at T0 - 64,000 ns the units of every WAKE point of P0's descriptor. -/
def execLaunchPrewake (r : Fin 16) (s : State) : Out :=
  let k := s.lrec r
  let q := s.schedOf r
  if k.st ≠ .armed ∨ s.now + 64000 < k.t0 ∨ (s.recX r).prewoken = true then .next s
  else
    let s := s.modRecX r fun x => { x with prewoken := true }
    .next ((q.wakes.filter fun w => w.action == 0 && w.desc == k.p0 % max 1 q.periods.length).foldl (fun s w =>
      match s.wakeUnit w.kind w.unit with
      | some u => s.modSleep u SleepU.wake
      | none => s) s)

/-- UNIT_WAKE (R27, R29): a unit that sleeps runs once its wake latency has passed. In PARKED the units stay as R494 has them. -/
def execUnitWake (u : SleepUnit) (s : State) : Out :=
  if s.pwr.st = .run then .next (s.modSleep u fun v => { v with st := .running, waking := false }) else .next s

/-- UNIT_IDLE_TIMER_EXPIRY (R28 to R30): a unit idle for IDLE_TIMER becomes clock-gated, unless work arrived or a wake point holds its
timer. -/
def execUnitIdleTimerExpiry (u : SleepUnit) (s : State) : Out :=
  let v := s.sleepOf u
  if v.st ≠ .running ∨ v.waking = true ∨ s.now < v.holdUntil ∨ s.unitWorks u = true then .next s
  else .next (s.modSleep u fun v => { v with st := .gated })

/-- A SCHED_ABORT falls due (R364, R365): to ABORT_GROUP, class MGMT, network REP, through the host die's port. -/
def execSchedAbortSend (r : Fin 16) (s : State) : Out :=
  let k := s.lrec r
  let q := s.schedOf r
  if !(s.recX r).abortDue then .next s
  else
    let s := s.modRecX r fun x => { x with abortDue := false }
    let payload := leBytes 8 k.schedId ++ leBytes 8 k.t0 ++ leBytes 8 k.abortPeriod ++ leBytes 4 k.node ++ leBytes 2 k.code.code ++
      [BitVec.ofNat 8 k.die, BitVec.ofNat 8 k.unit]
    let h : Hdr := { net := 1, cls := 2, mc := true, route := 2 ^ 96 - 1, ctx := q.groupCtx, kind := 0x46,
                     period := k.abortPeriod % 65536, group := q.abortGroup }
    .next (if s.hub.up then s.enterHub 52 (s.packet h payload) 0 else s)

/-- SCHED_ABORT_PACKET (R365): matched by GROUP_CTX, SCHED_ID and T0. -/
def execSchedAbortPacket (k : Packet) (s : State) : Out :=
  if k.hdr.kind ≠ 0x46 ∨ s.svc.hdIn = false ∨ k.poison = true then .next s
  else if crc32 k.payload ≠ k.crc then .next (s.raise 23 0x03 3 .checksum [] k.hdr.ctx)
  else
    let id := fld k.payload 0 8
    let t0 := fld k.payload 8 8
    match List.find? (fun e => decide (e.2.st ≠ .free) && (Tab.get {} s.sq.scheds e.2.ctx).groupCtx == k.hdr.ctx && e.2.schedId == id &&
        e.2.t0 == t0) s.sq.recs with
    | none => .next s
    | some (r, v) =>
      if v.st.live then
        .next (s.endPeriod r (Err.ofCode (fld k.payload 28 2)) (fld k.payload 30 1) (fld k.payload 31 1) (node := some (fld k.payload 24 4))
          (sev := 2))
      else if v.st = .aborted then .next { s with sq := { s.sq with dups := sat 32 (s.sq.dups + 1) } }
      else .next s

/-- Whether a long-running instruction of a context still runs on this device (R76, R364). -/
def State.lrRuns (s : State) (x : Nat) : Bool :=
  s.allTiles.any (fun t => decide (t.2.2.mem.ctx = some x) && (decide (t.2.2.arr.passes ≠ []) || t.2.2.ee.run.isSome)) ||
  s.cds.any fun c => c.2.hen.jobs.any (fun j => decide (j.2.ctx = x ∧ j.2.st = 1)) ||
    c.2.dma.engines.any fun e => decide (e.2.cur.ctx = x ∧ (e.2.st = 1 ∨ e.2.st = 2))

/-- LAUNCH_RESOURCES_RELEASE (R278, R364): after an abort, once every long-running instruction of the launch has completed. -/
def execLaunchResourcesRelease (r : Fin 16) (s : State) : Out :=
  let k := s.lrec r
  if k.st = .aborted ∧ s.lrRuns k.ctx = false then .next (s.schedRelease r) else .next s

/-- The sections of a schedule image (R348). -/
structure SImage where
  bytes : List Byte
  deriving DecidableEq, Repr

def SImage.nper (i : SImage) : Nat := fld i.bytes 0x18 4
def SImage.nslot (i : SImage) : Nat := fld i.bytes 0x28 4
def SImage.nwake (i : SImage) : Nat := fld i.bytes 0x2C 4
def SImage.ncoll (i : SImage) : Nat := fld i.bytes 0x30 4
def SImage.nrsv (i : SImage) : Nat := fld i.bytes 0x34 4
def SImage.atSlot (i : SImage) : Nat := 0x60 + 8 * i.nper
def SImage.atWake (i : SImage) : Nat := i.atSlot + 40 * i.nslot
def SImage.atColl (i : SImage) : Nat := i.atWake + 12 * i.nwake
def SImage.atRsv (i : SImage) : Nat := i.atColl + 32 * i.ncoll
def SImage.end_ (i : SImage) : Nat := i.atRsv + 8 * i.nrsv

/-- The entries of a section. -/
def SImage.sect (i : SImage) (at_ size n : Nat) : List (List Byte) := entriesOf size n (i.bytes.drop at_)

/-- A slot entry of the image and the die it names (log entry 29). -/
def slotOfImage (x : Nat) (e : List Byte) (no : Nat) : Nat × SlotE :=
  (fld e 3 1, { kind := fld e 0 1, tile := fld e 1 1, os := bit (fld e 2 1) 0, length := fld e 4 4, base := fld e 8 8, wOpen := fld e 16 4,
                wClose := fld e 20 4, consume := fld e 24 4, step := fld e 28 2, slot := no, ctx := x, first := fld e 32 8 })

/-- The slots of an image. -/
def SImage.slots (i : SImage) (x : Nat) : List (Nat × SlotE) := (i.sect i.atSlot 40 i.nslot).zipIdx.map fun e => slotOfImage x e.1 e.2

/-- The schedule an image holds. -/
def SImage.sched (i : SImage) : Sched :=
  { checked := bit (fld i.bytes 6 2) 0, id := fld i.bytes 8 8, pcount := fld i.bytes 0x10 8, lag := fld i.bytes 0x1C 4,
    abortGroup := fld i.bytes 0x20 2, groupCtx := fld i.bytes 0x22 2, groupSize := fld i.bytes 0x24 4,
    periods := (i.sect 0x60 8 i.nper).map fun e => { length := fld e 0 4, slack := fld e 4 4 },
    wakes := (i.sect i.atWake 12 i.nwake).map fun e =>
      { desc := fld e 0 2, kind := fld e 2 1 % 4, action := fld e 2 1 / 4, unit := fld e 3 1, offset := fld e 4 4, hold := fld e 8 4 },
    colls := (i.sect i.atColl 32 i.ncoll).map fun e =>
      { collId := fld e 0 4, offset := fld e 4 4, period := fld e 8 8, dhash := fld e 16 8, lines := fld e 24 4 },
    rsvs := (i.sect i.atRsv 8 i.nrsv).map fun e => { out := fld e 0 1, net := fld e 1 1, cells := fld e 4 4 } }

/-- Check 3 of R349 but for the SCHED_ID: values outside R348 and R354, reserved fields. -/
def SImage.bad (i : SImage) : Bool :=
  let b := i.bytes
  decide (fld b 0 4 ≠ 0x53434844 ∨ fld b 4 2 ≠ 1 ∨ 1 < fld b 6 2) || decide (fld b 0x10 8 = 0 ∨ 2 ^ 48 < fld b 0x10 8) ||
  decide (i.nper = 0 ∨ 65536 < i.nper) || decide (1000000 < fld b 0x1C 4) || decide (4095 < fld b 0x20 2 ∨ 4095 < fld b 0x22 2) ||
  decide (fld b 0x24 4 = 0 ∨ 65536 < fld b 0x24 4) || !zeroAt b 0x38 8 || decide (4096 < i.nslot) || decide (b.length < i.end_) ||
  (i.sect 0x60 8 i.nper).any (fun e => decide (fld e 0 4 = 0 ∨ fld e 0 4 < fld e 4 4)) ||
  (i.sect i.atSlot 40 i.nslot).any slotBad ||
  (i.sect i.atWake 12 i.nwake).any (fun e =>
    let k := fld e 2 1 % 4
    decide (i.nper ≤ fld e 0 2 ∨ 12 ≤ fld e 2 1) || decide ((if k = 0 then 63 else if k = 3 then 35 else 15) < fld e 3 1)) ||
  (i.sect i.atColl 32 i.ncoll).any (fun e => decide (fld e 0 4 = 0 ∨ fld e 0 4 = 0xFFFFFFFF) || !zeroAt e 28 4) ||
  (i.sect i.atRsv 8 i.nrsv).any (fun e => decide (53 < fld e 0 1 ∨ 1 < fld e 1 1) || !zeroAt e 2 2)
where
  slotBad (e : List Byte) : Bool :=
    let len := fld e 4 4
    let base := fld e 8 8
    let os := bit (fld e 2 1) 0
    decide (fld e 0 1 = 0 ∨ 2 < fld e 0 1 ∨ 3 < fld e 1 1 ∨ 1 < fld e 2 1 ∨ 15 < fld e 3 1) ||
    decide (fld e 28 2 = 0) || !zeroAt e 30 2 ||
    (if fld e 0 1 = 1 then
       decide (len < 4 ∨ 2 ^ 24 < len ∨ len % 4 ≠ 0) || decide (base % (if os then 128 else 64) ≠ 0) || (os && decide (2 ^ 24 < base + len))
     else decide (len = 0 ∨ len = 0xFFFFFFFF))

/-- Check 4 of R349 on a slot: the windows against every descriptor its instances use, and the owner die of its collective. -/
def State.slotWindowBad (s : State) (q : Sched) (x : Nat) (e : Nat × SlotE) : Bool :=
  let v := e.2
  let n := max 1 q.periods.length
  let count := if v.first < q.pcount then (q.pcount - 1 - v.first) / max 1 v.step + 1 else 0
  decide (v.wClose < v.wOpen ∨ v.consume < v.wClose + q.lag) ||
  (List.range (min n count)).any (fun i => decide ((q.desc (v.first + i * v.step)).length ≤ v.consume)) ||
  (decide (v.kind = 2) && s.ox.binds.any fun b =>
    decide (b.2.st ≠ .free ∧ b.2.ctx = x ∧ b.2.collId = v.length ∧ b.2.owner ≠ e.1))

/-- Entries of die d in use by contexts other than x. -/
def State.slotsOther (s : State) (d x : Nat) : Nat := ((s.cd d).slots.entries.filter fun e => e.2.kind != 0 && e.2.ctx != x).length

/-- The lowest die of a mask (R414). -/
def lowestDie (mask : Nat) : Nat := ((List.range 16).filter fun d => bit mask d).headD 0

/-- Read an image through a context's slot on a die, without parking (R369, R414): its bytes, and E_PROT, E_PAGEFAULT or OK. -/
def State.readImage (s : State) (d x va len : Nat) : Err × List Byte :=
  let m := s.vaRead d (s.collSlot d x) va len
  match m.2.1.collErr with
  | some .prot => (.prot, [])
  | some _ => (.pagefault, [])
  | none => (.ok, m.2.2)

/-- A context's slot entries leave every die. -/
def State.slotsDrop (s : State) (x : Nat) : State :=
  { s with cds := Tab.remap {} (fun _ c => { c with slots := { c.slots with
      entries := c.slots.entries.filter fun e => e.2.ctx != x } }) s.cds }

/-- Put a slot at the lowest free entry of its die (R354). -/
def State.slotPut (s : State) (e : Nat × SlotE) : State :=
  let free := (List.range 4096).find? fun i => !Tab.has (s.cd e.1).slots.entries i
  s.modSlot e.1 (free.getD 0) fun _ => e.2

/-- Load a schedule that passed its checks (R348, R354). -/
def State.schedPut (s : State) (x : Nat) (i : SImage) : State :=
  let slots := i.slots x
  let s := slots.foldl (fun s e => s.slotPut e) (s.slotsDrop x)
  { s with sq := { s.sq with scheds := Tab.put s.sq.scheds x { i.sched with slots := slots.map fun e => (e.1, e.2.slot) } } }

/-- Whether a context has a launch ARMED, RUNNING or STOPPING. -/
def State.ctxLive (s : State) (x : Nat) : Bool := (s.cx x).st.live

/-- The refusals of SCHED_LOAD in order, for an image read with an error or its bytes (R349). -/
def State.schedChecks (s : State) (ctx : Nat) (e : Err) (i : SImage) : List (Bool × Err) :=
  let slots := i.slots ctx
  let idOk := (s.cxx ctx).prog.isSome && decide ((s.cx ctx).schedId = i.sched.id)
  [(s.ctxLive ctx, .busy), (decide (e ≠ Err.ok), e),
   (decide (i.bytes.length < 0x60 ∨ sha256 (i.bytes.drop 0x60) ≠ (i.bytes.drop 0x40).take 32), .checksum), (i.bad || !idOk, .badarg),
   (slots.any (s.slotWindowBad i.sched ctx), .badarg), (slots.any fun e => !s.dieIn e.1, .range),
   ((List.range 16).any fun d => decide (4096 < s.slotsOther d ctx + (slots.filter fun e => e.1 == d).length), .nomem),
   (s.sq.scheds.any fun e => decide (e.1 ≠ ctx ∧ e.2.groupCtx = i.sched.groupCtx), .busy)]

/-- SCHED_LOAD (R349, R369). -/
def execSchedLoad (src : Src) (ctx va len : Nat) (s : State) : Out :=
  let img := s.readImage (lowestDie (s.cx ctx).mask) ctx va len
  let i : SImage := { bytes := img.2 }
  .next (s.ownCommand src 0x0801 ctx (s.schedChecks ctx img.1 i)
    fun s => (s.schedPut ctx i).reply src 0x0801 .ok (leBytes 8 i.sched.id ++ leBytes 4 (i.slots ctx).length))

/-- Records of a context that hold nothing become FREE (log entry 30). -/
def State.recsFree (s : State) (x : Nat) : State :=
  let mine := (s.sq.recs.filter fun e => decide (e.2.ctx = x) && !e.2.st.live && !(s.recX e.1).taken && decide ((s.recX e.1).lines = 0)).map (·.1)
  { s with sq := { s.sq with recs := mine.foldl Tab.del s.sq.recs, recx := mine.foldl Tab.del s.sq.recx } }

/-- A context's schedule is unloaded. -/
def State.schedDrop (s : State) (x : Nat) : State :=
  let s := (s.slotsDrop x).recsFree x
  let s := if (s.cx x).st.live then s else s.modCx x fun c => { c with recIdx := 0xFF }
  { s with sq := { s.sq with scheds := Tab.del s.sq.scheds x } }

/-- SCHED_UNLOAD (R369). -/
def execSchedUnload (src : Src) (ctx : Nat) (s : State) : Out :=
  .next (s.ownCommand src 0x0802 ctx
    [(!Tab.has s.sq.scheds ctx, .range), (s.ctxLive ctx, .busy)]
    fun s => (s.schedDrop ctx).reply src 0x0802 .ok [])

/-- The record a SCHED_STATUS names: an index with bit 15 set, or a context's record (R369). -/
def State.statusRec (s : State) (key : Nat) : Option Nat :=
  if 2 ^ 15 ≤ key then (if key - 2 ^ 15 < 16 then some (key - 2 ^ 15) else none)
  else match s.liveRec? key with
    | some r => some r
    | none => (List.find? (fun e => decide (e.2.st ≠ .free) && decide (e.2.ctx = key)) s.sq.recs).map (·.1)

/-- SCHED_STATUS (R369). -/
def execSchedStatus (src : Src) (key : Nat) (s : State) : Out :=
  let mine := match s.statusRec key with
    | some r => decide ((s.lrec r).st = .free) || s.owns src (s.lrec r).ctx
    | none => if 2 ^ 15 ≤ key then true else s.owns src key
  .next (s.command src 0x0803 mine (decide (2 ^ 15 ≤ key ∨ src.context = key)) [(!s.svc.hdIn, .range), ((s.statusRec key).isNone, .range)]
    fun s => s.reply src 0x0803 .ok (s.lrec ((s.statusRec key).getD 0)).bytes)

/-- SCHED_STOP (R366, R369). -/
def execSchedStop (src : Src) (ctx last : Nat) (s : State) : Out :=
  let r := (s.liveRec? ctx).getD 16
  .next (s.ownCommand src 0x0804 ctx
    [(decide ((s.lrec r).st ≠ .running), .seq), (decide (last ≤ (s.lrec r).period ∨ (s.lrec r).last ≤ last), .range)]
    fun s => ((s.modRec r fun k => { k with last := last, st := .stopping }).setCtx ctx .stopping).reply src 0x0804 .ok (leBytes 8 last))

/-- SCHED_ABORT (R364, R369): the period ends with E_ABORTED. -/
def execSchedAbort (src : Src) (ctx : Nat) (s : State) : Out :=
  .next (s.ownCommand src 0x0805 ctx
    [((s.liveRec? ctx).isNone, .seq)]
    fun s => (s.endPeriod ((s.liveRec? ctx).getD 16) .aborted 23 0x03).reply src 0x0805 .ok [])

end Sys2Proof.Machine
end

