-- ==== Sys2Proof/Machine/Stops.lean ====
section
/-! DEFINITION. Stopping the units: pre-emption at their resume points, aborts, UNIT_DISABLE and UNIT_ENABLE (R94, R121, R123, R141,
R142, R195, R196, R214, R221, R415, R416). -/

namespace Sys2Proof.Machine

/-- Array cycles, 2.5 to the ns, from a start to now. -/
def cyclesSince (start now : Nat) : Nat := (now - start) * 5 / 2

/-- The first k of a pass not yet fed: those fed entered before now (R103, R118). -/
def Pass.fed (q : Pass) (now : Nat) : Nat :=
  let p := passD q.desc
  let c := cyclesSince q.startNs now
  let n := p.k - q.fromK
  if q.inputDone then p.k else q.fromK + ((List.range n).find? fun k => decide (c ≤ passInput p q.checked k)).getD n

/-- A pass completes with no miscompare: its plane FULL, its tag clear (R107). -/
def State.passFull (s : State) (d p : Nat) (q : Pass) : State :=
  let plane := (s.tile d p).passPlane s.free q (passD q.desc).k
  ((s.modArr d p fun a => a.setPlane q.plane { plane with st := .full }).drew).tagDone d q.ltile q.tag

/-- Pre-emption of a matrix array (R121): a pass past its input phase completes, the one being fed stops at a multiple of 16. -/
def State.stopArray (s : State) (d p : Nat) : State :=
  let passes := (s.tile d p).arr.passes
  passes.foldl (fun s q =>
    let n := (passD q.desc).k
    let k := min n (cdiv (q.fed s.aonNs) 16 * 16)
    if n ≤ k then s.passFull d p q
    else
      let plane := (s.tile d p).passPlane s.free q k
      (s.modArr d p fun a =>
        { (a.setPlane q.plane plane) with
          stopped := some { q with fromK := k, resumed := true }, resumeK := k, resumeValid := true, resumePlane := q.plane,
          resumeAborted := false }).drew) (s.modArr d p fun a => { a with passes := [] })

/-- The plane of an aborted pass once k slices are fed: the value of a group cut short is free (R123, log entry 35). -/
def Tile.cutPlane (t : Tile) (draw : Nat) (q : Pass) (k : Nat) : Plane :=
  let pl := t.passPlane draw q (max q.fromK (k / 16 * 16))
  if k % 16 = 0 then pl
  else { pl with cells := Tab.remap {} (fun i c => { c with val := BitVec.ofNat 32 (Config.undefBits draw i) }) pl.cells }

/-- UNIT_DISABLE in ABORT mode on a matrix array (R123): every pass in flight fails with E_ABORTED, its plane HELD. -/
def State.abortArray (s : State) (d p : Nat) : State :=
  let passes := (s.tile d p).arr.passes
  passes.foldl (fun s q =>
    let k := q.fed s.aonNs
    let plane := (s.tile d p).cutPlane s.free q k
    let s := (s.modArr d p fun a =>
      { (a.setPlane q.plane { plane with st := .held }) with
        resumeK := k, resumeValid := true, resumePlane := q.plane, resumeAborted := true }).drew
    s.unitFault d q.ltile .aborted 1 q.tag q.lrc) (s.modArr d p fun a => { a with passes := [] })

/-- The element engine stops at its next row or chunk boundary (R141): the row or chunk begun completes. -/
def State.stopEe (s : State) (d p : Nat) : State :=
  let t := s.tile d p
  match t.ee.run with
  | none => s
  | some q =>
    let s :=
      if q.kind = 0 then
        if q.row < q.rows then
          let r := t.eeRow q s.free
          ((s.modTile d p fun _ => r.1).orFlags d q.ltile r.2.1 r.2.2).drew
        else s
      else
        let n := (cxD q.desc).n
        let e1 := max q.row (min n (128 * (q.row / 128 + cyclesSince q.startNs s.aonNs + 1)))
        let r := t.cxRun q s.free e1
        (s.modTile d p fun _ => { r.1 with ee := { r.1.ee with run := some { q with row := e1, count := r.2 } } }).drew
    s.modEe d p fun u => { u with
      run := none, stopped := u.run, resumePos := (u.run.getD {}).row, resumeValid := true, resumeAborted := false, resumeKind := q.kind }

/-- UNIT_DISABLE in ABORT mode on an element engine (R142): a plane being read becomes HELD, the instruction fails. -/
def State.abortEe (s : State) (d p : Nat) : State :=
  match (s.tile d p).ee.run with
  | none => s
  | some q =>
    let s := (s.stopEe d p).modTile d p fun t =>
      { t with ee := { t.ee with stopped := none, resumeAborted := true },
               arr := match (if q.kind = 0 then (eeD q.desc).plane? else none) with
                 | some n => t.arr.setPlaneSt n .held
                 | none => t.arr }
    s.unitFault d q.ltile .aborted 2 q.tag q.lrc

/-- Requesters leave the fault queue (R213, R410): a record none waits on any more leaves it, and waiting records take the room. -/
def State.dropWaiters (s : State) (d : Nat) (gone : FaultRec → Requester → Bool) : State :=
  let keep (f : FaultRec) : List FaultRec :=
    match f.all.filter fun w => !gone f w with
    | [] => []
    | w :: ws => [{ f with who := w, waiters := ws }]
  let s := s.modCd d fun c =>
    { c with tr := Trans.headed { c.tr with faults := c.tr.faults.flatMap keep, overflow := c.tr.overflow.flatMap keep } }
  (List.range (s.cd d).tr.overflow.length).foldl (fun s _ => s.refillFaults d) s

/-- A DMA engine stops reading (R221): the writes up to the first missing line commit; where that is, is a free value (log entry 36).
The engine is then SAVED at its resume point, or FAILED when the copy met an error before. -/
def State.stopEng (s : State) (d e : Nat) : State :=
  let x := Tab.get {} (s.cd d).dma.engines e
  if x.st = 2 then s.modEng d e fun x => { x with st := 5 }
  else if x.st ≠ 1 then s
  else
    let k := dmaD x.cur.desc
    let limit := max x.resume (s.fresh.toNat % (k.bytes + 1))
    let c := s.copyRun d ((s.cd d).map.phys x.cur.ltile) x none [] (some limit)
    let s := (c.s.drew).modCd d fun y => { y with dma := { y.dma with bytes := y.dma.bytes + (c.at_ - x.resume) } }
    match c.stop with
    | .err code => s.dmaFail d e code c.at_
    | _ => s.modEng d e fun x => { x with st := 5, resume := c.at_ }

/-- UNIT_DISABLE in ABORT mode on a DMA engine (R221): the running copy fails with E_ABORTED, the queue is discarded. -/
def State.abortEng (s : State) (d e : Nat) : State :=
  let x := Tab.get {} (s.cd d).dma.engines e
  if x.st ≠ 1 ∧ x.st ≠ 2 then s
  else
    let s := (s.stopEng d e).dropWaiters d fun _ w => w.call.isNone && w.kind == 0 && w.no == e
    let s := (s.modEng d e fun x => { x with st := if x.st = 5 then 4 else x.st, code := if x.st = 5 then .aborted else x.code,
                                              queue := [], faultVa := 0 }).setLoadBusy d x.cur.ltile
    s.unitFault d x.cur.ltile .aborted 3 x.cur.tag x.cur.lrc

/-- UNIT_DISABLE in ABORT mode on the Hen (R196): every running job fails with E_ABORTED, at its COMMIT_LOW (log entry 37); the Hen is
quiescent once the requests in flight have ended. -/
def State.abortHen (s : State) (d : Nat) : State :=
  let s := (s.modCd d fun c => { c with hen := { c.hen with quiescing := true } }).dropWaiters d fun _ w =>
    w.call.isNone && w.kind == 1
  (s.cd d).hen.jobs.foldl (fun s j => if j.2.st = 1 then s.henFail d j.1 j.2.commitLow .aborted else s) s

/-- Instructions an abort of a unit ends. -/
def State.inFlight (s : State) (d kind index : Nat) : Nat :=
  let t := s.tile d index
  let e : DmaEng := Tab.get {} (s.cd d).dma.engines index
  let ee := if t.ee.run.isSome then 1 else 0
  match kind with
  | 0 => t.arr.passes.length
  | 1 => ee
  | 2 => ((s.cd d).hen.jobs.filter fun j => j.2.st = 1).length
  | 3 => if e.st = 1 ∨ e.st = 2 then 1 + e.queue.length else 0
  | _ => t.arr.passes.length + ee

/-- UNIT_DISABLE in ABORT mode stops the unit (R415). -/
def State.abortUnit (s : State) (d kind index : Nat) : State :=
  match kind with
  | 0 => s.abortArray d index
  | 1 => s.abortEe d index
  | 2 => s.abortHen d
  | 3 => s.abortEng d index
  | _ => ((s.muleFault d index .aborted 0).abortArray d index).abortEe d index

/-- Whether KIND and INDEX name a unit (R415). -/
def unitNamed (kind index : Nat) : Bool :=
  match kind with
  | 0 => decide (index < 5)
  | 1 => decide (index < 5)
  | 2 => decide (index = 0)
  | 3 => decide (index < 8)
  | 4 => decide (index < 5)
  | _ => false

/-- The checks of UNIT_DISABLE and UNIT_ENABLE on their arguments. -/
def State.unitChecks (s : State) (die kind index : Nat) : List (Bool × Err) :=
  [(!s.svc.hdIn || decide (16 ≤ die) || !s.dieIn die, .range), (decide (4 < kind), .badarg), (!unitNamed kind index, .range)]

/-- UNIT_DISABLE (R415, R416): the reply comes when the unit is quiescent; an ABORT goes before a DRAIN pending, which replies
E_ABORTED. -/
def execUnitDisable (src : Src) (die kind index mode : Nat) (s : State) : Out :=
  .next (s.command src 0x0B10 (s.isAdmin src) true (s.unitChecks die kind index ++ [(decide (1 < mode), .badarg)])
    fun s =>
      let was := s.unitState die kind index
      let q : PendDis := { src := src, die := die, kind := kind, index := index, prior := was,
                           aborted := if mode = 0 then 0 else s.inFlight die kind index }
      if was = 2 then s.reply src 0x0B10 .ok ([2] ++ leBytes 4 0)
      else
        let same := fun o : PendDis => o.die == die && o.kind == kind && o.index == index
        if mode = 0 then ({ s with dis := s.dis ++ [q] }.markUnit die kind index false true).settle
        else
          let old := s.dis.filter same
          let s := { s with dis := s.dis.filter fun o => !same o }
          let s := old.foldl (fun s o => s.reply o.src 0x0B10 .aborted []) s
          let s := (s.markUnit die kind index false true).abortUnit die kind index
          { s with dis := s.dis ++ [q] }.settle)

/-- What re-enabling a unit releases (R123, R142, R196, R221). -/
def State.enableUnit (s : State) (d kind index : Nat) : State :=
  let arr (s : State) : State := s.modArr d index fun a =>
    { a with disabled := false, draining := false, plane0 := {}, plane1 := {}, resumeK := 0, resumeValid := false, resumePlane := 0,
             resumeAborted := false, stopped := none }
  let ee (s : State) : State := s.modEe d index fun e =>
    { e with disabled := false, draining := false, resumePos := 0, resumeValid := false, resumeAborted := false, resumeKind := 0,
             stopped := none }
  match kind with
  | 0 => arr s
  | 1 => ee s
  | 2 => s.modCd d fun c => { c with hen := { c.hen with
      disabled := false, draining := false, quiescing := false,
      jobs := c.hen.jobs.filter fun j => j.2.st = 1,
      threads := c.hen.threads.filter fun t => decide (t.2.st ≠ 3) } }
  | 3 => s.modEng d index fun _ => {}
  | _ => (ee (arr s)).modTile d index fun t => { t with disabled := false, draining := false }

/-- UNIT_ENABLE (R416). -/
def execUnitEnable (src : Src) (die kind index : Nat) (s : State) : Out :=
  .next (s.command src 0x0B11 (s.isAdmin src) true
    (s.unitChecks die kind index ++
      [(decide (s.unitState die kind index = 1), .busy), (decide (s.unitState die kind index = 0), .seq)])
    fun s => (s.enableUnit die kind index).reply src 0x0B11 .ok [])

end Sys2Proof.Machine
end

