-- ==== Sys2Proof/Machine/Save.lean ====
section
/-! DEFINITION. Pre-empting, saving and restoring a context (R94, R121, R122, R141, R150, R195, R214, R221, R412, R413). -/

namespace Sys2Proof.Machine

/-- A memory with `n` bytes from `a` taken from bytes o, o + 1, … of another. -/
def memCopy (m : Mem) (a n : Nat) (src : Mem) (o : Nat) : Mem :=
  (src.filter fun e => decide (o ≤ e.1 ∧ e.1 < o + n)).foldl (fun m e => Mem.write m (a + (e.1 - o)) e.2)
    (m.filter fun e => decide (e.1 < a ∨ a + n ≤ e.1))

/-- The `n` bytes of a memory from `a`, as a memory of their own. -/
def memSub (m : Mem) (a n : Nat) : Mem := memCopy [] 0 n m a

/-- The tag of the long-running instruction at a Mule's PC, if one stands there (R93). -/
def Tile.nextTag (t : Tile) (rs : Mem) : Option Nat :=
  match fetch t rs with
  | .ok (w, _) => if bits w 6 0 = 0x0B && lrRow (bits w 31 25) (bits w 14 12) then some ((t.mule.x (bits w 24 20)).toNat % 64) else none
  | .error _ => none

/-- A Mule that executes, waits or pads stops at its instruction boundary (R93, R94, R150): a wait or a pad runs again on resume, and a
break due is pending. Frames keep the ns their call has taken. -/
def Tile.preempt (t : Tile) (rs : Mem) (now : Nat) : Tile :=
  match t.mule.st with
  | .run | .wait | .pad =>
    { t with mule := { t.mule with st := .saved, brkPending := t.mule.brkPending || t.mule.breakDue (t.nextTag rs),
                                   stack := t.mule.stack.map fun f => { f with from_ := now - f.from_ } },
             mem := { t.mem with wait := .none } }
  | _ => t

/-- The loaded logical tiles of a context: die, logical tile, physical tile, in die then tile order. -/
def State.ctxLogical (s : State) (x : Nat) : List (Nat × Nat × Nat) :=
  (List.range 16).flatMap fun d => (List.range 4).filterMap fun i =>
    let p := (s.cd d).map.phys i
    if (s.tile d p).mem.ctx = some x then some (d, i, p) else none

/-- The units of a context stop at their resume points (R121, R141, R195, R221, R412): its fault records leave the queues (R214), and the
Hen issues no more. -/
def State.stopUnits (s : State) (x : Nat) : State :=
  let s := (s.ctxLogical x).foldl (fun s t => (s.stopArray t.1 t.2.2).stopEe t.1 t.2.2) s
  (List.range 16).foldl (fun s d =>
    if (s.cd d).map.count = 0 ∨ !bit (s.cx x).mask d then s
    else
      let s := (List.range 8).foldl (fun s e => if (Tab.get {} (s.cd d).dma.engines e : DmaEng).cur.ctx = x then s.stopEng d e else s) s
      let s := s.dropWaiters d fun f _ => f.ctx == x
      if (s.cd d).hen.jobs.any fun j => decide (j.2.ctx = x ∧ j.2.st = 1) then
        s.modCd d fun c => { c with hen := { c.hen with quiescing := true } }
      else s) s

/-- Every Mule of a context stops (R94). -/
def State.stopMules (s : State) (x : Nat) : State :=
  { s with cds := Tab.remap {} (fun _ c => { c with tiles := Tab.remap {} (fun _ t =>
      if t.mem.ctx = some x then t.preempt c.rs.mem s.aonNs else t) c.tiles }) s.cds }

/-- CTX_SAVE (R366, R409, R412): a RUNNING unscheduled context is pre-empted; one that has ended is saved as it stands. The reply comes
with CTX_SAVE_COMPLETE. -/
def execCtxSave (src : Src) (ctx : Nat) (s : State) : Out :=
  let c := s.cx ctx
  .next (s.ownCommand src 0x0304 ctx
    [(c.scheduled && decide (c.st = .running ∨ c.st = .stopping), .busy),
     (decide (c.st ≠ .running ∧ c.st ≠ .done ∧ c.st ≠ .halted) || (s.cxx ctx).saveReply.isSome, .seq),
     (s.ox.binds.any fun b => decide (b.2.ctx = ctx ∧ b.2.st = .running), .busy)]
    fun s =>
      let s := if c.st = .running then (s.stopMules ctx).setCtx ctx .stopping else s
      (s.stopUnits ctx).modCxx ctx fun v => { v with saveReply := some src })

/-- Requests of a context's jobs that are still out (R195). -/
def State.ctxOut (s : State) (x : Nat) : Bool :=
  s.cds.any fun c => c.2.hen.threads.any fun t =>
    decide ((Tab.get {} c.2.hen.jobs t.2.slot : HenJob).ctx = x ∧ t.2.st ≠ 0) &&
      (List.any (t.2.reqs.map (·.2)) fun r : HenReq => !r.held)

/-- The commits an ordered job holds are dropped, to be made again (R195): the thread goes back to the first of them. -/
def HenThread.unhold (t : HenThread) (kind : Nat) : HenThread :=
  let low := (t.reqs.map (·.2.off)).foldl min t.pos
  { t with reqs := [], pos := if t.reqs = [] then t.pos else if kind ≤ 1 then low else if kind = 2 then 0
                              else if kind = 3 ∧ t.boundsKnown = true then low else t.pos }

/-- Job slots and threads of a context on die d are stopped: running jobs SAVED. -/
def State.holdJobs (s : State) (d x : Nat) : State :=
  s.modCd d fun c =>
    let mine (j : Nat) : Bool := decide ((Tab.get {} c.hen.jobs j : HenJob).ctx = x ∧ (Tab.get {} c.hen.jobs j : HenJob).st = 1)
    { c with hen := { c.hen with
        quiescing := false,
        threads := Tab.remap {} (fun _ t =>
          if t.st ≠ 0 ∧ mine t.slot = true ∧ (Tab.get {} c.hen.jobs t.slot : HenJob).unordered = false then
            t.unhold (henD (Tab.get {} c.hen.jobs t.slot : HenJob).desc).kind else t) c.hen.threads,
        jobs := Tab.remap {} (fun _ j => if j.ctx = x ∧ j.st = 1 then { j with st := 4 } else j) c.hen.jobs } }

/-- What a save keeps of a logical tile, its memories in HBM aside (R412). -/
def State.capture (s : State) (x d i p : Nat) : SavedTile :=
  let c := s.cd d
  let t := s.tile d p
  let jobs := c.hen.jobs.filter fun j => decide (j.2.ltile = i ∧ j.2.ctx = x ∧ j.2.st ≠ 0)
  { die := d, ltile := i, flags := Tab.get 0 c.flags i, flush := Tab.get 0 c.flush i,
    tile := { t with os := [], mem := { t.mem with dmem := [], bank0 := [], bank1 := [] } },
    jobs := jobs, threads := c.hen.threads.filter fun h => decide (h.2.st ≠ 0) && jobs.any fun j => j.1 == h.2.slot,
    dmas := c.dma.engines.filter fun e => decide (e.1 / 2 = i ∧ e.2.st ≠ 0 ∧ e.2.cur.ctx = x) }

/-- The state byte of a cell (R115). -/
def CellV.stateByte (c : CellV) : Nat := b2n c.q + 2 * b2n c.i + 4 * b2n c.p + 8 * b2n c.n + 16 * b2n c.v

/-- A job record (R192), `parked` its threads parked. -/
def HenJob.bytes (j : HenJob) (parked : Nat) : List Byte :=
  padTo 64 j.desc ++ [BitVec.ofNat 8 j.st, BitVec.ofNat 8 (b2n j.unordered)] ++ leBytes 2 j.code.code ++ leBytes 4 j.commitLow ++
  leBytes 8 j.lrc ++ leBytes 4 j.faultItem ++ leBytes 4 j.count ++ leBytes 2 j.threads ++ [BitVec.ofNat 8 j.tag, BitVec.ofNat 8 j.ltile] ++
  leBytes 4 parked ++ padTo 32 j.hash

/-- A thread record (R193). -/
def HenThread.bytes (t : HenThread) : List Byte :=
  let out := (List.range 8).foldl (fun a e => if Tab.has t.reqs e then a + 2 ^ e else a) 0
  [BitVec.ofNat 8 t.st, BitVec.ofNat 8 t.slot, BitVec.ofNat 8 out, 0] ++ leBytes 4 t.k ++ leBytes 4 t.item ++ leBytes 4 t.pos ++
  leBytes 8 t.faultVa ++ leBytes 2 t.faultCode.code ++ leBytes 6 0 ++
  (List.range 8).flatMap fun e =>
    if Tab.has t.reqs e then
      let r : HenReq := Tab.get {} t.reqs e
      leBytes 6 r.addr ++ [BitVec.ofNat 8 r.target, BitVec.ofNat 8 r.kind] ++ leBytes 4 r.item
    else leBytes 12 0

/-- A DMA engine record (R220). -/
def DmaEng.bytes (e : DmaEng) : List Byte :=
  padTo 64 e.cur.desc ++ [BitVec.ofNat 8 e.st, BitVec.ofNat 8 e.queue.length] ++ leBytes 2 e.code.code ++
  [BitVec.ofNat 8 e.cur.tag, BitVec.ofNat 8 e.cur.ltile] ++ leBytes 2 0 ++ leBytes 8 e.resume ++ leBytes 8 e.cur.lrc ++
  leBytes 8 e.faultVa ++ leBytes 32 0

/-- The values and the state bytes of a plane as a save holds them (R122). -/
def Plane.image (p : Plane) : Mem :=
  p.cells.foldl (fun m c => Mem.write (Mem.writeLe m (4 * c.1) 4 c.2.val.toNat) (65536 + c.1) (BitVec.ofNat 8 c.2.stateByte)) []

/-- The element engine's register file and masks as its save record holds them (R141). -/
def EeU.image (u : EeU) : Mem :=
  let m := u.vregs.foldl (fun m v => Mem.writeLe m (0x220 + 4 * v.1) 4 v.2.toNat) []
  let m := u.laneFlags.foldl (fun m f => Mem.write m (0x2220 + f.1) (BitVec.ofNat 8 f.2)) m
  (List.range 3).foldl (fun m q => Mem.writeN m (0x1E0 + 16 * q) ((List.range 16).map fun b =>
    BitVec.ofNat 8 ((List.range 8).foldl (fun a j => if Tab.get false u.masks (128 * (q + 1) + 8 * b + j) then a + 2 ^ j else a) 0))) m

/-- The Hen record of a tile (R195): a header of its slot states, two job records, the threads of each slot in order of k. -/
def SavedTile.henRecord (v : SavedTile) : List Byte :=
  let parked (j : Nat) : Nat := (v.threads.filter fun t => t.2.slot = j ∧ t.2.st = 2).length
  let job (j : Nat) : List Byte := match Tab.find? v.jobs j with
    | some q => q.bytes (parked j)
    | none => leBytes 128 0
  let threads (j : Nat) : List Byte :=
    (sortBy (fun a b => decide (a.k ≤ b.k)) ((v.threads.filter fun t => t.2.slot = j).map (·.2))).flatMap HenThread.bytes
  let st (j : Nat) : Byte := match Tab.find? v.jobs j with
    | some q => BitVec.ofNat 8 q.st
    | none => 0
  let a := 2 * v.ltile
  padTo 64 [st a, st (a + 1)] ++ job a ++ job (a + 1) ++ threads a ++ threads (a + 1)

/-- The DMA records of a tile (R221): each engine record with the descriptors it has queued. -/
def SavedTile.dmaRecord (v : SavedTile) : List Byte :=
  [2 * v.ltile, 2 * v.ltile + 1].flatMap fun e =>
    let x : DmaEng := Tab.get {} v.dmas e
    x.bytes ++ x.queue.flatMap fun q => padTo 64 q.desc

/-- Bytes of a state record (R412). -/
def SavedTile.length (v : SavedTile) : Nat := 1225440 + v.henRecord.length + v.dmaRecord.length

/-- Write a tile's two buffers (R412): `base` is the stack's first device address. What R412, R122 and R141 give no layout for (the Mule's
header, the array's and the engine's headers, the summary) is free (log entry 33). -/
def State.writeSave (s : State) (v : SavedTile) (t : Tile) : State :=
  let base := v.die * 2 ^ 37
  let a := base + v.buf
  let m := Mem.writeN s.hbm a (freeBytes s.free 4096)
  let m := memCopy m (a + 0x1000) 0x80000 t.mem.dmem 0
  let m := memCopy m (a + 0x81000) 0x40000 t.mem.bank0 0
  let m := memCopy m (a + 0xC1000) 0x40000 t.mem.bank1 0
  let r := a + 0x101000
  let m := Mem.writeN m r (freeBytes (s.free + 1) 64)
  let m := memCopy m (r + 0x40) 81920 t.arr.plane0.image 0
  let m := memCopy m (r + 0x14040) 81920 t.arr.plane1.image 0
  let e := r + 163904
  let m := memCopy m e 8864 t.ee.image 0
  let m := Mem.writeN m e (freeBytes (s.free + 2) 64)
  let run := t.ee.stopped.getD {}
  let m := Mem.writeN m (e + 0x40) (padTo 64 run.desc)
  let m := Mem.writeN m (e + 0x80) (padTo 288 ((run.prog ++ run.consts).flatMap fun w => leBytes 4 w.toNat))
  let m := Mem.writeN m (e + 0x1A0) (freeBytes (s.free + 3) 64)
  let m := Mem.writeN m (e + 8864) (v.henRecord ++ v.dmaRecord)
  let m := memCopy m (base + v.store) (2 ^ 24) t.os 0
  let clean (l : Nat) : Bool :=
    decide ((lineOf a ≤ l ∧ 64 * (l + 1) ≤ a + v.length) ∨ (lineOf (base + v.store) ≤ l ∧ l < lineOf (base + v.store + 2 ^ 24)))
  { s with hbm := m, poison := s.poison.filter fun p => !clean p.1 }.drew 4

/-- A saved tile no longer holds its context's work: its array and engine are clear, its Mule SAVED. -/
def Tile.vacate (t : Tile) : Tile :=
  { t with
    mule := { t.mule with st := .saved, tags := 0, stack := [], arm := none, brkPending := false, switchReq := false, loadBusy := false },
    mem := { t.mem with streams := [], wait := .none },
    arr := { t.arr with plane0 := {}, plane1 := {}, stopped := none, resumeK := 0, resumeValid := false, resumePlane := 0,
                        resumeAborted := false },
    ee := { t.ee with stopped := none, resumePos := 0, resumeValid := false, resumeAborted := false, resumeKind := 0 } }

/-- Take a tile's saved work off its die. -/
def State.vacate (s : State) (v : SavedTile) (p : Nat) : State :=
  (s.modTile v.die p Tile.vacate).modCd v.die fun c => { c with
    flags := Tab.del c.flags v.ltile, flush := Tab.del c.flush v.ltile,
    hen := { c.hen with jobs := c.hen.jobs.filter (fun j => !Tab.has v.jobs j.1), threads := c.hen.threads.filter (fun t => !Tab.has v.threads t.1),
                        allot := Tab.del c.hen.allot v.ltile },
    dma := { c.dma with engines := Tab.remap {} (fun e x => if Tab.has v.dmas e then { disabled := x.disabled, draining := x.draining } else x)
                          c.dma.engines } }

/-- Take two buffers for each tile from requester 10 (R412): what was taken, or the refusal, everything taken given back. -/
def State.takeBuffers (s : State) (ts : List (Nat × Nat × Nat)) : State × Except Err (List (Nat × Nat)) :=
  let r := ts.foldl (fun (r : State × List (Nat × Nat) × Option Err) t =>
    match r.2.2 with
    | some _ => r
    | none =>
      match r.1.bpAlloc t.1 10 4 with
      | (s, .error e) => (s, r.2.1, some e)
      | (s, .ok a) =>
        match s.bpAlloc t.1 10 5 with
        | (s, .error e) => ((s.bpFree t.1 10 a).1, r.2.1, some e)
        | (s, .ok b) => (s, r.2.1 ++ [(a, b)], none)) (s, [], none)
  match r.2.2 with
  | none => (r.1, .ok r.2.1)
  | some e => ((ts.zip r.2.1).foldl (fun s t => ((s.bpFree t.1.1 10 t.2.1).1.bpFree t.1.1 10 t.2.2).1) r.1, .error e)

/-- Give a context's save buffers back. -/
def State.freeBuffers (s : State) (x : Nat) : State :=
  let s := (s.cxx x).saves.foldl (fun s v => ((s.bpFree v.die 10 v.buf).1.bpFree v.die 10 v.store).1) s
  (s.modCxx x fun c => { c with saves := [] }).modCx x fun c => { c with saves := 0 }

/-- CTX_SAVE_COMPLETE (R409, R412): with no request of the context out, its buffers are taken and written, the context becomes SAVED and
CTX_SAVE replies; refused buffers leave a pre-empted context HALTED with E_NOMEM. -/
def execCtxSaveComplete (ctx : Nat) (s : State) : Out :=
  match (s.cxx ctx).saveReply with
  | none => .next s
  | some src =>
    if s.ctxOut ctx then .next s
    else
      let s := s.modCxx ctx fun v => { v with saveReply := none }
      let s := (List.range 16).foldl (fun s d =>
        if (s.cd d).hen.jobs.any fun j => decide (j.2.ctx = ctx ∧ j.2.st = 1) then s.holdJobs d ctx else s) s
      let s := s.freeBuffers ctx
      let ts := s.ctxLogical ctx
      match s.takeBuffers ts with
      | (s, .error e) =>
        let s := if (s.cx ctx).st = .stopping then (s.setCtx ctx .halted .nomem).launchEnd ctx else s
        .next (s.reply src 0x0304 e [])
      | (s, .ok bufs) =>
        let r := (ts.zip bufs).foldl (fun (r : State × List SavedTile) t =>
          let v := r.1.capture ctx t.1.1 t.1.2.1 t.1.2.2
          let v := { v with buf := t.2.1, store := t.2.2, len := v.length }
          ((r.1.writeSave v (r.1.tile v.die t.1.2.2)).vacate v t.1.2.2, r.2 ++ [v])) (s, [])
        let s := r.1.modCxx ctx fun c => { c with saves := r.2 }
        let s := { s with ctx := { s.ctx with savesDone := s.ctx.savesDone + 1 } }
        let s := (s.modCx ctx fun c => { c with saves := 2 * r.2.length }).setCtx ctx .saved
        .next (s.reply src 0x0304 .ok (leBytes 2 (2 * r.2.length)))

/-- The Mule a save restores (R94, R150): stopped and halted Mules go on at their PC (log entry 38); a Mule at a break, or DONE, stays
so, and one that wrote PSYNC waits for the period. -/
def Mule.revive (m : Mule) (now : Nat) : Mule :=
  { m with st := match m.st with
             | .saved => .run
             | .haltFault => .run
             | st => st,
           stack := m.stack.map fun f => { f with from_ := now - f.from_ } }

/-- A tile with what a save holds of it: its memories read from the buffers, its units at their resume points (R122, R141, R413). -/
def Tile.restore (t : Tile) (v : SavedTile) (hbm : Mem) (now : Nat) : Tile :=
  let a := v.die * 2 ^ 37 + v.buf
  let o := v.tile
  let arr := match o.arr.stopped with
    | none => t.arr
    | some q =>
      let k := passD q.desc
      let n := passInput k q.checked (k.k - q.fromK)
      { t.arr with passes := [{ q with startNs := now, inputDone := false, inCycles := n, total := n + 270 }] }
  { t with
    mule := (o.mule.revive now),
    mem := { o.mem with dmem := memSub hbm (a + 0x1000) 0x80000, bank0 := memSub hbm (a + 0x81000) 0x40000,
                        bank1 := memSub hbm (a + 0xC1000) 0x40000 },
    os := memSub hbm (v.die * 2 ^ 37 + v.store) (2 ^ 24),
    arr := { arr with plane0 := o.arr.plane0, plane1 := o.arr.plane1, checkedLaunch := o.arr.checkedLaunch },
    ee := { t.ee with run := o.ee.stopped.map fun q => { q with startNs := now }, laneFlags := o.ee.laneFlags, vregs := o.ee.vregs,
                      masks := o.ee.masks, lastCount := o.ee.lastCount } }

/-- Restore the jobs and threads of a saved tile (R195): threads take the lowest free numbers; parked ones translate again. -/
def ComputeDie.restoreHen (c : ComputeDie) (v : SavedTile) : ComputeDie :=
  let ts := sortBy (fun a b => decide (a.slot < b.slot ∨ (a.slot = b.slot ∧ a.k ≤ b.k))) (v.threads.map (·.2))
  let jobs := v.jobs.foldl (fun m j => Tab.put m j.1 { j.2 with st := if j.2.st = 4 then 1 else j.2.st }) c.hen.jobs
  let free := c.hen.freeList
  { c with hen := { c.hen with
      jobs := jobs,
      threads := (free.zip ts).foldl (fun m t =>
        Tab.put m t.1 (if t.2.st = 2 then t.2.release else t.2)) c.hen.threads } }

/-- Restore a saved tile on the physical tile that carries it now (R413). -/
def State.restoreTile (s : State) (x : Nat) (v : SavedTile) (hen : Nat) : State :=
  let p := (s.cd v.die).map.phys v.ltile
  let s := s.modTile v.die p fun t => t.restore v s.hbm s.aonNs
  let s := s.modCd v.die fun c =>
    let c := c.restoreHen v
    { c with flags := Tab.set 0 c.flags v.ltile v.flags, flush := Tab.set 0 c.flush v.ltile v.flush,
             hen := { c.hen with allot := Tab.set 0 c.hen.allot v.ltile hen },
             dma := { c.dma with engines := v.dmas.foldl (fun m e =>
               let old : DmaEng := Tab.get {} m e.1
               Tab.put m e.1 { e.2 with st := if e.2.st = 5 then 1 else e.2.st, faultVa := if e.2.st = 5 then 0 else e.2.faultVa,
                                        disabled := old.disabled, draining := old.draining }) c.dma.engines } }
  let s := s.modMem v.die p fun m => { m with ctx := some x }
  v.jobs.foldl (fun s j => s.henGo v.die j.1) s

end Sys2Proof.Machine
end

