-- ==== Sys2Proof/Machine/Ctx.lean ====
section
/-! DEFINITION. The context commands and the memory commands (R209, R211, R213, R309, R407 to R411). -/

namespace Sys2Proof.Machine

/-- Whether a device physical address range lies in a stack (R205). -/
def inHbm (a n : Nat) : Bool := decide (a < 2 ^ 41 ∧ a % 2 ^ 37 + n ≤ 0x1800000000)

/-- The dies of a mask. -/
def diesOf (mask : Nat) : List Nat := (List.range 16).filter fun d => bit mask d

/-- A free translation slot of die d (R209). -/
def State.freeSlot (s : State) (d : Nat) : Option Nat :=
  (List.range 16).find? fun i => !(Tab.get {} (s.cd d).tr.slots i : TSlot).bound

/-- Bind a translation slot to a context on die d with mode PARK (R209, R410). -/
def State.bindSlot (s : State) (d x l1 : Nat) : State :=
  match s.freeSlot d with
  | none => s
  | some i => s.modCd d fun c => { c with tr := { c.tr with
      slots := Tab.modify {} c.tr.slots i fun t => { t with bound := true, ctx := x, fail := false, l1 := l1 },
      tlb := Tab.del c.tr.tlb i, walkc := Tab.del c.tr.walkc i } }

/-- Set the fault mode of a context's slots on the dies of a mask (R209). -/
def State.slotMode (s : State) (x mask : Nat) (fail : Bool) : State :=
  (diesOf mask).foldl (fun s d => s.modCd d fun c => { c with tr := { c.tr with
    slots := Tab.remap {} (fun _ t => if t.bound ∧ t.ctx = x then { t with fail := fail } else t) c.tr.slots } }) s

/-- Unbind a context's slots on every die, their cached translations going with them. -/
def State.unbindSlots (s : State) (x : Nat) : State :=
  { s with cds := Tab.remap {} (fun _ c => { c with tr := { c.tr with
      tlb := c.tr.tlb.filter (fun e => let t : TSlot := Tab.get {} c.tr.slots e.1
                                       !(t.bound && t.ctx == x)),
      walkc := c.tr.walkc.filter (fun e => let t : TSlot := Tab.get {} c.tr.slots e.1
                                           !(t.bound && t.ctx == x)),
      slots := Tab.remap {} (fun _ t => if t.bound ∧ t.ctx = x then { t with bound := false } else t) c.tr.slots } }) s.cds }

/-- The context CTX_CREATE gives: the one wanted, or the lowest FREE one. -/
def State.pickCtx (s : State) (want : Nat) : Option Nat :=
  if want = 0xFFFF then (List.range 4096).find? fun x => s.noCtx x else if s.noCtx want then some want else none

/-- CTX_CREATE (R408 to R410). -/
def execCtxCreate (src : Src) (want flags rsv mask l1 : Nat) (s : State) : Out :=
  .next (s.command src 0x0301 true (decide (want = 0xFFFF ∨ src.context = want))
    [(!s.svc.hdIn, .range), (decide (4 ≤ flags ∨ rsv ≠ 0 ∨ mask % 2 ^ 16 = 0 ∨ (4096 ≤ want ∧ want ≠ 0xFFFF)), .badarg),
     (decide (l1 % 4096 ≠ 0), .align), (!inHbm l1 4096 || (diesOf mask).any fun d => !s.dieIn d, .range),
     (decide (want ≠ 0xFFFF) && !s.noCtx want, .busy),
     ((s.pickCtx want).isNone || (diesOf mask).any fun d => (s.freeSlot d).isNone, .quota)]
    fun s =>
      let x := (s.pickCtx want).getD 0
      let s := (diesOf mask).foldl (fun s d => s.bindSlot d x l1) s
      let s := { s with ctx := { s.ctx with creates := s.ctx.creates + 1 } }
      let s := s.modCx x fun _ => { owner := src.ctrl, ieee := bit flags 0, goodput := bit flags 1, mask := mask % 2 ^ 16, l1 := l1 }
      let s := { s with ctx := { s.ctx with x := Tab.del s.ctx.x x, progress := Tab.put s.ctx.progress x { lastTick := s.now } } }
      (s.setCtx x .open_).reply src 0x0301 .ok (leBytes 2 x))

/-- A tile whose context ends (R85, R107, R123, R189, R410): passes and engine instructions still running end, HELD and half-used planes
are EMPTY, a FULL plane stays; tags are cleared, the Mule is IDLE and carries no logical tile (log entries 31, 39). -/
def Tile.ctxEnd (t : Tile) : Tile :=
  let plane (p : Plane) : Plane := if p.st = .full then p else {}
  { t with
    mule := { t.mule with st := .idle, tags := 0, stack := [], arm := none, brkPending := false, urMode := false, debug := false,
                          logical := none, loadBusy := false },
    mem := { t.mem with ctx := none, streams := [], wait := .none },
    arr := { t.arr with plane0 := plane t.arr.plane0, plane1 := plane t.arr.plane1, passes := [], stopped := none, resumeK := 0,
                        resumeValid := false, resumePlane := 0, resumeAborted := false },
    ee := { t.ee with run := none, stopped := none, resumePos := 0, resumeValid := false, resumeAborted := false, resumeKind := 0 } }

/-- An engine without the copies of a context: its record is free, and what other contexts queued goes on. -/
def DmaEng.ctxEnd (e : DmaEng) (x : Nat) : DmaEng :=
  let e := { e with queue := e.queue.filter fun q => q.ctx ≠ x }
  if e.st ≠ 0 ∧ e.cur.ctx = x then
    match e.queue with
    | [] => { disabled := e.disabled, draining := e.draining }
    | q :: rest => { st := 1, cur := q, queue := rest, disabled := e.disabled, draining := e.draining }
  else e

/-- The work of a context on a die ends (R410): its fault records leave the queue, its jobs, threads and engine records are free. -/
def State.dieCtxEnd (s : State) (d x : Nat) : State :=
  let s := s.dropWaiters d fun f _ => f.ctx == x
  s.modCd d fun c =>
    let mine (j : Nat) : Bool := decide ((Tab.get {} c.hen.jobs j : HenJob).ctx = x)
    { c with
      tiles := Tab.remap {} (fun _ t => if t.mem.ctx = some x then t.ctxEnd else t) c.tiles,
      hen := { c.hen with
        threads := c.hen.threads.filter fun t => decide (t.2.st = 0) || !mine t.2.slot,
        jobs := c.hen.jobs.filter fun j => decide (j.2.ctx ≠ x),
        allot := c.hen.allot.filter fun a => decide ((Tab.get {} c.tiles (c.map.phys a.1) : Tile).mem.ctx ≠ some x) },
      dma := { c.dma with engines := Tab.remap {} (fun _ e => e.ctxEnd x) c.dma.engines } }

/-- The end of a context's program that CTX_RESET and CTX_DESTROY share (R410); disables that waited for it complete. -/
def State.ctxUnitsEnd (s : State) (x : Nat) : State :=
  ((List.range 16).foldl (fun s d => if Tab.has s.cds d then s.dieCtxEnd d x else s) s).settle

/-- CTX_DESTROY (R309, R410, R453): it waits for the context's requests, which end at once here (log entry 31). -/
def State.destroyCtx (s : State) (x : Nat) : State :=
  let s := (s.ctxUnitsEnd x).collEndCtx x
  let s := ((s.unbindSlots x).freeBuffers x).schedDrop x
  let s := s.setCtx x .free
  { s with ctx := { s.ctx with tab := Tab.del s.ctx.tab x, x := Tab.del s.ctx.x x, progress := Tab.del s.ctx.progress x } }

def execCtxDestroy (src : Src) (ctx : Nat) (s : State) : Out :=
  .next (s.ownCommand src 0x0302 ctx [(s.ctxLive ctx, .busy)] fun s => (s.destroyCtx ctx).reply src 0x0302 .ok [])

/-- CTX_RESET (R409, R410): the program goes, the schedule and the save buffers stay (log entry 40); an OPEN context stays as it is. -/
def execCtxReset (src : Src) (ctx : Nat) (s : State) : Out :=
  .next (s.ownCommand src 0x0307 ctx [(s.ctxLive ctx, .seq)] fun s =>
    if (s.cx ctx).st = .open_ then s.reply src 0x0307 .ok []
    else
      let s := (s.ctxUnitsEnd ctx).slotMode ctx (s.cx ctx).mask false
      let s := s.modCxx ctx fun c => { windows := c.windows, saves := c.saves }
      let s := s.modCx ctx fun c => { c with debug := false, scheduled := false, urCompat := false, recIdx := 0xFF, programId := 0,
                                             schedId := 0, tiles := 0 }
      (s.setCtx ctx .open_).reply src 0x0307 .ok [])

/-- CTX_STATUS (R410). -/
def execCtxStatus (src : Src) (ctx : Nat) (s : State) : Out :=
  .next (s.ownCommand src 0x0303 ctx [] fun s =>
    s.reply src 0x0303 .ok ((s.cx ctx).bytes ++ (s.ctxLogical ctx).flatMap fun t =>
      let m := (s.tile t.1 t.2.2).mule
      leBytes 8 m.statusWord ++ leBytes 8 m.pc.toNat ++ leBytes 8 m.faultWord))

/-- CTX_LIST (R410): contexts not FREE from the first on. -/
def execCtxList (src : Src) (first : Nat) (s : State) : Out :=
  .next (s.command src 0x0305 true true [(!s.svc.hdIn, .range), (decide (0xFFF < first), .range)] fun s =>
    let l := (s.ctx.tab.filter fun e => decide (first ≤ e.1 ∧ e.2.st ≠ .free)).take 1024
    s.reply src 0x0305 .ok (l.flatMap fun e => leBytes 2 e.1 ++ [BitVec.ofNat 8 e.2.st.code, BitVec.ofNat 8 e.2.owner]))

/-- CTX_ADOPT (R410). -/
def execCtxAdopt (src : Src) (ctx : Nat) (s : State) : Out :=
  .next (s.command src 0x0308 (s.isAdmin src) (decide (src.context = ctx)) [(!s.svc.hdIn, .range), (s.noCtx ctx, .range)] fun s =>
    (s.modCx ctx fun c => { c with owner := src.ctrl }).reply src 0x0308 .ok [BitVec.ofNat 8 (s.cx ctx).owner])

/-- CTX_HALT (R411): every Mule halts with E_ABORTED and SOURCE 0; instructions issued run on. -/
def execCtxHalt (src : Src) (ctx : Nat) (s : State) : Out :=
  .next (s.ownCommand src 0x0309 ctx
    [(decide ((s.cx ctx).st ≠ .running ∧ (s.cx ctx).st ≠ .armed), .seq), ((s.cx ctx).scheduled, .denied)] fun s =>
    let s := s.remapTiles fun _ _ t =>
      if t.mem.ctx = some ctx ∧ t.mule.st.active = true then { t with mule := t.mule.halt .aborted 0 0x1F 0 0 } else t
    ((s.setCtx ctx .halted .aborted).launchEnd ctx).reply src 0x0309 .ok [])

/-- MEM_PF_RESOLVE (R213, R411). -/
def execMemPfResolve (src : Src) (die action id : Nat) (s : State) : Out :=
  let f := (s.cd die).tr.record? id
  .next (s.command src 0x0401 true true
    [(!s.svc.hdIn || decide (16 ≤ die) || !s.dieIn die || f.isNone, .range),
     (match f with
      | some f => decide ((s.cx f.ctx).owner ≠ src.ctrl.val)
      | none => false, .denied), (decide (1 < action), .badarg)]
    fun s => (s.pfResolve die id (action == 1)).reply src 0x0401 .ok [])

/-- TLB_FLUSH (R211, R411): on each die of the mask in turn; it replies with DONE set on all of them. -/
def execTlbFlush (src : Src) (ctx mask all va pages : Nat) (s : State) : Out :=
  .next (s.ownCommand src 0x0402 ctx
    [(decide (va % 65536 ≠ 0), .align), (decide (mask &&& (s.cx ctx).mask ≠ mask), .range), ((diesOf mask).any fun d => !s.dieIn d, .range),
     (decide (pages = 0 ∧ all = 0), .range)] fun s =>
    let s := (diesOf mask).foldl (fun s d => s.modCd d fun c =>
      match c.tr.slotOf ctx with
      | none => c
      | some i =>
        let t := { c.tr with invSlot := i, invAll := decide (all ≠ 0), invBase := va, invLen := pages }
        { c with tr := { (t.inval i (decide (all ≠ 0)) va pages) with invDone := true } }) s
    s.reply src 0x0402 .ok [])

/-- An HBM_EXPORT entry from its 16 bytes (R206). -/
def exportOf (bs : List Byte) : Export := { base := fld bs 0 8, len2m := fld bs 8 4, peers := fld bs 12 1 % 16, access := fld bs 13 1 % 2 }

/-- EXPORT_SET (R206, R411). -/
def execExportSet (src : Src) (die entry : Nat) (data : List Byte) (s : State) : Out :=
  let e := exportOf data
  .next (s.command src 0x0403 (s.isAdmin src) true
    [(!s.svc.hdIn || decide (16 ≤ die) || !s.dieIn die || decide (7 < entry) || decide (0x1800000000 < e.base + e.len2m * 2 ^ 21), .range),
     (decide (e.base % 2 ^ 21 ≠ 0), .align), (decide (15 < fld data 12 1 ∨ 1 < fld data 13 1) || !zeroAt data 14 2, .badarg)]
    fun s => (s.modCd die fun c => { c with hbm := { c.hbm with exports := Tab.set {} c.hbm.exports entry e } }).reply src 0x0403 .ok [])

/-- The buffer pool manager with the region, counts and quotas POOL_SET gives. -/
def Bp.config (b : Bp) (region : Nat) (counts : List Nat) (quotas : List (Nat × Nat)) : Bp :=
  { b with region := region % 2 ^ 16,
           pools := (counts.take 6).zipIdx.foldl (fun m c => Tab.modify {} m c.2 fun p => { p with count := c.1 % 2 ^ 24 }) b.pools,
           quota := (quotas.take 96).zipIdx.foldl (fun m q =>
             Tab.modify {} m q.2 fun x => { x with min := q.1.1 % 2 ^ 24, max := q.1.2 % 2 ^ 24 }) b.quota }

/-- The refusal of an application of b (R227). -/
def Bp.applyErr (b : Bp) : Err :=
  match b.apply with
  | .ok _ => .ok
  | .error e => e

/-- POOL_SET (R227, R411). -/
def execPoolSet (src : Src) (die region : Nat) (counts : List Nat) (quotas : List (Nat × Nat)) (s : State) : Out :=
  let b := (s.cd die).bp.config region counts quotas
  .next (s.command src 0x0404 (s.isAdmin src) true
    [(!s.svc.hdIn || decide (16 ≤ die) || !s.dieIn die, .range), (decide (b.applyErr ≠ Err.ok), b.applyErr)]
    fun s => (s.modCd die fun c => { c with bp := match b.apply with
      | .ok a => a
      | .error _ => c.bp }).reply src 0x0404 .ok [])

/-- Whether a request of a context's slot is outstanding on die d (R209). -/
def State.slotBusy (s : State) (d x : Nat) : Bool :=
  let c := s.cd d
  c.dma.engines.any (fun e => decide (e.2.st = 1 ∧ e.2.cur.ctx = x)) ||
  c.hen.threads.any fun t => decide ((Tab.get {} c.hen.jobs t.2.slot : HenJob).ctx = x ∧ t.2.st ≠ 0) &&
    (List.any (t.2.reqs.map (·.2)) fun r : HenReq => !r.held)

/-- MEM_MODE_SET (R209, R411). -/
def execMemModeSet (src : Src) (ctx mask mode : Nat) (s : State) : Out :=
  .next (s.ownCommand src 0x0405 ctx
    [(decide (1 < mode), .badarg), (decide (mask &&& (s.cx ctx).mask ≠ mask), .range), ((diesOf mask).any fun d => !s.dieIn d, .range),
     (decide ((s.cx ctx).st = .running), .seq), (decide (mode = 0) && (s.cx ctx).scheduled, .denied),
     ((diesOf mask).any fun d => s.slotBusy d ctx, .busy)]
    fun s => (s.slotMode ctx mask (mode == 1)).reply src 0x0405 .ok [])

/-- BP_FREEp and a quota entry (R226). -/
def Pool.freeWord (p : Pool) : Nat := p.free + p.low * 2 ^ 24
def Quota.bytes (q : Quota) : List Byte :=
  leBytes 8 (q.min + q.max * 2 ^ 24) ++ leBytes 4 q.inUse ++ leBytes 4 q.refused
def Bp.statusWord (b : Bp) : Nat := b2n b.configured + 2 * b2n b.busy
def Bp.quotaBytes (b : Bp) : List Byte := (List.range 96).flatMap fun i => (Tab.get {} b.quota i : Quota).bytes

/-- POOL_STATUS (R411). -/
def execPoolStatus (src : Src) (die : Nat) (s : State) : Out :=
  .next (s.command src 0x0406 true true [(!s.svc.hdIn || decide (16 ≤ die) || !s.dieIn die, .range)]
    fun s =>
      let b := (s.cd die).bp
      s.reply src 0x0406 .ok (leBytes 8 b.statusWord ++ (List.range 6).flatMap (fun p => leBytes 8 (b.pool p).freeWord) ++ b.quotaBytes))

end Sys2Proof.Machine
end

