-- ==== Sys2Proof/Machine/Prog.lean ====
section
/-! DEFINITION. Programs and launches, the routine store's loads and patches (R69 to R72, R168 to R170, R350, R366, R413, R414, R439). -/

namespace Sys2Proof.Machine

/-- A program image (R69). -/
structure PImage where
  bytes : List Byte
  deriving DecidableEq, Repr

def PImage.flags (i : PImage) : Nat := fld i.bytes 6 2
def PImage.tiles (i : PImage) : Nat := fld i.bytes 8 1
def PImage.width (i : PImage) : Nat := fld i.bytes 9 1
def PImage.hen (i : PImage) : List Nat := (List.range 4).map fun t => fld i.bytes (0x0C + 2 * t) 2
def PImage.count (i : PImage) : Nat := fld i.bytes 0x14 4

/-- Where the routine list starts: it ends the image (R69). -/
def PImage.listAt (i : PImage) : Nat := i.bytes.length - 4 * i.count

/-- The routine list as number and version (R144). -/
def PImage.routines (i : PImage) : List (Nat × Nat) :=
  (entriesOf 4 i.count (i.bytes.drop i.listAt)).map fun e => (fld e 0 2, fld e 2 2)

/-- Directory entry of a logical tile (R70): IMEM and DMEM offset and length, ENTRY_PC. -/
structure PTileE where
  imem : Nat
  imemLen : Nat
  dmem : Nat
  dmemLen : Nat
  entry : Nat
  deriving DecidableEq, Repr

def PImage.entry (i : PImage) (t : Nat) : PTileE :=
  let o := 0x50 + 20 * t
  { imem := fld i.bytes o 4, imemLen := fld i.bytes (o + 4) 4, dmem := fld i.bytes (o + 8) 4, dmemLen := fld i.bytes (o + 12) 4,
    entry := fld i.bytes (o + 16) 4 }

def PImage.entries (i : PImage) : List PTileE := (List.range i.tiles).map i.entry

/-- The sections that hold bytes, as (offset, length). -/
def PImage.sections (i : PImage) : List (Nat × Nat) :=
  (i.entries.flatMap fun e => [(e.imem, e.imemLen), (e.dmem, e.dmemLen)]).filter fun e => e.2 ≠ 0

/-- Whether a directory entry breaks R70, its place beside the others' sections included. -/
def PImage.entryBad (i : PImage) : Bool :=
  let secs := sortBy (fun a b => decide (a.1 ≤ b.1)) i.sections
  i.entries.any (fun e => decide (e.imem % 64 ≠ 0 ∨ e.dmem % 64 ≠ 0 ∨ e.imemLen % 4 ≠ 0 ∨ e.dmemLen % 4 ≠ 0 ∨ e.entry % 2 ≠ 0 ∨
    e.imemLen ≤ e.entry)) ||
  secs.any (fun e => decide (e.1 < 0xA0 ∨ i.listAt < e.1 + e.2)) ||
  (secs.zip (secs.drop 1)).any fun e => decide (e.2.1 < e.1.1 + e.1.2)

/-- The checks of R69 to R71 on an image for the dies of a mask, in order. A short image, a wrong MAGIC and values outside R69's ranges
are E_BADARG; FORMAT comes before what depends on it (log entry 42). -/
def State.progChecks (s : State) (ctx mask : Nat) (i : PImage) : List (Bool × Err) :=
  let b := i.bytes
  let held (d t : Nat) : Bool :=
    match (s.tile d ((s.cd d).map.phys t)).mem.ctx with
    | some x =>
      match (s.cx x).st with
      | .free => false
      | .open_ => false
      | .saved => false
      | _ => decide (x ≠ ctx)
    | none => false
  [(decide (b.length < 0xA0 ∨ fld b 0 4 ≠ 0x4B50524F), .badarg), (decide (sha256 (b.drop 0x50) ≠ (b.drop 0x30).take 32), .checksum),
   (decide (fld b 4 2 ≠ 3), .badcmd),
   (decide (i.tiles = 0 ∨ 4 < i.tiles ∨ (i.width ≠ 120 ∧ i.width ≠ 128) ∨ 4096 < i.count ∨ b.length < 0xA0 + 4 * i.count), .badarg),
   (decide (i.width = 128) && (diesOf mask).any fun d => decide ((s.cd d).width = 120), .width),
   ((diesOf mask).any fun d => (List.range i.tiles).any fun t => decide ((s.cd d).map.phys t = 7), .range), (i.entryBad, .badarg),
   (i.entries.any fun e => decide (0x40000 < e.imemLen ∨ 0x80000 < e.dmemLen), .range), (decide (1024 < i.hen.sum), .quota),
   (i.routines.any fun r => decide (4096 ≤ r.1) || (diesOf mask).any fun d =>
      let e := dirEntry (s.cd d).rs.mem r.1
      decide (e.offset = 0 ∨ e.version ≠ r.2), .badarg),
   ((diesOf mask).any fun d => (List.range i.tiles).any fun t => held d t, .busy)]

/-- A tile takes a program (R70, R72): the sections into the inactive bank and data memory, zeros behind them. A tile new to the context
starts its counts afresh (R77). -/
def Tile.progLoad (t : Tile) (x i : Nat) (imem dmem : List Byte) : Tile :=
  let t := if t.mem.ctx = some x then t else
    { t with mule := { t.mule with lrCount := 0, instret := 0, tags := 0, stack := [], arm := none, switchReq := false, brkPending := false },
             mem := { t.mem with streams := [] } }
  let t := t.modB fun _ => Mem.writeN [] 0 imem
  { t with mule := { t.mule with st := .idle, logical := some i },
           mem := { t.mem with ctx := some x, dmem := Mem.writeN [] 0 dmem, wait := .none } }

/-- Load one logical tile on a die; flags and flush counts of a tile new to the context are zero (R51). -/
def State.progTile (s : State) (x : Nat) (i : PImage) (d t : Nat) : State :=
  let p := (s.cd d).map.phys t
  let e := i.entry t
  let new := decide ((s.tile d p).mem.ctx ≠ some x)
  (s.modTile d p fun v => v.progLoad x t ((i.bytes.drop e.imem).take e.imemLen) ((i.bytes.drop e.dmem).take e.dmemLen)).modCd d fun c =>
    { c with flags := if new then Tab.del c.flags t else c.flags, flush := if new then Tab.del c.flush t else c.flush,
             hen := { c.hen with allot := Tab.set 0 c.hen.allot t (i.hen.getD t 0) } }

/-- An image that passed its checks is loaded on every die of a mask; tiles the context no longer uses leave it (R71, R72, R410). -/
def State.progPut (s : State) (x mask : Nat) (i : PImage) : State :=
  let used (d p : Nat) : Bool := bit mask d && (List.range i.tiles).any fun t => (s.cd d).map.phys t == p
  let s := s.remapTiles fun d p t => if t.mem.ctx = some x ∧ used d p = false then t.ctxEnd else t
  let s := (diesOf mask).foldl (fun s d => (List.range i.tiles).foldl (fun s t => s.progTile x i d t) s) s
  let s := s.slotMode x (s.cx x).mask (bit i.flags 2)
  let s := s.modCxx x fun c => { c with
    lastPeriod := none,
    prog := some { dies := mask, flags := i.flags, tiles := i.tiles, hen := i.hen, entry := i.entries.map (·.entry), reqWidth := i.width,
                   routines := i.routines.map fun r => r.1 + 65536 * r.2 } }
  (s.modCx x fun c => { c with programId := fld i.bytes 0x18 8, schedId := fld i.bytes 0x20 8, scheduled := bit i.flags 2,
                               urCompat := bit i.flags 0, tiles := i.tiles, recIdx := 0xFF, debug := false }).setCtx x .loaded

/-- What a command that loads onto the dies of a mask through a context checks first (R407, R414). -/
def State.maskChecks (s : State) (ctx mask : Nat) : List (Bool × Err) :=
  [(decide (mask % 2 ^ 16 = 0), .badarg), (decide (mask &&& (s.cx ctx).mask ≠ mask) || (diesOf mask).any fun d => !s.dieIn d, .range)]

/-- PROG_LOAD (R69 to R72, R170, R409, R410, R414, R440). -/
def execProgLoad (src : Src) (ctx mask va len : Nat) (s : State) : Out :=
  let img := s.readImage (lowestDie mask) ctx va len
  let i : PImage := { bytes := img.2 }
  let st := (s.cx ctx).st
  .next (s.ownCommand src 0x0501 ctx
    ([(s.health.quarantined, .denied), (decide (st ≠ .open_ ∧ st ≠ .loaded ∧ st ≠ .done), .seq)] ++ s.maskChecks ctx mask ++
      [(decide (img.1 ≠ Err.ok), img.1)] ++ s.progChecks ctx mask i)
    fun s => (s.progPut ctx mask i).reply src 0x0501 .ok (leBytes 8 (fld i.bytes 0x18 8)))

/-- The logical tiles a program uses, by die. -/
def Prog.uses (g : Prog) : List (Nat × Nat) := (diesOf g.dies).flatMap fun d => (List.range g.tiles).map fun t => (d, t)

/-- The device is in SUSPECT (R437, R438). -/
def State.suspect (s : State) : Bool := !s.health.quarantined && decide (2 ≤ s.health.band)

/-- CHECK_NEXT of a tile as a launch finds it (R439): set in SUSPECT, clear at the first launch after it (log entry 43). -/
def State.checkAt (s : State) (d p : Nat) : Bool :=
  if s.suspect then true else if s.health.checking then false else (s.tile d p).arr.checkNext

/-- The launch record a launch of context x takes (R350, R371): its own that is not live, else the lowest FREE (log entry 30). -/
def State.recFor (s : State) (x : Nat) : Option Nat :=
  match List.find? (fun e => decide (e.2.st ≠ .free) && decide (e.2.ctx = x) && !e.2.st.live) s.sq.recs with
  | some e => some e.1
  | none => (List.range 16).find? fun r => decide ((s.lrec r).st = .free)

/-- Cells reserved on a network by launches ARMED, or still held (R240). -/
def State.rsvTotal (s : State) (n : Nat) : Nat :=
  let sum (l : List Rsv) : Nat := ((l.filter fun e => e.net = n).map (·.cells)).sum
  (s.sq.recs.map fun e => if e.2.st = .armed ∨ (s.recX e.1).taken = true then sum (s.recX e.1).rsvs else 0).sum

/-- Cells of a network (R228). -/
def State.netCells (s : State) (n : Nat) : Nat :=
  s.hub.rows n * ((List.range 1024).filter fun b => !s.hubm.gone b).length

/-- Whether a schedule's reservations and claims do not fit (R240, R278). -/
def State.rsvFull (s : State) (q : Sched) : Bool :=
  let add (n : Nat) : Nat := ((q.rsvs.filter fun e => e.net = n).map (·.cells)).sum
  [0, 1].any (fun n => decide (s.netCells n - 16384 < s.rsvTotal n + add n)) || decide (s.oxFree < (q.colls.map (·.lines)).sum)

/-- Whether a scheduled collective of a context needs 16 units on a group that offers 15 (R285). -/
def State.oxShort (s : State) (x : Nat) : Bool :=
  s.ox.binds.any fun e => decide (e.2.sched ∧ e.2.ctx = x ∧ e.2.st = .open) &&
    (oxGroups (s.oxProg e.1).groups).any fun g => decide ((s.oxGroup g).length < (s.oxProg e.1).units)

/-- The refusals of LAUNCH (R17, R72, R92, R114, R350, R366, R409, R440, R495). -/
def State.launchChecks (s : State) (ctx flags t0 p0 : Nat) : List (Bool × Err) :=
  let c := s.cx ctx
  let v := s.cxx ctx
  let g := v.prog.getD {}
  let resume := bit flags 1
  let q : Sched := Tab.get {} s.sq.scheds ctx
  let own := s.recFor ctx
  let phys := g.uses.map fun t => (t.1, (s.cd t.1).map.phys t.2)
  [(s.health.quarantined, .denied), (decide (s.pwr.st ≠ .run) || s.pwr.moving.isSome, .busy),
   (decide (c.st ≠ .loaded ∧ c.st ≠ .saved), .seq),
   (decide (resume ≠ decide (c.st = .saved)) || decide (8 ≤ flags) || (!c.scheduled && decide (p0 ≠ 0)), .badarg),
   (resume && (match v.lastPeriod with
     | some p => c.scheduled && decide (p0 ≠ p + 1)
     | none => false), .range),
   (decide (g.reqWidth = 128) && (diesOf g.dies).any fun d => decide ((s.cd d).width = 120), .width),
   (bit flags 0 && !bit g.flags 1, .denied),
   (phys.any fun t => (s.tile t.1 t.2).disabled || (s.tile t.1 t.2).draining, .unitBusy),
   (phys.any fun t => decide (t.2 = 7), .range),
   (phys.any fun t => decide ((s.tile t.1 t.2).mem.ctx ≠ some ctx) && (match (s.tile t.1 t.2).mem.ctx with
     | some x => !s.noCtx x && decide ((s.cx x).st ≠ .saved ∧ (s.cx x).st ≠ .open_)
     | none => false), .busy)] ++
  if c.scheduled then
    [(!s.timeLocked, .busy), (!Tab.has s.sq.scheds ctx, .badarg), (decide (t0 < s.now + 100000), .schedLate),
     (decide (q.pcount ≤ p0), .range), (phys.any fun t => s.checkAt t.1 t.2 != q.checked, .badarg), (own.isNone, .quota),
     (s.rsvFull q, .nomem), (s.oxShort ctx, .width)]
  else []

/-- The first instance of a slot at or after P0 (R354). -/
def SlotE.firstAt (e : SlotE) (p0 : Nat) : Nat :=
  if p0 ≤ e.first then e.first else e.first + cdiv (p0 - e.first) (max 1 e.step) * e.step

/-- The slots of a context are set for a launch from P0 (R354). -/
def State.slotsLaunch (s : State) (x p0 : Nat) : State :=
  { s with cds := Tab.remap {} (fun _ c => { c with slots := { c.slots with
      entries := c.slots.entries.map fun e => if e.2.kind ≠ 0 ∧ e.2.ctx = x then
        (e.1, { e.2 with next := e.2.firstAt p0, received := 0, armed := false, filled := false, gap := false, filledAt := 0 })
        else e } }) s.cds }

/-- An accepted launch with a schedule takes its record: ARMED, its lines set aside (R278, R350). -/
def State.armRec (s : State) (r x t0 p0 : Nat) (notify : Bool) : State :=
  let q : Sched := Tab.get {} s.sq.scheds x
  let lines := (q.colls.map (·.lines)).sum
  let s := s.modRec r fun _ =>
    { st := .armed, checked := q.checked, ctx := x, lag := q.lag, schedId := q.id, t0 := t0, period := p0, nominal := t0, p0 := p0,
      last := q.pcount - 1, slack := (q.desc p0).slack }
  let s := s.modRecX r fun _ => { lines := lines, rsvs := q.rsvs, notify := notify }
  ({ s with ox := { s.ox with reserved := s.ox.reserved + lines } }.slotsLaunch x p0).modCx x fun c => { c with recIdx := r }

/-- A tile starts at its entry PC (R72): the loaded bank becomes active. -/
def Tile.start (t : Tile) (entry : Nat) (urMode debug : Bool) : Tile :=
  { t with mule := { t.mule with st := .run, bank := !t.mule.bank, pc := BitVec.ofNat 64 entry, urMode := urMode, debug := debug, stack := [],
                                 arm := none, sumValid := false, sumVal := 0, sumNan := false, sumInf := false, brkPending := false,
                                 brkSkip := false },
           mem := { t.mem with wait := .none } }

/-- The tiles of a launch start at their entry PCs, or go on from their save buffers, which are then free (R413); of restored Mules those
that wait after PSYNC go on with the first period (log entry 38). -/
def State.startTiles (s : State) (x : Nat) : State :=
  let v := s.cxx x
  let g := v.prog.getD {}
  if v.resume then
    let s := v.saves.foldl (fun s w => s.restoreTile x w (g.hen.getD w.ltile 0)) s
    let s := s.remapTiles fun _ _ t =>
      if t.mem.ctx = some x then
        { t with mule := { t.mule with debug := v.debug, st := if t.mule.st = .wait ∧ t.mem.wait = .psync then .run else t.mule.st },
                 mem := { t.mem with wait := if t.mem.wait = .psync then .none else t.mem.wait } }
      else t
    (s.freeBuffers x).modCxx x fun c => { c with resume := false }
  else
    g.uses.foldl (fun s t => s.modTile t.1 ((s.cd t.1).map.phys t.2) fun k => k.start (g.entry.getD t.2 0) (bit g.flags 0) v.debug) s

/-- An unscheduled launch starts (R409, R414): RUNNING, and its tiles start. -/
def State.startFree (s : State) (x : Nat) : State :=
  ((s.modCxx x fun c => { c with t0 := none }).setCtx x .running |>.startTiles x).checkDone x

/-- LAUNCH (R72, R350, R366, R409, R413, R414, R439). -/
def execLaunch (src : Src) (ctx flags t0 p0 : Nat) (s : State) : Out :=
  .next (s.ownCommand src 0x0502 ctx (s.launchChecks ctx flags t0 p0) fun s =>
    let sched := (s.cx ctx).scheduled
    let g := (s.cxx ctx).prog.getD {}
    let r := (s.recFor ctx).getD 0
    let s := g.uses.foldl (fun s t =>
      let p := (s.cd t.1).map.phys t.2
      let on := s.checkAt t.1 p
      s.modArr t.1 p fun a => { a with checkedLaunch := on, checkNext := on }) s
    let s := { s with health := { s.health with checking := s.suspect } }
    let s := s.modCx ctx fun c => { c with debug := bit flags 0, launches := c.launches + 1, recIdx := 0xFF }
    let s := s.modCxx ctx fun c => { c with
      notify := bit flags 2, resume := bit flags 1, debug := bit flags 0, lastPeriod := none, t0 := if sched then none else some t0 }
    let s := if sched then (s.armRec r ctx t0 p0 (bit flags 2)).setCtx ctx .armed
      else if s.now < t0 then s.setCtx ctx .armed
      else s.startFree ctx
    s.reply src 0x0502 .ok ([if sched then BitVec.ofNat 8 r else 0xFF] ++ leBytes 7 0))

/-- LAUNCH_START (R240, R350, R409, R414): T0 of an ARMED launch is reached; with a schedule the reservations are taken and period P0
starts. -/
def execLaunchStart (x : Fin 4096) (s : State) : Out :=
  if (s.cx x).st ≠ .armed then .next s
  else
    match s.liveRec? x with
    | some r =>
      let k := s.lrec r
      if s.now < k.t0 then .next s
      else
        let s := { s with hub := s.hub.reserve (s.recX r).rsvs }
        let s := (s.modRecX r fun v => { v with taken := true }).modRec r fun v => { v with st := .running }
        .next (((s.setCtx x .running).startTiles x).startPeriod r k.p0 k.t0 k.t0 0)
    | none =>
      match (s.cxx x).t0 with
      | none => .next s
      | some t => if s.now < t then .next s else .next (s.startFree x)

/-- Extend measurement register k by a digest (R481). -/
def State.extend (s : State) (k : Nat) (digest : List Byte) : State :=
  { s with sec := { s.sec with meas := Tab.put s.sec.meas k (sha256 (padTo 32 (Tab.get [] s.sec.meas k) ++ digest)),
                               ext := Tab.modify 0 s.sec.ext k (· + 1) } }

/-- The signature check against the library keys (R168, R464). -/
def libraryVerify (msg sig : List Byte) : Bool := rsaVerify (Config.libraryKey 0) msg sig || rsaVerify (Config.libraryKey 1) msg sig

/-- The checks of a library image of 4 MiB (R143, R168). -/
def libraryErr (b : List Byte) : Err :=
  if !libraryVerify (b.take 96) ((b.drop 96).take 384) then .sig
  else if sha256 (b.drop 0x400) ≠ (b.drop 64).take 32 then .checksum
  else .ok

/-- Replace a die's whole store (R143, R168). -/
def State.storePut (s : State) (d : Nat) (b : List Byte) : State :=
  s.modCd d fun c => { c with rs := { c.rs with mem := Mem.writeN [] 0 b, libVersion := fld b 6 2 } }

/-- Per-die statuses as ROUTINE_LOAD and ROUTINE_PATCH return them. -/
def dieStatuses (l : List (Nat × Err)) : List Byte :=
  (List.range 16).flatMap fun d => leBytes 2 ((List.find? (fun e => e.1 == d) l).map (fun e => e.2.code) |>.getD 0)

/-- ROUTINE_LOAD (R168, R414, R481). -/
def execRoutineLoad (src : Src) (ctx mask va len : Nat) (s : State) : Out :=
  let img := s.readImage (lowestDie mask) ctx va len
  let b := padTo 0x400000 img.2
  .next (s.command src 0x0503 (s.isAdmin src) (decide (src.context = ctx))
    ([(!s.svc.hdIn || s.noCtx ctx, .range), (decide ((s.cx ctx).st ≠ .open_), .seq)] ++ s.maskChecks ctx mask ++ [(decide (img.1 ≠ Err.ok), img.1)])
    fun s =>
      let st := (diesOf mask).map fun d =>
        (d, if (s.cd d).tiles.any fun t => t.2.mem.ctx.isSome then Err.busy else libraryErr b)
      let ok := st.filter fun e => e.2 = Err.ok
      let s := ok.foldl (fun s e => s.storePut e.1 b) s
      (if ok = [] then s else s.extend 3 ((b.drop 64).take 32)).reply src 0x0503 .ok (dieStatuses st))

/-- The code spaces of a store, as (start, end). -/
def storeSpans (m : Mem) : List (Nat × Nat) :=
  ((List.range 4096).map (dirEntry m)).filterMap fun e => if e.offset = 0 then none else some (e.offset, e.offset + e.length)

/-- The lowest free gap of n bytes, 4-byte aligned (R143, R169). -/
def storeGap (m : Mem) (n : Nat) : Option Nat :=
  let spans := storeSpans m
  let starts := sortBy (fun a b => decide (a ≤ b)) (0x10400 :: spans.map fun e => cdiv e.2 4 * 4)
  starts.find? fun a => decide (0x10400 ≤ a ∧ a + n ≤ 0x400000) && spans.all fun e => decide (a + n ≤ e.1 ∨ e.2 ≤ a)

/-- The refusals of a patch on die d, in order (R169). -/
def State.patchErr (s : State) (d : Nat) (k : PatchImage) : Err :=
  let e := dirEntry (s.cd d).rs.mem k.number
  let lists := s.ctx.x.any fun c => match c.2.prog with
    | some g => bit g.dies d && g.routines.any fun r => r % 65536 == k.number
    | none => false
  (firstErr [(lists, .busy), (decide (e.offset ≠ 0 ∧ e.version = k.version), .badarg), (decide (k.number = 0), .denied),
    ((storeGap (s.cd d).rs.mem k.code.length).isNone, .nomem), (!libraryVerify k.signed k.sig, .sig),
    (decide (sha256 k.body ≠ k.digest), .checksum)]).getD .ok

/-- Install a patch on die d (R169). -/
def State.patchPut (s : State) (d : Nat) (k : PatchImage) : State :=
  s.modCd d fun c =>
    let a := (storeGap c.rs.mem k.code.length).getD 0x10400
    let m := Mem.writeN (Mem.writeN c.rs.mem a k.code) (0x400 + 16 * k.number)
      (leBytes 4 a ++ leBytes 4 k.code.length ++ leBytes 2 k.version ++ leBytes 2 k.flags ++ [BitVec.ofNat 8 k.tags, 0, 0, 0])
    { c with rs := { c.rs with mem := m, patches := c.rs.patches + 1 } }

/-- ROUTINE_PATCH (R169, R414, R481): die by die. -/
def execRoutinePatch (src : Src) (ctx mask va len : Nat) (s : State) : Out :=
  let img := s.readImage (lowestDie mask) ctx va len
  let k := Config.patchImage img.2
  let k := { k with number := k.number % 4096 }
  .next (s.command src 0x0504 (s.isAdmin src) (decide (src.context = ctx))
    ([(!s.svc.hdIn || s.noCtx ctx, .range), (decide ((s.cx ctx).st ≠ .open_), .seq)] ++ s.maskChecks ctx mask ++ [(decide (img.1 ≠ Err.ok), img.1)])
    fun s =>
      let st := (diesOf mask).map fun d => (d, s.patchErr d k)
      let ok := st.filter fun e => e.2 = Err.ok
      let s := ok.foldl (fun s e => s.patchPut e.1 k) s
      (if ok = [] then s else s.extend 3 k.digest).reply src 0x0504 .ok (dieStatuses st))

end Sys2Proof.Machine
end

