-- ==== Sys2Proof/Machine/Debug.lean ====
section
/-! DEFINITION. The debug commands (R92, R93, R417). -/

namespace Sys2Proof.Machine

/-- A register field of an instruction word. -/
def regField (w hi lo : Nat) : Fin 32 := Fin.ofNat 32 (bits w hi lo)

/-- The long-running instruction a word of custom-0 names (R83), with no effect where there is none. -/
def State.stepLr (s : State) (d : CdId) (p : PTile) (w : Nat) : Out :=
  let rd := regField w 11 7
  let a := regField w 19 15
  let b := regField w 24 20
  match bits w 31 25, bits w 14 12 with
  | 0x08, _ => execMaPass d p rd a b s
  | 0x10, _ => execEeRun d p rd a b s
  | 0x11, _ => execEeCompress d p rd a b s
  | 0x12, _ => execEeExpand d p rd a b s
  | 0x18, _ => execDmaCopy d p rd a b s
  | 0x20, 0 => execHenLaunch d p rd a b s
  | 0x20, _ => execHenLaunchU d p rd a b s
  | 0x28, _ => execAsStream d p rd a b s
  | 0x30, _ => execSlotArm d p rd a b s
  | 0x38, 0 => execLrWait d p a s
  | 0x38, 1 => execLrTest d p rd a s
  | _, _ => execEndOp d p s

/-- The B-type immediate of a word. -/
def immB13 (w : Nat) : BitVec 13 :=
  BitVec.ofNat 13 (bits w 31 31 * 2 ^ 12 + bits w 7 7 * 2 ^ 11 + bits w 30 25 * 2 ^ 5 + bits w 11 8 * 2)

/-- Execute the instruction at a Mule's PC, whichever it is (R417). -/
def State.stepInsn (s : State) (d : CdId) (p : PTile) : Out :=
  let t := s.tile d p
  match fetch t (s.cd d).rs.mem with
  | .error _ => execMuleInstruction d p s
  | .ok (w, _) =>
    match muleEff t.mule.x t.mule.pc w with
    | .csr rd no _ plain =>
      if no = 0x7E0 ∧ plain = true ∧ (s.psync t).isSome = true then
        execPsyncWrite d p (Fin.ofNat 32 rd) (if 4 ≤ bits w 14 12 then BitVec.ofNat 64 (bits w 19 15) else t.mule.x (bits w 19 15)) s
      else execMuleInstruction d p s
    | .other =>
      match bits w 6 0 with
      | 0x0B => s.stepLr d p w
      | 0x2B =>
        if bits w 14 12 = 0 then execCallr d p (regField w 11 7) (regField w 19 15) (Fin.ofNat 4096 (bits w 31 20)) s else execRetr d p s
      | 0x5B =>
        if bits w 14 12 = 7 then execUrJoin d p (regField w 11 7) (regField w 19 15) (Fin.ofNat 4096 (bits w 31 20)) s
        else execUrBr d p (Fin.ofNat 8 (bits w 14 12)) (regField w 19 15) (regField w 24 20) (immB13 w) s
      | _ => execEbreak d p s
    | _ => execMuleInstruction d p s

/-- The state a step or a refusal-free meaning leaves. -/
def Out.state (o : Out) (s : State) : State :=
  match o with
  | .next t => t
  | _ => s

/-- A Mule goes into HALT_BREAK at an instruction boundary (R417): an LR.WAIT or END it waits in runs again; a pad, or a wait for the next
period, goes on when it is resumed (log entry 41). -/
def Tile.dbgStop (t : Tile) : Tile :=
  match t.mule.st with
  | .run | .wait | .pad =>
    { t with mule := { t.mule with st := .haltBreak },
             mem := { t.mem with wait := match t.mem.wait with
               | .tags _ => .none
               | .ending => .none
               | w => w } }
  | _ => t

/-- A Mule leaves HALT_BREAK (R417); the break that stopped it is not taken again before the same instruction. -/
def Tile.dbgGo (t : Tile) : Tile :=
  { t with mule := { t.mule with brkSkip := true, st := match t.mem.wait with
      | .psync => .wait
      | .insertion _ => .wait
      | .retPad => .pad
      | .armPad => .pad
      | _ => .run } }

/-- The physical tile that carries a loaded logical tile of a context, if one does. -/
def State.loadedTile (s : State) (x die i : Nat) : Option Nat :=
  let p := (s.cd die).map.phys i
  if die < 16 ∧ i < 4 ∧ p < 5 ∧ (s.tile die p).mem.ctx = some x then some p else none

/-- The checks the debug commands share (R92, R417). -/
def State.dbgChecks (s : State) (x die i : Nat) : List (Bool × Err) :=
  [(!(s.cx x).debug, .denied), ((s.loadedTile x die i).isNone, .range)]

/-- Write the break controls (R92): HIT is cleared by a 1. -/
def Mule.setBrk (m : Mule) (v : Nat) : Mule :=
  { m with brkInst := bit v 0, brkLrc := bit v 1, brkTag := bit v 2, brkTagNo := bits v 8 3, brkHit := m.brkHit && !bit v 9 }

/-- DBG_BREAK_SET (R92, R417). -/
def execDbgBreakSet (src : Src) (ctx die tile ctl inst lrc : Nat) (s : State) : Out :=
  .next (s.ownCommand src 0x0D01 ctx (s.dbgChecks ctx die tile) fun s =>
    (s.modMule die ((s.loadedTile ctx die tile).getD 0) fun m =>
      { m.setBrk ctl with brkInstVal := inst % 2 ^ 64, brkLrcVal := lrc % 2 ^ 64 }).reply src 0x0D01 .ok [])

/-- The Mules of a context in HALT_BREAK on the dies of a mask. -/
def State.inBreak (s : State) (x mask : Nat) : List (Nat × Nat) :=
  (s.allTiles.filter fun t => bit mask t.1 && decide (t.2.2.mem.ctx = some x ∧ t.2.2.mule.st = .haltBreak)).map fun t => (t.1, t.2.1)

/-- DBG_RESUME (R417). -/
def execDbgResume (src : Src) (ctx mask : Nat) (s : State) : Out :=
  .next (s.ownCommand src 0x0D02 ctx [(!(s.cx ctx).debug, .denied), (decide (s.inBreak ctx mask = []), .seq)] fun s =>
    let ts := s.inBreak ctx mask
    (ts.foldl (fun s t => s.modTile t.1 t.2 Tile.dbgGo) s).reply src 0x0D02 .ok (leBytes 2 ts.length))

/-- DBG_STEP (R417): one instruction, then HALT_BREAK again before the next. -/
def execDbgStep (src : Src) (ctx die tile : Nat) (s : State) : Out :=
  let p := (s.loadedTile ctx die tile).getD 0
  .next (s.ownCommand src 0x0D03 ctx (s.dbgChecks ctx die tile ++ [(decide ((s.tile die p).mule.st ≠ .haltBreak), .seq)]) fun s =>
    let t := s.modTile die p Tile.dbgGo
    let t := if (t.tile die p).mule.st = .run then (t.stepInsn (Fin.ofNat 16 die) (Fin.ofNat 5 p)).state t else t
    let t := t.modTile die p Tile.dbgStop
    t.reply src 0x0D03 .ok (leBytes 8 (t.tile die p).mule.pc.toNat))

/-- DBG_HALT (R417). -/
def execDbgHalt (src : Src) (ctx die tile : Nat) (s : State) : Out :=
  let p := (s.loadedTile ctx die tile).getD 0
  let m := (s.tile die p).mule
  .next (s.ownCommand src 0x0D04 ctx (s.dbgChecks ctx die tile ++ [(decide (m.st ≠ .run ∧ m.st ≠ .wait), .seq)]) fun s =>
    (s.modTile die p Tile.dbgStop).reply src 0x0D04 .ok (leBytes 8 m.pc.toNat))

end Sys2Proof.Machine
end

