-- ==== Sys2Proof/Machine/Mailbox.lean ====
section
/-! DEFINITION. The mailbox engine and the controllers' sessions (R396 to R407, R421). -/

namespace Sys2Proof.Machine

/-- Whether a command code is defined (R407). -/
def cmdDefined (c : Nat) : Bool :=
  let n := c % 256
  n != 0 && match c / 256 with
    | 0x01 => decide (n ≤ 2)
    | 0x02 => decide (n ≤ 5)
    | 0x03 => decide (n ≤ 9 ∧ n ≠ 6)
    | 0x04 => decide (n ≤ 6)
    | 0x05 => decide (n ≤ 4)
    | 0x06 => decide (n ≤ 5)
    | 0x07 => decide (n ≤ 7)
    | 0x08 => decide (n ≤ 7)
    | 0x09 => decide (n ≤ 8)
    | 0x0A => decide (n ≤ 8)
    | 0x0B => decide (n ≤ 0x11)
    | 0x0C => decide (n ≤ 0x0F)
    | 0x0D => decide (n ≤ 4)
    | 0x0E => decide (n ≤ 8)
    | _ => false

/-- The commands that need ADMIN (R407). -/
def cmdAdmin (c : Nat) : Bool :=
  [0x0202, 0x0203, 0x0204, 0x0308, 0x0403, 0x0404, 0x0503, 0x0504, 0x0701, 0x0702, 0x0703, 0x0704, 0x0705, 0x0707, 0x0807, 0x0901, 0x0906,
   0x0907, 0x0908, 0x0A02, 0x0B07, 0x0B08, 0x0B09, 0x0B0A, 0x0B0B, 0x0B0D, 0x0B0E, 0x0B10, 0x0B11, 0x0C0A, 0x0C0B, 0x0C0C, 0x0C0F, 0x0E03,
   0x0E04, 0x0E05, 0x0E06, 0x0E07].contains c

/-- The commands whose first argument is a context only its owner may name (R407). -/
def cmdOwner (c : Nat) : Bool :=
  [0x0302, 0x0303, 0x0304, 0x0307, 0x0309, 0x0402, 0x0405, 0x0501, 0x0502, 0x0602, 0x0603, 0x0604, 0x0706, 0x0801, 0x0802, 0x0804, 0x0805,
   0x0903, 0x0D01, 0x0D02, 0x0D03, 0x0D04].contains c

/-- The context a command's arguments name (R401). -/
def cmdCtx (c : Nat) (args : List Byte) : Option Nat :=
  let x := fld args 0 2
  if cmdOwner c || c == 0x0308 || c == 0x0503 || c == 0x0504 || c == 0x0A05 || c == 0x0A06 || c == 0x0A07 || c == 0x0B0C || c == 0x0B0D
  then some x
  else if c = 0x0301 then (if x = 0xFFFF then none else some x)
  else if c = 0x0601 then some (collL (args.drop 64)).ctx
  else if c = 0x0803 then (if 2 ^ 15 ≤ x then none else some x)
  else none

/-- A reply that belongs to no accepted command (R402, rows 4 to 6). -/
def State.answer (s : State) (src : Src) (cmd mbox : Nat) (e : Err) (payload : List Byte) : State :=
  { s with mbx := { s.mbx with refused := s.mbx.refused + 1 } }.post src.oob
    { ctrl := src.ctrl, mailbox := mbox, flags := 1, command := cmd, seq := src.seq, status := e.code, context := src.context,
      time := s.now, payload := payload }

/-- Open transfers of controller c fail (R380, R397, R400). -/
def State.failXfers (s : State) (c : Nat) : State :=
  (List.range 32).foldl (fun s i =>
    let x := 32 * c + i
    if (s.xfer x).st = 1 then s.modXfer x fun f => { f with st := 3, code := .aborted, ended := s.now, doneDue := true } else s) s

/-- A controller's segments leave the egress queues. -/
def State.dropFrames (s : State) (c : Nat) : State :=
  { s with eths := Tab.remap {} (fun _ e => { e with queues := Tab.remap {} (fun _ q =>
      { q with fifo := q.fifo.filter fun f => decide (f.ctrl ≠ some c) || f.zeroKey }) e.queues }) s.eths }

/-- The retained notices of a controller go out again, in order (R406). -/
def State.resendNotices (s : State) (c : Nat) : State :=
  (Tab.get [] s.mbx.notices c).foldl (fun s f => s.post (s.sess c).oob f) s

/-- A session begins (R374, R380, R399): its key, PSNs and the bindings of the enrolment entry. -/
def State.beginSession (s : State) (c : Nat) (p : PendS) : State :=
  let e := s.enrol c
  let s := (s.failXfers c).dropFrames c
  let s := s.modSess c fun x =>
    { st := 1, primary := e.primary, backup := e.backup, pcp := e.pcp, nextPsn := p.psnTx, expPsn := p.psnRx,
      ackPsn := (p.psnTx + 2 ^ 32 - 1) % 2 ^ 32, key := p.key, lastAdv := s.aonNs, lastSub := x.lastSub, peerMac := x.peerMac,
      peerIp := x.peerIp, peerPort := x.peerPort, oob := p.oob }
  let s := { s with xp := { s.xp with pend := Tab.del s.xp.pend c },
                    sec := if c = 0 then { s.sec with claimSession := p.claim } else s.sec }
  s.resendNotices c

/-- A controller loses its session (R397, R400): state 0 NONE, or 2 LOST (R380). -/
def State.endSession (s : State) (c st : Nat) : State :=
  let s := s.failXfers c
  let s := s.modSess c fun x => { x with st := st, unacked := [], waiting := [], toAck := 0 }
  { s with xp := { s.xp with pend := Tab.del s.xp.pend c },
           sec := if c = 0 then { s.sec with claimSession := false } else s.sec }

/-- The session key under which a frame's trailer verifies (R399 to R401): none; a new session pending is used for the first time. -/
def State.frameKey (s : State) (c : Nat) (body trailer : List Byte) : Option Bool :=
  if (s.sess c).st = 1 ∧ hmac (s.sess c).key body = trailer then some false
  else match Tab.find? s.xp.pend c with
    | some p => if hmac p.key body = trailer then some true else none
    | none => none

/-- E_SIG is logged at most once a second for a controller (R402). -/
def State.logSig (s : State) (c : Nat) : State :=
  match Tab.find? s.mbx.sigLogged c with
  | some t => if s.aonNs < t + 1000000000 then s
              else ({ s with mbx := { s.mbx with sigLogged := Tab.put s.mbx.sigLogged c s.aonNs } }).raise 23 0x05 2 .sig [BitVec.ofNat 8 c]
  | none => ({ s with mbx := { s.mbx with sigLogged := Tab.put s.mbx.sigLogged c s.aonNs } }).raise 23 0x05 2 .sig [BitVec.ofNat 8 c]

/-- A frame is discarded (R402, rows 1 to 3). -/
def State.discardFrame (s : State) : State := { s with mbx := { s.mbx with discards := sat 32 (s.mbx.discards + 1) } }

/-- A frame the mailbox accepts (R403, R404): it is queued, E rises. -/
def State.acceptFrame (s : State) (c m : Nat) (f : CmdFrame) (queue : Bool) : State :=
  let s := { s with mbx := { s.mbx with accepted := s.mbx.accepted + 1 } }
  s.modBox c m fun b => { b with
    e := (b.e + 1) % 2 ^ 32, accepted := b.accepted + 1,
    frames := if queue then b.frames ++ [{ f with no := s.mbx.accepted }] else b.frames }

/-- Checks 5 to 9 of R402 on a frame for mailbox m. -/
def State.takeFrame (s : State) (src : Src) (f : CmdFrame) : State :=
  let c := src.ctrl.val
  let m := src.mbox.val
  let b := s.box c m
  let d := (f.seq + 2 ^ 32 - b.e) % 2 ^ 32
  if d ≠ 0 then
    if 2 ^ 32 - 4 ≤ d then
      match List.find? (fun r => r.seq == f.seq) b.replies with
      | some r => s.post src.oob r
      | none => if b.frames.any (fun q => q.seq == f.seq) then s else s.answer src f.command m .seq (leBytes 4 b.e)
    else s.answer src f.command m .seq (leBytes 4 b.e)
  else if 4 ≤ b.frames.length then s.answer src f.command m .busy []
  else
    let refuse (e : Err) : State := (s.acceptFrame c m f false).reply src f.command e []
    if !cmdDefined f.command then refuse .badcmd
    else if !s.portAdmits src f.command || (cmdAdmin f.command && !s.isAdmin src) ||
        (cmdOwner f.command && !s.owns src (fld f.args 0 2)) then refuse .denied
    else if (match cmdCtx f.command f.args with
      | some x => x != f.context
      | none => false) then refuse .badarg
    else s.acceptFrame c m f true

/-- A frame reaches the mailbox engine (R402, R403): `seg` is the payload of controller c's segment. SESSION_OPEN comes under the all-zero
key and takes no SEQ (R399, log entry 44). -/
def State.mailboxFrame (s : State) (c : Ctrl) (oob : Bool) (seg : List Byte) : State :=
  let n := fld seg 12 2
  let cmd := fld seg 6 2
  let body := seg.take (32 + n)
  let trailer := seg.drop (32 + n)
  if seg.length ≠ n + 64 ∨ 4096 < n ∨ fld seg 0 2 ≠ 0x5A4E ∨ fld seg 2 1 ≠ 1 ∨ fld seg 5 1 ≠ 0 then s.discardFrame
  else if fld seg 3 1 ≠ c.val then s.discardFrame
  else if cmd = 0x0C01 then
    if hmac (List.replicate 32 0) body = trailer then { s with mbx := { s.mbx with accepted := s.mbx.accepted + 1 } }
    else s.discardFrame.logSig c
  else
    match s.frameKey c body trailer with
    | none => s.discardFrame.logSig c
    | some first =>
      let s := match first, Tab.find? s.xp.pend c with
        | true, some p => s.beginSession c p
        | _, _ => s
      let m := fld seg 4 1
      let f : CmdFrame := { command := cmd, seq := fld seg 8 4, context := fld seg 16 2, args := (seg.drop 32).take n }
      if h : m < 8 then s.takeFrame { ctrl := c, mbox := ⟨m, h⟩, seq := f.seq, context := f.context, oob := oob } f
      else s.answer { ctrl := c, seq := f.seq, context := f.context, oob := oob } cmd m .badarg []

/-- MAILBOX_FRAME (R398, R402): a frame that reaches the mailbox engine by itself; MBOX_SEGMENT hands over the one it carries. While the host
die is out of service only the out-of-band port takes frames. -/
def execMailboxFrame (c : Ctrl) (oob : Bool) (seg : List Byte) (s : State) : Out :=
  if oob || s.svc.hdIn then .next (s.mailboxFrame c oob seg) else .next s

/-- Whether a queued frame must wait for another that was accepted before it (R170, R404): the same context, or loads on one die. -/
def CmdFrame.behind (f g : CmdFrame) : Bool :=
  let load (x : CmdFrame) : Bool := x.command == 0x0501 || x.command == 0x0503 || x.command == 0x0504
  decide (g.no < f.no) && ((f.context == g.context && f.context != 0xFFFF) ||
    (load f && load g && decide (fld f.args 2 2 &&& fld g.args 2 2 ≠ 0)))

/-- MAILBOX_COMMAND_START (R404): the oldest frame of a mailbox starts. -/
def execMailboxCommandStart (c : Ctrl) (m : Mbox) (s : State) : Out :=
  let b := s.box c m
  match b.frames with
  | [] => .next s
  | f :: _ =>
    if b.running ∨ (s.mbx.boxes.any fun o => o.1 != 8 * c.val + m.val && o.2.frames.any f.behind) = true then .next s
    else .next (s.modBox c m fun b => { b with running := true, runCmd := f.command, runSeq := f.seq })

/-- Whether SESSION_OPEN is a claim (R479). -/
def State.claims (s : State) (src : Src) : Bool := src.oob && src.ctrl == 0 && !s.sec.owned && s.sec.claimOpen

/-- The reply to SESSION_OPEN, under the all-zero key and outside the sequences (R399). -/
def State.openReply (s : State) (src : Src) (e : Err) (payload : List Byte) : State :=
  let f : Frame401 := { ctrl := src.ctrl, mailbox := src.mbox, flags := 1, command := 0x0C01, seq := src.seq, status := e.code,
                        context := src.context, time := s.now, payload := if e = Err.ok then payload else [] }
  let s := { s with mbx := { s.mbx with refused := s.mbx.refused + (if e = Err.ok then 0 else 1) } }.emit (.mailbox src.oob f)
  if src.oob then s else s.sendSeg src.ctrl { type := 1, payload := f.sealed (List.replicate 32 0), pcp := (s.enrol src.ctrl).pcp } true

/-- A signature by the identity key; 384 zero bytes without one (R476). -/
def State.identitySig (s : State) (msg : List Byte) : List Byte :=
  if s.sec.idOk then padTo 384 (Config.identitySign msg) else List.replicate 384 0

/-- SESSION_OPEN (R398 to R400, R460, R476, R479). -/
def execSessionOpen (src : Src) (modulus exponent nonce : List Byte) (s : State) : Out :=
  let c := src.ctrl.val
  let e := s.enrol c
  let claim := s.claims src
  let key := padTo 384 modulus ++ padTo 4 exponent
  let known := decide (e.st = 1) && decide (sha256 key = e.hash) && (!src.oob || e.oob)
  match firstErr [(!s.sec.pufOk || (!claim && !known), .denied), (decide (beNat (padTo 4 exponent) ≠ 65537), .badarg)] with
  | some e => .next (s.openReply src e [])
  | none =>
    let k := s.free
    let psn := Config.initialPsn k
    let p : PendS := { key := Config.sessionKey k, psnTx := psn.1 % 2 ^ 32, psnRx := psn.2 % 2 ^ 32, claim := claim, oob := src.oob }
    let body := padTo 384 (Config.oaep key (p.key ++ nonce) k) ++ leBytes 4 p.psnTx ++ leBytes 4 p.psnRx ++
      (List.range 8).flatMap (fun m => leBytes 4 (s.box c m).e) ++ leBytes 4 (Tab.get 0 s.mbx.noticeSeq c)
    let s := s.drew.openReply src .ok (body ++ s.identitySig (body ++ nonce))
    .next (if (s.sess c).st = 1 then { s with xp := { s.xp with pend := Tab.put s.xp.pend c p } } else s.beginSession c p)

/-- SESSION_CLOSE (R400): the reply goes under the key of the session that ends. -/
def execSessionClose (src : Src) (s : State) : Out :=
  .next (s.command src 0x0C02 true true [] fun s => (s.reply src 0x0C02 .ok []).endSession src.ctrl 0)

/-- An enrolment entry (R396). -/
def Enrol.bytes (e : Enrol) : List Byte :=
  padTo 32 e.hash ++ [BitVec.ofNat 8 e.st, BitVec.ofNat 8 (b2n e.admin + 2 * b2n e.oob), BitVec.ofNat 8 e.primary, BitVec.ofNat 8 e.backup,
    BitVec.ofNat 8 e.pcp, BitVec.ofNat 8 e.sev, 0, 0] ++ leBytes 8 e.count ++ leBytes 8 e.time ++ leBytes 8 0

/-- CTRL_LIST (R400). -/
def execCtrlList (src : Src) (s : State) : Out :=
  .next (s.command src 0x0C05 true true [] fun s =>
    s.reply src 0x0C05 .ok ((List.range 8).flatMap fun c => (s.enrol c).bytes))

/-- The message an owner signs (R397): SERIAL, the command and the arguments before the signature. -/
def State.ownerMsg (s : State) (cmd : Nat) (args : List Byte) : List Byte := leBytes 8 s.sec.serial ++ leBytes 2 cmd ++ args

/-- A commit waits its turn (R473). -/
def State.queueCommit (s : State) (c : Commit) : State := { s with cfg := { s.cfg with queue := s.cfg.queue ++ [c] } }

/-- CTRL_ENROL (R396, R397, R400, R473): `entry` bytes 33 to 37 of the entry. The reply and the effect follow the commit. -/
def execCtrlEnrol (src : Src) (who : Nat) (entry : List Byte) (rsv : Nat) (count : Nat) (keyHash sig : List Byte) (s : State) : Out :=
  let pr := fld entry 1 1
  let bk := fld entry 2 1
  let net (x : Nat) : Nat := x % 16 / 4
  let msg := [BitVec.ofNat 8 who] ++ padTo 5 entry ++ leBytes 2 rsv ++ leBytes 8 count ++ padTo 32 keyHash
  .next (s.command src 0x0C03 true true
    [(decide (7 < who), .range), (!(s.sec.owned && rsaVerify s.sec.ownerKey (s.ownerMsg 0x0C03 msg) sig), .sig),
     (decide (count ≤ (s.enrol who).count), .cfgSeq),
     ((List.range 8).any fun c => c != who && decide ((s.enrol c).st = 1 ∧ (s.enrol c).primary = pr), .busy),
     (decide (bk ≠ 0xFF ∧ net bk = net pr), .badarg),
     (decide (3 < fld entry 0 1 ∨ 7 < pr % 16 ∨ 63 < pr ∨ 7 < fld entry 3 1 ∨ 6 < fld entry 4 1) ||
       (decide (bk ≠ 0xFF) && decide (7 < bk % 16 ∨ 63 < bk)), .badarg)]
    fun s =>
      let data := padTo 32 keyHash ++ [1] ++ padTo 5 entry ++ [0, 0] ++ leBytes 8 count ++ leBytes 8 s.now ++ leBytes 8 0
      s.queueCommit { src := some src, command := 0x0C03, recs := [{ type := 4, index := who, data := data }] })

/-- CTRL_REVOKE (R396, R397, R400, R473). -/
def execCtrlRevoke (src : Src) (who rsv count : Nat) (sig : List Byte) (s : State) : Out :=
  let msg := [BitVec.ofNat 8 who] ++ leBytes 7 rsv ++ leBytes 8 count
  .next (s.command src 0x0C04 true true
    [(decide (7 < who), .range), (!(s.sec.owned && rsaVerify s.sec.ownerKey (s.ownerMsg 0x0C04 msg) sig), .sig),
     (decide (count ≤ (s.enrol who).count), .cfgSeq)]
    fun s =>
      let e : Enrol := { s.enrol who with st := 2, count := count, time := s.now }
      s.queueCommit { src := some src, command := 0x0C04, recs := [{ type := 4, index := who, data := e.bytes }] })

end Sys2Proof.Machine
end

