-- ==== Sys2Proof/Machine/Net.lean ====
section
/-! DEFINITION. The Ethernet ports: frames, pauses, metering, egress queues (R373 to R378, R383 to R390, R394). -/

namespace Sys2Proof.Machine

/-- Sub-ports of a MODE, and the rate of each in Gb/s (R373). -/
def subCount (mode : Nat) : Nat := [1, 2, 4, 0].getD mode 0
def subRate (mode : Nat) : Nat := [400, 200, 100, 1].getD mode 1

/-- A big-endian field of a frame. -/
def beAt (b : List Byte) (o n : Nat) : Nat := beNat ((b.drop o).take n)

/-- An Ethernet frame taken apart: `tags` C-tags or other tags at its front. -/
structure EthP where
  dst : Nat
  src : Nat
  tags : Nat
  vid : Nat
  pcp : Nat
  type : Nat
  body : List Byte
  deriving DecidableEq, Repr

def ethParse (b : List Byte) : EthP :=
  let dst := beAt b 0 6
  let src := beAt b 6 6
  let t := beAt b 12 2
  if t = 0x8100 then
    let u := beAt b 16 2
    { dst := dst, src := src, tags := if u = 0x8100 ∨ u = 0x88A8 then 2 else 1, vid := beAt b 14 2 % 4096, pcp := beAt b 14 2 / 8192,
      type := u, body := b.drop 18 }
  else { dst := dst, src := src, tags := if t = 0x88A8 then 2 else 0, vid := 0, pcp := 0, type := t, body := b.drop 14 }

/-- The address entry of sub-port s, and the address it answers to (R375, R394). -/
def Eth.addr (e : Eth) (s : Nat) : SubAddr := Tab.get {} e.addrs s
def Eth.macOf (e : Eth) (s : Nat) : Nat := (e.mac + s) % 2 ^ 48

/-- The sum of a byte string's big-endian 16-bit words; a checksum holds when it is a nonzero multiple of 65,535. -/
def sum16 : List Byte → Nat
  | [] => 0
  | [a] => a.toNat * 256
  | a :: b :: t => a.toNat * 256 + b.toNat + sum16 t

/-- The Internet checksum that makes a sum right. -/
def cksum (x : Nat) : Nat := 65535 - x % 65535

/-- The UDP datagram of an IPv4 or IPv6 frame that passes R377: its payload. -/
def udpBody (a : SubAddr) (type : Nat) (b : List Byte) : Option (List Byte) :=
  let check (pseudo : Nat) (u : List Byte) (zeroOk : Bool) : Option (List Byte) :=
    let n := beAt u 4 2
    if n < 8 ∨ u.length < n ∨ beAt u 2 2 ≠ a.udp then none
    else if beAt u 6 2 = 0 then (if zeroOk then some ((u.take n).drop 8) else none)
    else if (pseudo + 17 + n + sum16 (u.take n)) % 65535 = 0 then some ((u.take n).drop 8) else none
  if type = 0x0800 then
    let n := beAt b 2 2
    if !a.ip4En ∨ fld b 0 1 ≠ 0x45 ∨ n < 28 ∨ b.length < n ∨ beAt b 6 2 % 16384 ≠ 0 ∨ sum16 (b.take 20) % 65535 ≠ 0 ∨ fld b 9 1 ≠ 17 ∨
        beAt b 16 4 ≠ a.ip4 then none
    else check (sum16 ((b.take 20).drop 12)) ((b.take n).drop 20) true
  else if type = 0x86DD then
    let n := beAt b 4 2
    if !a.ip6En ∨ fld b 0 1 / 16 ≠ 6 ∨ b.length < 40 + n ∨ fld b 6 1 ≠ 17 ∨ beAt b 24 16 ≠ a.ip6 then none
    else check (sum16 ((b.take 40).drop 8)) ((b.drop 40).take n) false
  else none

/-- An ARP request for the sub-port's IPv4 address (R377). -/
def isArp (a : SubAddr) (p : EthP) : Bool :=
  a.ip4En && p.type == 0x0806 && decide (beAt p.body 0 8 = 0x0001080006040001) && beAt p.body 24 4 == a.ip4

/-- A neighbour solicitation for the sub-port's IPv6 address (R377). -/
def isNs (a : SubAddr) (p : EthP) : Bool :=
  a.ip6En && p.type == 0x86DD && decide (fld p.body 0 1 / 16 = 6) && fld p.body 6 1 == 58 && fld p.body 40 1 == 135 &&
  beAt p.body 48 16 == a.ip6

/-- Why a frame is discarded by checks 1 to 5 of R378, as the place of its count in ETH_DISCARDS; none when it passes to another row. A
solicitation may come to the address's solicited-node group (log entry 45). -/
def Eth.cause (e : Eth) (s : Nat) (f : EthFrame) : Option Nat :=
  let p := ethParse f.bytes
  let a := e.addr s
  let n := f.bytes.length + 4
  let mine := p.dst == e.macOf s || (p.type == 0x0806 && p.dst == 2 ^ 48 - 1) || (p.type == 0x8808 && p.dst == 0x0180C2000001) ||
    (isNs a p && p.dst == 0x3333FF000000 + a.ip6 % 2 ^ 24)
  if !f.fcsOk then some 0
  else if n < 64 ∨ 9216 < n then some 1
  else if p.tags = 2 ∨ (p.tags = 1 ∧ p.vid ≠ 0 ∧ p.vid ≠ a.vid) then some 2
  else if !mine then some 3
  else if p.type = 0x8808 then (if beAt p.body 0 2 = 0x0101 then none else if beAt p.body 0 2 = 1 then some 9 else some 4)
  else if isArp a p || isNs a p || (udpBody a p.type p.body).isSome then none
  else some 4

/-- Count a discard (R394). -/
def State.ethDiscard (s : State) (k i : Nat) : State :=
  s.modEth k fun e => { e with discards := Tab.modify 0 e.discards i fun n => sat 32 (n + 1) }

/-- Whether a sub-port exists and the host die serves it. -/
def State.subIn (s : State) (k q : Nat) : Bool := s.svc.hdIn && decide (q < subCount (s.eth k).mode)

/-- ETH_FRAME_RECEIVE (R375 to R378): a frame that fails a check is discarded and counted; one that passes belongs to another row. -/
def execEthFrameReceive (k : EthPort) (q : SubPort) (f : EthFrame) (s : State) : Out :=
  if !s.subIn k q then .next s
  else match (s.eth k).cause q f with
    | some i => .next (s.ethDiscard k i)
    | none => .next s

/-- An ARP reply, or a neighbour advertisement, from its EtherType on (R377). -/
def neighbourReply (a : SubAddr) (mac : Nat) (p : EthP) (flow : Nat) : List Byte :=
  if p.type = 0x0806 then
    beBytes 2 0x0806 ++ beBytes 8 0x0001080006040002 ++ beBytes 6 mac ++ beBytes 4 a.ip4 ++ (p.body.drop 8).take 10
  else
    let dst := (p.body.drop 8).take 16
    let own := beBytes 16 a.ip6
    let icmp (c : Nat) : List Byte := [136, 0] ++ beBytes 2 c ++ beBytes 4 0x60000000 ++ own ++ [2, 1] ++ beBytes 6 mac
    let c := cksum (sum16 own + sum16 dst + 32 + 58 + sum16 (icmp 0))
    beBytes 2 0x86DD ++ beBytes 4 (6 * 2 ^ 28 + 0xE0 * 2 ^ 20 + flow % 2 ^ 20) ++ beBytes 2 32 ++ [58, 255] ++ own ++ dst ++ icmp c

/-- ARP_REQUEST (R377, R387): up to 1,000 answers a second, on priority 7. -/
def execArpRequest (k : EthPort) (q : SubPort) (f : EthFrame) (s : State) : Out :=
  let e := s.eth k
  let p := ethParse f.bytes
  let a := e.addr q
  if !s.subIn k q ∨ (e.cause q f).isSome ∨ (isArp a p || isNs a p) = false then .next s
  else
    let sec := s.aonNs / 1000000000
    let u := e.sub q
    let n := if u.arpSec = sec then u.arpCount else 0
    if 1000 ≤ n then .next s
    else
      let raw := neighbourReply a (e.macOf q) p s.fresh.toNat
      let e := { e with rx := e.rx + 1, subs := Tab.set {} e.subs q { u with arpSec := sec, arpCount := n + 1 } }
      let e := e.push q 7 { mac := p.src, raw := raw, bytes := max 64 (16 + (if e.txTag then 4 else 0) + raw.length) }
      .next (s.modEth k fun _ => e).drew

/-- Change egress queue n of a sub-port. -/
def Eth.modQueue (e : Eth) (s n : Nat) (f : EgQ → EgQ) : Eth :=
  { e with queues := Tab.set {} e.queues (8 * s + n) (f (e.queue s n)) }

/-- PFC_FRAME (R385): each enabled priority pauses for quanta times 512 bit times. -/
def execPfcFrame (k : EthPort) (q : SubPort) (enable : Nat) (quanta : List Nat) (s : State) : Out :=
  if !s.subIn k q then .next s
  else .next (s.modEth k fun e =>
    let e := { e with pfcRx := e.pfcRx + 1 }
    ((List.range 8).filter (bit enable)).foldl (fun e n => e.modQueue q n fun u =>
      { u with pauseEnd := s.now + cdiv (quanta.getD n 0 % 65536 * 512) (subRate e.mode) }) e)

/-- PFC_PAUSE_EXPIRY (R385). -/
def execPfcPauseExpiry (k : EthPort) (q : SubPort) (n : Fin 8) (s : State) : Out :=
  if ((s.eth k).queue q n).pauseEnd ≤ s.now then .next (s.modEth k fun e => e.modQueue q n fun u => { u with pauseEnd := 0 })
  else .next s

/-- A PFC frame goes out for priority n (R386). -/
def State.sendPfc (s : State) (k q n quanta : Nat) : State :=
  (s.modEth k fun e => { e with pfcTx := e.pfcTx + 1 }).emit (.pfc k q n quanta)

/-- Change what a sub-port keeps. -/
def State.modSub (s : State) (k q : Nat) (f : SubSt → SubSt) : State :=
  s.modEth k fun e => { e with subs := Tab.set {} e.subs q (f (e.sub q)) }

/-- Bytes enter the ingress buffer; at XOFF a lossless priority's sender is paused (R386). -/
def State.ingressBytes (s : State) (k q n bytes : Nat) : State :=
  let s := s.modSub k q fun u => { u with occ := Tab.modify 0 u.occ n (· + bytes) }
  let e := s.eth k
  let u := e.sub q
  if bit e.lossless n ∧ e.xoff * 1024 ≤ Tab.get 0 u.occ n ∧ Tab.has u.xoff n = false then
    (s.modSub k q fun u => { u with xoff := Tab.put u.xoff n s.aonNs }).sendPfc k q n 0xFFFF
  else s

/-- PFC_REPEAT (R386): 40 µs after the last while the occupancy stays above XON. -/
def execPfcRepeat (k : EthPort) (q : SubPort) (n : Fin 8) (s : State) : Out :=
  let e := s.eth k
  let u := e.sub q
  match Tab.find? u.xoff n with
  | some t =>
    if t + 40000 ≤ s.aonNs ∧ e.xon * 1024 < Tab.get 0 u.occ n then
      .next ((s.modSub k q fun u => { u with xoff := Tab.put u.xoff n s.aonNs }).sendPfc k q n 0xFFFF)
    else .next s
  | none => .next s

/-- PFC_XON (R386): bytes leave the ingress buffer; when a paused priority's occupancy falls to XON, quanta 0 is sent (log entry 46). -/
def execPfcXon (k : EthPort) (q : SubPort) (n : Fin 8) (drained : Nat) (s : State) : Out :=
  let s := s.modSub k q fun u => { u with occ := Tab.modify 0 u.occ n (· - drained) }
  let e := s.eth k
  let u := e.sub q
  if Tab.has u.xoff n ∧ Tab.get 0 u.occ n ≤ e.xon * 1024 then
    .next ((s.modSub k q fun u => { u with xoff := Tab.del u.xoff n }).sendPfc k q n 0)
  else .next s

/-- A meter's tokens now, in 2^-32 bytes (R384, R394). -/
def meterNow (tokens rate burst dt : Nat) : Nat := min (burst * 2 ^ 32) (tokens + rate * dt * 2 ^ 32 / 8000)

/-- Meter a frame of `b` bytes (R384): the meter after it, and whether the frame passes. -/
def Meter.pass (m : Meter) (now b : Nat) : Meter × Bool :=
  if !m.enable then ({ m with green := m.green + b }, true)
  else
    let x := b * 2 ^ 32
    let tc := meterNow m.tc m.cir m.cbs (now - m.tLast)
    let tp := meterNow m.tp m.pir m.pbs (now - m.tLast)
    let m := { m with tc := tc, tp := tp, tLast := now }
    if tp < x then ({ m with red := m.red + b }, !m.redDrop)
    else if tc < x then ({ m with tp := tp - x, yellow := m.yellow + b }, !m.yellowDrop)
    else ({ m with tp := tp - x, tc := tc - x, green := m.green + b }, true)

/-- Whether a queue may send (R388, R389): it holds a frame, is not paused, is off the wheel, and its tokens are at least 0. -/
def EgQ.eligible (u : EgQ) (now : Nat) : Bool :=
  decide (u.fifo ≠ [] ∧ u.pauseEnd ≤ now ∧ u.wheel = none) &&
  (decide (u.rate = 0) || decide (0 ≤ shaperNow u.tokens u.tLast u.rate u.burst now))

/-- The wheel slot of a queue in deficit (R389): the first 16 ns boundary at or after its tokens reach 0, or the farthest slot. -/
def EgQ.place (u : EgQ) (now : Nat) : EgQ :=
  if u.rate ≠ 0 ∧ u.tokens < 0 then
    let at_ := u.tLast + cdiv (u.tokens.natAbs * 8000) (u.rate * 65536)
    { u with wheel := some (min (cdiv at_ 16 * 16) ((now / 16 + 4095) * 16)) }
  else { u with wheel := none }

/-- The queue the MAC takes from (R388): strict ones first, the highest first; then the least tag, the lower queue on a tie. -/
def Eth.pick (e : Eth) (s now : Nat) : Option Nat :=
  let on := (List.range 8).filter fun n => (e.queue s n).eligible now
  match (on.filter fun n => (e.queue s n).weight = 0).getLast? with
  | some n => some n
  | none => on.foldl (fun a n => match a with
    | none => some n
    | some m => if (e.queue s n).headTag < (e.queue s m).headTag then some n else some m) none

/-- The head of queue n leaves (R388, R389): the queue charged, its next head tagged, virtual time moved on. -/
def Eth.take (e : Eth) (s n now : Nat) (f : TxFrame) : Eth :=
  let u := e.queue s n
  let v := if u.weight = 0 then (e.sub s).v else u.headTag
  let t := shaperNow u.tokens u.tLast u.rate u.burst now - (((f.bytes + 20) * 65536 : Nat) : Int)
  let u := { u with fifo := u.fifo.tail, frames := u.frames + 1, bytes := u.bytes + f.bytes,
                    tokens := if u.rate = 0 then u.tokens else t, tLast := if u.rate = 0 then u.tLast else now }
  let e := { e with queues := Tab.set {} e.queues (8 * s + n) ((u.tagHead v).place now), tx := e.tx + 1 }
  if (List.range 8).all fun n => decide ((e.queue s n).fifo = []) then
    let e := (List.range 8).foldl (fun e n => e.modQueue s n fun u => { u with fLast := 0 }) e
    { e with subs := Tab.set {} e.subs s { e.sub s with v := 0 } }
  else { e with subs := Tab.set {} e.subs s { e.sub s with v := v } }

/-- A segment as it goes out (R379, R399): its acknowledgement and MAC are those of the moment it is sent. -/
def Xs.segBytes (x : Xs) (c : Nat) (f : TxFrame) : List Byte :=
  let g := f.seg
  let psn := if f.zeroKey then 0 else if g.type = 3 ∨ g.type = 4 then x.nextPsn else g.psn
  let ack := if f.zeroKey then 0 else (x.expPsn + 2 ^ 32 - 1) % 2 ^ 32
  let key := if f.zeroKey then List.replicate 32 0 else x.key
  let b := leBytes 2 0x484E ++ [1, BitVec.ofNat 8 g.type, BitVec.ofNat 8 c, BitVec.ofNat 8 g.flags] ++ leBytes 2 g.payload.length ++
    leBytes 4 psn ++ leBytes 4 ack ++ leBytes 2 g.xfer ++ leBytes 2 g.status ++ leBytes 8 g.offset ++ leBytes 4 0 ++ g.payload
  b ++ (hmac key b).take 16

/-- A UDP frame to a peer from its EtherType on (R377). `id` fills the identification or flow label, which the spec leaves open. -/
def udpFrame (a : SubAddr) (x : Xs) (pcp id : Nat) (seg : List Byte) : List Byte :=
  let n := 8 + seg.length
  let udp (c : Nat) : List Byte := beBytes 2 a.udp ++ beBytes 2 x.peerPort ++ beBytes 2 n ++ beBytes 2 c ++ seg
  if x.peerIp.length = 4 then
    let src := beBytes 4 a.ip4
    let c := cksum (sum16 src + sum16 x.peerIp + 17 + n + sum16 (udp 0))
    let h (k : Nat) : List Byte := [0x45, BitVec.ofNat 8 (32 * pcp)] ++ beBytes 2 (20 + n) ++ beBytes 2 (id % 65536) ++ beBytes 2 0x4000 ++
      [64, 17] ++ beBytes 2 k ++ src ++ x.peerIp
    beBytes 2 0x0800 ++ h (cksum (sum16 (h 0))) ++ udp c
  else
    let src := beBytes 16 a.ip6
    let c := cksum (sum16 src + sum16 x.peerIp + 17 + n + sum16 (udp 0))
    beBytes 2 0x86DD ++ beBytes 4 (6 * 2 ^ 28 + 32 * pcp * 2 ^ 20 + id % 2 ^ 20) ++ beBytes 2 n ++ [17, 64] ++ src ++ padTo 16 x.peerIp ++ udp c

/-- EGRESS_FRAME_SELECT (R376, R377, R388, R389): the MAC of a sub-port takes its next frame. -/
def execEgressFrameSelect (k : EthPort) (q : SubPort) (s : State) : Out :=
  let e := s.eth k
  if !s.subIn k q ∨ !(e.sub q).up then .next s
  else match e.pick q s.now with
    | none => .next s
    | some n =>
      match (e.queue q n).fifo with
      | [] => .next s
      | f :: _ =>
        let a := e.addr q
        let x := s.sess (f.ctrl.getD 0)
        let pay := match f.ctrl with
          | some c => udpFrame a x n s.fresh.toNat (x.segBytes c f)
          | none => f.raw
        let dst := if f.ctrl.isSome then x.peerMac else f.mac
        let tag := if e.txTag then beBytes 2 0x8100 ++ beBytes 2 (n * 8192 + a.vid) else []
        let bytes := beBytes 6 dst ++ beBytes 6 (e.macOf q) ++ tag ++ pay
        let s := (s.modEth k fun e => e.take q n s.now f).drew
        let s := match f.ctrl with
          | some c => if f.zeroKey then s else s.modSess c fun x => { x with toAck := 0 }
          | none => s
        .next (s.emit (.frame k q (bytes ++ List.replicate (60 - bytes.length) 0)))

/-- SHAPER_WHEEL_SLOT (R389): queues whose slot has come are eligible again, or are placed anew. -/
def execShaperWheelSlot (k : EthPort) (q : SubPort) (s : State) : Out :=
  .next (s.modEth k fun e => (List.range 8).foldl (fun e n =>
    match (e.queue q n).wheel with
    | some t => if t ≤ s.now then e.modQueue q n fun u =>
        ({ u with tokens := shaperNow u.tokens u.tLast u.rate u.burst s.now, tLast := s.now } : EgQ).place s.now else e
    | none => e) e)

/-- A controller's frames on one sub-port move to another (R374). -/
def State.moveFrames (s : State) (k q : Nat) : State :=
  let fs := (List.range 8).flatMap fun n => ((s.eth k).queue q n).fifo.filterMap fun f => f.ctrl.map fun c => (n, c, f)
  let go := fs.filter fun e => decide (s.outSub (s.sess e.2.1) ≠ k + 16 * q)
  let s := s.modEth k fun e => (List.range 8).foldl (fun e n => e.modQueue q n fun u =>
    let rest := u.fifo.filter fun f => match f.ctrl with
      | some c => decide (s.outSub (s.sess c) = k + 16 * q)
      | none => true
    if rest.head? = u.fifo.head? then { u with fifo := rest } else ({ u with fifo := rest } : EgQ).tagHead (e.sub q).v) e
  go.foldl (fun s e => s.sendSeg e.2.1 e.2.2.seg e.2.2.zeroKey) s

/-- SUBPORT_LINK_CHANGE (R374). -/
def execSubportLinkChange (k : EthPort) (q : SubPort) (up : Bool) (s : State) : Out :=
  if !s.subIn k q then .next s
  else
    let s := s.modSub k q fun u => { u with up := up }
    .next (if up then s else s.moveFrames k q)

/-- An address entry as it stands in the table, and from its bytes (R394). -/
def SubAddr.bytes (a : SubAddr) : List Byte :=
  leBytes 2 (a.vid + a.pcp * 4096) ++ leBytes 4 a.ip4 ++ leBytes 16 a.ip6 ++ leBytes 2 a.udp ++ [BitVec.ofNat 8 (b2n a.ip4En + 2 * b2n a.ip6En)] ++
  leBytes 39 0

def subAddrOf (b : List Byte) : SubAddr :=
  { vid := fld b 0 2 % 4096, pcp := fld b 0 2 / 4096 % 8, ip4 := fld b 2 4, ip6 := fld b 6 16, udp := fld b 22 2, ip4En := bit (fld b 24 1) 0,
    ip6En := bit (fld b 24 1) 1 }

/-- ETH_STATUS, ETH_CTL and the other registers of a port at 0x0000 to 0x00FF, by word (R394). -/
def Eth.reg (e : Eth) (k now : Nat) (i : Nat) : Nat :=
  let paused (n : Nat) : Bool := (List.range 4).any fun s => decide (now < (e.queue s n).pauseEnd)
  let d (j : Nat) : Nat := Tab.get 0 e.discards j
  match i with
  | 0 => e.mode + (List.range 4).foldl (fun a s => a + b2n (e.sub s).up * 2 ^ (2 + s)) 0 + b2n (decide (4 ≤ k)) * 2 ^ 6 +
         (List.range 8).foldl (fun a n => a + b2n (paused n) * 2 ^ (7 + n)) 0
  | 1 => b2n e.jumbo * 2 + b2n e.txTag * 4
  | 2 => e.mac
  | 3 => e.lossless + e.xoff * 2 ^ 8 + e.xon * 2 ^ 24
  | 4 => e.rx
  | 5 => e.tx
  | 6 => e.pfcRx
  | 7 => e.pfcTx
  | 8 | 9 | 10 | 11 | 12 => d (2 * (i - 8)) + d (2 * (i - 8) + 1) * 2 ^ 32
  | _ => 0

/-- A change of MODE is refused while a controller is bound to a sub-port it removes, or a transfer is open on the port (R373). -/
def State.modeBusy (s : State) (k mode : Nat) : Bool :=
  let gone (code : Nat) : Bool := code % 16 == k && decide (subCount mode ≤ code / 16 % 4)
  mode != (s.eth k).mode &&
  ((List.range 8).any (fun c => decide ((s.enrol c).st = 1) && (gone (s.enrol c).primary || (decide ((s.enrol c).backup ≠ 0xFF) &&
      gone (s.enrol c).backup))) ||
   s.xp.xfers.any fun x => decide (x.2.st = 1) && s.outSub (s.sess (x.1 / 32)) % 16 == k)

/-- PORT_SET (R373, R393, R394). -/
def execPortSet (src : Src) (port mode jumbo txTag : Nat) (addrs : List Byte) (s : State) : Out :=
  let es := (List.range 4).map fun i => (addrs.drop (64 * i)).take 64
  .next (s.command src 0x0901 (s.isAdmin src) true
    [(!s.svc.hdIn || decide (7 < port ∨ 3 < mode), .range), (s.modeBusy port mode, .busy),
     (decide (1 < jumbo ∨ 1 < txTag) || es.any (fun b => decide (2 ^ 15 ≤ fld b 0 2 ∨ 3 < fld b 24 1) || !zeroAt b 25 39) ||
       (es.take (subCount mode)).any (fun b => decide (fld b 24 1 = 0)), .badarg)]
    fun s =>
      let same := decide ((s.eth port).mode = mode)
      let s := s.modEth port fun e => { e with
        mode := mode, jumbo := decide (jumbo = 1), txTag := decide (txTag = 1),
        addrs := (es.zipIdx).foldl (fun m b => Tab.set {} m b.2 (subAddrOf b.1)) e.addrs,
        subs := if same then e.subs else Tab.remap {} (fun _ u => { u with up := false }) e.subs }
      s.reply src 0x0901 .ok ((List.range 4).map fun q => BitVec.ofNat 8 (b2n ((s.eth port).sub q).up)))

/-- PORT_STATUS (R393): registers 0x0000 to 0x00FF. -/
def execPortStatus (src : Src) (port : Nat) (s : State) : Out :=
  .next (s.command src 0x0902 true true [(!s.svc.hdIn || decide (7 < port), .range)] fun s =>
    s.reply src 0x0902 .ok ((List.range 32).flatMap fun i => leBytes 8 ((s.eth port).reg port s.now i)))

/-- METER_SET (R384, R393): `actions` [0] yellow DROP, [1] red DROP. -/
def execMeterSet (src : Src) (port meter enable actions cir pir cbs pbs : Nat) (s : State) : Out :=
  .next (s.command src 0x0906 (s.isAdmin src) true
    [(!s.svc.hdIn || decide (7 < port ∨ 15 < meter ∨ pir < cir ∨ 400000 < pir ∨ cbs < 9216 ∨ 2 ^ 24 < cbs ∨ pbs < 9216 ∨ 2 ^ 24 < pbs), .range)]
    fun s =>
      (s.modEth port fun e => { e with meters := Tab.modify {} e.meters meter fun m =>
        { m with cir := cir, pir := pir, cbs := cbs, pbs := pbs, enable := bit enable 0, yellowDrop := bit actions 0, redDrop := bit actions 1,
                 tc := cbs * 2 ^ 32, tp := pbs * 2 ^ 32, tLast := s.now } }).reply src 0x0906 .ok [])

/-- QUEUE_SET (R388 to R390, R393). -/
def execQueueSet (src : Src) (port sub queue weight rate burst : Nat) (s : State) : Out :=
  .next (s.command src 0x0907 (s.isAdmin src) true
    [(!s.svc.hdIn || decide (7 < port ∨ 7 < queue ∨ 255 < weight ∨ burst < 1536 ∨ 1048576 < burst) ||
        decide (subCount (s.eth port).mode ≤ sub), .range)]
    fun s => (s.modEth port fun e => e.modQueue sub queue fun u =>
      { u with weight := weight, rate := rate, burst := burst, tokens := 0, tLast := s.now, wheel := none }).reply src 0x0907 .ok [])

/-- ENTRY_SET (R390, R392, R393). -/
def execEntrySet (src : Src) (rate : Nat) (s : State) : Out :=
  .next (s.command src 0x0908 (s.isAdmin src) true
    [(!s.svc.hdIn || decide (1600000 / s.hub.shareD < rate), .range)]
    fun s => { s with xp := { s.xp with
      entryRate := rate, shapers := (List.range 612).foldl (fun m i =>
        Tab.modify {} m i fun e => { e with tokens := 0, tLast := s.now }) s.xp.shapers } }.reply src 0x0908 .ok [])

end Sys2Proof.Machine
end

