-- ==== Sys2Proof/Machine/Transport.lean ====
section
/-! DEFINITION. The host transport: segments, sessions, transfers (R374, R378 to R384, R393, R395). -/

namespace Sys2Proof.Machine

/-- Whether a segment fails check 6 of R378: MAGIC, VERSION, TYPE, LENGTH. -/
def segBad (jumbo : Bool) (b : List Byte) : Bool :=
  let t := fld b 3 1
  let n := fld b 6 2
  decide (fld b 0 2 ≠ 0x484E ∨ fld b 2 1 ≠ 1 ∨ t = 0 ∨ 5 < t ∨ b.length ≠ 48 + n) ||
  (if t = 1 then decide (4160 < n) else if t = 2 then decide ((if jumbo then 8192 else 1024) < n) else decide (n ≠ 0))

/-- Checks 6 to 8 of R378 and the ingress buffer (R386), for a row of one TYPE: the state of a frame that goes no further, or the controller
and the meters with the frame metered. -/
def State.rxFront (s : State) (k q : Nat) (f : RxSegment) (type : Nat) : Except State (Nat × Tab Meter) :=
  let e := s.eth k
  let c := fld f.seg 4 1
  let code := k + 16 * q
  let n := s.enrol c
  let held := ((e.sub q).occ.map (·.2)).sum
  if !s.subIn k q then .error s
  else if segBad e.jumbo f.seg then .error (s.ethDiscard k 5)
  else if fld f.seg 3 1 ≠ type then .error s
  else if 8 ≤ c ∨ n.st ≠ 1 ∨ (n.primary ≠ code ∧ n.backup ≠ code) then .error (s.ethDiscard k 6)
  else if bit e.lossless f.pcp = false ∧ 2 ^ 20 < held + f.wire then .error (s.ethDiscard k 8)
  else
    let i := 2 * c + (if type = 2 then 1 else 0)
    let m : Meter := Tab.get {} e.meters i
    match m.pass s.now f.wire with
    | (m, true) => .ok (c, Tab.set {} e.meters i m)
    | (m, false) => .error (s.modEth k fun e => { e with meters := Tab.set {} e.meters i m })

/-- Whether a segment's MAC verifies under a key (R379). -/
def macOk (key b : List Byte) : Bool :=
  let n := 32 + fld b 6 2
  decide ((hmac key (b.take n)).take 16 = b.drop n)

/-- A segment whose MAC fails is discarded and counted, E_SIG logged at most once a second for the port (R378). -/
def State.badMac (s : State) (k : Nat) : State :=
  let s := s.ethDiscard k 7
  let due := match (s.eth k).sigLogged with
    | some t => decide (t + 1000000000 ≤ s.aonNs)
    | none => true
  if due then (s.modEth k fun e => { e with sigLogged := some s.aonNs }).raise 23 (0x10 + k) 2 .sig else s

/-- Where a controller's last accepted segment came from (R374, R377), and the frame counted with its bytes in the ingress buffer. -/
def State.heard (s : State) (k q c : Nat) (f : RxSegment) (meters : Tab Meter) : State :=
  let s := s.modSess c fun x => { x with lastSub := k + 16 * q, peerMac := f.mac, peerIp := f.ip, peerPort := f.port }
  (s.modEth k fun e => { e with rx := e.rx + 1, meters := meters }).ingressBytes k q f.pcp f.wire

/-- Segments that waited for room take their PSNs (R380). -/
def State.fillWindow (s : State) (c : Nat) : State :=
  let w := (s.sess c).waiting
  let room := 1024 - (s.sess c).unacked.length
  (w.take room).foldl (fun s g => s.queueSeg c g) (s.modSess c fun x => { x with waiting := w.drop room })

/-- An ACK_PSN arrives (R380): segments up to it are acknowledged. -/
def State.ackTo (s : State) (c a : Nat) : State :=
  let x := s.sess c
  let n := (a + 2 ^ 32 - x.ackPsn) % 2 ^ 32
  if 0 < n ∧ n ≤ x.unacked.length then
    (s.modSess c fun x => { x with ackPsn := a, unacked := x.unacked.drop n, timeouts := 0, lastAdv := s.aonNs }).fillWindow c
  else s

/-- Send an ACK or a NAK (R380), which take no PSN. -/
def State.sendAck (s : State) (c type : Nat) : State :=
  (s.modSess c fun x => { x with toAck := 0 }).sendSeg c { type := type, pcp := (s.sess c).pcp }

/-- Resend in order from ACK_PSN + 1 (R380). -/
def State.resend (s : State) (c : Nat) : State :=
  let g := (s.sess c).unacked
  g.foldl (fun s g => s.sendSeg c g) { s with xp := { s.xp with retx := s.xp.retx + g.length } }

/-- A segment with a PSN is accepted (R380): E rises; an acknowledgement after 16, or at once on ACK_NOW. -/
def State.accepted (s : State) (c : Nat) (b : List Byte) : State :=
  let s := s.modSess c fun x => { x with
    expPsn := (x.expPsn + 1) % 2 ^ 32, accepted := x.accepted + 1, naked := none, toAck := x.toAck + 1,
    ackFrom := if x.toAck = 0 then s.aonNs else x.ackFrom }
  let s := s.ackTo c (fld b 12 4)
  if 16 ≤ (s.sess c).toAck ∨ bit (fld b 5 1) 0 then s.sendAck c 3 else s

/-- A segment out of order (R380): one NAK for each E; a duplicate is acknowledged. -/
def State.outOfOrder (s : State) (c d : Nat) : State :=
  if d < 2 ^ 31 then
    if (s.sess c).naked = some (s.sess c).expPsn then s
    else (s.modSess c fun x => { x with naked := some x.expPsn }).sendAck c 4
  else s.sendAck c 3

/-- MBOX_SEGMENT (R374, R378 to R380, R383, R384, R386, R399, R400): metered, authenticated, sequenced, its frame handed to the mailbox
engine. A segment under a pending session's key begins that session when its frame verifies too. -/
def execMboxSegment (k : EthPort) (q : SubPort) (f : RxSegment) (s : State) : Out :=
  match s.rxFront k q f 1 with
  | .error s => .next s
  | .ok (c, m) =>
    let b := f.seg
    let frame := (b.drop 32).take (fld b 6 2)
    let psn := fld b 8 4
    let n := fld frame 12 2
    let pend := (Tab.find? s.xp.pend c).filter fun p =>
      macOk p.key b && p.psnRx == psn && decide (hmac p.key (frame.take (32 + n)) = frame.drop (32 + n))
    let go (s : State) : State := ((s.heard k q c f m).accepted c b).mailboxFrame (Fin.ofNat 8 c) false frame
    if fld frame 6 2 = 0x0C01 ∧ psn = 0 ∧ fld b 12 4 = 0 ∧ macOk (List.replicate 32 0) b = true then
      .next ((s.heard k q c f m).mailboxFrame (Fin.ofNat 8 c) false frame)
    else if (s.sess c).st = 1 ∧ macOk (s.sess c).key b = true then
      let d := (psn + 2 ^ 32 - (s.sess c).expPsn) % 2 ^ 32
      .next (if d = 0 then go s else s.outOfOrder c d)
    else match pend with
      | some p => .next (go (s.beginSession c p))
      | none => .next (s.badMac k)

/-- A transfer ends (R381, R382): its DONE falls due. -/
def State.endXfer (s : State) (x : Nat) (e : Err) : State :=
  s.modXfer x fun t => { t with st := if e = Err.ok then 2 else 3, code := e, ended := s.now, doneDue := true }

/-- The bytes of a DATA segment are staged in a P2 buffer and written (R381, R382); none when no buffer is free. `ue` an uncorrectable
error met in memory. -/
def State.putData (s : State) (c : Nat) (b : List Byte) (ue : Bool) : Option State :=
  let x := fld b 16 2
  let t := s.xfer x
  let data := (b.drop 32).take (fld b 6 2)
  if x / 32 ≠ c ∨ t.st ≠ 1 ∨ t.get then some s
  else if fld b 20 8 ≠ t.done then some (s.endXfer x .seq)
  else if t.length < t.done + data.length ∨ (data.length % 64 ≠ 0 ∧ t.done + data.length ≠ t.length) then some (s.endXfer x .range)
  else if !s.dieIn t.die then some (s.endXfer x .uncorr)
  else match s.bpAlloc t.die c 2 with
    | (_, .error _) => none
    | (s, .ok a) =>
      let w := if ue then (s, HenEnd.fail .uncorr) else s.vaWrite t.die (s.collSlot t.die t.ctx) t.ctx (t.va + t.done) data
      let s := (w.1.bpFree t.die c a).1
      match w.2.collErr with
      | some e => some (s.endXfer x e)
      | none =>
        let s := s.modXfer x fun t => { t with done := t.done + data.length }
        some (if (s.xfer x).done = t.length then s.endXfer x .ok else s)

/-- DATA_SEGMENT (R374, R378 to R384, R386). -/
def execDataSegment (k : EthPort) (q : SubPort) (f : RxSegment) (ue : Bool) (s : State) : Out :=
  match s.rxFront k q f 2 with
  | .error s => .next s
  | .ok (c, m) =>
    let b := f.seg
    let d := (fld b 8 4 + 2 ^ 32 - (s.sess c).expPsn) % 2 ^ 32
    if (s.sess c).st ≠ 1 ∨ macOk (s.sess c).key b = false then .next (s.badMac k)
    else if d ≠ 0 then .next (s.outOfOrder c d)
    else match s.putData c b ue with
      | none => .next (s.ethDiscard k 8)
      | some t => .next ((t.heard k q c f m).accepted c b)

/-- What ACK_SEGMENT and NAK_SEGMENT share. -/
def State.ackSeg (s : State) (k q : Nat) (f : RxSegment) (type : Nat) (run : State → Nat → State) : Out :=
  match s.rxFront k q f type with
  | .error s => .next s
  | .ok (c, m) =>
    if (s.sess c).st ≠ 1 ∨ macOk (s.sess c).key f.seg = false then .next (s.badMac k)
    else .next (run ((s.heard k q c f m).ackTo c (fld f.seg 12 4)) c)

/-- ACK_SEGMENT (R380). -/
def execAckSegment (k : EthPort) (q : SubPort) (f : RxSegment) (s : State) : Out := s.ackSeg k q f 3 fun s _ => s

/-- NAK_SEGMENT (R380): the sender resends in order from ACK_PSN + 1. -/
def execNakSegment (k : EthPort) (q : SubPort) (f : RxSegment) (s : State) : Out := s.ackSeg k q f 4 State.resend

/-- TRANSPORT_ACK_TIMER (R380): 8 µs after the first unacknowledged segment. -/
def execTransportAckTimer (c : Ctrl) (s : State) : Out :=
  let x := s.sess c
  if x.st = 1 ∧ 0 < x.toAck ∧ x.ackFrom + 8000 ≤ s.aonNs then .next (s.sendAck c 3) else .next s

/-- XPORT_RTO_EXPIRY (R380): segments are resent; after 32 timeouts in succession the session is LOST. -/
def execXportRtoExpiry (c : Ctrl) (s : State) : Out :=
  let x := s.sess c
  if x.st ≠ 1 ∨ x.unacked = [] ∨ s.aonNs < x.lastAdv + s.xp.rto * 1000 then .next s
  else
    let s := s.modSess c fun x => { x with timeouts := x.timeouts + 1, lastAdv := s.aonNs }
    if 32 ≤ x.timeouts + 1 then .next ((s.endSession c 2).raise 23 0x20 3 .aborted [BitVec.ofNat 8 c.val])
    else .next (s.resend c)

/-- XFER_DONE_SEND (R381): DONE with the transfer's status. -/
def execXferDoneSend (x : Fin 256) (s : State) : Out :=
  let t := s.xfer x
  if !t.doneDue then .next s
  else .next ((s.modXfer x fun t => { t with doneDue := false }).queueSeg (x.val / 32) { type := 5, xfer := x, status := t.code.code })

/-- GET_DATA_SEND (R381): the next bytes of a GET. `ue` an uncorrectable error met in memory. -/
def execGetDataSend (x : Fin 256) (ue : Bool) (s : State) : Out :=
  let t := s.xfer x
  let c := x.val / 32
  let n := min (if (s.eth (s.outSub (s.sess c) % 16)).jumbo then 8192 else 1024) (t.length - t.done)
  if t.st ≠ 1 ∨ t.get = false ∨ (s.sess c).st ≠ 1 then .next s
  else if !s.dieIn t.die then .next (s.endXfer x .uncorr)
  else
    let r := if ue then (s, HenEnd.fail .uncorr, []) else s.vaRead t.die (s.collSlot t.die t.ctx) (t.va + t.done) n
    match r.2.1.collErr with
    | some e => .next (r.1.endXfer x e)
    | none =>
      let s := r.1.queueSeg c { type := 2, xfer := x, offset := t.done, payload := r.2.2, pcp := t.pcp }
      let s := s.modXfer x fun t => { t with done := t.done + n }
      .next (if t.done + n = t.length then s.endXfer x .ok else s)

/-- The transfer id XFER_OPEN gives controller c: the lowest not open. -/
def State.freeXfer (s : State) (c : Nat) : Option Nat :=
  ((List.range 32).map (32 * c + ·)).find? fun x => decide ((s.xfer x).st ≠ 1) && !(s.xfer x).doneDue

/-- XFER_OPEN (R381, R393). -/
def execXferOpen (src : Src) (ctx die dir pcp va len : Nat) (s : State) : Out :=
  let c := src.ctrl.val
  .next (s.ownCommand src 0x0903 ctx
    [(decide (len = 0 ∨ 2 ^ 40 < len ∨ 16 ≤ die) || !s.dieIn die, .range), (decide (va % 64 ≠ 0 ∨ len % 4 ≠ 0), .align),
     (decide (1 < dir ∨ 7 < pcp), .badarg), (((s.cd die).tr.slotOf ctx).isNone, .pagefault), ((s.freeXfer c).isNone, .quota)]
    fun s =>
      let x := (s.freeXfer c).getD 0
      (s.modXfer x fun _ => { st := 1, get := decide (dir = 1), ctx := ctx, die := die, pcp := pcp, va := va, length := len, opened := s.now }).reply
        src 0x0903 .ok (leBytes 2 x))

/-- A transfer record (R395). -/
def Xfer.bytes (t : Xfer) : List Byte :=
  [BitVec.ofNat 8 t.st, BitVec.ofNat 8 (b2n t.get)] ++ leBytes 2 t.ctx ++ [BitVec.ofNat 8 t.die, BitVec.ofNat 8 t.pcp] ++
  leBytes 2 t.code.code ++ leBytes 8 t.va ++ leBytes 8 t.length ++ leBytes 8 t.done ++ leBytes 8 t.opened ++ leBytes 8 t.ended ++ leBytes 16 0

/-- The checks of XFER_STATUS and XFER_CANCEL on an id (R393). -/
def State.xferChecks (s : State) (src : Src) (x : Nat) : List (Bool × Err) :=
  [(!s.svc.hdIn || decide (255 < x), .range), (decide (x / 32 ≠ src.ctrl.val), .denied)]

/-- XFER_STATUS (R393). -/
def execXferStatus (src : Src) (x : Nat) (s : State) : Out :=
  .next (s.command src 0x0904 true true (s.xferChecks src x) fun s => s.reply src 0x0904 .ok (s.xfer x).bytes)

/-- XFER_CANCEL (R382, R393). -/
def execXferCancel (src : Src) (x : Nat) (s : State) : Out :=
  .next (s.command src 0x0905 true true (s.xferChecks src x ++ [(decide ((s.xfer x).st ≠ 1), .seq)]) fun s =>
    (s.endXfer x .aborted).reply src 0x0905 .ok (leBytes 8 (s.xfer x).done))

end Sys2Proof.Machine
end

