-- ==== Sys2Proof/Machine/Flash.lean ====
section
/-! DEFINITION. The SPI NOR flash: its layout, the slots of the configuration store and their records, factory blocks, boot bundles, the
directory (R458, R459, R461 to R465, R469 to R472, R474). -/

namespace Sys2Proof.Machine

/-- `n` bytes of flash from `a`; the memory holds the complement, so that an erased byte reads 0xFF. -/
def State.flashN (s : State) (a n : Nat) : List Byte := (Mem.readN s.flash a n).map fun b => ~~~b

/-- Erase a range. -/
def State.flashErase (s : State) (a n : Nat) : State := { s with flash := s.flash.filter fun e => decide (e.1 < a ∨ a + n ≤ e.1) }

/-- Program bytes: a bit programmed to 0 stays 0 until it is erased. -/
def State.flashProg (s : State) (a : Nat) (bs : List Byte) : State :=
  { s with flash := Mem.writeN s.flash a (((Mem.readN s.flash a bs.length).zip bs).map fun p => p.1 ||| ~~~p.2) }

/-- K_STORE and K_TRIM (R459). -/
def kStore : List Byte := hmac Config.deviceSecret [0x4F, 0x4E, 0x4B, 0x2D, 0x53, 0x54, 0x4F, 0x52, 0x45]
def kTrim : List Byte := hmac Config.deviceSecret [0x4F, 0x4E, 0x4B, 0x2D, 0x54, 0x52, 0x49, 0x4D]

/-- A record as stored (R470). -/
def CfgRec.bytes (r : CfgRec) : List Byte :=
  leBytes 2 r.type ++ leBytes 2 r.index ++ leBytes 4 r.data.length ++ padTo (8 * cdiv r.data.length 8) r.data

/-- The order of records (R470). -/
def CfgRec.key (r : CfgRec) : Nat := 65536 * r.type + r.index

/-- Put a record into an ordered list, in place of one with its TYPE and INDEX (R470, R473). -/
def recPut (l : List CfgRec) (r : CfgRec) : List CfgRec :=
  (l.filter fun o => decide (o.key < r.key)) ++ [r] ++ l.filter fun o => decide (r.key < o.key)

/-- A record's data. -/
def recData (l : List CfgRec) (type index : Nat) : Option (List Byte) :=
  (List.find? (fun r => r.type == type && r.index == index) l).map (·.data)

/-- Records of a record area (R470). -/
def parseRecs : Nat → List Byte → List CfgRec
  | 0, _ => []
  | n + 1, b =>
    let len := fld b 4 4
    { type := fld b 0 2, index := fld b 2 2, data := (b.drop 8).take len } :: parseRecs n (b.drop (8 + 8 * cdiv len 8))

/-- The repair records (R474). -/
def CfgRec.repair (r : CfgRec) : Bool := decide (0x10 ≤ r.type ∧ r.type ≤ 0x14)

/-- What a slot, or a half of the repair copy, holds (R469, R472, R474): `res` its bytes 0x18 to 0x1F. -/
structure SlotImg where
  empty : Bool := true
  valid : Bool := false
  seq : Nat := 0
  res : Nat := 0
  digest : List Byte := []
  recs : List CfgRec := []
  deriving DecidableEq, Repr, Inhabited

def slotMagic : Nat := 0x43464753
def repairMagic : Nat := 0x52505243

/-- Flash addresses of the configuration slots and of the repair halves (R458). -/
def slotAt (i : Nat) : Nat := 0x20000 + 0x40000 * i
def halfAt (i : Nat) : Nat := 0xC0000 + 0x20000 * i

/-- The header of a slot up to its DIGEST (R469). -/
def slotHead (magic seq res : Nat) (recs : List CfgRec) : List Byte :=
  let area := recs.flatMap CfgRec.bytes
  leBytes 4 magic ++ leBytes 2 1 ++ leBytes 2 0 ++ leBytes 8 seq ++ leBytes 4 area.length ++ leBytes 4 recs.length ++ leBytes 8 res

/-- DIGEST of a slot (R469). -/
def slotDigest (magic seq res : Nat) (recs : List CfgRec) : List Byte :=
  hmac kStore (slotHead magic seq res recs ++ recs.flatMap CfgRec.bytes)

/-- Read and verify a slot or half (R469, R472); nothing verifies without the PUF secret (R460). -/
def State.readSlot (s : State) (base magic room : Nat) : SlotImg :=
  let h := s.flashN base 64
  if h.all fun b => b == 0xFF then {}
  else
    let len := fld h 0x10 4
    let area := s.flashN (base + 0x1000) (min len room)
    { empty := false, seq := fld h 8 8, res := fld h 0x18 8, digest := (h.drop 32).take 32, recs := parseRecs (fld h 0x14 4) area,
      valid := s.sec.pufOk && decide (fld h 0 4 = magic ∧ fld h 4 2 = 1 ∧ len ≤ room) &&
        decide (hmac kStore (h.take 32 ++ area) = (h.drop 32).take 32) }

def State.slot (s : State) (i : Nat) : SlotImg := s.readSlot (slotAt i) slotMagic 0x3F000
def State.half (s : State) (i : Nat) : SlotImg := s.readSlot (halfAt i) repairMagic 0x1F000

/-- Erase a slot or half and program it (R473, R474); when the read-back will fail, what is programmed does not verify (log entry 47). -/
def State.writeSlot (s : State) (base size magic seq res : Nat) (recs : List CfgRec) (ok : Bool) : State :=
  let s := (s.flashErase base size).flashProg (base + 0x1000) (recs.flatMap CfgRec.bytes)
  let digest := if ok then slotDigest magic seq res recs else List.replicate 32 0
  s.flashProg base (slotHead magic seq res recs ++ digest)

/-- The choice between two copies (R472, R474): the valid one with the higher SEQ, the first when they are equal. -/
def pickSlot (a b : SlotImg) : Option Nat :=
  if a.valid && b.valid then some (if a.seq < b.seq then 1 else 0) else if a.valid then some 0 else if b.valid then some 1 else none

/-- Whether a factory block verifies (R461, R462). -/
def State.factoryOk (s : State) (i : Nat) : Bool :=
  let b := s.flashN (0xA0000 + 0x10000 * i) 0x16B0
  s.sec.pufOk && decide (fld b 0 4 = 0x46414354) && decide (hmac kTrim (b.take 0x1690) = b.drop 0x1690)

/-- The factory block in use: A before B. -/
def State.factory (s : State) : List Byte := s.flashN (if s.cfg.facA then 0xA0000 else 0xB0000) 0x16B0

/-- Firmware slot i, 15 MiB (R458). -/
def fwAt (i : Nat) : Nat := 0x100000 + 0xF00000 * i
def fwSize : Nat := 0xF00000

/-- A component of a bundle (R463). -/
structure FwComp where
  type : Nat
  offset : Nat
  length : Nat
  digest : List Byte
  deriving DecidableEq, Repr

/-- The component directory of a bundle header. -/
def fwComps (h : List Byte) : List FwComp :=
  (List.range (min 8 (fld h 0x14 4))).map fun i =>
    let e := h.drop (0x20 + 48 * i)
    { type := fld e 0 2, offset := fld e 4 4, length := fld e 8 4, digest := (e.drop 16).take 32 }

/-- The largest length of a component of a type; the routine library has exactly its own (R463). -/
def FwComp.lenOk (c : FwComp) : Bool :=
  match c.type with
  | 1 => decide (c.length ≤ 0x100000)
  | 2 => decide (c.length ≤ 0x800000)
  | 3 => decide (c.length = 0x400000)
  | _ => false

/-- The checks of R464 on firmware slot i, in order. -/
def State.bundleErr (s : State) (i : Nat) : Err :=
  let h := s.flashN (fwAt i) 0x800
  let len := fld h 0x10 4
  let n := fld h 0x14 4
  let cs := fwComps h
  let one (t : Nat) : Bool := (cs.filter fun c => c.type == t).length == 1
  let key := (h.drop 0x1A0).take 388
  (firstErr [
    (decide (fld h 0 4 ≠ 0x5A465742 ∨ fld h 4 2 ≠ 1 ∨ fwSize < len ∨ n = 0 ∨ 8 < n) ||
      cs.any (fun c => !c.lenOk || decide (c.offset < 0x800 ∨ len < c.offset + c.length)) || !(one 1 && one 2 && one 3), .badarg),
    (decide (3 < fld h 6 1 ∨ sha256 key ≠ Config.releaseHash (fld h 6 1)), .sig),
    (bit s.sec.revoked (fld h 6 1), .denied),
    (!rsaVerify key (h.take 0x400) ((h.drop 0x400).take 384), .sig),
    (decide (fld h 0xC 4 < s.sec.svnMin), .denied)]).getD
    (if cs.any fun c => decide (sha256 (s.flashN (fwAt i + c.offset) c.length) ≠ c.digest) then .checksum else .ok)

/-- The component of a type of the bundle in slot i. -/
def State.fwComp (s : State) (i type : Nat) : FwComp :=
  ((fwComps (s.flashN (fwAt i) 0x800)).find? fun c => c.type == type).getD { type := type, offset := 0, length := 0, digest := [] }

/-- The flash directory (R465). -/
structure FwDir where
  dseq : Nat := 0
  preferred : Nat := 0
  tries : Nat := 0
  confirmed : Nat := 0
  deriving DecidableEq, Repr, Inhabited

def FwDir.bytes (d : FwDir) : List Byte :=
  let b := leBytes 4 0x44495243 ++ leBytes 4 d.dseq ++
    [BitVec.ofNat 8 d.preferred, BitVec.ofNat 8 d.tries, BitVec.ofNat 8 d.confirmed] ++ leBytes 49 0
  b ++ leBytes 4 (crc32 b)

/-- A valid copy of the directory. -/
def State.dirCopy (s : State) (i : Nat) : Option FwDir :=
  let b := s.flashN (0x10000 * i) 64
  if fld b 0 4 = 0x44495243 ∧ fld b 60 4 = crc32 (b.take 60) then
    some { dseq := fld b 4 4, preferred := fld b 8 1 % 2, tries := fld b 9 1 % 4, confirmed := fld b 10 1 % 4 }
  else none

/-- The copy in use: the valid one with the higher DSEQ, copy 0 when they are equal (R465). -/
def State.dirUse (s : State) : Option Nat :=
  match s.dirCopy 0, s.dirCopy 1 with
  | some a, some b => some (if a.dseq < b.dseq then 1 else 0)
  | some _, none => some 0
  | none, some _ => some 1
  | none, none => none

/-- The directory in force; with no valid copy slot 0 is preferred and taken as confirmed (log entry 48). -/
def State.dir (s : State) : FwDir :=
  match s.dirUse with
  | some i => (s.dirCopy i).getD {}
  | none => { confirmed := 1 }

/-- Rewrite the directory in the copy not in use (R465). -/
def State.writeDir (s : State) (d : FwDir) : State :=
  let i := match s.dirUse with
    | some 0 => 1
    | _ => 0
  (s.flashErase (0x10000 * i) 0x10000).flashProg (0x10000 * i) ({ d with dseq := s.dir.dseq + 1 }).bytes

end Sys2Proof.Machine
end

