-- ==== Sys2Proof/Machine/Die.lean ====
section
/-! DEFINITION. Dies leaving and joining service: what a reset clears, what a start takes from the configuration records (R33 to R36, R203,
R330, R337, R419, R423, R454, R467, R471). -/

namespace Sys2Proof.Machine

/-- A counter that a rate contributor reads returns to 0: its base of the hour moves with it (R435). -/
def Health.rebase (h : Health) (i n : Nat) : Health := { h with hourBase := Tab.modify 0 h.hourBase i (· - (n : Int)) }

/-- The records in use. -/
def State.recs (s : State) : List CfgRec := s.cfg.recs

/-- A word of a record, if it is present (R471). -/
def recWord (l : List CfgRec) (type index o n : Nat) : Option Nat := (recData l type index).map fun d => fld d o n

/-- A value of the TIMERS record of w bits; a written 0 is stored as `zero` (R471). -/
def recTimer (l : List CfgRec) (i w dflt low : Nat) : Nat :=
  match recWord l 0x0A 0 (8 * i) 8 with
  | some v => max low (v % 2 ^ w)
  | none => dflt

/-- CD_TILE_MAP as a record holds it (R18). -/
def TileMap.ofWord (v : Nat) : TileMap :=
  { lt0 := bits v 2 0, lt1 := bits v 5 3, lt2 := bits v 8 6, lt3 := bits v 11 9, ok := bits v 16 12 }

/-- A buffer pool manager from a POOLS record (log entry 49), its configuration applied (R226, R227). -/
def Bp.ofRecord (d : List Byte) : Bp :=
  let b := ({} : Bp).config (fld d 0 8) ((List.range 6).map fun p => fld d (8 + 8 * p) 8)
    ((List.range 96).map fun i => (fld d (56 + 8 * i) 3, fld d (59 + 8 * i) 3))
  match b.apply with
  | .ok a => a
  | .error _ => b

/-- Repaired rows of an HBM record (log entry 49): pseudo-channel, bank, kind, row. -/
def repairRows (d : List Byte) : List Repair :=
  (entriesOf 8 ((d.length - 256) / 8) (d.drop 256)).map fun e => { pc := fld e 0 1, bank := fld e 1 1, kind := fld e 2 1, row := fld e 4 4 }

/-- Spare pseudo-channels a map uses (R203). -/
def sparesOf (base : Nat) (phys : List Nat) : Nat := phys.foldl (fun a p => if base ≤ p ∧ p ≠ 0x7FF then max a (p + 1 - base) else a) 0

/-- The map entries that differ from their index. -/
def mapTab (n : Nat) (phys : Nat → Nat) : Tab Nat := ((List.range n).map fun i => (i, phys i)).filter fun e => e.1 ≠ e.2

/-- A repaired row at a start (R202): a soft repair becomes hard, of 2 in a bank; with none left it stays soft. -/
def Hbm.startRow (h : Hbm) (r : Repair) : Hbm :=
  let full := decide (2 ≤ (h.repairs.filter fun e => e.pc == r.pc && e.bank == r.bank && e.kind == 2).length)
  if r.kind ≠ 2 ∧ full then { h with softRepairs := h.softRepairs + 1, repairs := h.repairs ++ [{ r with kind := 1 }] }
  else { h with hardRepairs := h.hardRepairs + 1, repairs := h.repairs ++ [{ r with kind := 2 }] }

/-- Compute die n at its start (R16, R112, R467, R471): its maps, widths, timers and pools from the records, its stack trained. -/
def ComputeDie.start (l : List CfgRec) (n now : Nat) : ComputeDie :=
  let limit := recTimer l 6 16 3 0
  let tile (p : Nat) : Tile :=
    let a : ArrayU := { misLimit := limit, evFrom := some now }
    { arr := match recData l 0x10 (5 * n + p) with
        | some d => ({ a with badA := BitVec.ofNat 64 (fld d 0 8), badB := BitVec.ofNat 64 (fld d 8 8), badC := fld d 16 1 % 16 }).remap
        | none => a }
  let hbm : Hbm := match recData l 0x12 n with
    | some d =>
      let phys (i : Nat) : Nat := fld d (8 * i) 8 % 64
      let h : Hbm := { ready := true, pcMap := mapTab 32 phys, sparesUsed := sparesOf 32 ((List.range 32).map phys) }
      (repairRows d).foldl Hbm.startRow h
    | none => { ready := true }
  ({ tiles := (List.range 5).map fun p => (p, tile p),
     map := match recWord l 0x11 n 0 8 with
       | some v => .ofWord v
       | none => {},
     hen := { timeout := recTimer l 0 24 0x64 1 },
     hbm := hbm,
     bp := match recData l 9 n with
       | some d => .ofRecord d
       | none => {} } : ComputeDie).reWidth

/-- The hub's memory unit at its start (R246, R249). -/
def HubMem.start (l : List CfgRec) : HubMem :=
  let limit := recTimer l 5 16 0x40 0
  match recData l 0x13 0 with
  | some d =>
    let phys (i : Nat) : Nat := fld d (2 * i) 2 % 2 ^ 11
    { map := mapTab 1024 phys, ceLimit := limit, sparesUsed := sparesOf 1024 ((List.range 1024).map phys),
      removed := ((List.range 1024).filter fun i => phys i = 0x7FF).length }
  | none => { ceLimit := limit }

/-- The Ox units a record retires (R284, R285): the first retired of a group gives its logical number to the spare. -/
def oxUnitsOf (d : List Byte) : Tab OxUnit :=
  let gone := (List.range 272).filter fun p => bit (fld d 0 34) p
  gone.foldl (fun (t : Tab OxUnit) p =>
    let sp := 17 * (p / 17) + 16
    let t := Tab.modify {} t p fun u => { u with retired := true }
    if p ≠ sp ∧ (Tab.get {} t sp).takes = none then Tab.modify {} t sp fun u => { u with takes := some (p % 17) } else t) []

/-- The hub starts (R34, R329, R467, R471): its registers from the records, the outputs of dies in service up, both versions EMPTY. -/
def State.startHub (s : State) : State :=
  let l := s.recs
  let hub : Hub := { up := true }
  let hub := match recData l 8 0 with
    | some d => { hub with reqRows := bits (fld d 0 8) 10 0, redRows := bits (fld d 0 8) 21 11, alpha := fld d 8 8 % 2 ^ 16, share := fld d 16 8 % 4 }
    | none => hub
  let m := HubMem.start l
  let units := match recData l 0x14 0 with
    | some d => oxUnitsOf d
    | none => []
  let s := { s with hub := hub, hubm := m, rt := {},
                    ox := { node := (recWord l 1 0 0 4).getD 0, cool := recTimer l 1 24 10000 1, units := units, linesRemoved := m.removed * hub.redRows } }
  let ups := (List.range 36).filter (fun i => (s.link i).st = .up) ++ ((List.range 16).filter fun n => s.dieIn n).map (36 + ·) ++
    (if s.svc.hdIn then [52] else [])
  ups.foldl State.outputUp s

/-- A link at the start of its die (R318, R339, R471). -/
def Link.start (l : List CfgRec) (i : Nat) : Link :=
  let on := bit ((recWord l 6 0 0 8).getD (2 ^ 36 - 1)) i
  { enable := on, st := if on then .training else .disabled, wantBoard := decide (30 ≤ i) && bit ((recWord l 6 0 8 8).getD 0) i,
    retrainDelay := max 1 ((recWord l 6 0 16 4).getD 0x3E8 % 2 ^ 16), laneLimit := recTimer l 4 32 0xF4240 0 }

/-- Link die m starts: its enabled links train. -/
def State.startLd (s : State) (m : Nat) : State :=
  (List.range 6).foldl (fun s i => (s.modLink (6 * m + i) fun _ => Link.start s.recs (6 * m + i)).modLx (6 * m + i) fun _ => {}) s

/-- An enrolment entry from a record (R396). -/
def Enrol.ofBytes (d : List Byte) : Enrol :=
  { hash := d.take 32, st := fld d 32 1, admin := bit (fld d 33 1) 0, oob := bit (fld d 33 1) 1, primary := fld d 34 1, backup := fld d 35 1,
    pcp := fld d 36 1, sev := fld d 37 1, count := fld d 40 8, time := fld d 48 8 }

/-- The enrolment table the records hold. -/
def enrolOf (l : List CfgRec) : Tab Enrol := (l.filter fun r => r.type == 4).map fun r => (r.index, Enrol.ofBytes r.data)

/-- The mailbox engine and the transport at the start of the host die (R380, R395, R419, R421, R471). -/
def Mbx.start (l : List CfgRec) : Mbx := { watchdog := recTimer l 3 16 0x7D0 1, enrol := enrolOf l }
def Xport.start (l : List CfgRec) (lost : List Nat) : Xport :=
  { rto := recTimer l 2 16 0x64 1, sess := lost.map fun c => (c, { st := 2 }) }

/-- An Ethernet port at its start (R394, R471). -/
def Eth.start (l : List CfgRec) (k : Nat) : Eth :=
  match recData l 7 k with
  | some d =>
    let pfc := fld d 17 8
    { mode := fld d 0 1 % 4, jumbo := bit (fld d 1 8) 1, txTag := bit (fld d 1 8) 2, mac := fld d 9 8 % 2 ^ 48,
      lossless := bits pfc 7 0, xoff := bits pfc 23 8, xon := bits pfc 39 24,
      addrs := ((List.range 4).map fun i => (i, subAddrOf ((d.drop (25 + 64 * i)).take 64))).filter fun e => decide (e.2 ≠ ({} : SubAddr)) }
  | none => {}

/-- The host die starts (R419, R448, R467, R471, R481): M2 takes the control firmware's digest, and the Goose reports how long the log was
away. -/
def State.startHd (s : State) : State :=
  let l := s.recs
  let s := { s with eths := ((List.range 8).map fun k => (k, Eth.start l k)).filter fun e => decide (e.2 ≠ ({} : Eth)),
                    mbx := { s.mbx with watchdog := recTimer l 3 16 0x7D0 1 }, xp := { s.xp with rto := recTimer l 2 16 0x64 1 } }
  let s := (if s.hub.up then s.outputUp 52 else s).extend 2 s.boot.control
  let s := { s with svc := { s.svc with hdIn := true } }
  match s.mirror.downFrom with
  | some t => ({ s with mirror := { s.mirror with downFrom := none } }).raise 24 0x01 4 .ok (leBytes 8 ((s.aonNs - t) / 1000000))
  | none => s

/-- Compute die n starts, with the routine library in its store (R168, R466); it is in service when it has a working tile (R34). -/
def State.startCd (s : State) (n : Nat) : State :=
  let c := s.cd n
  let s := { s with cds := Tab.put s.cds n { ComputeDie.start s.recs n s.aonNs with level := c.level, episode := c.episode } }
  let s := if s.boot.library = [] then s else s.storePut n s.boot.library
  let s : State := (List.range 5).foldl (fun (s : State) p => s.subsForColumns n p) s
  if s.hub.up ∧ 0 < (s.cd n).map.count then s.outputUp (36 + n) else s

/-- Whether compute die n offers a working tile (R17, R34). -/
def State.cdFit (s : State) (n : Nat) : Bool := decide (0 < (s.cd n).map.count)

/-- The launch of a context ends with a code, from die d (R35, R363, R454). -/
def State.launchFail (s : State) (x : Nat) (code : Err) (d unit : Nat) : State :=
  match s.liveRec? x with
  | some r => s.endPeriod r code d unit
  | none => ((s.haltLaunch x code).setCtx x .halted code d).launchEnd x

/-- Contexts whose launch is ARMED, RUNNING or STOPPING with a program on die n. -/
def State.liveOn (s : State) (n : Nat) : List Nat :=
  (s.ctx.tab.filter fun e => e.2.st.live && bit (((s.cxx e.1).prog.getD {}).dies) n).map (·.1)

/-- HBM_STATUS (R204): SPARES reads 0 until the stack is trained. -/
def Hbm.status (h : Hbm) : Nat :=
  b2n h.ready + 2 * b2n h.fastRef + 4 * (if h.ready then 2 - h.sparesUsed else 0) + 16 * b2n h.migrating + 32 * b2n h.repairing.isSome

/-- HUB_MEM_STATUS (R249). -/
def HubMem.status (m : HubMem) : Nat :=
  (32 - m.sparesUsed) + 64 * b2n m.migrating.isSome + 128 * (m.migrating.getD (0, 0)).1 + 2 ^ 17 * m.removed

/-- Whether group g's spare carries a logical unit, and whether the group offers fewer than 16 units (R284, R285, R287). -/
def Ox.spareUsed (u : Ox) (g : Nat) : Bool := (Tab.get {} u.units (17 * g + 16) : OxUnit).takes.isSome
def State.oxDegraded (s : State) (g : Nat) : Bool := decide ((s.oxGroup g).length < 16)

/-- OX_STATUS (R287). -/
def State.oxStatus (s : State) : Nat :=
  (List.range 16).foldl (fun a g => a + 2 ^ g * b2n (decide ((Tab.get {} s.ox.sleeps g : SleepU).st = .running)) +
    2 ^ (16 + g) * b2n (s.ox.spareUsed g) + 2 ^ (32 + g) * b2n (s.oxDegraded g)) 0

/-- CD_ARRAY_WIDTH (R113). -/
def ComputeDie.widthWord (c : ComputeDie) : Nat := c.width + 256 * c.narrow

/-- The words of DEV_CAPS that a die holds (R428). -/
def State.capsNow (s : State) (d : Nat) : List Nat :=
  if d < 16 then [(s.cd d).map.word, (s.cd d).widthWord, (s.cd d).hbm.status]
  else if d = 16 then [s.hubm.status, s.oxStatus]
  else if d < 23 then (List.range 6).flatMap fun i => [(s.link (6 * (d - 17) + i)).reg 0, (s.link (6 * (d - 17) + i)).reg 4]
  else []

/-- What a reset of compute die n clears (R454): its registers, the contents of its stack, the saves kept there; the insertion level that the
Goose holds stays (R497, R505), and the lifetime total of corrected errors takes its count (R449). -/
def State.clearCd (s : State) (n : Nat) : State :=
  let ce := (s.cd n).hbm.ce
  let kept : ComputeDie := { level := (s.cd n).level, episode := (s.cd n).episode }
  let s := { s with cds := Tab.set {} s.cds n kept, hbm := s.hbm.filter fun e => decide (e.1 / 2 ^ 37 ≠ n),
                    poison := s.poison.filter fun e => decide (e.1 / 2 ^ 31 ≠ n),
                    ledger := { s.ledger with totals := Tab.modify 0 s.ledger.totals 20 (· + ce) }, health := s.health.rebase n ce,
                    ctx := { s.ctx with x := Tab.remap {} (fun _ v => { v with saves := v.saves.filter fun w => decide (w.die ≠ n) }) s.ctx.x } }
  s.settle

/-- A compute die is reset: launches using it end with E_INTERNAL (R454), its hub output goes. -/
def State.downCd (s : State) (n : Nat) : State :=
  (((s.liveOn n).foldl (fun s x => s.launchFail x .internal n 0) s).outputDown (36 + n)).clearCd n

/-- A link drops because its die, or the hub, is reset (R321, R337): RESET goes out when the reset was commanded. -/
def State.linkReset (s : State) (l : Nat) (say : Bool) : State :=
  let s := if say ∧ (s.link l).st = .up then s.emit (.flit l (s.lx l).nextSeq [.ctl (s.ctlCell l { reset := true })]) else s
  s.linkDown l 3 .down false

/-- Link die m is reset. -/
def State.downLd (s : State) (m : Nat) (say : Bool) : State :=
  let s := (List.range 6).foldl (fun s i => s.linkReset (6 * m + i) say) s
  let mine (k : Nat) : Bool := decide (k / 6 = m)
  let replays := ((List.range 6).map fun i => (s.link (6 * m + i)).replays).sum
  { s with health := s.health.rebase 16 replays, links := s.links.filter fun e => !mine e.1, linkx := s.linkx.filter fun e => !mine e.1 }

/-- What a reset of the hub clears: its memories and units, both routing versions, the bindings (R337). -/
def State.clearHub (s : State) : State :=
  { s with hub := {}, ox := {}, rt := {}, hubm := {}, health := s.health.rebase 17 s.hubm.ce,
           ledger := { s.ledger with totals := Tab.modify 0 s.ledger.totals 36 (· + s.hubm.ce) } }

def State.downHub (s : State) (say : Bool) : State := ((List.range 36).foldl (fun s l => s.linkReset l say) s).clearHub

/-- A tile when the host die's core is reset (R419): a running Mule halts with E_INTERNAL, its context is gone. -/
def Tile.hdReset (t : Tile) : Tile :=
  if t.mem.ctx.isNone then t
  else
    let m := t.mule.halt .internal 4 0x1F 0 0
    let e := t.ctxEnd
    if t.mule.st.active then
      { e with mule := { e.mule with st := .haltFault, faultCode := m.faultCode, faultSource := m.faultSource, faultUnit := m.faultUnit,
                                     faultTag := m.faultTag, faultPc := m.faultPc, faultLrc := m.faultLrc } }
    else e

/-- Context x goes with the host die's core (R419): its units, bindings, slots, buffers and schedule. -/
def State.ctxLost (s : State) (x : Nat) : State :=
  let s := s.remapTiles fun _ _ t => if t.mem.ctx = some x then t.hdReset else t
  (((s.ctxUnitsEnd x).collEndCtx x).unbindSlots x |>.freeBuffers x).schedDrop x

/-- The host die's core is reset (R419): launches and contexts end, sessions are LOST, the mailbox engine, the transport, the log and the
sequencer return to their reset values (log entry 50), enrolment to the store's. HBM, fabric time and the mirror stay. -/
def State.downHd (s : State) : State :=
  let ends := (s.ctx.tab.map (·.1)).foldl State.ctxLost s
  let s := { ends with out := s.out, log := {}, eths := [] }
  let lost := (List.range 8).filter fun c => (s.sess c).st = 1 ∨ (s.sess c).st = 2
  let gone := (s.mirror.queue.filter fun e => decide (fld e 12 4 ≠ 0xFFFFFFFF)).length
  let s := s.outputDown 52
  { s with
    ctx := {}, sq := {}, dis := [], mbx := Mbx.start s.recs, xp := Xport.start s.recs lost,
    ox := { s.ox with reserved := 0 }, hub := { s.hub with queues := Tab.remap {} (fun _ q => { q with rsv := 0 }) s.hub.queues },
    cfg := { s.cfg with staged := [], queue := s.cfg.queue.map fun c => { c with src := none } },
    pwr := { s.pwr with moving := s.pwr.moving.map fun m => (m.1, none) },
    mirror := { s.mirror with queue := s.mirror.queue.filter fun e => decide (fld e 12 4 = 0xFFFFFFFF), lost := sat 32 (s.mirror.lost + gone),
                              downFrom := some (s.mirror.downFrom.getD s.aonNs) },
    sec := { s.sec with meas := Tab.del (Tab.del s.sec.meas 2) 7, ext := Tab.del (Tab.del s.sec.ext 2) 7, claimSession := false } }

/-- KD_SERVICE with a die's bit set to a value. -/
def Service.setDie (v : Service) (d : Nat) (on : Bool) : Service :=
  if d < 16 then { v with cdIn := setBit v.cdIn d on }
  else if d = 16 then { v with hubIn := on }
  else if d < 23 then { v with ldIn := setBit v.ldIn (d - 17) on }
  else { v with hdIn := on }

/-- The Goose confirms the running firmware slot when LEVEL first reaches 2 (R465). -/
def State.confirm (s : State) : State :=
  if s.boot.confirmed ∨ s.svc.level < 2 then s
  else
    let s := { s with boot := { s.boot with confirmed := true } }
    s.writeDir { s.dir with confirmed := setBit s.dir.confirmed s.boot.fwSlot true }

/-- A die leaves service and is cleared (R36, R428, R454). -/
def State.dieDown (s : State) (d : Nat) (say : Bool) : State :=
  let s := s.modDie d fun u => { u with caps := s.capsNow d }
  if d < 16 then s.downCd d else if d = 16 then s.downHub say else if d < 23 then s.downLd (d - 17) say else s.downHd

/-- A die starts; a compute die without a working tile stays out of service. -/
def State.dieUp (s : State) (d : Nat) : State :=
  if d < 16 then s.startCd d else if d = 16 then s.startHub else if d < 23 then s.startLd (d - 17) else s.startHd

/-- The Goose resets die d (R36, R419, R454): logged at severity 4; a reset that no controller commanded counts for the health score. -/
def State.resetDie (s : State) (d : Nat) (byCtrl : Bool) : State :=
  let s := s.dieDown d byCtrl
  let s := s.modDie d fun u => { u with resetting := true }
  (s.service (s.svc.setDie d false) .internal).raise 24 0x00 4 .internal [BitVec.ofNat 8 d] 0xFFFF (if byCtrl then none else some 19)

/-- DIE_RESET (R36, R337, R454). -/
def execDieReset (d : DieId) (byCtrl : Bool) (s : State) : Out :=
  if d.val = 24 ∨ (s.dieU d).resetting = true ∨ s.pwr.dark = true then .next s else .next (s.resetDie d byCtrl)

/-- MBX_WATCHDOG_EXPIRY (R419): the Goose resets the host die's core. -/
def execMbxWatchdogExpiry (s : State) : Out := if s.svc.hdIn then .next (s.resetDie 23 false) else .next s

/-- DIE_RESET_COMPLETE (R21, R35, R423, R448, R467): the die returns to service when it passed its tests and, a compute die, has a working
tile. -/
def execDieResetComplete (d : DieId) (passed : Bool) (s : State) : Out :=
  if !(s.dieU d).resetting then .next s
  else
    let s := s.modDie d fun u => { u with resetting := false, resets := u.resets + 1, resetTime := s.now, failed := !passed }
    if passed then
      let s := s.dieUp d
      .next (s.service (s.svc.setDie d (decide (16 ≤ d.val) || s.cdFit d)) .ok).confirm
    else .next (s.raise 24 0x00 4 .internal [BitVec.ofNat 8 d.val])

/-- OOB_LINK_CHANGE (R34, R35). -/
def execOobLinkChange (up : Bool) (s : State) : Out := .next (s.service { s.svc with oobLink := up } .uncorr)

end Sys2Proof.Machine
end

