-- ==== Sys2Proof/Machine/Cfg.lean ====
section
/-! DEFINITION. The configuration store's commits and commands, the owner, the claim window (R452, R471, R473, R474, R478 to R480, R484 to R487). -/

namespace Sys2Proof.Machine

/-- A map of `n` entries of `w` bytes. -/
def mapBytes (n w : Nat) (t : Tab Nat) : List Byte := (List.range n).flatMap fun i => leBytes w (Tab.get i t i)

/-- The repair records of compute die n as it stands (R471); empty ones only where a record exists already. -/
def ComputeDie.repairRecs (c : ComputeDie) (l : List CfgRec) (n : Nat) : List CfgRec :=
  let keep (r : CfgRec) (plain : Bool) : List CfgRec := if plain && (recData l r.type r.index).isNone then [] else [r]
  let cols := (List.range 5).flatMap fun p =>
    let a : ArrayU := (Tab.get {} c.tiles p : Tile).arr
    let v := a.badA.toNat + a.badB.toNat * 2 ^ 64 + a.badC * 2 ^ 128
    keep { type := 0x10, index := 5 * n + p, data := leBytes 17 v } (v == 0)
  let rows := c.hbm.repairs.flatMap fun r => [BitVec.ofNat 8 r.pc, BitVec.ofNat 8 r.bank, BitVec.ofNat 8 r.kind, 0] ++ leBytes 4 r.row
  cols ++ keep { type := 0x11, index := n, data := leBytes 8 c.map.word } (decide (c.map = {})) ++
    keep { type := 0x12, index := n, data := mapBytes 32 8 c.hbm.pcMap ++ rows } (decide (c.hbm.pcMap = [] ∧ c.hbm.repairs = []))

/-- The repair records of the hub as it stands (R471). -/
def State.hubRepairRecs (s : State) : List CfgRec :=
  let gone := s.ox.units.foldl (fun a u => if u.2.retired then a + 2 ^ u.1 else a) 0
  (if s.hubm.map = [] then [] else [{ type := 0x13, index := 0, data := mapBytes 1024 2 s.hubm.map }]) ++
  if gone = 0 then [] else [{ type := 0x14, index := 0, data := leBytes 34 gone }]

/-- The repair records that differ from the store's: a commit of them follows a repair (R442, R467, R473). -/
def State.repairDue (s : State) : List CfgRec :=
  let all := ((List.range 16).filter fun n => decide ((s.cd n).tiles ≠ [])).flatMap (fun n => (s.cd n).repairRecs s.recs n) ++
    (if s.hub.up then s.hubRepairRecs else [])
  all.filter fun r => decide (recData s.recs r.type r.index ≠ some r.data)

/-- A commit of the repairs found waits its turn. -/
def State.queueRepairs (s : State) : State := if s.repairDue = [] then s else s.queueCommit { recs := s.repairDue }

/-- LEDGER_SEQ of a half of the repair copy (R474); all ones before the first record of type 2. -/
def State.ledgerSeq (s : State) : Nat := if s.ledger.lastSub = 0 then 2 ^ 64 - 1 else s.ledger.lastSub - 1

/-- The repair copy after a commit (R474): the half not in use is written and verified; a failed read-back leaves the other in use. -/
def State.writeRepair (s : State) (ok : Bool) : State :=
  let i := match s.cfg.repairHalf with
    | some 0 => 1
    | _ => 0
  let s := s.writeSlot (halfAt i) 0x20000 repairMagic s.cfg.seq s.ledgerSeq (s.recs.filter CfgRec.repair) ok
  if ok then { s with cfg := { s.cfg with repairHalf := some i } } else s.raise 24 0x03 3 .cfgDigest

/-- The slot a commit writes: the one not in use (R473). -/
def Cfg.target (c : Cfg) : Nat := if !c.valid0 && !c.valid1 then 0 else 1 - c.inUse

/-- Steps 2 to 6 of R473 for the records of a commit: whether it succeeded. -/
def State.commitStore (s : State) (recs : List CfgRec) (ok repairOk : Bool) : State × Bool :=
  let all := recs.foldl recPut s.recs
  let seq := s.cfg.seq + 1
  let i := s.cfg.target
  let good := ok && s.sec.pufOk
  let s := s.writeSlot (slotAt i) 0x40000 slotMagic seq 0 all good
  let mark (c : Cfg) (b : Bool) : Cfg := if i = 0 then { c with valid0 := b } else { c with valid1 := b }
  if good then
    let s := { s with cfg := { mark s.cfg true with inUse := i, seq := seq, commits := s.cfg.commits + 1, recs := all } }
    let s := s.extend 4 (leBytes 8 seq ++ slotDigest slotMagic seq 0 all)
    let s := if recs.any CfgRec.repair then s.writeRepair (repairOk && s.sec.pufOk) else s
    (s, true)
  else ({ s with cfg := mark s.cfg false }, false)

/-- The owner a record names (R471, R478). -/
def Sec.owner (u : Sec) (d : List Byte) : Sec :=
  { u with owned := true, claimOpen := false, ownerKey := d.take 388, ownerCount := fld d 388 8 }

/-- The effects of a record marked "Commit" (R471), and the measurement of owner and enrolments (R481). -/
def State.recEffect (s : State) (r : CfgRec) : State :=
  match r.type with
  | 3 => { s with health := { s.health with domains := fld r.data 0 8 } }
  | 4 =>
    let e := Enrol.ofBytes r.data
    let s := { s with mbx := { s.mbx with enrol := Tab.set {} s.mbx.enrol r.index e } }.extend 6 (sha256 r.data)
    if e.st = 1 then (List.range 8).foldl (fun s m => s.modBox r.index m fun b => { b with e := 0 }) s else s
  | 5 => { s with sec := s.sec.owner r.data }.extend 6 (sha256 (r.data.take 388))
  | 0xB => { s with sec := { s.sec with svnMin := fld r.data 0 4, revoked := fld r.data 4 1 % 16 } }
  | _ => s

/-- Sessions of controllers whose entry a commit replaced end (R397, R480). -/
def State.replacedSessions (s : State) (recs : List CfgRec) : State :=
  (recs.filter fun r => r.type == 4).foldl (fun s r => s.endSession r.index 0) s

/-- The reply that a commit sends, if a command waits for it. -/
def State.commitReply (s : State) (c : Commit) (e : Err) (payload : List Byte) : State :=
  match c.src with
  | some src => s.reply src c.command e payload
  | none => s

/-- A commit runs (R473). -/
def State.runCommit (s : State) (c : Commit) (ok repairOk : Bool) : State :=
  if (c.expected.getD s.cfg.seq) ≠ s.cfg.seq then s.commitReply c .cfgSeq []
  else
    let r := s.commitStore c.recs ok repairOk
    if r.2 then
      let s := c.recs.foldl State.recEffect r.1
      let s := match c.src with
        | some src => if c.command = 0x0203 then { s with cfg := { s.cfg with staged := Tab.del s.cfg.staged src.ctrl } } else s
        | none => s
      let s := s.commitReply c .ok (if c.command = 0x0203 then leBytes 8 s.cfg.seq else c.reply)
      let s := s.replacedSessions c.recs
      let s := match c.src with
        | some src => if c.closes then s.endSession src.ctrl 0 else s
        | none => s
      if s.svc.flashIn then s else s.service { s.svc with flashIn := true } .ok
    else r.1.commitReply c .internal []

/-- CONFIG_COMMIT_RUN (R473, R474): the oldest queued commit. -/
def execConfigCommitRun (readbackOk repairOk : Bool) (s : State) : Out :=
  match s.cfg.queue with
  | [] => .next s
  | c :: rest => .next ({ s with cfg := { s.cfg with queue := rest } }.runCommit c readbackOk repairOk)

/-- CLAIM_WINDOW_CLOSE (R479): 1,800 s of always-on count. -/
def execClaimWindowClose (s : State) : Out :=
  if 1800000000000 ≤ s.aonNs then .next { s with sec := { s.sec with claimOpen := false } } else .next s

/-- The record types R471 defines. -/
def recTypes : List Nat := [1, 2, 3, 4, 5, 6, 7, 8, 9, 0xA, 0xB, 0x10, 0x11, 0x12, 0x13, 0x14]

/-- Records taken whole up to a number of bytes. -/
def takeRecs : Nat → List CfgRec → List Byte
  | _, [] => []
  | room, r :: rest => if r.bytes.length ≤ room then r.bytes ++ takeRecs (room - r.bytes.length) rest else []

/-- The records a controller has staged. -/
def State.staged (s : State) (c : Nat) : List CfgRec := Tab.get [] s.cfg.staged c

/-- CFG_READ (R484): the records of a TYPE from the first INDEX on. -/
def execCfgRead (src : Src) (source type first : Nat) (s : State) : Out :=
  let img : SlotImg := match source with
    | 0 => { valid := s.cfg.valid0 || s.cfg.valid1, seq := s.cfg.seq, recs := s.recs }
    | 1 => s.slot 0
    | 2 => s.slot 1
    | _ => { valid := true, seq := s.cfg.seq, recs := s.staged src.ctrl }
  .next (s.command src 0x0201 true true
    [(decide (3 < source), .badarg), (!recTypes.contains type, .range), (!img.valid, .cfgDigest)]
    fun s => s.reply src 0x0201 .ok (leBytes 8 img.seq ++
      takeRecs 4000 (img.recs.filter fun r => decide (r.type = type ∧ first ≤ r.index))))

/-- LEN of the records CFG_SET writes, and how many INDEX values they have (R471; the layout of POOLS by log entry 49). -/
def setLen (type : Nat) : Option (Nat × Nat) :=
  match type with
  | 1 => some (4, 1)
  | 2 => some (16, 1)
  | 3 => some (8, 1)
  | 6 => some (20, 1)
  | 7 => some (281, 8)
  | 8 => some (24, 1)
  | 9 => some (824, 16)
  | 0xA => some (64, 1)
  | _ => none

/-- Whether a record's contents are outside what the registers they set take (R230, R248, R339, R373). -/
def setBad (type : Nat) (d : List Byte) : Bool :=
  match type with
  | 6 => decide (2 ^ 36 ≤ fld d 0 8 ∨ 2 ^ 36 ≤ fld d 8 8 ∨ fld d 8 8 % 2 ^ 30 ≠ 0)
  | 7 => decide (3 < fld d 0 1)
  | 8 =>
    let req := bits (fld d 0 8) 10 0
    let red := bits (fld d 0 8) 21 11
    decide (1024 < red ∨ req < 128 ∨ 2048 < req + red + 128 ∨ fld d 16 8 % 4 = 3)
  | _ => false

/-- CFG_SET (R484). -/
def execCfgSet (src : Src) (type index : Nat) (data : List Byte) (len : Nat) (s : State) : Out :=
  let f := (setLen type).getD (0, 0)
  let new := recPut (s.staged src.ctrl) { type := type, index := index, data := data }
  let size := (new.flatMap CfgRec.bytes).length
  .next (s.command src 0x0202 (s.isAdmin src) true
    [((setLen type).isNone, .denied), (decide (len ≠ data.length ∨ len ≠ f.1) || setBad type data, .badarg), (decide (f.2 ≤ index), .range),
     (decide (65536 < size), .nomem)]
    fun s => { s with cfg := { s.cfg with staged := Tab.put s.cfg.staged src.ctrl new } }.reply src 0x0202 .ok (leBytes 4 size))

/-- CFG_COMMIT (R473, R484): the staged records wait their turn; the reply follows the commit. -/
def execCfgCommit (src : Src) (expected : Nat) (s : State) : Out :=
  .next (s.command src 0x0203 (s.isAdmin src) true [(decide (s.staged src.ctrl = []), .seq)]
    fun s => s.queueCommit { src := some src, command := 0x0203, expected := if expected = 2 ^ 64 - 1 then none else some expected,
                             recs := s.staged src.ctrl })

/-- CFG_DISCARD (R484). -/
def execCfgDiscard (src : Src) (s : State) : Out :=
  .next (s.command src 0x0204 (s.isAdmin src) true [(decide (s.staged src.ctrl = []), .seq)]
    fun s => { s with cfg := { s.cfg with staged := Tab.del s.cfg.staged src.ctrl } }.reply src 0x0204 .ok [])

/-- CFG_STATUS and BOOT_STATUS, and the registers beside them (R486). -/
def State.cfgReg (s : State) (i : Nat) : Nat :=
  let c := s.cfg
  let b := s.boot
  match i with
  | 0 => c.inUse + 2 * b2n c.valid0 + 4 * b2n c.valid1 + 8 * b2n c.defaults + 16 * b2n (decide (c.queue ≠ [])) + 32 * b2n c.facA +
      64 * b2n c.facB + 128 * b2n c.trimOk + 256 * b2n c.rebuilt + 512 * b2n c.rebuiltPartial
  | 1 => c.seq
  | 2 => b.fwSlot + 2 * b2n b.fallback + 4 * b.tries + 16 * b2n b.confirmed + 32 * b.keyIndex + 128 * b2n b.romHold + 256 * b.version
  | 3 => (List.range 4).foldl (fun a k => a + c.levelMs.getD k 0xFFFF * 2 ^ (16 * k)) 0
  | 4 => c.commits
  | _ => 0

/-- CFG_STATUS (R484). -/
def execCfgStatus (src : Src) (s : State) : Out :=
  .next (s.command src 0x0205 true true [] fun s => s.reply src 0x0205 .ok ((List.range 5).flatMap fun i => leBytes 8 (s.cfgReg i)))

/-- OWNER_SET (R480, R485): signed by the owner, or on an unowned device by the new key; without KEEP_ENROL every ENROLLED entry is revoked
in the same commit. -/
def execOwnerSet (src : Src) (modulus exponent : List Byte) (count flags : Nat) (_rsv sig : List Byte) (s : State) : Out :=
  let key := padTo 384 modulus ++ padTo 4 exponent
  let msg := leBytes 8 s.sec.serial ++ key ++ leBytes 8 count ++ [BitVec.ofNat 8 flags]
  let by_ := if s.sec.owned then s.sec.ownerKey else key
  .next (s.command src 0x0C06 true true
    [(!rsaVerify by_ msg sig, .sig), (s.sec.owned && decide (count ≤ s.sec.ownerCount), .cfgSeq),
     (decide (beNat (padTo 4 exponent) ≠ 65537), .badarg)]
    fun s =>
      let gone := if bit flags 0 then [] else ((List.range 8).filter fun c => (s.enrol c).st = 1).map fun c =>
        ({ type := 4, index := c, data := { s.enrol c with st := 2 }.bytes } : CfgRec)
      s.queueCommit { src := some src, command := 0x0C06, closes := !bit flags 0,
                             recs := { type := 5, index := 0, data := key ++ leBytes 8 count } :: gone })

/-- SVN_RAISE (R464, R485). -/
def execSvnRaise (src : Src) (svn keys : Nat) (s : State) : Out :=
  .next (s.command src 0x0C0F (s.isAdmin src) true
    [(decide (svn < s.sec.svnMin), .denied), (decide (s.sec.svn < svn) || bit keys s.boot.keyIndex, .badarg)]
    fun s => s.queueCommit { src := some src, command := 0x0C0F,
                             recs := [{ type := 0xB, index := 0, data := leBytes 4 svn ++ leBytes 1 (s.sec.revoked ||| keys % 16) }] })

/-- A measurement register as a quote shows it: value, count, reserved (R482). -/
def State.measBytes (s : State) (r : Nat) : List Byte :=
  padTo 32 (Tab.get [] s.sec.meas r) ++ leBytes 4 (Tab.get 0 s.sec.ext r) ++ leBytes 4 0

/-- MEAS_READ (R485). -/
def execMeasRead (src : Src) (s : State) : Out :=
  .next (s.command src 0x0C09 true true [] fun s => s.reply src 0x0C09 .ok ((List.range 8).flatMap s.measBytes))

/-- MEAS_EXTEND (R481, R485). -/
def execMeasExtend (src : Src) (digest : List Byte) (s : State) : Out :=
  .next (s.command src 0x0C0A (s.isAdmin src) true [] fun s =>
    let s := s.extend 7 (padTo 32 digest)
    s.reply src 0x0C0A .ok (padTo 32 (Tab.get [] s.sec.meas 7)))

/-- ID_CERT (R476, R477, R485). -/
def execIdCert (src : Src) (s : State) : Out :=
  .next (s.command src 0x0C07 true true [(!s.sec.idOk, .internal)] fun s =>
    let n := fld s.factory 0x848 2
    s.reply src 0x0C07 .ok (leBytes 2 n ++ leBytes 6 0 ++ (s.factory.drop 0x850).take n ++ padTo 388 Config.identityKey))

/-- FACTORY_READ (R461, R485). -/
def execFactoryRead (src : Src) (block : Nat) (s : State) : Out :=
  .next (s.command src 0x0C0E true true
    [(decide (1 < block), .badarg), (!(if block = 0 then s.cfg.facA else s.cfg.facB), .cfgDigest)] fun s =>
    let b := s.flashN (0xA0000 + 0x10000 * block) 0x16B0
    s.reply src 0x0C0E .ok (b.take 0x20 ++ b.drop 0x1050))

/-- FW_WRITE (R465, R485): to the slot that is not running; ERASE_FIRST erases the whole slot (log entry 51). -/
def execFwWrite (src : Src) (offset flags : Nat) (data : List Byte) (s : State) : Out :=
  let i := 1 - s.boot.fwSlot
  let n := data.length
  .next (s.command src 0x0C0B (s.isAdmin src) true
    [(decide (fwSize < offset + n), .range),
     (!bit flags 0 && s.boot.dirty.any fun e => decide (offset < e.1 + e.2 ∧ e.1 < offset + n), .seq), (s.boot.activating, .busy)]
    fun s =>
      let s := if bit flags 0 then
          let s := { s.flashErase (fwAt i) fwSize with boot := { s.boot with dirty := [] } }
          if s.dir.preferred = i then s.writeDir { s.dir with preferred := s.boot.fwSlot } else s
        else s
      let s := (s.flashProg (fwAt i + offset) data)
      { s with boot := { s.boot with dirty := if n = 0 then s.boot.dirty else Tab.put s.boot.dirty offset n } }.reply src 0x0C0B .ok [])

/-- FW_ACTIVATE (R464, R465, R468, R485); the restart itself is GOOSE_RESTART. -/
def execFwActivate (src : Src) (flags : Nat) (s : State) : Out :=
  let i := 1 - s.boot.fwSlot
  let e := s.bundleErr i
  .next (s.command src 0x0C0C (s.isAdmin src) true [(decide (e ≠ Err.ok), e), (bit flags 0 && s.anyLaunch, .busy)] fun s =>
    let h := s.flashN (fwAt i) 16
    let s := s.writeDir { s.dir with preferred := i, tries := 3, confirmed := setBit s.dir.confirmed i false }
    { s with boot := { s.boot with activating := bit flags 0 } }.reply src 0x0C0C .ok ((h.drop 8).take 8))

/-- FW_STATUS (R485). -/
def execFwStatus (src : Src) (s : State) : Out :=
  .next (s.command src 0x0C0D true true [] fun s => s.reply src 0x0C0D .ok
    (s.flashN 0 64 ++ s.flashN 0x10000 64 ++ s.flashN (fwAt 0) 32 ++ s.flashN (fwAt 1) 32))

end Sys2Proof.Machine
end

