-- ==== Sys2Proof/Machine/Log.lean ====
section
/-! DEFINITION. The event log, its mirror and the lifetime ledger (R406, R436, R446 to R451, R455, R457, R475). -/

namespace Sys2Proof.Machine

/-- An entry of severity sev goes as an EVENT notice to every controller whose NOTICE_SEV admits it (R396, R406). -/
def State.eventNotices (s : State) (sev : Nat) (entry : List Byte) : State :=
  (List.range 8).foldl (fun s c => if (s.enrol c).st = 1 ∧ (s.enrol c).sev ≤ sev then s.notice c 0x0B80 entry else s) s

/-- LOG_INTAKE (R436, R446 to R448, R450): the oldest event of the intake becomes the next entry of the ring. A substitution's repair
records are committed (R473). -/
def execLogIntake (s : State) : Out :=
  match s.log.intake with
  | [] => .next s
  | e :: rest =>
    let q := s.log.head
    let entry := e.bytes (q % 2 ^ 32) ((if 3 ≤ e.sev then 1 else 0) + (if s.log.lostNow then 4 else 0))
    let lost := decide (65536 ≤ q) && decide (s.log.readTo ≤ q - 65536)
    let s := { s with log := { s.log with
      intake := rest, head := q + 1, lostNow := false, ring := Tab.put s.log.ring (q % 65536) entry,
      overwrites := if lost then sat 32 (s.log.overwrites + 1) else s.log.overwrites } }
    let s := if 3 ≤ e.sev then { s with mirror := { s.mirror with queue := s.mirror.queue ++ [entry] } } else s
    let s := ((s.counted e).toLedger e).eventNotices e.sev entry
    .next (if e.ledger = 2 then s.queueRepairs else s)

/-- MIRROR_COPY (R448, R515): the oldest waiting entry enters the mirror; one of severity 4 or 5 pulls SMB_ALERT# low. -/
def execMirrorCopy (s : State) : Out :=
  match s.mirror.queue with
  | [] => .next s
  | e :: rest =>
    let q := s.mirror.head
    let lost := decide (4096 ≤ q) && decide (s.mirror.readTo ≤ q - 4096)
    .next { s with
      mirror := { s.mirror with queue := rest, head := q + 1, ring := Tab.put s.mirror.ring (q % 4096) e,
                                overwrites := if lost then sat 32 (s.mirror.overwrites + 1) else s.mirror.overwrites },
      pins := { s.pins with smbAlert := s.pins.smbAlert || decide (4 ≤ fld e 18 1) } }

/-- Powered seconds (R449, R450). -/
def State.powered (s : State) : Nat := s.ledger.secs + s.aonNs / 1000000000

/-- Flash address of lifetime ledger sector n, and of the record with sequence number q (R449; log entry 52). -/
def sectorAt (n : Nat) : Nat := 0x2000000 + 0x10000 * (n % 512)
def recordAt (q : Nat) : Nat := sectorAt (q / 1008) + 1024 + 64 * (q % 1008)

/-- Spares used by row of R442. -/
def State.sparesUsed (s : State) : List Nat :=
  let dies := (List.range 16).filter s.dieIn
  let sum (f : Nat → Nat) : Nat := (dies.map f).sum
  let t4 (n : Nat) : Nat := if [0, 1, 2, 3].any fun i => (s.cd n).map.phys i == 4 then 1 else 0
  let cols (n : Nat) : Nat := ((List.range 5).map fun p => min 4 (132 - (s.tile n p).arr.good.length)).sum
  [sum t4, sum cols, ((List.range 36).filter fun l => (s.link l).spareUsed).length, s.hubm.sparesUsed,
   ((List.range 16).filter fun g => (Tab.get {} s.ox.units (17 * g + 16) : OxUnit).takes.isSome).length,
   sum fun n => (s.cd n).hbm.repairs.length, sum fun n => (s.cd n).hbm.sparesUsed,
   ((List.range 8).filter fun c => (s.sess c).st = 1 ∧ (s.sess c).lastSub ≠ (s.sess c).primary).length]

/-- A lifetime total by header byte, with the counts of the stacks and the hub since (R449). -/
def State.total (s : State) (k : Nat) : Nat :=
  Tab.get 0 s.ledger.totals k +
    (if k = 20 then (s.cds.map fun c => c.2.hbm.ce).sum else if k = 36 then s.hubm.ce else 0)

/-- The header of a sector (R449). -/
def State.sectorHead (s : State) (n erases : Nat) : List Byte :=
  let b := leBytes 4 0x4C454447 ++ leBytes 4 n ++ leBytes 4 erases ++ leBytes 4 s.powered ++ leBytes 4 (s.total 16) ++
    ([20, 28, 36, 44].flatMap fun k => leBytes 8 (s.total k)) ++ ([48, 52, 56, 60].flatMap fun k => leBytes 4 (s.total k)) ++
    leBytes 2 (s.total 64) ++ (s.sparesUsed.map fun n => BitVec.ofNat 8 (min 255 n)) ++
    leBytes 2 ((s.cds.map fun c => c.2.hbm.hardRepairs).sum) ++ leBytes 2 ((s.cds.map fun c => c.2.hbm.softRepairs).sum) ++
    leBytes 2 s.hubm.removed ++ leBytes 8 s.health.domains ++ List.replicate 932 0xFF
  b ++ leBytes 4 (crc32 b)

/-- Whether a sector header verifies. -/
def headOk (b : List Byte) : Bool := decide (fld b 0 4 = 0x4C454447 ∧ fld b 1020 4 = crc32 (b.take 1020))

/-- Open the sector of the next record (R449): a sector used before is erased. -/
def State.openSector (s : State) : State :=
  let n := s.ledger.seq / 1008
  let old := s.flashN (sectorAt n) 1024
  let used := old.any fun b => b != 0xFF
  let head := s.sectorHead n ((if headOk old then fld old 8 4 else 0) + b2n used)
  let s := if used then s.flashErase (sectorAt n) 0x10000 else s
  { s.flashProg (sectorAt n) head with ledger := { s.ledger with opened := true } }

/-- The 32 data bytes a record takes from its event (R450): for type 6 the HSTATE bytes on; for others the entry's first. -/
def recordData (type : Nat) (e : Event) : List Byte := padTo 32 (if type = 6 then e.data.drop 4 else e.data)

/-- A ledger record (R450). -/
def State.record (s : State) (type : Nat) (e : Event) (seq : Nat) : List Byte :=
  let b := leBytes 8 e.time ++ leBytes 4 s.powered ++ leBytes 2 type ++ [BitVec.ofNat 8 e.die, BitVec.ofNat 8 e.unit] ++ leBytes 2 e.code.code ++
    leBytes 2 s.health.score ++ leBytes 4 seq ++ recordData type e ++ leBytes 4 0
  b ++ leBytes 4 (crc32 b)

/-- LEDGER_RECORD_WRITE (R449 to R451): the oldest waiting record is written in the next place. -/
def execLedgerRecordWrite (s : State) : Out :=
  match s.ledger.pending with
  | [] => .next s
  | (type, e) :: rest =>
    let s := { s with ledger := { s.ledger with pending := rest } }
    let q := s.ledger.seq
    let s := if s.ledger.opened && decide (q % 1008 ≠ 0) then s else s.openSector
    let s := s.flashProg (recordAt q) (s.record type e q)
    .next { s with ledger := { s.ledger with seq := q + 1, lastSub := if type = 2 then q + 1 else s.ledger.lastSub } }

/-- A record that verifies at its place (R451). -/
def State.recordRead (s : State) (q : Nat) : Option (List Byte) :=
  let b := s.flashN (recordAt q) 64
  if fld b 60 4 = crc32 (b.take 60) ∧ fld b 20 4 = q % 2 ^ 32 then some b else none

/-- The oldest record number the ledger can hold: 512 sectors, the one being written included (R449). -/
def Ledger.oldest (l : Ledger) : Nat := if l.seq = 0 then 0 else 1008 * ((l.seq - 1) / 1008 - 511)

/-- The totals of a sector header. -/
def headTotals (b : List Byte) : Tab Nat :=
  ((16, fld b 16 4) :: ([20, 28, 36, 44].map fun k => (k, fld b k 8)) ++ ([48, 52, 56, 60].map fun k => (k, fld b k 4)) ++
    [(64, fld b 64 2)]).filter fun e => e.2 ≠ 0

/-- The total a record counts in (R451): a trip's record is that of its severity-5 entry (R500). -/
def recordTotal (b : List Byte) : Option Nat :=
  match fld b 12 2 with
  | 1 => some 16
  | 3 => some 48
  | 4 => some 52
  | 5 => some (if fld b 14 1 < 16 then 28 else 44)
  | 7 => if fld b 14 1 = 24 ∧ fld b 15 1 = 0 ∧ fld b 16 2 = 0x10 then some 64 else none
  | _ => none

/-- The newest sector with a valid header, by lifetime number. -/
def State.newestSector (s : State) : Option Nat :=
  (List.range 512).foldl (fun (a : Option Nat) i =>
    let b := s.flashN (sectorAt i) 1024
    if headOk b then some (max (fld b 4 4) (a.getD 0)) else a) none

/-- The ledger as a start-up finds it (R451): totals of the newest header and of the records after it, the place after the last record. -/
def State.ledgerScan (s : State) : Ledger :=
  match s.newestSector with
  | none => {}
  | some n =>
    let h := s.flashN (sectorAt n) 1024
    let recs := ((List.range 1008).map fun i => (1008 * n + i, s.flashN (recordAt (1008 * n + i)) 64)).filter fun r => r.2.any fun b => b != 0xFF
    let good := recs.filter fun r => decide (fld r.2 60 4 = crc32 (r.2.take 60))
    { opened := true,
      seq := match recs.getLast? with
        | some r => r.1 + 1
        | none => 1008 * n,
      secs := match good.getLast? with
        | some r => fld r.2 8 4
        | none => fld h 12 4,
      totals := good.foldl (fun t r => match recordTotal r.2 with
        | some k => Tab.modify 0 t k (· + 1)
        | none => t) (headTotals h),
      lastSub := good.foldl (fun a r => if fld r.2 12 2 = 2 then r.1 + 1 else a) 0 }

/-- How far a sequence number, of 32 bits, lies behind a ring's head. -/
def ringBehind (head first : Nat) : Nat := (head % 2 ^ 32 + 2 ^ 32 - first % 2 ^ 32) % 2 ^ 32

/-- A first sequence number at or ahead of the head (R526); after a wrap, one that lies more than half the numbers behind counts as
ahead (log entry 53). -/
def ringAhead (head first : Nat) : Bool :=
  decide (ringBehind head first = 0) || decide ((if head < 2 ^ 32 then head else 2 ^ 31) < ringBehind head first)

/-- A ring's entries from a sequence number behind its head on, as LOG_READ returns them: from the oldest held when it lies behind that
(R526). -/
def ringRead (head size : Nat) (ring : Tab (List Byte)) (first count : Nat) : List Byte :=
  let d := min (ringBehind head first) (min head size)
  (List.range (min count d)).flatMap fun i => padTo 64 (Tab.get [] ring ((head - d + i) % size))

/-- The first entry not yet read after a read of `count` from `first`. -/
def readUpTo (head size readTo first count : Nat) : Nat :=
  let d := min (ringBehind head first) (min head size)
  max readTo (head - d + min count d)

/-- LOG_READ (R455, R526). -/
def execLogRead (src : Src) (first count : Nat) (s : State) : Out :=
  .next (s.command src 0x0B03 true true [(!s.svc.hdIn, .range), (decide (count = 0 ∨ 63 < count) || ringAhead s.log.head first, .range)] fun s =>
    let h := s.log.head
    { s with log := { s.log with readTo := readUpTo h 65536 s.log.readTo first count } }.reply src 0x0B03 .ok
      (leBytes 4 (h - min h 65536) ++ leBytes 4 h ++ ringRead h 65536 s.log.ring first count))

/-- MIRROR_READ (R455, R526). -/
def execMirrorRead (src : Src) (first count : Nat) (s : State) : Out :=
  .next (s.command src 0x0B04 true true [(decide (count = 0 ∨ 63 < count) || ringAhead s.mirror.head first, .range)] fun s =>
    let h := s.mirror.head
    { s with mirror := { s.mirror with readTo := readUpTo h 4096 s.mirror.readTo first count } }.reply src 0x0B04 .ok
      (leBytes 4 (h - min h 4096) ++ leBytes 4 h ++ ringRead h 4096 s.mirror.ring first count))

/-- LEDGER_READ (R455, R526). -/
def execLedgerRead (src : Src) (first count : Nat) (s : State) : Out :=
  .next (s.command src 0x0B05 true true [(decide (count = 0 ∨ 63 < count ∨ s.ledger.seq ≤ first), .range)] fun s =>
    let l := s.ledger
    let q := max first l.oldest
    s.reply src 0x0B05 .ok (leBytes 4 l.oldest ++ leBytes 4 l.seq ++ (List.range count).flatMap fun i =>
      if q + i < l.seq then (s.recordRead (q + i)).getD [] else []))

/-- LEDGER_NOTE (R450, R455). -/
def execLedgerNote (src : Src) (note : List Byte) (s : State) : Out :=
  .next (s.command src 0x0B0E (s.isAdmin src) true [] fun s =>
    let q := s.ledger.seq + s.ledger.pending.length
    let e : Event := { time := s.stamp, aon := s.aon, die := 24, unit := 0x02, data := padTo 32 note }
    { s with ledger := { s.ledger with pending := s.ledger.pending ++ [(9, e)] } }.reply src 0x0B0E .ok (leBytes 4 q))

end Sys2Proof.Machine
end

