-- ==== Sys2Proof/Machine/Health.lean ====
section
/-! DEFINITION. Monitors, the health score, quarantine, spares, self-test, progress and attestation (R113, R120, R433 to R445, R452, R453,
R455, R456, R482, R497, R502). -/

namespace Sys2Proof.Machine

/-- The monitor entry of a die. -/
def State.mon (s : State) (d : Nat) : Mon := Tab.get {} s.health.mons d

/-- Change the monitor entry of a die. -/
def State.modMon (s : State) (d : Nat) (f : Mon → Mon) : State :=
  { s with health := { s.health with mons := Tab.set {} s.health.mons d (f (s.mon d)) } }

/-- A monitor entry as its table shows it (R433). -/
def Mon.bytes (m : Mon) : List Byte :=
  leBytes 2 (ux 16 m.temp) ++ leBytes 2 (ux 16 m.tempMax) ++ leBytes 2 m.vcore ++ leBytes 2 m.vcoreMin ++ leBytes 2 m.power ++
    leBytes 2 m.margin ++ leBytes 2 m.marginMin ++ leBytes 2 m.alarm ++ leBytes 8 m.samples ++ leBytes 8 m.time

/-- The core voltage setpoint of a die in mV (R462): its trim, or the default. -/
def State.setpoint (s : State) (d : Nat) : Nat :=
  if s.cfg.trimOk then fld (s.flashN ((if s.cfg.facA then 0xA0000 else 0xB0000) + 0x1050 + 64 * d) 2) 0 2 else Config.defaultSetpoint d

/-- ALARM[3:0] of a sample (R433). -/
def alarmOf (temp : Int) (vcore margin setpoint limit : Nat) : Nat :=
  b2n (decide (1600 ≤ temp)) + 2 * b2n (decide (1680 ≤ temp)) +
    4 * b2n (decide (3 * setpoint < 100 * (((vcore : Int) - setpoint).natAbs))) + 8 * b2n (decide (margin < limit))

/-- One second and sixty in always-on ns. -/
def secNs : Nat := 1000000000

/-- A monitor entry after a sample (R433), with the samples of the last 60 s that no later one reaches (R435). -/
def Mon.sample (m : Mon) (q : MonSample) (setpoint limit now aon : Nat) : Mon :=
  let a := alarmOf q.temp q.vcore q.margin setpoint limit
  let first := decide (m.samples = 0)
  { m with temp := q.temp, tempMax := if first then q.temp else max m.tempMax q.temp,
           vcore := q.vcore, vcoreMin := if first then q.vcore else min m.vcoreMin q.vcore,
           power := q.power, margin := q.margin, marginMin := if first then q.margin else min m.marginMin q.margin,
           alarm := a, samples := m.samples + 1, time := now,
           hot := (aon, q.temp) :: (m.hot.filter fun e => decide (aon < e.1 + 60 * secNs ∧ q.temp < e.2)),
           bad := if 4 ≤ a then some aon else m.bad }

/-- The ALARM bits that have risen and are logged (R434): a bit is not logged again until it has been clear for 1 s. -/
def risen (old new : Nat) (lastSet : Tab Nat) (aon : Nat) : List Nat :=
  (List.range 5).filter fun i => bit new i && !bit old i &&
    (match Tab.find? lastSet i with
      | some t => decide (t + secNs ≤ aon)
      | none => true)

/-- When each bit that is set was last seen set. -/
def seenSet (new : Nat) (lastSet : Tab Nat) (aon : Nat) : Tab Nat :=
  (List.range 5).foldl (fun t i => if bit new i then Tab.put t i aon else t) lastSet

/-- The alarms of a die are logged, one entry for each bit (R434). -/
def State.alarms (s : State) (d old : Nat) : State :=
  let m := s.mon d
  let l := risen old m.alarm m.lastSet s.aonNs
  let s := l.foldl (fun s _ => s.raise d 0x02 2 .ok (m.bytes.take 16)) s
  s.modMon d fun m => { m with lastSet := seenSet m.alarm m.lastSet s.aonNs }

/-- The insertion level of compute die n changes (R497): an episode starts on leaving level 0 and ends on the return to it. -/
def State.setLevel (s : State) (n l : Nat) : State :=
  let c := s.cd n
  let s := s.modCd n fun c => { c with level := l }
  if c.level = 0 ∧ 0 < l then
    (s.modCd n fun c => { c with episode := some (s.aonNs, 0) }).raise n 0x02 2 .ok (leBytes 2 (ux 16 (s.mon n).temp)) 0xFFFF (some 18)
  else if 0 < c.level ∧ l = 0 then
    let e := c.episode.getD (s.aonNs, 0)
    (s.modCd n fun c => { c with episode := none }).raise n 0x02 1 .ok (leBytes 8 (s.aonNs - e.1) ++ leBytes 8 e.2)
  else s

/-- What a 1 ms sample does to the level (R497). -/
def State.sampleLevel (s : State) (n : Nat) : State :=
  let l := (s.cd n).level
  let t := (s.mon n).temp
  if 1680 ≤ t then (if l = 4 then s else s.setLevel n 4)
  else if l = 0 ∧ (16 * s.pwr.insertTemp : Int) ≤ t then s.setLevel n 1
  else s

/-- The sample of one die, or its absence (R433). -/
def State.sampleDie (s : State) (m : List MonSample) (d : Nat) : State :=
  let old := (s.mon d).alarm
  match (if s.dieIn d then m.find? fun q => q.die.val == d else none) with
  | some q =>
    let s := (s.modMon d fun m => m.sample q (s.setpoint d) s.health.marginLimit s.now s.aonNs).alarms d old
    if d < 16 then s.sampleLevel d else s
  | none => (s.modMon d fun m => { m with alarm := if bit m.alarm 4 then m.alarm else m.alarm + 16 }).alarms d old

/-- COOL_STATUS (R505). -/
def Pwr.cool (p : Pwr) : Nat :=
  ux 16 p.inlet + ux 16 p.outlet * 2 ^ 16 + b2n p.inletHigh * 2 ^ 32 + b2n p.inletLow * 2 ^ 33 + b2n p.dtHigh * 2 ^ 34

/-- The coolant flags as three bits. -/
def Pwr.coolBits (p : Pwr) : Nat := b2n p.inletHigh + 2 * b2n p.inletLow + 4 * b2n p.dtHigh

/-- The coolant sensors, sampled with the monitors (R502): their flags are logged as alarm bits are. -/
def State.sampleCool (s : State) (inlet outlet : Int) : State :=
  let old := s.pwr.coolBits
  let p := { s.pwr with inlet := inlet, outlet := outlet, inletHigh := decide (640 < inlet), inletLow := decide (inlet < 240),
                        dtHigh := decide (224 < outlet - inlet) }
  let l := risen old p.coolBits p.coolSet s.aonNs
  let s := { s with pwr := { p with coolSet := seenSet p.coolBits p.coolSet s.aonNs } }
  l.foldl (fun s _ => s.raise 24 0x00 2 .ok (leBytes 8 s.pwr.cool)) s

/-- MONITOR_SAMPLE (R433, R434, R497, R502). -/
def execMonitorSample (m : List MonSample) (inlet outlet : Int) (s : State) : Out :=
  .next (((List.range 25).foldl (fun s d => s.sampleDie m d) s).sampleCool inlet outlet)

/-- INSERTION_LEVEL_STEP (R497): every 10 ms of always-on count. -/
def execInsertionLevelStep (s : State) : Out :=
  .next (((List.range 16).filter s.dieIn).foldl (fun s n =>
    let l := (s.cd n).level
    let t := (s.mon n).temp
    let i : Int := 16 * s.pwr.insertTemp
    if i + 32 ≤ t ∧ l < 4 then s.setLevel n (l + 1) else if t < i - 32 ∧ 0 < l then s.setLevel n (l - 1) else s) s)

/-- The caps of the 20 contributors (R435). -/
def penaltyCaps : List Nat := [150, 60, 80, 100, 100, 120, 100, 1000, 150, 200, 100, 50, 50, 800, 800, 800, 800, 800, 800, 800]

/-- The running counts that the rate contributors read: HBM corrected errors by stack, replays of all links, hub corrected errors. -/
def State.rateNow (s : State) (i : Nat) : Int :=
  if i < 16 then (s.cd i).hbm.ce
  else if i = 16 then (((List.range 36).map fun l => (s.link l).replays).sum : Nat)
  else s.hubm.ce

/-- At a whole hour of always-on count the rate contributors take the last hour's counts (R435), and the ledger's hourly limits start
afresh (R450). -/
def State.hourly (s : State) : State :=
  let h := s.aonNs / (3600 * secNs)
  if h = s.health.hourNo then s
  else
    let count (i : Nat) : Nat := (s.rateNow i - Tab.get 0 s.health.hourBase i).toNat
    { s with health := { s.health with
      hourNo := h, uncorrHour := [],
      hourCount := ((List.range 18).map fun i => (i, count i)).filter fun e => e.2 ≠ 0,
      hourBase := ((List.range 18).map fun i => (i, s.rateNow i)).filter fun e => e.2 ≠ 0 } }

/-- The measure of static contributor 7 (R435). -/
def State.capacityLost (s : State) : Nat :=
  let cds := (List.range 16).filter s.dieIn
  let tiles := (cds.map fun n => (s.cd n).map.count).sum
  15 * (64 - tiles) + 25 * ((List.range 16).filter s.oxDegraded).length + 10 * s.hubm.removed +
    40 * ((List.range 6).filter fun m => !s.dieIn (17 + m)).length + 300 * (16 - cds.length)

/-- Contributor 8's temperature in whole degrees: the highest of any die over the last 60 s (R435). -/
def State.hottest (s : State) : Nat :=
  s.health.mons.foldl (fun a e => e.2.hot.foldl (fun a q => if s.aonNs < q.1 + 60 * secNs then max a (q.2 / 16).toNat else a) a) 0

/-- The measure of contributor i (R435, R436). -/
def State.measureOf (s : State) (i : Nat) : Nat :=
  let used (k : Nat) : Nat := s.sparesUsed.getD k 0
  let hour (k : Nat) : Nat := Tab.get 0 s.health.hourCount k
  match i with
  | 0 => used 0
  | 1 => used 1
  | 2 => used 2
  | 3 => used 3
  | 4 => used 4
  | 5 => used 6
  | 6 => (((List.range 16).filter s.dieIn).map fun n => (s.cd n).hbm.hardRepairs).sum
  | 7 => s.capacityLost
  | 8 => s.hottest
  | 9 => (s.health.mons.filter fun e => match e.2.bad with
      | some t => decide (s.aonNs < t + 60 * secNs)
      | none => false).length
  | 10 => (List.range 16).foldl (fun a n => max a (hour n)) 0
  | 11 => hour 16
  | 12 => hour 17
  | i => (List.range 8).foldl (fun a d => a + (Tab.get 0 s.health.days (8 * (i - 13) + d)) >>> d) 0

/-- The penalty of a measure, capped (R435). -/
def penaltyOf (i m : Nat) : Nat :=
  min (penaltyCaps.getD i 0) <| match i with
  | 0 => 150 * m / 16
  | 1 => 60 * m / 320
  | 2 => 80 * m / 36
  | 3 => 100 * m / 32
  | 4 => 100 * m / 16
  | 5 => 120 * m / 32
  | 8 => 10 * (m - 95)
  | 9 => 25 * m
  | 10 => m / 1000
  | 11 => m / 100
  | 12 => m / 1000
  | _ => m

/-- SCORE of 20 penalties (R435, R436): the seven event penalties together are capped at 800. -/
def scoreOf (p : List Nat) : Nat := 1000 - ((p.take 13).sum + min 800 (p.drop 13).sum)

/-- The lower bound of a band (R437). -/
def bandLow (b : Nat) : Nat := if b = 0 then 800 else if b = 1 then 500 else if b = 2 then 200 else 0

/-- The band a score falls in. -/
def bandOf (score : Nat) : Nat := if 800 ≤ score then 0 else if 500 ≤ score then 1 else if 200 ≤ score then 2 else 3

/-- The band after a score (R437): down at once, up only 50 above the higher band's bound. -/
def nextBand (band score : Nat) : Nat :=
  if band ≤ bandOf score then bandOf score
  else ((List.range band).find? fun b => decide (bandLow b + 50 ≤ score)).getD band

/-- HSTATE (R438). -/
def Health.hstate (h : Health) : Nat := if h.quarantined then 3 else min h.band 2

/-- HL_STATUS (R456). -/
def Health.status (h : Health) : Nat :=
  h.score + 2 ^ 10 * h.band + 2 ^ 12 * h.hstate + 2 ^ 14 * b2n h.qRequest + 2 ^ 15 * b2n h.hard + 2 ^ 16 * b2n h.token + 2 ^ 17 * b2n h.checking

/-- An entry of the health state with its ledger record of type 6: scores, old and new HSTATE, token id, and the failure domains (R437,
R440, R450, R452). -/
def State.healthEvent (s : State) (sev : Nat) (code : Err) (old oldState : Nat) : State :=
  s.raise 24 0x02 sev code (leBytes 2 old ++ leBytes 2 s.health.score ++ [BitVec.ofNat 8 oldState, BitVec.ofNat 8 s.health.hstate, 0, 0] ++
    leBytes 4 s.health.tokenId ++ leBytes 16 0 ++ leBytes 8 s.health.domains) 0xFFFF none 6

/-- The device asks for quarantine (R438). -/
def State.askQuarantine (s : State) : State :=
  { s with health := { s.health with qRequest := true, qAt := s.aonNs } }.raise 24 0x02 4 .ok (leBytes 2 s.health.score)

/-- HEALTH_SCORE_COMPUTE (R435 to R439). -/
def execHealthScoreCompute (s : State) : Out :=
  let s := s.hourly
  let ms := (List.range 20).map s.measureOf
  let ps := (List.range 20).map fun i => penaltyOf i (ms.getD i 0)
  let h := s.health
  let sc := scoreOf ps
  let b := nextBand h.band sc
  let tab (l : List Nat) : Tab Nat := (l.zipIdx.map fun e => (e.2, e.1)).filter fun e => e.2 ≠ 0
  let s := { s with health := { h with score := sc, band := b, penalty := tab ps, measure := tab ms, dayMin := min h.dayMin sc,
                                       dayMax := max h.dayMax sc, checking := h.checking || (!h.quarantined && decide (2 ≤ b)) } }
  let s := if b = h.band then s else s.healthEvent (if b < h.band then 1 else 2) .ok h.score h.hstate
  .next (if b = 3 ∧ h.quarantined = false then (if h.qRequest then s else s.askQuarantine)
    else { s with health := { s.health with qRequest := false } })

/-- Q_REQUEST_REPEAT (R438): once per hour while Q_REQUEST stays set. -/
def execQRequestRepeat (s : State) : Out :=
  if s.health.qRequest = true ∧ s.health.qAt + 3600 * secNs ≤ s.aonNs then .next s.askQuarantine else .next s

/-- DAY_ROLLOVER (R436, R450): every 86,400 s of always-on count the buckets move one place down and the day's summary goes to the ledger. -/
def execDayRollover (s : State) : Out :=
  let h := s.health
  if s.aonNs / (86400 * secNs) ≤ h.dayNo then .next s
  else
    let data := leBytes 2 h.dayMin ++ leBytes 2 h.dayMax ++ (List.range 20).map fun i => BitVec.ofNat 8 (min 255 (Tab.get 0 h.penalty i))
    let e : Event := { time := s.stamp, aon := s.aon, die := 24, unit := 0x02, data := data }
    let days := (h.days.filter fun b => b.1 % 8 ≠ 7).map fun b => (b.1 + 1, b.2)
    .next { s with health := { h with days := days, dayNo := h.dayNo + 1, dayMin := h.score, dayMax := h.score },
                   ledger := { s.ledger with pending := s.ledger.pending ++ [(8, e)] } }

/-- Whether a quarantine may take effect now (R440, R441). -/
def State.quarantineDue (s : State) : Bool :=
  let h := s.health
  !h.quarantined && !s.anyLaunch &&
    ((h.token && decide (h.tokenT ≤ s.now ∧ s.now < h.tokenX)) || (h.hard && decide (h.band = 3)))

/-- QUARANTINE_TAKE_EFFECT (R440, R441): HSTATE, every link, LEVEL, and the event in one step. -/
def execQuarantineTakeEffect (s : State) : Out :=
  if !s.quarantineDue then .next s
  else
    let old := s.health.hstate
    let s := { s with health := { s.health with quarantined := true, token := false, qRequest := false } }
    let s := (List.range 36).foldl (fun (s : State) l =>
      let st := (s.link l).st
      (if st = .up ∨ st = .training then s.linkDown l 7 .down true else s).modLx l fun x => { x with trainAt := none }) s
    .next ((s.service s.svc .ok).healthEvent 4 .ok s.health.score old)

/-- TOKEN_LAPSE (R440). -/
def execTokenLapse (s : State) : Out :=
  let h := s.health
  if h.token = true ∧ h.tokenX ≤ s.now then
    .next ({ s with health := { h with token := false } }.healthEvent 2 .seq h.score h.hstate)
  else .next s

/-- T4 takes over a retiring tile (R443): the Mule with its memories, the operand store, planes and element engine move; what belongs to
the physical tile stays. -/
def Tile.takeOver (t old : Tile) : Tile :=
  let a := old.arr
  { old with sleep := t.sleep, disabled := t.disabled, draining := t.draining,
             arr := { t.arr with plane0 := a.plane0, plane1 := a.plane1, checkedLaunch := a.checkedLaunch, checkNext := a.checkNext,
                                 resumeK := a.resumeK, resumeValid := a.resumeValid, resumePlane := a.resumePlane,
                                 resumeAborted := a.resumeAborted, stopped := a.stopped },
             ee := { old.ee with disabled := t.ee.disabled, draining := t.ee.draining, runs := t.ee.runs } }

/-- CD_TILE_MAP with logical tile i on physical tile p. -/
def TileMap.setPhys (m : TileMap) (i p : Nat) : TileMap :=
  match i with
  | 0 => { m with lt0 := p }
  | 1 => { m with lt1 := p }
  | 2 => { m with lt2 := p }
  | 3 => { m with lt3 := p }
  | _ => m

/-- Physical tile p of compute die d is retired (R16 to R18, R113, R443): its logical tile moves to T4, or becomes absent. -/
def State.retireTile (s : State) (d p : Nat) (ue : Bool) : State :=
  let c := s.cd d
  match (List.range 4).find? fun i => c.map.phys i == p with
  | none => s
  | some i =>
    let q := if p ≠ 4 ∧ c.spareFit = true then 4 else 7
    let old := s.tile d p
    let s := if q = 4 then s.modTile d 4 fun t => t.takeOver old else s
    let s := (s.modTile d p Tile.ctxEnd).modCd d fun c => ({ c with map := { c.map.setPhys i q with ok := setBit c.map.ok p false } }).reWidth
    let s := { s with health := { s.health with subs := Tab.set false s.health.subs (5 * d + p) false } }
    let s := s.substituted d (0x10 + p) 0 i p q
    let hit := s.ctx.tab.filter fun e => e.2.st ≠ .saved && bit ((s.cxx e.1).prog.getD {}).dies d
    let s := if ue then hit.foldl (fun s e => s.setCtx e.1 .halted .uncorr d i) s else s
    if s.cdFit d then s else s.cdDown d .internal

/-- TILE_SUBSTITUTION (R443): a requested one, while no launch uses the die. -/
def execTileSubstitution (d : CdId) (p : PTile) (ue : Bool) (s : State) : Out :=
  if Tab.get false s.health.subs (5 * d + p) = true ∧ s.dieIn d = true ∧ s.launchOn d = false then .next (s.retireTile d p ue) else .next s

/-- The contributor table (R456). -/
def Health.contribBytes (h : Health) : List Byte :=
  (List.range 20).flatMap fun i =>
    leBytes 2 (Tab.get 0 h.penalty i) ++ leBytes 2 (penaltyCaps.getD i 0) ++ leBytes 4 (Tab.get 0 h.measure i)

/-- The day buckets (R456). -/
def Health.dayBytes (h : Health) : List Byte := (List.range 56).flatMap fun i => leBytes 4 (Tab.get 0 h.days i)

/-- HEALTH_STATUS (R455). -/
def execHealthStatus (src : Src) (s : State) : Out :=
  .next (s.command src 0x0B01 true true [] fun s =>
    let h := s.health
    s.reply src 0x0B01 .ok (leBytes 8 h.status ++ leBytes 8 h.domains ++ leBytes 8 h.hardUe ++ h.contribBytes ++ h.dayBytes))

/-- MON_READ (R433, R455): the entry before any clear of its extremes. -/
def execMonRead (src : Src) (die clear : Nat) (s : State) : Out :=
  .next (s.command src 0x0B02 (clear = 0 || s.isAdmin src) true [(decide (24 < die), .range)] fun s =>
    let b := (s.mon die).bytes
    let s := if clear = 0 then s else s.modMon die fun m => { m with tempMax := m.temp, vcoreMin := m.vcore, marginMin := m.margin }
    s.reply src 0x0B02 .ok b)

/-- The totals of R442, row by row. -/
def spareTotals : List Nat := [16, 320, 36, 32, 16, Config.repairRows, 32, 2]

/-- SPARE_LIST (R455). -/
def execSpareList (src : Src) (s : State) : Out :=
  .next (s.command src 0x0B06 true true [] fun s =>
    let cd (f : ComputeDie → Nat) : List Byte := (List.range 16).map fun n => BitVec.ofNat 8 (f (s.cd n))
    s.reply src 0x0B06 .ok (((s.sparesUsed.zip spareTotals).flatMap fun e => leBytes 2 e.1 ++ leBytes 2 e.2) ++
      cd (fun c => c.map.ok) ++ cd fun c => bits c.hbm.status 3 2))

/-- A register write made by a command: its state and reply. -/
def State.replyWrite (s : State) (src : Src) (cmd : Nat) (r : Except Err State) : State :=
  match r with
  | .ok t => t.reply src cmd .ok []
  | .error e => s.reply src cmd e []

/-- SPARE_APPLY (R203, R247, R443, R455): the index of a tile is its physical number. -/
def execSpareApply (src : Src) (kind die index : Nat) (s : State) : Out :=
  .next (s.command src 0x0B07 (s.isAdmin src) true [(decide (2 < kind), .range), (!s.dieIn die || decide (24 ≤ die), .range)] fun s =>
    match kind with
    | 0 =>
      let e := firstErr [(decide (15 < die) || decide (4 < index) || !(s.cd die).carries index, Err.range), (s.launchOn die, .busy),
        (decide (index = 4) || !(s.cd die).spareFit, .nomem)]
      match e with
      | some e => s.reply src 0x0B07 e []
      | none => (s.retireTile die index false).reply src 0x0B07 .ok []
    | 1 => s.replyWrite src 0x0B07 (if die ≠ 16 ∨ 1023 < index then .error .range else s.bankMigrate (index + 2 ^ 10))
    | _ => s.replyWrite src 0x0B07 (if 15 < die ∨ 31 < index then .error .range
        else if s.running || (s.cd die).hbm.migrating then .error .busy
        else if 2 ≤ (s.cd die).hbm.sparesUsed then .error .nomem
        else s.hbmMigrate die (index + 2 ^ 5)))

/-- Whether a self-test of a tile is refused (R445). -/
def State.testBusy (s : State) (d p : Nat) : Bool :=
  s.launchOn d || (match (s.tile d p).mem.ctx with
    | some x => decide ((s.cx x).st ≠ .open_ ∧ (s.cx x).st ≠ .saved ∧ (s.cx x).st ≠ .done)
    | none => false)

/-- The bad columns of a tile with those that a self-test found: whether no column map repairs it (R112, R443). -/
def ArrayU.beyondMap (a : ArrayU) (found : List TestMiss) : Bool :=
  decide ((a.good.filter fun c => !found.any fun m => m.phys.val == c).length < 120)

/-- SELFTEST (R120, R443, R445): every miscompare found is logged as in R119 with mechanism 2. -/
def execSelftest (src : Src) (die tile repeat_ : Nat) (found : List TestMiss) (s : State) : Out :=
  .next (s.command src 0x0B08 (s.isAdmin src) true
    [(decide (15 < die ∨ 4 < tile ∨ repeat_ = 0 ∨ 255 < repeat_) || !s.dieIn die, .range), (s.testBusy die tile, .busy)] fun s =>
    let s := found.foldl (fun s m => s.miscompare die tile 2 m.phys m.col m.row 0 (m.load % 2 ^ 24) (m.load / 2 ^ 24) 0xFFFF 0xFFFF) s
    let s := if (s.cd die).carries tile && (s.tile die tile).arr.beyondMap found then
        { s with health := { s.health with subs := Tab.set false s.health.subs (5 * die + tile) true } } else s
    s.reply src 0x0B08 .ok (leBytes 4 found.length))

/-- QUARANTINE_GRANT (R440, R455). -/
def execQuarantineGrant (src : Src) (node token t x : Nat) (s : State) : Out :=
  .next (s.command src 0x0B09 (s.isAdmin src) true
    [(decide (node ≠ s.node ∨ x ≤ t), .badarg), (s.health.quarantined || s.health.token, .seq)] fun s =>
    { s with health := { s.health with token := true, tokenId := token, tokenT := t, tokenX := x } }.reply src 0x0B09 .ok [])

/-- QUARANTINE_RELEASE (R440, R441, R455): the cap is lifted, and the links under AUTO train again. -/
def execQuarantineRelease (src : Src) (s : State) : Out :=
  .next (s.command src 0x0B0A (s.isAdmin src) true [(!s.health.quarantined, .seq), (s.health.hard, .denied)] fun s =>
    let old := s.health.hstate
    let s := { s with health := { s.health with quarantined := false } }
    let s := (List.range 36).foldl (fun (s : State) l =>
      let k := s.link l
      if k.st = .down ∧ k.auto = true ∧ k.enable = true ∧ s.dieIn (linkDie l) = true then s.modLx l fun x => { x with trainAt := some s.aonNs }
      else s) s
    ((s.service s.svc .ok).healthEvent 1 .ok s.health.score old).reply src 0x0B0A .ok [])

/-- HEALTH_SET (R455). -/
def execHealthSet (src : Src) (limit margin : Nat) (s : State) : Out :=
  .next (s.command src 0x0B0B (s.isAdmin src) true [(decide (limit = 0), .range)] fun s =>
    let s := ((List.range 16).filter s.dieIn).foldl (fun s n =>
      (List.range 5).foldl (fun s p => s.modArr n p fun a => { a with misLimit := limit }) s) s
    { s with health := { s.health with marginLimit := margin } }.reply src 0x0B0B .ok [])

/-- PROGRESS_READ (R453, R455). -/
def execProgressRead (src : Src) (ctx : Nat) (s : State) : Out :=
  .next (s.command src 0x0B0C true (decide (src.context = ctx)) [(!s.svc.hdIn, .range), (s.noCtx ctx, .range)] fun s =>
    let p := s.progNow ctx
    s.reply src 0x0B0C .ok (leBytes 8 p.pending ++ leBytes 8 p.useful ++ leBytes 8 p.lost ++ leBytes 8 p.moved))

/-- PROGRESS_MARK (R453, R455): the pending time counted up to now moves. -/
def execProgressMark (src : Src) (ctx action : Nat) (s : State) : Out :=
  .next (s.command src 0x0B0D (s.isAdmin src) (decide (src.context = ctx))
    [(!s.svc.hdIn, .range), (s.noCtx ctx, .range), (decide (1 < action) || (s.cx ctx).goodput, .badarg), (decide ((s.cx ctx).st = .running), .seq)]
    fun s =>
    let n := (s.progNow ctx).pending
    (s.modProg ctx fun p => if action = 0 then p.toUseful s.now else p.toLost s.now).reply src 0x0B0D .ok (leBytes 8 n))

/-- HIST_READ (R444, R455). -/
def execHistRead (src : Src) (die : Nat) (s : State) : Out :=
  .next (s.command src 0x0B0F true true [(decide (15 < die), .range)] fun s =>
    s.reply src 0x0B0F .ok ((List.range 40).flatMap fun i => leBytes 2 (Tab.get 0 s.health.hist (40 * die + i))))

/-- ATTEST_QUOTE (R482, R485). -/
def execAttestQuote (src : Src) (nonce : List Byte) (mask : Nat) (s : State) : Out :=
  .next (s.command src 0x0C08 true true [(!s.sec.idOk, .internal), (decide (mask % 256 = 0), .badarg)] fun s =>
    let regs := (List.range 8).flatMap fun r => if bit mask r then s.measBytes r else leBytes 40 0
    let q := leBytes 4 0x51554F54 ++ leBytes 2 1 ++ [BitVec.ofNat 8 mask, 0] ++ padTo 32 nonce ++ leBytes 8 s.sec.serial ++ leBytes 4 s.node ++
      leBytes 4 s.aon ++ leBytes 8 s.stamp ++ leBytes 8 s.cfg.seq ++ leBytes 4 s.boot.version ++ leBytes 4 s.sec.svn ++
      leBytes 4 s.health.status ++ leBytes 12 0 ++ regs
    s.reply src 0x0C08 .ok (q ++ padTo 384 (Config.identitySign q)))

end Sys2Proof.Machine
end

