-- ==== Sys2Proof/Machine/Boot.lean ====
section
/-! DEFINITION. Starting and stopping the dies: the boot ROM, the power-on sequence, the rebuild of repair records, moves between power states
(R17, R19, R21, R31, R33 to R35, R120, R168, R202, R246, R284, R311, R333, R342, R449, R458 to R460, R462 to R468, R471 to R476, R479, R481,
R483, R489, R494, R495, R503, R512, R514, R516). -/

namespace Sys2Proof.Machine

/-- KD_SERVICE (R34). -/
def State.kdService (s : State) : Nat :=
  let v := s.svc
  let tiles := (((List.range 16).filter s.dieIn).map fun n => (s.cd n).map.count).sum
  v.level + 8 * b2n v.oobLink + 2 ^ 8 * v.cdIn + 2 ^ 24 * v.ldIn + 2 ^ 30 * b2n v.hubIn + 2 ^ 31 * b2n v.hdIn + 2 ^ 32 * b2n v.flashIn +
    2 ^ 33 * b2n v.oobIn + 2 ^ 34 * tiles

/-- The service fields when only the Keeper die is up. -/
def Service.keeperOnly (v : Service) : Service := { v with cdIn := 0, ldIn := 0, hubIn := false, hdIn := false }

/-- Every die but the Keeper die leaves service and loses its state (R419, R468, R489, R495, R500); a link says DOWN first where the power
state moves (`say`). -/
def State.darken (s : State) (say : Bool) (cause : Err) : State :=
  if s.pwr.dark then s
  else
    let s := if say then (List.range 36).foldl (fun (s : State) l => if (s.link l).st = .up then s.linkDown l 7 .down true else s) s else s
    let dies := (23 :: 16 :: (List.range 16 ++ (List.range 6).map (17 + ·))).filter s.dieIn
    let s := dies.foldl (fun s d => s.dieDown d false) s
    let s := { s with dies := Tab.remap {} (fun _ u => { u with resetting := false }) s.dies, pwr := { s.pwr with dark := true } }
    s.service s.svc.keeperOnly cause

/-- A physical bank that the start-up test finds bad (R246, R467): its logical bank moves onto the next good spare, or is removed. -/
def State.bankFound (s : State) (bad : List Nat) (p : Nat) : State :=
  match (List.range 1024).find? fun b => s.hubm.phys b == p with
  | none => s
  | some b =>
    match (List.range 32).find? fun i => decide (s.hubm.sparesUsed ≤ i) && !bad.contains (1024 + i) with
    | some i =>
      ({ s with hubm := { s.hubm with map := Tab.set b s.hubm.map b (1024 + i), sparesUsed := i + 1 } }).substituted 16 0x02 3 b p (1024 + i)
    | none =>
      ({ s with hubm := { s.hubm with map := Tab.set b s.hubm.map b 0x7FF, removed := s.hubm.removed + 1 },
                ox := { s.ox with linesRemoved := s.ox.linesRemoved + s.hub.redRows } }).substituted 16 0x02 3 b p 0x7FF 4 .nomem

/-- The hub's start-up test (R467): banks and Ox units found bad. -/
def State.testHub (s : State) (b : BootFinds) : State :=
  let bad := b.banks.map (·.val)
  let s := bad.foldl (fun s p => s.bankFound bad p) s
  (b.oxUnits.map (·.val)).foldl (fun (s : State) u => if (s.oxu u).retired then s else s.oxRetire u) s

/-- A bad physical column joins the bad columns of a tile's array. -/
def ArrayU.addBad (a : ArrayU) (c : Nat) : ArrayU :=
  if c < 64 then { a with badA := a.badA ||| BitVec.ofNat 64 (2 ^ c) }
  else if c < 128 then { a with badB := a.badB ||| BitVec.ofNat 64 (2 ^ (c - 64)) }
  else { a with badC := setBit a.badC (c - 128) true }

/-- The start-up tests of compute die n (R120, R202, R467): rows hard-repaired, bad columns added and their maps rebuilt. -/
def State.testCd (s : State) (n : Nat) (b : BootFinds) : State :=
  let rows := b.repairs.filter fun r => r.1.val = n
  let s := rows.foldl (fun s r =>
    let q : Repair := { pc := r.2.1.val, bank := r.2.2.1, row := r.2.2.2 }
    (s.modCd n fun c => { c with hbm := c.hbm.startRow q }).substituted n 0x24 5 q.row (256 * q.pc + q.bank) 2) s
  (List.range 5).foldl (fun (s : State) p =>
    let cols := ((b.columns.filter fun e => e.1.val = 5 * n + p).map (·.2.val)).filter fun c => (s.tile n p).arr.good.contains c
    if cols = [] then s else (s.modArr n p fun a => cols.foldl ArrayU.addBad a).colcfgApply n p) s

/-- The outcome of a command that always answers a next state. -/
def nextOf (s : State) (o : Out) : State :=
  match o with
  | .next t => t
  | _ => s

/-- Link die m powers up (R318, R467): each enabled link trains; what no training is given for fails. -/
def State.trainLd (s : State) (m : Nat) (b : BootFinds) : State :=
  (List.finRange 36).foldl (fun (s : State) l =>
    if l.val / 6 = m then
      let t := ((b.links.find? fun e => e.1 == l).map (·.2)).getD {}
      nextOf s (execLinkTrainingComplete l t s)
    else s) (s.startLd m)

/-- Whether die d passes its start-up test. -/
def diePasses (b : BootFinds) (d : Nat) : Bool := !(b.failed.map (·.val)).contains d

/-- The failures of start-up tests, logged by the Goose (R467). -/
def State.logFailures (s : State) (b : BootFinds) : State :=
  ((b.failed.map (·.val)).filter fun d => decide (d < 24)).foldl (fun (s : State) d =>
    (s.modDie d fun u => { u with failed := true }).raise 24 0x00 4 .internal [BitVec.ofNat 8 d]) s

/-- The repairs found are committed before the start-up record (R467, R473). -/
def State.commitRepairs (s : State) : State :=
  if s.repairDue = [] ∨ s.sec.pufOk = false then s else (s.commitStore s.repairDue true true).1

/-- The steps of R466 from the one that powers the host die (R466, R467): the hub, the link dies, the compute dies, control firmware and
routine library. -/
def State.startDies (s : State) (b : BootFinds) : State :=
  let s := { s with pwr := { s.pwr with dark := false },
                    dies := Tab.remap {} (fun _ u => { u with failed := false }) s.dies }
  let s := s.logFailures b
  let fw := s.fwComp s.boot.fwSlot 2
  let fwOk := decide (sha256 (s.flashN (fwAt s.boot.fwSlot + fw.offset) fw.length) = fw.digest)
  let lib := s.fwComp s.boot.fwSlot 3
  let image := s.flashN (fwAt s.boot.fwSlot + lib.offset) lib.length
  let libE := libraryErr image
  let s := { s with boot := { s.boot with library := if libE = Err.ok then image else [] } }
  let v := s.svc
  let hub := diePasses b 16
  let hd := diePasses b 23 && fwOk
  let s := if fwOk then s else s.raise 24 0x00 4 .checksum
  let s := if hub then { (s.startHub.testHub b) with svc := { v with hubIn := true } } else s
  let lds := (List.range 6).filter fun m => diePasses b (17 + m)
  let s := lds.foldl (fun s m => s.trainLd m b) s
  let cds := (List.range 16).filter (diePasses b)
  let s := cds.foldl (fun s n => (s.startCd n).testCd n b) s
  let s := if hd then s.startHd else s
  let s := if libE = Err.ok then s.extend 3 lib.digest else s.raise 24 0x00 4 libE
  let v1 := { v with hubIn := false, hdIn := hd }
  let s := ({ s with svc := { s.svc with hubIn := false } }).service v1 .ok
  let v2 := { v1 with level := s.svc.level, hubIn := hub, ldIn := lds.foldl (fun a m => a + 2 ^ m) 0 }
  let s := s.service v2 .ok
  let fit := cds.filter s.cdFit
  let v3 := { v2 with level := s.svc.level, cdIn := fit.foldl (fun a n => a + 2 ^ n) 0 }
  let s := (s.service v3 .ok).confirm
  s.commitRepairs

/-- Replay one ledger record of type 2 on the repair records (R475; its data by log entry 15). -/
def replayRecord (l : List CfgRec) (r : List Byte) : List CfgRec :=
  let die := fld r 14 1
  let d := (r.drop 24).take 32
  let index := fld d 4 4
  let old := fld d 8 4
  let new := fld d 12 4
  let get (type i : Nat) (dflt : List Byte) : List Byte := (recData l type i).getD dflt
  let put (type i : Nat) (bs : List Byte) : List CfgRec := recPut l { type := type, index := i, data := bs }
  let ident (n w : Nat) : List Byte := mapBytes n w []
  match fld d 0 1 with
  | 0 =>
    let m := TileMap.ofWord (fld (get 0x11 die (leBytes 8 ({} : TileMap).word)) 0 8)
    put 0x11 die (leBytes 8 { m.setPhys index new with ok := setBit m.ok old false }.word)
  | 1 => put 0x10 (5 * die + index) ((d.drop 8).take 17)
  | 3 => put 0x13 0 (patch (get 0x13 0 (ident 1024 2)) (2 * index) (leBytes 2 new))
  | 4 => put 0x14 0 (leBytes 34 (setBit (fld (get 0x14 0 (leBytes 34 0)) 0 34) old true))
  | 5 => put 0x12 die (get 0x12 die (ident 32 8) ++ [BitVec.ofNat 8 (old / 256), BitVec.ofNat 8 old, BitVec.ofNat 8 new, 0] ++ leBytes 4 index)
  | 6 => put 0x12 die (patch (get 0x12 die (ident 32 8)) (8 * index) (leBytes 8 new))
  | _ => l

/-- The ledger's records of type 2 from number q on, in order (R475). -/
def State.subRecords (s : State) (q : Nat) : List (List Byte) :=
  let o := max q s.ledger.oldest
  ((List.range (s.ledger.seq - o)).filterMap fun i => s.recordRead (o + i)).filter fun r => fld r 12 2 = 2

/-- The rebuild of the repair records after a start with DEFAULTS (R475): from the half of the repair copy in use and the ledger after it,
then a commit. -/
def State.rebuild (s : State) : State :=
  if !s.cfg.defaults ∨ !s.sec.pufOk then s
  else
    let half := s.cfg.repairHalf.map s.half
    let base := (half.map (·.recs)).getD []
    let first := match half with
      | some h => if h.res = 2 ^ 64 - 1 then 0 else h.res + 1
      | none => 0
    let recs := (s.subRecords first).foldl replayRecord base
    let s := (s.commitStore recs true true).1
    let s := { s with cfg := { s.cfg with rebuilt := true, rebuiltPartial := half.isNone } }
    if half.isNone then s.raise 24 0x03 4 .cfgDigest else s

/-- A slot that is neither EMPTY nor valid is logged (R472). -/
def State.logSlot (s : State) (i : Nat) : State :=
  let q := s.slot i
  if q.empty ∨ q.valid then s else s.raise 24 0x03 2 .cfgDigest [BitVec.ofNat 8 i]

/-- The choice of the configuration slot at a start-up (R472). -/
def State.bootSlots (s : State) : State :=
  let s := (s.logSlot 0).logSlot 1
  let a := s.slot 0
  let c := s.slot 1
  let cfg := { s.cfg with valid0 := a.valid, valid1 := c.valid, defaults := (pickSlot a c).isNone, rebuilt := false, rebuiltPartial := false,
                          repairHalf := pickSlot (s.half 0) (s.half 1), staged := [], queue := [] }
  match pickSlot a c with
  | some i =>
    let u := if i = 0 then a else c
    { s with cfg := { cfg with inUse := i, seq := u.seq, recs := u.recs } }.extend 4 (leBytes 8 u.seq ++ u.digest)
  | none => { s with cfg := { cfg with inUse := 0, seq := 0, recs := [] } }.raise 24 0x03 4 .cfgDigest

/-- The factory blocks at a start-up (R461, R462, R481). -/
def State.bootFactory (s : State) : State :=
  let a := s.factoryOk 0
  let c := s.factoryOk 1
  let s := { s with cfg := { s.cfg with facA := a, facB := c, trimOk := a || c } }
  if a || c then
    let f := s.factory
    (({ s with sec := { s.sec with serial := fld f 8 8 } }).extend 5 (sha256 ((f.drop 0x1050).take 0x640))).extend 5 ((f.drop 0x828).take 32)
  else s.raise 24 0x03 5 .cfgDigest

/-- What the records in use give the Keeper die at a start-up (R342, R452, R464, R471, R478, R481). -/
def State.bootRecords (s : State) : State :=
  let l := s.recs
  let s := { s with health := { s.health with marginLimit := recTimer l 7 16 0xF 0, domains := (recWord l 3 0 0 8).getD 0 },
                    sec := { s.sec with svnMin := (recWord l 0xB 0 0 4).getD 0, revoked := (recWord l 0xB 0 4 1).getD 0 % 16, owned := false,
                                        ownerKey := [], ownerCount := 0 } }
  let s := match recData l 2 0 with
    | some d =>
      let v := fld d 0 8
      { s with ft := { s.ft with ctlRoot := bit v 0, useSync := bit v 1, limit := max 1 (bits v 9 2), syncDelay := fld d 8 8 % 16 } }
    | none => s
  let s := match recData l 5 0 with
    | some d => { s with sec := s.sec.owner d }.extend 6 (sha256 (d.take 388))
    | none => s
  let s := (l.filter fun r => r.type == 4).foldl (fun s r => s.extend 6 (sha256 r.data)) s
  { s with sec := { s.sec with claimOpen := !s.sec.owned && decide (s.aonNs < 1800 * secNs), claimSession := false } }

/-- Boot slot i of the flash (R463, R465, R481): M0 and M1, the registers of the running bundle. -/
def State.bootFrom (s : State) (i : Nat) : State :=
  let h := s.flashN (fwAt i) 0x400
  let d := s.dir
  let s := { s with boot := { s.boot with fwSlot := i, tries := d.tries, confirmed := bit d.confirmed i, keyIndex := fld h 6 1, version := fld h 8 4,
                                          started := true, romHold := false, dirty := [], activating := false,
                                          control := (s.fwComp i 2).digest },
                    sec := { s.sec with svn := fld h 0xC 4 } }
  (s.extend 0 (sha256 h)).extend 1 (s.fwComp i 1).digest

/-- The choice of the firmware slot (R464, R465): an unconfirmed preferred slot costs a try; with none left, or when it fails, the other. -/
def State.bootFirmware (s : State) : State :=
  let d := s.dir
  let p := d.preferred
  let tried := !bit d.confirmed p && decide (0 < d.tries)
  let s := if tried then s.writeDir { d with tries := d.tries - 1 } else s
  let e := s.bundleErr p
  let spent := !bit d.confirmed p && decide (d.tries = 0)
  if e = Err.ok ∧ spent = false then { s with boot := { s.boot with fallback := false } }.bootFrom p
  else
    let s := { s with boot := { s.boot with fallback := true } }.raise 24 0x00 4 (if spent then .ok else e)
    if s.bundleErr (1 - p) = Err.ok then s.bootFrom (1 - p)
    else { s with boot := { s.boot with romHold := true, started := false, tries := s.dir.tries } }

/-- The identity key (R476). -/
def State.bootIdentity (s : State) (b : BootFinds) : State :=
  let ok := b.idOk && s.sec.pufOk && s.cfg.trimOk && decide (sha256 (padTo 388 Config.identityKey) = (s.factory.drop 0x828).take 32)
  let s := { s with sec := { s.sec with idOk := ok } }
  if ok then s else s.raise 24 0x04 5 .sig

/-- The boot ROM and the start of the Goose firmware, up to LEVEL 1 (R459, R460, R462, R464, R466, R472, R475, R476, R481, R503). -/
def State.bootKeeper (s : State) (b : BootFinds) : State :=
  let s := { s with sec := { s.sec with meas := [], ext := [], pufOk := b.pufOk } }
  let s := if b.pufOk then s else s.raise 24 0x04 5 .internal
  let s := s.bootSlots.bootFactory
  let l := s.recs
  let s := { s with sec := { s.sec with svnMin := (recWord l 0xB 0 0 4).getD 0, revoked := (recWord l 0xB 0 4 1).getD 0 % 16 } }
  let s := s.bootFirmware
  if s.boot.romHold then s
  else
    let s := s.rebuild.bootRecords
    let s := { s with pwr := { s.pwr with answered := b.stages.map Fin.val } }
    let s := s.service { s.svc with flashIn := s.cfg.valid0 || s.cfg.valid1, oobIn := b.oobOk, oobLink := b.oobLink } .ok
    s.bootIdentity b

/-- BOOT_LEVEL_MS of a start (R486): the counts at which the levels reached were reached. -/
def levelTimes (level : Nat) (ms : List Nat) : List Nat := (List.range 4).map fun k => if k < level then ms.getD k 0 % 2 ^ 16 else 0xFFFF

/-- The sequence ends at the count its last level took (log entry 47): always-on time and fabric time stand there. -/
def State.stampStart (s : State) (ms : List Nat) : State :=
  let t := ms.foldl max 0 * 1000000
  if t ≤ s.aonNs then s
  else { s with aonNs := t, ft := { s.ft with now := if s.ft.failed then s.ft.now else s.ft.now + (t - s.aonNs) } }

/-- The start-up record (R449, R450, R483). -/
def State.startRecord (s : State) : State :=
  let c := s.cfg
  let flags := b2n s.sec.pufOk + 2 * b2n s.sec.idOk + 4 * b2n c.trimOk + 8 * b2n c.defaults + 16 * b2n s.boot.fallback + 32 * b2n c.rebuilt +
    64 * b2n c.rebuiltPartial
  let ms := if s.svc.level = 4 then c.levelMs.getD 3 0xFFFF else 0xFFFFFFFF
  let data := [BitVec.ofNat 8 (if c.valid0 || c.valid1 then (if c.defaults then 0xFF else c.inUse) else 0xFF), BitVec.ofNat 8 s.boot.fwSlot,
      BitVec.ofNat 8 flags, BitVec.ofNat 8 (b2n (!c.facA))] ++ leBytes 8 c.seq ++ leBytes 4 s.sec.svn ++ leBytes 4 s.boot.version ++
    leBytes 4 ms ++ leBytes 2 s.svc.cdIn ++ leBytes 1 s.svc.ldIn
  let e : Event := { time := s.stamp, aon := s.aon, die := 24, unit := 0x00, data := data }
  { s with ledger := { s.ledger with pending := s.ledger.pending ++ [(1, e)], totals := Tab.modify 0 s.ledger.totals 16 (· + 1) } }

/-- The ledger as the Goose finds it (R451): with no valid sector header it is started afresh. -/
def State.bootLedger (s : State) : State :=
  let s := { s with ledger := { s.ledgerScan with pending := s.ledger.pending } }
  if s.newestSector.isNone then s.raise 24 0x02 4 .checksum else s

/-- POWER_ON (R466, R514, R516): a fixture that holds FSPI_REQ# low stops the ROM; MOD_EN low holds the dies at LEVEL 1 in MGMT. -/
def execPowerOn (b : BootFinds) (s : State) : Out :=
  if s.boot.started ∨ s.boot.romHold ∨ !s.pins.fspiReq then .next s
  else
    let s := { s with pins := { s.pins with member := b.grp, modEn := b.modEn, present := true, fspiReq := b.fspiReq } }
    if !b.fspiReq then .next s
    else
      let s := ((s.stampStart (b.levelMs.take 1)).bootLedger).bootKeeper b
      if s.boot.romHold then .next s
      else
        let s := if b.modEn then (s.stampStart b.levelMs).startDies b
          else
            let s := { s with boot := { s.boot with held := true }, pwr := { s.pwr with st := .mgmt } }
            s.service s.svc .ok
        .next ({ s with cfg := { s.cfg with levelMs := levelTimes s.svc.level b.levelMs } }.startRecord)

/-- The sleeping units of a compute die, all in one state; the array PLLs run or not (R494). -/
def ComputeDie.sleepAll (c : ComputeDie) (st : Sleep) (aon : Nat) : ComputeDie :=
  let tile (t : Tile) : Tile := { t with sleep := { t.sleep with st := st, waking := false }, arr := t.arr.pll st.pllOn aon }
  { c with tiles := Tab.remap {} (fun _ t => tile t) c.tiles,
           hen := { c.hen with sleep := { c.hen.sleep with st := st, waking := false } } }

/-- Tiles, Hens and Ox groups enter the states of PARKED, or run (R494). -/
def State.unitsSleep (s : State) (st ox : Sleep) : State :=
  { s with cds := Tab.remap {} (fun _ c => ComputeDie.sleepAll c st s.aonNs) s.cds,
           ox := { s.ox with sleeps := ((List.range 16).map fun g =>
             (g, { (Tab.get {} s.ox.sleeps g : SleepU) with st := ox, waking := false })).filter fun e => e.2 ≠ {} } }

/-- The move into PARKED (R494, R495): links park with cause 7, tiles and Hens are power-gated with retention, Ox groups go off, fabric time
enters HOLDOVER. -/
def State.powerPark (s : State) : State :=
  let s := (List.range 36).foldl (fun (s : State) l =>
    if (s.link l).st = .disabled then s else (s.linkDown l 7 .parked true).modLx l fun x => { x with trainAt := none }) s
  let s := s.unitsSleep .retained .pllOff
  if s.ft.st = .locked ∧ s.ft.ctlRoot = false then { s with ft := { s.ft with st := .holdover, parent := none, holdFrom := s.now } } else s

/-- The move from PARKED to RUN (R495): the units run, and the parked links train. -/
def State.powerUnpark (s : State) : State :=
  (List.range 36).foldl (fun (s : State) l => if (s.link l).st = .parked then s.trainStart l else s) (s.unitsSleep .running .running)

/-- The encoding of a power state (R494). -/
def PwrSt.code : PwrSt → Nat
  | .run => 0 | .parked => 1 | .mgmt => 2

/-- A power state takes effect (R494, R495). -/
def State.powerTo (s : State) (st : PwrSt) (b : BootFinds) : State :=
  let old := s.pwr.st
  let s := { s with pwr := { s.pwr with st := st, moving := none } }
  match st with
  | .mgmt => let s := s.darken true .ok
             s.service s.svc .ok
  | .run => if s.pwr.dark then s.startDies b else let s := if old = .parked then s.powerUnpark else s
                                                  s.service s.svc .ok
  | .parked => let s := if s.pwr.dark then s.startDies b else s
               let s := if old = .parked then s else s.powerPark
               s.service s.svc .ok

/-- GOOSE_RESTART (R468): the sequence from the 1 ms step; the always-on count, the mirror, fabric time and the power registers keep their
state. A power state of MGMT, a trip or a lost reference keeps the dies off. -/
def execGooseRestart (b : BootFinds) (s : State) : Out :=
  if !s.boot.started ∨ s.anyLaunch then .next s
  else
    let st := s.pwr.st
    let s := s.darken false .internal
    let s := { s with boot := {}, pwr := { s.pwr with moving := none }, svc := { s.svc with flashIn := false, oobIn := false },
                      pins := { s.pins with member := b.grp, modEn := b.modEn, fspiReq := b.fspiReq } }
    if !b.fspiReq then .next (s.service s.svc .internal)
    else
      let s := s.bootKeeper b
      if s.boot.romHold then .next (s.service s.svc .internal)
      else
        let off := decide (st = .mgmt) || s.pwr.trip || s.pwr.refLost
        let s := if off then s
          else if !b.modEn then
            let s := { s with boot := { s.boot with held := true }, pwr := { s.pwr with st := .mgmt } }
            s.service s.svc .ok
          else
            let s := s.startDies b
            if st = .parked then s.powerPark else s
        .next { s with cfg := { s.cfg with levelMs := levelTimes s.svc.level b.levelMs } }

end Sys2Proof.Machine
end

