-- ==== Sys2Proof/Machine/Power.lean ====
section
/-! DEFINITION. Power states, trips, clocks, cooling limits, PMBus, the contacts and the carrier SMBus (R489 to R491, R493 to R496, R499, R500,
R503 to R505, R512, R514, R515, R517). -/

namespace Sys2Proof.Machine

/-- PWR_STATUS (R505). -/
def Pwr.status (p : Pwr) : Nat :=
  p.st.code + 4 * b2n p.moving.isSome + 8 * b2n p.trip + 16 * p.tripCause + 128 * p.tripDie + 4096 * b2n p.refLost

/-- PWR_INPUT (R505). -/
def Pwr.input (p : Pwr) : Nat := p.vin % 2 ^ 16 + p.iin % 2 ^ 16 * 2 ^ 16 + p.pin % 2 ^ 16 * 2 ^ 32

/-- The registers 0x0200 to 0x0247 (R505). -/
def State.pwrReg (s : State) (i : Nat) : Nat :=
  let p := s.pwr
  match i with
  | 0 => p.status
  | 1 => p.input
  | 2 => p.energy
  | 3 => (List.range 16).foldl (fun a n => a + (s.cd n).level * 2 ^ (3 * n)) 0
  | 4 => p.insertTemp
  | 5 => p.inserted
  | 6 => p.cool
  | 7 => p.idle
  | 8 => (List.range 8).foldl (fun a k => a + 2 ^ k * b2n (p.answered.contains k) + 2 ^ (8 + k) * b2n (p.faulty.contains k)) 0
  | _ => 0

/-- A transition that is cut short: the command that waits for it gets E_ABORTED; the held sequence waits again (log entry 54). -/
def State.dropMove (s : State) : State :=
  match s.pwr.moving with
  | some (_, some src) => { s with pwr := { s.pwr with moving := none } }.reply src 0x0E03 .aborted []
  | some (_, none) => { s with pwr := { s.pwr with moving := none }, boot := { s.boot with held := true } }
  | none => s

/-- POWER_STATE_SET (R495, R500, R514). -/
def execPowerStateSet (src : Src) (state : Nat) (s : State) : Out :=
  .next (s.command src 0x0E03 (s.isAdmin src) true
    [(decide (2 < state), .range), (decide (state ≠ 2) && (s.pwr.trip || !s.pins.modEn), .denied),
     (s.anyLaunch || s.pwr.moving.isSome || (decide (state ≠ 2) && s.pwr.refLost), .busy)]
    fun s => { s with pwr := { s.pwr with moving := some (if state = 0 then .run else if state = 1 then .parked else .mgmt, some src) } })

/-- POWER_TRANSITION_COMPLETE (R495): the effects, and the reply of the command with the previous state; without the reference the dies
cannot start (R489). -/
def execPowerTransitionComplete (b : BootFinds) (s : State) : Out :=
  match s.pwr.moving with
  | none => .next s
  | some (st, src) =>
    if st ≠ .mgmt ∧ s.pwr.refLost = true then .next s
    else
      let s := match src with
        | some c => s.reply c 0x0E03 .ok [BitVec.ofNat 8 s.pwr.st.code]
        | none => s
      .next (s.powerTo st b)

/-- A trip (R493, R500): every die but the Keeper die is powered off at once, its links silent; logged in the mirror and the ledger. -/
def State.tripNow (s : State) (cause die : Nat) : State :=
  if s.pwr.trip then s
  else
    let s := s.dropMove
    let s := { s with boot := { s.boot with held := false },
                      pwr := { s.pwr with st := .mgmt, trip := true, tripCause := cause, tripDie := if cause = 1 then die else 0, tripAt := s.aonNs } }
    let s := s.darken false .aborted
    let s := s.service s.svc .aborted
    { s with ledger := { s.ledger with totals := Tab.modify 0 s.ledger.totals 64 (· + 1) } }.raise 24 0x00 5 .aborted
      [BitVec.ofNat 8 cause, BitVec.ofNat 8 die]

/-- TRIP (R500): thermal, or a power fault. -/
def execTrip (cause : Fin 5) (die : DieId) (s : State) : Out := if cause.val = 0 then .next s else .next (s.tripNow cause die)

/-- The power fault of a measurement, in mV and 10 mA (R493). -/
def powerFault (vin iin : Nat) : Nat := if vin < 48000 then 2 else if 61000 < vin then 3 else if 10500 < iin then 4 else 0

/-- POWER_SAMPLE (R493): the measurements, the energy since the last in J; a fault that has lasted 100 us trips. -/
def execPowerSample (vin iin pin energy : Nat) (sustained : Bool) (s : State) : Out :=
  let s := { s with pwr := { s.pwr with vin := vin, iin := iin, pin := pin, energy := s.pwr.energy + energy } }
  let c := powerFault vin iin
  .next (if sustained = true ∧ c ≠ 0 then s.tripNow c 0 else s)

/-- INPUT_POWER_LOSS (R26, R448, R473, R493): every volatile state is lost; the flash keeps its contents. -/
def execInputPowerLoss (s : State) : Out :=
  .next { pending := s.pending, out := s.out, free := s.free, flash := s.flash }

/-- TRIP_CLEAR (R500, R504): 60 s after the trip at the earliest. -/
def execTripClear (src : Src) (s : State) : Out :=
  .next (s.command src 0x0E07 (s.isAdmin src) true [(!s.pwr.trip, .seq), (decide (s.aonNs < s.pwr.tripAt + 60 * secNs), .busy)] fun s =>
    { s with pwr := { s.pwr with trip := false } }.reply src 0x0E07 .ok [])

/-- REFCLK_LOSS (R346, R489): every die but the Keeper die leaves service, fabric time goes on in HOLDOVER. -/
def execRefclkLoss (s : State) : Out :=
  if s.pwr.refLost then .next s
  else
    let s := { s with pwr := { s.pwr with refLost := true } }
    let s := s.darken false .internal
    let s := if s.ft.st = .locked ∧ s.ft.ctlRoot = false then
        { s with ft := { s.ft with st := .holdover, parent := none, holdFrom := s.now } } else s
    .next (s.raise 24 0x00 5 .internal)

/-- REFCLK_RETURN (R489). -/
def execRefclkReturn (s : State) : Out := .next { s with pwr := { s.pwr with refLost := false } }

/-- MOD_EN_RISE (R514): the held sequence goes on from the host die; otherwise only the contact changes. -/
def execModEnRise (s : State) : Out :=
  let s := { s with pins := { s.pins with modEn := true } }
  if s.boot.held = true ∧ s.pwr.trip = false ∧ s.pwr.moving.isNone = true then
    .next { s with boot := { s.boot with held := false }, pwr := { s.pwr with moving := some (.run, none) } }
  else .next s

/-- MOD_EN_FALL (R514): MGMT at once, whatever runs. -/
def execModEnFall (s : State) : Out :=
  let s := { s with pins := { s.pins with modEn := false } }
  if s.pwr.st = .mgmt then .next (if s.pwr.moving.isSome then s.dropMove else s)
  else
    let s := s.dropMove
    let s := { s with pwr := { s.pwr with st := .mgmt } }
    let s := s.darken true .aborted
    .next ((s.service s.svc .aborted).raise 24 0x00 4 .aborted)

/-- A stage's words after a poll (R503): a status bit newly set is logged, and so is the third poll failed in succession. -/
def State.stagePoll (s : State) (a : Nat) (w : Option (List Nat)) : State :=
  let say (s : State) (word : Nat) : State := s.raise 24 0x00 3 .internal ([BitVec.ofNat 8 (0x40 + a), 0] ++ leBytes 2 word)
  match w with
  | some l =>
    let old := (Tab.get [] s.pwr.stages a).getD 4 0
    let new := l.getD 4 0 % 2 ^ 16
    let s := { s with pwr := { s.pwr with
      stages := Tab.put s.pwr.stages a ((List.range 5).map fun i => l.getD i 0 % 2 ^ 16), fails := Tab.del s.pwr.fails a,
      faulty := (s.pwr.faulty.filter (· ≠ a)) ++ if new = 0 then [] else [a] } }
    if (List.range 16).any (fun i => bit new i && !bit old i) then say s new else s
  | none =>
    let n := Tab.get 0 s.pwr.fails a + 1
    let s := { s with pwr := { s.pwr with fails := Tab.put s.pwr.fails a n } }
    if n = 3 then say s 0xFFFF else s

/-- A poll of every stage that answered at start-up (R503). -/
def State.poll (s : State) (answers : List PmbAnswer) : State :=
  s.pwr.answered.foldl (fun s a => s.stagePoll a ((answers.find? fun q => q.stage.val == a).bind (·.words))) s

/-- PMBUS_POLL (R503). -/
def execPmbusPoll (answers : List PmbAnswer) (s : State) : Out := .next (s.poll answers)

/-- PMB_ALERT (R512): an immediate poll of every stage. -/
def execPmbAlert (answers : List PmbAnswer) (s : State) : Out := .next (s.poll answers)

/-- SEC_STATUS (R487). -/
def Sec.status (c : Sec) : Nat :=
  b2n c.pufOk + 2 * b2n c.idOk + 4 * b2n c.owned + 8 * b2n c.claimOpen + 16 * b2n c.claimSession + 256 * c.revoked

/-- The word an SMBus command reads (R515): zero for four of them before the Goose firmware runs. -/
def State.smbusWord (s : State) (cmd : Nat) : Option Nat :=
  let late (v : Nat) : Nat := if s.boot.started then v else 0
  match cmd with
  | 0 => some (late s.kdService)
  | 1 => some (s.cfgReg 2)
  | 2 => some (late (s.cfgReg 0))
  | 3 => some (s.pwrReg 0)
  | 4 => some (s.pwrReg 1)
  | 5 => some (s.pwrReg 6)
  | 6 => some (late s.health.status)
  | 7 => some s.sec.status
  | 8 => some (late (s.mirror.head % 2 ^ 32))
  | _ => none

/-- SMBUS_BLOCK_READ (R515): from the 1 ms step on; an undefined code is answered with NACK. -/
def execSmbusBlockRead (cmd : Nat) (s : State) : Out :=
  .next (s.emit (.smbus (if s.aonNs < 1000000 then none else (s.smbusWord cmd).map (leBytes 8))))

/-- SMBUS_ALERT_RESPONSE (R515): the reply is the module's own address, and SMB_ALERT# is released. -/
def execSmbusAlertResponse (s : State) : Out :=
  if s.pins.smbAlert then
    .next ({ s with pins := { s.pins with smbAlert := false } }.emit (.smbus (some [BitVec.ofNat 8 (0x60 + s.pins.member)])))
  else .next (s.emit (.smbus none))

/-- MOD_PG and THERMTRIP# (R512): released, and driven low. -/
def State.modPg (s : State) : Bool := decide (s.pwr.st = .run) && decide (2 ≤ s.svc.level)
def State.thermTripLow (s : State) : Bool := s.pwr.trip

/-- TEST_PORT_INSTRUCTION (R517): EXTEST is taken only while MOD_EN is low. -/
def execTestPortInstruction (i : TestInstr) (s : State) : Out :=
  let t := if i = .extest ∧ s.pins.modEn = true then TestInstr.bypass else i
  let dr : Option Nat := match t with
    | .bypass => some 0
    | .idcode => some (0x03616F3F % 2 ^ 28 + Config.revision 24 % 16 * 2 ^ 28)
    | _ => none
  .next ({ s with pins := { s.pins with tapIr := t } }.emit (.tap t dr))

/-- The code of a sleep state, in the order of R27. -/
def Sleep.code : Sleep → Nat
  | .running => 0 | .gated => 1 | .pllOff => 2 | .retained => 3

/-- The units of a die with a sleep state, in the order of R491's kinds (log entry 55). -/
def State.sleepBytes (s : State) (d : Nat) : List Byte :=
  let b (v : SleepU) : Byte := BitVec.ofNat 8 v.st.code
  padTo 64 (
    if d < 16 then (List.range 5).map (fun p => b (s.tile d p).sleep) ++ [b (s.cd d).hen.sleep]
    else if d = 16 then (List.range 16).map fun g => b (Tab.get {} s.ox.sleeps g)
    else if d < 23 then (List.range 6).map fun i => b (s.lx (6 * (d - 17) + i)).sleep
    else [])

/-- CLK_STATUS (R504). -/
def execClkStatus (src : Src) (die : Nat) (s : State) : Out :=
  .next (s.command src 0x0E01 true true [(decide (24 < die), .range)] fun s => s.reply src 0x0E01 .ok (s.sleepBytes die))

/-- PWR_STATUS (R504). -/
def execPwrStatus (src : Src) (s : State) : Out :=
  .next (s.command src 0x0E02 true true [] fun s => s.reply src 0x0E02 .ok ((List.range 9).flatMap fun i => leBytes 8 (s.pwrReg i)))

/-- A write of IDLE_TIMER (R490). -/
def State.idleSet (s : State) (us : Nat) : Except Err State :=
  if s.anyLaunch then .error .busy else .ok { s with pwr := { s.pwr with idle := max 1 (min 1000 us) } }

/-- IDLE_TIMER_SET (R490, R504). -/
def execIdleTimerSet (src : Src) (us : Nat) (s : State) : Out :=
  .next (s.command src 0x0E04 (s.isAdmin src) true [(s.anyLaunch, .busy)] fun s =>
    match s.idleSet us with
    | .ok t => t.reply src 0x0E04 .ok (leBytes 2 t.pwr.idle)
    | .error e => s.reply src 0x0E04 e [])

/-- A write of THERM_CTL (R496). -/
def State.thermSet (s : State) (temp : Nat) : State := { s with pwr := { s.pwr with insertTemp := max 85 (min 100 temp) } }

/-- THERM_SET (R496, R504). -/
def execThermSet (src : Src) (temp : Nat) (s : State) : Out :=
  .next (s.command src 0x0E06 (s.isAdmin src) true [] fun s =>
    let s := s.thermSet temp
    s.reply src 0x0E06 .ok [BitVec.ofNat 8 s.pwr.insertTemp])

/-- The unit UNIT_SLEEP names (R504). -/
def sleepUnitOf (die kind index : Nat) : Option SleepUnit :=
  match kind with
  | 0 => if h : die < 16 ∧ index < 5 then some (.tile ⟨die, h.1⟩ ⟨index, h.2⟩) else none
  | 1 => if h : die < 16 ∧ index = 0 then some (.hen ⟨die, h.1⟩) else none
  | 2 => if h : die = 16 ∧ index < 16 then some (.ox ⟨index, h.2⟩) else none
  | 3 => if h : 17 ≤ die ∧ die < 23 ∧ index < 6 then some (.link ⟨6 * (die - 17) + index, by omega⟩) else none
  | _ => none

/-- UNIT_SLEEP (R491, R504). -/
def execUnitSleep (src : Src) (die kind index state : Nat) (s : State) : Out :=
  let u := sleepUnitOf die kind index
  let st : Sleep := if state = 1 then .pllOff else .retained
  .next (s.command src 0x0E05 (s.isAdmin src) true
    [(u.isNone || !s.dieIn die, .range), (decide (state ≠ 1 ∧ state ≠ 2), .badarg),
     ((match u with
       | some u => !sleepSupports u st
       | none => false), .denied),
     ((match u with
       | some u => s.unitWorks u
       | none => false) || (if die < 16 then s.launchOn die else s.anyLaunch), .busy)]
    fun s =>
      match u with
      | some u => (s.modSleep u fun v => { v with st := st, waking := false }).reply src 0x0E05 .ok []
      | none => s)

/-- PMBUS_READ (R504): what the stage answers. -/
def execPmbusRead (src : Src) (addr cmd len : Nat) (answer : Option (List Byte)) (s : State) : Out :=
  .next (s.command src 0x0E08 true true
    [(decide (addr < 0x40 ∨ 0x47 < addr ∨ 255 < cmd ∨ len = 0 ∨ 2 < len), .range), (decide ((answer.map List.length) ≠ some len), .uncorr)]
    fun s => s.reply src 0x0E08 .ok (answer.getD []))

/-- MULE_THERMAL_GATE (R499): in each 20 us of always-on count a running Mule of an unscheduled context on a die at level L is gated for L us,
which counts against no budget. -/
def execMuleThermalGate (d : CdId) (p : PTile) (s : State) : Out :=
  let t := s.tile d p
  let l := (s.cd d).level
  let w := s.aonNs / 20000 + 1
  if l = 0 ∨ t.mule.st ≠ .run ∨ t.mem.gated = w then .next s
  else match t.mem.ctx with
    | none => .next s
    | some x =>
      if (s.cx x).scheduled then .next s
      else
        let gate := 1000 * l
        let s := s.modTile d p fun t =>
          { t with mem := { t.mem with gated := w },
                   mule := { t.mule with stack := t.mule.stack.map fun f => { f with from_ := f.from_ + gate } } }
        let s := s.modCd d fun c => { c with episode := c.episode.map fun e => (e.1, e.2 + gate) }
        .next { s with pwr := { s.pwr with inserted := s.pwr.inserted + gate } }

end Sys2Proof.Machine
end

