-- ==== Sys2Proof/Machine/Regs.lean ====
section
/-! DEFINITION. The registers and tables of the state address space, word by word (R18, R51, R52, R77, R113, R115, R140, R145, R191 to R194,
R204, R206, R216, R220, R226, R248, R249, R287, R288, R311, R339, R340, R370 to R372, R394 to R396, R420 to R423, R433, R444, R456, R457, R486,
R487, R505, R522). -/

namespace Sys2Proof.Machine

/-- The word at offset `o` of a table of `n` entries of `size` bytes at `base`. -/
def tabAt (o base size n : Nat) (entry : Nat → List Byte) : Option Nat :=
  if base ≤ o ∧ o < base + size * n then some (fld (entry ((o - base) / size)) ((o - base) % size) 8) else none

/-- The word at offset `o` of registers that follow each other from `base`. -/
def regsAt (o base : Nat) (regs : List Nat) : Option Nat := tabAt o base 8 regs.length fun i => leBytes 8 (regs.getD i 0)

/-- The first of several parts of a unit that has a word here; a word that names nothing reads as zero (R424). -/
def firstWord : List (Option Nat) → Nat
  | [] => 0
  | some v :: _ => v
  | none :: l => firstWord l

/-- The units of each die (R422). -/
def unitsOf (d : Nat) : List Nat :=
  (if d < 16 then [0x00, 0x04, 0x08, 0x09, 0x0A, 0x0B, 0x0C, 0x10, 0x11, 0x12, 0x13, 0x14, 0x18, 0x19, 0x1A, 0x1B, 0x1C, 0x20, 0x24, 0x25,
                   0x26, 0x27, 0x28]
   else if d = 16 then [1, 2, 3, 4, 5]
   else if d < 23 then [0, 1, 2, 3, 4, 5]
   else if d = 23 then [2, 3, 4, 5, 6, 0x10, 0x11, 0x12, 0x13, 0x14, 0x15, 0x16, 0x17, 0x20]
   else [0, 1, 2, 3, 4]) ++ [0x3F]

/-- DIE_UNITS (R423). -/
def dieUnits (d : Nat) : Nat := (unitsOf d).foldl (fun a u => a + 2 ^ u) 0

/-- DIE_ID (R423). -/
def State.dieId (s : State) (d : Nat) : Nat := d + 2 ^ 8 * (Config.revision d % 256) + 2 ^ 16 * b2n (s.dieIn d)

/-- The die information unit (R423). -/
def State.dieInfo (s : State) (d : Nat) : List Nat := [s.dieId d, dieUnits d, (s.dieU d).resets, (s.dieU d).resetTime]

/-- The gaps in the code space of a routine store (R143, R145). -/
def storeGaps (m : Mem) : List Nat :=
  let l := sortBy (fun a b => decide (a.1 ≤ b.1)) (storeSpans m)
  let r := l.foldl (fun (r : Nat × List Nat) e => (max r.1 e.2, r.2 ++ [e.1 - r.1])) (0x10400, [])
  r.2 ++ [0x400000 - r.1]

/-- RS_STATUS (R145): all zero but BUSY while no library is loaded. -/
def RoutineStore.status (r : RoutineStore) : Nat :=
  if r.mem = [] then 2 ^ 55 * b2n r.busy
  else r.libVersion + 2 ^ 16 * (storeSpans r.mem).length + 2 ^ 29 * ((storeGaps r.mem).sum / 1024) +
    2 ^ 42 * ((storeGaps r.mem).foldl max 0 / 1024) + 2 ^ 55 * b2n r.busy

/-- ARR_STATUS (R115). -/
def ArrayU.status (a : ArrayU) : Nat :=
  a.plane0.st.code + 8 * a.plane1.st.code + 64 * b2n (a.passes.any fun q => !q.inputDone) + 128 * b2n a.disabled + 256 * a.width +
    2 ^ 16 * a.spareIdle + 2 ^ 20 * b2n a.checkedLaunch

/-- An event counter with its WRAP bit (R522). -/
def EvCount.word (e : EvCount) : Nat := e.count + 2 ^ 48 * b2n e.wrap

/-- The four bytes of a cell's value in the plane window, and of eight cells' state (R115). -/
def Plane.valueWord (p : Plane) (o : Nat) : Nat :=
  (Tab.get {} p.cells (o / 4) : CellV).val.toNat + 2 ^ 32 * (Tab.get {} p.cells (o / 4 + 1) : CellV).val.toNat
def Plane.stateWord (p : Plane) (o : Nat) : Nat :=
  leNat ((List.range 8).map fun i => BitVec.ofNat 8 (Tab.get {} p.cells (o + i) : CellV).stateByte)

/-- A matrix array's unit (R115, R522). -/
def ArrayU.word (a : ArrayU) (aon o : Nat) : Nat :=
  if 0x10000 ≤ o then
    let p := if o < 0x30000 then a.plane0 else a.plane1
    let at_ := if o < 0x30000 then o - 0x10000 else o - 0x30000
    if 0x50000 ≤ o then 0 else if at_ < 0x10000 then p.valueWord at_ else if at_ < 0x14000 then p.stateWord (at_ - 0x10000) else 0
  else firstWord [
    regsAt o 0 [a.status, a.badA.toNat, a.badB.toNat, a.badC, b2n a.checkCol + 2 * b2n a.checkNext, a.misCount + 2 ^ 16 * a.misLimit,
      a.resumeK + 2 ^ 32 * b2n a.resumeValid + 2 ^ 33 * a.resumePlane + 2 ^ 34 * b2n a.resumeAborted, a.passCount],
    regsAt o 0x100 [(a.cyclesAt aon).word, a.evInput.word, a.evDrain.word, a.evCheck.word]]

/-- EE_STATUS (R140). -/
def EeU.status (u : EeU) : Nat :=
  4 * b2n u.disabled + match u.run with
    | none => 0
    | some r => 1 + r.kind + (if r.kind = 0 then 8 * bits (eeD r.desc).src 1 0 + 32 * r.slots else 0)

/-- An element engine's unit (R140). -/
def EeU.word (u : EeU) (o : Nat) : Nat :=
  firstWord [
    regsAt o 0 [u.status, u.resumePos + 2 ^ 32 * b2n u.resumeValid + 2 ^ 33 * b2n u.resumeAborted + 2 ^ 34 * u.resumeKind, u.runs, u.lastCount],
    tabAt o 0x1000 8 16 fun i => (List.range 8).map fun j => BitVec.ofNat 8 (Tab.get 0 u.laneFlags (8 * i + j)),
    tabAt o 0x2000 8 1024 fun i => leBytes 4 (Tab.get 0 u.vregs (2 * i)).toNat ++ leBytes 4 (Tab.get 0 u.vregs (2 * i + 1)).toNat]

/-- Threads of a job slot in a state, or in any but FREE (R191, R192). -/
def Hen.threadsIn (h : Hen) (p : HenThread → Bool) : Nat := (h.threads.filter fun t => p t.2).length

/-- HEN_STATUS (R191). -/
def Hen.status (h : Hen) : Nat :=
  b2n (decide (h.sleep.st = .running)) + 2 * b2n h.disabled + 4 * b2n h.quiescing +
  (List.range 8).foldl (fun a j => a + 2 ^ (3 + j) * b2n (decide ((Tab.get {} h.jobs j : HenJob).st ≠ 0))) 0 +
  2 ^ 11 * h.threadsIn (fun t => decide (t.st ≠ 0)) +
  2 ^ 22 * h.threads.foldl (fun a t => a + (t.2.reqs.filter fun r => !r.2.held).length) 0 + 2 ^ 36 * h.threadsIn (fun t => decide (t.st = 2))

/-- A Hen's unit (R191 to R194). -/
def Hen.word (h : Hen) (o : Nat) : Nat :=
  let per (f : Nat → Nat) : Nat := (List.range 4).foldl (fun a i => a + 2 ^ (11 * i) * f i) 0
  firstWord [
    regsAt o 0 [h.status, per fun i => Tab.get 0 h.allot i,
      per fun i => h.threadsIn fun t => decide (t.st ≠ 0 ∧ (Tab.get {} h.jobs t.slot : HenJob).ltile = i), h.timeout, h.jobCount, h.reqCount, h.late],
    tabAt o 0x400 128 8 fun j => (Tab.get {} h.jobs j : HenJob).bytes (h.threadsIn fun t => decide (t.st = 2 ∧ t.slot = j)),
    tabAt o 0x10000 128 1024 fun t => (Tab.get {} h.threads t : HenThread).bytes]

/-- A repair entry (R204) and an export entry (R206). -/
def Repair.bytes (r : Repair) : List Byte :=
  padTo 16 ([BitVec.ofNat 8 r.pc, BitVec.ofNat 8 r.bank] ++ leBytes 4 r.row ++ [BitVec.ofNat 8 r.kind])
def Export.bytes (e : Export) : List Byte := leBytes 8 e.base ++ leBytes 4 e.len2m ++ [BitVec.ofNat 8 e.peers, BitVec.ofNat 8 e.access, 0, 0]

/-- An HBM3E controller's unit (R204, R206). -/
def Hbm.word (h : Hbm) (o : Nat) : Nat :=
  let line := (List.range 31).foldl (fun a i => min a (Tab.get 0 h.scrubLine (i + 1))) (Tab.get 0 h.scrubLine 0)
  firstWord [
    regsAt o 0 [h.status, h.logicalSel + 2 ^ 6 * b2n h.migDone + 2 ^ 7 * h.migCode.code, h.ce, h.ue, h.scrubPasses % 2 ^ 32 + 2 ^ 32 * line,
      h.softRepairs + 2 ^ 16 * h.hardRepairs, ux 16 h.temp],
    tabAt o 0x100 8 32 fun l => leBytes 8 (Tab.get l h.pcMap l),
    tabAt o 0x200 16 8 fun i => (Tab.get {} h.exports i : Export).bytes,
    tabAt o 0x1000 16 256 fun i => (h.repairs.getD i {}).bytes]

/-- A translation slot entry (R216). -/
def TSlot.bytes (t : TSlot) : List Byte :=
  leBytes 2 t.ctx ++ [BitVec.ofNat 8 (b2n t.bound), BitVec.ofNat 8 (b2n t.fail)] ++ leBytes 2 t.gen ++ [0, 0] ++ leBytes 8 t.l1 ++ leBytes 16 0

/-- Requesters parked on a die (R216). -/
def ComputeDie.parked (c : ComputeDie) : Nat :=
  (c.dma.engines.filter fun e => decide (e.2.st = 2)).length + c.hen.threadsIn fun t => decide (t.st = 2)

/-- The translation unit (R216). -/
def ComputeDie.trWord (c : ComputeDie) (o : Nat) : Nat :=
  let t := c.tr
  firstWord [
    regsAt o 0 [((t.slots.filter fun e => e.2.bound).map fun e => 2 ^ e.1).sum + 2 ^ 20 * t.faults.length + 2 ^ 27 * c.parked,
      t.invSlot + 16 * b2n t.invAll + 64 * b2n t.invDone, t.invBase, t.invLen, t.misses, t.walks, t.pfHead],
    tabAt o 0x100 32 16 fun i => (Tab.get {} t.slots i : TSlot).bytes,
    tabAt o 0x1000 32 64 fun i => ((List.find? (fun f => f.place == i) t.faults).map FaultRec.bytes).getD []]

/-- The DMA engines (R220). -/
def Dma.word (m : Dma) (o : Nat) : Nat :=
  let per (f : DmaEng → Bool) : Nat := (List.range 8).foldl (fun a e => a + 2 ^ e * b2n (f (Tab.get {} m.engines e))) 0
  firstWord [
    regsAt o 0 [per (fun e => decide (e.st = 1 ∨ e.st = 2)) + 2 ^ 8 * per (fun e => decide (e.st = 2)) + 2 ^ 16 * per (·.disabled), m.bytes],
    tabAt o 0x400 128 8 fun e => (Tab.get {} m.engines e : DmaEng).bytes]

/-- The buffer pool manager (R226). -/
def Bp.word (b : Bp) (o : Nat) : Nat :=
  firstWord [
    regsAt o 0 [b.statusWord, b.region, 0, 0, b.resAddr + 2 ^ 37 * b.resCode.code + 2 ^ 53 * b2n b.resValid, b.allocs, b.frees, b.refused],
    tabAt o 0x40 8 6 fun p => leBytes 8 (b.pool p).count,
    tabAt o 0x80 8 6 fun p => leBytes 8 (b.pool p).freeWord,
    tabAt o 0x200 16 96 fun i => (Tab.get {} b.quota i : Quota).bytes]

/-- A slot entry (R354). -/
def SlotE.bytes (e : SlotE) : List Byte :=
  [BitVec.ofNat 8 e.kind, BitVec.ofNat 8 e.tile, BitVec.ofNat 8 (b2n e.os), 0] ++ leBytes 4 e.length ++ leBytes 8 e.base ++ leBytes 4 e.wOpen ++
  leBytes 4 e.wClose ++ leBytes 4 e.consume ++ leBytes 4 e.step ++ leBytes 8 e.next ++ leBytes 4 e.received ++ leBytes 2 e.slot ++
  leBytes 2 e.ctx ++ [BitVec.ofNat 8 (b2n e.armed + 2 * b2n e.filled + 4 * b2n e.gap)] ++ leBytes 7 0 ++ leBytes 8 e.filledAt

/-- The slot unit (R372). -/
def Slots.word (u : Slots) (o : Nat) : Nat :=
  let n (f : SlotE → Bool) : Nat := (u.entries.filter fun e => e.2.kind != 0 && f e.2).length
  firstWord [
    regsAt o 0 [n (fun _ => true) + 2 ^ 13 * n (·.filled) + 2 ^ 26 * n (·.armed), u.arrivals, u.discards, u.consumed],
    tabAt o 0x10000 64 4096 fun i => (Tab.get {} u.entries i : SlotE).bytes]

/-- A word of a compute die (R422). -/
def State.cdWord (s : State) (d u o : Nat) : Nat :=
  let c := s.cd d
  if u = 0 then firstWord [regsAt o 0x40 [c.map.word, c.widthWord], tabAt o 0x200 8 4 fun i => leBytes 8 (Tab.get 0 c.flags i),
                           tabAt o 0x220 8 4 fun i => leBytes 8 (Tab.get 0 c.flush i)]
  else if u = 4 then firstWord [regsAt o 0 [c.rs.status, c.rs.patches, c.rs.calls], tabAt o 0x400000 8 0x80000 fun i => Mem.readN c.rs.mem (8 * i) 8]
  else if u < 0x10 then ((s.tile d (u - 8)).mule.regAt (o / 8)).getD 0
  else if u < 0x18 then (s.tile d (u - 0x10)).arr.word s.aonNs o
  else if u < 0x20 then (s.tile d (u - 0x18)).ee.word o
  else if u = 0x20 then c.hen.word o
  else if u = 0x24 then c.hbm.word o
  else if u = 0x25 then c.trWord o
  else if u = 0x26 then c.dma.word o
  else if u = 0x27 then c.bp.word o
  else c.slots.word o

/-- A queue's entry (R248). -/
def Queue.bytes (q : Queue) : List Byte :=
  leBytes 4 q.len ++ leBytes 4 q.pkts ++ leBytes 4 q.rsv ++ leBytes 4 0 ++ leBytes 8 q.dropped ++ leBytes 8 q.sent

/-- The switch core (R248). -/
def State.switchWord (s : State) (o : Nat) : Nat :=
  let h := s.hub
  let pair (f : Nat → Nat) : Nat := f 0 + 2 ^ 22 * f 1
  firstWord [
    regsAt o 0 [b2n h.up + (List.range 54).foldl (fun a i => a + 2 ^ (i + 1) * b2n (h.outIn i)) 0, h.reqRows + 2 ^ 11 * h.redRows, h.alpha, h.share,
      pair s.netFree, pair h.unconsumed, (262144 - h.pkts.length) + 2 ^ 19 * (524288 - h.entriesUsed), h.pktsIn, h.pktsOut, h.drops, h.hdrErr,
      h.routeErr, 2 * b2n h.snapReady, h.snapTime, h.snapFree, h.snapUnrsv, h.poison],
    tabAt o 0x1000 32 324 fun q => (h.queue q).bytes,
    tabAt o 0x4000 32 324 fun q => (Tab.get {} h.snapQueues q : Queue).bytes]

/-- Shared memory (R249). -/
def HubMem.word (m : HubMem) (o : Nat) : Nat :=
  firstWord [
    regsAt o 0 [m.status, m.ce, m.ue, m.logicalSel + 2 ^ 11 * b2n m.done + 2 ^ 12 * m.code.code, m.ceLimit],
    tabAt o 0x400 8 256 fun i => (List.range 4).flatMap fun j => leBytes 2 (m.phys (4 * i + j)),
    tabAt o 0x1000 8 528 fun i => (List.range 2).flatMap fun j =>
      leBytes 4 (Tab.get 0 m.bankCe (2 * i + j) + 2 ^ 24 * Tab.get 0 m.bankUe (2 * i + j))]

/-- A unit's entry (R287). -/
def State.oxUnitWord (s : State) (p : Nat) : Nat :=
  let u := s.oxu p
  let l := s.oxLogical p
  b2n l.isSome + 2 * b2n (decide (p % 17 = 16) && u.takes.isNone && !u.retired) + 4 * b2n u.retired + 8 * l.getD 0x1F + 2 ^ 8 * min 3 u.mismatch

/-- The Ox (R287, R288). -/
def State.oxWord (s : State) (o : Nat) : Nat :=
  let held (f : Binding → Bool) : Nat := (s.ox.binds.filter fun b => decide (b.2.st ≠ .free) && f b.2).length
  firstWord [
    regsAt o 0 [s.oxStatus, s.oxLines + 2 ^ 18 * s.oxFree + 2 ^ 36 * s.ox.reserved,
      held (fun _ => true) + 2 ^ 11 * held (fun b => decide (b.place = 2)), s.ox.adds, s.ox.steps, s.ox.unbound, s.ox.residueErr],
    tabAt o 0x100 8 272 fun p => leBytes 8 (s.oxUnitWord p),
    tabAt o 0x1000 64 1024 fun b => (s.bind b).entryBytes,
    tabAt o 0x20000 512 1024 fun b => padTo 512 (Tab.get [] s.ox.progs b)]

/-- Collective control (R311). -/
def State.collWord (s : State) (o : Nat) : Nat :=
  let n (st : BindSt) : Nat := (s.ox.binds.filter fun b => decide (b.2.st = st)).length
  firstWord [
    regsAt o 0 [n .open + 2 ^ 11 * n .running + 2 ^ 22 * n .done + 2 ^ 33 * n .aborted +
        2 ^ 44 * ((List.range 1024).filter s.collEligible).length, s.ox.cool, s.node, s.ox.bindCount, s.ox.doneCount, s.ox.abortCount],
    tabAt o 0x1000 64 1024 fun b => (s.bind b).controlBytes]

/-- Routing (R340). -/
def Routing.word (r : Routing) (o : Nat) : Nat :=
  let cont (t : Tab (Nat × Bool)) (i : Nat) : List Byte :=
    leBytes 12 (Tab.get (0, false) t i).1 ++ [BitVec.ofNat 8 (b2n (Tab.get (0, false) t i).2), 0, 0, 0]
  firstWord [
    regsAt o 0 [r.status, r.commitTime, r.epochErr, r.conts],
    tabAt o 0x1000 8 54 fun p => leBytes 4 (r.counter p 0) ++ leBytes 4 (r.counter p 1),
    tabAt o 0x10000 16 4096 (cont r.cont0), tabAt o 0x20000 16 4096 (cont r.cont1),
    tabAt o 0x30000 8 4096 fun i => leBytes 8 (Tab.get 0 r.mc0 i), tabAt o 0x38000 8 4096 fun i => leBytes 8 (Tab.get 0 r.mc1 i)]

/-- A word of the hub (R422). -/
def State.hubWord (s : State) (u o : Nat) : Nat :=
  if u = 1 then s.switchWord o else if u = 2 then s.hubm.word o else if u = 3 then s.oxWord o else if u = 4 then s.collWord o else s.rt.word o

/-- The schedule sequencer (R371). -/
def Sq.word (q : Sq) (o : Nat) : Nat :=
  firstWord [
    regsAt o 0 [(List.range 16).foldl (fun a e => a + 2 ^ e * b2n (decide ((Tab.get {} q.recs e : Rec).st ≠ .free))) 0, q.aborts, q.late, q.dups],
    tabAt o 0x1000 128 16 fun e => (Tab.get {} q.recs e : Rec).bytes]

/-- The context table (R420). -/
def CtxU.word (c : CtxU) (o : Nat) : Nat :=
  firstWord [
    regsAt o 0 [(c.tab.filter fun e => decide (e.2.st ≠ .free)).length + 2 ^ 13 * (c.tab.filter fun e => decide (e.2.st = .running)).length,
      c.creates, c.savesDone],
    tabAt o 0x10000 64 4096 fun x => (Tab.get {} c.tab x : Ctx).bytes]

/-- A mailbox's entry (R421). -/
def MboxU.bytes (b : MboxU) : List Byte :=
  leBytes 4 b.e ++ [BitVec.ofNat 8 b.frames.length, BitVec.ofNat 8 (b2n b.running)] ++
  leBytes 2 (if b.running then b.runCmd else 0) ++ leBytes 4 (if b.running then b.runSeq else 0) ++
  leBytes 2 b.lastStatus ++ leBytes 2 0 ++ leBytes 8 b.accepted ++ leBytes 8 0

/-- The mailbox engine (R396, R421). -/
def State.mbxWord (s : State) (o : Nat) : Nat :=
  let m := s.mbx
  let per (f : Nat → Bool) : Nat := (List.range 8).foldl (fun a c => a + 2 ^ c * b2n (f c)) 0
  firstWord [
    regsAt o 0 [per (fun c => decide ((s.enrol c).st = 1)) + 2 ^ 8 * per (fun c => Tab.has s.xp.pend c) +
        2 ^ 16 * m.boxes.foldl (fun a b => a + b.2.frames.length) 0, m.accepted, m.refused, m.discards, m.watchdog],
    tabAt o 0x100 64 8 fun c => (s.enrol c).bytes,
    tabAt o 0x400 32 64 fun i => (Tab.get {} m.boxes i : MboxU).bytes,
    tabAt o 0xC00 16 8 fun c => leBytes 4 (Tab.get 0 m.noticeSeq c) ++ leBytes 2 (Tab.get [] m.notices c).length ++ leBytes 10 0]

/-- A progress entry (R453, R457). -/
def Progress.bytes (p : Progress) : List Byte := leBytes 8 p.pending ++ leBytes 8 p.useful ++ leBytes 8 p.lost ++ leBytes 8 p.moved

/-- The event log (R457). -/
def State.logWord (s : State) (o : Nat) : Nat :=
  firstWord [
    regsAt o 0 [s.log.head % 2 ^ 32, s.log.overwrites, s.log.lost],
    tabAt o 0x400000 64 65536 fun i => Tab.get [] s.log.ring i,
    tabAt o 0x800000 32 4096 fun x => (s.progNow x).bytes]

/-- A meter's and a queue's entry, their tokens brought up to date (R384, R389, R394). -/
def Meter.bytes (m : Meter) (now : Nat) : List Byte :=
  leBytes 4 m.cir ++ leBytes 4 m.pir ++ leBytes 4 m.cbs ++ leBytes 4 m.pbs ++
  [BitVec.ofNat 8 (b2n m.enable + 2 * b2n m.yellowDrop + 4 * b2n m.redDrop)] ++ leBytes 7 0 ++ leBytes 8 m.green ++ leBytes 8 m.yellow ++
  leBytes 8 m.red ++ leBytes 8 (meterNow m.tc m.cir m.cbs (now - m.tLast)) ++ leBytes 8 (meterNow m.tp m.pir m.pbs (now - m.tLast))
def EgQ.entry (q : EgQ) (now : Nat) : List Byte :=
  leBytes 4 q.weight ++ leBytes 4 q.rate ++ leBytes 4 q.burst ++ leBytes 4 0 ++
  leBytes 8 (ux 64 (if q.rate = 0 then q.tokens else shaperNow q.tokens q.tLast q.rate q.burst now)) ++ leBytes 8 q.fLast ++ leBytes 8 q.frames ++
  leBytes 8 q.bytes ++ leBytes 8 q.pauseEnd ++ leBytes 8 0

/-- An Ethernet port (R394). -/
def State.ethWord (s : State) (k o : Nat) : Nat :=
  let e := s.eth k
  firstWord [
    tabAt o 0 8 13 fun i => leBytes 8 (e.reg k s.now i),
    tabAt o 0x100 64 4 fun q => (e.addr q).bytes,
    tabAt o 0x400 64 16 fun m => (Tab.get {} e.meters m : Meter).bytes s.now,
    tabAt o 0x800 64 32 fun i => (Tab.get {} e.queues i : EgQ).entry s.now]

/-- A session's entry (R395). -/
def Xs.bytes (x : Xs) : List Byte :=
  [BitVec.ofNat 8 x.st, BitVec.ofNat 8 x.primary, BitVec.ofNat 8 x.backup, BitVec.ofNat 8 x.pcp] ++ leBytes 4 x.nextPsn ++ leBytes 4 x.expPsn ++
  leBytes 4 x.ackPsn ++ leBytes 2 x.unacked.length ++ leBytes 2 x.timeouts ++ leBytes 8 x.accepted ++ leBytes 36 0

/-- The host transport (R395). -/
def State.xportWord (s : State) (o : Nat) : Nat :=
  let per (n : Nat) : Nat := (List.range 8).foldl (fun a c => a + 2 ^ c * b2n (decide ((s.sess c).st = n))) 0
  firstWord [
    regsAt o 0 [per 1 + 2 ^ 8 * per 2 + 2 ^ 16 * (s.xp.xfers.filter fun x => decide (x.2.st = 1)).length, s.xp.rto, s.xp.retx],
    tabAt o 0x100 64 8 fun c => (s.sess c).bytes,
    tabAt o 0x1000 64 256 fun x => (s.xfer x).bytes]

/-- A word of the host die (R422). -/
def State.hdWord (s : State) (u o : Nat) : Nat :=
  if u = 2 then s.ftReg (o / 8) else if u = 3 then s.sq.word o else if u = 4 then s.ctx.word o else if u = 5 then s.mbxWord o
  else if u = 6 then s.logWord o else if u = 0x20 then s.xportWord o else s.ethWord (u - 0x10) o

/-- The power registers and KD_SERVICE (R34, R505). -/
def State.serviceWord (s : State) (o : Nat) : Nat :=
  firstWord [
    regsAt o 0x100 [s.kdService], tabAt o 0x200 8 9 fun i => leBytes 8 (s.pwrReg i),
    tabAt o 0x300 16 8 fun a => padTo 16 ((List.range 5).flatMap fun i => leBytes 2 ((Tab.get [] s.pwr.stages a).getD i 0))]

/-- The health unit (R433, R444, R456). -/
def State.healthWord (s : State) (o : Nat) : Nat :=
  let h := s.health
  firstWord [
    regsAt o 0 [h.status, h.domains, h.hardUe, h.tokenId, h.tokenT, h.tokenX, h.marginLimit],
    tabAt o 0x100 160 1 fun _ => h.contribBytes, tabAt o 0x200 224 1 fun _ => h.dayBytes,
    tabAt o 0x1000 32 25 fun d => (s.mon d).bytes,
    tabAt o 0x2000 16 80 fun t => (List.range 8).flatMap fun i => leBytes 2 (Tab.get 0 h.hist (8 * t + i))]

/-- The security unit (R487). -/
def State.secWord (s : State) (o : Nat) : Nat :=
  let c := s.sec
  firstWord [
    regsAt o 0 [c.status, c.svn + 2 ^ 32 * c.svnMin, c.ownerCount, c.serial],
    tabAt o 0x100 64 8 fun r => padTo 64 (s.measBytes r),
    tabAt o 0x300 32 1 fun _ => if s.cfg.facA || s.cfg.facB then (s.factory.drop 0x828).take 32 else [],
    tabAt o 0x320 32 1 fun _ => if c.owned then sha256 c.ownerKey else []]

/-- A word of the Keeper die (R422). -/
def State.kdWord (s : State) (u o : Nat) : Nat :=
  if u = 0 then s.serviceWord o
  else if u = 1 then firstWord [regsAt o 0 [s.mirror.head % 2 ^ 32, s.mirror.overwrites, s.mirror.lost],
                                tabAt o 0x40000 64 4096 fun i => Tab.get [] s.mirror.ring i]
  else if u = 2 then s.healthWord o
  else if u = 3 then s.cfgReg (o / 8)
  else s.secWord o

/-- The word at an offset of a mapped unit (R422, R424). -/
def State.unitWord (s : State) (d u o : Nat) : Nat :=
  if u = 0x3F then firstWord [regsAt o 0 (s.dieInfo d)]
  else if d < 16 then s.cdWord d u o
  else if d = 16 then s.hubWord u o
  else if d < 23 then (s.link (6 * (d - 17) + u)).reg (o / 8)
  else if d = 23 then s.hdWord u o
  else s.kdWord u o

/-- A write refused because every field it targets is read only (R9). -/
def readOnly (s : State) (ro : Bool) : Except Err State := if ro then .error .denied else .ok s

/-- A written 0 that is stored as 1. -/
def atLeast1 (v : Nat) : Nat := if v = 0 then 1 else v

/-- Whether a word lies in a table of `n` bytes at `base`. -/
def inTab (o base n : Nat) : Bool := decide (base ≤ o ∧ o < base + n)

/-- A record's bytes with the word at `o` replaced. -/
def withWord (bs : List Byte) (o v : Nat) : List Byte := patch bs o (leBytes 8 v)

/-- A write to a Mule's registers (R77, R78, R92): refused with E_BUSY but in four states. -/
def State.muleWrite (s : State) (d p o v : Nat) : Except Err State :=
  let m := (s.tile d p).mule
  let put (f : Mule → Mule) : Except Err State :=
    if m.st = .idle ∨ m.st = .haltFault ∨ m.st = .haltBreak ∨ m.st = .saved then .ok (s.modMule d p f) else .error .busy
  if o = 0x40 then put fun m => { m with switchReq := bit v 0, switchPc := bits v 17 2 }
  else if o = 0x48 then put fun m => m.setBrk v
  else if o = 0x50 then put fun m => { m with brkInstVal := v }
  else if o = 0x58 then put fun m => { m with brkLrcVal := v }
  else readOnly s (decide (o ≤ 0x60))

/-- An event counter whose WRAP bit is written (R522). -/
def EvCount.clear (e : EvCount) (v : Nat) : EvCount := { e with wrap := e.wrap && !bit v 48 }

/-- The cycles of ARR_EV_CYCLES up to the last whole pair of ns, counted into the register: 5 cycles to 2 ns. -/
def ArrayU.counted (a : ArrayU) (now : Nat) : ArrayU :=
  match a.evFrom with
  | none => a
  | some f => { a with evCycles := a.cyclesAt (f + (now - f) / 2 * 2), evFrom := some (f + (now - f) / 2 * 2) }

/-- A write to a matrix array's unit (R115, R116, R522). -/
def State.arrWrite (s : State) (d p o v : Nat) : Except Err State :=
  let put (f : ArrayU → ArrayU) : Except Err State := .ok (s.modArr d p f)
  if o = 0x08 then put fun a => { a with badA := BitVec.ofNat 64 v }
  else if o = 0x10 then put fun a => { a with badB := BitVec.ofNat 64 v }
  else if o = 0x18 then s.colcfg d p v
  else if o = 0x20 then put fun a => { a with checkCol := bit v 0, checkNext := bit v 1 }
  else if o = 0x28 then put fun a => { a with misCount := bits v 15 0, misLimit := bits v 31 16 }
  else if o = 0x100 then
    put fun a => { a.counted s.aonNs with evCycles := (a.counted s.aonNs).evCycles.clear v }
  else if o = 0x108 then put fun a => { a with evInput := a.evInput.clear v }
  else if o = 0x110 then put fun a => { a with evDrain := a.evDrain.clear v }
  else if o = 0x118 then put fun a => { a with evCheck := a.evCheck.clear v }
  else readOnly s (decide (o ≤ 0x38) || inTab o 0x10000 0x14000 || inTab o 0x30000 0x14000)

/-- A write to the HBM3E controller (R203, R204, R206). -/
def State.hbmWrite (s : State) (d o v : Nat) : Except Err State :=
  if o = 0x08 then s.hbmMigrate d v
  else if inTab o 0x200 128 then
    let i := (o - 0x200) / 16
    .ok (s.modCd d fun c => { c with hbm := { c.hbm with
      exports := Tab.set {} c.hbm.exports i (exportOf (withWord (Tab.get {} c.hbm.exports i : Export).bytes (o % 16) v)) } })
  else readOnly s (decide (o ≤ 0x30) || inTab o 0x100 256 || inTab o 0x1000 4096)

/-- A write to a translation slot's entry (R209, R216): its cached translations go with what it held. -/
def State.slotEntryWrite (s : State) (d i o v : Nat) : Except Err State :=
  let t : TSlot := Tab.get {} (s.cd d).tr.slots i
  let put (n : TSlot) : Except Err State :=
    if t.bound && s.slotBusy d t.ctx then .error .busy
    else .ok (s.modCd d fun c => { c with tr := { c.tr with
      slots := Tab.set {} c.tr.slots i n, tlb := Tab.del c.tr.tlb i, walkc := Tab.del c.tr.walkc i } })
  if o = 0 then
    if bit v 16 && !bit v 24 && (s.cx (bits v 15 0)).scheduled then .error .denied
    else put { t with ctx := bits v 15 0, bound := bit v 16, fail := bit v 24 }
  else if o = 8 then put { t with l1 := v }
  else .ok s

/-- A write to the translation unit (R211, R213, R216). -/
def State.trWrite (s : State) (d o v : Nat) : Except Err State :=
  let put (f : Trans → Trans) : Except Err State := .ok (s.modCd d fun c => { c with tr := f c.tr })
  if o = 0x08 then .ok (s.tlbInval d v)
  else if o = 0x10 then put fun t => { t with invBase := v / 2 ^ 16 * 2 ^ 16 }
  else if o = 0x18 then put fun t => { t with invLen := v }
  else if o = 0x38 then .ok (s.pfResolve d (bits v 15 0) (bit v 16))
  else if inTab o 0x100 512 then s.slotEntryWrite d ((o - 0x100) / 32) (o % 32) v
  else readOnly s (decide (o ≤ 0x30) || inTab o 0x1000 2048)

/-- A write to the buffer pool manager (R226, R227). -/
def State.bpWrite (s : State) (d o v : Nat) : Except Err State :=
  let put (f : Bp → Bp) : Except Err State := .ok (s.modCd d fun c => { c with bp := f c.bp })
  if o = 0x08 then put fun b => { b with region := bits v 15 0 }
  else if o = 0x10 then s.bpApply d v
  else if o = 0x18 then .ok (s.bpFw d v)
  else if inTab o 0x40 48 then put fun b => { b with pools := Tab.modify {} b.pools ((o - 0x40) / 8) fun p => { p with count := bits v 23 0 } }
  else if inTab o 0x80 48 then put fun b => { b with pools := Tab.modify {} b.pools ((o - 0x80) / 8) fun p => { p with low := p.free } }
  else if inTab o 0x200 1536 && decide (o % 16 = 0) then
    put fun b => { b with quota := Tab.modify {} b.quota ((o - 0x200) / 16) fun q => { q with min := bits v 23 0, max := bits v 47 24 } }
  else readOnly s (decide (o ≤ 0x38) || inTab o 0x200 1536)

/-- A write to a compute die (R9, R422). -/
def State.cdWrite (s : State) (d u o v : Nat) : Except Err State :=
  if u = 0 then
    if inTab o 0x200 32 then .ok (s.modCd d fun c => c.clearFlags ((o - 0x200) / 8) v)
    else if inTab o 0x220 32 then .ok (s.modCd d fun c => { c with flush := Tab.set 0 c.flush ((o - 0x220) / 8) (bits v 31 0) })
    else readOnly s (inTab o 0x40 16)
  else if u = 4 then readOnly s (decide (o ≤ 0x10) || inTab o 0x400000 0x400000)
  else if u < 0x10 then s.muleWrite d (u - 8) o v
  else if u < 0x18 then s.arrWrite d (u - 0x10) o v
  else if u < 0x20 then readOnly s (decide (o ≤ 0x18) || inTab o 0x1000 128 || inTab o 0x2000 8192)
  else if u = 0x20 then
    if o = 0x18 then .ok (s.modCd d fun c => { c with hen := { c.hen with timeout := atLeast1 (bits v 23 0) } }) else .error .denied
  else if u = 0x24 then s.hbmWrite d o v
  else if u = 0x25 then s.trWrite d o v
  else if u = 0x26 then .error .denied
  else if u = 0x27 then s.bpWrite d o v
  else readOnly s (decide (o ≤ 0x18) || inTab o 0x10000 262144)

/-- A write to the hub (R230, R248, R249, R287, R311, R340). -/
def State.hubWrite (s : State) (u o v : Nat) : Except Err State :=
  if u = 1 then
    if o = 0x08 then s.hubPartition v
    else if o = 0x10 then .ok (s.hubAlpha v)
    else if o = 0x18 then s.hubShare v
    else if o = 0x60 then .ok (if bit v 0 then s.hubSnap else s)
    else readOnly s (decide (o ≤ 0x80) || inTab o 0x1000 10368 || inTab o 0x4000 10368)
  else if u = 2 then
    if o = 0x18 then s.bankMigrate v
    else if o = 0x20 then .ok { s with hubm := { s.hubm with ceLimit := bits v 15 0 } }
    else readOnly s (decide (o ≤ 0x10) || inTab o 0x400 2048 || inTab o 0x1000 4224)
  else if u = 3 then
    if inTab o 0x20000 524288 then
      let b := (o - 0x20000) / 512
      if (s.bind b).st ≠ .free then .error .busy
      else .ok { s with ox := { s.ox with progs := Tab.set [] s.ox.progs b (withWord (padTo 512 (Tab.get [] s.ox.progs b)) (o % 512) v) } }
    else readOnly s (decide (o ≤ 0x30) || inTab o 0x100 2176 || inTab o 0x1000 65536)
  else if u = 4 then
    if o = 0x08 then .ok { s with ox := { s.ox with cool := atLeast1 (bits v 23 0) } }
    else readOnly s (decide (o ≤ 0x28) || inTab o 0x1000 65536)
  else readOnly s (decide (o ≤ 0x18) || inTab o 0x1000 432 || inTab o 0x10000 65536 || inTab o 0x20000 65536 || inTab o 0x30000 65536)

/-- A write to a link's registers (R339). -/
def State.linkWrite (s : State) (l o v : Nat) : Except Err State :=
  if o = 0x08 then .ok (s.linkCtl l v)
  else if o = 0x60 then .ok (s.modLink l fun k => { k with laneLimit := bits v 31 0 })
  else readOnly s (decide (o ≤ 0x58) || inTab o 0x100 72)

/-- A write to an Ethernet port (R394). -/
def State.ethWrite (s : State) (k o v : Nat) : Except Err State :=
  let put (f : Eth → Eth) : Except Err State := .ok (s.modEth k f)
  if o = 0x08 then put fun e => { e with jumbo := bit v 1, txTag := bit v 2 }
  else if o = 0x10 then put fun e => { e with mac := bits v 47 0 }
  else if o = 0x18 then put fun e => { e with lossless := bits v 7 0, xoff := bits v 23 8, xon := bits v 39 24 }
  else if inTab o 0x100 256 then
    put fun e => { e with addrs := Tab.modify {} e.addrs ((o - 0x100) / 64) fun a => subAddrOf (withWord a.bytes (o % 64) v) }
  else readOnly s (decide (o < 0x68) || inTab o 0x400 1024 || inTab o 0x800 2048)

/-- A write to the host die (R370, R371, R395, R420, R421, R457). -/
def State.hdWrite (s : State) (u o v : Nat) : Except Err State :=
  if u = 2 then
    if o = 0x10 then .ok { s with ft := { s.ft with ctlRoot := bit v 0, useSync := bit v 1, limit := atLeast1 (bits v 9 2) } }
    else if o = 0x38 then .ok { s with ft := { s.ft with syncDelay := bits v 3 0 } }
    else readOnly s (decide (o < 0x40))
  else if u = 3 then readOnly s (decide (o ≤ 0x18) || inTab o 0x1000 2048)
  else if u = 4 ∨ u = 6 then .error .denied
  else if u = 5 then
    if o = 0x20 then .ok { s with mbx := { s.mbx with watchdog := atLeast1 (bits v 15 0) } } else .error .denied
  else if u = 0x20 then
    if o = 0x08 then .ok { s with xp := { s.xp with rto := atLeast1 (bits v 15 0) } }
    else readOnly s (decide (o ≤ 0x10) || inTab o 0x100 512 || inTab o 0x1000 16384)
  else s.ethWrite (u - 0x10) o v

/-- A write to the Keeper die (R34, R456, R457, R487, R505). -/
def State.kdWrite (s : State) (u o v : Nat) : Except Err State :=
  if u = 0 then
    if o = 0x220 then .ok (s.thermSet (bits v 7 0))
    else if o = 0x238 then s.idleSet (bits v 15 0)
    else readOnly s (decide (o = 0x100) || inTab o 0x200 72 || inTab o 0x300 128)
  else if u = 2 ∧ o = 0x30 then .ok { s with health := { s.health with marginLimit := bits v 15 0 } }
  else .error .denied

/-- A write of one word of a mapped unit (R9, R10, R429). Words that name nothing ignore what is written. -/
def State.unitWrite (s : State) (d u o v : Nat) : Except Err State :=
  if u = 0x3F then readOnly s (decide (o ≤ 0x18))
  else if d < 16 then s.cdWrite d u o v
  else if d = 16 then s.hubWrite u o v
  else if d < 23 then s.linkWrite (6 * (d - 17) + u) o v
  else if d = 23 then s.hdWrite u o v
  else s.kdWrite u o v

end Sys2Proof.Machine
end

