-- ==== Sys2Proof/Machine/Readback.lean ====
section
/-! DEFINITION. Reading back state: the device information and state readback groups, and direct register writes (R9, R422 to R432). -/

namespace Sys2Proof.Machine

/-- Die, unit and offset of a state address (R12, R422). -/
def stDie (a : Nat) : Nat := bits a 47 42
def stUnit (a : Nat) : Nat := bits a 41 36
def stOff (a : Nat) : Nat := bits a 35 0

/-- Whether an address is mapped (R422). -/
def stMapped (a : Nat) : Bool := decide (a < 2 ^ 48 ∧ stDie a < 25) && (unitsOf (stDie a)).contains (stUnit a)

/-- The word at a state address. -/
def State.stWord (s : State) (a : Nat) : Nat := s.unitWord (stDie a) (stUnit a) (stOff a)

/-- `len` bytes from a state address, word by word. -/
def State.stBytes (s : State) (a len : Nat) : List Byte := (List.range (len / 8)).flatMap fun i => leBytes 8 (s.stWord (a + 8 * i))

/-- A range out of bounds (R424, R427): no word, too long, unmapped, past its unit, or on a die out of service, whose reset count and time the
Goose still serves to reads. -/
def State.stRange (s : State) (a len most : Nat) (read : Bool) : Bool :=
  let goose := read && decide (stUnit a = 0x3F ∧ 0x10 ≤ stOff a ∧ stOff a + len ≤ 0x20)
  decide (len = 0 ∨ most < len ∨ 2 ^ 36 < stOff a + len) || !stMapped a || !(s.dieIn (stDie a) || goose)

/-- The plane windows while a pass is in flight or an EE.RUN reads a plane, and the element engine's while it runs (R116, R140, R425). -/
def State.stBusyWord (s : State) (a : Nat) : Bool :=
  let u := stUnit a
  let o := stOff a
  decide (stDie a < 16) &&
  if 0x10 ≤ u ∧ u ≤ 0x14 then
    let t := s.tile (stDie a) (u - 0x10)
    (inTab o 0x10000 0x14000 || inTab o 0x30000 0x14000) &&
      (decide (t.arr.passes ≠ []) || match t.ee.run with
        | some r => decide (r.kind = 0) && (eeD r.desc).plane?.isSome
        | none => false)
  else if 0x18 ≤ u ∧ u ≤ 0x1C then
    (inTab o 0x1000 128 || inTab o 0x2000 8192) && (s.tile (stDie a) (u - 0x18)).ee.run.isSome
  else false

def State.stBusy (s : State) (a len : Nat) : Bool := (List.range (len / 8)).any fun i => s.stBusyWord (a + 8 * i)

/-- The checks of one range of a read, in order (R429). -/
def State.readChecks (s : State) (a len : Nat) : List (Bool × Err) :=
  [(decide (a % 8 ≠ 0 ∨ len % 8 ≠ 0), .align), (s.stRange a len 4096 true, .range), (s.stBusy a len, .busy)]

/-- STATE_READ (R424 to R429). -/
def execStateRead (src : Src) (addr len : Nat) (s : State) : Out :=
  .next (s.command src 0x0A01 true true ((!s.svc.hdIn, Err.range) :: s.readChecks addr len) fun s => s.reply src 0x0A01 .ok (s.stBytes addr len))

/-- The words of a write, by address. -/
def stWords (addr : Nat) (data : List Byte) : List (Nat × Nat) := (List.range (data.length / 8)).map fun i => (addr + 8 * i, fld data (8 * i) 8)

/-- A write of one word at a state address. -/
def State.stWrite (s : State) (a v : Nat) : Except Err State := s.unitWrite (stDie a) (stUnit a) (stOff a) v

/-- Why a word is refused, OK when it is not. -/
def Except.refusal (r : Except Err State) : Err :=
  match r with
  | .ok _ => .ok
  | .error e => e

/-- The refusal of a write of several words (R429): each is checked before any is written, the unit's rules before the busy rules. -/
def State.wordsErr (s : State) (ws : List (Nat × Nat)) : Err :=
  let es := ws.map fun w => Except.refusal (s.stWrite w.1 w.2)
  if es.contains .denied then .denied else (es.find? fun e => decide (e ≠ Err.ok ∧ e ≠ Err.busy)).getD ((es.find? fun e => decide (e ≠ Err.ok)).getD .ok)

/-- The words written in ascending address order; a refusal on the way leaves all of them unwritten. -/
def State.writeWords (s : State) : List (Nat × Nat) → Except Err State
  | [] => .ok s
  | w :: ws => match s.stWrite w.1 w.2 with
    | .ok t => t.writeWords ws
    | .error e => .error e

/-- STATE_WRITE (R429). -/
def execStateWrite (src : Src) (addr len : Nat) (data : List Byte) (s : State) : Out :=
  let e := s.wordsErr (stWords addr data)
  .next (s.command src 0x0A02 (s.isAdmin src) true
    [(!s.svc.hdIn, .range), (decide (data.length ≠ len), .badarg), (decide (addr % 8 ≠ 0 ∨ len % 8 ≠ 0), .align),
     (s.stRange addr len 256 false, .range), (decide (e ≠ Err.ok), e)]
    fun s => s.replyWrite src 0x0A02 (s.writeWords (stWords addr data)))

/-- STATE_SNAP (R429): every range from one instant of its die. -/
def execStateSnap (src : Src) (count : Nat) (ranges : List (Nat × Nat)) (s : State) : Out :=
  let oneDie := match ranges with
    | [] => true
    | r :: l => l.all fun q => stDie q.1 == stDie r.1
  .next (s.command src 0x0A03 true true
    ([(!s.svc.hdIn, Err.range), (decide (count = 0 ∨ 16 < count ∨ ranges.length ≠ count ∨ 512 < (ranges.map (·.2)).sum) || !oneDie, .badarg)] ++
      ranges.flatMap fun r => s.readChecks r.1 r.2)
    fun s => s.reply src 0x0A03 .ok (leBytes 8 s.now ++ ranges.flatMap fun r => s.stBytes r.1 r.2))

/-- UNIT_MAP (R423, R428). -/
def execUnitMap (src : Src) (die : Nat) (s : State) : Out :=
  .next (s.command src 0x0A04 true true [(!s.svc.hdIn || decide (24 < die), .range)]
    fun s => s.reply src 0x0A04 .ok ((s.dieInfo die).flatMap fun w => leBytes 8 w))

/-- DEV_INFO (R428). -/
def execDevInfo (src : Src) (s : State) : Out :=
  .next (s.command src 0x0101 true true [] fun s =>
    s.reply src 0x0101 .ok (((List.range 25).flatMap fun d => leBytes 8 (s.dieId d) ++ leBytes 8 (dieUnits d)) ++ leBytes 8 s.kdService ++
      leBytes 8 s.now ++ leBytes 4 s.node ++ [BitVec.ofNat 8 (s.pins.member % 4), 0, 0, 0] ++ leBytes 4 s.boot.version ++ leBytes 4 s.boot.version))

/-- The words of DEV_CAPS that the Goose last recorded for a die: those of now while it is in service, else those of when it left, at first the
reset values (R428). -/
def State.caps (s : State) (d : Nat) : List Nat :=
  let c := (s.dieU d).caps
  if s.dieIn d then s.capsNow d
  else if c ≠ [] then c
  else if d < 16 then [(TileMap.word {}), 0x80, 0]
  else if d = 16 then [0x20, 0]
  else (List.range 6).flatMap fun _ => [0, 0x876543210]

/-- DEV_CAPS (R428). -/
def execDevCaps (src : Src) (s : State) : Out :=
  .next (s.command src 0x0102 true true [] fun s =>
    let words := ((List.range 16).flatMap fun d => (s.caps d).take 2) ++ ((List.range 16).flatMap fun d => (s.caps d).drop 2) ++ s.caps 16 ++
      (List.range 6).flatMap fun m => s.caps (17 + m)
    s.reply src 0x0102 .ok (words.flatMap fun w => leBytes 8 w))

/-- The state of a line of a collective (R265, R431): 0 NOT_STARTED, 1 HELD, 2 FINISHED. -/
def State.lineState (s : State) (b l : Nat) : Nat :=
  if (s.bind b).st = .done then 2
  else match List.find? (fun e => (blockLines e.1 e.2).contains l) (s.bindX b).run.blocks with
    | none => 0
    | some e => if e.2.written ∨ e.2.added = (s.oxProg b).expect then 2 else if e.2.stored then 1 else 0

/-- A line's contents (R264, R280, R431); none when its spill area is poisoned or cannot be read. -/
def State.lineRead (s : State) (b l : Nat) : Option (List Byte) :=
  let red := (s.oxProg b).red?.getD 1
  if s.lineState b l ≠ 1 then some (leBytes 768 0)
  else if (s.bind b).place = 2 then
    match s.devReadN (s.spillAt b l) 768 with
    | .ok bs => some bs
    | .error _ => none
  else some ((s.bindX b).run.line red l)

/-- COLL_LINES_READ (R428, R431): `ue` is the bank of an uncorrectable cell met in the first HELD line. -/
def execCollLinesRead (src : Src) (ctx coll first count : Nat) (ue : Option Nat) (s : State) : Out :=
  let b := s.collHeld coll
  let n := b.getD 1024
  let st := (s.bind n).st
  .next (s.command src 0x0A05 true (decide (src.context = ctx))
    [(!s.svc.hubIn || b.isNone || decide (count = 0 ∨ 5 < count), .range), (decide ((s.bind n).ctx ≠ ctx), .denied),
     (decide (st ≠ .done ∧ st ≠ .aborted), .seq)]
    fun s =>
      let ls := (List.range count).map (first + ·)
      let held := ls.filter fun l => s.lineState n l = 1
      let bad := match List.find? (fun l => (s.lineRead n l).isNone) held with
        | some l => some (l, 0xFFFF)
        | none => if (s.bind n).place = 2 then none else ue.bind fun bank => held.head?.map fun l => (l, bank)
      match bad with
      | some (l, bank) =>
        (s.lineUe n l bank fun data s => s.raise 16 0x04 3 .uncorr data ctx (some 14) 5).reply src 0x0A05 .uncorr []
      | none => s.reply src 0x0A05 .ok (ls.flatMap fun l =>
          leBytes 4 l ++ [BitVec.ofNat 8 (s.lineState n l), 0, 0, 0] ++ (s.lineRead n l).getD []))

/-- SAVE_READ (R412, R428). -/
def execSaveRead (src : Src) (ctx die tile buffer offset len : Nat) (s : State) : Out :=
  let v? := List.find? (fun v => v.die == die && v.ltile == tile) (s.cxx ctx).saves
  let v := v?.getD {}
  let base := die * 2 ^ 37 + (if buffer = 0 then v.buf else v.store)
  let room := if buffer = 0 then v.len else 2 ^ 24
  .next (s.command src 0x0A06 true (decide (src.context = ctx))
    [(!s.svc.hdIn, .range), (decide ((s.cx ctx).st ≠ .saved), .seq), (decide (1 < buffer), .badarg),
     (v?.isNone || decide (4096 < len ∨ room < offset + len), .range), (decide (offset % 8 ≠ 0 ∨ len % 8 ≠ 0), .align)]
    fun s =>
      match s.devReadN (base + offset) len with
      | .ok bs => s.reply src 0x0A06 .ok bs
      | .error e => s.reply src 0x0A06 e [])

/-- CTX_VIEW (R428). -/
def execCtxView (src : Src) (ctx : Nat) (s : State) : Out :=
  .next (s.command src 0x0A07 true (decide (src.context = ctx)) [(!s.svc.hdIn || s.noCtx ctx, .range)]
    fun s =>
      let c := s.cx ctx
      s.reply src 0x0A07 .ok (c.bytes ++ (if c.recIdx < 16 then (s.lrec c.recIdx).bytes else leBytes 128 0) ++
        leBytes 2 (s.ox.binds.filter fun b => decide (b.2.st ≠ .free ∧ b.2.ctx = ctx)).length ++
        ((List.range 8).flatMap fun m => leBytes 4 (s.box c.owner m).e) ++
        leBytes 2 (s.xp.xfers.filter fun x => decide (x.2.st = 1 ∧ x.2.ctx = ctx)).length ++
        (List.range 16).map fun d => BitVec.ofNat 8 (if bit c.mask d then (s.cd d).tr.faults.length else 0)))

/-- COLL_LIST (R428): the entries not FREE from an index on. -/
def execCollList (src : Src) (first : Nat) (s : State) : Out :=
  .next (s.command src 0x0A08 true true [(!s.svc.hubIn || decide (1023 < first), .range)]
    fun s =>
      let l := (s.ox.binds.filter fun b => decide (first ≤ b.1 ∧ b.2.st ≠ .free)).take 500
      s.reply src 0x0A08 .ok (l.flatMap fun b =>
        leBytes 2 b.1 ++ [BitVec.ofNat 8 b.2.st.code, BitVec.ofNat 8 b.2.place] ++ leBytes 4 b.2.collId))

/-- A direct write of a register through the state address space (R9, R10): a refused one changes nothing. -/
def execRegisterWrite (addr : Nat) (v : Word) (s : State) : Out :=
  if addr % 8 ≠ 0 ∨ s.stRange addr 8 8 false = true then .next s else wrote s (s.stWrite addr v.toNat)

end Sys2Proof.Machine
end

