-- ==== Sys2Proof/Machine/Dispatch.lean ====
section
/-! DEFINITION. The dispatch: one arm per command, each one direct call of its meaning. -/

namespace Sys2Proof.Machine

def exec (i : Instr) (s : State) : Host.Outcome State Fault Refusal :=
  match i with
  | .muleInstruction d p => Sys2Proof.Machine.execMuleInstruction d p s
  | .ebreak d p => Sys2Proof.Machine.execEbreak d p s
  | .maPass d p rd rs1 rs2 => Sys2Proof.Machine.execMaPass d p rd rs1 rs2 s
  | .maPassInputEnd d p => Sys2Proof.Machine.execMaPassInputEnd d p s
  | .maPassComplete d p mis => Sys2Proof.Machine.execMaPassComplete d p mis s
  | .eeRun d p rd rs1 rs2 => Sys2Proof.Machine.execEeRun d p rd rs1 rs2 s
  | .eeRowEnd d p => Sys2Proof.Machine.execEeRowEnd d p s
  | .eeRunComplete d p => Sys2Proof.Machine.execEeRunComplete d p s
  | .eeCompress d p rd rs1 rs2 => Sys2Proof.Machine.execEeCompress d p rd rs1 rs2 s
  | .eeCompressComplete d p => Sys2Proof.Machine.execEeCompressComplete d p s
  | .eeExpand d p rd rs1 rs2 => Sys2Proof.Machine.execEeExpand d p rd rs1 rs2 s
  | .eeExpandComplete d p => Sys2Proof.Machine.execEeExpandComplete d p s
  | .dmaCopy d p rd rs1 rs2 => Sys2Proof.Machine.execDmaCopy d p rd rs1 rs2 s
  | .dmaCopyComplete d e ue far => Sys2Proof.Machine.execDmaCopyComplete d e ue far s
  | .henLaunch d p rd rs1 rs2 => Sys2Proof.Machine.execHenLaunch d p rd rs1 rs2 s
  | .henLaunchU d p rd rs1 rs2 => Sys2Proof.Machine.execHenLaunchU d p rd rs1 rs2 s
  | .henRequestIssue d t => Sys2Proof.Machine.execHenRequestIssue d t s
  | .henReply d t e status data => Sys2Proof.Machine.execHenReply d t e status data s
  | .henRequestTimeout d t e => Sys2Proof.Machine.execHenRequestTimeout d t e s
  | .henLateReply d t => Sys2Proof.Machine.execHenLateReply d t s
  | .henJobComplete d j => Sys2Proof.Machine.execHenJobComplete d j s
  | .asStream d p rd rs1 rs2 => Sys2Proof.Machine.execAsStream d p rd rs1 rs2 s
  | .slotArm d p rd rs1 rs2 => Sys2Proof.Machine.execSlotArm d p rd rs1 rs2 s
  | .lrWait d p rs1 => Sys2Proof.Machine.execLrWait d p rs1 s
  | .lrTest d p rd rs1 => Sys2Proof.Machine.execLrTest d p rd rs1 s
  | .endOp d p => Sys2Proof.Machine.execEndOp d p s
  | .muleWaitRelease d p => Sys2Proof.Machine.execMuleWaitRelease d p s
  | .callr d p rd rs1 imm => Sys2Proof.Machine.execCallr d p rd rs1 imm s
  | .retr d p => Sys2Proof.Machine.execRetr d p s
  | .routineBudgetPadEnd d p => Sys2Proof.Machine.execRoutineBudgetPadEnd d p s
  | .urBr d p f3 rs1 rs2 imm => Sys2Proof.Machine.execUrBr d p f3 rs1 rs2 imm s
  | .urJoin d p rd rs1 imm => Sys2Proof.Machine.execUrJoin d p rd rs1 imm s
  | .urPadEnd d p => Sys2Proof.Machine.execUrPadEnd d p s
  | .psyncWrite d p rd value => Sys2Proof.Machine.execPsyncWrite d p rd value s
  | .psyncInsertionEnd d p => Sys2Proof.Machine.execPsyncInsertionEnd d p s
  | .muleThermalGate d p => Sys2Proof.Machine.execMuleThermalGate d p s
  | .unitIdleTimerExpiry u => Sys2Proof.Machine.execUnitIdleTimerExpiry u s
  | .unitWake u => Sys2Proof.Machine.execUnitWake u s
  | .wakePoint r ix => Sys2Proof.Machine.execWakePoint r ix s
  | .pageWalkComplete d slot va access kind no stream => Sys2Proof.Machine.execPageWalkComplete d slot va access kind no stream s
  | .tlbInvalGo d v => Sys2Proof.Machine.execTlbInvalGo d v s
  | .tlbInvalDone d => Sys2Proof.Machine.execTlbInvalDone d s
  | .pfResolve d v => Sys2Proof.Machine.execPfResolve d v s
  | .hbmRefreshSlot d pc found temp => Sys2Proof.Machine.execHbmRefreshSlot d pc found temp s
  | .hbmMigrateStart d v => Sys2Proof.Machine.execHbmMigrateStart d v s
  | .hbmMigrationComplete d => Sys2Proof.Machine.execHbmMigrationComplete d s
  | .peerRead d l k ue => Sys2Proof.Machine.execPeerRead d l k ue s
  | .peerWrite d l k ue => Sys2Proof.Machine.execPeerWrite d l k ue s
  | .peerAtomic d l k ue => Sys2Proof.Machine.execPeerAtomic d l k ue s
  | .peerReply d k => Sys2Proof.Machine.execPeerReply d k s
  | .bpApply d v => Sys2Proof.Machine.execBpApply d v s
  | .bpFwAllocate d v => Sys2Proof.Machine.execBpFwAllocate d v s
  | .bpFwFree d v => Sys2Proof.Machine.execBpFwFree d v s
  | .bpFreeWrite d pool => Sys2Proof.Machine.execBpFreeWrite d pool s
  | .arrColcfgApply d p v => Sys2Proof.Machine.execArrColcfgApply d p v s
  | .hubPacketIngress src k stripe => Sys2Proof.Machine.execHubPacketIngress src k stripe s
  | .hubEgressCell o chk => Sys2Proof.Machine.execHubEgressCell o chk s
  | .hubPartitionWrite v => Sys2Proof.Machine.execHubPartitionWrite v s
  | .hubDtAlphaWrite v => Sys2Proof.Machine.execHubDtAlphaWrite v s
  | .hubEgressShareWrite v => Sys2Proof.Machine.execHubEgressShareWrite v s
  | .hubBankMigrateStart v => Sys2Proof.Machine.execHubBankMigrateStart v s
  | .hubBankRemove b => Sys2Proof.Machine.execHubBankRemove b s
  | .oxDispatch net cls => Sys2Proof.Machine.execOxDispatch net cls s
  | .oxStepFire b off bad ue => Sys2Proof.Machine.execOxStepFire b off bad ue s
  | .oxStepComplete b off => Sys2Proof.Machine.execOxStepComplete b off s
  | .round b ix => Sys2Proof.Machine.execRound b ix s
  | .carry b ix => Sys2Proof.Machine.execCarry b ix s
  | .merge b ix bad => Sys2Proof.Machine.execMerge b ix bad s
  | .sort b ix bad => Sys2Proof.Machine.execSort b ix bad s
  | .topk b ix bad => Sys2Proof.Machine.execTopk b ix bad s
  | .filter b ix bad => Sys2Proof.Machine.execFilter b ix bad s
  | .isect b ix bad => Sys2Proof.Machine.execIsect b ix bad s
  | .diff b ix bad => Sys2Proof.Machine.execDiff b ix bad s
  | .union b ix bad => Sys2Proof.Machine.execUnion b ix bad s
  | .load b ix => Sys2Proof.Machine.execLoad b ix s
  | .gather b ix => Sys2Proof.Machine.execGather b ix s
  | .emit b ix => Sys2Proof.Machine.execEmit b ix s
  | .oxOpenReceive k owner => Sys2Proof.Machine.execOxOpenReceive k owner s
  | .oxAbortReceive k => Sys2Proof.Machine.execOxAbortReceive k s
  | .oxAbortSend b => Sys2Proof.Machine.execOxAbortSend b s
  | .collTimeout b => Sys2Proof.Machine.execCollTimeout b s
  | .collCoolExpiry b => Sys2Proof.Machine.execCollCoolExpiry b s
  | .collFetchPacket b ue => Sys2Proof.Machine.execCollFetchPacket b ue s
  | .collResultWrite d k => Sys2Proof.Machine.execCollResultWrite d k s
  | .collBind src glob loc prog => Sys2Proof.Machine.execCollBind src glob loc prog s
  | .collStart src ctx coll => Sys2Proof.Machine.execCollStart src ctx coll s
  | .collAbort src ctx coll => Sys2Proof.Machine.execCollAbort src ctx coll s
  | .collFree src ctx coll => Sys2Proof.Machine.execCollFree src ctx coll s
  | .collStatus src key => Sys2Proof.Machine.execCollStatus src key s
  | .flitSend l => Sys2Proof.Machine.execFlitSend l s
  | .flitReceive l f => Sys2Proof.Machine.execFlitReceive l f s
  | .controlCell l c => Sys2Proof.Machine.execControlCell l c s
  | .linkAckTimeout l => Sys2Proof.Machine.execLinkAckTimeout l s
  | .linkSignalLoss l lane => Sys2Proof.Machine.execLinkSignalLoss l lane s
  | .linkTrainingComplete l t => Sys2Proof.Machine.execLinkTrainingComplete l t s
  | .linkRetrainDelayExpiry l => Sys2Proof.Machine.execLinkRetrainDelayExpiry l s
  | .flightRemeasure l f => Sys2Proof.Machine.execFlightRemeasure l f s
  | .laneErrorCheck l => Sys2Proof.Machine.execLaneErrorCheck l s
  | .laneSwap l => Sys2Proof.Machine.execLaneSwap l s
  | .linkCtlEnableClear l => Sys2Proof.Machine.execLinkCtlEnableClear l s
  | .linkCtlRetrain l => Sys2Proof.Machine.execLinkCtlRetrain l s
  | .routeWrite src version table first count rsv entries => Sys2Proof.Machine.execRouteWrite src version table first count rsv entries s
  | .routeCommit src version t => Sys2Proof.Machine.execRouteCommit src version t s
  | .routeStatus src => Sys2Proof.Machine.execRouteStatus src s
  | .linkSet src mask action mode => Sys2Proof.Machine.execLinkSet src mask action mode s
  | .linkStatus src link => Sys2Proof.Machine.execLinkStatus src link s
  | .windowSet src ctx window rctx route base len => Sys2Proof.Machine.execWindowSet src ctx window rctx route base len s
  | .epochFlush src epoch => Sys2Proof.Machine.execEpochFlush src epoch s
  | .timeCellSend l => Sys2Proof.Machine.execTimeCellSend l s
  | .timeCell l c => Sys2Proof.Machine.execTimeCell l c s
  | .syncPulseDrive k foreign => Sys2Proof.Machine.execSyncPulseDrive k foreign s
  | .syncPulseReceive width at_ => Sys2Proof.Machine.execSyncPulseReceive width at_ s
  | .launchPrewake r => Sys2Proof.Machine.execLaunchPrewake r s
  | .launchStart x => Sys2Proof.Machine.execLaunchStart x s
  | .periodStart r refresh replay => Sys2Proof.Machine.execPeriodStart r refresh replay s
  | .periodLagTimeout r => Sys2Proof.Machine.execPeriodLagTimeout r s
  | .slotData d k arrival => Sys2Proof.Machine.execSlotData d k arrival s
  | .slotConsume d e => Sys2Proof.Machine.execSlotConsume d e s
  | .schedCollFetchStart r ix => Sys2Proof.Machine.execSchedCollFetchStart r ix s
  | .schedAbortSend r => Sys2Proof.Machine.execSchedAbortSend r s
  | .schedAbortPacket k => Sys2Proof.Machine.execSchedAbortPacket k s
  | .launchResourcesRelease r => Sys2Proof.Machine.execLaunchResourcesRelease r s
  | .schedLoad src ctx va len => Sys2Proof.Machine.execSchedLoad src ctx va len s
  | .schedUnload src ctx => Sys2Proof.Machine.execSchedUnload src ctx s
  | .schedStatus src key => Sys2Proof.Machine.execSchedStatus src key s
  | .schedStop src ctx last => Sys2Proof.Machine.execSchedStop src ctx last s
  | .schedAbort src ctx => Sys2Proof.Machine.execSchedAbort src ctx s
  | .timeStatus src => Sys2Proof.Machine.execTimeStatus src s
  | .timeSet src t => Sys2Proof.Machine.execTimeSet src t s
  | .ethFrameReceive k q f => Sys2Proof.Machine.execEthFrameReceive k q f s
  | .arpRequest k q f => Sys2Proof.Machine.execArpRequest k q f s
  | .pfcFrame k q enable quanta => Sys2Proof.Machine.execPfcFrame k q enable quanta s
  | .pfcPauseExpiry k q n => Sys2Proof.Machine.execPfcPauseExpiry k q n s
  | .pfcRepeat k q n => Sys2Proof.Machine.execPfcRepeat k q n s
  | .pfcXon k q n drained => Sys2Proof.Machine.execPfcXon k q n drained s
  | .mboxSegment k q f => Sys2Proof.Machine.execMboxSegment k q f s
  | .dataSegment k q f ue => Sys2Proof.Machine.execDataSegment k q f ue s
  | .ackSegment k q f => Sys2Proof.Machine.execAckSegment k q f s
  | .nakSegment k q f => Sys2Proof.Machine.execNakSegment k q f s
  | .transportAckTimer c => Sys2Proof.Machine.execTransportAckTimer c s
  | .xportRtoExpiry c => Sys2Proof.Machine.execXportRtoExpiry c s
  | .xferDoneSend x => Sys2Proof.Machine.execXferDoneSend x s
  | .getDataSend x ue => Sys2Proof.Machine.execGetDataSend x ue s
  | .egressFrameSelect k q => Sys2Proof.Machine.execEgressFrameSelect k q s
  | .shaperWheelSlot k q => Sys2Proof.Machine.execShaperWheelSlot k q s
  | .entryShaperRelease port l => Sys2Proof.Machine.execEntryShaperRelease port l s
  | .subportLinkChange k q up => Sys2Proof.Machine.execSubportLinkChange k q up s
  | .portSet src port mode jumbo txTag addrs => Sys2Proof.Machine.execPortSet src port mode jumbo txTag addrs s
  | .portStatus src port => Sys2Proof.Machine.execPortStatus src port s
  | .xferOpen src ctx die dir pcp va len => Sys2Proof.Machine.execXferOpen src ctx die dir pcp va len s
  | .xferStatus src x => Sys2Proof.Machine.execXferStatus src x s
  | .xferCancel src x => Sys2Proof.Machine.execXferCancel src x s
  | .meterSet src port meter enable actions cir pir cbs pbs => Sys2Proof.Machine.execMeterSet src port meter enable actions cir pir cbs pbs s
  | .queueSet src port sub queue weight rate burst => Sys2Proof.Machine.execQueueSet src port sub queue weight rate burst s
  | .entrySet src rate => Sys2Proof.Machine.execEntrySet src rate s
  | .mailboxFrame c oob seg => Sys2Proof.Machine.execMailboxFrame c oob seg s
  | .mailboxCommandStart c m => Sys2Proof.Machine.execMailboxCommandStart c m s
  | .sessionOpen src modulus exponent nonce => Sys2Proof.Machine.execSessionOpen src modulus exponent nonce s
  | .sessionClose src => Sys2Proof.Machine.execSessionClose src s
  | .ctrlEnrol src who entry rsv count keyHash sig => Sys2Proof.Machine.execCtrlEnrol src who entry rsv count keyHash sig s
  | .ctrlRevoke src who rsv count sig => Sys2Proof.Machine.execCtrlRevoke src who rsv count sig s
  | .ctrlList src => Sys2Proof.Machine.execCtrlList src s
  | .ctxCreate src want flags rsv mask l1 => Sys2Proof.Machine.execCtxCreate src want flags rsv mask l1 s
  | .ctxDestroy src ctx => Sys2Proof.Machine.execCtxDestroy src ctx s
  | .ctxStatus src ctx => Sys2Proof.Machine.execCtxStatus src ctx s
  | .ctxSave src ctx => Sys2Proof.Machine.execCtxSave src ctx s
  | .ctxList src first => Sys2Proof.Machine.execCtxList src first s
  | .ctxReset src ctx => Sys2Proof.Machine.execCtxReset src ctx s
  | .ctxAdopt src ctx => Sys2Proof.Machine.execCtxAdopt src ctx s
  | .ctxHalt src ctx => Sys2Proof.Machine.execCtxHalt src ctx s
  | .memPfResolve src die action id => Sys2Proof.Machine.execMemPfResolve src die action id s
  | .tlbFlush src ctx mask all va pages => Sys2Proof.Machine.execTlbFlush src ctx mask all va pages s
  | .exportSet src die entry data => Sys2Proof.Machine.execExportSet src die entry data s
  | .poolSet src die region counts quotas => Sys2Proof.Machine.execPoolSet src die region counts quotas s
  | .memModeSet src ctx mask mode => Sys2Proof.Machine.execMemModeSet src ctx mask mode s
  | .poolStatus src die => Sys2Proof.Machine.execPoolStatus src die s
  | .progLoad src ctx mask va len => Sys2Proof.Machine.execProgLoad src ctx mask va len s
  | .launch src ctx flags t0 p0 => Sys2Proof.Machine.execLaunch src ctx flags t0 p0 s
  | .routineLoad src ctx mask va len => Sys2Proof.Machine.execRoutineLoad src ctx mask va len s
  | .routinePatch src ctx mask va len => Sys2Proof.Machine.execRoutinePatch src ctx mask va len s
  | .unitDisable src die kind index mode => Sys2Proof.Machine.execUnitDisable src die kind index mode s
  | .unitEnable src die kind index => Sys2Proof.Machine.execUnitEnable src die kind index s
  | .dbgBreakSet src ctx die tile ctl inst lrc => Sys2Proof.Machine.execDbgBreakSet src ctx die tile ctl inst lrc s
  | .dbgResume src ctx mask => Sys2Proof.Machine.execDbgResume src ctx mask s
  | .dbgStep src ctx die tile => Sys2Proof.Machine.execDbgStep src ctx die tile s
  | .dbgHalt src ctx die tile => Sys2Proof.Machine.execDbgHalt src ctx die tile s
  | .devInfo src => Sys2Proof.Machine.execDevInfo src s
  | .devCaps src => Sys2Proof.Machine.execDevCaps src s
  | .stateRead src addr len => Sys2Proof.Machine.execStateRead src addr len s
  | .stateWrite src addr len data => Sys2Proof.Machine.execStateWrite src addr len data s
  | .stateSnap src count ranges => Sys2Proof.Machine.execStateSnap src count ranges s
  | .unitMap src die => Sys2Proof.Machine.execUnitMap src die s
  | .collLinesRead src ctx coll first count ue => Sys2Proof.Machine.execCollLinesRead src ctx coll first count ue s
  | .saveRead src ctx die tile buffer offset len => Sys2Proof.Machine.execSaveRead src ctx die tile buffer offset len s
  | .ctxView src ctx => Sys2Proof.Machine.execCtxView src ctx s
  | .collList src first => Sys2Proof.Machine.execCollList src first s
  | .monitorSample m inlet outlet => Sys2Proof.Machine.execMonitorSample m inlet outlet s
  | .tileSubstitution d p ue => Sys2Proof.Machine.execTileSubstitution d p ue s
  | .healthStatus src => Sys2Proof.Machine.execHealthStatus src s
  | .monRead src die clear => Sys2Proof.Machine.execMonRead src die clear s
  | .logRead src first count => Sys2Proof.Machine.execLogRead src first count s
  | .mirrorRead src first count => Sys2Proof.Machine.execMirrorRead src first count s
  | .ledgerRead src first count => Sys2Proof.Machine.execLedgerRead src first count s
  | .spareList src => Sys2Proof.Machine.execSpareList src s
  | .spareApply src kind die index => Sys2Proof.Machine.execSpareApply src kind die index s
  | .selftest src die tile repeat_ found => Sys2Proof.Machine.execSelftest src die tile repeat_ found s
  | .quarantineGrant src node token t x => Sys2Proof.Machine.execQuarantineGrant src node token t x s
  | .quarantineRelease src => Sys2Proof.Machine.execQuarantineRelease src s
  | .healthSet src limit margin => Sys2Proof.Machine.execHealthSet src limit margin s
  | .progressRead src ctx => Sys2Proof.Machine.execProgressRead src ctx s
  | .progressMark src ctx action => Sys2Proof.Machine.execProgressMark src ctx action s
  | .ledgerNote src note => Sys2Proof.Machine.execLedgerNote src note s
  | .histRead src die => Sys2Proof.Machine.execHistRead src die s
  | .powerOn b => Sys2Proof.Machine.execPowerOn b s
  | .gooseRestart b => Sys2Proof.Machine.execGooseRestart b s
  | .dieReset d byCtrl => Sys2Proof.Machine.execDieReset d byCtrl s
  | .configCommitRun readbackOk repairOk => Sys2Proof.Machine.execConfigCommitRun readbackOk repairOk s
  | .cfgRead src source type first => Sys2Proof.Machine.execCfgRead src source type first s
  | .cfgSet src type index data len => Sys2Proof.Machine.execCfgSet src type index data len s
  | .cfgCommit src expected => Sys2Proof.Machine.execCfgCommit src expected s
  | .cfgDiscard src => Sys2Proof.Machine.execCfgDiscard src s
  | .cfgStatus src => Sys2Proof.Machine.execCfgStatus src s
  | .ownerSet src modulus exponent count flags rsv sig => Sys2Proof.Machine.execOwnerSet src modulus exponent count flags rsv sig s
  | .idCert src => Sys2Proof.Machine.execIdCert src s
  | .attestQuote src nonce mask => Sys2Proof.Machine.execAttestQuote src nonce mask s
  | .measRead src => Sys2Proof.Machine.execMeasRead src s
  | .measExtend src digest => Sys2Proof.Machine.execMeasExtend src digest s
  | .fwWrite src offset flags data => Sys2Proof.Machine.execFwWrite src offset flags data s
  | .fwActivate src flags => Sys2Proof.Machine.execFwActivate src flags s
  | .fwStatus src => Sys2Proof.Machine.execFwStatus src s
  | .factoryRead src block => Sys2Proof.Machine.execFactoryRead src block s
  | .svnRaise src svn keys => Sys2Proof.Machine.execSvnRaise src svn keys s
  | .powerSample vin iin pin energy sustained => Sys2Proof.Machine.execPowerSample vin iin pin energy sustained s
  | .trip cause die => Sys2Proof.Machine.execTrip cause die s
  | .pmbusPoll answers => Sys2Proof.Machine.execPmbusPoll answers s
  | .pmbAlert answers => Sys2Proof.Machine.execPmbAlert answers s
  | .smbusBlockRead cmd => Sys2Proof.Machine.execSmbusBlockRead cmd s
  | .clkStatus src die => Sys2Proof.Machine.execClkStatus src die s
  | .pwrStatus src => Sys2Proof.Machine.execPwrStatus src s
  | .powerStateSet src state => Sys2Proof.Machine.execPowerStateSet src state s
  | .idleTimerSet src us => Sys2Proof.Machine.execIdleTimerSet src us s
  | .unitSleep src die kind index state => Sys2Proof.Machine.execUnitSleep src die kind index state s
  | .thermSet src temp => Sys2Proof.Machine.execThermSet src temp s
  | .tripClear src => Sys2Proof.Machine.execTripClear src s
  | .registerWrite addr v => Sys2Proof.Machine.execRegisterWrite addr v s
  | .testPortInstruction ix => Sys2Proof.Machine.execTestPortInstruction ix s
  | .pmbusRead src addr cmd len answer => Sys2Proof.Machine.execPmbusRead src addr cmd len answer s
  | .dieResetComplete d passed => Sys2Proof.Machine.execDieResetComplete d passed s
  | .powerTransitionComplete b => Sys2Proof.Machine.execPowerTransitionComplete b s
  | .ctxSaveComplete ctx => Sys2Proof.Machine.execCtxSaveComplete ctx s
  | .remoteWindowRequest d l k write ue => Sys2Proof.Machine.execRemoteWindowRequest d l k write ue s
  | .oobLinkChange up => Sys2Proof.Machine.execOobLinkChange up s
  | .hubSnapTake => Sys2Proof.Machine.execHubSnapTake s
  | .hubSnapComplete => Sys2Proof.Machine.execHubSnapComplete s
  | .hubBankMigrationComplete => Sys2Proof.Machine.execHubBankMigrationComplete s
  | .routeCommitTakeEffect => Sys2Proof.Machine.execRouteCommitTakeEffect s
  | .parentLossTimeout => Sys2Proof.Machine.execParentLossTimeout s
  | .holdoverTimeout => Sys2Proof.Machine.execHoldoverTimeout s
  | .syncMarkMissed => Sys2Proof.Machine.execSyncMarkMissed s
  | .mbxWatchdogExpiry => Sys2Proof.Machine.execMbxWatchdogExpiry s
  | .healthScoreCompute => Sys2Proof.Machine.execHealthScoreCompute s
  | .dayRollover => Sys2Proof.Machine.execDayRollover s
  | .qRequestRepeat => Sys2Proof.Machine.execQRequestRepeat s
  | .quarantineTakeEffect => Sys2Proof.Machine.execQuarantineTakeEffect s
  | .tokenLapse => Sys2Proof.Machine.execTokenLapse s
  | .logIntake => Sys2Proof.Machine.execLogIntake s
  | .mirrorCopy => Sys2Proof.Machine.execMirrorCopy s
  | .ledgerRecordWrite => Sys2Proof.Machine.execLedgerRecordWrite s
  | .claimWindowClose => Sys2Proof.Machine.execClaimWindowClose s
  | .refclkLoss => Sys2Proof.Machine.execRefclkLoss s
  | .refclkReturn => Sys2Proof.Machine.execRefclkReturn s
  | .inputPowerLoss => Sys2Proof.Machine.execInputPowerLoss s
  | .insertionLevelStep => Sys2Proof.Machine.execInsertionLevelStep s
  | .modEnRise => Sys2Proof.Machine.execModEnRise s
  | .modEnFall => Sys2Proof.Machine.execModEnFall s
  | .smbusAlertResponse => Sys2Proof.Machine.execSmbusAlertResponse s
  | .fabricTimeUnitFailure => Sys2Proof.Machine.execFabricTimeUnitFailure s

end Sys2Proof.Machine
end

