-- ==== Sys2Proof/Safety.lean ====
section
/-! DEFINITION. The terms claims use: a command that runs, what it may change, the conditions on its sender, and good states. -/

namespace Sys2Proof.Machine

/-- The HBM and the flash are in canonical form: every byte memory of the block outside its tiles and routine stores. -/
def State.memOk (s : State) : Bool := Memory.wf s.hbm && Memory.wf s.flash

/-- The command answers a next state, and `P` holds of it. -/
def Runs (c : Instr) (s : State) (P : State → Prop) : Prop := ∃ t, exec c s = .next t ∧ P t

/-- Of the whole block only compute die d may differ, and there only its tile p. -/
structure OnlyTile (s t : State) (d p : Nat) : Prop where
  rest : t = { s with cds := t.cds }
  dies : ∀ k, k ≠ d → t.cd k = s.cd k
  die : t.cd d = { s.cd d with tiles := (t.cd d).tiles }
  tiles : ∀ q, q ≠ p → t.tile d q = s.tile d q

/-- Of the whole block only compute die d may differ. -/
structure OnlyCd (s t : State) (d : Nat) : Prop where
  rest : t = { s with cds := t.cds }
  dies : ∀ k, k ≠ d → t.cd k = s.cd k

/-- A Mule that starts its next instruction: in RUN, with no break due before it (R92). -/
def Ready (s : State) (d p : Nat) (tag : Option Nat) : Prop :=
  (s.tile d p).mule.st = .run ∧ (s.tile d p).mule.breakDue tag = false

/-- The first check of R87 that fails for an instruction at issue, with its unit's own checks `u`. -/
def issueError (s : State) (d p f7 f3 : Nat) (rs1 rs2 : Fin 32) (u : State → Issue → UnitChecks) : Option Err :=
  let k := s.issueOf d p f7 f3 rs1 rs2
  firstErr (issueChecks (s.tile d p) k ((s.tile d p).mule.x rs1.val).toNat ((s.tile d p).mule.x rs2.val) (u s k))

/-- What issue does to the Mule of a long-running instruction (R81, R83, R85): it receives the next count, in rd; its tag is outstanding
unless it completes at once; the Mule goes on. -/
structure Issued (s t : State) (d p : Nat) (rd : Fin 32) (tag : Nat) (held : Bool) : Prop where
  count : (t.tile d p).mule.lrCount = (s.tile d p).mule.lrCount + 1
  dest : ∀ r, (t.tile d p).mule.x r =
    if r = rd.val ∧ r ≠ 0 then BitVec.ofNat 64 ((s.tile d p).mule.lrCount + 1) else (s.tile d p).mule.x r
  pc : (t.tile d p).mule.pc = (s.tile d p).mule.pc + 4
  tags : (t.tile d p).mule.tags = if held then (s.tile d p).mule.tags ||| (1#64 <<< tag) else (s.tile d p).mule.tags
  goes : (t.tile d p).mule.st = .run

/-- The reply frame of a command (R401, R405): flag 1, the SEQ and CONTEXT of its frame, the time, the returns. -/
def answer (s : State) (src : Src) (cmd : Nat) (e : Err) (payload : List Byte) : Output :=
  .mailbox src.oob { ctrl := src.ctrl, mailbox := src.mbox, flags := 1, command := cmd, seq := src.seq, status := e.code,
                     context := src.context, time := s.now, payload := payload }

/-- Among what the block has sent since s is the output o. -/
def Sent (s t : State) (o : Output) : Prop := ∃ a b, t.out = a ++ o :: (b ++ s.out)

/-- Among what the block has sent since s is the OK reply of a command. -/
def Answered (s t : State) (src : Src) (cmd : Nat) (payload : List Byte) : Prop := Sent s t (answer s src cmd .ok payload)

/-- The block's trace has grown by the OK reply of a command alone. -/
def Replied (s t : State) (src : Src) (cmd : Nat) (payload : List Byte) : Prop := t.out = answer s src cmd .ok payload :: s.out

/-- The last thing the block sent is the OK reply of a command. -/
def RepliedLast (s t : State) (src : Src) (cmd : Nat) (payload : List Byte) : Prop := t.out.head? = some (answer s src cmd .ok payload)

/-- A reply changes nothing but the trace, the mailbox unit and the transport that carries it. -/
def OnlyReply (s t : State) : Prop := t = { s with out := t.out, mbx := t.mbx, xp := t.xp, eths := t.eths }

/-- The sender may use the port it uses (R398, R479). -/
def Admitted (s : State) (src : Src) (cmd : Nat) : Prop := s.portAdmits src cmd = true

/-- The sender owns context x and names it in its frame (R402, R407). -/
structure Owner (s : State) (src : Src) (cmd x : Nat) : Prop where
  port : s.portAdmits src cmd = true
  mine : (s.cx x).owner = src.ctrl.val
  live : (s.cx x).st ≠ .free
  named : src.context = x

/-- The sender has ADMIN, and its frame names no context (R401, R407). -/
structure Admin (s : State) (src : Src) (cmd : Nat) : Prop where
  port : s.portAdmits src cmd = true
  admin : s.isAdmin src = true

end Sys2Proof.Machine
end

