-- ==== Sys2Proof/Certificates/Slice0/Obligations.lean ====
section
/-! DEFINITION. The statements for the provers, each a proposition about the model, from the numbered rules of spec/. -/

open Sys2Proof Sys2Proof.Machine

/-- The step runs the command at the front of the queue, on the state with the queue's rest; with no command waiting one ns of always-on
time passes, and of fabric time when no slew is due and the island runs (DESIGN CHOICE, log entry 1), and nothing else changes. -/
def Obligations.StepRunsTheFrontCommandOrPassesTime : Prop :=
  (∀ (c : Instr) (rest : List Instr) (s : State), step { s with pending := c :: rest } = exec c { s with pending := rest }) ∧
  (∀ s : State, s.pending = [] → ∃ t, step s = .next t ∧ t.aonNs = s.aonNs + 1 ∧ t = { s with aonNs := t.aonNs, ft := t.ft } ∧
     t.ft = { s.ft with now := t.ft.now, due := t.ft.due } ∧ (s.ft.failed = true → t.ft = s.ft) ∧
     (s.ft.failed = false → s.ft.due = [] → t.ft.now = s.ft.now + 1))

/-- R76, R77: an instruction that retires writes one register (x0 discards), moves the PC and counts; no other register, flag, memory or unit
changes. A fault halts a Mule precisely: STATE, the fault registers, and nothing else of it; in a launch without a schedule every other
active Mule of the context halts with SOURCE 4 and the code. -/
def Obligations.RetirementAndFaultsHaveTheirEffects : Prop :=
  (∀ (s : State) (d p rd : Nat) (v pc : Word) (c : Nat),
     let t := s.retire d p rd v pc c
     OnlyTile s t d p ∧
     (∀ r, (t.tile d p).mule.x r = if r = rd ∧ r ≠ 0 then v else (s.tile d p).mule.x r) ∧
     (t.tile d p).mule.pc = pc ∧ (t.tile d p).mule.instret = (s.tile d p).mule.instret + 1 ∧
     (t.tile d p).mule = { (s.tile d p).mule with
       regs := (t.tile d p).mule.regs, pc := (t.tile d p).mule.pc, instret := (t.tile d p).mule.instret, brkSkip := false,
       stack := (t.tile d p).mule.stack, arm := (t.tile d p).mule.arm } ∧
     t.tile d p = { s.tile d p with mule := (t.tile d p).mule,
                                    mem := { (s.tile d p).mem with cycles := (s.tile d p).mem.cycles + c } }) ∧
  (∀ (s : State) (d p : Nat) (code : Err) (source unit tag lrc : Nat),
     ((s.tile d p).mule.st.active = true →
       ((s.muleFault d p code source unit tag lrc).tile d p).mule =
         { (s.tile d p).mule with st := .haltFault, faultCode := code, faultSource := source, faultUnit := unit, faultTag := tag,
                                  faultPc := (s.tile d p).mule.pc, faultLrc := lrc }) ∧
     ((s.tile d p).mule.st.active = false → s.muleFault d p code source unit tag lrc = s) ∧
     (∀ x k q, (s.tile d p).mule.st.active = true → (s.tile d p).mem.ctx = some x → s.liveRec? x = none → (k ≠ d ∨ q ≠ p) →
       (s.tile k q).mem.ctx = some x → (s.tile k q).mule.st.active = true →
       ((s.muleFault d p code source unit tag lrc).tile k q).mule =
         { (s.tile k q).mule with st := .haltFault, faultCode := code, faultSource := 4, faultUnit := 0x1F, faultTag := 0,
                                  faultPc := (s.tile k q).mule.pc, faultLrc := 0 }))

/-- R73 to R77: an ordinary instruction in RUN without a break retires with the result, the PC and the cost of its kind: register
results, jumps, branches, loads and stores of each width in each window that R74 allows, and reads of the Mule's own registers. -/
def Obligations.OrdinaryInstructionsRetire : Prop :=
  ∀ (d : CdId) (p : PTile) (s : State) (w len : Nat), Ready s d p none → fetch (s.tile d p) (s.cd d).rs.mem = .ok (w, len) →
    let t := s.tile d p
    let e := muleEff t.mule.x t.mule.pc w
    let next := t.mule.pc + BitVec.ofNat 64 len
    (∀ rd v c, e = .write rd v c → exec (.muleInstruction d p) s = .next (s.retire d p rd v next c)) ∧
    (∀ rd a, e = .jump rd a → exec (.muleInstruction d p) s = .next (s.retire d p rd next a (2 + storeCost a))) ∧
    (∀ a, e = .branch false a → exec (.muleInstruction d p) s = .next (s.retire d p 0 0 next 1)) ∧
    (∀ a, e = .branch true a → exec (.muleInstruction d p) s = .next (s.retire d p 0 0 a (2 + storeCost a))) ∧
    (∀ rd n sg a win o, e = .load rd n sg a → a.toNat % n = 0 → winOf a.toNat n = some (win, o) →
      exec (.muleInstruction d p) s = .next (s.retire d p rd
        (if sg then BitVec.ofInt 64 (sx (8 * n) (Mem.readLe (winMem t (s.cd d).rs.mem win) o n))
         else BitVec.ofNat 64 (Mem.readLe (winMem t (s.cd d).rs.mem win) o n)) next 2)) ∧
    (∀ n a v o, e = .store n a v → a.toNat % n = 0 → winOf a.toNat n = some (.data, o) →
      exec (.muleInstruction d p) s =
        .next ((s.modMem d p fun m => { m with dmem := Mem.writeLe m.dmem o n v.toNat }).retire d p 0 0 next 1)) ∧
    (∀ n a v o, e = .store n a v → a.toNat % n = 0 → winOf a.toNat n = some (.b, o) →
      exec (.muleInstruction d p) s =
        .next ((s.modTile d p fun t => t.modB fun m => Mem.writeLe m o n v.toNat).retire d p 0 0 next 1)) ∧
    (∀ rd k v, e = .csr rd (0x7C0 + k) false false → t.mule.regAt k = some v →
      exec (.muleInstruction d p) s = .next (s.retire d p rd (BitVec.ofNat 64 v) next 1))

/-- R74, R76, R534: which accesses and words halt an ordinary instruction, and with which code; a misaligned access first of all. A custom-0 word
that names no row of R83, a custom-1 word other than CALLR and RETR and a custom-2 word of funct3 6 halt the Mule with E_BADCMD and SOURCE 0
before any descriptor is read, and receive no long-running count. -/
def Obligations.OrdinaryInstructionsFault : Prop :=
  ∀ (d : CdId) (p : PTile) (s : State), Ready s d p none →
    (∀ c, fetch (s.tile d p) (s.cd d).rs.mem = .error c → exec (.muleInstruction d p) s = .next (s.muleFault d p c 0)) ∧
    (∀ w len, fetch (s.tile d p) (s.cd d).rs.mem = .ok (w, len) →
      let e := muleEff (s.tile d p).mule.x (s.tile d p).mule.pc w
      (e = .illegal → exec (.muleInstruction d p) s = .next (s.muleFault d p .badcmd 0)) ∧
      ((bits w 6 0 = 0x0B ∧ (bits w 31 25, bits w 14 12) ∉ [(0x08, 0), (0x10, 0), (0x11, 0), (0x12, 0), (0x18, 0), (0x20, 0), (0x20, 1), (0x28, 0),
            (0x30, 0), (0x38, 0), (0x38, 1), (0x38, 2)]) ∨ (bits w 6 0 = 0x2B ∧ bits w 14 12 ≠ 0 ∧ bits w 14 12 ≠ 1) ∨
          (bits w 6 0 = 0x5B ∧ bits w 14 12 = 6) →
        exec (.muleInstruction d p) s = .next (s.muleFault d p .badcmd 0) ∧
        let m := ((s.muleFault d p .badcmd 0).tile d p).mule
        m.st = .haltFault ∧ m.faultCode = .badcmd ∧ m.faultSource = 0 ∧ m.lrCount = (s.tile d p).mule.lrCount) ∧
      (∀ rd n sg a, e = .load rd n sg a → a.toNat % n ≠ 0 → exec (.muleInstruction d p) s = .next (s.muleFault d p .align 0)) ∧
      (∀ rd n sg a, e = .load rd n sg a → a.toNat % n = 0 → winOf a.toNat n = none →
        exec (.muleInstruction d p) s = .next (s.muleFault d p .range 0)) ∧
      (∀ n a v, e = .store n a v → a.toNat % n ≠ 0 → exec (.muleInstruction d p) s = .next (s.muleFault d p .align 0)) ∧
      (∀ n a v o, e = .store n a v → a.toNat % n = 0 → winOf a.toNat n = some (.a, o) →
        exec (.muleInstruction d p) s = .next (s.muleFault d p .imemActive 0)) ∧
      (∀ n a v o, e = .store n a v → a.toNat % n = 0 → winOf a.toNat n = some (.store, o) →
        exec (.muleInstruction d p) s = .next (s.muleFault d p .denied 0)) ∧
      (∀ n a v, e = .store n a v → a.toNat % n = 0 → winOf a.toNat n = none →
        exec (.muleInstruction d p) s = .next (s.muleFault d p .range 0)))

/-- R83, R86, R533: LR.WAIT and END go on at once when their tags are complete and otherwise hold the Mule in WAIT; LR.TEST returns the
complete tags of its mask; a Mule in WAIT is released when the last awaited tag completes, after END into DONE.
(Where the rules leave a choice the clauses follow log entry 57, the model's choice.) -/
def Obligations.WaitsFollowTheTags : Prop :=
  ∀ (d : CdId) (p : PTile) (s : State),
    let m := (s.tile d p).mule
    (∀ rs1, Ready s d p none → m.tags &&& m.x rs1.val = 0 → exec (.lrWait d p rs1) s = .next (s.retire d p 0 0 (m.pc + 4) 2)) ∧
    (∀ rs1, Ready s d p none → m.tags &&& m.x rs1.val ≠ 0 → Runs (.lrWait d p rs1) s fun t =>
      OnlyTile s t d p ∧ (t.tile d p).mule = { m with st := .wait } ∧
      (t.tile d p).mem = { (s.tile d p).mem with wait := .tags (m.x rs1.val), waitFrom := s.aonNs }) ∧
    (∀ rd rs1, Ready s d p none → m.arm = none →
      exec (.lrTest d p rd rs1) s = .next (s.retire d p rd (m.x rs1.val &&& ~~~m.tags) (m.pc + 4) 2)) ∧
    (Ready s d p none → m.arm = none → m.tags = 0 → Runs (.endOp d p) s fun t => (t.tile d p).mule.st = .done ∧
      (t.tile d p).mule.pc = m.pc + 4 ∧ ∀ r, (t.tile d p).mule.x r = m.x r) ∧
    (Ready s d p none → m.arm = none → m.tags ≠ 0 → Runs (.endOp d p) s fun t =>
      OnlyTile s t d p ∧ (t.tile d p).mule = { m with st := .wait }) ∧
    (∀ mask, m.st = .wait → (s.tile d p).mem.wait = .tags mask → m.tags &&& mask = 0 → Runs (.muleWaitRelease d p) s fun t =>
      OnlyTile s t d p ∧ (t.tile d p).mule.st = .run ∧ (t.tile d p).mule.pc = m.pc + 4 ∧ ∀ r, (t.tile d p).mule.x r = m.x r) ∧
    (m.st = .wait → (s.tile d p).mem.wait = .ending → m.tags = 0 → Runs (.muleWaitRelease d p) s fun t =>
      (t.tile d p).mule.st = .done)

/-- R92, R93: EBREAK stops a Mule of a debug launch alone, before the instruction, with HIT set, and is a fault elsewhere; a break due before
a Mule's next instruction is taken instead of it, whichever instruction it is. -/
def Obligations.BreaksComeBeforeInstructions : Prop :=
  (∀ (d : CdId) (p : PTile) (s : State), Ready s d p none →
     ((s.tile d p).mule.debug = true → Runs (.ebreak d p) s fun t =>
       OnlyTile s t d p ∧
       t.tile d p = { s.tile d p with mule := { (s.tile d p).mule with st := .haltBreak, brkHit := true, brkPending := false } }) ∧
     ((s.tile d p).mule.debug = false → exec (.ebreak d p) s = .next (s.muleFault d p .badcmd 0))) ∧
  (∀ (d : CdId) (p : PTile) (s : State), (s.tile d p).mule.st = .run → (s.tile d p).mule.breakDue none = true →
     ∀ c ∈ ([.ebreak d p, .endOp d p, .retr d p, .lrWait d p 0, .lrTest d p 0 0, .callr d p 0 0 0, .urJoin d p 0 0 0] : List Instr),
       exec c s = .next (s.modMule d p fun m => { m with st := .haltBreak, brkHit := true, brkPending := false }))


/-- R79, R85, R91, R149: CALLR of the null routine leaves rd and a0 zero and ra the return address, and no other register changed, in 14
control cycles, or 16 with a bank switch, which continues at the new bank's SWITCH_PC; with LOAD_BUSY set it halts at the RETR. RETR of
an unpadded call, and the end of a padded call's pad, give the status to the rd of the call and go on at its return address; at depth 0
or with a routine's tag outstanding RETR faults. -/
def Obligations.RoutinesReturnTheirStatus : Prop :=
  (∀ (d : CdId) (p : PTile) (rd rs1 : Fin 32) (s : State),
     let m := (s.tile d p).mule
     Ready s d p none → (dirEntry (s.cd d).rs.mem 0).offset ≠ 0 → m.stack = [] → m.arm = none → m.tags >>> 48 = 0 →
     (m.switchReq = false → Runs (.callr d p rd rs1 0) s fun t =>
       (∀ r, (t.tile d p).mule.x r = if r = 0 then 0 else if r = rd.val ∨ r = 10 then 0 else if r = 1 then m.pc + 4 else m.x r) ∧
       (t.tile d p).mule.pc = m.pc + 4 ∧ (t.tile d p).mule.stack = [] ∧ (t.tile d p).mule.st = .run ∧
       (t.tile d p).mule.bank = m.bank ∧ (t.tile d p).mem.cycles = (s.tile d p).mem.cycles + 14) ∧
     (m.switchReq = true → m.loadBusy = false → Runs (.callr d p rd rs1 0) s fun t =>
       (t.tile d p).mule.pc = BitVec.ofNat 64 (4 * m.switchPc) ∧ (t.tile d p).mule.bank = !m.bank ∧
       (t.tile d p).mule.switchReq = false ∧ (t.tile d p).mem.cycles = (s.tile d p).mem.cycles + 16) ∧
     (m.switchReq = true → m.loadBusy = true → Runs (.callr d p rd rs1 0) s fun t =>
       (t.tile d p).mule.st = .haltFault ∧ (t.tile d p).mule.faultCode = .imemActive ∧ (t.tile d p).mule.bank = m.bank ∧
       (t.tile d p).mule.switchReq = true ∧ (t.tile d p).mule.stack.length = 1)) ∧
  (∀ (d : CdId) (p : PTile) (s : State) (f : Frame) (rest : List Frame),
     let m := (s.tile d p).mule
     (Ready s d p none → m.stack = [] → exec (.retr d p) s = .next (s.muleFault d p .badcmd 0)) ∧
     (Ready s d p none → m.stack = f :: rest → f.ready = true → m.tags >>> 48 ≠ 0 → exec (.retr d p) s = .next (s.muleFault d p .seq 0)) ∧
     (Ready s d p none → m.stack = f :: rest → f.ready = true → m.tags >>> 48 = 0 → m.switchReq = false → f.budget = 0 →
       Runs (.retr d p) s fun t => OnlyTile s t d p ∧
         (∀ r, (t.tile d p).mule.x r = if r = f.rd ∧ r ≠ 0 then m.x 10 else m.x r) ∧
         (t.tile d p).mule.pc = f.ret ∧ (t.tile d p).mule.stack.length = rest.length ∧ (t.tile d p).mule.st = .run) ∧
     (m.st = .pad → (s.tile d p).mem.wait = .retPad → m.stack = f :: rest → m.switchReq = false →
       Runs (.routineBudgetPadEnd d p) s fun t => OnlyTile s t d p ∧
         (∀ r, (t.tile d p).mule.x r = if r = f.rd ∧ r ≠ 0 then m.x 10 else m.x r) ∧
         (t.tile d p).mule.pc = f.ret ∧ (t.tile d p).mule.stack.length = rest.length ∧ (t.tile d p).mule.st = .run))

/-- R96: the six conditions of UR.BR; it opens an arm and takes the arm its condition selects; an arm at UR.JOIN goes on at its budget,
pads before it, and is a fault after it; the pad ends at the join.
(Where the rules leave a choice the clauses follow log entry 57, the model's choice.) -/
def Obligations.CompatibilityArmsKeepTheirBudget : Prop :=
  ∀ (d : CdId) (p : PTile) (s : State),
    let m := (s.tile d p).mule
    let v := m.sumVal.toNat
    (m.urCond 0 = decide (v % 2 ^ 31 = 0) ∧ m.urCond 1 = decide (v % 2 ^ 31 ≠ 0) ∧ m.urCond 2 = (!m.sumNan && !m.sumInf) ∧
      m.urCond 3 = (m.sumNan || m.sumInf)) ∧
    (∀ f3 imm, Ready s d p none → m.urMode = true → f3.val ≤ 5 → m.arm = none → m.sumValid = true →
      Runs (.urBr d p f3 0 0 imm) s fun t => OnlyTile s t d p ∧ (∀ r, (t.tile d p).mule.x r = m.x r) ∧
        (t.tile d p).mule.arm = some {} ∧
        (t.tile d p).mule.pc = if m.urCond f3.val then m.pc + 4 else m.pc + imm.signExtend 64) ∧
    (∀ f3 imm, Ready s d p none → m.urMode = true → f3.val ≤ 5 → m.arm = none → m.sumValid = false →
      exec (.urBr d p f3 0 0 imm) s = .next (s.muleFault d p .seq 0)) ∧
    (∀ a (imm : Fin 4096), Ready s d p none → m.urMode = true → m.arm = some a →
      (a.spent = imm.val → Runs (.urJoin d p 0 0 imm) s fun t => OnlyTile s t d p ∧ (t.tile d p).mule.st = .run ∧
        (t.tile d p).mule.arm = none ∧ (t.tile d p).mule.pc = m.pc + 4 ∧ ∀ r, (t.tile d p).mule.x r = m.x r) ∧
      (a.spent < imm.val → Runs (.urJoin d p 0 0 imm) s fun t => OnlyTile s t d p ∧ (t.tile d p).mule.st = .pad ∧
        (t.tile d p).mem.wait = .armPad) ∧
      (imm.val < a.spent → exec (.urJoin d p 0 0 imm) s = .next (s.muleFault d p .schedLate 0))) ∧
    (∀ a, m.st = .pad → (s.tile d p).mem.wait = .armPad → m.arm = some a → Runs (.urPadEnd d p) s fun t =>
      OnlyTile s t d p ∧ (t.tile d p).mule.st = .run ∧ (t.tile d p).mule.arm = none ∧ (t.tile d p).mule.pc = m.pc + 4 ∧
      ∀ r, (t.tile d p).mule.x r = m.x r)

/-- R352, R498, R499: a PSYNC write of the period in force finishes the tile's period, at once on a cool die and after LEVEL times a
twentieth of the period on a hot one; another value, or no schedule, is a fault; heat gates an unscheduled Mule. -/
def Obligations.PeriodsEndAtPsync : Prop :=
  ∀ (d : CdId) (p : PTile) (rd : Fin 32) (v : Word) (s : State) (r : Nat),
    let m := (s.tile d p).mule
    let x := (s.tile d p).cx
    let per := (s.lrec r).period % 2 ^ 16
    let gate := (s.cd d).level * ((s.schedOf r).desc (s.lrec r).period).length / 20
    (Ready s d p none → (s.cx x).scheduled = true → s.liveRec? x = some r → v.toNat = per → gate = 0 →
      Runs (.psyncWrite d p rd v) s fun t => (t.tile d p).mule.st = .wait ∧ (t.tile d p).mem.wait = .psync ∧
        (∀ q, (t.tile d p).mule.x q = if q = rd.val ∧ q ≠ 0 then BitVec.ofNat 64 per else m.x q) ∧
        (t.tile d p).mule.pc = m.pc + 4 ∧ (t.recX r).finish = s.now ∧
        (t.recX r).waiting = (s.recX r).waiting.filter fun e => e ≠ (d.val, p.val)) ∧
    (Ready s d p none → (s.cx x).scheduled = true → s.liveRec? x = some r → v.toNat = per → 0 < gate →
      Runs (.psyncWrite d p rd v) s fun t => (t.tile d p).mule.st = .wait ∧ (t.tile d p).mem.wait = .insertion gate ∧
        t.pwr.inserted = s.pwr.inserted + gate ∧ (t.recX r).waiting = (s.recX r).waiting) ∧
    (Ready s d p none → (s.cx x).scheduled = true → s.liveRec? x = some r → v.toNat ≠ per →
      exec (.psyncWrite d p rd v) s = .next (s.muleFault d p .seq 0)) ∧
    (Ready s d p none → (s.cx x).scheduled = false → exec (.psyncWrite d p rd v) s = .next (s.muleFault d p .badcmd 0)) ∧
    (∀ n, (s.tile d p).mem.wait = .insertion n → s.liveRec? x = some r → m.st = .wait → (s.tile d p).mem.waitFrom + n ≤ s.aonNs →
      Runs (.psyncInsertionEnd d p) s fun t => (t.tile d p).mem.wait = .psync ∧ (t.recX r).finish = s.now ∧
        (t.recX r).waiting = (s.recX r).waiting.filter fun e => e ≠ (d.val, p.val)) ∧
    (∀ c, (s.cd d).level ≠ 0 → m.st = .run → (s.tile d p).mem.gated ≠ s.aonNs / 20000 + 1 → (s.tile d p).mem.ctx = some c →
      (s.cx c).scheduled = false → Runs (.muleThermalGate d p) s fun t =>
        t.pwr = { s.pwr with inserted := s.pwr.inserted + 1000 * (s.cd d).level } ∧ (t.tile d p).mem.gated = s.aonNs / 20000 + 1 ∧
        ∀ q, (t.tile d p).mule.x q = m.x q)

/-- R81, R83, R85, R87: each long-running instruction that passes every check receives the next count and its tag, and starts in its unit:
the pass with its plane FILLING, the engine instruction, the copy on an idle engine, the gather job on the lower free slot, the
stream bound, the slot armed. Inside an arm only those R97 permits issue. -/
def Obligations.LongRunningInstructionsIssue : Prop :=
  ∀ (d : CdId) (p : PTile) (rd rs1 rs2 : Fin 32) (s : State),
    let a := (s.tile d p).arr
    let go (f7 f3 : Nat) : Issue := s.issueOf d p f7 f3 rs1 rs2
    let tag := (go 0 0).tag
    let free := (s.tile d p).mule.arm = none
    Ready s d p (some tag) →
    (free → issueError s d p 0x08 0 rs1 rs2 (fun s k => passChecks (s.tile k.d k.p) (s.cd k.d).width k.desc) = none →
      Runs (.maPass d p rd rs1 rs2) s fun t => Issued s t d p rd tag true ∧ OnlyTile s t d p ∧
        (let q := passD (go 8 0).desc
         ((t.tile d p).arr.plane q.plane).st = .filling ∧ ((t.tile d p).arr.plane q.plane).cells = [] ∧
         (t.tile d p).arr.passes.length = a.passes.length + 1 ∧ (t.tile d p).arr.passCount = a.passCount + 1)) ∧
    (issueError s d p 0x10 0 rs1 rs2 (fun s k => eeRunChecks (s.tile k.d k.p) (s.cx k.ctx).urCompat k.desc) = none →
      Runs (.eeRun d p rd rs1 rs2) s fun t => Issued s t d p rd tag true ∧ OnlyTile s t d p ∧
        (t.tile d p).ee.run.isSome = true ∧ (t.tile d p).ee.runs = (s.tile d p).ee.runs + 1 ∧ (t.tile d p).ee.laneFlags = [] ∧
        (t.tile d p).ee.vregs = [] ∧ (t.tile d p).ee.masks = [] ∧
        ∀ n, (eeD (go 0x10 0).desc).plane? = some n → ((t.tile d p).arr.plane n).st = .draining) ∧
    (issueError s d p 0x11 0 rs1 rs2 (fun s k => cxChecks (s.tile k.d k.p) false k.desc) = none →
      Runs (.eeCompress d p rd rs1 rs2) s fun t => Issued s t d p rd tag true ∧ OnlyTile s t d p ∧
        (t.tile d p).ee.run.map (·.kind) = some 1 ∧ (t.tile d p).ee.runs = (s.tile d p).ee.runs + 1) ∧
    (issueError s d p 0x12 0 rs1 rs2 (fun s k => cxChecks (s.tile k.d k.p) true k.desc) = none →
      Runs (.eeExpand d p rd rs1 rs2) s fun t => Issued s t d p rd tag true ∧ OnlyTile s t d p ∧
        (t.tile d p).ee.run.map (·.kind) = some 2 ∧ (t.tile d p).ee.runs = (s.tile d p).ee.runs + 1) ∧
    (issueError s d p 0x18 0 rs1 rs2 dmaChecks = none →
      (Tab.get {} (s.cd d).dma.engines (dmaD (go 0x18 0).desc).engine : DmaEng).st = 0 →
      Runs (.dmaCopy d p rd rs1 rs2) s fun t => OnlyCd s t d ∧
        (let e : DmaEng := Tab.get {} (t.cd d).dma.engines (dmaD (go 0x18 0).desc).engine
         e.st = 1 ∧ e.cur.tag = tag ∧ e.cur.desc = (go 0x18 0).desc ∧ e.cur.lrc = (s.tile d p).mule.lrCount + 1) ∧
        Issued s t d p rd tag true) ∧
    (∀ j, free → issueError s d p 0x20 0 rs1 rs2 henChecks = none → (s.cd d).hen.slotFor (go 0x20 0).i = some j →
      Runs (.henLaunch d p rd rs1 rs2) s fun t => Issued s t d p rd tag true ∧ OnlyCd s t d ∧
        (t.job d j).st = 1 ∧ (t.job d j).unordered = false ∧ (t.job d j).tag = tag ∧
        (t.cd d).hen.jobCount = (s.cd d).hen.jobCount + 1) ∧
    (∀ j, free → issueError s d p 0x20 1 rs1 rs2 henChecks = none → (s.cd d).hen.slotFor (go 0x20 1).i = some j →
      Runs (.henLaunchU d p rd rs1 rs2) s fun t => Issued s t d p rd tag true ∧ OnlyCd s t d ∧
        (t.job d j).st = 1 ∧ (t.job d j).unordered = true ∧ (t.cd d).hen.jobCount = (s.cd d).hen.jobCount + 1) ∧
    (free → issueError s d p 0x28 0 rs1 rs2 streamChecks = none →
      Runs (.asStream d p rd rs1 rs2) s fun t => Issued s t d p rd tag false ∧ OnlyTile s t d p ∧
        (Tab.get {} (t.tile d p).mem.streams (Config.streamDesc ((go 0x28 0).desc.drop 8)).gen : Stream) =
          { bound := true, desc := (go 0x28 0).desc }) ∧
    (∀ e, free → issueError s d p 0x30 0 rs1 rs2 armChecks = none → s.armed? (go 0x30 0) = some e →
      Runs (.slotArm d p rd rs1 rs2) s fun t => Issued s t d p rd tag false ∧ OnlyCd s t d ∧
        (Tab.get {} (t.cd d).slots.entries e.1 : SlotE).armed = true)

/-- R87, R97: the first check of R87 that fails halts the Mule with its code, SOURCE 1 and no effect; inside an arm an instruction that
R97 does not permit halts it with E_DENIED.
(Where the rules leave a choice the clauses follow log entry 57, the model's choice.) -/
def Obligations.IssueRefusalsHaveNoOtherEffect : Prop :=
  ∀ (d : CdId) (p : PTile) (rd rs1 rs2 : Fin 32) (s : State) (e : Err),
    let tag := (s.issueOf d p 0 0 rs1 rs2).tag
    Ready s d p (some tag) →
    ((s.tile d p).mule.arm = none →
      (issueError s d p 0x08 0 rs1 rs2 (fun s k => passChecks (s.tile k.d k.p) (s.cd k.d).width k.desc) = some e →
        exec (.maPass d p rd rs1 rs2) s = .next (s.muleFault d p e 1 1 tag)) ∧
      (issueError s d p 0x20 0 rs1 rs2 henChecks = some e → exec (.henLaunch d p rd rs1 rs2) s = .next (s.muleFault d p e 1 4 tag)) ∧
      (issueError s d p 0x28 0 rs1 rs2 streamChecks = some e → exec (.asStream d p rd rs1 rs2) s = .next (s.muleFault d p e 1 5 tag)) ∧
      (issueError s d p 0x30 0 rs1 rs2 armChecks = some e → exec (.slotArm d p rd rs1 rs2) s = .next (s.muleFault d p e 1 6 tag))) ∧
    (issueError s d p 0x10 0 rs1 rs2 (fun s k => eeRunChecks (s.tile k.d k.p) (s.cx k.ctx).urCompat k.desc) = some e →
      exec (.eeRun d p rd rs1 rs2) s = .next (s.muleFault d p e 1 2 tag)) ∧
    (issueError s d p 0x18 0 rs1 rs2 dmaChecks = some e → exec (.dmaCopy d p rd rs1 rs2) s = .next (s.muleFault d p e 1 3 tag)) ∧
    ((s.tile d p).mule.arm.isSome = true →
      exec (.maPass d p rd rs1 rs2) s = .next (s.muleFault d p .denied 0 1 tag) ∧
      exec (.henLaunch d p rd rs1 rs2) s = .next (s.muleFault d p .denied 0 4 tag) ∧
      exec (.asStream d p rd rs1 rs2) s = .next (s.muleFault d p .denied 0 5 tag) ∧
      exec (.slotArm d p rd rs1 rs2) s = .next (s.muleFault d p .denied 0 6 tag))

/-- R103, R107, R119: a pass ends its input phase, then fills its plane and clears its tag; a miscompare seen leaves the plane HELD and halts
the Mule, tag set. -/
def Obligations.PassesFillTheirPlanes : Prop :=
  ∀ (d : CdId) (p : PTile) (s : State) (q : Pass) (rest : List Pass),
    (List.find? (fun q : Pass => !q.inputDone) (s.tile d p).arr.passes = some q → Runs (.maPassInputEnd d p) s fun t =>
      OnlyTile s t d p ∧ (∀ r ∈ (t.tile d p).arr.passes, r.inputDone = true) ∧
      (t.tile d p).arr.passes.length = (s.tile d p).arr.passes.length ∧
      (t.tile d p).arr.evInput = (s.tile d p).arr.evInput.add q.inCycles) ∧
    ((s.tile d p).arr.passes = q :: rest → q.inputDone = true → (s.cd d).map.phys q.ltile = p →
      Runs (.maPassComplete d p none) s fun t => (t.tile d p).arr.passes = rest ∧
        ((t.tile d p).arr.plane q.plane).st = .full ∧
        ((t.tile d p).arr.plane q.plane).cells = ((s.tile d p).passPlane s.free q (passD q.desc).k).cells ∧
        (t.tile d p).mule.tags = (s.tile d p).mule.tags &&& ~~~(1#64 <<< q.tag)) ∧
    (∀ mis, (s.tile d p).arr.passes = q :: rest → q.inputDone = true → (s.cd d).map.phys q.ltile = p →
      ((s.tile d p).arr.caught q (some mis)).isSome = true → (s.tile d p).mule.st.active = true →
      Runs (.maPassComplete d p (some mis)) s fun t => ((t.tile d p).arr.plane q.plane).st = .held ∧
        (t.tile d p).mule.st = .haltFault ∧ (t.tile d p).mule.faultCode = .checksum ∧ (t.tile d p).mule.faultSource = 2 ∧
        (t.tile d p).mule.tags = (s.tile d p).mule.tags)

/-- R107, R124, R134, R136, R138: an EE.RUN ends row by row, then frees the plane it drained and writes its summary; a compress or an expand
ends with its count in data memory; each clears its tag. -/
def Obligations.EngineInstructionsComplete : Prop :=
  ∀ (d : CdId) (p : PTile) (s : State) (q : EeRun), (s.tile d p).ee.run = some q →
    let tags := (s.tile d p).mule.tags &&& ~~~(1#64 <<< q.tag)
    (q.kind = 0 → q.row < q.rows → Runs (.eeRowEnd d p) s fun t => (t.tile d p).ee.run.map (·.row) = some (q.row + 1) ∧
      (t.tile d p).os = ((s.tile d p).eeRow q s.free).1.os ∧ (t.tile d p).mule = (s.tile d p).mule) ∧
    ((s.cd d).map.phys q.ltile = p → q.kind = 0 → q.rows ≤ q.row → Runs (.eeRunComplete d p) s fun t =>
      (t.tile d p).ee.run = none ∧ (t.tile d p).mule.tags = tags ∧
      (∀ n, (eeD q.desc).plane? = some n → (t.tile d p).arr.plane n = {}) ∧
      ((eeD q.desc).summary = true → (t.tile d p).mule.sumValid = true ∧ (t.tile d p).mule.sumNan = q.sumNan ∧
        (t.tile d p).mule.sumInf = q.sumInf)) ∧
    ((s.cd d).map.phys q.ltile = p → q.kind = 1 → Runs (.eeCompressComplete d p) s fun t =>
      (t.tile d p).ee.run = none ∧ (t.tile d p).mule.tags = tags ∧
      (let r := (s.tile d p).cxRun q s.free (cxD q.desc).n
       (t.tile d p).ee.lastCount = r.2 ∧ (t.tile d p).os = r.1.os ∧
       (t.tile d p).mem.dmem = Mem.writeLe (s.tile d p).mem.dmem (cxD q.desc).count 4 r.2)) ∧
    ((s.cd d).map.phys q.ltile = p → q.kind = 2 → Runs (.eeExpandComplete d p) s fun t =>
      (t.tile d p).ee.run = none ∧ (t.tile d p).mule.tags = tags ∧
      (t.tile d p).os = ((s.tile d p).cxRun q s.free (cxD q.desc).n).1.os)

/-- R174, R187, R190, R218: a copy that runs to its end frees its engine and clears its tag; a reply that comes too late is counted and
discarded; a request without a reply fails its job with E_UNCORR; a job with every item committed frees its slot and its threads,
writes RESULT and clears its tag. -/
def Obligations.CopiesAndGathersComplete : Prop :=
  ∀ (d : CdId) (s : State),
    (∀ (e : Fin 8) ue far (x : DmaEng), Tab.get {} (s.cd d).dma.engines e.val = x → x.st = 1 →
      (s.copyRun d ((s.cd d).map.phys x.cur.ltile) x ue far).stop = .go →
      Runs (.dmaCopyComplete d e ue far) s fun t =>
        (x.queue = [] → (Tab.get {} (t.cd d).dma.engines e.val : DmaEng).st = 0) ∧
        (∀ q rest, x.queue = q :: rest → (Tab.get {} (t.cd d).dma.engines e.val : DmaEng).st = 1 ∧
          (Tab.get {} (t.cd d).dma.engines e.val : DmaEng).cur = q ∧ (Tab.get {} (t.cd d).dma.engines e.val : DmaEng).queue = rest)) ∧
    (∀ t, (s.thr d t.val).late ≠ 0 → Runs (.henLateReply d t) s fun u => OnlyCd s u d ∧
      u.cd d = { s.cd d with hen := { (s.cd d).hen with late := (s.cd d).hen.late + 1, threads := (u.cd d).hen.threads } } ∧
      ∀ k, u.thr d k = if k = t.val then { s.thr d t.val with late := (s.thr d t.val).late - 1 } else s.thr d k) ∧
    (∀ t e h, s.thr d t.val = h → Tab.has h.reqs e.val = true → (Tab.get {} h.reqs e.val : HenReq).held = false →
      (s.job d h.slot).st = 1 → Runs (.henRequestTimeout d t e) s fun u => (u.job d h.slot).st = 2 ∧ (u.job d h.slot).code = .uncorr ∧
        (u.job d h.slot).faultItem = (Tab.get {} h.reqs e.val : HenReq).item ∧ Tab.has (u.thr d t.val).reqs e.val = false) ∧
    (∀ j : Fin 8, (s.job d j.val).st = 1 → (henD (s.job d j.val).desc).hashed = false →
      ((s.cd d).hen.threads.all fun t => decide (t.2.slot ≠ j.val) || decide (t.2.reqs = [])) = true →
      (henD (s.job d j.val).desc).n ≤ (s.job d j.val).commitLow →
      Runs (.henJobComplete d j) s fun u => (u.job d j.val).st = 0 ∧ (∀ e ∈ (u.cd d).hen.threads, e.2.slot ≠ j.val) ∧
        (u.tile d ((s.cd d).map.phys (s.job d j.val).ltile)).mule.tags =
          (s.tile d ((s.cd d).map.phys (s.job d j.val).ltile)).mule.tags &&& ~~~(1#64 <<< (s.job d j.val).tag))

/-- R173, R181, R182, R188: a running thread issues its next request to the memory of a die, counted; a reply to an outstanding request of
an ordered ATOMIC job is held while an earlier item's atomic to the same 64-byte line is still to commit; a reply to a request of an
unordered GATHER into the operand store writes the bytes read there at once, no other byte of the store, and gives up the entry. -/
def Obligations.GatherThreadsRequestAndReceive : Prop :=
  ∀ (d : CdId) (t : Fin 1024) (e : Fin 8) (s : State) (h : HenThread) (q : HenJob), s.thr d t.val = h → s.job d h.slot = q →
    h.st = 1 → q.st = 1 →
    (∀ a n off kind pa, q.stop = .ok → h.item < (henD q.desc).n → (s.cd d).hen.quiescing = false →
      s.henNext d q h = some (a, n, off, kind) → h.freeReq = some e.val → (henD q.desc).kind = 0 → (henD q.desc).remote = false →
      a % 4 = 0 → s.copyTarget d (((s.cd d).tr.slotOf q.ctx).getD 16) a kind = (s, .mem pa) →
      Runs (.henRequestIssue d t) s fun u => OnlyCd s u d ∧ (u.cd d).hen.reqCount = (s.cd d).hen.reqCount + 1 ∧
        (u.thr d t.val).pos = h.pos + n ∧ (Tab.get {} (u.thr d t.val).reqs e.val : HenReq) =
          { addr := pa, target := if pa / 2 ^ 37 = d.val then 0 else 1, kind := kind, item := h.item, len := n, off := off }) ∧
    (∀ data r i, Tab.has h.reqs e.val = true → Tab.get {} h.reqs e.val = r → r.held = false → q.unordered = false →
      (henD q.desc).kind = 2 → h.item = r.item → q.commitLow ≤ i → i < r.item → Tab.get false q.committed i = false →
      s.henTarget d q i / 64 = s.henTarget d q r.item / 64 →
      (∀ x ∈ (s.cd d).hen.threads, x.2.slot = h.slot → ∀ y ∈ x.2.reqs, y.2.held = false) →
      Runs (.henReply d t e .ok data) s fun u => OnlyCd s u d ∧ (u.job d h.slot) = q ∧
        (Tab.get {} (u.thr d t.val).reqs e.val : HenReq) = { r with held := true, status := .ok, data := data }) ∧
    (∀ data r bs, Tab.has h.reqs e.val = true → Tab.get {} h.reqs e.val = r → r.held = false → r.stuck = false → q.unordered = true →
      (henD q.desc).kind = 0 → (henD q.desc).dataOs = true → r.target < 2 → s.devReadN r.addr r.len = .ok bs → bs ≠ [] →
      (∀ x ∈ (s.cd d).hen.threads, x.2.slot = h.slot → ∀ y ∈ x.2.reqs, y.2.held = false) →
      Runs (.henReply d t e .ok data) s fun u =>
        Mem.readN (u.tile d ((s.cd d).map.phys q.ltile)).os ((henD q.desc).data + r.item * (henD q.desc).rowBytes + r.off) bs.length = bs ∧
        (∀ a, (a < (henD q.desc).data + r.item * (henD q.desc).rowBytes + r.off ∨
            (henD q.desc).data + r.item * (henD q.desc).rowBytes + r.off + bs.length ≤ a) →
          Mem.read (u.tile d ((s.cd d).map.phys q.ltile)).os a = Mem.read (s.tile d ((s.cd d).map.phys q.ltile)).os a) ∧
        Tab.has (u.thr d t.val).reqs e.val = false)

/-- R27 to R30, R350, R362: an idle unit's clock is gated by its timer, a woken unit runs after its latency, a WAKE point starts the wake and
holds the timer, a sleep point puts an idle unit to sleep and skips a busy one, counted, and the prewake starts the wake of every
unit of P0's WAKE points; no other unit's sleep changes.
(Where the rules leave a choice the clauses follow log entries 28 and 70, the model's choice.) -/
def Obligations.UnitsSleepAndWake : Prop :=
  ∀ (s : State),
    (∀ u, (s.sleepOf u).st = .running → (s.sleepOf u).waking = false → (s.sleepOf u).holdUntil ≤ s.now → s.unitWorks u = false →
      Runs (.unitIdleTimerExpiry u) s fun t =>
        t.sleepOf u = { s.sleepOf u with st := .gated } ∧ ∀ v, v ≠ u → t.sleepOf v = s.sleepOf v) ∧
    (∀ u, s.pwr.st = .run → Runs (.unitWake u) s fun t =>
      t.sleepOf u = { s.sleepOf u with st := .running, waking := false } ∧ ∀ v, v ≠ u → t.sleepOf v = s.sleepOf v) ∧
    (∀ (r : Fin 16) (i : Nat) w u, (s.schedOf r).wakes[i]? = some w → (s.lrec r).st.runs = true →
      (s.lrec r).period % max 1 (s.schedOf r).periods.length = w.desc → (s.recX r).actual + w.offset ≤ s.now → (s.recX r).starts = [] →
      (s.recX r).points.contains ((s.lrec r).period, i) = false → s.wakeUnit w.kind w.unit = some u →
      (w.action = 0 → Runs (.wakePoint r i) s fun t => t.sleepOf u = { (s.sleepOf u).wake with holdUntil := s.now + w.hold } ∧
        (t.recX r).points = ((s.lrec r).period, i) :: (s.recX r).points) ∧
      (w.action = 1 → s.unitWorks u = false → Runs (.wakePoint r i) s fun t =>
        t.sleepOf u = { s.sleepOf u with st := .pllOff, waking := false }) ∧
      (w.action ≠ 0 → s.unitWorks u = true → Runs (.wakePoint r i) s fun t => (∀ v, t.sleepOf v = s.sleepOf v) ∧
        (t.lrec r).skipped = sat 32 ((s.lrec r).skipped + 1))) ∧
    (∀ r : Fin 16, (s.lrec r).st = .armed → (s.lrec r).t0 ≤ s.now + 64000 → (s.recX r).prewoken = false →
      Runs (.launchPrewake r) s fun t => (t.recX r).prewoken = true ∧ ∀ u,
        t.sleepOf u = if (s.schedOf r).wakes.any fun w => w.action == 0 && w.desc == (s.lrec r).p0 % max 1 (s.schedOf r).periods.length &&
            s.wakeUnit w.kind w.unit == some u then (s.sleepOf u).wake else s.sleepOf u)

/-- R210 to R213, R216: a walk, which starts below what its slot's walk cache holds, caches the leaf it finds and is counted; an invalidation drops what it names, raises the slot's
generation and is done when nothing older is outstanding; PF_RESOLVE takes its record from the queue and the parked engine goes on,
and ignores an unknown FAULT_ID. -/
def Obligations.TranslationWalksAndResolves : Prop :=
  ∀ (d : CdId) (s : State),
    let tr := (s.cd d).tr
    (∀ (slot : Fin 16) (va : Word) (access : Fin 3) kind no stream e,
      (Tab.get {} tr.slots slot.val : TSlot).bound = true → va.toNat < 2 ^ 48 → tr.hit slot va.toNat = none →
      let w := tr.walkStart slot.val va.toNat (Tab.get {} tr.slots slot.val : TSlot).l1
      State.walkFrom (s.modCd d fun c => { c with tr := { c.tr with misses := c.tr.misses + 1 } }) va.toNat w.1 w.2.1 w.2.2 = .ok e →
      (access.val = 0 ∨ e.write = true) →
      Runs (.pageWalkComplete d slot va access kind no stream) s fun t => OnlyCd s t d ∧
        (t.cd d).tr.walks = tr.walks + 1 ∧ (t.cd d).tr.misses = tr.misses + 1 ∧
        (Tab.get [] (t.cd d).tr.tlb slot.val).head? = some e ∧ (t.cd d).tr.slots = tr.slots ∧
        ∀ k, k ≠ slot.val → Tab.get [] (t.cd d).tr.tlb k = Tab.get [] tr.tlb k) ∧
    (∀ v : Word, bit v.toNat 5 = true → tr.invDone = true → Runs (.tlbInvalGo d v) s fun t => OnlyCd s t d ∧
      (let k := bits v.toNat 3 0
       (t.cd d).tr.invDone = false ∧
       (Tab.get {} (t.cd d).tr.slots k : TSlot).gen = ((Tab.get {} tr.slots k : TSlot).gen + 1) % 2 ^ 16 ∧
       (bit v.toNat 4 = true → Tab.get [] (t.cd d).tr.tlb k = []) ∧
       (bit v.toNat 4 = false → ∀ e, e ∈ Tab.get [] (t.cd d).tr.tlb k ↔ e ∈ Tab.get [] tr.tlb k ∧
         ¬ (e.va < tr.invBase + tr.invLen * 2 ^ 16 ∧ tr.invBase < e.va + e.size)) ∧
       ∀ j, j ≠ k → Tab.get [] (t.cd d).tr.tlb j = Tab.get [] tr.tlb j)) ∧
    (Runs (.tlbInvalDone d) s fun t => OnlyCd s t d ∧ (t.cd d).tr = { tr with invDone := true }) ∧
    (∀ v : Word, tr.record? (bits v.toNat 15 0) = none → exec (.pfResolve d v) s = .next s) ∧
    (∀ (v : Word) f, tr.record? (bits v.toNat 15 0) = some f → f.who.kind = 0 → f.who.call = none → f.waiters = [] → tr.overflow = [] →
      bit v.toNat 16 = false → (Tab.get {} (s.cd d).dma.engines f.who.no : DmaEng).st = 2 →
      Runs (.pfResolve d v) s fun t => OnlyCd s t d ∧ (t.cd d).tr.faults = tr.faults.filter (fun g => g.id ≠ f.id) ∧
        (Tab.get {} (t.cd d).dma.engines f.who.no : DmaEng) =
          { (Tab.get {} (s.cd d).dma.engines f.who.no : DmaEng) with st := 1, faultVa := 0 })

/-- R199 to R204: a refresh slot scrubs 8 lines of its pseudo-channel and follows the hottest DRAM die; an uncorrectable line found is
poisoned and counted; a migration starts when no launch runs, switches the map entry in one step, and a third retirement takes the
die out of service.
(Where the rules leave a choice the clauses follow log entry 62, the model's choice.) -/
def Obligations.StacksScrubAndMigrate : Prop :=
  ∀ (d : CdId) (s : State),
    let h := (s.cd d).hbm
    (∀ (pc : Fin 32) temp, s.dieIn d = true → s.pwr.st ≠ .parked → h.repairing = none → h.rowQueue = [] →
      Runs (.hbmRefreshSlot d pc [] temp) s fun t => OnlyCd s t d ∧
        (let l := Tab.get 0 h.scrubLine pc.val + 8
         Tab.get 0 (t.cd d).hbm.scrubLine pc.val = (if l < 50331648 then l else 0)) ∧
        (∀ k, k ≠ pc.val → Tab.get 0 (t.cd d).hbm.scrubLine k = Tab.get 0 h.scrubLine k) ∧
        (t.cd d).hbm.temp = temp ∧
        (t.cd d).hbm.fastRef = if 1360 < temp then true else if temp < 1280 then false else h.fastRef) ∧
    (∀ (pc : Fin 32) temp (f : ScrubFind), s.dieIn d = true → s.pwr.st ≠ .parked → h.repairing = none → h.rowQueue = [] →
      f.uncorrectable = true → f.line / 2 ^ 37 = d.val → pcOf (f.line % 2 ^ 37) = pc.val →
      Tab.get 0 h.scrubLine pc.val ≤ lineIdx (f.line % 2 ^ 37) → lineIdx (f.line % 2 ^ 37) < Tab.get 0 h.scrubLine pc.val + 8 →
      Tab.get false s.poison (lineOf f.line) = false →
      Runs (.hbmRefreshSlot d pc [f] temp) s fun t => Tab.get false t.poison (lineOf f.line) = true ∧
        (t.cd d).hbm.ue = h.ue + 1 ∧ t.hbm = s.hbm) ∧
    (∀ v : Word, bit v.toNat 5 = true → s.running = false → h.migrating = false →
      (h.sparesUsed < 2 → Runs (.hbmMigrateStart d v) s fun t => OnlyCd s t d ∧
        (t.cd d).hbm = { h with logicalSel := bits v.toNat 4 0, migrating := true, migDone := false, migCode := .ok }) ∧
      (2 ≤ h.sparesUsed → Runs (.hbmMigrateStart d v) s fun t =>
        bit t.svc.cdIn d.val = false ∧ (t.cd d).hbm.ready = false)) ∧
    (h.migrating = true → Runs (.hbmMigrationComplete d) s fun t =>
      Tab.get h.logicalSel (t.cd d).hbm.pcMap h.logicalSel = 32 + h.sparesUsed ∧ (t.cd d).hbm.sparesUsed = h.sparesUsed + 1 ∧
      (t.cd d).hbm.migrating = false ∧ (t.cd d).hbm.migDone = true ∧ t.hbm = s.hbm)

/-- R185, R206, R334, R335: a request of a board peer inside an export is served and answered to the requesting die over its link, one outside
every export with E_PROT and no effect; a reply goes to the request entry its tag names; a remote window reads pinned memory, and a
write through it is denied.
(Where the rules leave a choice the clauses follow log entries 21 and 62, the model's choice.) -/
def Obligations.PeersAreServed : Prop :=
  ∀ (d : CdId) (l : LinkId) (k : Packet) (s : State),
    let q := peerReq k.payload
    let o := q.p % 2 ^ 37
    let inside (write : Bool) := (s.cd d).hbm.exported (s.link l).peerMember o q.len write = true
    s.dieIn d = true → k.poison = false → crc32 k.payload = k.crc →
    ((∀ e data, s.peerAnswer d l k q e data = { s with
        out := .send d (s.packet { net := 1, cls := k.hdr.cls, kind := 0x23, ctx := k.hdr.ctx, route := route2 l (36 + q.who) }
          (leBytes 4 q.tag ++ leBytes 2 e.code ++ leBytes 2 0 ++ (if e = Err.ok then data else []))) :: s.out }) ∧
    (0 < q.len → q.len ≤ 64 → q.p % 64 + q.len ≤ 64 → q.aop = 0 → q.p / 2 ^ 37 = d.val → o + q.len ≤ 0x1800000000 →
      (k.hdr.kind = 0x20 → inside false → ∀ bs, s.devRead q.p q.len = .ok bs →
        exec (.peerRead d l k false) s = .next (s.peerAnswer d l k q .ok bs)) ∧
      (k.hdr.kind = 0x21 → inside true → ∀ t, s.devWrite q.p (padTo q.len q.data) = .ok t →
        exec (.peerWrite d l k false) s = .next (t.peerAnswer d l k q .ok [])) ∧
      (k.hdr.kind = 0x20 → (s.cd d).hbm.exported (s.link l).peerMember o q.len false = false →
        exec (.peerRead d l k false) s = .next (s.peerAnswer d l k q .prot [])) ∧
      (k.hdr.kind = 0x21 → (s.cd d).hbm.exported (s.link l).peerMember o q.len true = false →
        exec (.peerWrite d l k false) s = .next (s.peerAnswer d l k q .prot []))) ∧
    (k.hdr.kind = 0x22 → q.aop ≤ 0xA → q.len = aopWidth q.aop → q.p % 64 + q.len ≤ 64 → q.p % q.len = 0 → q.p / 2 ^ 37 = d.val →
      o + q.len ≤ 0x1800000000 → inside true → ∀ t old fl,
      s.devAtomic (s.cx k.hdr.ctx).ieee q.p q.aop (leNat (padTo 16 q.data)) = .ok (t, old, fl) →
      exec (.peerAtomic d l k false) s = .next (t.peerAnswer d l k q .ok (leBytes q.len old))) ∧
    (k.hdr.kind = 0x23 → fld k.payload 0 4 < 8192 →
      Tab.has (s.thr d (fld k.payload 0 4 / 8)).reqs (fld k.payload 0 4 % 8) = true →
      (Tab.get {} (s.thr d (fld k.payload 0 4 / 8)).reqs (fld k.payload 0 4 % 8) : HenReq).target = 2 →
      exec (.peerReply d k) s = .next (s.henReply d (fld k.payload 0 4 / 8) (fld k.payload 0 4 % 8) (Err.ofCode (fld k.payload 4 2))
        (k.payload.drop 8))) ∧
    (exec (.remoteWindowRequest d l k true false) s = .next (s.peerAnswer d l k q .denied [])) ∧
    (0 < q.len → q.len ≤ 64 → q.p % 64 + q.len ≤ 64 → ∀ slot t sa a bs, (s.cd d).tr.slotOf k.hdr.ctx = some slot →
      s.translate d slot q.p 0 true = (t, .ok sa) → t.target sa = .dev a → t.devRead a q.len = .ok bs →
      exec (.remoteWindowRequest d l k false false) s = .next (t.peerAnswer d l k q .ok bs)))

/-- R178 (and R179): an atomic of the controller reads the old value, writes the new one and changes no other byte. The new value is, by AOP: the
sum modulo 2^32 or 2^64, the FP32 sum of FADD, the unsigned minimum or maximum, the FP32 minimum or maximum of R49, the bitwise or or and, the
operand, and for CAS_64 the operand's second 8 bytes if the target equals its first 8. Integer operations raise no flag. -/
def Obligations.AtomicsReadModifyWrite : Prop :=
  ∀ (s : State) (ieee : Bool) (a op x : Nat), a % 64 + aopWidth op ≤ 64 → op < 11 → s.dieIn (a / 2 ^ 37) = true →
    Tab.get false s.poison (lineOf a) = false → x < 2 ^ 128 →
    let old := Mem.readLe s.hbm a (aopWidth op)
    let lo := x % 2 ^ 64
    ∃ t fl, s.devAtomic ieee a op x = .ok (t, old, fl) ∧
      (∀ b, b < a ∨ a + aopWidth op ≤ b → Mem.read t.hbm b = Mem.read s.hbm b) ∧
      aopWidth op = (if op ∈ [0, 2, 3, 4, 5, 6] then 4 else 8) ∧ (op ≠ 2 → fl = 0) ∧ (op = 2 → fl = (fadd ieee old (x % 2 ^ 32)).2) ∧
      Mem.readLe t.hbm a (aopWidth op) = [(old + x % 2 ^ 32) % 2 ^ 32, (old + lo) % 2 ^ 64, (fadd ieee old (x % 2 ^ 32)).1 % 2 ^ 32,
        min old (x % 2 ^ 32), max old (x % 2 ^ 32), fminBits old (x % 2 ^ 32) % 2 ^ 32, fmaxBits old (x % 2 ^ 32) % 2 ^ 32, old ||| lo,
        old &&& lo, lo, if old = lo then x / 2 ^ 64 else old].getD op 0

/-- R223 to R227: BP_APPLY brings the region, counts and MIN values into force when nothing is allocated; firmware's allocation takes the last
freed or the lowest buffer when its quota grants one, and its free gives it back; a write of BP_FREEp resets the low-water mark. -/
def Obligations.PoolsAllocateAndFree : Prop :=
  ∀ (d : CdId) (s : State),
    let b := (s.cd d).bp
    (∀ v : Word, bit v.toNat 0 = true → (∀ q ∈ b.quota, q.2.inUse = 0) →
      (∀ p, p < 6 → (List.range 16).foldl (fun a r => a + (b.quotaOf r p).min) 0 ≤ (b.pool p).count) →
      b.region * 2 ^ 21 + b.regionBytes ≤ 0x1800000000 →
      Runs (.bpApply d v) s fun t => OnlyCd s t d ∧ (t.cd d).bp.configured = true ∧ (t.cd d).bp.appliedRegion = b.region ∧
        (∀ p, p < 6 → (t.cd d).bp.pool p =
          { b.pool p with applied := (b.pool p).count, fresh := 0, freed := [], low := (b.pool p).count }) ∧
        ∀ r p, 0 < (b.quotaOf r p).min → ((t.cd d).bp.quotaOf r p).minIn = (b.quotaOf r p).min) ∧
    (∀ v : Word, bit v.toNat 0 = true → (∃ q ∈ b.quota, q.2.inUse ≠ 0) → exec (.bpApply d v) s = .next s) ∧
    (∀ v : Word, bit v.toNat 3 = false → v.toNat % 8 < 6 →
      (b.grant 11 (v.toNat % 8) = .ok → Runs (.bpFwAllocate d v) s fun t => OnlyCd s t d ∧
        (t.cd d).bp.resValid = true ∧ (t.cd d).bp.resCode = .ok ∧
        (t.cd d).bp.resAddr = b.base (v.toNat % 8) + (b.pool (v.toNat % 8)).freed.headD (b.pool (v.toNat % 8)).fresh * poolSize (v.toNat % 8) ∧
        (t.cd d).bp.allocs = b.allocs + 1 ∧
        ((t.cd d).bp.quotaOf 11 (v.toNat % 8)).inUse = (b.quotaOf 11 (v.toNat % 8)).inUse + 1) ∧
      (b.grant 11 (v.toNat % 8) ≠ .ok → Runs (.bpFwAllocate d v) s fun t => OnlyCd s t d ∧
        (t.cd d).bp.resCode = b.grant 11 (v.toNat % 8) ∧ (t.cd d).bp.refused = b.refused + 1 ∧ (t.cd d).bp.pools = b.pools)) ∧
    (∀ v : Word, bit v.toNat 3 = true →
      let a := bits v.toNat 44 8 * 256
      ∀ p, b.poolAt a = some p → (a - b.base p) % poolSize p = 0 → Tab.get 16 b.owner a = 11 →
      Runs (.bpFwFree d v) s fun t => OnlyCd s t d ∧ (t.cd d).bp.resCode = .ok ∧ (t.cd d).bp.frees = b.frees + 1 ∧
        ((t.cd d).bp.pool p).freed = (a - b.base p) / poolSize p :: (b.pool p).freed ∧ Tab.get 16 (t.cd d).bp.owner a = 16) ∧
    (∀ p : Fin 6, Runs (.bpFreeWrite d p) s fun t => OnlyCd s t d ∧
      (t.cd d).bp.pool p = { b.pool p with low := (b.pool p).free })

/-- R113 to R115: ARR_COLCFG.APPLY rebuilds the map of an idle array from its bad columns, and the die's width is that of its narrowest
tile in use; with a plane in use it is refused and stores nothing. -/
def Obligations.ColumnMapsAreRebuiltIdle : Prop :=
  ∀ (d : CdId) (p : PTile) (v : Word) (s : State), bit v.toNat 4 = true →
    let a := (s.tile d p).arr
    (a.plane0.st = .empty → a.plane1.st = .empty → a.passes = [] → s.running = false → Runs (.arrColcfgApply d p v) s fun t =>
      (t.tile d p).arr.badC = v.toNat % 16 ∧
      (t.tile d p).arr.map = ({ a with badC := v.toNat % 16 } : ArrayU).remap.map ∧
      (t.tile d p).arr.width = ({ a with badC := v.toNat % 16 } : ArrayU).remap.width ∧ (t.cd d).width = (t.cd d).reWidth.width ∧
      (t.tile d p).mule = (s.tile d p).mule ∧ (t.tile d p).os = (s.tile d p).os) ∧
    (a.plane0.st ≠ .empty → exec (.arrColcfgApply d p v) s = .next s)

/-- R230, R242, R248: the partition changes only while nothing is held, codes of the alpha register above 11 store 11, the share only with
no launch, and a snapshot holds the tables of the instant of TAKE and is shown when it completes; a refused write changes nothing. -/
def Obligations.HubRegistersTakeTheirSettings : Prop :=
  ∀ (s : State) (v : Word),
    (bits v.toNat 21 11 ≤ 1024 → 128 ≤ bits v.toNat 10 0 → bits v.toNat 10 0 + bits v.toNat 21 11 + 128 ≤ 2048 → s.hub.pkts = [] →
      (∀ q ∈ s.hub.queues, q.2.entries = []) → (∀ b ∈ s.ox.binds, b.2.st ≠ .open ∧ b.2.st ≠ .running) →
      exec (.hubPartitionWrite v) s =
        .next { s with hub := { s.hub with reqRows := bits v.toNat 10 0, redRows := bits v.toNat 21 11 } }) ∧
    (bits v.toNat 10 0 < 128 ∨ 1024 < bits v.toNat 21 11 ∨ s.hub.pkts ≠ [] → exec (.hubPartitionWrite v) s = .next s) ∧
    (Runs (.hubDtAlphaWrite v) s fun t => t = { s with hub := { s.hub with alpha := t.hub.alpha } } ∧ t.hub.alpha < 2 ^ 16 ∧
      ∀ i, i < 4 → bits t.hub.alpha (4 * i + 3) (4 * i) = min 11 (bits v.toNat (4 * i + 3) (4 * i))) ∧
    (v.toNat % 4 ≠ 3 → s.anyLaunch = false →
      exec (.hubEgressShareWrite v) s = .next { s with hub := { s.hub with share := v.toNat % 4 } }) ∧
    (s.anyLaunch = true ∨ v.toNat % 4 = 3 → exec (.hubEgressShareWrite v) s = .next s) ∧
    (s.hub.snapBusy = false → Runs .hubSnapTake s fun t => t = { s with hub := t.hub } ∧ t.hub.snapBusy = true ∧ t.hub.snapReady = false ∧
      t.hub.snapTime = s.now ∧ t.hub.snapTaken = s.hub.queues ∧ t.hub.queues = s.hub.queues) ∧
    (s.hub.snapBusy = true → Runs .hubSnapComplete s fun t => t = { s with hub := t.hub } ∧ t.hub.snapBusy = false ∧
      t.hub.snapReady = true ∧ t.hub.snapQueues = s.hub.snapTaken ∧ t.hub.snapTime = s.hub.snapTime)

/-- R246, R247, R277: a migration onto the next spare starts with one left and the bank present, HUB_BANK_MAP changes in one step at its end,
and with no spare left the bank is removed, its lines withdrawn from the region, the event logged with E_NOMEM.
(Where the rules leave a choice the clauses follow log entry 63, the model's choice.) -/
def Obligations.HubBanksMigrateAndAreRemoved : Prop :=
  ∀ (s : State),
    let m := s.hubm
    (∀ v : Word, bit v.toNat 10 = true → m.migrating = none → m.sparesUsed < 32 → m.gone (bits v.toNat 9 0) = false →
      exec (.hubBankMigrateStart v) s = .next { s with hubm := { m with
        logicalSel := bits v.toNat 9 0, migrating := some (bits v.toNat 9 0, 1024 + m.sparesUsed), done := false, code := .ok } }) ∧
    (∀ v : Word, bit v.toNat 10 = true → m.migrating = none → 32 ≤ m.sparesUsed → exec (.hubBankMigrateStart v) s = .next s) ∧
    (∀ b p, m.migrating = some (b, p) → Runs .hubBankMigrationComplete s fun t => t.hubm.phys b = p ∧
      (∀ k, k ≠ b → t.hubm.phys k = m.phys k) ∧ t.hubm.sparesUsed = m.sparesUsed + 1 ∧ t.hubm.migrating = none ∧ t.hubm.done = true ∧
      t.hub = s.hub) ∧
    (∀ b : Fin 1024, 32 ≤ m.sparesUsed → m.migrating = none → m.gone b.val = false → Runs (.hubBankRemove b) s fun t =>
      t.hubm.gone b.val = true ∧ t.hubm.removed = m.removed + 1 ∧ t.ox.linesRemoved = s.ox.linesRemoved + s.hub.redRows)

/-- R235 to R237, R241 to R244, R532: a good packet whose one output has room is stored once with one reference and joins the output's queue
of its network and class, its cells counted; a bad header, a poisoned packet and a packet without a route are counted and dropped.
(Where the rules leave a choice the clauses follow log entry 63, the model's choice.) -/
def Obligations.PacketsEnterTheHub : Prop :=
  ∀ (src : Fin 54) (k : Packet) (stripe : Fin 32) (s : State), s.hub.up = true →
    (k.poison = true → exec (.hubPacketIngress src k stripe) s = .next { s with hub := { s.hub with poison := sat 32 (s.hub.poison + 1) } }) ∧
    (k.poison = false → k.hdr.good = false →
      exec (.hubPacketIngress src k stripe) s = .next { s with hub := { s.hub with hdrErr := sat 32 (s.hub.hdrErr + 1) } }) ∧
    (k.poison = false → k.hdr.good = true → k.hdr.cls ≠ 3 → s.resolve src k = .noRoute → Runs (.hubPacketIngress src k stripe) s fun t =>
      t.hub = { s.hub with routeErr := sat 32 (s.hub.routeErr + 1) }) ∧
    (∀ o, k.poison = false → k.hdr.good = true → k.hdr.cls ≠ 3 → s.resolve src k = .out k [o] false →
      ¬ (o < 36 ∧ k.hdr.cls = 1 ∧ 36 ≤ src.val ∧ src.val < 53) → s.hub.outIn o = true → s.memberErr k o = none →
      s.hub.pkts.length < 262144 → s.hub.entriesUsed < 524288 →
      (k.hdr.cls ≠ 0 → s.hub.unconsumed k.hdr.net + k.cells ≤ s.netFree k.hdr.net) →
      Runs (.hubPacketIngress src k stripe) s fun t =>
        (let q := queueNo o k.hdr.net k.hdr.cls
         (t.hub.queue q).entries = (s.hub.queue q).entries ++ [{ desc := s.hub.newDesc }] ∧
         (t.hub.queue q).len = (s.hub.queue q).len + k.cells ∧ (t.hub.queue q).pkts = (s.hub.queue q).pkts + 1 ∧
         (t.hub.queue q).dropped = (s.hub.queue q).dropped ∧ ∀ j, j ≠ q → t.hub.queue j = s.hub.queue j) ∧
        (Tab.get {} t.hub.pkts s.hub.newDesc : HubPkt).pkt = k ∧ (Tab.get {} t.hub.pkts s.hub.newDesc : HubPkt).refs = 1 ∧
        t.hub.pktsIn = s.hub.pktsIn + 1 ∧ t.rt.counter src k.hdr.epoch = s.rt.counter src k.hdr.epoch + 1)

/-- R238, R239, R315, R389, R392: an egress cycle reads the next cell of the packet its order selects: to a die the packet leaves with its last
cell; to a link each cell takes a credit of its pool; with nothing to send only the cycle counts. An entry shaper lets its first
packet pass when its tokens are not negative, and takes its cells from them.
(Where the rules leave a choice the clauses follow log entry 63, the model's choice.) -/
def Obligations.PacketsLeaveTheHub : Prop :=
  ∀ (s : State),
    (∀ o : Fin 53, s.hub.outIn o.val = true →
    let c := Tab.get 0 s.hub.cycle o.val
    let order := s.hub.order o.val (decide (c % s.hub.shareD = s.hub.shareD - 1))
    (List.find? (fun q => (s.hub.queue q).entries ≠ []) order = none → exec (.hubEgressCell o 0) s =
      .next { s with hub := { s.hub with cycle := Tab.set 0 s.hub.cycle o.val (c + 1) } }) ∧
    (∀ q e rest, List.find? (fun q => (s.hub.queue q).entries ≠ []) order = some q → (s.hub.queue q).entries = e :: rest →
      let k : HubPkt := Tab.get {} s.hub.pkts e.desc
      let pool := poolOf k.pkt.hdr.net k.pkt.hdr.cls
      (36 ≤ o.val → k.cells.length ≤ e.sent + 1 → Runs (.hubEgressCell o 0) s fun t =>
        t.out = .packet o.val { k.pkt with poison := false } :: s.out ∧ (t.hub.queue q).entries = rest ∧
        (t.hub.queue q).sent = (s.hub.queue q).sent + 1 ∧ t.hub.pktsOut = s.hub.pktsOut + 1) ∧
      (e.sent + 1 < k.cells.length → (o.val < 36 → Tab.get 0 (s.link o.val).credits pool ≠ 0) → Runs (.hubEgressCell o 0) s fun t =>
        t.out = s.out ∧ (t.hub.queue q).entries = { e with sent := e.sent + 1 } :: rest ∧ t.hub.pkts = s.hub.pkts ∧
        (o.val < 36 → Tab.get 0 (t.link o.val).credits pool = Tab.get 0 (s.link o.val).credits pool - 1)) ∧
      (o.val < 36 → Tab.get 0 (s.link o.val).credits pool = 0 → exec (.hubEgressCell o 0) s =
        .next { s with hub := { s.hub with cycle := Tab.set 0 s.hub.cycle o.val (c + 1) } }))) ∧
    (∀ (port : Fin 17) (l : LinkId) k rest, (s.xp.shaper port l).waiting = k :: rest →
      let e := s.xp.shaper port l
      0 ≤ shaperNow e.tokens e.tLast s.xp.entryRate 4224 s.now →
      Runs (.entryShaperRelease port l) s fun t => t.xp.shaper port l =
        { tokens := shaperNow e.tokens e.tLast s.xp.entryRate 4224 s.now - ((128 * k.cells * 65536 : Nat) : Int), tLast := s.now,
          waiting := rest })

/-- R252, R253, R257, R258, R260: a packet of elements for a live collective whose group is awake joins its block and keeps its reference; one
for a sleeping group waits and wakes the group; an OX_OPEN is handed on; one for no collective is counted and dropped.
(Where the rules leave a choice the clauses follow log entry 65, the model's choice.) -/
def Obligations.ContributionsReachTheOx : Prop :=
  ∀ (net : Fin 2) (cls : Fin 3) (s : State) (e : QEntry) (rest : List QEntry),
    let q := queueNo 53 net.val cls.val
    let h : HubPkt := Tab.get {} s.hub.pkts e.desc
    let k := h.pkt
    (s.hub.queue q).entries = e :: rest → s.hub.outIn 53 = true →
    (k.hdr.kind = 0x44 → Runs (.oxDispatch net cls) s fun t => t.out = .packet 53 k :: s.out ∧ (t.hub.queue q).entries = rest) ∧
    (k.hdr.kind ≠ 0x44 → k.hdr.kind ≠ 0x45 → s.collLive k.hdr.collId = none → Runs (.oxDispatch net cls) s fun t =>
      t.ox = { s.ox with unbound := sat 32 (s.ox.unbound + 1) } ∧ (t.hub.queue q).entries = rest) ∧
    (∀ b u (g : Fin 16), k.hdr.kind ≠ 0x44 → k.hdr.kind ≠ 0x45 → s.collLive k.hdr.collId = some b → s.oxPacketUnit b k = some u →
      g.val = u / 17 % 16 → (s.sleepOf (.ox g)).st ≠ .running → Runs (.oxDispatch net cls) s fun t =>
        t = { s with ox := t.ox } ∧ t.sleepOf (.ox g) = { s.sleepOf (.ox g) with waking := true }) ∧
    (∀ b r, k.hdr.kind = 0x40 → s.collLive k.hdr.collId = some b → (s.bind b).st = .running →
      (∀ u (g : Fin 16), s.oxPacketUnit b k = some u → g.val = u / 17 % 16 → (s.sleepOf (.ox g)).st = .running) →
      crc32 k.payload = k.crc → s.collPeriodErr b k = none → ((s.bind b).sched = true ∨ s.oxNoRoom b k = false) →
      oxShape (s.oxProg b) 0x40 k.payload = true → (s.bindX b).run.contribute (s.oxProg b) e.desc 0x40 k.payload = some r →
      Runs (.oxDispatch net cls) s fun t => (t.bindX b).run = r ∧ (t.hub.queue q).entries = rest ∧ t.out = s.out ∧
        (Tab.get {} t.hub.pkts e.desc : HubPkt).refs = h.refs ∧ (t.bind b).st = .running)

/-- R60: an INT32 contribution is added to A shifted left by 149 bits, a finite FP32, BF16 or FP16 one as the integer multiple of 2^-149 that it
is; a NaN or an infinity sets its flag and leaves A; and the accumulator is the same for every order in which contributions arrive. -/
def Obligations.ReductionsAreOrderIndependent : Prop :=
  ∀ (x : Acc),
    (∀ v, let y := x.elem 1 1 v
      y.a = x.a + sx 32 v * 2 ^ 149 ∧ y.nan = x.nan ∧ y.pinf = x.pinf ∧ y.ninf = x.ninf ∧ y.count = x.count + 1) ∧
    (∀ fmt w m sh, (fmt, w, m, sh) ∈ [(0, 32, 23, 0), (2, 16, 7, 16), (3, 16, 10, 125)] → ∀ v, v < 2 ^ w →
      let neg := bit v (w - 1)
      let ones := 2 ^ (w - 1 - m) - 1
      let ex := v / 2 ^ m % 2 ^ (w - 1 - m)
      let fr := v % 2 ^ m
      let y := x.elem 1 fmt v
      let n : Int := ((if ex = 0 then fr else (2 ^ m + fr) * 2 ^ (ex - 1)) * 2 ^ sh : Nat)
      y.count = x.count + 1 ∧
      (ex ≠ ones → y.a = (if neg then x.a - n else x.a + n) ∧ y.nan = x.nan ∧ y.pinf = x.pinf ∧ y.ninf = x.ninf) ∧
      (ex = ones → y.a = x.a ∧ y.nan = (x.nan || decide (fr ≠ 0)) ∧ y.pinf = (x.pinf || (decide (fr = 0) && !neg)) ∧
        y.ninf = (x.ninf || (decide (fr = 0) && neg)))) ∧
    ∀ (fmt : Nat) (l l' : List Nat), l.Perm l' → l.foldl (Acc.elem 1 fmt) x = l'.foldl (Acc.elem 1 fmt) x

/-- R265 to R268, R276, R300: a due step takes the first GROUPN contributions of its block; at its end each element has been added to its
accumulator and the step is counted; ROUND and CARRY write each finished block once.
(Where the rules leave a choice the clauses follow log entry 65, the model's choice.) -/
def Obligations.ReductionsStepAndFinish : Prop :=
  ∀ (b : Fin 1024) (s : State),
    let p := s.oxProg b
    let r := (s.bindX b).run
    (∀ off (k : Block), Tab.get {} r.blocks off = k → (s.bind b).st = .running → k.due p = true → (k.stored = false) →
      (k.lines = true ∨ (s.bind b).used + (blockLines off k).length ≤ (s.bind b).lines) →
      Runs (.oxStepFire b off none none) s fun t => (Tab.get {} (t.bindX b).run.blocks off : Block) =
          { k with held := k.held.drop p.groupN, firing := some (k.held.take p.groupN), lines := true } ∧
        t.ox.adds = s.ox.adds + (k.held.take p.groupN).length * k.nrec ∧ (t.bindX b).run.accs = r.accs) ∧
    (∀ off (k : Block) c, Tab.get {} r.blocks off = k → k.firing = some [c] → c.carry = false → p.red? = some 1 → (s.bind b).place ≠ 2 →
      Runs (.oxStepComplete b off) s fun t =>
        (∀ i, i < k.nrec → (Tab.get {} (t.bindX b).run.accs (off + i) : Acc) =
          (Tab.get {} r.accs (off + i) : Acc).elem 1 p.fmt (fld c.data (oxSize p.fmt * i) (oxSize p.fmt))) ∧
        (∀ j, j < off ∨ off + k.nrec ≤ j → (Tab.get {} (t.bindX b).run.accs j : Acc) = Tab.get {} r.accs j) ∧
        (Tab.get {} (t.bindX b).run.blocks off : Block).firing = none ∧
        (Tab.get {} (t.bindX b).run.blocks off : Block).added = k.added + c.units ∧ t.ox.steps = s.ox.steps + 1 ∧
        (t.bind b).steps = (s.bind b).steps + 1) ∧
    (∀ (i : Fin 24) off k red, (s.bind b).st = .running → (s.bind b).gate = true → i.val < p.nins → p.red? = some red →
      r.finished p = [(off, k)] →
      ((p.ins i).op = 8 → Runs (.round b i) s fun t => (Tab.get {} (t.bindX b).run.blocks off : Block) = { k with written := true } ∧
        (t.bindX b).run.accs = r.accs ∧ (t.bind b).finished = (s.bind b).finished + cdiv k.nrec 16 ∧
        (t.bind b).sent = (s.bind b).sent + k.nrec) ∧
      ((p.ins i).op = 9 → Runs (.carry b i) s fun t => (Tab.get {} (t.bindX b).run.blocks off : Block) = { k with written := true } ∧
        (t.bindX b).run.accs = r.accs ∧ (t.bind b).finished = (s.bind b).finished + cdiv k.nrec 16 ∧
        (t.bind b).sent = (s.bind b).sent + k.nrec))

/-- R262, R263, R270 to R275: each record instruction of a running program takes what its sources offer: the runs it read are consumed, what it
gives goes to its stream T, or fills the table of LOAD, or is sent on its output, and it is marked complete with its last record.
(Where the rules leave a choice the clauses follow log entries 24, 25 and 65, the model's choice.) -/
def Obligations.RecordInstructionsTakeTheirSources : Prop :=
  ∀ (b : Fin 1024) (i : Fin 24) (s : State) (c : Instr) (op : Nat) (f : OxP → OxRun → OxI → InsOut),
    (c = .merge b i none ∧ op = 0x10 ∧ f = (fun p r k => insMerge p r i k)) ∨ (c = .sort b i none ∧ op = 0x11 ∧ f = insSort) ∨
      (c = .topk b i none ∧ op = 0x12 ∧ f = insTopk) ∨ (c = .filter b i none ∧ op = 0x18 ∧ f = insFilter) ∨
      (c = .isect b i none ∧ op = 0x20 ∧ f = (fun p r k => insSet p r i k)) ∨
      (c = .diff b i none ∧ op = 0x21 ∧ f = (fun p r k => insSet p r i k)) ∨
      (c = .union b i none ∧ op = 0x22 ∧ f = (fun p r k => insSet p r i k)) ∨ (c = .load b i ∧ op = 0x28 ∧ f = insLoad) ∨
      (c = .gather b i ∧ op = 0x29 ∧ f = insGather) ∨ (c = .emit b i ∧ op = 0x30 ∧ f = insEmit) →
    let p := s.oxProg b
    let k := p.ins i
    let r := (s.bindX b).run
    let x := f p r k
    (s.bind b).st = .running → i.val < p.nins → k.op = op → Tab.get false r.insDone i.val = false → x.err = none →
    (op = 0x28 ∨ k.dst < 12 ∨ (s.bind b).gate = true) →
    Runs c s fun t => (t.bindX b).run.inputs = x.r.inputs ∧ (t.bindX b).run.table = x.r.table ∧
      (x.done = true → Tab.get false (t.bindX b).run.insDone i.val = true) ∧
      (op ≠ 0x28 → k.dst < 12 → (Tab.get {} (t.bindX b).run.ts (k.dst - 8) : TStream) =
        { runs := x.outs.foldl addRun (Tab.get {} x.r.ts (k.dst - 8) : TStream).runs,
          whole := (Tab.get {} x.r.ts (k.dst - 8) : TStream).whole || x.whole }) ∧
      (op ≠ 0x28 → 12 ≤ k.dst → x.done = true → Tab.get false r.opened (k.dst - 12) = true → Tab.get [] x.r.outBuf (k.dst - 12) = [] →
        let recs := x.outs.flatMap (·.recs)
        x.r.opened = r.opened → recs ≠ [] → recs.length ≤ perPacket ((recs.headD []).length / 4) →
        Sent s t (.send 16 (s.packet (s.collHdr b (p.out (k.dst - 12)).netcls (p.out (k.dst - 12)).route (p.out (k.dst - 12)).group 0x42)
          (oxPrefix (p.out (k.dst - 12)).run 0 1 (Tab.get 0 x.r.nextOff (k.dst - 12)) recs.length 1 ++ recs.flatten))))

/-- R271, R272: SORT gives a permutation of its source's records in order of their keys; TOPK the first IMM of them; FILTER exactly those its
predicate keeps, in their order. -/
def Obligations.SortAndFilterGiveTheirRecords : Prop :=
  ∀ (p : OxP) (r : OxRun) (c : OxI),
    let v := r.view p c.a
    let all := v.runs.flatMap (·.recs)
    let le (a b : List Byte) : Prop := keyLe (recKey c.kfmt c.desc a) (recKey c.kfmt c.desc b) = true
    (v.closed = true → v.count ≤ 65536 → ∃ l, (insSort p r c).outs = [{ no := 0, recs := l, closed := true }] ∧ l.Perm all ∧ l.Pairwise le ∧
      (insTopk p r c).outs = [{ no := 0, recs := l.take c.imm, closed := true }]) ∧
    (65536 < v.count → (insSort p r c).err = some .nomem) ∧
    ((insFilter p r c).outs.map (·.recs) = (v.toRead c.dst).map fun e => e.recs.filter (filterKeep p c))

/-- R296 to R308: a matched OX_OPEN counts, one whose hash differs aborts the binding with E_COLL_MISMATCH; a received OX_ABORT gives its
code and origin; an abort is sent once; RUNNING beyond TIMEOUT_US aborts with E_COLL_TIMEOUT; a freed id cools and then may be
bound again.
(Where the rules leave a choice the clauses follow log entries 64 and 66, the model's choice.) -/
def Obligations.CollectivesOpenAbortAndEnd : Prop :=
  ∀ (s : State) (b : Nat),
    let x := s.bind b
    (∀ k : Packet, k.hdr.kind = 0x44 → s.collLive k.hdr.collId = some b → k.poison = false → crc32 k.payload = k.crc →
      (x.st = .open ∨ x.st = .running) →
      (fld k.payload 16 8 = x.dhash → s.collPeriodErr b k = none → x.matchedIn < x.opensIn → Runs (.oxOpenReceive k false) s fun t =>
        (t.bind b).matchedIn = x.matchedIn + 1 ∧ (t.bind b).matchedOut = x.matchedOut ∧ (t.bindX b).run = (s.bindX b).run) ∧
      (fld k.payload 16 8 = x.dhash → x.matchedOut < x.opensOut → Runs (.oxOpenReceive k true) s fun t =>
        (t.bind b).matchedOut = x.matchedOut + 1 ∧ (t.bind b).matchedIn = x.matchedIn) ∧
      (fld k.payload 16 8 ≠ x.dhash → Runs (.oxOpenReceive k true) s fun t =>
        (t.bind b).st = .aborted ∧ (t.bind b).code = .collMismatch ∧ (t.bindX b).abortDue = true)) ∧
    (∀ k : Packet, k.hdr.kind = 0x45 → s.collHeld k.hdr.collId = some b → k.poison = false → crc32 k.payload = k.crc →
      (x.st = .open ∨ x.st = .running ∨ x.st = .done) → Runs (.oxAbortReceive k) s fun t => (t.bind b).st = .aborted ∧
        (t.bind b).code = Err.ofCode (fld k.payload 28 2) ∧ (t.bind b).origin = fld k.payload 24 4 ∧
        (t.bindX b).abortDue = true) ∧
    (∀ n : Fin 1024, n.val = b → (s.bindX b).abortDue = true → exec (.oxAbortSend n) s =
      .next ((s.modBindX b fun v => { v with abortDue := false }).enterHub 53
        (s.packet (s.collHdr b 5 (2 ^ 96 - 1) (collL (s.bindX b).local_).abortGroup 0x45)
          (oxPrefix x.myIndex 0 0 0 0 1 ++ leBytes 8 x.dhash ++ leBytes 4 x.origin ++ leBytes 2 x.code.code ++ leBytes 2 0)) 0)) ∧
    (∀ n : Fin 1024, n.val = b → x.st = .running → x.tRun + x.timeoutUs * 1000 ≤ s.now → Runs (.collTimeout n) s fun t =>
      (t.bind b).st = .aborted ∧ (t.bind b).code = .collTimeout ∧ (t.bind b).origin = s.node ∧ (t.bind b).tEnd = s.now) ∧
    (∀ n : Fin 1024, n.val = b → x.st = .free → (s.bindX b).cooling = true → x.tEnd + s.ox.cool * 1000 ≤ s.now →
      exec (.collCoolExpiry n) s = .next (s.modBindX b fun v => { v with cooling := false }))

/-- R296 to R298: the local fetch sends its OX_OPEN first and then its units in order, as many to a packet as fit, read through the owner's
slot; a packet of results is written at its address in the destination and counted.
(Where the rules leave a choice the clauses follow log entries 65 and 66, the model's choice.) -/
def Obligations.CollectivesFetchAndDeliver : Prop :=
  ∀ (s : State) (b : Fin 1024),
    let x := s.bind b
    let g := collG (s.bindX b).global
    let y := collL (s.bindX b).local_
    let f := (s.bindX b).fetch
    (f.active = true → (x.st = .open ∨ x.st = .running) → f.openSent = false → Runs (.collFetchPacket b false) s fun t =>
      t.out = .send y.owner (s.packet (s.collHdr b y.inNetcls y.inRoute y.inGroup 0x44)
        (oxPrefix y.me y.inStream 0 0 0 1 ++ leBytes 8 x.dhash ++ leBytes 4 s.node ++ leBytes 4 0)) :: s.out ∧
      (t.bindX b).fetch = { f with openSent := true } ∧ t = { s with out := t.out, ox := t.ox }) ∧
    (f.active = true → (x.st = .open ∨ x.st = .running) → f.openSent = true → g.type ≤ 1 → g.fmt % 16 < 2 → ∀ t0 bs,
      let n := min 1008 (y.srcUnits - f.pos)
      s.vaRead y.owner (s.collSlot y.owner x.ctx) (y.srcVa + f.pos * 4) (n * 4) = (t0, .more, bs) → Runs (.collFetchPacket b false) s fun t =>
        Sent s t (.send y.owner (t0.packet (t0.collHdr b y.inNetcls y.inRoute y.inGroup 0x40)
          (oxPrefix y.me y.inStream (b2n (decide (y.srcUnits ≤ f.pos + n))) (y.srcOff + f.pos) n 1 ++ bs))) ∧
        (t.bindX b).fetch.pos = f.pos + n ∧ (t.bindX b).fetch.done = decide (y.srcUnits ≤ f.pos + n)) ∧
    (∀ (d : CdId) (k : Packet) sz va, k.hdr.kind ≠ 0x44 → s.collLive k.hdr.collId = some b.val → x.st = .running → x.owner = d.val →
      k.poison = false → crc32 k.payload = k.crc → collDest g y k.hdr.kind k.payload = some (sz, va) →
      x.written + fld k.payload 8 2 ≤ x.recvUnits → ∀ t0,
      s.vaWrite d (s.collSlot d x.ctx) x.ctx va (k.payload.drop 16) = (t0, .more) → Runs (.collResultWrite d k) s fun t =>
        (t.bind b).written = x.written + fld k.payload 8 2 ∧ t.hbm = t0.hbm ∧ t.poison = t0.poison)

/-- R288, R293 to R295, R301 to R303, R308, R310: the collectives commands of a context's owner: a bind opens the entry freed longest ago and answers
its index, DHASH and place; a start runs it; an abort answers the state before; a free returns the claim and cools the id; a status answers
the entry. A refused bind changes no binding.
(Where the rules leave a choice the clauses follow log entries 66 and 68, the model's choice.) -/
def Obligations.CollectiveCommandsAnswer : Prop :=
  ∀ (src : Src) (s : State),
    (∀ g l p t0 place spill, s.portAdmits src 0x0601 = true → s.owns src (collL l).ctx = true → src.context = (collL l).ctx → firstErr (s.bindChecks g l p) = none →
      let dh := collHash g (s.vaRead (collL l).owner (s.collSlot (collL l).owner (collL l).ctx) (collL l).membersVa (8 * (collG g).members)).2.2
      s.collAdmit (bit (collG g).flags 0) (collL l).ctx (collL l).owner (oxP p).lines = some (t0, place, spill) →
      ∀ b, s.collEntry = some b → Runs (.collBind src g l p) s fun t =>
        RepliedLast s t src 0x0601 (leBytes 2 b ++ leBytes 8 dh ++ leBytes 1 place) ∧ (t.bind b).st = .open ∧
        (t.bind b).collId = (collG g).id ∧ (t.bind b).ctx = (collL l).ctx ∧ (t.bind b).lines = (oxP p).lines ∧ (t.bind b).dhash = dh ∧
        (t.bind b).place = place ∧ t.oxProg b = oxP p ∧ ∀ j, j ≠ b → t.bind j = s.bind j) ∧
    (∀ g l p e, s.portAdmits src 0x0601 = true → s.owns src (collL l).ctx = true → src.context = (collL l).ctx → firstErr (s.bindChecks g l p) = some e → Runs (.collBind src g l p) s fun t =>
      t.ox = s.ox ∧ t.cds = s.cds ∧ t.out.head? = some (answer s src 0x0601 e [])) ∧
    (∀ ctx coll b, s.portAdmits src 0x0602 = true → s.owns src ctx = true → src.context = ctx → s.svc.hubIn = true → s.noCtx ctx = false →
      s.collHeld coll = some b → (s.bind b).ctx = ctx → (s.bind b).st = .open → (s.bind b).sched = false →
      Runs (.collStart src ctx coll) s fun t => Answered s t src 0x0602 [] ∧ (t.bind b).tRun = s.now ∧ (t.bind b).st ≠ .open ∧
        (t.bindX b).fetch.active = !(s.bindX b).fetch.done) ∧
    (∀ ctx coll b, s.portAdmits src 0x0603 = true → s.owns src ctx = true → src.context = ctx → s.svc.hubIn = true → s.noCtx ctx = false →
      s.collHeld coll = some b → (s.bind b).ctx = ctx → (s.bind b).st ≠ .free → Runs (.collAbort src ctx coll) s fun t =>
        RepliedLast s t src 0x0603 (leBytes 1 (s.bind b).st.code) ∧ (t.bind b).st = .aborted ∧
        ((s.bind b).st ≠ .aborted → (t.bind b).code = .collAborted)) ∧
    (∀ ctx coll b, s.portAdmits src 0x0604 = true → s.owns src ctx = true → src.context = ctx → s.svc.hubIn = true → s.noCtx ctx = false →
      s.collHeld coll = some b → (s.bind b).ctx = ctx → ((s.bind b).st = .done ∨ (s.bind b).st = .aborted) →
      Runs (.collFree src ctx coll) s fun t => RepliedLast s t src 0x0604 [] ∧ (t.bind b).st = .free ∧ (t.bind b).lines = 0 ∧
        (t.bind b).tEnd = s.now ∧ (t.bindX b).cooling = true) ∧
    (∀ coll b, s.portAdmits src 0x0605 = true → s.svc.hubIn = true → coll < 2 ^ 31 → s.collHeld coll = some b →
      s.owns src (s.bind b).ctx = true → Runs (.collStatus src coll) s fun t =>
        Replied s t src 0x0605 (s.bind b).status ∧ OnlyReply s t)

/-- R313 to R317, R321: a slot of a flit takes the next waiting cell, the tenth sends the flit with the next SEQ and keeps it for replay; a
sleeping link wakes first; a flit in order is accepted with its cells, a bad one asks for replay once; a control cell brings credits and
acknowledges flits, or takes the link down; no acknowledgement for 10 us takes it down.
(Where the rules leave a choice the clauses follow log entry 67, the model's choice.) -/
def Obligations.LinksCarryFlits : Prop :=
  ∀ (l : LinkId) (s : State), (s.link l).st = .up →
    let x := s.lx l
    (x.sleep.st ≠ .running → Runs (.flitSend l) s fun t => (t.lx l).sleep = { x.sleep with waking := true } ∧ t.out = s.out ∧
      (t.lx l).cur = x.cur) ∧
    (∀ c rest, x.sleep.st = .running → (x.resend = [] ∨ x.cur ≠ []) → x.replay.length < 128 →
      x.slotNo % s.hub.shareD ≠ s.hub.shareD - 1 → x.txSched = c :: rest →
      (x.cur.length < 9 → Runs (.flitSend l) s fun t => t = { s with linkx := t.linkx } ∧
        t.lx l = { x with txSched := rest, slotNo := x.slotNo + 1, cur := x.cur ++ [c] } ∧ ∀ k, k ≠ l.val → t.lx k = s.lx k) ∧
      (x.cur.length = 9 → Runs (.flitSend l) s fun t =>
        t.out = .flit l x.nextSeq ((x.cur ++ [c]).map (·.slot)) :: s.out ∧ (t.lx l).cur = [] ∧ (t.lx l).txSched = rest ∧
        (t.lx l).nextSeq = (x.nextSeq + 1) % 65536 ∧ (t.lx l).replay.length = x.replay.length + 1 ∧
        (t.link l).flitsTx = (s.link l).flitsTx + 1)) ∧
    (∀ f : Flit, f.ok = true → (f.seq + 65536 - x.rxSeq) % 65536 = 1 → f.slots = [] → Runs (.flitReceive l f) s fun t =>
      (t.lx l).rxSeq = f.seq ∧ (t.lx l).ctlDue = true ∧ (t.lx l).nakSent = false ∧ (t.link l).flitsRx = (s.link l).flitsRx + 1 ∧
      t.hub = s.hub) ∧
    (∀ (f : Flit) net cls bytes, f.ok = true → (f.seq + 65536 - x.rxSeq) % 65536 = 1 → f.slots = [.cell net cls true false false bytes] →
      Tab.get 0 x.owed (poolOf net cls) < poolCells (poolOf net cls) → Runs (.flitReceive l f) s fun t =>
        Tab.get [] (t.lx l).asm (poolOf net cls) = bytes ∧ Tab.get 0 (t.lx l).owed (poolOf net cls) = Tab.get 0 x.owed (poolOf net cls) + 1 ∧
        t.hub = s.hub) ∧
    (∀ f : Flit, f.ok = false → x.nakSent = false → Runs (.flitReceive l f) s fun t => (t.lx l).nakSent = true ∧
      (t.lx l).ctlUrgent = x.ctlUrgent ++ [{ nak := true }] ∧ (t.lx l).rxSeq = x.rxSeq ∧
      (t.link l).fecUncorr = (s.link l).fecUncorr + f.uncorr) ∧
    (∀ c : CtlCell, c.ccrc = crc16 c.bytes → c.down = false → c.reset = false → (x.nextSeq + 65535 - c.ack) % 65536 ≤ 128 → c.nak = false →
      c.swap = false → Runs (.controlCell l c) s fun t => (t.link l).st = .up ∧
        (∀ p, p < 6 → Tab.get 0 (t.link l).credits p = Tab.get 0 (s.link l).credits p + c.credits.getD p 0) ∧
        (t.lx l).replay = x.replay.filter (fun f => !decide ((c.ack + 65536 - f.seq) % 65536 < 32768)) ∧ (t.lx l).lastEcho = c.echoTx) ∧
    (∀ c : CtlCell, c.ccrc ≠ crc16 c.bytes → exec (.controlCell l c) s = .next s) ∧
    (∀ c : CtlCell, c.ccrc = crc16 c.bytes → c.down = true → Runs (.controlCell l c) s fun t => (t.link l).st = .down ∧
      (t.link l).lastCause = 2 ∧ (t.link l).credits = [] ∧ (t.lx l).replay = []) ∧
    (x.replay ≠ [] → x.lastAckAt + 10000 ≤ s.aonNs → Runs (.linkAckTimeout l) s fun t => (t.link l).st = .down ∧
      (t.link l).lastCause = 5 ∧ (t.link l).downs = sat 32 ((s.link l).downs + 1) ∧ (t.link l).credits = [] ∧ (t.lx l).replay = [] ∧
      (t.lx l).cur = [])

/-- R318 to R322, R339, R536: training with 8 good lanes and a match of modes brings a link UP with its credits and its output in service;
RETRAIN_DELAY after a loss training starts again; a changed flight retrains when no launch runs; a lane that fails or errs too much
moves to the spare, in force from SWAP_SEQ on; without a spare the link goes DOWN; clearing ENABLE disables it, RETRAIN trains it.
(Where the rules leave a choice the clauses follow log entries 27 and 67, the model's choice.) -/
def Obligations.LinksTrainAndSwapLanes : Prop :=
  ∀ (l : LinkId) (s : State),
    let k := s.link l
    (∀ t : Training, k.st = .training → t.lock = true →
      (sortBy (fun a b => decide (a ≤ b)) ((t.good.map (·.val)).eraseDups)).length ≥ 8 → k.wantBoard = false → t.peerBoard = false → t.flight ≤ 50 →
      Runs (.linkTrainingComplete l t) s fun u => (u.link l).st = .up ∧ (u.link l).board = false ∧ (u.link l).flight = t.flight ∧
        (u.link l).peerNode = t.peerNode ∧ (∀ p, p < 6 → Tab.get 0 (u.link l).credits p = if p < 2 then 768 else 128) ∧
        (u.lx l).rxSeq = 65535 ∧ (u.lx l).nextSeq = 0 ∧ Tab.get false u.hub.outUp l.val = true) ∧
    (∀ t : Training, k.st = .training → t.lock = false → Runs (.linkTrainingComplete l t) s fun u => (u.link l).st = .down ∧
      (k.auto = true → (u.lx l).trainAt = some (s.aonNs + k.retrainDelay * 1000))) ∧
    (∀ a, (s.lx l).trainAt = some a → a ≤ s.aonNs → k.st = .down → k.auto = true → k.enable = true → Runs (.linkRetrainDelayExpiry l) s fun t =>
      (t.link l).st = .training ∧ (t.lx l).trainAt = none) ∧
    (∀ f, k.st = .up → k.retrainDue = false → f ≤ k.flight + 2 → k.flight ≤ f + 2 → exec (.flightRemeasure l f) s =
      .next (s.modLink l fun k => { k with flightNow := f, retrainDue := false })) ∧
    (∀ f, k.st = .up → k.flight + 2 < f → (s.running = true → Runs (.flightRemeasure l f) s fun t => (t.link l).st = .up ∧
        (t.link l).retrainDue = true ∧ (t.link l).flightNow = f) ∧
      (s.running = false → Runs (.flightRemeasure l f) s fun t => (t.link l).st = .training)) ∧
    ((∀ q, q < 9 → Tab.get 0 k.laneErrsSec q ≤ k.laneLimit) → exec (.laneErrorCheck l) s =
      .next (s.modLink l fun k => { k with laneErrsSec := [] })) ∧
    (∀ q i, List.find? (fun q => decide (k.laneLimit < Tab.get 0 k.laneErrsSec q)) (List.range 9) = some q → k.st = .up → k.spareUsed = false →
      k.swap = none → laneOf k.laneMap q = some i → Runs (.laneErrorCheck l) s fun t =>
        t.link l = { k with laneErrsSec := [], swap := some { lane := i } }) ∧
    (∀ (q : Fin 9) i, k.st = .up → laneOf k.laneMap q = some i →
      (k.spareUsed = false → k.swap = none → exec (.linkSignalLoss l q) s = .next (s.modLink l fun k => { k with swap := some { lane := i } })) ∧
      (k.spareUsed = true → Runs (.linkSignalLoss l q) s fun t => (t.link l).st = .down ∧ (t.link l).lastCause = 1 ∧ (t.lx l).replay = [])) ∧
    (∀ w : Swap, k.swap = some w → k.st = .up →
      (w.sent = false → w.flitsLeft = 0 → Runs (.laneSwap l) s fun t =>
        (t.link l).swap = some { w with sent := true, seq := ((s.lx l).nextSeq + 16) % 65536 } ∧
        (t.lx l).ctlUrgent = (s.lx l).ctlUrgent ++
          [{ swap := true, swapSeq := ((s.lx l).nextSeq + 16) % 65536, swapLane := w.lane }]) ∧
      (w.sent = true → w.peer = false → ((s.lx l).nextSeq + 65536 - w.seq) % 65536 < 32768 → Runs (.laneSwap l) s fun t =>
        (t.link l).swap = none ∧ (t.link l).spareUsed = true ∧ (t.link l).laneMap = laneSwapped k.laneMap w.lane)) ∧
    (k.enable = true → Runs (.linkCtlEnableClear l) s fun t => (t.link l).st = .disabled ∧ (t.link l).enable = false ∧
      (t.lx l).trainAt = none) ∧
    (k.enable = true → Runs (.linkCtlRetrain l) s fun t => (t.link l).st = .training ∧ (t.link l).enable = true) ∧
    (k.enable = false → Runs (.linkCtlRetrain l) s fun t => (t.link l).st = k.st ∧ t.out = s.out)

/-- R327 to R331, R338, R535, R536: at its commit time a version becomes CURRENT and the old one DRAINING or, with nothing of it held, LOADED;
the routing and link commands of a controller with ADMIN write the tables of a version not in use, commit, report, act on links and
flush an epoch; the owner of a context sets its windows.
(Where the rules leave a choice the clauses follow log entries 67 and 68, the model's choice.) -/
def Obligations.RoutesAreWrittenAndCommitted : Prop :=
  ∀ (src : Src) (s : State),
    (∀ v t, s.rt.pending = some (v, t) → v < 2 → t ≤ s.now → Runs .routeCommitTakeEffect s fun u => u = { s with rt := u.rt } ∧
      u.rt.ver v = .current ∧ (s.rt.ver (1 - v) = .current → u.rt.ver (1 - v) = .draining ∨ u.rt.ver (1 - v) = .loaded) ∧
      u.rt.pending = none ∧ u.rt.lastVersion = v ∧ u.rt.commitTime = t) ∧
    (∀ v table first count es, Admin s src 0x0701 → s.svc.hubIn = true → v ≤ 1 → table ≤ 1 → 0 < count →
      count ≤ (if table = 0 then 255 else 511) → es.length = (if table = 0 then 16 else 8) * count →
      (s.rt.ver v = .empty ∨ s.rt.ver v = .loaded) → first + count ≤ 4096 →
      (∀ e ∈ entriesOf (if table = 0 then 16 else 8) count es, routeEntryBad (decide (table = 0)) e = false) →
      Runs (.routeWrite src v table first count 0 es) s fun t => Replied s t src 0x0701 [] ∧ t.rt.ver v = .loaded ∧
        (table = 0 → ∀ i, i < count → Tab.get (0, false) (if v = 0 then t.rt.cont0 else t.rt.cont1) (first + i) =
          (fld es (16 * i) 12, bit (fld es (16 * i + 12) 1) 0)) ∧
        (table = 1 → ∀ i, i < count → Tab.get 0 (if v = 0 then t.rt.mc0 else t.rt.mc1) (first + i) = fld es (8 * i) 8)) ∧
    (∀ v t, Admin s src 0x0702 → s.svc.hubIn = true → v ≤ 1 → s.rt.ver v = .loaded → s.rt.ver (1 - v) ≠ .draining → s.rt.pending = none →
      s.now < t → Runs (.routeCommit src v t) s fun u => u.rt = { s.rt with pending := some (v, t), lastVersion := v, commitTime := t } ∧
        Replied s u src 0x0702 (leBytes 1 (if s.rt.v0 = .current then 0 else if s.rt.v1 = .current then 1 else 0xFF))) ∧
    (Admin s src 0x0703 → s.svc.hubIn = true → Runs (.routeStatus src) s fun t => OnlyReply s t ∧
      Replied s t src 0x0703 (leBytes 8 s.rt.status ++ leBytes 8 s.rt.commitTime ++
        (List.range 108).flatMap fun i => leBytes 4 (Tab.get 0 s.rt.counters i))) ∧
    (∀ (l : LinkId) (action : Nat), Admin s src 0x0704 → s.dieIn (linkDie l) = true → action ≤ 3 →
      let st := (s.link l).st
      (action = 0 → (st = .disabled ∨ st = .parked) → Runs (.linkSet src (2 ^ l.val) 0 0) s fun t => RepliedLast s t src 0x0704 [0, 0] ∧
        (t.link l).st = .training ∧ (t.link l).enable = true ∧ (t.link l).wantBoard = false) ∧
      (action = 1 → st ≠ .disabled → Runs (.linkSet src (2 ^ l.val) 1 0) s fun t => RepliedLast s t src 0x0704 [0, 0] ∧
        (t.link l).st = .disabled ∧ (t.link l).enable = false) ∧
      (action = 2 → st ≠ .disabled → st ≠ .parked → Runs (.linkSet src (2 ^ l.val) 2 0) s fun t => RepliedLast s t src 0x0704 [0, 0] ∧
        (t.link l).st = .training) ∧
      (action = 3 → st ≠ .disabled → Runs (.linkSet src (2 ^ l.val) 3 0) s fun t => RepliedLast s t src 0x0704 [0, 0] ∧
        (t.link l).st = .parked)) ∧
    (∀ l, Admin s src 0x0705 → l ≤ 35 → s.dieIn (linkDie l) = true → Runs (.linkStatus src l) s fun t => OnlyReply s t ∧
      Replied s t src 0x0705 ((List.range 41).flatMap fun i => leBytes 8 ((s.link l).reg i))) ∧
    (∀ x w rctx route base len e, Owner s src 0x0706 x → w ≤ 255 → rctx ≤ 4095 → base + len ≤ 2 ^ 48 → (s.cx x).st.live = false →
      routeEnd route = some e → 36 ≤ e → e < 52 → Runs (.windowSet src x w rctx route base len) s fun t => Replied s t src 0x0706 [] ∧
        (Tab.get {} (t.cxx x).windows w : Window) = { ctx := rctx, route := route, base := base, len := len } ∧
        ∀ j, j ≠ w → (Tab.get {} (t.cxx x).windows j : Window) = Tab.get {} (s.cxx x).windows j) ∧
    (∀ e, Admin s src 0x0707 → s.svc.hubIn = true → e ≤ 1 → s.rt.ver e ≠ .current → Runs (.epochFlush src e) s fun t =>
      Replied s t src 0x0707 (leBytes 4 (s.epochFlush e).2) ∧ t.hub.drops = s.hub.drops + (s.epochFlush e).2 ∧
      (∀ x ∈ t.xp.shapers, ∀ k ∈ x.2.waiting, k.hdr.epoch ≠ e))

/-- R26, R341 to R347: a cell whose check fails is discarded; the first cell of the parent steps the count to TX_TIME plus the flight plus 32; in
LOCKED an offset within TIME_LIMIT slews one tick and one beyond it enters ACQUIRING; without a parent the unit holds over, and 100 us of
that end every scheduled launch with E_SCHED_LATE; a failed unit stops. -/
def Obligations.FabricTimeFollowsItsParent : Prop :=
  ∀ (s : State),
    (∀ l : LinkId, (s.link l).st = .up → exec (.timeCellSend l) s = .next (s.modLx l fun x => { x with timeDue := true })) ∧
    (∀ (l : LinkId) c, c.tcrc ≠ crc16 (timeCellBytes c) → exec (.timeCell l c) s = .next s) ∧
    (∀ (l : LinkId) (c : TimeCell) p, c.tcrc = crc16 (timeCellBytes c) → (s.link l).st = .up → s.ft.failed = false → s.ft.ctlRoot = false →
      let target := c.txTime + (s.link l).flight + 32
      let o : Int := (target : Int) - s.now
      let k : Cand := { locked := c.locked, dist := c.dist, root := c.rootNode, offset := o, at_ := s.now }
      let s1 := State.timeComplaints { s with ft := { s.ft with cands := Tab.put s.ft.cands l k } }
      s.syncListener = false → s1.bestParent = some (l.val, p) →
      (s.ft.st = .locked → 1 ≤ o → o ≤ s.ft.limit → s.syncMaster = false → Runs (.timeCell l c) s fun t =>
        t.ft.due = s.ft.due ++ [(s.now, 1)] ∧ t.ft.slews = s.ft.slews + 1 ∧ t.ft.st = .locked ∧ t.ft.parent = some l.val ∧
        t.ft.offset = offSat o ∧ t.ft.now = s.ft.now) ∧
      (s.ft.st = .locked → (s.ft.limit : Int) < o → Runs (.timeCell l c) s fun t => t.ft.st = .acquiring) ∧
      (s.ft.st = .free → s.ft.stepped = false → (∀ e ∈ s.sq.recs, e.2.st.live = false) → Runs (.timeCell l c) s fun t =>
        t.ft.now = target ∧ t.ft.steps = sat 32 (s.ft.steps + 1) ∧ t.ft.lastStep = o ∧ t.ft.st = .acquiring)) ∧
    (s.ft.st = .locked → s.ft.ctlRoot = false → s.ft.lastParent + 8192 ≤ s.now → s.syncListener = false → s.bestParent = none →
      exec .parentLossTimeout s = .next { s with ft := { s.ft with st := .holdover, parent := none, holdFrom := s.now } }) ∧
    (∀ r, s.ft.st = .holdover → s.ft.holdFrom + 100000 ≤ s.now → (s.lrec r).st.live = true → Runs .holdoverTimeout s fun t =>
      (t.lrec r).st = .aborted ∧ (t.lrec r).code = .schedLate) ∧
    (exec .fabricTimeUnitFailure s = .next { s with ft := { s.ft with failed := true } })

/-- R336, R347, R369, R520: the master drives a MARK at its time and a slew with its pulse, and stops driving when it sees another's edge; a
listener applies an ADD or HOLD 32 ns after it, and after 3 missed MARKs takes its links; TIME_STATUS answers the eight registers and
TIME_SET sets the root's count once.
(Where the rules leave a choice the clauses follow log entry 26, the model's choice.) -/
def Obligations.TheSyncLineAndTimeCommands : Prop :=
  ∀ (src : Src) (s : State),
    (s.syncMaster = true → s.timeLocked = true →
      (s.now % 2 ^ 20 = 0 → exec (.syncPulseDrive .mark false) s =
        .next { s with ft := { s.ft with silent := false }, out := .pulse .mark :: s.out }) ∧
      (∀ rest, s.ft.owed = 1 :: rest → nearMark s.now = false → exec (.syncPulseDrive .add false) s =
        .next { s with ft := { s.ft with silent := false, owed := rest, due := s.ft.due ++ [(s.now, 1)] }, out := .pulse .add :: s.out }) ∧
      (∀ rest, s.ft.owed = -1 :: rest → nearMark s.now = false → exec (.syncPulseDrive .hold false) s =
        .next { s with ft := { s.ft with silent := false, owed := rest, due := s.ft.due ++ [(s.now, -1)] }, out := .pulse .hold :: s.out }) ∧
      (∀ k, s.ft.silent = false → Runs (.syncPulseDrive k true) s fun t => t.ft = { s.ft with silent := true } ∧ t.out = s.out)) ∧
    (∀ w a, s.ft.useSync = true → s.syncDriver.isSome = true → s.ft.failed = false → s.ft.silent = false → w < 44 →
      exec (.syncPulseReceive w a) s = .next { s with ft := { s.ft with
        due := s.ft.due ++ [(a + 32, if w < 16 then 1 else -1)], slews := s.ft.slews + 1 } }) ∧
    (s.syncListener = true → s.ft.marked + 3 * 2 ^ 20 ≤ s.now → Runs .syncMarkMissed s fun t => t.ft.silent = true ∧
      (s.ft.st ≠ .locked → t = { s with ft := { s.ft with silent := true } })) ∧
    (s.portAdmits src 0x0806 = true → s.svc.hdIn = true → Runs (.timeStatus src) s fun t => OnlyReply s t ∧
      Replied s t src 0x0806 ((List.range 8).flatMap fun k => leBytes 8 (s.ftReg k))) ∧
    (∀ a, Admin s src 0x0807 → s.svc.hdIn = true → s.ft.ctlRoot = true → s.ft.wasSet = false → s.anyLaunch = false →
      Runs (.timeSet src a) s fun t => t.ft = { s.ft with now := a, wasSet := true } ∧
        t.out.head? = some (.mailbox src.oob { ctrl := src.ctrl, mailbox := src.mbox, flags := 1, command := 0x0807, seq := src.seq, status := 0,
                                               context := src.context, time := a, payload := [] }))

/-- R72, R240, R350, R351, R409, R414: at T0 an ARMED launch starts: each tile of its program runs from its entry PC in its other bank; with a
schedule its reservations are taken and period P0 has started at T0.
(Where the rules leave a choice the clauses follow log entries 30 and 69, the model's choice.) -/
def Obligations.LaunchesStartAtTheirTime : Prop :=
  ∀ (x : Fin 4096) (s : State) (g : Prog) (d i : Nat), (s.cx x).st = .armed → (s.cxx x).resume = false → (s.cxx x).prog = some g →
    (d, i) ∈ g.uses → (∀ j, (d, j) ∈ g.uses → (s.cd d).map.phys j = (s.cd d).map.phys i → j = i) →
    let p := (s.cd d).map.phys i
    (s.tile d p).mem.ctx = some x.val →
    (∀ a, s.liveRec? x = none → (s.cxx x).t0 = some a → a ≤ s.now → Runs (.launchStart x) s fun t => (t.cx x).st = .running ∧
      (t.tile d p).mule.st = .run ∧ (t.tile d p).mule.pc = BitVec.ofNat 64 (g.entry.getD i 0) ∧
      (t.tile d p).mule.bank = !(s.tile d p).mule.bank ∧ ∀ r, (t.tile d p).mule.x r = (s.tile d p).mule.x r) ∧
    (∀ r, s.liveRec? x = some r → (s.lrec r).ctx = x.val → (s.lrec r).t0 ≤ s.now → Runs (.launchStart x) s fun t =>
      (t.cx x).st = .running ∧ (t.lrec r).st = .running ∧ (t.lrec r).period = (s.lrec r).p0 ∧ (t.lrec r).nominal = (s.lrec r).t0 ∧
      (t.recX r).actual = (s.lrec r).t0 ∧ (t.recX r).taken = true ∧ t.hub = s.hub.reserve (s.recX r).rsvs ∧
      (t.tile d p).mule.st = .run ∧ (t.tile d p).mule.pc = BitVec.ofNat 64 (g.entry.getD i 0))

/-- R351, R359, R362, R368, R371: the next period starts at the later of its nominal time and the finish of the last, no later than LAG_BOUND
after it; its lateness is recorded and the Mules waiting after PSYNC go on. -/
def Obligations.PeriodsStartInTime : Prop :=
  ∀ (r : Fin 16) (refresh replay : Bool) (s : State),
    let k := s.lrec r
    let n := s.nominal r (k.period + 1)
    let a := max n (s.recX r).finish
    k.st.runs = true → (s.recX r).waiting = [] → k.period < k.last → a ≤ s.now → a ≤ n + k.lag →
    Runs (.periodStart r refresh replay) s fun t => (t.lrec r).period = k.period + 1 ∧ (t.lrec r).nominal = n ∧ (t.lrec r).lambda = a - n ∧
      (t.lrec r).peak = max k.peak (a - n) ∧ (t.recX r).actual = a ∧
      (∀ d p, (s.tile d p).mem.ctx = some k.ctx → (s.tile d p).mem.wait = .psync → (s.tile d p).mule.st = .wait →
        (t.tile d p).mule.st = .run ∧ (t.tile d p).mem.wait = .none) ∧
      (∀ d p, (s.tile d p).mem.ctx ≠ some k.ctx → (t.tile d p).mule = (s.tile d p).mule ∧ (t.tile d p).mem = (s.tile d p).mem)

/-- R304, R306, R353, R359, R364, R365, R278: a launch whose next period has not started at the edge, or that a SCHED_ABORT of its group names, ends:
the record, every active Mule of the context, the context, the SCHED_ABORT to send; another's abort is counted once more; and once
nothing of the launch runs its resources are released.
(Where the rules leave a choice the clauses follow log entries 64 and 69, the model's choice.) -/
def Obligations.ASchedulePeriodEndsEverywhere : Prop :=
  ∀ (r : Fin 16) (s : State),
    let k := s.lrec r
    (k.st.runs = true → k.period < k.last → s.nominal r (k.period + 1) + k.lag < s.now →
      ((s.recX r).waiting ≠ [] ∨ s.nominal r (k.period + 1) + k.lag < (s.recX r).finish) → Runs (.periodLagTimeout r) s fun t =>
        (t.lrec r).st = .aborted ∧ (t.lrec r).code = .schedLate ∧ (t.lrec r).abortPeriod = k.period ∧ (t.lrec r).abortTime = s.now ∧
        (t.lrec r).node = s.node ∧ (t.recX r).abortDue = true ∧ (t.cx k.ctx).st = .halted ∧ t.sq.aborts = s.sq.aborts + 1 ∧
        ∀ d p, (s.tile d p).mem.ctx = some k.ctx → (s.tile d p).mule.st.active = true →
          (t.tile d p).mule.st = .haltFault ∧ (t.tile d p).mule.faultCode = .schedLate ∧ (t.tile d p).mule.faultSource = 4) ∧
    ((s.recX r).abortDue = true → s.hub.up = false →
      exec (.schedAbortSend r) s = .next (s.modRecX r fun x => { x with abortDue := false })) ∧
    ((s.recX r).abortDue = true → s.hub.up = true → exec (.schedAbortSend r) s =
      .next ((s.modRecX r fun x => { x with abortDue := false }).enterHub 52
        (s.packet { net := 1, cls := 2, mc := true, route := 2 ^ 96 - 1, ctx := (s.schedOf r).groupCtx, kind := 0x46,
                    period := k.abortPeriod % 65536, group := (s.schedOf r).abortGroup }
          (leBytes 8 k.schedId ++ leBytes 8 k.t0 ++ leBytes 8 k.abortPeriod ++ leBytes 4 k.node ++ leBytes 2 k.code.code ++
            [BitVec.ofNat 8 k.die, BitVec.ofNat 8 k.unit])) 0)) ∧
    (∀ (m : Packet) v, m.hdr.kind = 0x46 → s.svc.hdIn = true → m.poison = false → crc32 m.payload = m.crc →
      List.find? (fun e => decide (e.2.st ≠ .free) && (Tab.get {} s.sq.scheds e.2.ctx).groupCtx == m.hdr.ctx &&
        e.2.schedId == fld m.payload 0 8 && e.2.t0 == fld m.payload 8 8) s.sq.recs = some (r.val, v) →
      (v = k → k.st.live = true → Runs (.schedAbortPacket m) s fun t => (t.lrec r).st = .aborted ∧
        (t.lrec r).code = Err.ofCode (fld m.payload 28 2) ∧ (t.lrec r).node = fld m.payload 24 4 ∧ (t.cx k.ctx).st = .halted) ∧
      (v.st = .aborted → exec (.schedAbortPacket m) s = .next { s with sq := { s.sq with dups := sat 32 (s.sq.dups + 1) } })) ∧
    (k.st = .aborted → s.lrRuns k.ctx = false → Runs (.launchResourcesRelease r) s fun t => (t.recX r).taken = false ∧ (t.recX r).lines = 0 ∧
      t.ox.reserved = s.ox.reserved - (s.recX r).lines ∧
      t.hub = if (s.recX r).taken then s.hub.unreserve (s.recX r).rsvs else s.hub)

/-- R354 to R358, R360: slot data that comes in its window and in order is written and fills its slot with its last byte; data of another period,
outside its window or out of order ends the period with the code of its row; at its consume time a filled armed slot advances to its
next instance, and any other halts its Mule with SOURCE 3; a scheduled collective's fetch starts, or the period ends. -/
def Obligations.SlotsTakeTheirData : Prop :=
  ∀ (s : State),
    (∀ (d : CdId) (k : Packet) arrival r i (e : SlotE), k.hdr.kind = 0x10 → s.dieIn d = true → k.poison = false →
      crc32 k.payload = k.crc → s.groupRec k.hdr.ctx = some r →
      (s.cd d).slots.find (s.lrec r).ctx (fld k.payload 0 2 % 4096) = some (i, e) → e.kind = 1 →
      let off := fld k.payload 4 4
      let data := k.payload.drop 16
      (s.slotFault r e k.hdr.period arrival off data.length = none → (s.lrec r).st.runs = true → off = e.received → e.os = true →
        (Tab.get {} (s.cd d).slots.entries i : SlotE) = e → Runs (.slotData d k arrival) s fun t => OnlyCd s t d ∧
          (t.tile d ((s.cd d).map.phys e.tile)).os = Mem.writeN (s.tile d ((s.cd d).map.phys e.tile)).os (e.base + off) data ∧
          (Tab.get {} (t.cd d).slots.entries i : SlotE).received = off + data.length ∧
          ((Tab.get {} (t.cd d).slots.entries i : SlotE).filled = true ↔
            e.filled = true ∨ (off + data.length = e.length ∧ e.gap = false)) ∧
          (t.cd d).slots.arrivals = (s.cd d).slots.arrivals + 1) ∧
      (∀ c m, s.slotFault r e k.hdr.period arrival off data.length = some (c, m) → (s.lrec r).st.live = true →
        Runs (.slotData d k arrival) s fun t => (t.lrec r).st = .aborted ∧ (t.lrec r).code = c ∧ (t.lrec r).die = d.val ∧
          (t.lrec r).unit = 0x28)) ∧
    (∀ (d : CdId) (n : Fin 4096) r,
      let e : SlotE := Tab.get {} (s.cd d).slots.entries n.val
      ∀ a, (List.find? (fun r => r.2.ctx == e.ctx && s.recHears r.1) s.sq.recs).map (·.1) = some r → e.kind ≠ 0 → s.startOf r e.next = some a →
      a + e.consume ≤ s.now → (s.lrec r).st.runs = true →
      (e.armed = true → e.filled = true → Runs (.slotConsume d n) s fun t => OnlyCd s t d ∧
        (Tab.get {} (t.cd d).slots.entries n.val : SlotE) =
          { e with armed := false, filled := false, gap := false, received := 0, next := e.next + e.step } ∧
        (t.cd d).slots.consumed = (s.cd d).slots.consumed + 1) ∧
      ((e.armed && e.filled) = false → (s.tile d ((s.cd d).map.phys e.tile)).mule.st.active = true → Runs (.slotConsume d n) s fun t =>
        (t.tile d ((s.cd d).map.phys e.tile)).mule.st = .haltFault ∧ (t.tile d ((s.cd d).map.phys e.tile)).mule.faultSource = 3 ∧
        (t.tile d ((s.cd d).map.phys e.tile)).mule.faultCode = (if e.armed then .schedUnderrun else .schedLate) ∧
        (t.lrec r).st = .aborted)) ∧
    (∀ (r : Fin 16) i c, (s.schedOf r).colls[i]? = some c → (s.lrec r).st.runs = true → ∀ a, s.startOf r c.period = some a →
      a + c.offset ≤ s.now → (s.recX r).fetched.contains i = false →
      (∀ b, s.collHeld c.collId = some b → (s.bind b).ctx = (s.lrec r).ctx → (s.bind b).st = .open → Runs (.schedCollFetchStart r i) s fun t =>
        (t.bind b).tRun = s.now ∧ (t.bind b).st ≠ .open ∧ (t.bindX b).fetch.active = !(s.bindX b).fetch.done ∧
        (t.recX r).fetched = i :: (s.recX r).fetched) ∧
      (s.collHeld c.collId = none → Runs (.schedCollFetchStart r i) s fun t => (t.lrec r).st = .aborted ∧ (t.lrec r).code = .schedLate))

/-- R348, R349, R366, R369: SCHED_LOAD of an image that passes its checks loads it and its slots and answers its SCHED_ID and slot count;
SCHED_UNLOAD drops it; SCHED_STOP sets the last period; SCHED_ABORT ends the period with E_ABORTED; SCHED_STATUS answers the record.
(Where the rules leave a choice the clauses follow log entries 29 and 69, the model's choice.) -/
def Obligations.ScheduleCommandsAnswer : Prop :=
  ∀ (src : Src) (x : Nat) (s : State),
    (∀ va len b, Owner s src 0x0801 x → s.svc.hdIn = true → s.readImage (lowestDie (s.cx x).mask) x va len = (.ok, b) →
      let i : SImage := { bytes := b }
      firstErr (s.schedChecks x .ok i) = none → Runs (.schedLoad src x va len) s fun t =>
        Replied s t src 0x0801 (leBytes 8 i.sched.id ++ leBytes 4 (i.slots x).length) ∧
        (Tab.get {} t.sq.scheds x : Sched) = { i.sched with slots := (i.slots x).map fun e => (e.1, e.2.slot) } ∧
        (∀ y, y ≠ x → (Tab.get {} t.sq.scheds y : Sched) = Tab.get {} s.sq.scheds y) ∧ t.sq.recs = s.sq.recs) ∧
    (∀ va len e, Owner s src 0x0801 x → s.svc.hdIn = true →
      firstErr (s.schedChecks x (s.readImage (lowestDie (s.cx x).mask) x va len).1
        { bytes := (s.readImage (lowestDie (s.cx x).mask) x va len).2 }) = some e →
      Runs (.schedLoad src x va len) s fun t => t.sq = s.sq ∧ t.cds = s.cds ∧ t.out.head? = some (answer s src 0x0801 e [])) ∧
    (Owner s src 0x0802 x → s.svc.hdIn = true → Tab.has s.sq.scheds x = true → (s.cx x).st.live = false →
      Runs (.schedUnload src x) s fun t => Replied s t src 0x0802 [] ∧ Tab.has t.sq.scheds x = false ∧
        (∀ d, ∀ e ∈ (t.cd d).slots.entries, e.2.ctx ≠ x)) ∧
    (∀ r, s.portAdmits src 0x0803 = true → s.svc.hdIn = true → r < 16 → s.owns src (s.lrec r).ctx = true →
      Runs (.schedStatus src (2 ^ 15 + r)) s fun t => Replied s t src 0x0803 (s.lrec r).bytes ∧ OnlyReply s t) ∧
    (∀ last r, Owner s src 0x0804 x → s.svc.hdIn = true → s.liveRec? x = some r → (s.lrec r).st = .running → (s.lrec r).period < last →
      last < (s.lrec r).last → Runs (.schedStop src x last) s fun t => RepliedLast s t src 0x0804 (leBytes 8 last) ∧
        t.lrec r = { s.lrec r with last := last, st := .stopping } ∧ (t.cx x).st = .stopping) ∧
    (∀ r, Owner s src 0x0805 x → s.svc.hdIn = true → s.liveRec? x = some r → (s.lrec r).st.live = true → (s.lrec r).ctx = x →
      Runs (.schedAbort src x) s fun t => RepliedLast s t src 0x0805 [] ∧ (t.lrec r).st = .aborted ∧ (t.lrec r).code = .aborted ∧
        (t.cx x).st = .halted)

/-- R374, R377, R378, R385 to R389, R394: a frame that fails a check is discarded and counted in its place and does nothing else; an address
request is answered on queue 7, up to 1,000 a second; a PFC frame pauses the priorities it enables for its quanta of 512 bit times, until they
expire; a paused sender is told again after 40 µs and released at XON; the queue the MAC takes from loses its head, which goes out; a queue
leaves its wheel slot once its tokens are back; a sub-port or the out-of-band port gains or loses its link.
(Where the rules leave a choice the clauses follow log entries 46 and 73, the model's choice.) -/
def Obligations.EthernetPortsPauseAndSend : Prop :=
  ∀ (k : EthPort) (q : SubPort) (s : State), s.subIn k q = true →
    let e := s.eth k
    (∀ f, f.fcsOk = false → e.cause q f = some 0) ∧
    (∀ f, f.fcsOk = true → (f.bytes.length < 60 ∨ 9212 < f.bytes.length) → e.cause q f = some 1) ∧
    (∀ f i, e.cause q f = some i → Runs (.ethFrameReceive k q f) s fun t => t = { s with eths := t.eths } ∧
      t.eth k = { e with discards := (t.eth k).discards } ∧ (∀ j : Nat, j ≠ k.val → t.eth j = s.eth j) ∧
      (∀ j, Tab.get 0 (t.eth k).discards j = if j = i then sat 32 (Tab.get 0 e.discards i + 1) else Tab.get 0 e.discards j)) ∧
    (∀ f, let p := ethParse f.bytes
      let a := e.addr q
      e.cause q f = none → (isArp a p || isNs a p) = true → ((e.sub q).arpSec = s.aonNs / 1000000000 → (e.sub q).arpCount < 1000) →
      Runs (.arpRequest k q f) s fun t => (t.eth k).rx = e.rx + 1 ∧ t.xp = s.xp ∧ t.out = s.out ∧
        (∃ g, ((t.eth k).queue q 7).fifo = (e.queue q 7).fifo ++ [g] ∧ g.mac = p.src ∧ g.ctrl = none ∧
          (p.type = 0x0806 → g.raw = beBytes 2 0x0806 ++ beBytes 8 0x0001080006040002 ++ beBytes 6 (e.macOf q) ++ beBytes 4 a.ip4 ++
            (p.body.drop 8).take 10)) ∧
        ∀ n, n < 7 → (t.eth k).queue q n = e.queue q n) ∧
    (∀ enable quanta, Runs (.pfcFrame k q enable quanta) s fun t => t = { s with eths := t.eths } ∧ (t.eth k).pfcRx = e.pfcRx + 1 ∧
      ∀ n, n < 8 → (t.eth k).queue q n = if bit enable n = true
        then { e.queue q n with pauseEnd := s.now + cdiv (quanta.getD n 0 % 65536 * 512) (subRate e.mode) } else e.queue q n) ∧
    (∀ n : Fin 8, (e.queue q n).pauseEnd ≤ s.now → Runs (.pfcPauseExpiry k q n) s fun t => t = { s with eths := t.eths } ∧
      (t.eth k).queue q n = { e.queue q n with pauseEnd := 0 } ∧ ∀ m : Fin 8, m ≠ n → (t.eth k).queue q m = e.queue q m) ∧
    (∀ (n : Fin 8) a, Tab.find? (e.sub q).xoff n = some a → a + 40000 ≤ s.aonNs → e.xon * 1024 < Tab.get 0 (e.sub q).occ n →
      Runs (.pfcRepeat k q n) s fun t => t.out = .pfc k q n 0xFFFF :: s.out ∧ (t.eth k).pfcTx = e.pfcTx + 1 ∧
        Tab.find? ((t.eth k).sub q).xoff n = some s.aonNs) ∧
    (∀ (n : Fin 8) drained, Tab.has (e.sub q).xoff n = true → Tab.get 0 (e.sub q).occ n - drained ≤ e.xon * 1024 →
      Runs (.pfcXon k q n drained) s fun t => t.out = .pfc k q n 0 :: s.out ∧ (t.eth k).pfcTx = e.pfcTx + 1 ∧
        Tab.has ((t.eth k).sub q).xoff n = false ∧ Tab.get 0 ((t.eth k).sub q).occ n = Tab.get 0 (e.sub q).occ n - drained) ∧
    (∀ (n : Fin 8) f g, (e.sub q).up = true → (e.queue q n).fifo = f :: g → (∀ m : Fin 8, (e.queue q m).eligible s.now = decide (m = n)) →
      Runs (.egressFrameSelect k q) s fun t => (t.eth k).tx = e.tx + 1 ∧ ((t.eth k).queue q n).fifo = g ∧
        ((t.eth k).queue q n).frames = (e.queue q n).frames + 1 ∧ ((t.eth k).queue q n).bytes = (e.queue q n).bytes + f.bytes ∧
        (∀ m : Fin 8, m ≠ n → ((t.eth k).queue q m).fifo = (e.queue q m).fifo) ∧
        (f.ctrl = none → t.xp = s.xp ∧ t.out = .frame k q
          (let b := beBytes 6 f.mac ++ beBytes 6 (e.macOf q) ++
            (if e.txTag then beBytes 2 0x8100 ++ beBytes 2 (n.val * 8192 + (e.addr q).vid) else []) ++ f.raw
           b ++ List.replicate (60 - b.length) 0) :: s.out) ∧
        (∀ c, f.ctrl = some c → (∃ b, t.out = .frame k q b :: s.out) ∧ (f.zeroKey = false → (t.sess c).toAck = 0))) ∧
    (∀ (n : Fin 8) a, (e.queue q n).wheel = some a →
      (a ≤ s.now → Runs (.shaperWheelSlot k q) s fun t => t = { s with eths := t.eths } ∧
        ((t.eth k).queue q n).tLast = s.now ∧ ((t.eth k).queue q n).fifo = (e.queue q n).fifo ∧
        ((t.eth k).queue q n).tokens = shaperNow (e.queue q n).tokens (e.queue q n).tLast (e.queue q n).rate (e.queue q n).burst s.now ∧
        (0 ≤ ((t.eth k).queue q n).tokens → ((t.eth k).queue q n).wheel = none)) ∧
      (s.now < a → Runs (.shaperWheelSlot k q) s fun t => (t.eth k).queue q n = e.queue q n)) ∧
    (exec (.subportLinkChange k q true) s = .next (s.modSub k q fun u => { u with up := true })) ∧
    (Runs (.subportLinkChange k q false) s fun t => ((t.eth k).sub q).up = false ∧ t.out = s.out ∧
      ∀ n f c, n < 8 → f ∈ ((t.eth k).queue q n).fifo → f.ctrl = some c → t.outSub (t.sess c) % 64 = k.val + 16 * q.val) ∧
    (∀ up, Runs (.oobLinkChange up) s fun t => t.svc = { s.svc with oobLink := up, level := s.levelOf s.svc })

/-- R374, R378 to R384, R386: a segment that fails a check of the port is discarded and counted; one whose MAC does not verify counts as such and
changes no session; one in order is accepted and rises E, the frame of an MBOX going to the mailbox engine; one out of order is answered
with a NAK once, a duplicate with an ACK; an ACK removes what it acknowledges and a NAK has the rest sent again; unacknowledged segments are
acknowledged after 8 µs, and go out again after the timeout, until the session is LOST; DONE follows a transfer, a GET's data its reads.
(Where the rules leave a choice the clauses follow log entry 72, the model's choice.) -/
def Obligations.SegmentsAreCheckedAndSequenced : Prop :=
  ∀ (s : State),
    (∀ (k : EthPort) (q : SubPort) (f : RxSegment), s.subIn k q = true →
      let run (type : Nat) : Instr := if type = 1 then .mboxSegment k q f else if type = 2 then .dataSegment k q f false
        else if type = 3 then .ackSegment k q f else .nakSegment k q f
      let c := fld f.seg 4 1
      (∀ type, type ∈ [1, 2, 3, 4] → segBad (s.eth k).jumbo f.seg = true → exec (run type) s = .next (s.ethDiscard k 5)) ∧
      (∀ type, type ∈ [1, 2, 3, 4] → segBad (s.eth k).jumbo f.seg = false → fld f.seg 3 1 = type →
        (8 ≤ c ∨ (s.enrol c).st ≠ 1 ∨ ((s.enrol c).primary ≠ k.val + 16 * q.val ∧ (s.enrol c).backup ≠ k.val + 16 * q.val)) →
        exec (run type) s = .next (s.ethDiscard k 6)) ∧
      (∀ type c m, type ∈ [2, 3, 4] → s.rxFront k q f type = .ok (c, m) → macOk (s.sess c).key f.seg = false →
        Runs (run type) s fun t => t.xp = s.xp ∧ t.mbx = s.mbx ∧
          Tab.get 0 (t.eth k).discards 7 = sat 32 (Tab.get 0 (s.eth k).discards 7 + 1)) ∧
      (∀ type c m, type ∈ [1, 2] → s.rxFront k q f type = .ok (c, m) → (s.sess c).st = 1 → macOk (s.sess c).key f.seg = true →
        fld ((f.seg.drop 32).take (fld f.seg 6 2)) 6 2 ≠ 0x0C01 →
        let x := s.sess c
        let d := (fld f.seg 8 4 + 2 ^ 32 - x.expPsn) % 2 ^ 32
        (0 < d → d < 2 ^ 31 → x.naked ≠ some x.expPsn → Runs (run type) s fun t => t.mbx = s.mbx ∧ t.out = s.out ∧
          t.sess c = { x with naked := some x.expPsn, toAck := 0 }) ∧
        (0 < d → d < 2 ^ 31 → x.naked = some x.expPsn → exec (run type) s = .next s) ∧
        (2 ^ 31 ≤ d → Runs (run type) s fun t => t.mbx = s.mbx ∧ t.out = s.out ∧ t.sess c = { x with toAck := 0 }) ∧
        (d = 0 → type = 1 → Tab.find? s.xp.pend c = none → Runs (run type) s fun t => (t.sess c).expPsn = (x.expPsn + 1) % 2 ^ 32 ∧
          (t.sess c).accepted = x.accepted + 1 ∧ (t.sess c).lastSub = k.val + 16 * q.val ∧ (t.eth k).rx = (s.eth k).rx + 1 ∧
          t = ((s.heard k q c f m).accepted c f.seg).mailboxFrame (Fin.ofNat 8 c) false ((f.seg.drop 32).take (fld f.seg 6 2))) ∧
        (d = 0 → type = 2 →
          let i := fld f.seg 16 2
          let y := s.xfer i
          let data := (f.seg.drop 32).take (fld f.seg 6 2)
          (i / 32 = c → y.st = 1 → y.get = false → fld f.seg 20 8 ≠ y.done → Runs (run type) s fun t =>
            (t.sess c).expPsn = (x.expPsn + 1) % 2 ^ 32 ∧ (t.xfer i).st = 3 ∧ (t.xfer i).code = .seq ∧ (t.xfer i).doneDue = true ∧
            t.hbm = s.hbm) ∧
          (∀ a u w, i / 32 = c → y.st = 1 → y.get = false → fld f.seg 20 8 = y.done → y.done + data.length ≤ y.length →
            (data.length % 64 = 0 ∨ y.done + data.length = y.length) → s.dieIn y.die = true → s.bpAlloc y.die c 2 = (u, .ok a) →
            u.vaWrite y.die (u.collSlot y.die y.ctx) y.ctx (y.va + y.done) data = (w, .more) → w.xfer i = y → Runs (run type) s fun t =>
              t.hbm = w.hbm ∧ (t.xfer i).done = y.done + data.length ∧
              ((t.xfer i).st = if y.done + data.length = y.length then 2 else 1) ∧
              ((t.xfer i).doneDue = true ↔ y.doneDue = true ∨ y.done + data.length = y.length)))) ∧
      (∀ type c m, type ∈ [3, 4] → s.rxFront k q f type = .ok (c, m) → (s.sess c).st = 1 → macOk (s.sess c).key f.seg = true →
        let x := s.sess c
        let n := (fld f.seg 12 4 + 2 ^ 32 - x.ackPsn) % 2 ^ 32
        0 < n → n ≤ x.unacked.length → x.waiting = [] → Runs (run type) s fun t => (t.sess c).ackPsn = fld f.seg 12 4 ∧
          (t.sess c).unacked = x.unacked.drop n ∧ (t.sess c).timeouts = 0 ∧ (t.sess c).expPsn = x.expPsn ∧
          t.xp.retx = s.xp.retx + if type = 4 then x.unacked.length - n else 0)) ∧
    (∀ (c : Ctrl), (s.sess c).st = 1 →
      let x := s.sess c
      (0 < x.toAck → x.ackFrom + 8000 ≤ s.aonNs → Runs (.transportAckTimer c) s fun t => t.sess c = { x with toAck := 0 } ∧
        ∃ g, ((t.eth (s.outSub x % 16)).queue (s.outSub x / 16 % 4) (x.pcp % 8)).fifo =
          ((s.eth (s.outSub x % 16)).queue (s.outSub x / 16 % 4) (x.pcp % 8)).fifo ++ [g] ∧ g.ctrl = some c.val ∧ g.seg.type = 3) ∧
      (x.unacked ≠ [] → x.lastAdv + s.xp.rto * 1000 ≤ s.aonNs →
        (x.timeouts < 31 → Runs (.xportRtoExpiry c) s fun t => t.sess c = { x with timeouts := x.timeouts + 1, lastAdv := s.aonNs } ∧
          t.xp.retx = s.xp.retx + x.unacked.length) ∧
        (31 ≤ x.timeouts → Runs (.xportRtoExpiry c) s fun t => (t.sess c).st = 2 ∧ (t.sess c).unacked = [] ∧
          ∀ i, i < 32 → (t.xfer (32 * c.val + i)).st ≠ 1))) ∧
    (∀ (i : Fin 256), let y := s.xfer i
      let c := i.val / 32
      let x := s.sess c
      x.st = 1 → x.unacked.length < 1024 →
      (y.doneDue = true → Runs (.xferDoneSend i) s fun t => t.xfer i = { y with doneDue := false } ∧
        (t.sess c).nextPsn = (x.nextPsn + 1) % 2 ^ 32 ∧
        (t.sess c).unacked = x.unacked ++ [{ type := 5, xfer := i, status := y.code.code, psn := x.nextPsn, pcp := x.pcp }]) ∧
      (∀ u data, let n := min (if (s.eth (s.outSub x % 16)).jumbo then 8192 else 1024) (y.length - y.done)
        y.st = 1 → y.get = true → s.dieIn y.die = true →
        s.vaRead y.die (s.collSlot y.die y.ctx) (y.va + y.done) n = (u, .more, data) → u.xfer i = y → u.sess c = x →
        Runs (.getDataSend i false) s fun t => (t.xfer i).done = y.done + n ∧
          ((t.xfer i).st = if y.done + n = y.length then 2 else 1) ∧ (t.sess c).nextPsn = (x.nextPsn + 1) % 2 ^ 32 ∧
          (t.sess c).unacked = x.unacked ++
            [{ type := 2, xfer := i, offset := y.done, payload := data, psn := x.nextPsn, pcp := y.pcp }]))

/-- R373, R381, R382, R384, R388 to R393, R395: PORT_SET sets a port that no controller or transfer needs otherwise and answers its links;
PORT_STATUS reads it; METER_SET, QUEUE_SET and ENTRY_SET set their rates and start their tokens anew; XFER_OPEN opens a transfer for the
owner of its context, XFER_STATUS answers its record and XFER_CANCEL ends it with E_ABORTED.
(Where the rules leave a choice the clauses follow log entry 72, the model's choice.) -/
def Obligations.HostCommandsSetPortsAndTransfers : Prop :=
  ∀ (src : Src) (s : State), s.svc.hdIn = true →
    (∀ port mode jumbo txTag addrs, Admin s src 0x0901 → port < 8 → mode < 4 → s.modeBusy port mode = false → jumbo < 2 → txTag < 2 →
      (∀ i, i < 4 → let b := (addrs.drop (64 * i)).take 64
        fld b 0 2 < 2 ^ 15 ∧ fld b 24 1 < 4 ∧ zeroAt b 25 39 = true ∧ (i < subCount mode → fld b 24 1 ≠ 0)) →
      Runs (.portSet src port mode jumbo txTag addrs) s fun t => Replied s t src 0x0901
          ((List.range 4).map fun q => BitVec.ofNat 8 (b2n (decide ((s.eth port).mode = mode) && ((s.eth port).sub q).up))) ∧
        (t.eth port).mode = mode ∧ (t.eth port).jumbo = decide (jumbo = 1) ∧ (t.eth port).txTag = decide (txTag = 1) ∧
        (∀ i, i < 4 → (t.eth port).addr i = subAddrOf ((addrs.drop (64 * i)).take 64)) ∧
        ((s.eth port).mode ≠ mode → ∀ q, ((t.eth port).sub q).up = false) ∧ t.cds = s.cds ∧ t.ctx = s.ctx) ∧
    (∀ port mode jumbo txTag addrs, Admin s src 0x0901 → port < 8 → mode < 4 → s.modeBusy port mode = true →
      Runs (.portSet src port mode jumbo txTag addrs) s fun t => OnlyReply s t ∧ t.out = answer s src 0x0901 .busy [] :: s.out ∧
        (t.eth port).mode = (s.eth port).mode) ∧
    (∀ port, s.portAdmits src 0x0902 = true → port < 8 → Runs (.portStatus src port) s fun t => OnlyReply s t ∧
      Replied s t src 0x0902 ((List.range 32).flatMap fun i => leBytes 8 ((s.eth port).reg port s.now i))) ∧
    (∀ x die dir pcp va len i, Owner s src 0x0903 x → 0 < len → len ≤ 2 ^ 40 → die < 16 → s.dieIn die = true → va % 64 = 0 → len % 4 = 0 →
      dir < 2 → pcp < 8 → (s.cd die).tr.slotOf x ≠ none → s.freeXfer src.ctrl.val = some i →
      Runs (.xferOpen src x die dir pcp va len) s fun t => OnlyReply s t ∧ Replied s t src 0x0903 (leBytes 2 i) ∧
        t.xfer i = { st := 1, get := decide (dir = 1), ctx := x, die := die, pcp := pcp, va := va, length := len, opened := s.now } ∧
        (∀ j, j ≠ i → t.xfer j = s.xfer j) ∧ i / 32 = src.ctrl.val) ∧
    (∀ x, s.portAdmits src 0x0904 = true → x < 256 → x / 32 = src.ctrl.val → Runs (.xferStatus src x) s fun t => OnlyReply s t ∧
      Replied s t src 0x0904 (s.xfer x).bytes ∧ ∀ j, t.xfer j = s.xfer j) ∧
    (∀ x, s.portAdmits src 0x0905 = true → x < 256 → x / 32 = src.ctrl.val → (s.xfer x).st = 1 → Runs (.xferCancel src x) s fun t =>
      Replied s t src 0x0905 (leBytes 8 (s.xfer x).done) ∧ (∀ j, j ≠ x → t.xfer j = s.xfer j) ∧ t.hbm = s.hbm ∧
      t.xfer x = { s.xfer x with st := 3, code := .aborted, ended := s.now, doneDue := true }) ∧
    (∀ port meter enable actions cir pir cbs pbs, Admin s src 0x0906 → port < 8 → meter < 16 → cir ≤ pir → pir ≤ 400000 → 9216 ≤ cbs →
      cbs ≤ 2 ^ 24 → 9216 ≤ pbs → pbs ≤ 2 ^ 24 → Runs (.meterSet src port meter enable actions cir pir cbs pbs) s fun t =>
        Replied s t src 0x0906 [] ∧ (∀ m, m ≠ meter → (Tab.get {} (t.eth port).meters m : Meter) = Tab.get {} (s.eth port).meters m) ∧
        (Tab.get {} (t.eth port).meters meter : Meter) = { (Tab.get {} (s.eth port).meters meter : Meter) with
          cir := cir, pir := pir, cbs := cbs, pbs := pbs, enable := bit enable 0, yellowDrop := bit actions 0, redDrop := bit actions 1,
          tc := cbs * 2 ^ 32, tp := pbs * 2 ^ 32, tLast := s.now }) ∧
    (∀ port sub queue weight rate burst, Admin s src 0x0907 → port < 8 → queue < 8 → weight < 256 → 1536 ≤ burst →
      burst ≤ 1048576 → sub < subCount (s.eth port).mode → Runs (.queueSet src port sub queue weight rate burst) s fun t =>
        Replied s t src 0x0907 [] ∧ (∃ f g h, (t.eth port).queue sub queue = { (s.eth port).queue sub queue with
          weight := weight, rate := rate, burst := burst, tokens := 0, tLast := s.now, wheel := none, fifo := f, headTag := g, fLast := h }) ∧
        ∀ n, n < 8 → n ≠ queue → ∃ f g h, (t.eth port).queue sub n =
          { (s.eth port).queue sub n with fifo := f, headTag := g, fLast := h }) ∧
    (∀ rate, Admin s src 0x0908 → rate ≤ 1600000 / s.hub.shareD → Runs (.entrySet src rate) s fun t => Replied s t src 0x0908 [] ∧
      t.xp.entryRate = rate ∧ ∀ i, i < 612 → (Tab.get {} t.xp.shapers i : EntrySh) =
        { (Tab.get {} s.xp.shapers i : EntrySh) with tokens := 0, tLast := s.now })

/-- R374, R396 to R407, R419, R473, R479: a frame that fails checks 1 to 4 is discarded and counted; one that passes all checks is queued and E
rises; one whose SEQ was answered has its reply again, any other SEQ E_SEQ with E, a full mailbox E_BUSY; a frame refused at a later check
is answered and takes its SEQ; the oldest frame of a mailbox starts when nothing accepted before it must go first; the watchdog resets the
host die; SESSION_OPEN begins a session or leaves one pending, SESSION_CLOSE ends it; enrolments follow the commit they queue.
(Where the rules leave a choice the clauses follow log entries 44, 72 and 74, the model's choice.) -/
def Obligations.MailboxesTakeFramesInSequence : Prop :=
  ∀ (s : State),
    (∀ (c : Ctrl) oob (seg : List Byte), (oob = true ∨ s.svc.hdIn = true) →
      let n := fld seg 12 2
      let fits := seg.length = n + 64 ∧ n ≤ 4096 ∧ fld seg 0 2 = 0x5A4E ∧ fld seg 2 1 = 1 ∧ fld seg 5 1 = 0 ∧ fld seg 3 1 = c.val
      (¬ fits → exec (.mailboxFrame c oob seg) s = .next { s with mbx := { s.mbx with discards := sat 32 (s.mbx.discards + 1) } }) ∧
      (fits → fld seg 6 2 ≠ 0x0C01 → Tab.find? s.xp.pend c = none →
        ((s.sess c).st ≠ 1 ∨ hmac (s.sess c).key (seg.take (32 + n)) ≠ seg.drop (32 + n)) →
        Runs (.mailboxFrame c oob seg) s fun t => t.mbx.discards = sat 32 (s.mbx.discards + 1) ∧ t.mbx.boxes = s.mbx.boxes ∧ t.xp = s.xp ∧
          t.out = s.out) ∧
      (∀ (m : Mbox), fits → fld seg 6 2 ≠ 0x0C01 → Tab.find? s.xp.pend c = none → (s.sess c).st = 1 →
        hmac (s.sess c).key (seg.take (32 + n)) = seg.drop (32 + n) → fld seg 4 1 = m.val →
        let f : CmdFrame := { command := fld seg 6 2, seq := fld seg 8 4, context := fld seg 16 2, args := (seg.drop 32).take n }
        let src : Src := { ctrl := c, mbox := m, seq := f.seq, context := f.context, oob := oob }
        let b := s.box c m
        let allowed := s.portAdmits src f.command = true ∧ (cmdAdmin f.command = true → s.isAdmin src = true) ∧
          (cmdOwner f.command = true → s.owns src (fld f.args 0 2) = true)
        (f.seq = b.e → b.frames.length < 4 → cmdDefined f.command = true → allowed →
          (∀ x, cmdCtx f.command f.args = some x → x = f.context) → Runs (.mailboxFrame c oob seg) s fun t =>
            t.box c m = { b with e := (b.e + 1) % 2 ^ 32, accepted := b.accepted + 1, frames := b.frames ++ [{ f with no := s.mbx.accepted + 1 }] } ∧
            (∀ k, k ≠ m.val → k < 8 → t.box c k = s.box c k) ∧ t.mbx.accepted = s.mbx.accepted + 1 ∧ t = { s with mbx := t.mbx }) ∧
        (f.seq = b.e → b.frames.length < 4 → cmdDefined f.command = true → ¬ allowed → Runs (.mailboxFrame c oob seg) s fun t =>
          t.out = answer s src f.command .denied [] :: s.out ∧ (t.box c m).e = (b.e + 1) % 2 ^ 32 ∧ t.mbx.refused = s.mbx.refused + 1) ∧
        (f.seq = b.e → 4 ≤ b.frames.length → Runs (.mailboxFrame c oob seg) s fun t =>
          t.out = answer s src f.command .busy [] :: s.out ∧ t.box c m = b) ∧
        (∀ r, 0 < (f.seq + 2 ^ 32 - b.e) % 2 ^ 32 → 2 ^ 32 - 4 ≤ (f.seq + 2 ^ 32 - b.e) % 2 ^ 32 →
          List.find? (fun r => r.seq == f.seq) b.replies = some r → Runs (.mailboxFrame c oob seg) s fun t =>
            t.out = .mailbox oob r :: s.out ∧ t.mbx = s.mbx) ∧
        (0 < (f.seq + 2 ^ 32 - b.e) % 2 ^ 32 → ((f.seq + 2 ^ 32 - b.e) % 2 ^ 32 < 2 ^ 32 - 4 ∨
          (List.find? (fun r => r.seq == f.seq) b.replies = none ∧ b.frames.any (fun q => q.seq == f.seq) = false)) → Runs (.mailboxFrame c oob seg) s fun t =>
          let r : Frame401 := { ctrl := c, mailbox := m, flags := 1, command := f.command, seq := f.seq, status := Err.seq.code,
                                context := f.context, time := s.now, payload := leBytes 4 b.e }
          t.box c m = b ∧ t.out = .mailbox oob r :: s.out))) ∧
    (∀ (c : Ctrl) (m : Mbox) f g, (s.box c m).frames = f :: g → (s.box c m).running = false →
      (s.mbx.boxes.any fun o => o.1 != 8 * c.val + m.val && o.2.frames.any f.behind) = false → Runs (.mailboxCommandStart c m) s fun t =>
        t = { s with mbx := { s.mbx with boxes := t.mbx.boxes } } ∧
        t.box c m = { s.box c m with running := true, runCmd := f.command, runSeq := f.seq }) ∧
    (s.svc.hdIn = true → Runs .mbxWatchdogExpiry s fun t => t.svc.hdIn = false ∧ (t.dieU 23).resetting = true ∧ t.ctx = {} ∧ t.sq = {} ∧
      t.mbx.boxes = [] ∧ ∀ c, c < 8 → (t.sess c).st ≠ 1) ∧
    (∀ (src : Src) modulus exponent nonce, let c := src.ctrl.val
      let key := padTo 384 modulus ++ padTo 4 exponent
      s.sec.pufOk = true → beNat (padTo 4 exponent) = 65537 →
      (s.claims src = true ∨ ((s.enrol c).st = 1 ∧ sha256 key = (s.enrol c).hash ∧ (src.oob = true → (s.enrol c).oob = true))) →
      ((s.sess c).st ≠ 1 → Runs (.sessionOpen src modulus exponent nonce) s fun t => (t.sess c).st = 1 ∧
        (t.sess c).key = Config.sessionKey s.free ∧ (t.sess c).expPsn = (Config.initialPsn s.free).2 % 2 ^ 32 ∧
        (t.sess c).primary = (s.enrol c).primary ∧ Tab.find? t.xp.pend c = none ∧ t.mbx.boxes = s.mbx.boxes ∧
        ∃ f, f.command = 0x0C01 ∧ f.status = 0 ∧ Sent s t (.mailbox src.oob f)) ∧
      ((s.sess c).st = 1 → Runs (.sessionOpen src modulus exponent nonce) s fun t => (t.sess c).st = 1 ∧ (t.sess c).key = (s.sess c).key ∧
        (∃ p, Tab.find? t.xp.pend c = some p ∧ p.key = Config.sessionKey s.free ∧ p.oob = src.oob ∧ p.claim = s.claims src) ∧
        ∃ f, f.command = 0x0C01 ∧ f.status = 0 ∧ Sent s t (.mailbox src.oob f))) ∧
    (∀ src, s.portAdmits src 0x0C02 = true → Runs (.sessionClose src) s fun t => Replied s t src 0x0C02 [] ∧ (t.sess src.ctrl.val).st = 0 ∧
      (∀ i, i < 32 → (t.xfer (32 * src.ctrl.val + i)).st ≠ 1) ∧ ∀ c, c ≠ src.ctrl.val → t.sess c = s.sess c) ∧
    (∀ src, s.portAdmits src 0x0C05 = true → Runs (.ctrlList src) s fun t =>
      Replied s t src 0x0C05 ((List.range 8).flatMap fun c => (s.enrol c).bytes) ∧ OnlyReply s t) ∧
    (∀ src who entry rsv count keyHash sig, s.portAdmits src 0x0C03 = true → who < 8 → s.sec.owned = true →
      rsaVerify s.sec.ownerKey (s.ownerMsg 0x0C03 ([BitVec.ofNat 8 who] ++ padTo 5 entry ++ leBytes 2 rsv ++ leBytes 8 count ++
        padTo 32 keyHash)) sig = true → (s.enrol who).count < count →
      (∀ c, c < 8 → c ≠ who → (s.enrol c).st = 1 → (s.enrol c).primary ≠ fld entry 1 1) → fld entry 0 1 < 4 → fld entry 1 1 % 16 < 8 →
      fld entry 1 1 < 64 → fld entry 3 1 < 8 → fld entry 4 1 < 7 →
      (fld entry 2 1 = 0xFF ∨ (fld entry 2 1 % 16 < 8 ∧ fld entry 2 1 < 64 ∧ fld entry 2 1 % 16 / 4 ≠ fld entry 1 1 % 16 / 4)) →
      let data := padTo 32 keyHash ++ [1] ++ padTo 5 entry ++ [0, 0] ++ leBytes 8 count ++ leBytes 8 s.now ++ leBytes 8 0
      let k : Commit := { src := some src, command := 0x0C03, recs := [{ type := 4, index := who, data := data }] }
      exec (.ctrlEnrol src who entry rsv count keyHash sig) s = .next { s with cfg := { s.cfg with queue := s.cfg.queue ++ [k] } }) ∧
    (∀ src who rsv count sig, s.portAdmits src 0x0C04 = true → who < 8 → s.sec.owned = true →
      rsaVerify s.sec.ownerKey (s.ownerMsg 0x0C04 ([BitVec.ofNat 8 who] ++ leBytes 7 rsv ++ leBytes 8 count)) sig = true →
      (s.enrol who).count < count →
      let e : Enrol := { s.enrol who with st := 2, count := count, time := s.now }
      let k : Commit := { src := some src, command := 0x0C04, recs := [{ type := 4, index := who, data := e.bytes }] }
      exec (.ctrlRevoke src who rsv count sig) s = .next { s with cfg := { s.cfg with queue := s.cfg.queue ++ [k] } })

/-- R94, R309, R408 to R413, R420: CTX_CREATE gives a FREE context to its sender, OPEN and bound on its dies; CTX_DESTROY frees it and all it
holds; CTX_RESET takes it back to OPEN; CTX_STATUS and CTX_LIST read; CTX_ADOPT changes the owner; CTX_HALT halts its Mules with E_ABORTED;
CTX_SAVE stops it, and its completion saves it and answers, or gives its buffers back.
(Where the rules leave a choice the clauses follow log entries 31, 40 and 68, the model's choice.) -/
def Obligations.ContextsAreCreatedAndEnd : Prop :=
  ∀ (src : Src) (x : Nat) (s : State), s.svc.hdIn = true →
    (∀ want flags mask l1, s.portAdmits src 0x0301 = true → (want = 0xFFFF ∨ (want < 4096 ∧ src.context = want)) → flags < 4 →
      mask % 2 ^ 16 ≠ 0 → l1 % 4096 = 0 → inHbm l1 4096 = true → s.pickCtx want = some x →
      (∀ d ∈ diesOf mask, s.dieIn d = true ∧ s.freeSlot d ≠ none) → Runs (.ctxCreate src want flags 0 mask l1) s fun t =>
        RepliedLast s t src 0x0301 (leBytes 2 x) ∧
        t.cx x = { owner := src.ctrl, ieee := bit flags 0, goodput := bit flags 1, mask := mask % 2 ^ 16, l1 := l1, st := .open_, changed := s.now } ∧
        (∀ y, y ≠ x → t.cx y = s.cx y) ∧ (∀ d ∈ diesOf mask, (t.cd d).tr.slotOf x ≠ none) ∧
        (∀ d, d ∉ diesOf mask → t.cd d = s.cd d) ∧ t.hbm = s.hbm) ∧
    (Owner s src 0x0302 x → (s.cx x).st.live = false → Runs (.ctxDestroy src x) s fun t => RepliedLast s t src 0x0302 [] ∧
      (t.cx x).st = .free ∧ (∀ y, y ≠ x → (t.cx y).st = (s.cx y).st) ∧
      ∀ d, d < 16 → (t.cd d).tr.slotOf x = none ∧ ∀ p, (t.tile d p).mem.ctx ≠ some x) ∧
    (Owner s src 0x0307 x → (s.cx x).st = .open_ → Runs (.ctxReset src x) s fun t => Replied s t src 0x0307 [] ∧ OnlyReply s t) ∧
    (Owner s src 0x0307 x → (s.cx x).st.live = false → (s.cx x).st ≠ .open_ → Runs (.ctxReset src x) s fun t =>
      RepliedLast s t src 0x0307 [] ∧ (t.cx x).st = .open_ ∧ (t.cx x).programId = 0 ∧ (t.cx x).owner = (s.cx x).owner ∧
      (t.cx x).mask = (s.cx x).mask ∧ (t.cxx x).prog = none ∧ (t.cxx x).windows = (s.cxx x).windows ∧
      ∀ d p, d < 16 → (t.tile d p).mem.ctx ≠ some x) ∧
    (Owner s src 0x0303 x → Runs (.ctxStatus src x) s fun t => OnlyReply s t ∧
      Replied s t src 0x0303 ((s.cx x).bytes ++ (s.ctxLogical x).flatMap fun k => leBytes 8 (s.tile k.1 k.2.2).mule.statusWord ++
        leBytes 8 (s.tile k.1 k.2.2).mule.pc.toNat ++ leBytes 8 (s.tile k.1 k.2.2).mule.faultWord)) ∧
    (∀ first, s.portAdmits src 0x0305 = true → first ≤ 0xFFF → Runs (.ctxList src first) s fun t => OnlyReply s t ∧
      Replied s t src 0x0305 (((s.ctx.tab.filter fun e => decide (first ≤ e.1 ∧ e.2.st ≠ .free)).take 1024).flatMap fun e =>
        leBytes 2 e.1 ++ [BitVec.ofNat 8 e.2.st.code, BitVec.ofNat 8 e.2.owner])) ∧
    (Admin s src 0x0308 → src.context = x → (s.cx x).st ≠ .free → Runs (.ctxAdopt src x) s fun t =>
      Replied s t src 0x0308 [BitVec.ofNat 8 (s.cx x).owner] ∧ t.cx x = { s.cx x with owner := src.ctrl } ∧
      ∀ y, y ≠ x → t.cx y = s.cx y) ∧
    (Owner s src 0x0309 x → ((s.cx x).st = .running ∨ (s.cx x).st = .armed) → (s.cx x).scheduled = false → Runs (.ctxHalt src x) s fun t =>
      RepliedLast s t src 0x0309 [] ∧ (t.cx x).st = .halted ∧ (t.cx x).code = .aborted ∧
      (∀ d p, (s.tile d p).mem.ctx = some x → (s.tile d p).mule.st.active = true → (t.tile d p).mule.st = .haltFault ∧
        (t.tile d p).mule.faultCode = .aborted ∧ (t.tile d p).mule.faultSource = 0 ∧ (t.tile d p).mule.tags = (s.tile d p).mule.tags) ∧
      ∀ d p, (s.tile d p).mem.ctx ≠ some x → (t.tile d p).mule = (s.tile d p).mule) ∧
    (Owner s src 0x0304 x → (s.cxx x).saveReply = none → (s.ox.binds.any fun b => decide (b.2.ctx = x ∧ b.2.st = .running)) = false →
      ((s.cx x).st = .done ∨ (s.cx x).st = .halted ∨ ((s.cx x).st = .running ∧ (s.cx x).scheduled = false)) →
      Runs (.ctxSave src x) s fun t => (t.cxx x).saveReply = some src ∧
        ((s.cx x).st = .running → (∀ d e, (Tab.get {} (s.cd d).dma.engines e : DmaEng).st ≠ 1) → (t.cx x).st = .stopping ∧
          ∀ d p, (s.tile d p).mem.ctx = some x → (s.tile d p).mule.st = .run ∨ (s.tile d p).mule.st = .wait →
            (t.tile d p).mule.st = .saved)) ∧
    ((s.cxx x).saveReply = some src → s.ctxOut x = false → Runs (.ctxSaveComplete x) s fun t => (t.cxx x).saveReply = none ∧
      ∃ e p, t.out.head? = some (answer s src 0x0304 e p) ∧ (e = .ok → (t.cx x).st = .saved ∧ ∃ n, p = leBytes 2 (2 * n)) ∧
        (e ≠ .ok → p = [] ∧ (t.cxx x).saves = [] ∧ ((s.cx x).st = .stopping → (t.cx x).st = .halted ∧ (t.cx x).code = .nomem)))

/-- R69 to R72, R143, R168 to R170, R206, R209, R211, R213, R226, R227, R350, R409, R411, R414: the memory commands resolve a fault, drop cached
translations, set an export, the pools and a fault mode, and read the pools; PROG_LOAD puts an image that passes its checks into the tiles it
names; LAUNCH starts it, arms it for its T0, or arms its record; the routine store takes a library or a patch on each die that accepts it.
(Where the rules leave a choice the clauses follow log entries 33, 62, 68 and 71, the model's choice.) -/
def Obligations.MemoryAndProgramCommands : Prop :=
  ∀ (src : Src) (x : Nat) (s : State), s.svc.hdIn = true →
    (∀ die id action f w, s.portAdmits src 0x0401 = true → die < 16 → s.dieIn die = true → action < 2 →
      (s.cd die).tr.record? id = some f → (s.cx f.ctx).owner = src.ctrl.val → f.all = [w] → w.call = none → w.kind = 0 →
      (Tab.get {} (s.cd die).dma.engines w.no : DmaEng).st = 2 → (s.cd die).tr.overflow = [] →
      Runs (.memPfResolve src die action id) s fun t => RepliedLast s t src 0x0401 [] ∧ (t.cd die).tr.record? id = none ∧
        ((Tab.get {} (t.cd die).dma.engines w.no : DmaEng).st = if action = 0 then 1 else 3) ∧
        (action = 0 → OnlyReply { s with cds := t.cds } t)) ∧
    (∀ mask all va pages, Owner s src 0x0402 x → va % 65536 = 0 → mask &&& (s.cx x).mask = mask → (∀ d ∈ diesOf mask, s.dieIn d = true) →
      (pages ≠ 0 ∨ all ≠ 0) → Runs (.tlbFlush src x mask all va pages) s fun t => Replied s t src 0x0402 [] ∧
        ∀ d, (d ∉ diesOf mask → t.cd d = s.cd d) ∧ ∀ i, d ∈ diesOf mask → (s.cd d).tr.slotOf x = some i →
          (t.cd d).tr.invDone = true ∧ (∀ j, j ≠ i → Tab.get [] (t.cd d).tr.tlb j = Tab.get [] (s.cd d).tr.tlb j) ∧
          ∀ e ∈ Tab.get [] (t.cd d).tr.tlb i, all = 0 ∧ (va + pages * 65536 ≤ e.va ∨ e.va + e.size ≤ va)) ∧
    (∀ die entry data, Admin s src 0x0403 → die < 16 → s.dieIn die = true → entry < 8 →
      let e := exportOf data
      e.base + e.len2m * 2 ^ 21 ≤ 0x1800000000 → e.base % 2 ^ 21 = 0 → fld data 12 1 < 16 → fld data 13 1 < 2 → zeroAt data 14 2 = true →
      Runs (.exportSet src die entry data) s fun t => Replied s t src 0x0403 [] ∧
        t.cd die = { s.cd die with hbm := { (s.cd die).hbm with exports := (t.cd die).hbm.exports } } ∧
        ∀ j, (Tab.get {} (t.cd die).hbm.exports j : Export) = if j = entry then e else Tab.get {} (s.cd die).hbm.exports j) ∧
    (∀ die region counts quotas a, Admin s src 0x0404 → die < 16 → s.dieIn die = true →
      ((s.cd die).bp.config region counts quotas).apply = .ok a → Runs (.poolSet src die region counts quotas) s fun t =>
        Replied s t src 0x0404 [] ∧ t.cd die = { s.cd die with bp := a } ∧ ∀ d, d ≠ die → t.cd d = s.cd d) ∧
    (∀ mask mode, Owner s src 0x0405 x → mode < 2 → mask &&& (s.cx x).mask = mask → (∀ d ∈ diesOf mask, s.dieIn d = true) →
      (s.cx x).st ≠ .running → (mode = 0 → (s.cx x).scheduled = false) → (∀ d ∈ diesOf mask, s.slotBusy d x = false) →
      Runs (.memModeSet src x mask mode) s fun t => Replied s t src 0x0405 [] ∧ ∀ d i, d ∈ diesOf mask →
        let b : TSlot := Tab.get {} (s.cd d).tr.slots i
        (Tab.get {} (t.cd d).tr.slots i : TSlot) = if b.bound = true ∧ b.ctx = x then { b with fail := mode == 1 } else b) ∧
    (∀ die, s.portAdmits src 0x0406 = true → die < 16 → s.dieIn die = true → Runs (.poolStatus src die) s fun t => OnlyReply s t ∧
      let b := (s.cd die).bp
      Replied s t src 0x0406 (leBytes 8 b.statusWord ++ (List.range 6).flatMap (fun p => leBytes 8 (b.pool p).freeWord) ++ b.quotaBytes)) ∧
    (∀ mask va len b, Owner s src 0x0501 x → s.readImage (lowestDie mask) x va len = (.ok, b) →
      let i : PImage := { bytes := b }
      s.health.quarantined = false → ((s.cx x).st = .open_ ∨ (s.cx x).st = .loaded ∨ (s.cx x).st = .done) →
      firstErr (s.maskChecks x mask) = none → firstErr (s.progChecks x mask i) = none → Runs (.progLoad src x mask va len) s fun t =>
        RepliedLast s t src 0x0501 (leBytes 8 (fld b 0x18 8)) ∧ (t.cx x).st = .loaded ∧ (t.cx x).programId = fld b 0x18 8 ∧
        (t.cx x).scheduled = bit i.flags 2 ∧ (t.cx x).tiles = i.tiles ∧
        ∀ d j, d ∈ diesOf mask → j < i.tiles →
          (∀ u, u < i.tiles → (s.cd d).map.phys u = (s.cd d).map.phys j → u = j) →
          let p := (s.cd d).map.phys j
          let m := (t.tile d p).mem
          let e := i.entry j
          (t.tile d p).mule.st = .idle ∧ (t.tile d p).mule.logical = some j ∧ m.ctx = some x ∧
          (t.tile d p).mule.bank = (s.tile d p).mule.bank ∧ m.dmem = Mem.writeN [] 0 ((b.drop e.dmem).take e.dmemLen) ∧
          (if (s.tile d p).mule.bank then m.bank0 else m.bank1) = Mem.writeN [] 0 ((b.drop e.imem).take e.imemLen) ∧
          (if (s.tile d p).mule.bank then m.bank1 else m.bank0) =
            (if (s.tile d p).mule.bank then (s.tile d p).mem.bank1 else (s.tile d p).mem.bank0)) ∧
    (∀ flags t0 p0 g, Owner s src 0x0502 x → (s.cxx x).prog = some g → firstErr (s.launchChecks x flags t0 p0) = none →
      bit flags 1 = false →
      ((s.cx x).scheduled = false → s.now < t0 → Runs (.launch src x flags t0 p0) s fun t => RepliedLast s t src 0x0502 (0xFF :: leBytes 7 0) ∧
        (t.cx x).st = .armed ∧ (t.cxx x).t0 = some t0 ∧ (t.cx x).launches = (s.cx x).launches + 1) ∧
      (∀ d i, (s.cx x).scheduled = false → t0 ≤ s.now → (d, i) ∈ g.uses →
        (∀ j, (d, j) ∈ g.uses → (s.cd d).map.phys j = (s.cd d).map.phys i → j = i) →
        (s.tile d ((s.cd d).map.phys i)).mem.ctx = some x → Runs (.launch src x flags t0 p0) s fun t =>
          RepliedLast s t src 0x0502 (0xFF :: leBytes 7 0) ∧ (t.cx x).st = .running ∧
          (t.tile d ((s.cd d).map.phys i)).mule.st = .run ∧
          (t.tile d ((s.cd d).map.phys i)).mule.pc = BitVec.ofNat 64 (g.entry.getD i 0) ∧
          (t.tile d ((s.cd d).map.phys i)).mule.bank = !(s.tile d ((s.cd d).map.phys i)).mule.bank) ∧
      (∀ r, (s.cx x).scheduled = true → s.recFor x = some r → Runs (.launch src x flags t0 p0) s fun t =>
        RepliedLast s t src 0x0502 (BitVec.ofNat 8 r :: leBytes 7 0) ∧ (t.cx x).st = .armed ∧ (t.cx x).recIdx = r ∧
        (t.lrec r).st = .armed ∧ (t.lrec r).ctx = x ∧ (t.lrec r).t0 = t0 ∧ (t.lrec r).p0 = p0 ∧
        (t.lrec r).schedId = (Tab.get {} s.sq.scheds x : Sched).id ∧ (t.lrec r).last = (Tab.get {} s.sq.scheds x : Sched).pcount - 1)) ∧
    (∀ mask va len b, Admin s src 0x0503 → src.context = x → (s.cx x).st = .open_ → firstErr (s.maskChecks x mask) = none →
      s.readImage (lowestDie mask) x va len = (.ok, b) →
      let lib := padTo 0x400000 b
      let free (d : Nat) : Bool := !(s.cd d).tiles.any fun t => t.2.mem.ctx.isSome
      Runs (.routineLoad src x mask va len) s fun t => t.ctx = s.ctx ∧
        Replied s t src 0x0503 (dieStatuses ((diesOf mask).map fun d => (d, if free d then libraryErr lib else .busy))) ∧
        (∀ d, d ∈ diesOf mask → free d = true → libraryErr lib = .ok →
          t.cd d = { s.cd d with rs := { (s.cd d).rs with mem := Mem.writeN [] 0 lib, libVersion := fld lib 6 2 } } ∧
          Tab.get [] t.sec.meas 3 = sha256 (padTo 32 (Tab.get [] s.sec.meas 3) ++ (lib.drop 64).take 32)) ∧
        ∀ d, (d ∉ diesOf mask ∨ free d = false ∨ libraryErr lib ≠ .ok) → t.cd d = s.cd d) ∧
    (∀ mask va len b, Admin s src 0x0504 → src.context = x → (s.cx x).st = .open_ → firstErr (s.maskChecks x mask) = none →
      s.readImage (lowestDie mask) x va len = (.ok, b) →
      let k := { Config.patchImage b with number := (Config.patchImage b).number % 4096 }
      Runs (.routinePatch src x mask va len) s fun t => t.ctx = s.ctx ∧
        Replied s t src 0x0504 (dieStatuses ((diesOf mask).map fun d => (d, s.patchErr d k))) ∧
        (∀ d, (d ∉ diesOf mask ∨ s.patchErr d k ≠ .ok) → t.cd d = s.cd d) ∧
        ∀ d a, d ∈ diesOf mask → s.patchErr d k = .ok → storeGap (s.cd d).rs.mem k.code.length = some a →
          (t.cd d).rs.patches = (s.cd d).rs.patches + 1 ∧ Mem.readN (t.cd d).rs.mem a k.code.length = k.code ∧
          Mem.readN (t.cd d).rs.mem (0x400 + 16 * k.number) 10 = leBytes 4 a ++ leBytes 4 k.code.length ++ leBytes 2 k.version ∧
          ∀ o, (o < a ∨ a + k.code.length ≤ o) → (o < 0x400 + 16 * k.number ∨ 0x400 + 16 * k.number + 16 ≤ o) →
            Mem.read (t.cd d).rs.mem o = Mem.read (s.cd d).rs.mem o)

/-- R92, R93, R123, R142, R196, R221, R415 to R417: UNIT_DISABLE stops a unit at once in ABORT mode, or marks it to drain and answers when it is
quiescent; UNIT_ENABLE takes it back with its partial results gone; DBG_BREAK_SET sets the break registers of a Mule, DBG_HALT breaks it,
DBG_RESUME lets the broken Mules go on, and DBG_STEP lets one go on for an instruction.
(Where the rules leave a choice the clauses follow log entries 34 and 41, the model's choice.) -/
def Obligations.UnitsStopAndMulesBreak : Prop :=
  ∀ (src : Src) (s : State), s.svc.hdIn = true →
    (∀ die kind index mode, Admin s src 0x0B10 → die < 16 → s.dieIn die = true → unitNamed kind index = true → mode < 2 →
      (s.unitState die kind index = 2 → Runs (.unitDisable src die kind index mode) s fun t =>
        Replied s t src 0x0B10 (2 :: leBytes 4 0) ∧ OnlyReply s t) ∧
      (s.dis = [] → s.unitState die kind index = 0 → s.unitQuiet die kind index = true → Runs (.unitDisable src die kind index 0) s fun t =>
        Replied s t src 0x0B10 (0 :: leBytes 4 0) ∧ t.unitState die kind index = 2) ∧
      (s.dis = [] → s.unitState die kind index = 0 → s.unitQuiet die kind index = false → Runs (.unitDisable src die kind index 0) s fun t =>
        t.out = s.out ∧ t.unitState die kind index = 1 ∧ t = { s with cds := t.cds, dis := t.dis }) ∧
      (s.dis = [] → kind = 0 → s.unitState die kind index = 0 → Runs (.unitDisable src die kind index 1) s fun t =>
        (t.tile die index).arr.passes = [] ∧ (t.tile die index).arr.disabled = true ∧
        Answered s t src 0x0B10 (0 :: leBytes 4 (s.tile die index).arr.passes.length) ∧ t.unitState die kind index = 2)) ∧
    (∀ die kind index, Admin s src 0x0B11 → die < 16 → s.dieIn die = true → unitNamed kind index = true →
      s.unitState die kind index = 2 → Runs (.unitEnable src die kind index) s fun t => Replied s t src 0x0B11 [] ∧
        OnlyCd s { t with out := s.out, mbx := s.mbx, xp := s.xp, eths := s.eths } die ∧ t.unitState die kind index = 0 ∧
        (kind = 0 → (t.tile die index).arr.plane0 = {} ∧ (t.tile die index).arr.plane1 = {} ∧
          (t.tile die index).arr.resumeValid = false) ∧
        (kind = 3 → (Tab.get {} (t.cd die).dma.engines index : DmaEng) = {})) ∧
    (∀ x die i p, (s.cx x).debug = true → s.loadedTile x die i = some p →
      let m := (s.tile die p).mule
      (∀ ctl inst lrc, Owner s src 0x0D01 x → Runs (.dbgBreakSet src x die i ctl inst lrc) s fun t => Replied s t src 0x0D01 [] ∧
        (t.tile die p).mule = { m.setBrk ctl with brkInstVal := inst % 2 ^ 64, brkLrcVal := lrc % 2 ^ 64 } ∧
        (t.tile die p).mem = (s.tile die p).mem ∧ ∀ q, q ≠ p → t.tile die q = s.tile die q) ∧
      (Owner s src 0x0D04 x → m.st = .run ∨ m.st = .wait → Runs (.dbgHalt src x die i) s fun t =>
        Replied s t src 0x0D04 (leBytes 8 m.pc.toNat) ∧ (t.tile die p).mule = { m with st := .haltBreak } ∧
        ∀ q, q ≠ p → t.tile die q = s.tile die q) ∧
      (∀ mask, Owner s src 0x0D02 x → bit mask die = true → m.st = .haltBreak → (s.tile die p).mem.wait = .none →
        Runs (.dbgResume src x mask) s fun t => Replied s t src 0x0D02 (leBytes 2 (s.inBreak x mask).length) ∧
          (t.tile die p).mule = { m with st := .run, brkSkip := true }) ∧
      (∀ imm rd rs, Owner s src 0x0D03 x → m.st = .haltBreak → (s.tile die p).mem.wait = .none →
        fetch (s.tile die p) (s.cd die).rs.mem = .ok (imm * 2 ^ 20 + rs * 2 ^ 15 + rd * 2 ^ 7 + 0x13, 4) → imm < 2048 → rs < 32 → rd < 32 →
        0 < rd → Runs (.dbgStep src x die i) s fun t => (t.tile die p).mule.st = .haltBreak ∧
          (t.tile die p).mule.pc = m.pc + 4 ∧ (t.tile die p).mule.x rd = m.x rs + BitVec.ofNat 64 imm ∧
          RepliedLast s t src 0x0D03 (leBytes 8 (m.pc + 4).toNat)))

/-- R9, R10, R116, R265, R412, R422 to R431: the readback commands answer what the state address space, the dies and the tables hold, and change
nothing; STATE_WRITE writes its words in order and answers, or refuses and changes nothing; a direct write of a register changes that register.
(Where the rules leave a choice the clauses follow log entries 55 and 56, the model's choice.) -/
def Obligations.StateIsReadAndWrittenByAddress : Prop :=
  ∀ (src : Src) (s : State),
    (s.portAdmits src 0x0101 = true → Runs (.devInfo src) s fun t => OnlyReply s t ∧ Replied s t src 0x0101
      (((List.range 25).flatMap fun d => leBytes 8 (s.dieId d) ++ leBytes 8 (dieUnits d)) ++ leBytes 8 s.kdService ++ leBytes 8 s.now ++
        leBytes 4 s.node ++ [BitVec.ofNat 8 (s.pins.member % 4), 0, 0, 0] ++ leBytes 4 s.boot.version ++ leBytes 4 s.boot.version)) ∧
    (s.portAdmits src 0x0102 = true → Runs (.devCaps src) s fun t => OnlyReply s t ∧ Replied s t src 0x0102
      ((((List.range 16).flatMap fun d => (s.caps d).take 2) ++ ((List.range 16).flatMap fun d => (s.caps d).drop 2) ++ s.caps 16 ++
        (List.range 6).flatMap fun m => s.caps (17 + m)).flatMap fun w => leBytes 8 w)) ∧
    (∀ a len, s.svc.hdIn = true → s.portAdmits src 0x0A01 = true → firstErr (s.readChecks a len) = none → Runs (.stateRead src a len) s fun t =>
      OnlyReply s t ∧ Replied s t src 0x0A01 ((List.range (len / 8)).flatMap fun i => leBytes 8 (s.stWord (a + 8 * i)))) ∧
    (∀ a data u, s.svc.hdIn = true → Admin s src 0x0A02 → a % 8 = 0 → data.length % 8 = 0 → s.stRange a data.length 256 false = false →
      s.wordsErr (stWords a data) = .ok → s.writeWords (stWords a data) = .ok u → Runs (.stateWrite src a data.length data) s fun t =>
        t = u.reply src 0x0A02 .ok []) ∧
    (∀ a data e, s.svc.hdIn = true → Admin s src 0x0A02 → a % 8 = 0 → data.length % 8 = 0 → s.stRange a data.length 256 false = false →
      s.wordsErr (stWords a data) = e → e ≠ .ok → Runs (.stateWrite src a data.length data) s fun t =>
        OnlyReply s t ∧ t.out = answer s src 0x0A02 e [] :: s.out ∧ t.cds = s.cds ∧ t.hbm = s.hbm) ∧
    (∀ ranges : List (Nat × Nat), s.svc.hdIn = true → s.portAdmits src 0x0A03 = true → ranges ≠ [] → ranges.length ≤ 16 →
      (ranges.map (·.2)).sum ≤ 512 → (∀ r ∈ ranges, ∀ q ∈ ranges, stDie r.1 = stDie q.1) →
      (∀ r ∈ ranges, firstErr (s.readChecks r.1 r.2) = none) → Runs (.stateSnap src ranges.length ranges) s fun t => OnlyReply s t ∧
        Replied s t src 0x0A03 (leBytes 8 s.now ++ ranges.flatMap fun r => s.stBytes r.1 r.2)) ∧
    (∀ die, s.svc.hdIn = true → s.portAdmits src 0x0A04 = true → die < 25 → Runs (.unitMap src die) s fun t => OnlyReply s t ∧
      Replied s t src 0x0A04 ([s.dieId die, dieUnits die, (s.dieU die).resets, (s.dieU die).resetTime].flatMap fun w => leBytes 8 w)) ∧
    (∀ x coll first count b, s.portAdmits src 0x0A05 = true → src.context = x → s.svc.hubIn = true → s.collHeld coll = some b → 0 < count →
      count < 6 → (s.bind b).ctx = x → ((s.bind b).st = .done ∨ (s.bind b).st = .aborted) →
      (∀ l, first ≤ l → l < first + count → s.lineRead b l ≠ none) → Runs (.collLinesRead src x coll first count none) s fun t => OnlyReply s t ∧
        Replied s t src 0x0A05 ((List.range count).flatMap fun i => leBytes 4 (first + i) ++
          [BitVec.ofNat 8 (s.lineState b (first + i)), 0, 0, 0] ++ (s.lineRead b (first + i)).getD [])) ∧
    (∀ x die tile buffer offset len v bs, s.svc.hdIn = true → s.portAdmits src 0x0A06 = true → src.context = x → (s.cx x).st = .saved →
      List.find? (fun v => v.die == die && v.ltile == tile) (s.cxx x).saves = some v → buffer < 2 → len ≤ 4096 →
      offset + len ≤ (if buffer = 0 then v.len else 2 ^ 24) → offset % 8 = 0 → len % 8 = 0 →
      s.devReadN (die * 2 ^ 37 + (if buffer = 0 then v.buf else v.store) + offset) len = .ok bs →
      Runs (.saveRead src x die tile buffer offset len) s fun t => OnlyReply s t ∧ Replied s t src 0x0A06 bs) ∧
    (∀ x, s.svc.hdIn = true → s.portAdmits src 0x0A07 = true → src.context = x → (s.cx x).st ≠ .free → Runs (.ctxView src x) s fun t =>
      OnlyReply s t ∧ ∃ p, Replied s t src 0x0A07 p ∧ p.take 64 = (s.cx x).bytes ∧
        ((s.cx x).recIdx < 16 → (p.drop 64).take 128 = (s.lrec (s.cx x).recIdx).bytes)) ∧
    (∀ first, s.portAdmits src 0x0A08 = true → s.svc.hubIn = true → first < 1024 → Runs (.collList src first) s fun t => OnlyReply s t ∧
      Replied s t src 0x0A08 (((s.ox.binds.filter fun b => decide (first ≤ b.1 ∧ b.2.st ≠ .free)).take 500).flatMap fun b =>
        leBytes 2 b.1 ++ [BitVec.ofNat 8 b.2.st.code, BitVec.ofNat 8 b.2.place] ++ leBytes 4 b.2.collId)) ∧
    (∀ (k : EthPort) (v : Word), s.svc.hdIn = true → Runs (.registerWrite (23 * 2 ^ 42 + (0x10 + k.val) * 2 ^ 36 + 0x10) v) s fun t =>
      t = { s with eths := t.eths } ∧ t.eth k = { s.eth k with mac := v.toNat % 2 ^ 48 } ∧ (∀ j : Nat, j ≠ k.val → t.eth j = s.eth j) ∧
      t.stWord (23 * 2 ^ 42 + (0x10 + k.val) * 2 ^ 36 + 0x10) = v.toNat % 2 ^ 48) ∧
    (∀ (d : CdId) (p : PTile) (v : Word), s.dieIn d = true → (s.tile d p).mule.st = .idle ∨ (s.tile d p).mule.st = .haltBreak → Runs (.registerWrite (d.val * 2 ^ 42 + (8 + p.val) * 2 ^ 36 + 0x50) v) s fun t =>
      OnlyTile s t d p ∧ t.tile d p = { s.tile d p with mule := { (s.tile d p).mule with brkInstVal := v.toNat } }) ∧
    (∀ (d : CdId) (p : PTile) (v : Word), (s.tile d p).mule.st = .run →
      exec (.registerWrite (d.val * 2 ^ 42 + (8 + p.val) * 2 ^ 36 + 0x50) v) s = .next s) ∧
    (∀ (d : CdId) (v : Word), exec (.registerWrite (d.val * 2 ^ 42 + 0x26 * 2 ^ 36) v) s = .next s) ∧
    (∀ a v, a % 8 ≠ 0 → exec (.registerWrite a v) s = .next s)

/-- R16 to R18, R433 to R441, R443, R446 to R451: a monitor sample fills the entry of a die; the score is 1,000 less the penalties and the band
follows it; at a day's end the buckets move and the summary goes to the ledger; a request for quarantine repeats; quarantine takes effect
with every link down and LEVEL at most 2, and its token lapses; T4 takes over a tile; an event enters the ring, the mirror and the ledger.
(Where the rules leave a choice the clauses follow log entry 53, the model's choice.) -/
def Obligations.HealthEventsAreRecorded : Prop :=
  ∀ (s : State),
    (∀ m inlet outlet d q, d < 25 → s.dieIn d = true → (m.find? fun q : MonSample => q.die.val == d) = some q →
      Runs (.monitorSample m inlet outlet) s fun t => (t.mon d).temp = q.temp ∧ (t.mon d).vcore = q.vcore ∧ (t.mon d).power = q.power ∧
        (t.mon d).tempMax = (if (s.mon d).samples = 0 then q.temp else max (s.mon d).tempMax q.temp) ∧
        (t.mon d).samples = (s.mon d).samples + 1 ∧ (t.mon d).time = s.now ∧
        (t.mon d).alarm = alarmOf q.temp q.vcore q.margin (s.setpoint d) s.health.marginLimit ∧
        t.pwr.inlet = inlet ∧ t.pwr.outlet = outlet ∧ t.pwr.inletHigh = decide (640 < inlet) ∧ t.pwr.inletLow = decide (inlet < 240) ∧
        t.pwr.dtHigh = decide (224 < outlet - inlet)) ∧
    (let sc := scoreOf ((List.range 20).map fun i => penaltyOf i (s.hourly.measureOf i))
     Runs .healthScoreCompute s fun t => t.health.score = sc ∧ sc ≤ 1000 ∧ t.health.band = nextBand s.health.band sc ∧
       (t.health.qRequest = true ↔ t.health.band = 3 ∧ s.health.quarantined = false) ∧ t.health.quarantined = s.health.quarantined ∧
       t.health.dayMin = min s.health.dayMin sc ∧ t.health.dayMax = max s.health.dayMax sc ∧ t.cds = s.cds ∧ t.links = s.links) ∧
    (s.health.dayNo < s.aonNs / (86400 * secNs) → Runs .dayRollover s fun t => t.health.dayNo = s.health.dayNo + 1 ∧
      (∀ k, Tab.get 0 t.health.days k = if k % 8 = 0 then 0 else Tab.get 0 s.health.days (k - 1)) ∧ t.health.dayMin = s.health.score ∧
      t.health.dayMax = s.health.score ∧ (∃ e, t.ledger.pending = s.ledger.pending ++ [(8, e)]) ∧
      t = { s with health := t.health, ledger := t.ledger }) ∧
    (s.health.qRequest = true → s.health.qAt + 3600 * secNs ≤ s.aonNs → Runs .qRequestRepeat s fun t =>
      t.health = { s.health with qAt := s.aonNs } ∧
      (s.svc.hdIn = true → s.log.intake.length < 256 → ∃ e, t.log.intake = s.log.intake ++ [e] ∧ e.sev = 4 ∧ e.die = 24)) ∧
    (s.quarantineDue = true → Runs .quarantineTakeEffect s fun t => t.health.quarantined = true ∧ t.health.token = false ∧
      t.health.qRequest = false ∧ t.svc.level ≤ 2 ∧
      ∀ l, l < 36 → (t.link l).st ≠ .up ∧ (t.link l).st ≠ .training ∧ (t.lx l).trainAt = none) ∧
    (s.health.token = true → s.health.tokenX ≤ s.now → Runs .tokenLapse s fun t => t.health = { s.health with token := false } ∧
      t.links = s.links ∧ t.svc = s.svc) ∧
    (∀ (d : CdId) (p : PTile) i, Tab.get false s.health.subs (5 * d.val + p.val) = true → s.dieIn d = true → s.launchOn d = false → i < 4 →
      (s.cd d).map.phys i = p.val → (∀ j, j < i → (s.cd d).map.phys j ≠ p.val) →
      (p.val ≠ 4 → (s.cd d).spareFit = true → Runs (.tileSubstitution d p false) s fun t => (t.cd d).map.phys i = 4 ∧
        bit (t.cd d).map.ok p = false ∧ (t.tile d 4).mule = (s.tile d p).mule ∧ (t.tile d 4).mem = (s.tile d p).mem ∧
        (t.tile d 4).os = (s.tile d p).os ∧ Tab.get false t.health.subs (5 * d.val + p.val) = false ∧
        ∀ j, j < 4 → j ≠ i → (t.cd d).map.phys j = (s.cd d).map.phys j) ∧
      ((s.cd d).spareFit = false → Runs (.tileSubstitution d p false) s fun t => (t.cd d).map.phys i = 7 ∧
        bit (t.cd d).map.ok p = false ∧ Tab.get false t.health.subs (5 * d.val + p.val) = false)) ∧
    (∀ e rest, s.log.intake = e :: rest → Runs .logIntake s fun t => t.log.intake = rest ∧ t.log.head = s.log.head + 1 ∧ t.log.lostNow = false ∧
      (let entry := e.bytes (s.log.head % 2 ^ 32) ((if 3 ≤ e.sev then 1 else 0) + (if s.log.lostNow then 4 else 0))
       Tab.get [] t.log.ring (s.log.head % 65536) = entry ∧ t.mirror.queue = s.mirror.queue ++ (if 3 ≤ e.sev then [entry] else [])) ∧
      ∀ i, i ≠ s.log.head % 65536 → Tab.get [] t.log.ring i = Tab.get [] s.log.ring i) ∧
    (∀ e rest, s.mirror.queue = e :: rest → Runs .mirrorCopy s fun t => t.mirror.queue = rest ∧ t.mirror.head = s.mirror.head + 1 ∧
      Tab.get [] t.mirror.ring (s.mirror.head % 4096) = e ∧
      t.pins = { s.pins with smbAlert := s.pins.smbAlert || decide (4 ≤ fld e 18 1) } ∧ t = { s with mirror := t.mirror, pins := t.pins }) ∧
    (∀ type e rest, s.ledger.pending = (type, e) :: rest → Runs .ledgerRecordWrite s fun t => t.ledger.pending = rest ∧
      t.ledger.seq = s.ledger.seq + 1 ∧ t = { s with flash := t.flash, ledger := t.ledger } ∧
      (s.ledger.opened = true → s.ledger.seq % 1008 ≠ 0 → s.flashN (recordAt s.ledger.seq) 64 = List.replicate 64 0xFF →
        t.flashN (recordAt s.ledger.seq) 64 = s.record type e s.ledger.seq ∧
        ∀ a, (a < recordAt s.ledger.seq ∨ recordAt s.ledger.seq + 64 ≤ a) → Mem.read t.flash a = Mem.read s.flash a))

/-- R113, R433, R440 to R445, R448 to R451, R453, R455, R456, R526: the health commands answer the health unit's registers, monitors, logs, ledger,
spares, histograms and progress, and change what each names alone: the extremes of a monitor, the entry read up to (a read from the head on
is refused), the token of a
quarantine, a tile, bank or stack moved to its spare, the limits, the progress of a context, a note in the ledger.
(Where the rules leave a choice the clauses follow log entry 53, the model's choice.) -/
def Obligations.HealthCommandsAnswer : Prop :=
  ∀ (src : Src) (s : State),
    (s.portAdmits src 0x0B01 = true → Runs (.healthStatus src) s fun t => OnlyReply s t ∧ Replied s t src 0x0B01 (leBytes 8 s.health.status ++
      leBytes 8 s.health.domains ++ leBytes 8 s.health.hardUe ++ s.health.contribBytes ++ s.health.dayBytes)) ∧
    (∀ die, s.portAdmits src 0x0B02 = true → die < 25 → Runs (.monRead src die 0) s fun t =>
      OnlyReply s t ∧ Replied s t src 0x0B02 (s.mon die).bytes) ∧
    (∀ die clear, Admin s src 0x0B02 → die < 25 → clear ≠ 0 → Runs (.monRead src die clear) s fun t => Replied s t src 0x0B02 (s.mon die).bytes ∧
      let m := s.mon die
      t.mon die = { m with tempMax := m.temp, vcoreMin := m.vcore, marginMin := m.margin } ∧ ∀ d, d ≠ die → t.mon d = s.mon d) ∧
    (∀ first count, s.portAdmits src 0x0B03 = true → s.svc.hdIn = true → 0 < count → count ≤ 63 → ringAhead s.log.head first = false →
      Runs (.logRead src first count) s fun t =>
      let h := s.log.head
      Replied s t src 0x0B03 (leBytes 4 (h - min h 65536) ++ leBytes 4 h ++ ringRead h 65536 s.log.ring first count) ∧
      t.log = { s.log with readTo := readUpTo h 65536 s.log.readTo first count }) ∧
    (∀ first count, s.portAdmits src 0x0B04 = true → 0 < count → count ≤ 63 → ringAhead s.mirror.head first = false →
      Runs (.mirrorRead src first count) s fun t =>
      let h := s.mirror.head
      Replied s t src 0x0B04 (leBytes 4 (h - min h 4096) ++ leBytes 4 h ++ ringRead h 4096 s.mirror.ring first count) ∧
      t.mirror = { s.mirror with readTo := readUpTo h 4096 s.mirror.readTo first count }) ∧
    (∀ first count, s.portAdmits src 0x0B03 = true → s.svc.hdIn = true → 0 < count → count ≤ 63 → ringAhead s.log.head first = true →
      Runs (.logRead src first count) s fun t => OnlyReply s t ∧ t.out = answer s src 0x0B03 .range [] :: s.out) ∧
    (∀ first count, s.portAdmits src 0x0B05 = true → 0 < count → count ≤ 63 → first < s.ledger.seq →
      Runs (.ledgerRead src first count) s fun t => OnlyReply s t ∧
      let l := s.ledger
      Replied s t src 0x0B05 (leBytes 4 l.oldest ++ leBytes 4 l.seq ++ (List.range count).flatMap fun i =>
        if max first l.oldest + i < l.seq then (s.recordRead (max first l.oldest + i)).getD [] else [])) ∧
    (s.portAdmits src 0x0B06 = true → Runs (.spareList src) s fun t => OnlyReply s t ∧
      Replied s t src 0x0B06 (((s.sparesUsed.zip spareTotals).flatMap fun e => leBytes 2 e.1 ++ leBytes 2 e.2) ++
        ((List.range 16).map fun n => BitVec.ofNat 8 (s.cd n).map.ok) ++
        (List.range 16).map fun n => BitVec.ofNat 8 (bits (s.cd n).hbm.status 3 2))) ∧
    (∀ die index, Admin s src 0x0B07 →
      (die < 16 → s.dieIn die = true → index < 4 → (s.cd die).carries index = true → s.launchOn die = false → (s.cd die).spareFit = true →
        Runs (.spareApply src 0 die index) s fun t => RepliedLast s t src 0x0B07 [] ∧ bit (t.cd die).map.ok index = false ∧
          (t.tile die 4).mule = (s.tile die index).mule ∧ (t.tile die 4).mem = (s.tile die index).mem) ∧
      (s.svc.hubIn = true → index < 1024 → s.hubm.migrating = none → s.hubm.sparesUsed < 32 → s.hubm.gone index = false →
        Runs (.spareApply src 1 16 index) s fun t => Replied s t src 0x0B07 [] ∧
          t.hubm.migrating = some (index, 1024 + s.hubm.sparesUsed) ∧ t.hubm.map = s.hubm.map) ∧
      (die < 16 → s.dieIn die = true → index < 32 → s.running = false → (s.cd die).hbm.migrating = false → (s.cd die).hbm.sparesUsed < 2 →
        Runs (.spareApply src 2 die index) s fun t => Replied s t src 0x0B07 [] ∧ (t.cd die).hbm.migrating = true ∧
          (t.cd die).hbm.logicalSel = index)) ∧
    (∀ die tile n found, Admin s src 0x0B08 → die < 16 → s.dieIn die = true → tile < 5 → 0 < n → n < 256 → s.testBusy die tile = false →
      Runs (.selftest src die tile n found) s fun t => RepliedLast s t src 0x0B08 (leBytes 4 found.length) ∧
        (found = [] → OnlyReply { s with health := t.health } t) ∧
        ((s.tile die tile).arr.misCount ≤ 0xFFFF →
          (t.tile die tile).arr.misCount = min 0xFFFF ((s.tile die tile).arr.misCount + found.length))) ∧
    (∀ token a b, Admin s src 0x0B09 → a < b → s.health.quarantined = false → s.health.token = false →
      Runs (.quarantineGrant src s.node token a b) s fun t => Replied s t src 0x0B09 [] ∧
        t.health = { s.health with token := true, tokenId := token, tokenT := a, tokenX := b }) ∧
    (Admin s src 0x0B0A → s.health.quarantined = true → s.health.hard = false → Runs (.quarantineRelease src) s fun t =>
      RepliedLast s t src 0x0B0A [] ∧ t.health.quarantined = false ∧ t.links = s.links ∧
      ∀ l, l < 36 → (s.link l).st = .down → (s.link l).auto = true → (s.link l).enable = true → s.dieIn (linkDie l) = true →
        (t.lx l).trainAt = some s.aonNs) ∧
    (∀ limit margin, Admin s src 0x0B0B → limit ≠ 0 → Runs (.healthSet src limit margin) s fun t => Replied s t src 0x0B0B [] ∧
      t.health = { s.health with marginLimit := margin } ∧
      ∀ d p, d < 16 → p < 5 → s.dieIn d = true → (t.tile d p).arr = { (s.tile d p).arr with misLimit := limit }) ∧
    (∀ x, s.portAdmits src 0x0B0C = true → src.context = x → s.svc.hdIn = true → (s.cx x).st ≠ .free → Runs (.progressRead src x) s fun t =>
      let p := s.progNow x
      OnlyReply s t ∧ Replied s t src 0x0B0C (leBytes 8 p.pending ++ leBytes 8 p.useful ++ leBytes 8 p.lost ++ leBytes 8 p.moved)) ∧
    (∀ x action, Admin s src 0x0B0D → src.context = x → s.svc.hdIn = true → (s.cx x).st ≠ .free → action < 2 → (s.cx x).goodput = false →
      (s.cx x).st ≠ .running → Runs (.progressMark src x action) s fun t =>
        let p := s.progNow x
        Replied s t src 0x0B0D (leBytes 8 p.pending) ∧ (t.prog x).pending = 0 ∧ (t.prog x).moved = s.now ∧
        ((t.prog x).useful = if action = 0 then p.useful + p.pending else p.useful) ∧
        ((t.prog x).lost = if action = 0 then p.lost else p.lost + p.pending)) ∧
    (∀ note, Admin s src 0x0B0E → Runs (.ledgerNote src note) s fun t =>
      Replied s t src 0x0B0E (leBytes 4 (s.ledger.seq + s.ledger.pending.length)) ∧
      ∃ e, t.ledger.pending = s.ledger.pending ++ [(9, e)] ∧ e.data = padTo 32 note ∧ t.flash = s.flash) ∧
    (∀ die, s.portAdmits src 0x0B0F = true → die < 16 → Runs (.histRead src die) s fun t => OnlyReply s t ∧
      Replied s t src 0x0B0F ((List.range 40).flatMap fun i => leBytes 2 (Tab.get 0 s.health.hist (40 * die + i))))

/-- R36, R396, R397, R454, R460, R465 to R468, R471 to R473, R479, R483, R484, R486, R514, R516: power-on and a restart run the boot ROM and then
start the dies unless a contact holds them; a reset takes a die out of service with its state and its end brings it back when it passed;
commits replace the records one at a time, or change nothing; the claim window closes; the configuration commands read, stage and commit.
(Where the rules leave a choice the clauses follow log entries 47, 50, 54, 72 and 74, the model's choice.) -/
def Obligations.TheDeviceBootsAndCommits : Prop :=
  ∀ (s : State),
    (∀ b, s.boot.started = false → s.boot.romHold = false → s.pins.fspiReq = true →
      let pins := { s.pins with member := b.grp, modEn := b.modEn, present := true, fspiReq := b.fspiReq }
      (b.fspiReq = false → exec (.powerOn b) s = .next { s with pins := pins }) ∧
      (b.fspiReq = true → Runs (.powerOn b) s fun t => t.pins = pins ∧ t.sec.pufOk = b.pufOk ∧
        (t.boot.started = true ∨ t.boot.romHold = true) ∧
        (t.boot.started = true → (∃ l e, t.ledger.pending = l ++ [(1, e)]) ∧ (b.pufOk = false → t.svc.level ≤ 1) ∧
          (b.modEn = false → t.svc.level ≤ 1 ∧ t.pwr.st = .mgmt ∧ t.boot.held = true)))) ∧
    (∀ b, s.boot.started = true → s.anyLaunch = false → Runs (.gooseRestart b) s fun t => t.aonNs = s.aonNs ∧ t.pwr.trip = s.pwr.trip ∧
      (b.fspiReq = false → t.boot = {} ∧ (s.pwr.dark = false → t.svc.hdIn = false)) ∧
      (b.fspiReq = true → t.sec.pufOk = b.pufOk ∧ (t.boot.started = true ∨ t.boot.romHold = true))) ∧
    (∀ (d : DieId) byCtrl, d.val ≠ 24 → (s.dieU d).resetting = false → s.pwr.dark = false → Runs (.dieReset d byCtrl) s fun t =>
      (t.dieU d).resetting = true ∧ t.dieIn d = false ∧ (d.val < 16 → ∀ a, a / 2 ^ 37 = d.val → Mem.read t.hbm a = Mem.unlisted)) ∧
    (∀ (d : DieId), d.val ≠ 24 → (s.dieU d).resetting = true →
      (Runs (.dieResetComplete d true) s fun t => (t.dieU d).resetting = false ∧ (t.dieU d).resets = (s.dieU d).resets + 1 ∧
        (t.dieU d).resetTime = s.now ∧ t.dieIn d = (decide (16 ≤ d.val) || t.cdFit d)) ∧
      (Runs (.dieResetComplete d false) s fun t => (t.dieU d).resetting = false ∧ (t.dieU d).resets = (s.dieU d).resets + 1 ∧
        (t.dieU d).failed = true ∧ t.svc = s.svc)) ∧
    (∀ k rest readbackOk repairOk, s.cfg.queue = k :: rest → s.sec.pufOk = true →
      (readbackOk = true → (k.expected = none ∨ k.expected = some s.cfg.seq) → Runs (.configCommitRun readbackOk repairOk) s fun t =>
        t.cfg.queue = rest ∧ t.cfg.seq = s.cfg.seq + 1 ∧ t.cfg.commits = s.cfg.commits + 1 ∧ t.cfg.inUse = s.cfg.target ∧
        t.cfg.recs = k.recs.foldl recPut s.cfg.recs ∧
        (∀ src, k.src = some src → Replied s t src k.command (if k.command = 0x0203 then leBytes 8 (s.cfg.seq + 1) else k.reply)) ∧
        (∀ src, k.src = some src → k.closes = true → (t.sess src.ctrl).st = 0) ∧
        (∀ i data, k.recs = [{ type := 4, index := i, data := data }] → t.enrol i = Enrol.ofBytes data ∧ (t.sess i).st = 0) ∧
        (∀ data, k.recs = [{ type := 5, index := 0, data := data }] → t.sec.owned = true ∧ t.sec.ownerKey = data.take 388 ∧
          t.sec.ownerCount = fld data 388 8 ∧ t.sec.claimOpen = false)) ∧
      (readbackOk = false → (k.expected = none ∨ k.expected = some s.cfg.seq) → Runs (.configCommitRun readbackOk repairOk) s fun t =>
        t.cfg.queue = rest ∧ t.cfg.seq = s.cfg.seq ∧ t.cfg.recs = s.cfg.recs ∧ t.cfg.inUse = s.cfg.inUse ∧ t.sec = s.sec ∧
        ∀ src, k.src = some src → t.out = answer s src k.command .internal [] :: s.out) ∧
      (∀ n, k.expected = some n → n ≠ s.cfg.seq → Runs (.configCommitRun readbackOk repairOk) s fun t => t.cfg = { s.cfg with queue := rest } ∧
        t.flash = s.flash ∧ t.sec = s.sec ∧ ∀ src, k.src = some src → t.out = answer s src k.command .cfgSeq [] :: s.out)) ∧
    (1800000000000 ≤ s.aonNs → exec .claimWindowClose s = .next { s with sec := { s.sec with claimOpen := false } }) ∧
    (∀ (src : Src),
      (∀ type first, s.portAdmits src 0x0201 = true → recTypes.contains type = true →
        ((s.cfg.valid0 = true ∨ s.cfg.valid1 = true) → Runs (.cfgRead src 0 type first) s fun t => OnlyReply s t ∧ Replied s t src 0x0201
          (leBytes 8 s.cfg.seq ++ takeRecs 4000 (s.cfg.recs.filter fun r => decide (r.type = type ∧ first ≤ r.index)))) ∧
        (Runs (.cfgRead src 3 type first) s fun t => OnlyReply s t ∧ Replied s t src 0x0201
          (leBytes 8 s.cfg.seq ++ takeRecs 4000 ((s.staged src.ctrl).filter fun r => decide (r.type = type ∧ first ≤ r.index))))) ∧
      (∀ type index data n, Admin s src 0x0202 → setLen type = some (data.length, n) → setBad type data = false → index < n →
        let new := recPut (s.staged src.ctrl) { type := type, index := index, data := data }
        (new.flatMap CfgRec.bytes).length ≤ 65536 → Runs (.cfgSet src type index data data.length) s fun t =>
          Replied s t src 0x0202 (leBytes 4 (new.flatMap CfgRec.bytes).length) ∧ t.staged src.ctrl = new ∧ t.cfg.recs = s.cfg.recs ∧
          ∀ c, c ≠ src.ctrl.val → t.staged c = s.staged c) ∧
      (∀ expected, Admin s src 0x0203 → s.staged src.ctrl ≠ [] →
        let k : Commit := { src := some src, command := 0x0203, expected := if expected = 2 ^ 64 - 1 then none else some expected,
                            recs := s.staged src.ctrl }
        exec (.cfgCommit src expected) s = .next { s with cfg := { s.cfg with queue := s.cfg.queue ++ [k] } }) ∧
      (Admin s src 0x0204 → s.staged src.ctrl ≠ [] → Runs (.cfgDiscard src) s fun t => Replied s t src 0x0204 [] ∧
        t.staged src.ctrl = [] ∧ t.cfg.recs = s.cfg.recs) ∧
      (s.portAdmits src 0x0205 = true → Runs (.cfgStatus src) s fun t => OnlyReply s t ∧
        Replied s t src 0x0205 ((List.range 5).flatMap fun i => leBytes 8 (s.cfgReg i))))

/-- R459, R461, R464, R465, R476, R477, R480 to R482, R485: the security commands answer the certificate, a signed quote, the measurements, the
firmware slots and the factory blocks; MEAS_EXTEND extends register 7; FW_WRITE programs the slot that is not running and FW_ACTIVATE makes
it preferred with three tries; OWNER_SET and SVN_RAISE queue their commit.
(Where the rules leave a choice the clauses follow log entries 48, 51 and 72, the model's choice.) -/
def Obligations.SecurityCommandsAnswer : Prop :=
  ∀ (src : Src) (s : State),
    (∀ modulus exponent count flags rsv sig,
      let key := padTo 384 modulus ++ padTo 4 exponent
      s.portAdmits src 0x0C06 = true → beNat (padTo 4 exponent) = 65537 → (s.sec.owned = true → s.sec.ownerCount < count) →
      rsaVerify (if s.sec.owned then s.sec.ownerKey else key)
        (leBytes 8 s.sec.serial ++ key ++ leBytes 8 count ++ [BitVec.ofNat 8 flags]) sig = true →
      let gone : List CfgRec := if bit flags 0 then [] else ((List.range 8).filter fun c => (s.enrol c).st = 1).map fun c =>
        { type := 4, index := c, data := ({ s.enrol c with st := 2 } : Enrol).bytes }
      let k : Commit := { src := some src, command := 0x0C06, closes := !bit flags 0,
                          recs := { type := 5, index := 0, data := key ++ leBytes 8 count } :: gone }
      exec (.ownerSet src modulus exponent count flags rsv sig) s = .next { s with cfg := { s.cfg with queue := s.cfg.queue ++ [k] } }) ∧
    (s.portAdmits src 0x0C07 = true → s.sec.idOk = true → Runs (.idCert src) s fun t => OnlyReply s t ∧
      let n := fld s.factory 0x848 2
      Replied s t src 0x0C07 (leBytes 2 n ++ leBytes 6 0 ++ (s.factory.drop 0x850).take n ++ padTo 388 Config.identityKey)) ∧
    (∀ nonce mask, s.portAdmits src 0x0C08 = true → s.sec.idOk = true → mask % 256 ≠ 0 → Runs (.attestQuote src nonce mask) s fun t =>
      OnlyReply s t ∧ ∃ q, Replied s t src 0x0C08 (q ++ padTo 384 (Config.identitySign q)) ∧ q.take 4 = leBytes 4 0x51554F54 ∧
        (q.drop 8).take 32 = padTo 32 nonce ∧
        q.drop 96 = (List.range 8).flatMap fun r => if bit mask r then s.measBytes r else leBytes 40 0) ∧
    (s.portAdmits src 0x0C09 = true → Runs (.measRead src) s fun t => OnlyReply s t ∧
      Replied s t src 0x0C09 ((List.range 8).flatMap s.measBytes)) ∧
    (∀ digest, Admin s src 0x0C0A → Runs (.measExtend src digest) s fun t =>
      let m := sha256 (padTo 32 (Tab.get [] s.sec.meas 7) ++ padTo 32 digest)
      Replied s t src 0x0C0A (padTo 32 m) ∧ Tab.get [] t.sec.meas 7 = m ∧ Tab.get 0 t.sec.ext 7 = Tab.get 0 s.sec.ext 7 + 1 ∧
      ∀ k, k ≠ 7 → Tab.get [] t.sec.meas k = Tab.get [] s.sec.meas k ∧ Tab.get 0 t.sec.ext k = Tab.get 0 s.sec.ext k) ∧
    (∀ offset flags data, Admin s src 0x0C0B → offset + data.length ≤ fwSize → s.boot.activating = false →
      let a := fwAt (1 - s.boot.fwSlot) + offset
      (bit flags 0 = false → (∀ e ∈ s.boot.dirty, e.1 + e.2 ≤ offset ∨ offset + data.length ≤ e.1) →
        Runs (.fwWrite src offset flags data) s fun t => Replied s t src 0x0C0B [] ∧
          t.flashN a data.length = List.zipWith (· &&& ·) (s.flashN a data.length) data ∧
          ∀ o, (o < a ∨ a + data.length ≤ o) → Mem.read t.flash o = Mem.read s.flash o) ∧
      (bit flags 0 = true → Runs (.fwWrite src offset flags data) s fun t => Replied s t src 0x0C0B [] ∧ t.flashN a data.length = data ∧
        (s.dir.preferred ≠ 1 - s.boot.fwSlot → ∀ o, (o < fwAt (1 - s.boot.fwSlot) ∨ fwAt (1 - s.boot.fwSlot) + fwSize ≤ o) →
          Mem.read t.flash o = Mem.read s.flash o))) ∧
    (∀ flags, Admin s src 0x0C0C → s.bundleErr (1 - s.boot.fwSlot) = .ok → (bit flags 0 = true → s.anyLaunch = false) →
      Runs (.fwActivate src flags) s fun t =>
        let i := 1 - s.boot.fwSlot
        Replied s t src 0x0C0C (((s.flashN (fwAt i) 16).drop 8).take 8) ∧ t.boot = { s.boot with activating := bit flags 0 } ∧
        (s.dir.dseq + 1 < 2 ^ 32 →
          t.dir = { dseq := s.dir.dseq + 1, preferred := i, tries := 3, confirmed := setBit s.dir.confirmed i false })) ∧
    (s.portAdmits src 0x0C0D = true → Runs (.fwStatus src) s fun t => OnlyReply s t ∧
      Replied s t src 0x0C0D (s.flashN 0 64 ++ s.flashN 0x10000 64 ++ s.flashN (fwAt 0) 32 ++ s.flashN (fwAt 1) 32)) ∧
    (∀ block, s.portAdmits src 0x0C0E = true → block < 2 → (if block = 0 then s.cfg.facA else s.cfg.facB) = true →
      Runs (.factoryRead src block) s fun t => OnlyReply s t ∧
        let b := s.flashN (0xA0000 + 0x10000 * block) 0x16B0
        Replied s t src 0x0C0E (b.take 0x20 ++ b.drop 0x1050)) ∧
    (∀ svn keys, Admin s src 0x0C0F → s.sec.svnMin ≤ svn → svn ≤ s.sec.svn → bit keys s.boot.keyIndex = false →
      let r : CfgRec := { type := 0xB, index := 0, data := leBytes 4 svn ++ leBytes 1 (s.sec.revoked ||| keys % 16) }
      exec (.svnRaise src svn keys) s = .next { s with cfg := { s.cfg with
        queue := s.cfg.queue ++ [{ src := some src, command := 0x0C0F, recs := [r] }] } })

/-- R26, R346, R489 to R491, R493 to R497, R499, R500, R503 to R505, R512, R514, R515, R517: losing the reference, a trip, a power fault and the
loss of power take the dies off; the insertion level steps with the temperature and gates a Mule's time; a power state takes effect when its
transition completes and answers the one before; the contacts, the stages, the SMBus and the test port do what each is for; the power
commands answer and set.
(Where the rules leave a choice the clauses follow log entries 54 and 55, the model's choice.) -/
def Obligations.PowerEventsAndCommands : Prop :=
  ∀ (s : State),
    (s.pwr.refLost = false → s.pwr.dark = false → Runs .refclkLoss s fun t => t.pwr.refLost = true ∧ t.pwr.dark = true ∧ t.svc.hdIn = false ∧
      t.svc.hubIn = false ∧ t.svc.cdIn = 0 ∧ t.svc.ldIn = 0 ∧ t.ft.now = s.ft.now ∧
      (s.ft.st = .locked → s.ft.ctlRoot = false → t.ft.st = .holdover ∧ t.ft.holdFrom = s.now)) ∧
    (exec .refclkReturn s = .next { s with pwr := { s.pwr with refLost := false } }) ∧
    (∀ vin iin pin energy sustained, (sustained = false ∨ powerFault vin iin = 0) → Runs (.powerSample vin iin pin energy sustained) s fun t =>
      t = { s with pwr := { s.pwr with vin := vin, iin := iin, pin := pin, energy := s.pwr.energy + energy } }) ∧
    (∀ vin iin pin energy, powerFault vin iin ≠ 0 → s.pwr.trip = false → s.pwr.dark = false → Runs (.powerSample vin iin pin energy true) s fun t =>
      t.pwr.trip = true ∧ t.pwr.tripCause = powerFault vin iin ∧ t.pwr.st = .mgmt ∧ t.pwr.dark = true) ∧
    (∀ (cause : Fin 5) (die : DieId), cause.val ≠ 0 → s.pwr.trip = false → s.pwr.dark = false → Runs (.trip cause die) s fun t =>
      t.pwr.trip = true ∧ t.pwr.tripCause = cause.val ∧ (cause.val = 1 → t.pwr.tripDie = die.val) ∧ t.pwr.tripAt = s.aonNs ∧ t.pwr.st = .mgmt ∧
      t.pwr.dark = true ∧ t.svc.hdIn = false ∧ t.svc.cdIn = 0 ∧
      (∃ l e, t.mirror.queue = l ++ [e]) ∧ ∃ l e, t.ledger.pending = l ++ [(7, e)]) ∧
    (Runs .inputPowerLoss s fun t => t.flash = s.flash ∧ t.cds = [] ∧ t.hbm = [] ∧ t.ctx = {} ∧ t.boot.started = false ∧ t.aonNs = 0 ∧
      t.svc.hdIn = false) ∧
    (∀ n, n < 16 → s.dieIn n = true →
      let l := (s.cd n).level
      let temp := (s.mon n).temp
      Runs .insertionLevelStep s fun t => (t.cd n).level =
        if 16 * (s.pwr.insertTemp : Int) + 32 ≤ temp ∧ l < 4 then l + 1 else if temp < 16 * (s.pwr.insertTemp : Int) - 32 ∧ 0 < l then l - 1
        else l) ∧
    (∀ b st src, s.pwr.moving = some (st, src) → (st = .mgmt ∨ s.pwr.refLost = false) → Runs (.powerTransitionComplete b) s fun t =>
      t.pwr.st = st ∧ t.pwr.moving = none ∧ (st = .mgmt → t.svc.level ≤ 1 ∧ t.pwr.dark = true) ∧ (st = .parked → t.svc.level ≤ 2) ∧
      ∀ c, src = some c → Answered s t c 0x0E03 [BitVec.ofNat 8 s.pwr.st.code]) ∧
    (∀ answers, s.pwr.answered.Nodup → ∀ a l, a ∈ s.pwr.answered → (answers.find? fun q : PmbAnswer => q.stage.val == a).bind (·.words) = some l →
      ∀ c, c ∈ [Instr.pmbusPoll answers, Instr.pmbAlert answers] → Runs c s fun t =>
        Tab.get [] t.pwr.stages a = (List.range 5).map (fun i => l.getD i 0 % 2 ^ 16) ∧ Tab.get 0 t.pwr.fails a = 0 ∧
        (a ∈ t.pwr.faulty ↔ l.getD 4 0 % 2 ^ 16 ≠ 0)) ∧
    (s.boot.held = true → s.pwr.trip = false → s.pwr.moving = none → exec .modEnRise s = .next { s with
      pins := { s.pins with modEn := true }, boot := { s.boot with held := false }, pwr := { s.pwr with moving := some (.run, none) } }) ∧
    (s.pwr.st ≠ .mgmt → s.pwr.dark = false → Runs .modEnFall s fun t => t.pins = { s.pins with modEn := false } ∧ t.pwr.st = .mgmt ∧
      t.pwr.dark = true ∧ t.svc.level ≤ 1 ∧ t.svc.hdIn = false) ∧
    (∀ cmd, 1000000 ≤ s.aonNs →
      exec (.smbusBlockRead cmd) s = .next { s with out := .smbus ((s.smbusWord cmd).map (leBytes 8)) :: s.out }) ∧
    (s.pins.smbAlert = true → exec .smbusAlertResponse s = .next { s with
      pins := { s.pins with smbAlert := false }, out := .smbus (some [BitVec.ofNat 8 (0x60 + s.pins.member)]) :: s.out }) ∧
    (Runs (.testPortInstruction .extest) s fun t => t.pins = { s.pins with tapIr := if s.pins.modEn then .bypass else .extest }) ∧
    (Runs (.testPortInstruction .bypass) s fun t => t.pins = { s.pins with tapIr := .bypass } ∧ t.out = .tap .bypass (some 0) :: s.out) ∧
    (∀ (src : Src),
      (∀ die, s.portAdmits src 0x0E01 = true → die < 25 → Runs (.clkStatus src die) s fun t => OnlyReply s t ∧
        Replied s t src 0x0E01 (s.sleepBytes die)) ∧
      (s.portAdmits src 0x0E02 = true → Runs (.pwrStatus src) s fun t => OnlyReply s t ∧
        Replied s t src 0x0E02 ((List.range 9).flatMap fun i => leBytes 8 (s.pwrReg i))) ∧
      (∀ state, Admin s src 0x0E03 → state < 3 → s.anyLaunch = false → s.pwr.moving = none →
        (state ≠ 2 → s.pwr.trip = false ∧ s.pins.modEn = true ∧ s.pwr.refLost = false) → exec (.powerStateSet src state) s =
          .next { s with pwr := { s.pwr with moving := some ([PwrSt.run, .parked, .mgmt].getD state .mgmt, some src) } }) ∧
      (∀ us, Admin s src 0x0E04 → s.anyLaunch = false → Runs (.idleTimerSet src us) s fun t =>
        Replied s t src 0x0E04 (leBytes 2 (max 1 (min 1000 us))) ∧ t.pwr = { s.pwr with idle := max 1 (min 1000 us) }) ∧
      (∀ die kind index state u, Admin s src 0x0E05 → sleepUnitOf die kind index = some u → s.dieIn die = true → 0 < state → state < 3 →
        let st : Sleep := if state = 1 then .pllOff else .retained
        sleepSupports u st = true → s.unitWorks u = false → (if die < 16 then s.launchOn die else s.anyLaunch) = false →
        Runs (.unitSleep src die kind index state) s fun t => Replied s t src 0x0E05 [] ∧
          t.sleepOf u = { s.sleepOf u with st := st, waking := false }) ∧
      (∀ temp, Admin s src 0x0E06 → Runs (.thermSet src temp) s fun t =>
        Replied s t src 0x0E06 [BitVec.ofNat 8 (max 85 (min 100 temp))] ∧ t.pwr = { s.pwr with insertTemp := max 85 (min 100 temp) }) ∧
      (Admin s src 0x0E07 → s.pwr.trip = true → s.pwr.tripAt + 60000000000 ≤ s.aonNs → Runs (.tripClear src) s fun t =>
        Replied s t src 0x0E07 [] ∧ t.pwr = { s.pwr with trip := false }) ∧
      (∀ addr cmd len b, s.portAdmits src 0x0E08 = true → 0x40 ≤ addr → addr ≤ 0x47 → cmd < 256 → 0 < len → len < 3 → b.length = len →
        Runs (.pmbusRead src addr cmd len (some b)) s fun t => OnlyReply s t ∧ Replied s t src 0x0E08 b))

/-- R18, R34, R77, R113, R115, R191, R216, R248, R249, R339, R370, R394, R395, R421, R456, R486, R505: right after reset the registers the spec gives
a reset value read it in the state address space, the flash and the HBM list nothing, no context, binding, session or schedule is live, and
no command waits. (Memory bytes that nothing has written read as 0 by log entry 3, the model's choice.) -/
def Obligations.ResetLeavesTheStatedValues : Prop :=
  let s := State.reset
  (∀ d p, d < 16 → p < 5 → s.unitWord d (8 + p) 0x00 = 0x3F000 ∧ s.unitWord d (8 + p) 0x08 = 0 ∧ s.unitWord d (8 + p) 0x38 = 0 ∧
    s.unitWord d (0x10 + p) 0x00 = 0x48000 ∧ s.unitWord d (0x10 + p) 0x20 = 1 ∧ s.unitWord d (0x10 + p) 0x28 = 0x30000 ∧
    s.unitWord d (0x18 + p) 0x00 = 0) ∧
  (∀ d, d < 16 → s.unitWord d 0 0x40 = 0b10011111011010001000 ∧ s.unitWord d 0 0x48 = 0x80 ∧ s.unitWord d 0x20 0x18 = 0x64 ∧
    s.unitWord d 0x25 0x08 = 0x40) ∧
  (s.unitWord 16 1 0x08 = 0x00100300 ∧ s.unitWord 16 1 0x10 = 0x9797 ∧ s.unitWord 16 1 0x18 = 1 ∧ s.unitWord 16 2 0x00 = 0x20 ∧
    s.unitWord 16 2 0x20 = 0x40 ∧ s.unitWord 16 3 0x08 = 0x555015540 ∧ s.unitWord 16 4 0x08 = 0x2710) ∧
  (∀ m i, m < 6 → i < 6 → s.unitWord (17 + m) i 0x08 = 0x3E89 ∧ s.unitWord (17 + m) i 0x20 = 0x876543210 ∧
    s.unitWord (17 + m) i 0x60 = 0xF4240) ∧
  (s.unitWord 23 2 0x08 = 0x7E0 ∧ s.unitWord 23 2 0x10 = 0x42 ∧ s.unitWord 23 5 0x20 = 0x7D0 ∧ s.unitWord 23 0x20 0x08 = 0x64) ∧
  (∀ k, k < 8 → s.unitWord 23 (0x10 + k) 0x08 = 0x6 ∧ s.unitWord 23 (0x10 + k) 0x18 = 0x200030008) ∧
  (s.unitWord 24 0 0x100 = 0 ∧ s.unitWord 24 0 0x220 = 0x64 ∧ s.unitWord 24 0 0x238 = 0x4 ∧ s.unitWord 24 2 0x00 = 0x3E8 ∧
    s.unitWord 24 2 0x30 = 0xF ∧ s.unitWord 24 3 0x18 = 0xFFFFFFFFFFFFFFFF) ∧
  s.pending = [] ∧ s.memOk = true ∧ s.svc.level = 0 ∧ s.boot.started = false ∧ s.sec.owned = false ∧
  (∀ x, (s.cx x).st = .free) ∧ (∀ b, (s.bind b).st = .free) ∧ ∀ c, (s.sess c).st = 0

/-- R458, R465, R469, R473, R474 and the model's memory (log entry 3): whatever a command programs into the flash or erases there, its list of bytes
keeps its canonical form, so that equal contents are equal data: addresses strictly rising, no erased byte listed. -/
def Obligations.EveryStepKeepsTheFlashCanonical : Prop :=
  ∀ (s t : State), Memory.wf s.flash = true → step s = .next t → Memory.wf t.flash = true

/-- R76, R405: every command has an effect on every state, be it the answer of its refusal, and it leaves the queue of waiting commands as it
is; only the passing of time needs no command.
(Where the rules leave a choice the clauses follow log entry 2, the model's choice.) -/
def Obligations.EveryCommandAnswersAndLeavesTheQueue : Prop :=
  ∀ (c : Instr) (s : State), ∃ t, exec c s = .next t ∧ t.pending = s.pending
end

