-- ==== Sys2Proof/Laws/Tab.lean ====
section
/-! SUPPORT. Laws of sparse tables and byte memories: what is read after a change, and that every change keeps the canonical form. -/

namespace Sys2Proof

theorem tab_find_del {α : Type} (t : Tab α) (k j : Nat) :
    Tab.find? (Tab.del t k) j = if j = k then none else Tab.find? t j := by
  induction t with
  | nil => simp [Tab.del, Tab.find?]
  | cons e t ih =>
    obtain ⟨i, v⟩ := e
    simp only [Tab.del] at ih
    by_cases h : i = k
    · subst h
      simp only [Tab.del, ne_eq, decide_not, decide_true, Bool.not_true, Bool.false_eq_true, not_false_eq_true, List.filter_cons_of_neg,
        Tab.find?]
      simp only [ne_eq, decide_not] at ih
      rw [ih]
      by_cases hj : j = i
      · simp [hj]
      · have : ¬ i = j := fun e => hj e.symm
        simp [hj, this]
    · have hf : List.filter (fun e : Nat × α => decide (e.1 ≠ k)) ((i, v) :: t) =
          (i, v) :: List.filter (fun e : Nat × α => decide (e.1 ≠ k)) t := by simp [h]
      simp only [Tab.del, hf, Tab.find?, ih]
      by_cases hj : i = j
      · subst hj; simp [h]
      · simp [hj]

theorem tab_find_ins {α : Type} (t : Tab α) (k j : Nat) (v : α) (h : Tab.find? t k = none) :
    Tab.find? (Tab.ins t k v) j = if j = k then some v else Tab.find? t j := by
  induction t with
  | nil =>
    simp only [Tab.ins, Tab.find?]
    by_cases hj : k = j
    · simp [hj]
    · have : ¬ j = k := fun e => hj e.symm
      simp [hj, this]
  | cons e t ih =>
    obtain ⟨i, w⟩ := e
    have hik : i ≠ k := by intro e; simp [Tab.find?, e] at h
    have ht : Tab.find? t k = none := by simpa [Tab.find?, hik] using h
    simp only [Tab.ins]
    split
    · simp only [Tab.find?]
      by_cases hj : k = j
      · simp [hj]
      · have : ¬ j = k := fun e => hj e.symm
        simp [hj, this]
    · simp only [Tab.find?, ih ht]
      by_cases hj : i = j
      · subst hj; simp [hik]
      · simp [hj]

@[simp] theorem tab_find_put {α : Type} (t : Tab α) (k j : Nat) (v : α) :
    Tab.find? (Tab.put t k v) j = if j = k then some v else Tab.find? t j := by
  have h : Tab.find? (Tab.del t k) k = none := by simp [tab_find_del]
  rw [Tab.put, tab_find_ins _ _ _ _ h, tab_find_del]
  by_cases hj : j = k <;> simp [hj]

@[simp] theorem tab_get_set {α : Type} [DecidableEq α] (d : α) (t : Tab α) (k j : Nat) (v : α) :
    Tab.get d (Tab.set d t k v) j = if j = k then v else Tab.get d t j := by
  unfold Tab.set Tab.get
  split
  · rename_i h
    rw [tab_find_del]
    by_cases hj : j = k <;> simp [hj, h]
  · rw [tab_find_put]
    by_cases hj : j = k <;> simp [hj]

@[simp] theorem tab_get_modify {α : Type} [DecidableEq α] (d : α) (t : Tab α) (k j : Nat) (f : α → α) :
    Tab.get d (Tab.modify d t k f) j = if j = k then f (Tab.get d t k) else Tab.get d t j := by
  simp [Tab.modify]

@[simp] theorem tab_get_nil {α : Type} (d : α) (k : Nat) : Tab.get d ([] : Tab α) k = d := rfl

theorem tab_get_foldl_set {α : Type} [DecidableEq α] (d : α) (g : Nat → α) (l r : Tab α) (k : Nat) :
    Tab.get d (l.foldl (fun r e => Tab.set d r e.1 (g e.1)) r) k = if l.any (fun e => e.1 == k) then g k else Tab.get d r k := by
  induction l generalizing r with
  | nil => simp
  | cons e l ih =>
    rw [List.foldl_cons, ih, tab_get_set]
    by_cases h : e.1 = k
    · subst h; simp
    · have : ¬ k = e.1 := fun x => h x.symm
      have hb : (e.1 == k) = false := by simpa using h
      rw [List.any_cons, hb, Bool.false_or, if_neg this]

theorem tab_find_none {α : Type} (t : Tab α) (k : Nat) (h : t.any (fun e => e.1 == k) = false) : Tab.find? t k = none := by
  induction t with
  | nil => rfl
  | cons e t ih =>
    simp only [List.any_cons, Bool.or_eq_false_iff, beq_eq_false_iff_ne] at h
    obtain ⟨i, v⟩ := e
    simp only [Tab.find?, h.1, if_false]
    exact ih h.2

/-- Reading a table whose every entry was changed, with an `f` that leaves the unlisted value alone. -/
theorem tab_get_remap {α : Type} [DecidableEq α] (d : α) (f : Nat → α → α) (t : Tab α) (k : Nat) (hd : f k d = d) :
    Tab.get d (Tab.remap d f t) k = f k (Tab.get d t k) := by
  rw [Tab.remap, tab_get_foldl_set d (fun k => f k (Tab.get d t k)) t t k]
  cases h : t.any (fun e => e.1 == k)
  · simp [Tab.get, tab_find_none t k h, hd]
  · simp

/-- The canonical form as a proposition. -/
theorem tab_wf_iff {α : Type} [DecidableEq α] (d : α) (t : Tab α) :
    Tab.wf d t = true ↔ (t.Pairwise fun a b => a.1 < b.1) ∧ ∀ e ∈ t, e.2 ≠ d := by
  simp [Tab.wf, List.all_eq_true]

theorem tab_wf_nil {α : Type} [DecidableEq α] (d : α) : Tab.wf d ([] : Tab α) = true := by simp [Tab.wf]

theorem tab_wf_filter {α : Type} [DecidableEq α] (d : α) (t : Tab α) (p : Nat × α → Bool) (h : Tab.wf d t = true) :
    Tab.wf d (t.filter p) = true := by
  rw [tab_wf_iff] at *
  exact ⟨h.1.filter p, fun e he => h.2 e (List.mem_of_mem_filter he)⟩

theorem tab_wf_del {α : Type} [DecidableEq α] (d : α) (t : Tab α) (k : Nat) (h : Tab.wf d t = true) :
    Tab.wf d (Tab.del t k) = true := tab_wf_filter d t _ h

theorem tab_mem_ins {α : Type} (t : Tab α) (k : Nat) (v : α) (e : Nat × α) :
    e ∈ Tab.ins t k v ↔ e = (k, v) ∨ e ∈ t := by
  induction t with
  | nil => simp [Tab.ins]
  | cons a t ih =>
    obtain ⟨i, w⟩ := a
    simp only [Tab.ins]
    split
    · simp
    · simp only [List.mem_cons, ih]; tauto

theorem tab_pairwise_ins {α : Type} (t : Tab α) (k : Nat) (v : α) (h : t.Pairwise fun a b => a.1 < b.1) (hk : ∀ e ∈ t, e.1 ≠ k) :
    (Tab.ins t k v).Pairwise fun a b => a.1 < b.1 := by
  induction t with
  | nil => simp [Tab.ins]
  | cons a t ih =>
    obtain ⟨i, w⟩ := a
    rw [List.pairwise_cons] at h
    have hi : i ≠ k := hk (i, w) (by simp)
    simp only [Tab.ins]
    split
    · rename_i hlt
      refine List.pairwise_cons.2 ⟨?_, List.pairwise_cons.2 h⟩
      intro b hb
      rcases List.mem_cons.1 hb with rfl | hb
      · exact hlt
      · exact lt_trans hlt (h.1 b hb)
    · rename_i hlt
      refine List.pairwise_cons.2 ⟨?_, ih h.2 fun e he => hk e (by simp [he])⟩
      intro b hb
      rcases (tab_mem_ins t k v b).1 hb with rfl | hb
      · simp only; omega
      · exact h.1 b hb

theorem tab_wf_set {α : Type} [DecidableEq α] (d : α) (t : Tab α) (k : Nat) (v : α) (h : Tab.wf d t = true) :
    Tab.wf d (Tab.set d t k v) = true := by
  unfold Tab.set
  split
  · exact tab_wf_del d t k h
  · rename_i hv
    have h' := tab_wf_del d t k h
    rw [tab_wf_iff] at *
    refine ⟨tab_pairwise_ins _ k v h'.1 ?_, ?_⟩
    · intro e he
      have := List.of_mem_filter he
      simpa using this
    · intro e he
      rcases (tab_mem_ins _ k v e).1 he with rfl | he
      · exact hv
      · exact h'.2 e he

theorem tab_wf_modify {α : Type} [DecidableEq α] (d : α) (t : Tab α) (k : Nat) (f : α → α) (h : Tab.wf d t = true) :
    Tab.wf d (Tab.modify d t k f) = true := tab_wf_set d t k _ h

theorem tab_wf_foldl_set {α : Type} [DecidableEq α] (d : α) (g : Nat → α) (l r : Tab α) (h : Tab.wf d r = true) :
    Tab.wf d (l.foldl (fun r e => Tab.set d r e.1 (g e.1)) r) = true := by
  induction l generalizing r with
  | nil => exact h
  | cons e l ih => exact ih _ (tab_wf_set _ _ _ _ h)

theorem tab_wf_remap {α : Type} [DecidableEq α] (d : α) (f : Nat → α → α) (t : Tab α) (h : Tab.wf d t = true) :
    Tab.wf d (Tab.remap d f t) = true := tab_wf_foldl_set d (fun k => f k (Tab.get d t k)) t t h

/-- A byte read after a byte is written. -/
@[simp] theorem mem_read_write (m : Mem) (a c : Nat) (b : Byte) :
    Mem.read (Mem.write m a b) c = if c = a then b else Mem.read m c := by
  simp [Mem.read, Mem.write]

theorem mem_wf_write (m : Mem) (a : Nat) (b : Byte) (h : Memory.wf m = true) : Memory.wf (Mem.write m a b) = true :=
  tab_wf_set _ _ _ _ h

theorem mem_wf_writeN (m : Mem) (a : Nat) (bs : List Byte) (h : Memory.wf m = true) : Memory.wf (Mem.writeN m a bs) = true := by
  induction bs generalizing m a with
  | nil => exact h
  | cons b bs ih => exact ih _ _ (mem_wf_write m a b h)

theorem mem_wf_writeLe (m : Mem) (a n x : Nat) (h : Memory.wf m = true) : Memory.wf (Mem.writeLe m a n x) = true :=
  mem_wf_writeN m a _ h

theorem mem_wf_filter (m : Mem) (p : Nat × Byte → Bool) (h : Memory.wf m = true) : Memory.wf (m.filter p) = true :=
  tab_wf_filter _ m p h

/-- A write of a run of bytes leaves every byte outside the run. -/
theorem mem_read_writeN_out (m : Mem) (a c : Nat) (bs : List Byte) (h : c < a ∨ a + bs.length ≤ c) :
    Mem.read (Mem.writeN m a bs) c = Mem.read m c := by
  induction bs generalizing m a with
  | nil => rfl
  | cons b bs ih =>
    simp only [List.length_cons] at h
    rw [Mem.writeN, ih _ _ (by omega), mem_read_write]
    simp [show c ≠ a by omega]

/-- The i-th byte of a run after it is written. -/
theorem mem_read_writeN_in (m : Mem) (a i : Nat) (bs : List Byte) (h : i < bs.length) :
    Mem.read (Mem.writeN m a bs) (a + i) = bs[i] := by
  induction bs generalizing m a i with
  | nil => simp at h
  | cons b bs ih =>
    cases i with
    | zero =>
      rw [Mem.writeN, mem_read_writeN_out _ _ _ _ (by simp)]
      simp
    | succ i =>
      have := ih (Mem.write m a b) (a + 1) i (by simpa using h)
      rw [Mem.writeN, show a + (i + 1) = a + 1 + i by omega, this]
      simp

@[simp] theorem leBytes_length (n x : Nat) : (leBytes n x).length = n := by
  induction n generalizing x with
  | zero => rfl
  | succ n ih => simp [leBytes, ih]

@[simp] theorem readN_length (m : Mem) (a n : Nat) : (Mem.readN m a n).length = n := by
  induction n generalizing a with
  | zero => rfl
  | succ n ih => simp [Mem.readN, ih]

/-- What was written as a run is read back as it. -/
theorem mem_readN_writeN (m : Mem) (a : Nat) (bs : List Byte) : Mem.readN (Mem.writeN m a bs) a bs.length = bs := by
  induction bs generalizing m a with
  | nil => rfl
  | cons b bs ih =>
    simp only [List.length_cons, Mem.readN, Mem.writeN]
    rw [ih, mem_read_writeN_out _ _ _ _ (by simp)]
    simp

/-- The value of its little-endian bytes. -/
theorem leNat_leBytes (n x : Nat) (h : x < 256 ^ n) : leNat (leBytes n x) = x := by
  induction n generalizing x with
  | zero => simp at h; simp [leBytes, leNat, h]
  | succ n ih =>
    have h2 : x / 256 < 256 ^ n := by
      rw [Nat.div_lt_iff_lt_mul (by norm_num)]; rw [pow_succ] at h; exact h
    simp only [leBytes, leNat, ih _ h2]
    have : (BitVec.ofNat 8 x).toNat = x % 256 := by simp
    rw [this]; omega

end Sys2Proof
end

