-- ==== Sys2Proof/Laws/State.lean ====
section
/-! SUPPORT. Laws of the state: what each named update changes, and that it leaves every other field as it was. -/

namespace Sys2Proof.Machine.State

variable (s : State)

/-! What an update leaves alone. -/

@[simp] theorem modCd_pending (n : Nat) (f : ComputeDie → ComputeDie) : (s.modCd n f).pending = s.pending := rfl
@[simp] theorem modCd_out (n : Nat) (f : ComputeDie → ComputeDie) : (s.modCd n f).out = s.out := rfl
@[simp] theorem modCd_free (n : Nat) (f : ComputeDie → ComputeDie) : (s.modCd n f).free = s.free := rfl
@[simp] theorem modCd_aonNs (n : Nat) (f : ComputeDie → ComputeDie) : (s.modCd n f).aonNs = s.aonNs := rfl
@[simp] theorem modCd_hbm (n : Nat) (f : ComputeDie → ComputeDie) : (s.modCd n f).hbm = s.hbm := rfl
@[simp] theorem modCd_poison (n : Nat) (f : ComputeDie → ComputeDie) : (s.modCd n f).poison = s.poison := rfl
@[simp] theorem modCd_hub (n : Nat) (f : ComputeDie → ComputeDie) : (s.modCd n f).hub = s.hub := rfl
@[simp] theorem modCd_hubm (n : Nat) (f : ComputeDie → ComputeDie) : (s.modCd n f).hubm = s.hubm := rfl
@[simp] theorem modCd_ox (n : Nat) (f : ComputeDie → ComputeDie) : (s.modCd n f).ox = s.ox := rfl
@[simp] theorem modCd_rt (n : Nat) (f : ComputeDie → ComputeDie) : (s.modCd n f).rt = s.rt := rfl
@[simp] theorem modCd_links (n : Nat) (f : ComputeDie → ComputeDie) : (s.modCd n f).links = s.links := rfl
@[simp] theorem modCd_linkx (n : Nat) (f : ComputeDie → ComputeDie) : (s.modCd n f).linkx = s.linkx := rfl
@[simp] theorem modCd_ft (n : Nat) (f : ComputeDie → ComputeDie) : (s.modCd n f).ft = s.ft := rfl
@[simp] theorem modCd_sq (n : Nat) (f : ComputeDie → ComputeDie) : (s.modCd n f).sq = s.sq := rfl
@[simp] theorem modCd_eths (n : Nat) (f : ComputeDie → ComputeDie) : (s.modCd n f).eths = s.eths := rfl
@[simp] theorem modCd_xp (n : Nat) (f : ComputeDie → ComputeDie) : (s.modCd n f).xp = s.xp := rfl
@[simp] theorem modCd_mbx (n : Nat) (f : ComputeDie → ComputeDie) : (s.modCd n f).mbx = s.mbx := rfl
@[simp] theorem modCd_ctx (n : Nat) (f : ComputeDie → ComputeDie) : (s.modCd n f).ctx = s.ctx := rfl
@[simp] theorem modCd_dis (n : Nat) (f : ComputeDie → ComputeDie) : (s.modCd n f).dis = s.dis := rfl
@[simp] theorem modCd_log (n : Nat) (f : ComputeDie → ComputeDie) : (s.modCd n f).log = s.log := rfl
@[simp] theorem modCd_mirror (n : Nat) (f : ComputeDie → ComputeDie) : (s.modCd n f).mirror = s.mirror := rfl
@[simp] theorem modCd_svc (n : Nat) (f : ComputeDie → ComputeDie) : (s.modCd n f).svc = s.svc := rfl
@[simp] theorem modCd_dies (n : Nat) (f : ComputeDie → ComputeDie) : (s.modCd n f).dies = s.dies := rfl
@[simp] theorem modCd_health (n : Nat) (f : ComputeDie → ComputeDie) : (s.modCd n f).health = s.health := rfl
@[simp] theorem modCd_ledger (n : Nat) (f : ComputeDie → ComputeDie) : (s.modCd n f).ledger = s.ledger := rfl
@[simp] theorem modCd_cfg (n : Nat) (f : ComputeDie → ComputeDie) : (s.modCd n f).cfg = s.cfg := rfl
@[simp] theorem modCd_boot (n : Nat) (f : ComputeDie → ComputeDie) : (s.modCd n f).boot = s.boot := rfl
@[simp] theorem modCd_sec (n : Nat) (f : ComputeDie → ComputeDie) : (s.modCd n f).sec = s.sec := rfl
@[simp] theorem modCd_pwr (n : Nat) (f : ComputeDie → ComputeDie) : (s.modCd n f).pwr = s.pwr := rfl
@[simp] theorem modCd_pins (n : Nat) (f : ComputeDie → ComputeDie) : (s.modCd n f).pins = s.pins := rfl
@[simp] theorem modCd_flash (n : Nat) (f : ComputeDie → ComputeDie) : (s.modCd n f).flash = s.flash := rfl

@[simp] theorem modTile_pending (n p : Nat) (f : Tile → Tile) : (s.modTile n p f).pending = s.pending := rfl
@[simp] theorem modTile_out (n p : Nat) (f : Tile → Tile) : (s.modTile n p f).out = s.out := rfl
@[simp] theorem modTile_free (n p : Nat) (f : Tile → Tile) : (s.modTile n p f).free = s.free := rfl
@[simp] theorem modTile_aonNs (n p : Nat) (f : Tile → Tile) : (s.modTile n p f).aonNs = s.aonNs := rfl
@[simp] theorem modTile_hbm (n p : Nat) (f : Tile → Tile) : (s.modTile n p f).hbm = s.hbm := rfl
@[simp] theorem modTile_poison (n p : Nat) (f : Tile → Tile) : (s.modTile n p f).poison = s.poison := rfl
@[simp] theorem modTile_hub (n p : Nat) (f : Tile → Tile) : (s.modTile n p f).hub = s.hub := rfl
@[simp] theorem modTile_hubm (n p : Nat) (f : Tile → Tile) : (s.modTile n p f).hubm = s.hubm := rfl
@[simp] theorem modTile_ox (n p : Nat) (f : Tile → Tile) : (s.modTile n p f).ox = s.ox := rfl
@[simp] theorem modTile_rt (n p : Nat) (f : Tile → Tile) : (s.modTile n p f).rt = s.rt := rfl
@[simp] theorem modTile_links (n p : Nat) (f : Tile → Tile) : (s.modTile n p f).links = s.links := rfl
@[simp] theorem modTile_linkx (n p : Nat) (f : Tile → Tile) : (s.modTile n p f).linkx = s.linkx := rfl
@[simp] theorem modTile_ft (n p : Nat) (f : Tile → Tile) : (s.modTile n p f).ft = s.ft := rfl
@[simp] theorem modTile_sq (n p : Nat) (f : Tile → Tile) : (s.modTile n p f).sq = s.sq := rfl
@[simp] theorem modTile_eths (n p : Nat) (f : Tile → Tile) : (s.modTile n p f).eths = s.eths := rfl
@[simp] theorem modTile_xp (n p : Nat) (f : Tile → Tile) : (s.modTile n p f).xp = s.xp := rfl
@[simp] theorem modTile_mbx (n p : Nat) (f : Tile → Tile) : (s.modTile n p f).mbx = s.mbx := rfl
@[simp] theorem modTile_ctx (n p : Nat) (f : Tile → Tile) : (s.modTile n p f).ctx = s.ctx := rfl
@[simp] theorem modTile_dis (n p : Nat) (f : Tile → Tile) : (s.modTile n p f).dis = s.dis := rfl
@[simp] theorem modTile_log (n p : Nat) (f : Tile → Tile) : (s.modTile n p f).log = s.log := rfl
@[simp] theorem modTile_mirror (n p : Nat) (f : Tile → Tile) : (s.modTile n p f).mirror = s.mirror := rfl
@[simp] theorem modTile_svc (n p : Nat) (f : Tile → Tile) : (s.modTile n p f).svc = s.svc := rfl
@[simp] theorem modTile_dies (n p : Nat) (f : Tile → Tile) : (s.modTile n p f).dies = s.dies := rfl
@[simp] theorem modTile_health (n p : Nat) (f : Tile → Tile) : (s.modTile n p f).health = s.health := rfl
@[simp] theorem modTile_ledger (n p : Nat) (f : Tile → Tile) : (s.modTile n p f).ledger = s.ledger := rfl
@[simp] theorem modTile_cfg (n p : Nat) (f : Tile → Tile) : (s.modTile n p f).cfg = s.cfg := rfl
@[simp] theorem modTile_boot (n p : Nat) (f : Tile → Tile) : (s.modTile n p f).boot = s.boot := rfl
@[simp] theorem modTile_sec (n p : Nat) (f : Tile → Tile) : (s.modTile n p f).sec = s.sec := rfl
@[simp] theorem modTile_pwr (n p : Nat) (f : Tile → Tile) : (s.modTile n p f).pwr = s.pwr := rfl
@[simp] theorem modTile_pins (n p : Nat) (f : Tile → Tile) : (s.modTile n p f).pins = s.pins := rfl
@[simp] theorem modTile_flash (n p : Nat) (f : Tile → Tile) : (s.modTile n p f).flash = s.flash := rfl

@[simp] theorem modMule_pending (n p : Nat) (f : Mule → Mule) : (s.modMule n p f).pending = s.pending := rfl
@[simp] theorem modMule_out (n p : Nat) (f : Mule → Mule) : (s.modMule n p f).out = s.out := rfl
@[simp] theorem modMule_free (n p : Nat) (f : Mule → Mule) : (s.modMule n p f).free = s.free := rfl
@[simp] theorem modMule_aonNs (n p : Nat) (f : Mule → Mule) : (s.modMule n p f).aonNs = s.aonNs := rfl
@[simp] theorem modMule_hbm (n p : Nat) (f : Mule → Mule) : (s.modMule n p f).hbm = s.hbm := rfl
@[simp] theorem modMule_poison (n p : Nat) (f : Mule → Mule) : (s.modMule n p f).poison = s.poison := rfl
@[simp] theorem modMule_hub (n p : Nat) (f : Mule → Mule) : (s.modMule n p f).hub = s.hub := rfl
@[simp] theorem modMule_hubm (n p : Nat) (f : Mule → Mule) : (s.modMule n p f).hubm = s.hubm := rfl
@[simp] theorem modMule_ox (n p : Nat) (f : Mule → Mule) : (s.modMule n p f).ox = s.ox := rfl
@[simp] theorem modMule_rt (n p : Nat) (f : Mule → Mule) : (s.modMule n p f).rt = s.rt := rfl
@[simp] theorem modMule_links (n p : Nat) (f : Mule → Mule) : (s.modMule n p f).links = s.links := rfl
@[simp] theorem modMule_linkx (n p : Nat) (f : Mule → Mule) : (s.modMule n p f).linkx = s.linkx := rfl
@[simp] theorem modMule_ft (n p : Nat) (f : Mule → Mule) : (s.modMule n p f).ft = s.ft := rfl
@[simp] theorem modMule_sq (n p : Nat) (f : Mule → Mule) : (s.modMule n p f).sq = s.sq := rfl
@[simp] theorem modMule_eths (n p : Nat) (f : Mule → Mule) : (s.modMule n p f).eths = s.eths := rfl
@[simp] theorem modMule_xp (n p : Nat) (f : Mule → Mule) : (s.modMule n p f).xp = s.xp := rfl
@[simp] theorem modMule_mbx (n p : Nat) (f : Mule → Mule) : (s.modMule n p f).mbx = s.mbx := rfl
@[simp] theorem modMule_ctx (n p : Nat) (f : Mule → Mule) : (s.modMule n p f).ctx = s.ctx := rfl
@[simp] theorem modMule_dis (n p : Nat) (f : Mule → Mule) : (s.modMule n p f).dis = s.dis := rfl
@[simp] theorem modMule_log (n p : Nat) (f : Mule → Mule) : (s.modMule n p f).log = s.log := rfl
@[simp] theorem modMule_mirror (n p : Nat) (f : Mule → Mule) : (s.modMule n p f).mirror = s.mirror := rfl
@[simp] theorem modMule_svc (n p : Nat) (f : Mule → Mule) : (s.modMule n p f).svc = s.svc := rfl
@[simp] theorem modMule_dies (n p : Nat) (f : Mule → Mule) : (s.modMule n p f).dies = s.dies := rfl
@[simp] theorem modMule_health (n p : Nat) (f : Mule → Mule) : (s.modMule n p f).health = s.health := rfl
@[simp] theorem modMule_ledger (n p : Nat) (f : Mule → Mule) : (s.modMule n p f).ledger = s.ledger := rfl
@[simp] theorem modMule_cfg (n p : Nat) (f : Mule → Mule) : (s.modMule n p f).cfg = s.cfg := rfl
@[simp] theorem modMule_boot (n p : Nat) (f : Mule → Mule) : (s.modMule n p f).boot = s.boot := rfl
@[simp] theorem modMule_sec (n p : Nat) (f : Mule → Mule) : (s.modMule n p f).sec = s.sec := rfl
@[simp] theorem modMule_pwr (n p : Nat) (f : Mule → Mule) : (s.modMule n p f).pwr = s.pwr := rfl
@[simp] theorem modMule_pins (n p : Nat) (f : Mule → Mule) : (s.modMule n p f).pins = s.pins := rfl
@[simp] theorem modMule_flash (n p : Nat) (f : Mule → Mule) : (s.modMule n p f).flash = s.flash := rfl

@[simp] theorem modMem_pending (n p : Nat) (f : MuleMem → MuleMem) : (s.modMem n p f).pending = s.pending := rfl
@[simp] theorem modMem_out (n p : Nat) (f : MuleMem → MuleMem) : (s.modMem n p f).out = s.out := rfl
@[simp] theorem modMem_free (n p : Nat) (f : MuleMem → MuleMem) : (s.modMem n p f).free = s.free := rfl
@[simp] theorem modMem_aonNs (n p : Nat) (f : MuleMem → MuleMem) : (s.modMem n p f).aonNs = s.aonNs := rfl
@[simp] theorem modMem_hbm (n p : Nat) (f : MuleMem → MuleMem) : (s.modMem n p f).hbm = s.hbm := rfl
@[simp] theorem modMem_poison (n p : Nat) (f : MuleMem → MuleMem) : (s.modMem n p f).poison = s.poison := rfl
@[simp] theorem modMem_hub (n p : Nat) (f : MuleMem → MuleMem) : (s.modMem n p f).hub = s.hub := rfl
@[simp] theorem modMem_hubm (n p : Nat) (f : MuleMem → MuleMem) : (s.modMem n p f).hubm = s.hubm := rfl
@[simp] theorem modMem_ox (n p : Nat) (f : MuleMem → MuleMem) : (s.modMem n p f).ox = s.ox := rfl
@[simp] theorem modMem_rt (n p : Nat) (f : MuleMem → MuleMem) : (s.modMem n p f).rt = s.rt := rfl
@[simp] theorem modMem_links (n p : Nat) (f : MuleMem → MuleMem) : (s.modMem n p f).links = s.links := rfl
@[simp] theorem modMem_linkx (n p : Nat) (f : MuleMem → MuleMem) : (s.modMem n p f).linkx = s.linkx := rfl
@[simp] theorem modMem_ft (n p : Nat) (f : MuleMem → MuleMem) : (s.modMem n p f).ft = s.ft := rfl
@[simp] theorem modMem_sq (n p : Nat) (f : MuleMem → MuleMem) : (s.modMem n p f).sq = s.sq := rfl
@[simp] theorem modMem_eths (n p : Nat) (f : MuleMem → MuleMem) : (s.modMem n p f).eths = s.eths := rfl
@[simp] theorem modMem_xp (n p : Nat) (f : MuleMem → MuleMem) : (s.modMem n p f).xp = s.xp := rfl
@[simp] theorem modMem_mbx (n p : Nat) (f : MuleMem → MuleMem) : (s.modMem n p f).mbx = s.mbx := rfl
@[simp] theorem modMem_ctx (n p : Nat) (f : MuleMem → MuleMem) : (s.modMem n p f).ctx = s.ctx := rfl
@[simp] theorem modMem_dis (n p : Nat) (f : MuleMem → MuleMem) : (s.modMem n p f).dis = s.dis := rfl
@[simp] theorem modMem_log (n p : Nat) (f : MuleMem → MuleMem) : (s.modMem n p f).log = s.log := rfl
@[simp] theorem modMem_mirror (n p : Nat) (f : MuleMem → MuleMem) : (s.modMem n p f).mirror = s.mirror := rfl
@[simp] theorem modMem_svc (n p : Nat) (f : MuleMem → MuleMem) : (s.modMem n p f).svc = s.svc := rfl
@[simp] theorem modMem_dies (n p : Nat) (f : MuleMem → MuleMem) : (s.modMem n p f).dies = s.dies := rfl
@[simp] theorem modMem_health (n p : Nat) (f : MuleMem → MuleMem) : (s.modMem n p f).health = s.health := rfl
@[simp] theorem modMem_ledger (n p : Nat) (f : MuleMem → MuleMem) : (s.modMem n p f).ledger = s.ledger := rfl
@[simp] theorem modMem_cfg (n p : Nat) (f : MuleMem → MuleMem) : (s.modMem n p f).cfg = s.cfg := rfl
@[simp] theorem modMem_boot (n p : Nat) (f : MuleMem → MuleMem) : (s.modMem n p f).boot = s.boot := rfl
@[simp] theorem modMem_sec (n p : Nat) (f : MuleMem → MuleMem) : (s.modMem n p f).sec = s.sec := rfl
@[simp] theorem modMem_pwr (n p : Nat) (f : MuleMem → MuleMem) : (s.modMem n p f).pwr = s.pwr := rfl
@[simp] theorem modMem_pins (n p : Nat) (f : MuleMem → MuleMem) : (s.modMem n p f).pins = s.pins := rfl
@[simp] theorem modMem_flash (n p : Nat) (f : MuleMem → MuleMem) : (s.modMem n p f).flash = s.flash := rfl

@[simp] theorem modArr_pending (n p : Nat) (f : ArrayU → ArrayU) : (s.modArr n p f).pending = s.pending := rfl
@[simp] theorem modArr_out (n p : Nat) (f : ArrayU → ArrayU) : (s.modArr n p f).out = s.out := rfl
@[simp] theorem modArr_free (n p : Nat) (f : ArrayU → ArrayU) : (s.modArr n p f).free = s.free := rfl
@[simp] theorem modArr_aonNs (n p : Nat) (f : ArrayU → ArrayU) : (s.modArr n p f).aonNs = s.aonNs := rfl
@[simp] theorem modArr_hbm (n p : Nat) (f : ArrayU → ArrayU) : (s.modArr n p f).hbm = s.hbm := rfl
@[simp] theorem modArr_poison (n p : Nat) (f : ArrayU → ArrayU) : (s.modArr n p f).poison = s.poison := rfl
@[simp] theorem modArr_hub (n p : Nat) (f : ArrayU → ArrayU) : (s.modArr n p f).hub = s.hub := rfl
@[simp] theorem modArr_hubm (n p : Nat) (f : ArrayU → ArrayU) : (s.modArr n p f).hubm = s.hubm := rfl
@[simp] theorem modArr_ox (n p : Nat) (f : ArrayU → ArrayU) : (s.modArr n p f).ox = s.ox := rfl
@[simp] theorem modArr_rt (n p : Nat) (f : ArrayU → ArrayU) : (s.modArr n p f).rt = s.rt := rfl
@[simp] theorem modArr_links (n p : Nat) (f : ArrayU → ArrayU) : (s.modArr n p f).links = s.links := rfl
@[simp] theorem modArr_linkx (n p : Nat) (f : ArrayU → ArrayU) : (s.modArr n p f).linkx = s.linkx := rfl
@[simp] theorem modArr_ft (n p : Nat) (f : ArrayU → ArrayU) : (s.modArr n p f).ft = s.ft := rfl
@[simp] theorem modArr_sq (n p : Nat) (f : ArrayU → ArrayU) : (s.modArr n p f).sq = s.sq := rfl
@[simp] theorem modArr_eths (n p : Nat) (f : ArrayU → ArrayU) : (s.modArr n p f).eths = s.eths := rfl
@[simp] theorem modArr_xp (n p : Nat) (f : ArrayU → ArrayU) : (s.modArr n p f).xp = s.xp := rfl
@[simp] theorem modArr_mbx (n p : Nat) (f : ArrayU → ArrayU) : (s.modArr n p f).mbx = s.mbx := rfl
@[simp] theorem modArr_ctx (n p : Nat) (f : ArrayU → ArrayU) : (s.modArr n p f).ctx = s.ctx := rfl
@[simp] theorem modArr_dis (n p : Nat) (f : ArrayU → ArrayU) : (s.modArr n p f).dis = s.dis := rfl
@[simp] theorem modArr_log (n p : Nat) (f : ArrayU → ArrayU) : (s.modArr n p f).log = s.log := rfl
@[simp] theorem modArr_mirror (n p : Nat) (f : ArrayU → ArrayU) : (s.modArr n p f).mirror = s.mirror := rfl
@[simp] theorem modArr_svc (n p : Nat) (f : ArrayU → ArrayU) : (s.modArr n p f).svc = s.svc := rfl
@[simp] theorem modArr_dies (n p : Nat) (f : ArrayU → ArrayU) : (s.modArr n p f).dies = s.dies := rfl
@[simp] theorem modArr_health (n p : Nat) (f : ArrayU → ArrayU) : (s.modArr n p f).health = s.health := rfl
@[simp] theorem modArr_ledger (n p : Nat) (f : ArrayU → ArrayU) : (s.modArr n p f).ledger = s.ledger := rfl
@[simp] theorem modArr_cfg (n p : Nat) (f : ArrayU → ArrayU) : (s.modArr n p f).cfg = s.cfg := rfl
@[simp] theorem modArr_boot (n p : Nat) (f : ArrayU → ArrayU) : (s.modArr n p f).boot = s.boot := rfl
@[simp] theorem modArr_sec (n p : Nat) (f : ArrayU → ArrayU) : (s.modArr n p f).sec = s.sec := rfl
@[simp] theorem modArr_pwr (n p : Nat) (f : ArrayU → ArrayU) : (s.modArr n p f).pwr = s.pwr := rfl
@[simp] theorem modArr_pins (n p : Nat) (f : ArrayU → ArrayU) : (s.modArr n p f).pins = s.pins := rfl
@[simp] theorem modArr_flash (n p : Nat) (f : ArrayU → ArrayU) : (s.modArr n p f).flash = s.flash := rfl

@[simp] theorem modEe_pending (n p : Nat) (f : EeU → EeU) : (s.modEe n p f).pending = s.pending := rfl
@[simp] theorem modEe_out (n p : Nat) (f : EeU → EeU) : (s.modEe n p f).out = s.out := rfl
@[simp] theorem modEe_free (n p : Nat) (f : EeU → EeU) : (s.modEe n p f).free = s.free := rfl
@[simp] theorem modEe_aonNs (n p : Nat) (f : EeU → EeU) : (s.modEe n p f).aonNs = s.aonNs := rfl
@[simp] theorem modEe_hbm (n p : Nat) (f : EeU → EeU) : (s.modEe n p f).hbm = s.hbm := rfl
@[simp] theorem modEe_poison (n p : Nat) (f : EeU → EeU) : (s.modEe n p f).poison = s.poison := rfl
@[simp] theorem modEe_hub (n p : Nat) (f : EeU → EeU) : (s.modEe n p f).hub = s.hub := rfl
@[simp] theorem modEe_hubm (n p : Nat) (f : EeU → EeU) : (s.modEe n p f).hubm = s.hubm := rfl
@[simp] theorem modEe_ox (n p : Nat) (f : EeU → EeU) : (s.modEe n p f).ox = s.ox := rfl
@[simp] theorem modEe_rt (n p : Nat) (f : EeU → EeU) : (s.modEe n p f).rt = s.rt := rfl
@[simp] theorem modEe_links (n p : Nat) (f : EeU → EeU) : (s.modEe n p f).links = s.links := rfl
@[simp] theorem modEe_linkx (n p : Nat) (f : EeU → EeU) : (s.modEe n p f).linkx = s.linkx := rfl
@[simp] theorem modEe_ft (n p : Nat) (f : EeU → EeU) : (s.modEe n p f).ft = s.ft := rfl
@[simp] theorem modEe_sq (n p : Nat) (f : EeU → EeU) : (s.modEe n p f).sq = s.sq := rfl
@[simp] theorem modEe_eths (n p : Nat) (f : EeU → EeU) : (s.modEe n p f).eths = s.eths := rfl
@[simp] theorem modEe_xp (n p : Nat) (f : EeU → EeU) : (s.modEe n p f).xp = s.xp := rfl
@[simp] theorem modEe_mbx (n p : Nat) (f : EeU → EeU) : (s.modEe n p f).mbx = s.mbx := rfl
@[simp] theorem modEe_ctx (n p : Nat) (f : EeU → EeU) : (s.modEe n p f).ctx = s.ctx := rfl
@[simp] theorem modEe_dis (n p : Nat) (f : EeU → EeU) : (s.modEe n p f).dis = s.dis := rfl
@[simp] theorem modEe_log (n p : Nat) (f : EeU → EeU) : (s.modEe n p f).log = s.log := rfl
@[simp] theorem modEe_mirror (n p : Nat) (f : EeU → EeU) : (s.modEe n p f).mirror = s.mirror := rfl
@[simp] theorem modEe_svc (n p : Nat) (f : EeU → EeU) : (s.modEe n p f).svc = s.svc := rfl
@[simp] theorem modEe_dies (n p : Nat) (f : EeU → EeU) : (s.modEe n p f).dies = s.dies := rfl
@[simp] theorem modEe_health (n p : Nat) (f : EeU → EeU) : (s.modEe n p f).health = s.health := rfl
@[simp] theorem modEe_ledger (n p : Nat) (f : EeU → EeU) : (s.modEe n p f).ledger = s.ledger := rfl
@[simp] theorem modEe_cfg (n p : Nat) (f : EeU → EeU) : (s.modEe n p f).cfg = s.cfg := rfl
@[simp] theorem modEe_boot (n p : Nat) (f : EeU → EeU) : (s.modEe n p f).boot = s.boot := rfl
@[simp] theorem modEe_sec (n p : Nat) (f : EeU → EeU) : (s.modEe n p f).sec = s.sec := rfl
@[simp] theorem modEe_pwr (n p : Nat) (f : EeU → EeU) : (s.modEe n p f).pwr = s.pwr := rfl
@[simp] theorem modEe_pins (n p : Nat) (f : EeU → EeU) : (s.modEe n p f).pins = s.pins := rfl
@[simp] theorem modEe_flash (n p : Nat) (f : EeU → EeU) : (s.modEe n p f).flash = s.flash := rfl

@[simp] theorem remapTiles_pending (f : Nat → Nat → Tile → Tile) : (s.remapTiles f).pending = s.pending := rfl
@[simp] theorem remapTiles_out (f : Nat → Nat → Tile → Tile) : (s.remapTiles f).out = s.out := rfl
@[simp] theorem remapTiles_free (f : Nat → Nat → Tile → Tile) : (s.remapTiles f).free = s.free := rfl
@[simp] theorem remapTiles_aonNs (f : Nat → Nat → Tile → Tile) : (s.remapTiles f).aonNs = s.aonNs := rfl
@[simp] theorem remapTiles_hbm (f : Nat → Nat → Tile → Tile) : (s.remapTiles f).hbm = s.hbm := rfl
@[simp] theorem remapTiles_poison (f : Nat → Nat → Tile → Tile) : (s.remapTiles f).poison = s.poison := rfl
@[simp] theorem remapTiles_hub (f : Nat → Nat → Tile → Tile) : (s.remapTiles f).hub = s.hub := rfl
@[simp] theorem remapTiles_hubm (f : Nat → Nat → Tile → Tile) : (s.remapTiles f).hubm = s.hubm := rfl
@[simp] theorem remapTiles_ox (f : Nat → Nat → Tile → Tile) : (s.remapTiles f).ox = s.ox := rfl
@[simp] theorem remapTiles_rt (f : Nat → Nat → Tile → Tile) : (s.remapTiles f).rt = s.rt := rfl
@[simp] theorem remapTiles_links (f : Nat → Nat → Tile → Tile) : (s.remapTiles f).links = s.links := rfl
@[simp] theorem remapTiles_linkx (f : Nat → Nat → Tile → Tile) : (s.remapTiles f).linkx = s.linkx := rfl
@[simp] theorem remapTiles_ft (f : Nat → Nat → Tile → Tile) : (s.remapTiles f).ft = s.ft := rfl
@[simp] theorem remapTiles_sq (f : Nat → Nat → Tile → Tile) : (s.remapTiles f).sq = s.sq := rfl
@[simp] theorem remapTiles_eths (f : Nat → Nat → Tile → Tile) : (s.remapTiles f).eths = s.eths := rfl
@[simp] theorem remapTiles_xp (f : Nat → Nat → Tile → Tile) : (s.remapTiles f).xp = s.xp := rfl
@[simp] theorem remapTiles_mbx (f : Nat → Nat → Tile → Tile) : (s.remapTiles f).mbx = s.mbx := rfl
@[simp] theorem remapTiles_ctx (f : Nat → Nat → Tile → Tile) : (s.remapTiles f).ctx = s.ctx := rfl
@[simp] theorem remapTiles_dis (f : Nat → Nat → Tile → Tile) : (s.remapTiles f).dis = s.dis := rfl
@[simp] theorem remapTiles_log (f : Nat → Nat → Tile → Tile) : (s.remapTiles f).log = s.log := rfl
@[simp] theorem remapTiles_mirror (f : Nat → Nat → Tile → Tile) : (s.remapTiles f).mirror = s.mirror := rfl
@[simp] theorem remapTiles_svc (f : Nat → Nat → Tile → Tile) : (s.remapTiles f).svc = s.svc := rfl
@[simp] theorem remapTiles_dies (f : Nat → Nat → Tile → Tile) : (s.remapTiles f).dies = s.dies := rfl
@[simp] theorem remapTiles_health (f : Nat → Nat → Tile → Tile) : (s.remapTiles f).health = s.health := rfl
@[simp] theorem remapTiles_ledger (f : Nat → Nat → Tile → Tile) : (s.remapTiles f).ledger = s.ledger := rfl
@[simp] theorem remapTiles_cfg (f : Nat → Nat → Tile → Tile) : (s.remapTiles f).cfg = s.cfg := rfl
@[simp] theorem remapTiles_boot (f : Nat → Nat → Tile → Tile) : (s.remapTiles f).boot = s.boot := rfl
@[simp] theorem remapTiles_sec (f : Nat → Nat → Tile → Tile) : (s.remapTiles f).sec = s.sec := rfl
@[simp] theorem remapTiles_pwr (f : Nat → Nat → Tile → Tile) : (s.remapTiles f).pwr = s.pwr := rfl
@[simp] theorem remapTiles_pins (f : Nat → Nat → Tile → Tile) : (s.remapTiles f).pins = s.pins := rfl
@[simp] theorem remapTiles_flash (f : Nat → Nat → Tile → Tile) : (s.remapTiles f).flash = s.flash := rfl

@[simp] theorem modLink_pending (l : Nat) (f : Link → Link) : (s.modLink l f).pending = s.pending := rfl
@[simp] theorem modLink_out (l : Nat) (f : Link → Link) : (s.modLink l f).out = s.out := rfl
@[simp] theorem modLink_free (l : Nat) (f : Link → Link) : (s.modLink l f).free = s.free := rfl
@[simp] theorem modLink_aonNs (l : Nat) (f : Link → Link) : (s.modLink l f).aonNs = s.aonNs := rfl
@[simp] theorem modLink_cds (l : Nat) (f : Link → Link) : (s.modLink l f).cds = s.cds := rfl
@[simp] theorem modLink_hbm (l : Nat) (f : Link → Link) : (s.modLink l f).hbm = s.hbm := rfl
@[simp] theorem modLink_poison (l : Nat) (f : Link → Link) : (s.modLink l f).poison = s.poison := rfl
@[simp] theorem modLink_hub (l : Nat) (f : Link → Link) : (s.modLink l f).hub = s.hub := rfl
@[simp] theorem modLink_hubm (l : Nat) (f : Link → Link) : (s.modLink l f).hubm = s.hubm := rfl
@[simp] theorem modLink_ox (l : Nat) (f : Link → Link) : (s.modLink l f).ox = s.ox := rfl
@[simp] theorem modLink_rt (l : Nat) (f : Link → Link) : (s.modLink l f).rt = s.rt := rfl
@[simp] theorem modLink_linkx (l : Nat) (f : Link → Link) : (s.modLink l f).linkx = s.linkx := rfl
@[simp] theorem modLink_ft (l : Nat) (f : Link → Link) : (s.modLink l f).ft = s.ft := rfl
@[simp] theorem modLink_sq (l : Nat) (f : Link → Link) : (s.modLink l f).sq = s.sq := rfl
@[simp] theorem modLink_eths (l : Nat) (f : Link → Link) : (s.modLink l f).eths = s.eths := rfl
@[simp] theorem modLink_xp (l : Nat) (f : Link → Link) : (s.modLink l f).xp = s.xp := rfl
@[simp] theorem modLink_mbx (l : Nat) (f : Link → Link) : (s.modLink l f).mbx = s.mbx := rfl
@[simp] theorem modLink_ctx (l : Nat) (f : Link → Link) : (s.modLink l f).ctx = s.ctx := rfl
@[simp] theorem modLink_dis (l : Nat) (f : Link → Link) : (s.modLink l f).dis = s.dis := rfl
@[simp] theorem modLink_log (l : Nat) (f : Link → Link) : (s.modLink l f).log = s.log := rfl
@[simp] theorem modLink_mirror (l : Nat) (f : Link → Link) : (s.modLink l f).mirror = s.mirror := rfl
@[simp] theorem modLink_svc (l : Nat) (f : Link → Link) : (s.modLink l f).svc = s.svc := rfl
@[simp] theorem modLink_dies (l : Nat) (f : Link → Link) : (s.modLink l f).dies = s.dies := rfl
@[simp] theorem modLink_health (l : Nat) (f : Link → Link) : (s.modLink l f).health = s.health := rfl
@[simp] theorem modLink_ledger (l : Nat) (f : Link → Link) : (s.modLink l f).ledger = s.ledger := rfl
@[simp] theorem modLink_cfg (l : Nat) (f : Link → Link) : (s.modLink l f).cfg = s.cfg := rfl
@[simp] theorem modLink_boot (l : Nat) (f : Link → Link) : (s.modLink l f).boot = s.boot := rfl
@[simp] theorem modLink_sec (l : Nat) (f : Link → Link) : (s.modLink l f).sec = s.sec := rfl
@[simp] theorem modLink_pwr (l : Nat) (f : Link → Link) : (s.modLink l f).pwr = s.pwr := rfl
@[simp] theorem modLink_pins (l : Nat) (f : Link → Link) : (s.modLink l f).pins = s.pins := rfl
@[simp] theorem modLink_flash (l : Nat) (f : Link → Link) : (s.modLink l f).flash = s.flash := rfl

@[simp] theorem modLx_pending (l : Nat) (f : LinkX → LinkX) : (s.modLx l f).pending = s.pending := rfl
@[simp] theorem modLx_out (l : Nat) (f : LinkX → LinkX) : (s.modLx l f).out = s.out := rfl
@[simp] theorem modLx_free (l : Nat) (f : LinkX → LinkX) : (s.modLx l f).free = s.free := rfl
@[simp] theorem modLx_aonNs (l : Nat) (f : LinkX → LinkX) : (s.modLx l f).aonNs = s.aonNs := rfl
@[simp] theorem modLx_cds (l : Nat) (f : LinkX → LinkX) : (s.modLx l f).cds = s.cds := rfl
@[simp] theorem modLx_hbm (l : Nat) (f : LinkX → LinkX) : (s.modLx l f).hbm = s.hbm := rfl
@[simp] theorem modLx_poison (l : Nat) (f : LinkX → LinkX) : (s.modLx l f).poison = s.poison := rfl
@[simp] theorem modLx_hub (l : Nat) (f : LinkX → LinkX) : (s.modLx l f).hub = s.hub := rfl
@[simp] theorem modLx_hubm (l : Nat) (f : LinkX → LinkX) : (s.modLx l f).hubm = s.hubm := rfl
@[simp] theorem modLx_ox (l : Nat) (f : LinkX → LinkX) : (s.modLx l f).ox = s.ox := rfl
@[simp] theorem modLx_rt (l : Nat) (f : LinkX → LinkX) : (s.modLx l f).rt = s.rt := rfl
@[simp] theorem modLx_links (l : Nat) (f : LinkX → LinkX) : (s.modLx l f).links = s.links := rfl
@[simp] theorem modLx_ft (l : Nat) (f : LinkX → LinkX) : (s.modLx l f).ft = s.ft := rfl
@[simp] theorem modLx_sq (l : Nat) (f : LinkX → LinkX) : (s.modLx l f).sq = s.sq := rfl
@[simp] theorem modLx_eths (l : Nat) (f : LinkX → LinkX) : (s.modLx l f).eths = s.eths := rfl
@[simp] theorem modLx_xp (l : Nat) (f : LinkX → LinkX) : (s.modLx l f).xp = s.xp := rfl
@[simp] theorem modLx_mbx (l : Nat) (f : LinkX → LinkX) : (s.modLx l f).mbx = s.mbx := rfl
@[simp] theorem modLx_ctx (l : Nat) (f : LinkX → LinkX) : (s.modLx l f).ctx = s.ctx := rfl
@[simp] theorem modLx_dis (l : Nat) (f : LinkX → LinkX) : (s.modLx l f).dis = s.dis := rfl
@[simp] theorem modLx_log (l : Nat) (f : LinkX → LinkX) : (s.modLx l f).log = s.log := rfl
@[simp] theorem modLx_mirror (l : Nat) (f : LinkX → LinkX) : (s.modLx l f).mirror = s.mirror := rfl
@[simp] theorem modLx_svc (l : Nat) (f : LinkX → LinkX) : (s.modLx l f).svc = s.svc := rfl
@[simp] theorem modLx_dies (l : Nat) (f : LinkX → LinkX) : (s.modLx l f).dies = s.dies := rfl
@[simp] theorem modLx_health (l : Nat) (f : LinkX → LinkX) : (s.modLx l f).health = s.health := rfl
@[simp] theorem modLx_ledger (l : Nat) (f : LinkX → LinkX) : (s.modLx l f).ledger = s.ledger := rfl
@[simp] theorem modLx_cfg (l : Nat) (f : LinkX → LinkX) : (s.modLx l f).cfg = s.cfg := rfl
@[simp] theorem modLx_boot (l : Nat) (f : LinkX → LinkX) : (s.modLx l f).boot = s.boot := rfl
@[simp] theorem modLx_sec (l : Nat) (f : LinkX → LinkX) : (s.modLx l f).sec = s.sec := rfl
@[simp] theorem modLx_pwr (l : Nat) (f : LinkX → LinkX) : (s.modLx l f).pwr = s.pwr := rfl
@[simp] theorem modLx_pins (l : Nat) (f : LinkX → LinkX) : (s.modLx l f).pins = s.pins := rfl
@[simp] theorem modLx_flash (l : Nat) (f : LinkX → LinkX) : (s.modLx l f).flash = s.flash := rfl

@[simp] theorem modCx_pending (x : Nat) (f : Ctx → Ctx) : (s.modCx x f).pending = s.pending := rfl
@[simp] theorem modCx_out (x : Nat) (f : Ctx → Ctx) : (s.modCx x f).out = s.out := rfl
@[simp] theorem modCx_free (x : Nat) (f : Ctx → Ctx) : (s.modCx x f).free = s.free := rfl
@[simp] theorem modCx_aonNs (x : Nat) (f : Ctx → Ctx) : (s.modCx x f).aonNs = s.aonNs := rfl
@[simp] theorem modCx_cds (x : Nat) (f : Ctx → Ctx) : (s.modCx x f).cds = s.cds := rfl
@[simp] theorem modCx_hbm (x : Nat) (f : Ctx → Ctx) : (s.modCx x f).hbm = s.hbm := rfl
@[simp] theorem modCx_poison (x : Nat) (f : Ctx → Ctx) : (s.modCx x f).poison = s.poison := rfl
@[simp] theorem modCx_hub (x : Nat) (f : Ctx → Ctx) : (s.modCx x f).hub = s.hub := rfl
@[simp] theorem modCx_hubm (x : Nat) (f : Ctx → Ctx) : (s.modCx x f).hubm = s.hubm := rfl
@[simp] theorem modCx_ox (x : Nat) (f : Ctx → Ctx) : (s.modCx x f).ox = s.ox := rfl
@[simp] theorem modCx_rt (x : Nat) (f : Ctx → Ctx) : (s.modCx x f).rt = s.rt := rfl
@[simp] theorem modCx_links (x : Nat) (f : Ctx → Ctx) : (s.modCx x f).links = s.links := rfl
@[simp] theorem modCx_linkx (x : Nat) (f : Ctx → Ctx) : (s.modCx x f).linkx = s.linkx := rfl
@[simp] theorem modCx_ft (x : Nat) (f : Ctx → Ctx) : (s.modCx x f).ft = s.ft := rfl
@[simp] theorem modCx_sq (x : Nat) (f : Ctx → Ctx) : (s.modCx x f).sq = s.sq := rfl
@[simp] theorem modCx_eths (x : Nat) (f : Ctx → Ctx) : (s.modCx x f).eths = s.eths := rfl
@[simp] theorem modCx_xp (x : Nat) (f : Ctx → Ctx) : (s.modCx x f).xp = s.xp := rfl
@[simp] theorem modCx_mbx (x : Nat) (f : Ctx → Ctx) : (s.modCx x f).mbx = s.mbx := rfl
@[simp] theorem modCx_dis (x : Nat) (f : Ctx → Ctx) : (s.modCx x f).dis = s.dis := rfl
@[simp] theorem modCx_log (x : Nat) (f : Ctx → Ctx) : (s.modCx x f).log = s.log := rfl
@[simp] theorem modCx_mirror (x : Nat) (f : Ctx → Ctx) : (s.modCx x f).mirror = s.mirror := rfl
@[simp] theorem modCx_svc (x : Nat) (f : Ctx → Ctx) : (s.modCx x f).svc = s.svc := rfl
@[simp] theorem modCx_dies (x : Nat) (f : Ctx → Ctx) : (s.modCx x f).dies = s.dies := rfl
@[simp] theorem modCx_health (x : Nat) (f : Ctx → Ctx) : (s.modCx x f).health = s.health := rfl
@[simp] theorem modCx_ledger (x : Nat) (f : Ctx → Ctx) : (s.modCx x f).ledger = s.ledger := rfl
@[simp] theorem modCx_cfg (x : Nat) (f : Ctx → Ctx) : (s.modCx x f).cfg = s.cfg := rfl
@[simp] theorem modCx_boot (x : Nat) (f : Ctx → Ctx) : (s.modCx x f).boot = s.boot := rfl
@[simp] theorem modCx_sec (x : Nat) (f : Ctx → Ctx) : (s.modCx x f).sec = s.sec := rfl
@[simp] theorem modCx_pwr (x : Nat) (f : Ctx → Ctx) : (s.modCx x f).pwr = s.pwr := rfl
@[simp] theorem modCx_pins (x : Nat) (f : Ctx → Ctx) : (s.modCx x f).pins = s.pins := rfl
@[simp] theorem modCx_flash (x : Nat) (f : Ctx → Ctx) : (s.modCx x f).flash = s.flash := rfl

@[simp] theorem modCxx_pending (x : Nat) (f : CtxX → CtxX) : (s.modCxx x f).pending = s.pending := rfl
@[simp] theorem modCxx_out (x : Nat) (f : CtxX → CtxX) : (s.modCxx x f).out = s.out := rfl
@[simp] theorem modCxx_free (x : Nat) (f : CtxX → CtxX) : (s.modCxx x f).free = s.free := rfl
@[simp] theorem modCxx_aonNs (x : Nat) (f : CtxX → CtxX) : (s.modCxx x f).aonNs = s.aonNs := rfl
@[simp] theorem modCxx_cds (x : Nat) (f : CtxX → CtxX) : (s.modCxx x f).cds = s.cds := rfl
@[simp] theorem modCxx_hbm (x : Nat) (f : CtxX → CtxX) : (s.modCxx x f).hbm = s.hbm := rfl
@[simp] theorem modCxx_poison (x : Nat) (f : CtxX → CtxX) : (s.modCxx x f).poison = s.poison := rfl
@[simp] theorem modCxx_hub (x : Nat) (f : CtxX → CtxX) : (s.modCxx x f).hub = s.hub := rfl
@[simp] theorem modCxx_hubm (x : Nat) (f : CtxX → CtxX) : (s.modCxx x f).hubm = s.hubm := rfl
@[simp] theorem modCxx_ox (x : Nat) (f : CtxX → CtxX) : (s.modCxx x f).ox = s.ox := rfl
@[simp] theorem modCxx_rt (x : Nat) (f : CtxX → CtxX) : (s.modCxx x f).rt = s.rt := rfl
@[simp] theorem modCxx_links (x : Nat) (f : CtxX → CtxX) : (s.modCxx x f).links = s.links := rfl
@[simp] theorem modCxx_linkx (x : Nat) (f : CtxX → CtxX) : (s.modCxx x f).linkx = s.linkx := rfl
@[simp] theorem modCxx_ft (x : Nat) (f : CtxX → CtxX) : (s.modCxx x f).ft = s.ft := rfl
@[simp] theorem modCxx_sq (x : Nat) (f : CtxX → CtxX) : (s.modCxx x f).sq = s.sq := rfl
@[simp] theorem modCxx_eths (x : Nat) (f : CtxX → CtxX) : (s.modCxx x f).eths = s.eths := rfl
@[simp] theorem modCxx_xp (x : Nat) (f : CtxX → CtxX) : (s.modCxx x f).xp = s.xp := rfl
@[simp] theorem modCxx_mbx (x : Nat) (f : CtxX → CtxX) : (s.modCxx x f).mbx = s.mbx := rfl
@[simp] theorem modCxx_dis (x : Nat) (f : CtxX → CtxX) : (s.modCxx x f).dis = s.dis := rfl
@[simp] theorem modCxx_log (x : Nat) (f : CtxX → CtxX) : (s.modCxx x f).log = s.log := rfl
@[simp] theorem modCxx_mirror (x : Nat) (f : CtxX → CtxX) : (s.modCxx x f).mirror = s.mirror := rfl
@[simp] theorem modCxx_svc (x : Nat) (f : CtxX → CtxX) : (s.modCxx x f).svc = s.svc := rfl
@[simp] theorem modCxx_dies (x : Nat) (f : CtxX → CtxX) : (s.modCxx x f).dies = s.dies := rfl
@[simp] theorem modCxx_health (x : Nat) (f : CtxX → CtxX) : (s.modCxx x f).health = s.health := rfl
@[simp] theorem modCxx_ledger (x : Nat) (f : CtxX → CtxX) : (s.modCxx x f).ledger = s.ledger := rfl
@[simp] theorem modCxx_cfg (x : Nat) (f : CtxX → CtxX) : (s.modCxx x f).cfg = s.cfg := rfl
@[simp] theorem modCxx_boot (x : Nat) (f : CtxX → CtxX) : (s.modCxx x f).boot = s.boot := rfl
@[simp] theorem modCxx_sec (x : Nat) (f : CtxX → CtxX) : (s.modCxx x f).sec = s.sec := rfl
@[simp] theorem modCxx_pwr (x : Nat) (f : CtxX → CtxX) : (s.modCxx x f).pwr = s.pwr := rfl
@[simp] theorem modCxx_pins (x : Nat) (f : CtxX → CtxX) : (s.modCxx x f).pins = s.pins := rfl
@[simp] theorem modCxx_flash (x : Nat) (f : CtxX → CtxX) : (s.modCxx x f).flash = s.flash := rfl

@[simp] theorem modProg_pending (x : Nat) (f : Progress → Progress) : (s.modProg x f).pending = s.pending := rfl
@[simp] theorem modProg_out (x : Nat) (f : Progress → Progress) : (s.modProg x f).out = s.out := rfl
@[simp] theorem modProg_free (x : Nat) (f : Progress → Progress) : (s.modProg x f).free = s.free := rfl
@[simp] theorem modProg_aonNs (x : Nat) (f : Progress → Progress) : (s.modProg x f).aonNs = s.aonNs := rfl
@[simp] theorem modProg_cds (x : Nat) (f : Progress → Progress) : (s.modProg x f).cds = s.cds := rfl
@[simp] theorem modProg_hbm (x : Nat) (f : Progress → Progress) : (s.modProg x f).hbm = s.hbm := rfl
@[simp] theorem modProg_poison (x : Nat) (f : Progress → Progress) : (s.modProg x f).poison = s.poison := rfl
@[simp] theorem modProg_hub (x : Nat) (f : Progress → Progress) : (s.modProg x f).hub = s.hub := rfl
@[simp] theorem modProg_hubm (x : Nat) (f : Progress → Progress) : (s.modProg x f).hubm = s.hubm := rfl
@[simp] theorem modProg_ox (x : Nat) (f : Progress → Progress) : (s.modProg x f).ox = s.ox := rfl
@[simp] theorem modProg_rt (x : Nat) (f : Progress → Progress) : (s.modProg x f).rt = s.rt := rfl
@[simp] theorem modProg_links (x : Nat) (f : Progress → Progress) : (s.modProg x f).links = s.links := rfl
@[simp] theorem modProg_linkx (x : Nat) (f : Progress → Progress) : (s.modProg x f).linkx = s.linkx := rfl
@[simp] theorem modProg_ft (x : Nat) (f : Progress → Progress) : (s.modProg x f).ft = s.ft := rfl
@[simp] theorem modProg_sq (x : Nat) (f : Progress → Progress) : (s.modProg x f).sq = s.sq := rfl
@[simp] theorem modProg_eths (x : Nat) (f : Progress → Progress) : (s.modProg x f).eths = s.eths := rfl
@[simp] theorem modProg_xp (x : Nat) (f : Progress → Progress) : (s.modProg x f).xp = s.xp := rfl
@[simp] theorem modProg_mbx (x : Nat) (f : Progress → Progress) : (s.modProg x f).mbx = s.mbx := rfl
@[simp] theorem modProg_dis (x : Nat) (f : Progress → Progress) : (s.modProg x f).dis = s.dis := rfl
@[simp] theorem modProg_log (x : Nat) (f : Progress → Progress) : (s.modProg x f).log = s.log := rfl
@[simp] theorem modProg_mirror (x : Nat) (f : Progress → Progress) : (s.modProg x f).mirror = s.mirror := rfl
@[simp] theorem modProg_svc (x : Nat) (f : Progress → Progress) : (s.modProg x f).svc = s.svc := rfl
@[simp] theorem modProg_dies (x : Nat) (f : Progress → Progress) : (s.modProg x f).dies = s.dies := rfl
@[simp] theorem modProg_health (x : Nat) (f : Progress → Progress) : (s.modProg x f).health = s.health := rfl
@[simp] theorem modProg_ledger (x : Nat) (f : Progress → Progress) : (s.modProg x f).ledger = s.ledger := rfl
@[simp] theorem modProg_cfg (x : Nat) (f : Progress → Progress) : (s.modProg x f).cfg = s.cfg := rfl
@[simp] theorem modProg_boot (x : Nat) (f : Progress → Progress) : (s.modProg x f).boot = s.boot := rfl
@[simp] theorem modProg_sec (x : Nat) (f : Progress → Progress) : (s.modProg x f).sec = s.sec := rfl
@[simp] theorem modProg_pwr (x : Nat) (f : Progress → Progress) : (s.modProg x f).pwr = s.pwr := rfl
@[simp] theorem modProg_pins (x : Nat) (f : Progress → Progress) : (s.modProg x f).pins = s.pins := rfl
@[simp] theorem modProg_flash (x : Nat) (f : Progress → Progress) : (s.modProg x f).flash = s.flash := rfl

@[simp] theorem modRec_pending (r : Nat) (f : Rec → Rec) : (s.modRec r f).pending = s.pending := rfl
@[simp] theorem modRec_out (r : Nat) (f : Rec → Rec) : (s.modRec r f).out = s.out := rfl
@[simp] theorem modRec_free (r : Nat) (f : Rec → Rec) : (s.modRec r f).free = s.free := rfl
@[simp] theorem modRec_aonNs (r : Nat) (f : Rec → Rec) : (s.modRec r f).aonNs = s.aonNs := rfl
@[simp] theorem modRec_cds (r : Nat) (f : Rec → Rec) : (s.modRec r f).cds = s.cds := rfl
@[simp] theorem modRec_hbm (r : Nat) (f : Rec → Rec) : (s.modRec r f).hbm = s.hbm := rfl
@[simp] theorem modRec_poison (r : Nat) (f : Rec → Rec) : (s.modRec r f).poison = s.poison := rfl
@[simp] theorem modRec_hub (r : Nat) (f : Rec → Rec) : (s.modRec r f).hub = s.hub := rfl
@[simp] theorem modRec_hubm (r : Nat) (f : Rec → Rec) : (s.modRec r f).hubm = s.hubm := rfl
@[simp] theorem modRec_ox (r : Nat) (f : Rec → Rec) : (s.modRec r f).ox = s.ox := rfl
@[simp] theorem modRec_rt (r : Nat) (f : Rec → Rec) : (s.modRec r f).rt = s.rt := rfl
@[simp] theorem modRec_links (r : Nat) (f : Rec → Rec) : (s.modRec r f).links = s.links := rfl
@[simp] theorem modRec_linkx (r : Nat) (f : Rec → Rec) : (s.modRec r f).linkx = s.linkx := rfl
@[simp] theorem modRec_ft (r : Nat) (f : Rec → Rec) : (s.modRec r f).ft = s.ft := rfl
@[simp] theorem modRec_eths (r : Nat) (f : Rec → Rec) : (s.modRec r f).eths = s.eths := rfl
@[simp] theorem modRec_xp (r : Nat) (f : Rec → Rec) : (s.modRec r f).xp = s.xp := rfl
@[simp] theorem modRec_mbx (r : Nat) (f : Rec → Rec) : (s.modRec r f).mbx = s.mbx := rfl
@[simp] theorem modRec_ctx (r : Nat) (f : Rec → Rec) : (s.modRec r f).ctx = s.ctx := rfl
@[simp] theorem modRec_dis (r : Nat) (f : Rec → Rec) : (s.modRec r f).dis = s.dis := rfl
@[simp] theorem modRec_log (r : Nat) (f : Rec → Rec) : (s.modRec r f).log = s.log := rfl
@[simp] theorem modRec_mirror (r : Nat) (f : Rec → Rec) : (s.modRec r f).mirror = s.mirror := rfl
@[simp] theorem modRec_svc (r : Nat) (f : Rec → Rec) : (s.modRec r f).svc = s.svc := rfl
@[simp] theorem modRec_dies (r : Nat) (f : Rec → Rec) : (s.modRec r f).dies = s.dies := rfl
@[simp] theorem modRec_health (r : Nat) (f : Rec → Rec) : (s.modRec r f).health = s.health := rfl
@[simp] theorem modRec_ledger (r : Nat) (f : Rec → Rec) : (s.modRec r f).ledger = s.ledger := rfl
@[simp] theorem modRec_cfg (r : Nat) (f : Rec → Rec) : (s.modRec r f).cfg = s.cfg := rfl
@[simp] theorem modRec_boot (r : Nat) (f : Rec → Rec) : (s.modRec r f).boot = s.boot := rfl
@[simp] theorem modRec_sec (r : Nat) (f : Rec → Rec) : (s.modRec r f).sec = s.sec := rfl
@[simp] theorem modRec_pwr (r : Nat) (f : Rec → Rec) : (s.modRec r f).pwr = s.pwr := rfl
@[simp] theorem modRec_pins (r : Nat) (f : Rec → Rec) : (s.modRec r f).pins = s.pins := rfl
@[simp] theorem modRec_flash (r : Nat) (f : Rec → Rec) : (s.modRec r f).flash = s.flash := rfl

@[simp] theorem modRecX_pending (r : Nat) (f : RecX → RecX) : (s.modRecX r f).pending = s.pending := rfl
@[simp] theorem modRecX_out (r : Nat) (f : RecX → RecX) : (s.modRecX r f).out = s.out := rfl
@[simp] theorem modRecX_free (r : Nat) (f : RecX → RecX) : (s.modRecX r f).free = s.free := rfl
@[simp] theorem modRecX_aonNs (r : Nat) (f : RecX → RecX) : (s.modRecX r f).aonNs = s.aonNs := rfl
@[simp] theorem modRecX_cds (r : Nat) (f : RecX → RecX) : (s.modRecX r f).cds = s.cds := rfl
@[simp] theorem modRecX_hbm (r : Nat) (f : RecX → RecX) : (s.modRecX r f).hbm = s.hbm := rfl
@[simp] theorem modRecX_poison (r : Nat) (f : RecX → RecX) : (s.modRecX r f).poison = s.poison := rfl
@[simp] theorem modRecX_hub (r : Nat) (f : RecX → RecX) : (s.modRecX r f).hub = s.hub := rfl
@[simp] theorem modRecX_hubm (r : Nat) (f : RecX → RecX) : (s.modRecX r f).hubm = s.hubm := rfl
@[simp] theorem modRecX_ox (r : Nat) (f : RecX → RecX) : (s.modRecX r f).ox = s.ox := rfl
@[simp] theorem modRecX_rt (r : Nat) (f : RecX → RecX) : (s.modRecX r f).rt = s.rt := rfl
@[simp] theorem modRecX_links (r : Nat) (f : RecX → RecX) : (s.modRecX r f).links = s.links := rfl
@[simp] theorem modRecX_linkx (r : Nat) (f : RecX → RecX) : (s.modRecX r f).linkx = s.linkx := rfl
@[simp] theorem modRecX_ft (r : Nat) (f : RecX → RecX) : (s.modRecX r f).ft = s.ft := rfl
@[simp] theorem modRecX_eths (r : Nat) (f : RecX → RecX) : (s.modRecX r f).eths = s.eths := rfl
@[simp] theorem modRecX_xp (r : Nat) (f : RecX → RecX) : (s.modRecX r f).xp = s.xp := rfl
@[simp] theorem modRecX_mbx (r : Nat) (f : RecX → RecX) : (s.modRecX r f).mbx = s.mbx := rfl
@[simp] theorem modRecX_ctx (r : Nat) (f : RecX → RecX) : (s.modRecX r f).ctx = s.ctx := rfl
@[simp] theorem modRecX_dis (r : Nat) (f : RecX → RecX) : (s.modRecX r f).dis = s.dis := rfl
@[simp] theorem modRecX_log (r : Nat) (f : RecX → RecX) : (s.modRecX r f).log = s.log := rfl
@[simp] theorem modRecX_mirror (r : Nat) (f : RecX → RecX) : (s.modRecX r f).mirror = s.mirror := rfl
@[simp] theorem modRecX_svc (r : Nat) (f : RecX → RecX) : (s.modRecX r f).svc = s.svc := rfl
@[simp] theorem modRecX_dies (r : Nat) (f : RecX → RecX) : (s.modRecX r f).dies = s.dies := rfl
@[simp] theorem modRecX_health (r : Nat) (f : RecX → RecX) : (s.modRecX r f).health = s.health := rfl
@[simp] theorem modRecX_ledger (r : Nat) (f : RecX → RecX) : (s.modRecX r f).ledger = s.ledger := rfl
@[simp] theorem modRecX_cfg (r : Nat) (f : RecX → RecX) : (s.modRecX r f).cfg = s.cfg := rfl
@[simp] theorem modRecX_boot (r : Nat) (f : RecX → RecX) : (s.modRecX r f).boot = s.boot := rfl
@[simp] theorem modRecX_sec (r : Nat) (f : RecX → RecX) : (s.modRecX r f).sec = s.sec := rfl
@[simp] theorem modRecX_pwr (r : Nat) (f : RecX → RecX) : (s.modRecX r f).pwr = s.pwr := rfl
@[simp] theorem modRecX_pins (r : Nat) (f : RecX → RecX) : (s.modRecX r f).pins = s.pins := rfl
@[simp] theorem modRecX_flash (r : Nat) (f : RecX → RecX) : (s.modRecX r f).flash = s.flash := rfl

@[simp] theorem modBind_pending (b : Nat) (f : Binding → Binding) : (s.modBind b f).pending = s.pending := rfl
@[simp] theorem modBind_out (b : Nat) (f : Binding → Binding) : (s.modBind b f).out = s.out := rfl
@[simp] theorem modBind_free (b : Nat) (f : Binding → Binding) : (s.modBind b f).free = s.free := rfl
@[simp] theorem modBind_aonNs (b : Nat) (f : Binding → Binding) : (s.modBind b f).aonNs = s.aonNs := rfl
@[simp] theorem modBind_cds (b : Nat) (f : Binding → Binding) : (s.modBind b f).cds = s.cds := rfl
@[simp] theorem modBind_hbm (b : Nat) (f : Binding → Binding) : (s.modBind b f).hbm = s.hbm := rfl
@[simp] theorem modBind_poison (b : Nat) (f : Binding → Binding) : (s.modBind b f).poison = s.poison := rfl
@[simp] theorem modBind_hub (b : Nat) (f : Binding → Binding) : (s.modBind b f).hub = s.hub := rfl
@[simp] theorem modBind_hubm (b : Nat) (f : Binding → Binding) : (s.modBind b f).hubm = s.hubm := rfl
@[simp] theorem modBind_rt (b : Nat) (f : Binding → Binding) : (s.modBind b f).rt = s.rt := rfl
@[simp] theorem modBind_links (b : Nat) (f : Binding → Binding) : (s.modBind b f).links = s.links := rfl
@[simp] theorem modBind_linkx (b : Nat) (f : Binding → Binding) : (s.modBind b f).linkx = s.linkx := rfl
@[simp] theorem modBind_ft (b : Nat) (f : Binding → Binding) : (s.modBind b f).ft = s.ft := rfl
@[simp] theorem modBind_sq (b : Nat) (f : Binding → Binding) : (s.modBind b f).sq = s.sq := rfl
@[simp] theorem modBind_eths (b : Nat) (f : Binding → Binding) : (s.modBind b f).eths = s.eths := rfl
@[simp] theorem modBind_xp (b : Nat) (f : Binding → Binding) : (s.modBind b f).xp = s.xp := rfl
@[simp] theorem modBind_mbx (b : Nat) (f : Binding → Binding) : (s.modBind b f).mbx = s.mbx := rfl
@[simp] theorem modBind_ctx (b : Nat) (f : Binding → Binding) : (s.modBind b f).ctx = s.ctx := rfl
@[simp] theorem modBind_dis (b : Nat) (f : Binding → Binding) : (s.modBind b f).dis = s.dis := rfl
@[simp] theorem modBind_log (b : Nat) (f : Binding → Binding) : (s.modBind b f).log = s.log := rfl
@[simp] theorem modBind_mirror (b : Nat) (f : Binding → Binding) : (s.modBind b f).mirror = s.mirror := rfl
@[simp] theorem modBind_svc (b : Nat) (f : Binding → Binding) : (s.modBind b f).svc = s.svc := rfl
@[simp] theorem modBind_dies (b : Nat) (f : Binding → Binding) : (s.modBind b f).dies = s.dies := rfl
@[simp] theorem modBind_health (b : Nat) (f : Binding → Binding) : (s.modBind b f).health = s.health := rfl
@[simp] theorem modBind_ledger (b : Nat) (f : Binding → Binding) : (s.modBind b f).ledger = s.ledger := rfl
@[simp] theorem modBind_cfg (b : Nat) (f : Binding → Binding) : (s.modBind b f).cfg = s.cfg := rfl
@[simp] theorem modBind_boot (b : Nat) (f : Binding → Binding) : (s.modBind b f).boot = s.boot := rfl
@[simp] theorem modBind_sec (b : Nat) (f : Binding → Binding) : (s.modBind b f).sec = s.sec := rfl
@[simp] theorem modBind_pwr (b : Nat) (f : Binding → Binding) : (s.modBind b f).pwr = s.pwr := rfl
@[simp] theorem modBind_pins (b : Nat) (f : Binding → Binding) : (s.modBind b f).pins = s.pins := rfl
@[simp] theorem modBind_flash (b : Nat) (f : Binding → Binding) : (s.modBind b f).flash = s.flash := rfl

@[simp] theorem modBindX_pending (b : Nat) (f : BindX → BindX) : (s.modBindX b f).pending = s.pending := rfl
@[simp] theorem modBindX_out (b : Nat) (f : BindX → BindX) : (s.modBindX b f).out = s.out := rfl
@[simp] theorem modBindX_free (b : Nat) (f : BindX → BindX) : (s.modBindX b f).free = s.free := rfl
@[simp] theorem modBindX_aonNs (b : Nat) (f : BindX → BindX) : (s.modBindX b f).aonNs = s.aonNs := rfl
@[simp] theorem modBindX_cds (b : Nat) (f : BindX → BindX) : (s.modBindX b f).cds = s.cds := rfl
@[simp] theorem modBindX_hbm (b : Nat) (f : BindX → BindX) : (s.modBindX b f).hbm = s.hbm := rfl
@[simp] theorem modBindX_poison (b : Nat) (f : BindX → BindX) : (s.modBindX b f).poison = s.poison := rfl
@[simp] theorem modBindX_hub (b : Nat) (f : BindX → BindX) : (s.modBindX b f).hub = s.hub := rfl
@[simp] theorem modBindX_hubm (b : Nat) (f : BindX → BindX) : (s.modBindX b f).hubm = s.hubm := rfl
@[simp] theorem modBindX_rt (b : Nat) (f : BindX → BindX) : (s.modBindX b f).rt = s.rt := rfl
@[simp] theorem modBindX_links (b : Nat) (f : BindX → BindX) : (s.modBindX b f).links = s.links := rfl
@[simp] theorem modBindX_linkx (b : Nat) (f : BindX → BindX) : (s.modBindX b f).linkx = s.linkx := rfl
@[simp] theorem modBindX_ft (b : Nat) (f : BindX → BindX) : (s.modBindX b f).ft = s.ft := rfl
@[simp] theorem modBindX_sq (b : Nat) (f : BindX → BindX) : (s.modBindX b f).sq = s.sq := rfl
@[simp] theorem modBindX_eths (b : Nat) (f : BindX → BindX) : (s.modBindX b f).eths = s.eths := rfl
@[simp] theorem modBindX_xp (b : Nat) (f : BindX → BindX) : (s.modBindX b f).xp = s.xp := rfl
@[simp] theorem modBindX_mbx (b : Nat) (f : BindX → BindX) : (s.modBindX b f).mbx = s.mbx := rfl
@[simp] theorem modBindX_ctx (b : Nat) (f : BindX → BindX) : (s.modBindX b f).ctx = s.ctx := rfl
@[simp] theorem modBindX_dis (b : Nat) (f : BindX → BindX) : (s.modBindX b f).dis = s.dis := rfl
@[simp] theorem modBindX_log (b : Nat) (f : BindX → BindX) : (s.modBindX b f).log = s.log := rfl
@[simp] theorem modBindX_mirror (b : Nat) (f : BindX → BindX) : (s.modBindX b f).mirror = s.mirror := rfl
@[simp] theorem modBindX_svc (b : Nat) (f : BindX → BindX) : (s.modBindX b f).svc = s.svc := rfl
@[simp] theorem modBindX_dies (b : Nat) (f : BindX → BindX) : (s.modBindX b f).dies = s.dies := rfl
@[simp] theorem modBindX_health (b : Nat) (f : BindX → BindX) : (s.modBindX b f).health = s.health := rfl
@[simp] theorem modBindX_ledger (b : Nat) (f : BindX → BindX) : (s.modBindX b f).ledger = s.ledger := rfl
@[simp] theorem modBindX_cfg (b : Nat) (f : BindX → BindX) : (s.modBindX b f).cfg = s.cfg := rfl
@[simp] theorem modBindX_boot (b : Nat) (f : BindX → BindX) : (s.modBindX b f).boot = s.boot := rfl
@[simp] theorem modBindX_sec (b : Nat) (f : BindX → BindX) : (s.modBindX b f).sec = s.sec := rfl
@[simp] theorem modBindX_pwr (b : Nat) (f : BindX → BindX) : (s.modBindX b f).pwr = s.pwr := rfl
@[simp] theorem modBindX_pins (b : Nat) (f : BindX → BindX) : (s.modBindX b f).pins = s.pins := rfl
@[simp] theorem modBindX_flash (b : Nat) (f : BindX → BindX) : (s.modBindX b f).flash = s.flash := rfl

@[simp] theorem modSess_pending (c : Nat) (f : Xs → Xs) : (s.modSess c f).pending = s.pending := rfl
@[simp] theorem modSess_out (c : Nat) (f : Xs → Xs) : (s.modSess c f).out = s.out := rfl
@[simp] theorem modSess_free (c : Nat) (f : Xs → Xs) : (s.modSess c f).free = s.free := rfl
@[simp] theorem modSess_aonNs (c : Nat) (f : Xs → Xs) : (s.modSess c f).aonNs = s.aonNs := rfl
@[simp] theorem modSess_cds (c : Nat) (f : Xs → Xs) : (s.modSess c f).cds = s.cds := rfl
@[simp] theorem modSess_hbm (c : Nat) (f : Xs → Xs) : (s.modSess c f).hbm = s.hbm := rfl
@[simp] theorem modSess_poison (c : Nat) (f : Xs → Xs) : (s.modSess c f).poison = s.poison := rfl
@[simp] theorem modSess_hub (c : Nat) (f : Xs → Xs) : (s.modSess c f).hub = s.hub := rfl
@[simp] theorem modSess_hubm (c : Nat) (f : Xs → Xs) : (s.modSess c f).hubm = s.hubm := rfl
@[simp] theorem modSess_ox (c : Nat) (f : Xs → Xs) : (s.modSess c f).ox = s.ox := rfl
@[simp] theorem modSess_rt (c : Nat) (f : Xs → Xs) : (s.modSess c f).rt = s.rt := rfl
@[simp] theorem modSess_links (c : Nat) (f : Xs → Xs) : (s.modSess c f).links = s.links := rfl
@[simp] theorem modSess_linkx (c : Nat) (f : Xs → Xs) : (s.modSess c f).linkx = s.linkx := rfl
@[simp] theorem modSess_ft (c : Nat) (f : Xs → Xs) : (s.modSess c f).ft = s.ft := rfl
@[simp] theorem modSess_sq (c : Nat) (f : Xs → Xs) : (s.modSess c f).sq = s.sq := rfl
@[simp] theorem modSess_eths (c : Nat) (f : Xs → Xs) : (s.modSess c f).eths = s.eths := rfl
@[simp] theorem modSess_mbx (c : Nat) (f : Xs → Xs) : (s.modSess c f).mbx = s.mbx := rfl
@[simp] theorem modSess_ctx (c : Nat) (f : Xs → Xs) : (s.modSess c f).ctx = s.ctx := rfl
@[simp] theorem modSess_dis (c : Nat) (f : Xs → Xs) : (s.modSess c f).dis = s.dis := rfl
@[simp] theorem modSess_log (c : Nat) (f : Xs → Xs) : (s.modSess c f).log = s.log := rfl
@[simp] theorem modSess_mirror (c : Nat) (f : Xs → Xs) : (s.modSess c f).mirror = s.mirror := rfl
@[simp] theorem modSess_svc (c : Nat) (f : Xs → Xs) : (s.modSess c f).svc = s.svc := rfl
@[simp] theorem modSess_dies (c : Nat) (f : Xs → Xs) : (s.modSess c f).dies = s.dies := rfl
@[simp] theorem modSess_health (c : Nat) (f : Xs → Xs) : (s.modSess c f).health = s.health := rfl
@[simp] theorem modSess_ledger (c : Nat) (f : Xs → Xs) : (s.modSess c f).ledger = s.ledger := rfl
@[simp] theorem modSess_cfg (c : Nat) (f : Xs → Xs) : (s.modSess c f).cfg = s.cfg := rfl
@[simp] theorem modSess_boot (c : Nat) (f : Xs → Xs) : (s.modSess c f).boot = s.boot := rfl
@[simp] theorem modSess_sec (c : Nat) (f : Xs → Xs) : (s.modSess c f).sec = s.sec := rfl
@[simp] theorem modSess_pwr (c : Nat) (f : Xs → Xs) : (s.modSess c f).pwr = s.pwr := rfl
@[simp] theorem modSess_pins (c : Nat) (f : Xs → Xs) : (s.modSess c f).pins = s.pins := rfl
@[simp] theorem modSess_flash (c : Nat) (f : Xs → Xs) : (s.modSess c f).flash = s.flash := rfl

@[simp] theorem modXfer_pending (x : Nat) (f : Xfer → Xfer) : (s.modXfer x f).pending = s.pending := rfl
@[simp] theorem modXfer_out (x : Nat) (f : Xfer → Xfer) : (s.modXfer x f).out = s.out := rfl
@[simp] theorem modXfer_free (x : Nat) (f : Xfer → Xfer) : (s.modXfer x f).free = s.free := rfl
@[simp] theorem modXfer_aonNs (x : Nat) (f : Xfer → Xfer) : (s.modXfer x f).aonNs = s.aonNs := rfl
@[simp] theorem modXfer_cds (x : Nat) (f : Xfer → Xfer) : (s.modXfer x f).cds = s.cds := rfl
@[simp] theorem modXfer_hbm (x : Nat) (f : Xfer → Xfer) : (s.modXfer x f).hbm = s.hbm := rfl
@[simp] theorem modXfer_poison (x : Nat) (f : Xfer → Xfer) : (s.modXfer x f).poison = s.poison := rfl
@[simp] theorem modXfer_hub (x : Nat) (f : Xfer → Xfer) : (s.modXfer x f).hub = s.hub := rfl
@[simp] theorem modXfer_hubm (x : Nat) (f : Xfer → Xfer) : (s.modXfer x f).hubm = s.hubm := rfl
@[simp] theorem modXfer_ox (x : Nat) (f : Xfer → Xfer) : (s.modXfer x f).ox = s.ox := rfl
@[simp] theorem modXfer_rt (x : Nat) (f : Xfer → Xfer) : (s.modXfer x f).rt = s.rt := rfl
@[simp] theorem modXfer_links (x : Nat) (f : Xfer → Xfer) : (s.modXfer x f).links = s.links := rfl
@[simp] theorem modXfer_linkx (x : Nat) (f : Xfer → Xfer) : (s.modXfer x f).linkx = s.linkx := rfl
@[simp] theorem modXfer_ft (x : Nat) (f : Xfer → Xfer) : (s.modXfer x f).ft = s.ft := rfl
@[simp] theorem modXfer_sq (x : Nat) (f : Xfer → Xfer) : (s.modXfer x f).sq = s.sq := rfl
@[simp] theorem modXfer_eths (x : Nat) (f : Xfer → Xfer) : (s.modXfer x f).eths = s.eths := rfl
@[simp] theorem modXfer_mbx (x : Nat) (f : Xfer → Xfer) : (s.modXfer x f).mbx = s.mbx := rfl
@[simp] theorem modXfer_ctx (x : Nat) (f : Xfer → Xfer) : (s.modXfer x f).ctx = s.ctx := rfl
@[simp] theorem modXfer_dis (x : Nat) (f : Xfer → Xfer) : (s.modXfer x f).dis = s.dis := rfl
@[simp] theorem modXfer_log (x : Nat) (f : Xfer → Xfer) : (s.modXfer x f).log = s.log := rfl
@[simp] theorem modXfer_mirror (x : Nat) (f : Xfer → Xfer) : (s.modXfer x f).mirror = s.mirror := rfl
@[simp] theorem modXfer_svc (x : Nat) (f : Xfer → Xfer) : (s.modXfer x f).svc = s.svc := rfl
@[simp] theorem modXfer_dies (x : Nat) (f : Xfer → Xfer) : (s.modXfer x f).dies = s.dies := rfl
@[simp] theorem modXfer_health (x : Nat) (f : Xfer → Xfer) : (s.modXfer x f).health = s.health := rfl
@[simp] theorem modXfer_ledger (x : Nat) (f : Xfer → Xfer) : (s.modXfer x f).ledger = s.ledger := rfl
@[simp] theorem modXfer_cfg (x : Nat) (f : Xfer → Xfer) : (s.modXfer x f).cfg = s.cfg := rfl
@[simp] theorem modXfer_boot (x : Nat) (f : Xfer → Xfer) : (s.modXfer x f).boot = s.boot := rfl
@[simp] theorem modXfer_sec (x : Nat) (f : Xfer → Xfer) : (s.modXfer x f).sec = s.sec := rfl
@[simp] theorem modXfer_pwr (x : Nat) (f : Xfer → Xfer) : (s.modXfer x f).pwr = s.pwr := rfl
@[simp] theorem modXfer_pins (x : Nat) (f : Xfer → Xfer) : (s.modXfer x f).pins = s.pins := rfl
@[simp] theorem modXfer_flash (x : Nat) (f : Xfer → Xfer) : (s.modXfer x f).flash = s.flash := rfl

@[simp] theorem modBox_pending (c m : Nat) (f : MboxU → MboxU) : (s.modBox c m f).pending = s.pending := rfl
@[simp] theorem modBox_out (c m : Nat) (f : MboxU → MboxU) : (s.modBox c m f).out = s.out := rfl
@[simp] theorem modBox_free (c m : Nat) (f : MboxU → MboxU) : (s.modBox c m f).free = s.free := rfl
@[simp] theorem modBox_aonNs (c m : Nat) (f : MboxU → MboxU) : (s.modBox c m f).aonNs = s.aonNs := rfl
@[simp] theorem modBox_cds (c m : Nat) (f : MboxU → MboxU) : (s.modBox c m f).cds = s.cds := rfl
@[simp] theorem modBox_hbm (c m : Nat) (f : MboxU → MboxU) : (s.modBox c m f).hbm = s.hbm := rfl
@[simp] theorem modBox_poison (c m : Nat) (f : MboxU → MboxU) : (s.modBox c m f).poison = s.poison := rfl
@[simp] theorem modBox_hub (c m : Nat) (f : MboxU → MboxU) : (s.modBox c m f).hub = s.hub := rfl
@[simp] theorem modBox_hubm (c m : Nat) (f : MboxU → MboxU) : (s.modBox c m f).hubm = s.hubm := rfl
@[simp] theorem modBox_ox (c m : Nat) (f : MboxU → MboxU) : (s.modBox c m f).ox = s.ox := rfl
@[simp] theorem modBox_rt (c m : Nat) (f : MboxU → MboxU) : (s.modBox c m f).rt = s.rt := rfl
@[simp] theorem modBox_links (c m : Nat) (f : MboxU → MboxU) : (s.modBox c m f).links = s.links := rfl
@[simp] theorem modBox_linkx (c m : Nat) (f : MboxU → MboxU) : (s.modBox c m f).linkx = s.linkx := rfl
@[simp] theorem modBox_ft (c m : Nat) (f : MboxU → MboxU) : (s.modBox c m f).ft = s.ft := rfl
@[simp] theorem modBox_sq (c m : Nat) (f : MboxU → MboxU) : (s.modBox c m f).sq = s.sq := rfl
@[simp] theorem modBox_eths (c m : Nat) (f : MboxU → MboxU) : (s.modBox c m f).eths = s.eths := rfl
@[simp] theorem modBox_xp (c m : Nat) (f : MboxU → MboxU) : (s.modBox c m f).xp = s.xp := rfl
@[simp] theorem modBox_ctx (c m : Nat) (f : MboxU → MboxU) : (s.modBox c m f).ctx = s.ctx := rfl
@[simp] theorem modBox_dis (c m : Nat) (f : MboxU → MboxU) : (s.modBox c m f).dis = s.dis := rfl
@[simp] theorem modBox_log (c m : Nat) (f : MboxU → MboxU) : (s.modBox c m f).log = s.log := rfl
@[simp] theorem modBox_mirror (c m : Nat) (f : MboxU → MboxU) : (s.modBox c m f).mirror = s.mirror := rfl
@[simp] theorem modBox_svc (c m : Nat) (f : MboxU → MboxU) : (s.modBox c m f).svc = s.svc := rfl
@[simp] theorem modBox_dies (c m : Nat) (f : MboxU → MboxU) : (s.modBox c m f).dies = s.dies := rfl
@[simp] theorem modBox_health (c m : Nat) (f : MboxU → MboxU) : (s.modBox c m f).health = s.health := rfl
@[simp] theorem modBox_ledger (c m : Nat) (f : MboxU → MboxU) : (s.modBox c m f).ledger = s.ledger := rfl
@[simp] theorem modBox_cfg (c m : Nat) (f : MboxU → MboxU) : (s.modBox c m f).cfg = s.cfg := rfl
@[simp] theorem modBox_boot (c m : Nat) (f : MboxU → MboxU) : (s.modBox c m f).boot = s.boot := rfl
@[simp] theorem modBox_sec (c m : Nat) (f : MboxU → MboxU) : (s.modBox c m f).sec = s.sec := rfl
@[simp] theorem modBox_pwr (c m : Nat) (f : MboxU → MboxU) : (s.modBox c m f).pwr = s.pwr := rfl
@[simp] theorem modBox_pins (c m : Nat) (f : MboxU → MboxU) : (s.modBox c m f).pins = s.pins := rfl
@[simp] theorem modBox_flash (c m : Nat) (f : MboxU → MboxU) : (s.modBox c m f).flash = s.flash := rfl

@[simp] theorem modEth_pending (k : Nat) (f : Eth → Eth) : (s.modEth k f).pending = s.pending := rfl
@[simp] theorem modEth_out (k : Nat) (f : Eth → Eth) : (s.modEth k f).out = s.out := rfl
@[simp] theorem modEth_free (k : Nat) (f : Eth → Eth) : (s.modEth k f).free = s.free := rfl
@[simp] theorem modEth_aonNs (k : Nat) (f : Eth → Eth) : (s.modEth k f).aonNs = s.aonNs := rfl
@[simp] theorem modEth_cds (k : Nat) (f : Eth → Eth) : (s.modEth k f).cds = s.cds := rfl
@[simp] theorem modEth_hbm (k : Nat) (f : Eth → Eth) : (s.modEth k f).hbm = s.hbm := rfl
@[simp] theorem modEth_poison (k : Nat) (f : Eth → Eth) : (s.modEth k f).poison = s.poison := rfl
@[simp] theorem modEth_hub (k : Nat) (f : Eth → Eth) : (s.modEth k f).hub = s.hub := rfl
@[simp] theorem modEth_hubm (k : Nat) (f : Eth → Eth) : (s.modEth k f).hubm = s.hubm := rfl
@[simp] theorem modEth_ox (k : Nat) (f : Eth → Eth) : (s.modEth k f).ox = s.ox := rfl
@[simp] theorem modEth_rt (k : Nat) (f : Eth → Eth) : (s.modEth k f).rt = s.rt := rfl
@[simp] theorem modEth_links (k : Nat) (f : Eth → Eth) : (s.modEth k f).links = s.links := rfl
@[simp] theorem modEth_linkx (k : Nat) (f : Eth → Eth) : (s.modEth k f).linkx = s.linkx := rfl
@[simp] theorem modEth_ft (k : Nat) (f : Eth → Eth) : (s.modEth k f).ft = s.ft := rfl
@[simp] theorem modEth_sq (k : Nat) (f : Eth → Eth) : (s.modEth k f).sq = s.sq := rfl
@[simp] theorem modEth_xp (k : Nat) (f : Eth → Eth) : (s.modEth k f).xp = s.xp := rfl
@[simp] theorem modEth_mbx (k : Nat) (f : Eth → Eth) : (s.modEth k f).mbx = s.mbx := rfl
@[simp] theorem modEth_ctx (k : Nat) (f : Eth → Eth) : (s.modEth k f).ctx = s.ctx := rfl
@[simp] theorem modEth_dis (k : Nat) (f : Eth → Eth) : (s.modEth k f).dis = s.dis := rfl
@[simp] theorem modEth_log (k : Nat) (f : Eth → Eth) : (s.modEth k f).log = s.log := rfl
@[simp] theorem modEth_mirror (k : Nat) (f : Eth → Eth) : (s.modEth k f).mirror = s.mirror := rfl
@[simp] theorem modEth_svc (k : Nat) (f : Eth → Eth) : (s.modEth k f).svc = s.svc := rfl
@[simp] theorem modEth_dies (k : Nat) (f : Eth → Eth) : (s.modEth k f).dies = s.dies := rfl
@[simp] theorem modEth_health (k : Nat) (f : Eth → Eth) : (s.modEth k f).health = s.health := rfl
@[simp] theorem modEth_ledger (k : Nat) (f : Eth → Eth) : (s.modEth k f).ledger = s.ledger := rfl
@[simp] theorem modEth_cfg (k : Nat) (f : Eth → Eth) : (s.modEth k f).cfg = s.cfg := rfl
@[simp] theorem modEth_boot (k : Nat) (f : Eth → Eth) : (s.modEth k f).boot = s.boot := rfl
@[simp] theorem modEth_sec (k : Nat) (f : Eth → Eth) : (s.modEth k f).sec = s.sec := rfl
@[simp] theorem modEth_pwr (k : Nat) (f : Eth → Eth) : (s.modEth k f).pwr = s.pwr := rfl
@[simp] theorem modEth_pins (k : Nat) (f : Eth → Eth) : (s.modEth k f).pins = s.pins := rfl
@[simp] theorem modEth_flash (k : Nat) (f : Eth → Eth) : (s.modEth k f).flash = s.flash := rfl

@[simp] theorem modDie_pending (d : Nat) (f : DieU → DieU) : (s.modDie d f).pending = s.pending := rfl
@[simp] theorem modDie_out (d : Nat) (f : DieU → DieU) : (s.modDie d f).out = s.out := rfl
@[simp] theorem modDie_free (d : Nat) (f : DieU → DieU) : (s.modDie d f).free = s.free := rfl
@[simp] theorem modDie_aonNs (d : Nat) (f : DieU → DieU) : (s.modDie d f).aonNs = s.aonNs := rfl
@[simp] theorem modDie_cds (d : Nat) (f : DieU → DieU) : (s.modDie d f).cds = s.cds := rfl
@[simp] theorem modDie_hbm (d : Nat) (f : DieU → DieU) : (s.modDie d f).hbm = s.hbm := rfl
@[simp] theorem modDie_poison (d : Nat) (f : DieU → DieU) : (s.modDie d f).poison = s.poison := rfl
@[simp] theorem modDie_hub (d : Nat) (f : DieU → DieU) : (s.modDie d f).hub = s.hub := rfl
@[simp] theorem modDie_hubm (d : Nat) (f : DieU → DieU) : (s.modDie d f).hubm = s.hubm := rfl
@[simp] theorem modDie_ox (d : Nat) (f : DieU → DieU) : (s.modDie d f).ox = s.ox := rfl
@[simp] theorem modDie_rt (d : Nat) (f : DieU → DieU) : (s.modDie d f).rt = s.rt := rfl
@[simp] theorem modDie_links (d : Nat) (f : DieU → DieU) : (s.modDie d f).links = s.links := rfl
@[simp] theorem modDie_linkx (d : Nat) (f : DieU → DieU) : (s.modDie d f).linkx = s.linkx := rfl
@[simp] theorem modDie_ft (d : Nat) (f : DieU → DieU) : (s.modDie d f).ft = s.ft := rfl
@[simp] theorem modDie_sq (d : Nat) (f : DieU → DieU) : (s.modDie d f).sq = s.sq := rfl
@[simp] theorem modDie_eths (d : Nat) (f : DieU → DieU) : (s.modDie d f).eths = s.eths := rfl
@[simp] theorem modDie_xp (d : Nat) (f : DieU → DieU) : (s.modDie d f).xp = s.xp := rfl
@[simp] theorem modDie_mbx (d : Nat) (f : DieU → DieU) : (s.modDie d f).mbx = s.mbx := rfl
@[simp] theorem modDie_ctx (d : Nat) (f : DieU → DieU) : (s.modDie d f).ctx = s.ctx := rfl
@[simp] theorem modDie_dis (d : Nat) (f : DieU → DieU) : (s.modDie d f).dis = s.dis := rfl
@[simp] theorem modDie_log (d : Nat) (f : DieU → DieU) : (s.modDie d f).log = s.log := rfl
@[simp] theorem modDie_mirror (d : Nat) (f : DieU → DieU) : (s.modDie d f).mirror = s.mirror := rfl
@[simp] theorem modDie_svc (d : Nat) (f : DieU → DieU) : (s.modDie d f).svc = s.svc := rfl
@[simp] theorem modDie_health (d : Nat) (f : DieU → DieU) : (s.modDie d f).health = s.health := rfl
@[simp] theorem modDie_ledger (d : Nat) (f : DieU → DieU) : (s.modDie d f).ledger = s.ledger := rfl
@[simp] theorem modDie_cfg (d : Nat) (f : DieU → DieU) : (s.modDie d f).cfg = s.cfg := rfl
@[simp] theorem modDie_boot (d : Nat) (f : DieU → DieU) : (s.modDie d f).boot = s.boot := rfl
@[simp] theorem modDie_sec (d : Nat) (f : DieU → DieU) : (s.modDie d f).sec = s.sec := rfl
@[simp] theorem modDie_pwr (d : Nat) (f : DieU → DieU) : (s.modDie d f).pwr = s.pwr := rfl
@[simp] theorem modDie_pins (d : Nat) (f : DieU → DieU) : (s.modDie d f).pins = s.pins := rfl
@[simp] theorem modDie_flash (d : Nat) (f : DieU → DieU) : (s.modDie d f).flash = s.flash := rfl

@[simp] theorem emit_pending (o : Output) : (s.emit o).pending = s.pending := rfl
@[simp] theorem emit_free (o : Output) : (s.emit o).free = s.free := rfl
@[simp] theorem emit_aonNs (o : Output) : (s.emit o).aonNs = s.aonNs := rfl
@[simp] theorem emit_cds (o : Output) : (s.emit o).cds = s.cds := rfl
@[simp] theorem emit_hbm (o : Output) : (s.emit o).hbm = s.hbm := rfl
@[simp] theorem emit_poison (o : Output) : (s.emit o).poison = s.poison := rfl
@[simp] theorem emit_hub (o : Output) : (s.emit o).hub = s.hub := rfl
@[simp] theorem emit_hubm (o : Output) : (s.emit o).hubm = s.hubm := rfl
@[simp] theorem emit_ox (o : Output) : (s.emit o).ox = s.ox := rfl
@[simp] theorem emit_rt (o : Output) : (s.emit o).rt = s.rt := rfl
@[simp] theorem emit_links (o : Output) : (s.emit o).links = s.links := rfl
@[simp] theorem emit_linkx (o : Output) : (s.emit o).linkx = s.linkx := rfl
@[simp] theorem emit_ft (o : Output) : (s.emit o).ft = s.ft := rfl
@[simp] theorem emit_sq (o : Output) : (s.emit o).sq = s.sq := rfl
@[simp] theorem emit_eths (o : Output) : (s.emit o).eths = s.eths := rfl
@[simp] theorem emit_xp (o : Output) : (s.emit o).xp = s.xp := rfl
@[simp] theorem emit_mbx (o : Output) : (s.emit o).mbx = s.mbx := rfl
@[simp] theorem emit_ctx (o : Output) : (s.emit o).ctx = s.ctx := rfl
@[simp] theorem emit_dis (o : Output) : (s.emit o).dis = s.dis := rfl
@[simp] theorem emit_log (o : Output) : (s.emit o).log = s.log := rfl
@[simp] theorem emit_mirror (o : Output) : (s.emit o).mirror = s.mirror := rfl
@[simp] theorem emit_svc (o : Output) : (s.emit o).svc = s.svc := rfl
@[simp] theorem emit_dies (o : Output) : (s.emit o).dies = s.dies := rfl
@[simp] theorem emit_health (o : Output) : (s.emit o).health = s.health := rfl
@[simp] theorem emit_ledger (o : Output) : (s.emit o).ledger = s.ledger := rfl
@[simp] theorem emit_cfg (o : Output) : (s.emit o).cfg = s.cfg := rfl
@[simp] theorem emit_boot (o : Output) : (s.emit o).boot = s.boot := rfl
@[simp] theorem emit_sec (o : Output) : (s.emit o).sec = s.sec := rfl
@[simp] theorem emit_pwr (o : Output) : (s.emit o).pwr = s.pwr := rfl
@[simp] theorem emit_pins (o : Output) : (s.emit o).pins = s.pins := rfl
@[simp] theorem emit_flash (o : Output) : (s.emit o).flash = s.flash := rfl

@[simp] theorem drew_pending (n : Nat) : (s.drew n).pending = s.pending := rfl
@[simp] theorem drew_out (n : Nat) : (s.drew n).out = s.out := rfl
@[simp] theorem drew_aonNs (n : Nat) : (s.drew n).aonNs = s.aonNs := rfl
@[simp] theorem drew_cds (n : Nat) : (s.drew n).cds = s.cds := rfl
@[simp] theorem drew_hbm (n : Nat) : (s.drew n).hbm = s.hbm := rfl
@[simp] theorem drew_poison (n : Nat) : (s.drew n).poison = s.poison := rfl
@[simp] theorem drew_hub (n : Nat) : (s.drew n).hub = s.hub := rfl
@[simp] theorem drew_hubm (n : Nat) : (s.drew n).hubm = s.hubm := rfl
@[simp] theorem drew_ox (n : Nat) : (s.drew n).ox = s.ox := rfl
@[simp] theorem drew_rt (n : Nat) : (s.drew n).rt = s.rt := rfl
@[simp] theorem drew_links (n : Nat) : (s.drew n).links = s.links := rfl
@[simp] theorem drew_linkx (n : Nat) : (s.drew n).linkx = s.linkx := rfl
@[simp] theorem drew_ft (n : Nat) : (s.drew n).ft = s.ft := rfl
@[simp] theorem drew_sq (n : Nat) : (s.drew n).sq = s.sq := rfl
@[simp] theorem drew_eths (n : Nat) : (s.drew n).eths = s.eths := rfl
@[simp] theorem drew_xp (n : Nat) : (s.drew n).xp = s.xp := rfl
@[simp] theorem drew_mbx (n : Nat) : (s.drew n).mbx = s.mbx := rfl
@[simp] theorem drew_ctx (n : Nat) : (s.drew n).ctx = s.ctx := rfl
@[simp] theorem drew_dis (n : Nat) : (s.drew n).dis = s.dis := rfl
@[simp] theorem drew_log (n : Nat) : (s.drew n).log = s.log := rfl
@[simp] theorem drew_mirror (n : Nat) : (s.drew n).mirror = s.mirror := rfl
@[simp] theorem drew_svc (n : Nat) : (s.drew n).svc = s.svc := rfl
@[simp] theorem drew_dies (n : Nat) : (s.drew n).dies = s.dies := rfl
@[simp] theorem drew_health (n : Nat) : (s.drew n).health = s.health := rfl
@[simp] theorem drew_ledger (n : Nat) : (s.drew n).ledger = s.ledger := rfl
@[simp] theorem drew_cfg (n : Nat) : (s.drew n).cfg = s.cfg := rfl
@[simp] theorem drew_boot (n : Nat) : (s.drew n).boot = s.boot := rfl
@[simp] theorem drew_sec (n : Nat) : (s.drew n).sec = s.sec := rfl
@[simp] theorem drew_pwr (n : Nat) : (s.drew n).pwr = s.pwr := rfl
@[simp] theorem drew_pins (n : Nat) : (s.drew n).pins = s.pins := rfl
@[simp] theorem drew_flash (n : Nat) : (s.drew n).flash = s.flash := rfl

/-! What an update changes. -/

@[simp] theorem cd_modCd (n k : Nat) (f : ComputeDie → ComputeDie) :
    (s.modCd n f).cd k = if k = n then f (s.cd n) else s.cd k := by simp [cd, modCd]

@[simp] theorem tile_modTile (n p k q : Nat) (f : Tile → Tile) :
    (s.modTile n p f).tile k q = if k = n ∧ q = p then f (s.tile n p) else s.tile k q := by
  unfold modTile tile
  by_cases hk : k = n <;> by_cases hq : q = p <;> simp [hk, hq]

@[simp] theorem tile_modMule (n p k q : Nat) (f : Mule → Mule) :
    (s.modMule n p f).tile k q = if k = n ∧ q = p then { s.tile n p with mule := f (s.tile n p).mule } else s.tile k q := by
  simp [modMule]

@[simp] theorem tile_modMem (n p k q : Nat) (f : MuleMem → MuleMem) :
    (s.modMem n p f).tile k q = if k = n ∧ q = p then { s.tile n p with mem := f (s.tile n p).mem } else s.tile k q := by
  simp [modMem]

@[simp] theorem tile_modArr (n p k q : Nat) (f : ArrayU → ArrayU) :
    (s.modArr n p f).tile k q = if k = n ∧ q = p then { s.tile n p with arr := f (s.tile n p).arr } else s.tile k q := by
  simp [modArr]

@[simp] theorem tile_modEe (n p k q : Nat) (f : EeU → EeU) :
    (s.modEe n p f).tile k q = if k = n ∧ q = p then { s.tile n p with ee := f (s.tile n p).ee } else s.tile k q := by
  simp [modEe]

/-- An update of a tile leaves the rest of its die. -/
theorem cd_modTile (n p k : Nat) (f : Tile → Tile) :
    (s.modTile n p f).cd k = if k = n then { s.cd n with tiles := Tab.set {} (s.cd n).tiles p (f (s.tile n p)) } else s.cd k := by
  simp [modTile, tile]

@[simp] theorem link_modLink (l k : Nat) (f : Link → Link) :
    (s.modLink l f).link k = if k = l then f (s.link l) else s.link k := by simp [link, modLink]

@[simp] theorem lx_modLx (l k : Nat) (f : LinkX → LinkX) :
    (s.modLx l f).lx k = if k = l then f (s.lx l) else s.lx k := by simp [lx, modLx]

@[simp] theorem link_modLx (l k : Nat) (f : LinkX → LinkX) : (s.modLx l f).link k = s.link k := rfl

@[simp] theorem lx_modLink (l k : Nat) (f : Link → Link) : (s.modLink l f).lx k = s.lx k := rfl

@[simp] theorem cx_modCx (x k : Nat) (f : Ctx → Ctx) : (s.modCx x f).cx k = if k = x then f (s.cx x) else s.cx k := by
  simp [cx, modCx]

@[simp] theorem cxx_modCxx (x k : Nat) (f : CtxX → CtxX) : (s.modCxx x f).cxx k = if k = x then f (s.cxx x) else s.cxx k := by
  simp [cxx, modCxx]

@[simp] theorem cx_modCxx (x k : Nat) (f : CtxX → CtxX) : (s.modCxx x f).cx k = s.cx k := rfl

@[simp] theorem cxx_modCx (x k : Nat) (f : Ctx → Ctx) : (s.modCx x f).cxx k = s.cxx k := rfl

@[simp] theorem lrec_modRec (r k : Nat) (f : Rec → Rec) : (s.modRec r f).lrec k = if k = r then f (s.lrec r) else s.lrec k := by
  simp [lrec, modRec]

@[simp] theorem recX_modRecX (r k : Nat) (f : RecX → RecX) :
    (s.modRecX r f).recX k = if k = r then f (s.recX r) else s.recX k := by simp [recX, modRecX]

@[simp] theorem lrec_modRecX (r k : Nat) (f : RecX → RecX) : (s.modRecX r f).lrec k = s.lrec k := rfl

@[simp] theorem recX_modRec (r k : Nat) (f : Rec → Rec) : (s.modRec r f).recX k = s.recX k := rfl

@[simp] theorem bind_modBind (b k : Nat) (f : Binding → Binding) :
    (s.modBind b f).bind k = if k = b then f (s.bind b) else s.bind k := by simp [bind, modBind]

@[simp] theorem bindX_modBindX (b k : Nat) (f : BindX → BindX) :
    (s.modBindX b f).bindX k = if k = b then f (s.bindX b) else s.bindX k := by simp [bindX, modBindX]

@[simp] theorem bind_modBindX (b k : Nat) (f : BindX → BindX) : (s.modBindX b f).bind k = s.bind k := rfl

@[simp] theorem bindX_modBind (b k : Nat) (f : Binding → Binding) : (s.modBind b f).bindX k = s.bindX k := rfl

@[simp] theorem sess_modSess (c k : Nat) (f : Xs → Xs) : (s.modSess c f).sess k = if k = c then f (s.sess c) else s.sess k := by
  simp [sess, modSess]

@[simp] theorem xfer_modXfer (x k : Nat) (f : Xfer → Xfer) :
    (s.modXfer x f).xfer k = if k = x then f (s.xfer x) else s.xfer k := by simp [xfer, modXfer]

@[simp] theorem box_modBox (c m k j : Nat) (f : MboxU → MboxU) :
    (s.modBox c m f).box k j = if 8 * k + j = 8 * c + m then f (s.box c m) else s.box k j := by simp [box, modBox]

@[simp] theorem eth_modEth (k j : Nat) (f : Eth → Eth) : (s.modEth k f).eth j = if j = k then f (s.eth k) else s.eth j := by
  simp [eth, modEth]

@[simp] theorem dieU_modDie (d k : Nat) (f : DieU → DieU) : (s.modDie d f).dieU k = if k = d then f (s.dieU d) else s.dieU k := by
  simp [dieU, modDie]

@[simp] theorem out_emit (o : Output) : (s.emit o).out = o :: s.out := rfl

@[simp] theorem free_drew (n : Nat) : (s.drew n).free = s.free + n := rfl

@[simp] theorem prog_modProg (x k : Nat) (f : Progress → Progress) :
    (s.modProg x f).prog k = if k = x then f (s.progNow x) else s.prog k := by simp [prog, modProg]

end Sys2Proof.Machine.State
end

