-- ==== Sys2Proof/Laws/Ops.lean ====
section
/-! SUPPORT. Laws of the shared operations: what logging, replying, notifying, a change of a context's state, a sleep record and a tick
may change, and the trace they leave. -/

namespace Sys2Proof.Machine.State

variable (s : State)

@[simp] theorem counted_pending (e : Event) : (s.counted e).pending = s.pending := by
  unfold counted; cases e.contrib <;> simp only []; split <;> split <;> rfl
@[simp] theorem counted_out (e : Event) : (s.counted e).out = s.out := by
  unfold counted; cases e.contrib <;> simp only []; split <;> split <;> rfl
@[simp] theorem counted_free (e : Event) : (s.counted e).free = s.free := by
  unfold counted; cases e.contrib <;> simp only []; split <;> split <;> rfl
@[simp] theorem counted_aonNs (e : Event) : (s.counted e).aonNs = s.aonNs := by
  unfold counted; cases e.contrib <;> simp only []; split <;> split <;> rfl
@[simp] theorem counted_cds (e : Event) : (s.counted e).cds = s.cds := by
  unfold counted; cases e.contrib <;> simp only []; split <;> split <;> rfl
@[simp] theorem counted_hbm (e : Event) : (s.counted e).hbm = s.hbm := by
  unfold counted; cases e.contrib <;> simp only []; split <;> split <;> rfl
@[simp] theorem counted_poison (e : Event) : (s.counted e).poison = s.poison := by
  unfold counted; cases e.contrib <;> simp only []; split <;> split <;> rfl
@[simp] theorem counted_hub (e : Event) : (s.counted e).hub = s.hub := by
  unfold counted; cases e.contrib <;> simp only []; split <;> split <;> rfl
@[simp] theorem counted_hubm (e : Event) : (s.counted e).hubm = s.hubm := by
  unfold counted; cases e.contrib <;> simp only []; split <;> split <;> rfl
@[simp] theorem counted_ox (e : Event) : (s.counted e).ox = s.ox := by
  unfold counted; cases e.contrib <;> simp only []; split <;> split <;> rfl
@[simp] theorem counted_rt (e : Event) : (s.counted e).rt = s.rt := by
  unfold counted; cases e.contrib <;> simp only []; split <;> split <;> rfl
@[simp] theorem counted_links (e : Event) : (s.counted e).links = s.links := by
  unfold counted; cases e.contrib <;> simp only []; split <;> split <;> rfl
@[simp] theorem counted_linkx (e : Event) : (s.counted e).linkx = s.linkx := by
  unfold counted; cases e.contrib <;> simp only []; split <;> split <;> rfl
@[simp] theorem counted_ft (e : Event) : (s.counted e).ft = s.ft := by
  unfold counted; cases e.contrib <;> simp only []; split <;> split <;> rfl
@[simp] theorem counted_sq (e : Event) : (s.counted e).sq = s.sq := by
  unfold counted; cases e.contrib <;> simp only []; split <;> split <;> rfl
@[simp] theorem counted_eths (e : Event) : (s.counted e).eths = s.eths := by
  unfold counted; cases e.contrib <;> simp only []; split <;> split <;> rfl
@[simp] theorem counted_xp (e : Event) : (s.counted e).xp = s.xp := by
  unfold counted; cases e.contrib <;> simp only []; split <;> split <;> rfl
@[simp] theorem counted_mbx (e : Event) : (s.counted e).mbx = s.mbx := by
  unfold counted; cases e.contrib <;> simp only []; split <;> split <;> rfl
@[simp] theorem counted_ctx (e : Event) : (s.counted e).ctx = s.ctx := by
  unfold counted; cases e.contrib <;> simp only []; split <;> split <;> rfl
@[simp] theorem counted_dis (e : Event) : (s.counted e).dis = s.dis := by
  unfold counted; cases e.contrib <;> simp only []; split <;> split <;> rfl
@[simp] theorem counted_log (e : Event) : (s.counted e).log = s.log := by
  unfold counted; cases e.contrib <;> simp only []; split <;> split <;> rfl
@[simp] theorem counted_mirror (e : Event) : (s.counted e).mirror = s.mirror := by
  unfold counted; cases e.contrib <;> simp only []; split <;> split <;> rfl
@[simp] theorem counted_svc (e : Event) : (s.counted e).svc = s.svc := by
  unfold counted; cases e.contrib <;> simp only []; split <;> split <;> rfl
@[simp] theorem counted_dies (e : Event) : (s.counted e).dies = s.dies := by
  unfold counted; cases e.contrib <;> simp only []; split <;> split <;> rfl
@[simp] theorem counted_cfg (e : Event) : (s.counted e).cfg = s.cfg := by
  unfold counted; cases e.contrib <;> simp only []; split <;> split <;> rfl
@[simp] theorem counted_boot (e : Event) : (s.counted e).boot = s.boot := by
  unfold counted; cases e.contrib <;> simp only []; split <;> split <;> rfl
@[simp] theorem counted_sec (e : Event) : (s.counted e).sec = s.sec := by
  unfold counted; cases e.contrib <;> simp only []; split <;> split <;> rfl
@[simp] theorem counted_pwr (e : Event) : (s.counted e).pwr = s.pwr := by
  unfold counted; cases e.contrib <;> simp only []; split <;> split <;> rfl
@[simp] theorem counted_pins (e : Event) : (s.counted e).pins = s.pins := by
  unfold counted; cases e.contrib <;> simp only []; split <;> split <;> rfl
@[simp] theorem counted_flash (e : Event) : (s.counted e).flash = s.flash := by
  unfold counted; cases e.contrib <;> simp only []; split <;> split <;> rfl

@[simp] theorem toLedger_pending (e : Event) : (s.toLedger e).pending = s.pending := by
  unfold toLedger; dsimp only; split; rfl; split; split; rfl; rfl; rfl
@[simp] theorem toLedger_out (e : Event) : (s.toLedger e).out = s.out := by
  unfold toLedger; dsimp only; split; rfl; split; split; rfl; rfl; rfl
@[simp] theorem toLedger_free (e : Event) : (s.toLedger e).free = s.free := by
  unfold toLedger; dsimp only; split; rfl; split; split; rfl; rfl; rfl
@[simp] theorem toLedger_aonNs (e : Event) : (s.toLedger e).aonNs = s.aonNs := by
  unfold toLedger; dsimp only; split; rfl; split; split; rfl; rfl; rfl
@[simp] theorem toLedger_cds (e : Event) : (s.toLedger e).cds = s.cds := by
  unfold toLedger; dsimp only; split; rfl; split; split; rfl; rfl; rfl
@[simp] theorem toLedger_hbm (e : Event) : (s.toLedger e).hbm = s.hbm := by
  unfold toLedger; dsimp only; split; rfl; split; split; rfl; rfl; rfl
@[simp] theorem toLedger_poison (e : Event) : (s.toLedger e).poison = s.poison := by
  unfold toLedger; dsimp only; split; rfl; split; split; rfl; rfl; rfl
@[simp] theorem toLedger_hub (e : Event) : (s.toLedger e).hub = s.hub := by
  unfold toLedger; dsimp only; split; rfl; split; split; rfl; rfl; rfl
@[simp] theorem toLedger_hubm (e : Event) : (s.toLedger e).hubm = s.hubm := by
  unfold toLedger; dsimp only; split; rfl; split; split; rfl; rfl; rfl
@[simp] theorem toLedger_ox (e : Event) : (s.toLedger e).ox = s.ox := by
  unfold toLedger; dsimp only; split; rfl; split; split; rfl; rfl; rfl
@[simp] theorem toLedger_rt (e : Event) : (s.toLedger e).rt = s.rt := by
  unfold toLedger; dsimp only; split; rfl; split; split; rfl; rfl; rfl
@[simp] theorem toLedger_links (e : Event) : (s.toLedger e).links = s.links := by
  unfold toLedger; dsimp only; split; rfl; split; split; rfl; rfl; rfl
@[simp] theorem toLedger_linkx (e : Event) : (s.toLedger e).linkx = s.linkx := by
  unfold toLedger; dsimp only; split; rfl; split; split; rfl; rfl; rfl
@[simp] theorem toLedger_ft (e : Event) : (s.toLedger e).ft = s.ft := by
  unfold toLedger; dsimp only; split; rfl; split; split; rfl; rfl; rfl
@[simp] theorem toLedger_sq (e : Event) : (s.toLedger e).sq = s.sq := by
  unfold toLedger; dsimp only; split; rfl; split; split; rfl; rfl; rfl
@[simp] theorem toLedger_eths (e : Event) : (s.toLedger e).eths = s.eths := by
  unfold toLedger; dsimp only; split; rfl; split; split; rfl; rfl; rfl
@[simp] theorem toLedger_xp (e : Event) : (s.toLedger e).xp = s.xp := by
  unfold toLedger; dsimp only; split; rfl; split; split; rfl; rfl; rfl
@[simp] theorem toLedger_mbx (e : Event) : (s.toLedger e).mbx = s.mbx := by
  unfold toLedger; dsimp only; split; rfl; split; split; rfl; rfl; rfl
@[simp] theorem toLedger_ctx (e : Event) : (s.toLedger e).ctx = s.ctx := by
  unfold toLedger; dsimp only; split; rfl; split; split; rfl; rfl; rfl
@[simp] theorem toLedger_dis (e : Event) : (s.toLedger e).dis = s.dis := by
  unfold toLedger; dsimp only; split; rfl; split; split; rfl; rfl; rfl
@[simp] theorem toLedger_log (e : Event) : (s.toLedger e).log = s.log := by
  unfold toLedger; dsimp only; split; rfl; split; split; rfl; rfl; rfl
@[simp] theorem toLedger_mirror (e : Event) : (s.toLedger e).mirror = s.mirror := by
  unfold toLedger; dsimp only; split; rfl; split; split; rfl; rfl; rfl
@[simp] theorem toLedger_svc (e : Event) : (s.toLedger e).svc = s.svc := by
  unfold toLedger; dsimp only; split; rfl; split; split; rfl; rfl; rfl
@[simp] theorem toLedger_dies (e : Event) : (s.toLedger e).dies = s.dies := by
  unfold toLedger; dsimp only; split; rfl; split; split; rfl; rfl; rfl
@[simp] theorem toLedger_cfg (e : Event) : (s.toLedger e).cfg = s.cfg := by
  unfold toLedger; dsimp only; split; rfl; split; split; rfl; rfl; rfl
@[simp] theorem toLedger_boot (e : Event) : (s.toLedger e).boot = s.boot := by
  unfold toLedger; dsimp only; split; rfl; split; split; rfl; rfl; rfl
@[simp] theorem toLedger_sec (e : Event) : (s.toLedger e).sec = s.sec := by
  unfold toLedger; dsimp only; split; rfl; split; split; rfl; rfl; rfl
@[simp] theorem toLedger_pwr (e : Event) : (s.toLedger e).pwr = s.pwr := by
  unfold toLedger; dsimp only; split; rfl; split; split; rfl; rfl; rfl
@[simp] theorem toLedger_pins (e : Event) : (s.toLedger e).pins = s.pins := by
  unfold toLedger; dsimp only; split; rfl; split; split; rfl; rfl; rfl
@[simp] theorem toLedger_flash (e : Event) : (s.toLedger e).flash = s.flash := by
  unfold toLedger; dsimp only; split; rfl; split; split; rfl; rfl; rfl

@[simp] theorem logEv_pending (e : Event) : (s.logEv e).pending = s.pending := by
  unfold logEv; dsimp only; split; split <;> rfl; split <;> simp
@[simp] theorem logEv_out (e : Event) : (s.logEv e).out = s.out := by
  unfold logEv; dsimp only; split; split <;> rfl; split <;> simp
@[simp] theorem logEv_free (e : Event) : (s.logEv e).free = s.free := by
  unfold logEv; dsimp only; split; split <;> rfl; split <;> simp
@[simp] theorem logEv_aonNs (e : Event) : (s.logEv e).aonNs = s.aonNs := by
  unfold logEv; dsimp only; split; split <;> rfl; split <;> simp
@[simp] theorem logEv_cds (e : Event) : (s.logEv e).cds = s.cds := by
  unfold logEv; dsimp only; split; split <;> rfl; split <;> simp
@[simp] theorem logEv_hbm (e : Event) : (s.logEv e).hbm = s.hbm := by
  unfold logEv; dsimp only; split; split <;> rfl; split <;> simp
@[simp] theorem logEv_poison (e : Event) : (s.logEv e).poison = s.poison := by
  unfold logEv; dsimp only; split; split <;> rfl; split <;> simp
@[simp] theorem logEv_hub (e : Event) : (s.logEv e).hub = s.hub := by
  unfold logEv; dsimp only; split; split <;> rfl; split <;> simp
@[simp] theorem logEv_hubm (e : Event) : (s.logEv e).hubm = s.hubm := by
  unfold logEv; dsimp only; split; split <;> rfl; split <;> simp
@[simp] theorem logEv_ox (e : Event) : (s.logEv e).ox = s.ox := by
  unfold logEv; dsimp only; split; split <;> rfl; split <;> simp
@[simp] theorem logEv_rt (e : Event) : (s.logEv e).rt = s.rt := by
  unfold logEv; dsimp only; split; split <;> rfl; split <;> simp
@[simp] theorem logEv_links (e : Event) : (s.logEv e).links = s.links := by
  unfold logEv; dsimp only; split; split <;> rfl; split <;> simp
@[simp] theorem logEv_linkx (e : Event) : (s.logEv e).linkx = s.linkx := by
  unfold logEv; dsimp only; split; split <;> rfl; split <;> simp
@[simp] theorem logEv_ft (e : Event) : (s.logEv e).ft = s.ft := by
  unfold logEv; dsimp only; split; split <;> rfl; split <;> simp
@[simp] theorem logEv_sq (e : Event) : (s.logEv e).sq = s.sq := by
  unfold logEv; dsimp only; split; split <;> rfl; split <;> simp
@[simp] theorem logEv_eths (e : Event) : (s.logEv e).eths = s.eths := by
  unfold logEv; dsimp only; split; split <;> rfl; split <;> simp
@[simp] theorem logEv_xp (e : Event) : (s.logEv e).xp = s.xp := by
  unfold logEv; dsimp only; split; split <;> rfl; split <;> simp
@[simp] theorem logEv_mbx (e : Event) : (s.logEv e).mbx = s.mbx := by
  unfold logEv; dsimp only; split; split <;> rfl; split <;> simp
@[simp] theorem logEv_ctx (e : Event) : (s.logEv e).ctx = s.ctx := by
  unfold logEv; dsimp only; split; split <;> rfl; split <;> simp
@[simp] theorem logEv_dis (e : Event) : (s.logEv e).dis = s.dis := by
  unfold logEv; dsimp only; split; split <;> rfl; split <;> simp
@[simp] theorem logEv_svc (e : Event) : (s.logEv e).svc = s.svc := by
  unfold logEv; dsimp only; split; split <;> rfl; split <;> simp
@[simp] theorem logEv_dies (e : Event) : (s.logEv e).dies = s.dies := by
  unfold logEv; dsimp only; split; split <;> rfl; split <;> simp
@[simp] theorem logEv_cfg (e : Event) : (s.logEv e).cfg = s.cfg := by
  unfold logEv; dsimp only; split; split <;> rfl; split <;> simp
@[simp] theorem logEv_boot (e : Event) : (s.logEv e).boot = s.boot := by
  unfold logEv; dsimp only; split; split <;> rfl; split <;> simp
@[simp] theorem logEv_sec (e : Event) : (s.logEv e).sec = s.sec := by
  unfold logEv; dsimp only; split; split <;> rfl; split <;> simp
@[simp] theorem logEv_pwr (e : Event) : (s.logEv e).pwr = s.pwr := by
  unfold logEv; dsimp only; split; split <;> rfl; split <;> simp
@[simp] theorem logEv_pins (e : Event) : (s.logEv e).pins = s.pins := by
  unfold logEv; dsimp only; split; split <;> rfl; split <;> simp
@[simp] theorem logEv_flash (e : Event) : (s.logEv e).flash = s.flash := by
  unfold logEv; dsimp only; split; split <;> rfl; split <;> simp

@[simp] theorem raise_pending (die unit sev : Nat) (code : Err) (data : List Byte) (x : Nat) (contrib : Option Nat) (l : Nat) : (s.raise die unit sev code data x contrib l).pending = s.pending := by
  simp [raise]
@[simp] theorem raise_out (die unit sev : Nat) (code : Err) (data : List Byte) (x : Nat) (contrib : Option Nat) (l : Nat) : (s.raise die unit sev code data x contrib l).out = s.out := by
  simp [raise]
@[simp] theorem raise_free (die unit sev : Nat) (code : Err) (data : List Byte) (x : Nat) (contrib : Option Nat) (l : Nat) : (s.raise die unit sev code data x contrib l).free = s.free := by
  simp [raise]
@[simp] theorem raise_aonNs (die unit sev : Nat) (code : Err) (data : List Byte) (x : Nat) (contrib : Option Nat) (l : Nat) : (s.raise die unit sev code data x contrib l).aonNs = s.aonNs := by
  simp [raise]
@[simp] theorem raise_cds (die unit sev : Nat) (code : Err) (data : List Byte) (x : Nat) (contrib : Option Nat) (l : Nat) : (s.raise die unit sev code data x contrib l).cds = s.cds := by
  simp [raise]
@[simp] theorem raise_hbm (die unit sev : Nat) (code : Err) (data : List Byte) (x : Nat) (contrib : Option Nat) (l : Nat) : (s.raise die unit sev code data x contrib l).hbm = s.hbm := by
  simp [raise]
@[simp] theorem raise_poison (die unit sev : Nat) (code : Err) (data : List Byte) (x : Nat) (contrib : Option Nat) (l : Nat) : (s.raise die unit sev code data x contrib l).poison = s.poison := by
  simp [raise]
@[simp] theorem raise_hub (die unit sev : Nat) (code : Err) (data : List Byte) (x : Nat) (contrib : Option Nat) (l : Nat) : (s.raise die unit sev code data x contrib l).hub = s.hub := by
  simp [raise]
@[simp] theorem raise_hubm (die unit sev : Nat) (code : Err) (data : List Byte) (x : Nat) (contrib : Option Nat) (l : Nat) : (s.raise die unit sev code data x contrib l).hubm = s.hubm := by
  simp [raise]
@[simp] theorem raise_ox (die unit sev : Nat) (code : Err) (data : List Byte) (x : Nat) (contrib : Option Nat) (l : Nat) : (s.raise die unit sev code data x contrib l).ox = s.ox := by
  simp [raise]
@[simp] theorem raise_rt (die unit sev : Nat) (code : Err) (data : List Byte) (x : Nat) (contrib : Option Nat) (l : Nat) : (s.raise die unit sev code data x contrib l).rt = s.rt := by
  simp [raise]
@[simp] theorem raise_links (die unit sev : Nat) (code : Err) (data : List Byte) (x : Nat) (contrib : Option Nat) (l : Nat) : (s.raise die unit sev code data x contrib l).links = s.links := by
  simp [raise]
@[simp] theorem raise_linkx (die unit sev : Nat) (code : Err) (data : List Byte) (x : Nat) (contrib : Option Nat) (l : Nat) : (s.raise die unit sev code data x contrib l).linkx = s.linkx := by
  simp [raise]
@[simp] theorem raise_ft (die unit sev : Nat) (code : Err) (data : List Byte) (x : Nat) (contrib : Option Nat) (l : Nat) : (s.raise die unit sev code data x contrib l).ft = s.ft := by
  simp [raise]
@[simp] theorem raise_sq (die unit sev : Nat) (code : Err) (data : List Byte) (x : Nat) (contrib : Option Nat) (l : Nat) : (s.raise die unit sev code data x contrib l).sq = s.sq := by
  simp [raise]
@[simp] theorem raise_eths (die unit sev : Nat) (code : Err) (data : List Byte) (x : Nat) (contrib : Option Nat) (l : Nat) : (s.raise die unit sev code data x contrib l).eths = s.eths := by
  simp [raise]
@[simp] theorem raise_xp (die unit sev : Nat) (code : Err) (data : List Byte) (x : Nat) (contrib : Option Nat) (l : Nat) : (s.raise die unit sev code data x contrib l).xp = s.xp := by
  simp [raise]
@[simp] theorem raise_mbx (die unit sev : Nat) (code : Err) (data : List Byte) (x : Nat) (contrib : Option Nat) (l : Nat) : (s.raise die unit sev code data x contrib l).mbx = s.mbx := by
  simp [raise]
@[simp] theorem raise_ctx (die unit sev : Nat) (code : Err) (data : List Byte) (x : Nat) (contrib : Option Nat) (l : Nat) : (s.raise die unit sev code data x contrib l).ctx = s.ctx := by
  simp [raise]
@[simp] theorem raise_dis (die unit sev : Nat) (code : Err) (data : List Byte) (x : Nat) (contrib : Option Nat) (l : Nat) : (s.raise die unit sev code data x contrib l).dis = s.dis := by
  simp [raise]
@[simp] theorem raise_svc (die unit sev : Nat) (code : Err) (data : List Byte) (x : Nat) (contrib : Option Nat) (l : Nat) : (s.raise die unit sev code data x contrib l).svc = s.svc := by
  simp [raise]
@[simp] theorem raise_dies (die unit sev : Nat) (code : Err) (data : List Byte) (x : Nat) (contrib : Option Nat) (l : Nat) : (s.raise die unit sev code data x contrib l).dies = s.dies := by
  simp [raise]
@[simp] theorem raise_cfg (die unit sev : Nat) (code : Err) (data : List Byte) (x : Nat) (contrib : Option Nat) (l : Nat) : (s.raise die unit sev code data x contrib l).cfg = s.cfg := by
  simp [raise]
@[simp] theorem raise_boot (die unit sev : Nat) (code : Err) (data : List Byte) (x : Nat) (contrib : Option Nat) (l : Nat) : (s.raise die unit sev code data x contrib l).boot = s.boot := by
  simp [raise]
@[simp] theorem raise_sec (die unit sev : Nat) (code : Err) (data : List Byte) (x : Nat) (contrib : Option Nat) (l : Nat) : (s.raise die unit sev code data x contrib l).sec = s.sec := by
  simp [raise]
@[simp] theorem raise_pwr (die unit sev : Nat) (code : Err) (data : List Byte) (x : Nat) (contrib : Option Nat) (l : Nat) : (s.raise die unit sev code data x contrib l).pwr = s.pwr := by
  simp [raise]
@[simp] theorem raise_pins (die unit sev : Nat) (code : Err) (data : List Byte) (x : Nat) (contrib : Option Nat) (l : Nat) : (s.raise die unit sev code data x contrib l).pins = s.pins := by
  simp [raise]
@[simp] theorem raise_flash (die unit sev : Nat) (code : Err) (data : List Byte) (x : Nat) (contrib : Option Nat) (l : Nat) : (s.raise die unit sev code data x contrib l).flash = s.flash := by
  simp [raise]

@[simp] theorem substituted_pending (die unit kind index old new sev : Nat) (code : Err) : (s.substituted die unit kind index old new sev code).pending = s.pending := by
  unfold substituted; dsimp only; split <;> simp
@[simp] theorem substituted_out (die unit kind index old new sev : Nat) (code : Err) : (s.substituted die unit kind index old new sev code).out = s.out := by
  unfold substituted; dsimp only; split <;> simp
@[simp] theorem substituted_free (die unit kind index old new sev : Nat) (code : Err) : (s.substituted die unit kind index old new sev code).free = s.free := by
  unfold substituted; dsimp only; split <;> simp
@[simp] theorem substituted_aonNs (die unit kind index old new sev : Nat) (code : Err) : (s.substituted die unit kind index old new sev code).aonNs = s.aonNs := by
  unfold substituted; dsimp only; split <;> simp
@[simp] theorem substituted_cds (die unit kind index old new sev : Nat) (code : Err) : (s.substituted die unit kind index old new sev code).cds = s.cds := by
  unfold substituted; dsimp only; split <;> simp
@[simp] theorem substituted_hbm (die unit kind index old new sev : Nat) (code : Err) : (s.substituted die unit kind index old new sev code).hbm = s.hbm := by
  unfold substituted; dsimp only; split <;> simp
@[simp] theorem substituted_poison (die unit kind index old new sev : Nat) (code : Err) : (s.substituted die unit kind index old new sev code).poison = s.poison := by
  unfold substituted; dsimp only; split <;> simp
@[simp] theorem substituted_hub (die unit kind index old new sev : Nat) (code : Err) : (s.substituted die unit kind index old new sev code).hub = s.hub := by
  unfold substituted; dsimp only; split <;> simp
@[simp] theorem substituted_hubm (die unit kind index old new sev : Nat) (code : Err) : (s.substituted die unit kind index old new sev code).hubm = s.hubm := by
  unfold substituted; dsimp only; split <;> simp
@[simp] theorem substituted_ox (die unit kind index old new sev : Nat) (code : Err) : (s.substituted die unit kind index old new sev code).ox = s.ox := by
  unfold substituted; dsimp only; split <;> simp
@[simp] theorem substituted_rt (die unit kind index old new sev : Nat) (code : Err) : (s.substituted die unit kind index old new sev code).rt = s.rt := by
  unfold substituted; dsimp only; split <;> simp
@[simp] theorem substituted_links (die unit kind index old new sev : Nat) (code : Err) : (s.substituted die unit kind index old new sev code).links = s.links := by
  unfold substituted; dsimp only; split <;> simp
@[simp] theorem substituted_linkx (die unit kind index old new sev : Nat) (code : Err) : (s.substituted die unit kind index old new sev code).linkx = s.linkx := by
  unfold substituted; dsimp only; split <;> simp
@[simp] theorem substituted_ft (die unit kind index old new sev : Nat) (code : Err) : (s.substituted die unit kind index old new sev code).ft = s.ft := by
  unfold substituted; dsimp only; split <;> simp
@[simp] theorem substituted_sq (die unit kind index old new sev : Nat) (code : Err) : (s.substituted die unit kind index old new sev code).sq = s.sq := by
  unfold substituted; dsimp only; split <;> simp
@[simp] theorem substituted_eths (die unit kind index old new sev : Nat) (code : Err) : (s.substituted die unit kind index old new sev code).eths = s.eths := by
  unfold substituted; dsimp only; split <;> simp
@[simp] theorem substituted_xp (die unit kind index old new sev : Nat) (code : Err) : (s.substituted die unit kind index old new sev code).xp = s.xp := by
  unfold substituted; dsimp only; split <;> simp
@[simp] theorem substituted_mbx (die unit kind index old new sev : Nat) (code : Err) : (s.substituted die unit kind index old new sev code).mbx = s.mbx := by
  unfold substituted; dsimp only; split <;> simp
@[simp] theorem substituted_ctx (die unit kind index old new sev : Nat) (code : Err) : (s.substituted die unit kind index old new sev code).ctx = s.ctx := by
  unfold substituted; dsimp only; split <;> simp
@[simp] theorem substituted_dis (die unit kind index old new sev : Nat) (code : Err) : (s.substituted die unit kind index old new sev code).dis = s.dis := by
  unfold substituted; dsimp only; split <;> simp
@[simp] theorem substituted_svc (die unit kind index old new sev : Nat) (code : Err) : (s.substituted die unit kind index old new sev code).svc = s.svc := by
  unfold substituted; dsimp only; split <;> simp
@[simp] theorem substituted_dies (die unit kind index old new sev : Nat) (code : Err) : (s.substituted die unit kind index old new sev code).dies = s.dies := by
  unfold substituted; dsimp only; split <;> simp
@[simp] theorem substituted_cfg (die unit kind index old new sev : Nat) (code : Err) : (s.substituted die unit kind index old new sev code).cfg = s.cfg := by
  unfold substituted; dsimp only; split <;> simp
@[simp] theorem substituted_boot (die unit kind index old new sev : Nat) (code : Err) : (s.substituted die unit kind index old new sev code).boot = s.boot := by
  unfold substituted; dsimp only; split <;> simp
@[simp] theorem substituted_sec (die unit kind index old new sev : Nat) (code : Err) : (s.substituted die unit kind index old new sev code).sec = s.sec := by
  unfold substituted; dsimp only; split <;> simp
@[simp] theorem substituted_pwr (die unit kind index old new sev : Nat) (code : Err) : (s.substituted die unit kind index old new sev code).pwr = s.pwr := by
  unfold substituted; dsimp only; split <;> simp
@[simp] theorem substituted_pins (die unit kind index old new sev : Nat) (code : Err) : (s.substituted die unit kind index old new sev code).pins = s.pins := by
  unfold substituted; dsimp only; split <;> simp
@[simp] theorem substituted_flash (die unit kind index old new sev : Nat) (code : Err) : (s.substituted die unit kind index old new sev code).flash = s.flash := by
  unfold substituted; dsimp only; split <;> simp

@[simp] theorem service_pending (v : Service) (cause : Err) : (s.service v cause).pending = s.pending := by
  unfold service; dsimp only; split; simp; split <;> simp
@[simp] theorem service_out (v : Service) (cause : Err) : (s.service v cause).out = s.out := by
  unfold service; dsimp only; split; simp; split <;> simp
@[simp] theorem service_free (v : Service) (cause : Err) : (s.service v cause).free = s.free := by
  unfold service; dsimp only; split; simp; split <;> simp
@[simp] theorem service_aonNs (v : Service) (cause : Err) : (s.service v cause).aonNs = s.aonNs := by
  unfold service; dsimp only; split; simp; split <;> simp
@[simp] theorem service_cds (v : Service) (cause : Err) : (s.service v cause).cds = s.cds := by
  unfold service; dsimp only; split; simp; split <;> simp
@[simp] theorem service_hbm (v : Service) (cause : Err) : (s.service v cause).hbm = s.hbm := by
  unfold service; dsimp only; split; simp; split <;> simp
@[simp] theorem service_poison (v : Service) (cause : Err) : (s.service v cause).poison = s.poison := by
  unfold service; dsimp only; split; simp; split <;> simp
@[simp] theorem service_hub (v : Service) (cause : Err) : (s.service v cause).hub = s.hub := by
  unfold service; dsimp only; split; simp; split <;> simp
@[simp] theorem service_hubm (v : Service) (cause : Err) : (s.service v cause).hubm = s.hubm := by
  unfold service; dsimp only; split; simp; split <;> simp
@[simp] theorem service_ox (v : Service) (cause : Err) : (s.service v cause).ox = s.ox := by
  unfold service; dsimp only; split; simp; split <;> simp
@[simp] theorem service_rt (v : Service) (cause : Err) : (s.service v cause).rt = s.rt := by
  unfold service; dsimp only; split; simp; split <;> simp
@[simp] theorem service_links (v : Service) (cause : Err) : (s.service v cause).links = s.links := by
  unfold service; dsimp only; split; simp; split <;> simp
@[simp] theorem service_linkx (v : Service) (cause : Err) : (s.service v cause).linkx = s.linkx := by
  unfold service; dsimp only; split; simp; split <;> simp
@[simp] theorem service_ft (v : Service) (cause : Err) : (s.service v cause).ft = s.ft := by
  unfold service; dsimp only; split; simp; split <;> simp
@[simp] theorem service_sq (v : Service) (cause : Err) : (s.service v cause).sq = s.sq := by
  unfold service; dsimp only; split; simp; split <;> simp
@[simp] theorem service_eths (v : Service) (cause : Err) : (s.service v cause).eths = s.eths := by
  unfold service; dsimp only; split; simp; split <;> simp
@[simp] theorem service_xp (v : Service) (cause : Err) : (s.service v cause).xp = s.xp := by
  unfold service; dsimp only; split; simp; split <;> simp
@[simp] theorem service_mbx (v : Service) (cause : Err) : (s.service v cause).mbx = s.mbx := by
  unfold service; dsimp only; split; simp; split <;> simp
@[simp] theorem service_ctx (v : Service) (cause : Err) : (s.service v cause).ctx = s.ctx := by
  unfold service; dsimp only; split; simp; split <;> simp
@[simp] theorem service_dis (v : Service) (cause : Err) : (s.service v cause).dis = s.dis := by
  unfold service; dsimp only; split; simp; split <;> simp
@[simp] theorem service_dies (v : Service) (cause : Err) : (s.service v cause).dies = s.dies := by
  unfold service; dsimp only; split; simp; split <;> simp
@[simp] theorem service_cfg (v : Service) (cause : Err) : (s.service v cause).cfg = s.cfg := by
  unfold service; dsimp only; split; simp; split <;> simp
@[simp] theorem service_boot (v : Service) (cause : Err) : (s.service v cause).boot = s.boot := by
  unfold service; dsimp only; split; simp; split <;> simp
@[simp] theorem service_sec (v : Service) (cause : Err) : (s.service v cause).sec = s.sec := by
  unfold service; dsimp only; split; simp; split <;> simp
@[simp] theorem service_pwr (v : Service) (cause : Err) : (s.service v cause).pwr = s.pwr := by
  unfold service; dsimp only; split; simp; split <;> simp
@[simp] theorem service_pins (v : Service) (cause : Err) : (s.service v cause).pins = s.pins := by
  unfold service; dsimp only; split; simp; split <;> simp
@[simp] theorem service_flash (v : Service) (cause : Err) : (s.service v cause).flash = s.flash := by
  unfold service; dsimp only; split; simp; split <;> simp

@[simp] theorem sendSeg_pending (c : Nat) (g : TxSeg) (z : Bool) : (s.sendSeg c g z).pending = s.pending := rfl
@[simp] theorem sendSeg_out (c : Nat) (g : TxSeg) (z : Bool) : (s.sendSeg c g z).out = s.out := rfl
@[simp] theorem sendSeg_free (c : Nat) (g : TxSeg) (z : Bool) : (s.sendSeg c g z).free = s.free := rfl
@[simp] theorem sendSeg_aonNs (c : Nat) (g : TxSeg) (z : Bool) : (s.sendSeg c g z).aonNs = s.aonNs := rfl
@[simp] theorem sendSeg_cds (c : Nat) (g : TxSeg) (z : Bool) : (s.sendSeg c g z).cds = s.cds := rfl
@[simp] theorem sendSeg_hbm (c : Nat) (g : TxSeg) (z : Bool) : (s.sendSeg c g z).hbm = s.hbm := rfl
@[simp] theorem sendSeg_poison (c : Nat) (g : TxSeg) (z : Bool) : (s.sendSeg c g z).poison = s.poison := rfl
@[simp] theorem sendSeg_hub (c : Nat) (g : TxSeg) (z : Bool) : (s.sendSeg c g z).hub = s.hub := rfl
@[simp] theorem sendSeg_hubm (c : Nat) (g : TxSeg) (z : Bool) : (s.sendSeg c g z).hubm = s.hubm := rfl
@[simp] theorem sendSeg_ox (c : Nat) (g : TxSeg) (z : Bool) : (s.sendSeg c g z).ox = s.ox := rfl
@[simp] theorem sendSeg_rt (c : Nat) (g : TxSeg) (z : Bool) : (s.sendSeg c g z).rt = s.rt := rfl
@[simp] theorem sendSeg_links (c : Nat) (g : TxSeg) (z : Bool) : (s.sendSeg c g z).links = s.links := rfl
@[simp] theorem sendSeg_linkx (c : Nat) (g : TxSeg) (z : Bool) : (s.sendSeg c g z).linkx = s.linkx := rfl
@[simp] theorem sendSeg_ft (c : Nat) (g : TxSeg) (z : Bool) : (s.sendSeg c g z).ft = s.ft := rfl
@[simp] theorem sendSeg_sq (c : Nat) (g : TxSeg) (z : Bool) : (s.sendSeg c g z).sq = s.sq := rfl
@[simp] theorem sendSeg_xp (c : Nat) (g : TxSeg) (z : Bool) : (s.sendSeg c g z).xp = s.xp := rfl
@[simp] theorem sendSeg_mbx (c : Nat) (g : TxSeg) (z : Bool) : (s.sendSeg c g z).mbx = s.mbx := rfl
@[simp] theorem sendSeg_ctx (c : Nat) (g : TxSeg) (z : Bool) : (s.sendSeg c g z).ctx = s.ctx := rfl
@[simp] theorem sendSeg_dis (c : Nat) (g : TxSeg) (z : Bool) : (s.sendSeg c g z).dis = s.dis := rfl
@[simp] theorem sendSeg_log (c : Nat) (g : TxSeg) (z : Bool) : (s.sendSeg c g z).log = s.log := rfl
@[simp] theorem sendSeg_mirror (c : Nat) (g : TxSeg) (z : Bool) : (s.sendSeg c g z).mirror = s.mirror := rfl
@[simp] theorem sendSeg_svc (c : Nat) (g : TxSeg) (z : Bool) : (s.sendSeg c g z).svc = s.svc := rfl
@[simp] theorem sendSeg_dies (c : Nat) (g : TxSeg) (z : Bool) : (s.sendSeg c g z).dies = s.dies := rfl
@[simp] theorem sendSeg_health (c : Nat) (g : TxSeg) (z : Bool) : (s.sendSeg c g z).health = s.health := rfl
@[simp] theorem sendSeg_ledger (c : Nat) (g : TxSeg) (z : Bool) : (s.sendSeg c g z).ledger = s.ledger := rfl
@[simp] theorem sendSeg_cfg (c : Nat) (g : TxSeg) (z : Bool) : (s.sendSeg c g z).cfg = s.cfg := rfl
@[simp] theorem sendSeg_boot (c : Nat) (g : TxSeg) (z : Bool) : (s.sendSeg c g z).boot = s.boot := rfl
@[simp] theorem sendSeg_sec (c : Nat) (g : TxSeg) (z : Bool) : (s.sendSeg c g z).sec = s.sec := rfl
@[simp] theorem sendSeg_pwr (c : Nat) (g : TxSeg) (z : Bool) : (s.sendSeg c g z).pwr = s.pwr := rfl
@[simp] theorem sendSeg_pins (c : Nat) (g : TxSeg) (z : Bool) : (s.sendSeg c g z).pins = s.pins := rfl
@[simp] theorem sendSeg_flash (c : Nat) (g : TxSeg) (z : Bool) : (s.sendSeg c g z).flash = s.flash := rfl

@[simp] theorem queueSeg_pending (c : Nat) (g : TxSeg) : (s.queueSeg c g).pending = s.pending := by
  unfold queueSeg; dsimp only; split; rfl; split <;> simp
@[simp] theorem queueSeg_out (c : Nat) (g : TxSeg) : (s.queueSeg c g).out = s.out := by
  unfold queueSeg; dsimp only; split; rfl; split <;> simp
@[simp] theorem queueSeg_free (c : Nat) (g : TxSeg) : (s.queueSeg c g).free = s.free := by
  unfold queueSeg; dsimp only; split; rfl; split <;> simp
@[simp] theorem queueSeg_aonNs (c : Nat) (g : TxSeg) : (s.queueSeg c g).aonNs = s.aonNs := by
  unfold queueSeg; dsimp only; split; rfl; split <;> simp
@[simp] theorem queueSeg_cds (c : Nat) (g : TxSeg) : (s.queueSeg c g).cds = s.cds := by
  unfold queueSeg; dsimp only; split; rfl; split <;> simp
@[simp] theorem queueSeg_hbm (c : Nat) (g : TxSeg) : (s.queueSeg c g).hbm = s.hbm := by
  unfold queueSeg; dsimp only; split; rfl; split <;> simp
@[simp] theorem queueSeg_poison (c : Nat) (g : TxSeg) : (s.queueSeg c g).poison = s.poison := by
  unfold queueSeg; dsimp only; split; rfl; split <;> simp
@[simp] theorem queueSeg_hub (c : Nat) (g : TxSeg) : (s.queueSeg c g).hub = s.hub := by
  unfold queueSeg; dsimp only; split; rfl; split <;> simp
@[simp] theorem queueSeg_hubm (c : Nat) (g : TxSeg) : (s.queueSeg c g).hubm = s.hubm := by
  unfold queueSeg; dsimp only; split; rfl; split <;> simp
@[simp] theorem queueSeg_ox (c : Nat) (g : TxSeg) : (s.queueSeg c g).ox = s.ox := by
  unfold queueSeg; dsimp only; split; rfl; split <;> simp
@[simp] theorem queueSeg_rt (c : Nat) (g : TxSeg) : (s.queueSeg c g).rt = s.rt := by
  unfold queueSeg; dsimp only; split; rfl; split <;> simp
@[simp] theorem queueSeg_links (c : Nat) (g : TxSeg) : (s.queueSeg c g).links = s.links := by
  unfold queueSeg; dsimp only; split; rfl; split <;> simp
@[simp] theorem queueSeg_linkx (c : Nat) (g : TxSeg) : (s.queueSeg c g).linkx = s.linkx := by
  unfold queueSeg; dsimp only; split; rfl; split <;> simp
@[simp] theorem queueSeg_ft (c : Nat) (g : TxSeg) : (s.queueSeg c g).ft = s.ft := by
  unfold queueSeg; dsimp only; split; rfl; split <;> simp
@[simp] theorem queueSeg_sq (c : Nat) (g : TxSeg) : (s.queueSeg c g).sq = s.sq := by
  unfold queueSeg; dsimp only; split; rfl; split <;> simp
@[simp] theorem queueSeg_mbx (c : Nat) (g : TxSeg) : (s.queueSeg c g).mbx = s.mbx := by
  unfold queueSeg; dsimp only; split; rfl; split <;> simp
@[simp] theorem queueSeg_ctx (c : Nat) (g : TxSeg) : (s.queueSeg c g).ctx = s.ctx := by
  unfold queueSeg; dsimp only; split; rfl; split <;> simp
@[simp] theorem queueSeg_dis (c : Nat) (g : TxSeg) : (s.queueSeg c g).dis = s.dis := by
  unfold queueSeg; dsimp only; split; rfl; split <;> simp
@[simp] theorem queueSeg_log (c : Nat) (g : TxSeg) : (s.queueSeg c g).log = s.log := by
  unfold queueSeg; dsimp only; split; rfl; split <;> simp
@[simp] theorem queueSeg_mirror (c : Nat) (g : TxSeg) : (s.queueSeg c g).mirror = s.mirror := by
  unfold queueSeg; dsimp only; split; rfl; split <;> simp
@[simp] theorem queueSeg_svc (c : Nat) (g : TxSeg) : (s.queueSeg c g).svc = s.svc := by
  unfold queueSeg; dsimp only; split; rfl; split <;> simp
@[simp] theorem queueSeg_dies (c : Nat) (g : TxSeg) : (s.queueSeg c g).dies = s.dies := by
  unfold queueSeg; dsimp only; split; rfl; split <;> simp
@[simp] theorem queueSeg_health (c : Nat) (g : TxSeg) : (s.queueSeg c g).health = s.health := by
  unfold queueSeg; dsimp only; split; rfl; split <;> simp
@[simp] theorem queueSeg_ledger (c : Nat) (g : TxSeg) : (s.queueSeg c g).ledger = s.ledger := by
  unfold queueSeg; dsimp only; split; rfl; split <;> simp
@[simp] theorem queueSeg_cfg (c : Nat) (g : TxSeg) : (s.queueSeg c g).cfg = s.cfg := by
  unfold queueSeg; dsimp only; split; rfl; split <;> simp
@[simp] theorem queueSeg_boot (c : Nat) (g : TxSeg) : (s.queueSeg c g).boot = s.boot := by
  unfold queueSeg; dsimp only; split; rfl; split <;> simp
@[simp] theorem queueSeg_sec (c : Nat) (g : TxSeg) : (s.queueSeg c g).sec = s.sec := by
  unfold queueSeg; dsimp only; split; rfl; split <;> simp
@[simp] theorem queueSeg_pwr (c : Nat) (g : TxSeg) : (s.queueSeg c g).pwr = s.pwr := by
  unfold queueSeg; dsimp only; split; rfl; split <;> simp
@[simp] theorem queueSeg_pins (c : Nat) (g : TxSeg) : (s.queueSeg c g).pins = s.pins := by
  unfold queueSeg; dsimp only; split; rfl; split <;> simp
@[simp] theorem queueSeg_flash (c : Nat) (g : TxSeg) : (s.queueSeg c g).flash = s.flash := by
  unfold queueSeg; dsimp only; split; rfl; split <;> simp

@[simp] theorem post_pending (oob : Bool) (f : Frame401) : (s.post oob f).pending = s.pending := by
  unfold post; dsimp only; split <;> simp
@[simp] theorem post_free (oob : Bool) (f : Frame401) : (s.post oob f).free = s.free := by
  unfold post; dsimp only; split <;> simp
@[simp] theorem post_aonNs (oob : Bool) (f : Frame401) : (s.post oob f).aonNs = s.aonNs := by
  unfold post; dsimp only; split <;> simp
@[simp] theorem post_cds (oob : Bool) (f : Frame401) : (s.post oob f).cds = s.cds := by
  unfold post; dsimp only; split <;> simp
@[simp] theorem post_hbm (oob : Bool) (f : Frame401) : (s.post oob f).hbm = s.hbm := by
  unfold post; dsimp only; split <;> simp
@[simp] theorem post_poison (oob : Bool) (f : Frame401) : (s.post oob f).poison = s.poison := by
  unfold post; dsimp only; split <;> simp
@[simp] theorem post_hub (oob : Bool) (f : Frame401) : (s.post oob f).hub = s.hub := by
  unfold post; dsimp only; split <;> simp
@[simp] theorem post_hubm (oob : Bool) (f : Frame401) : (s.post oob f).hubm = s.hubm := by
  unfold post; dsimp only; split <;> simp
@[simp] theorem post_ox (oob : Bool) (f : Frame401) : (s.post oob f).ox = s.ox := by
  unfold post; dsimp only; split <;> simp
@[simp] theorem post_rt (oob : Bool) (f : Frame401) : (s.post oob f).rt = s.rt := by
  unfold post; dsimp only; split <;> simp
@[simp] theorem post_links (oob : Bool) (f : Frame401) : (s.post oob f).links = s.links := by
  unfold post; dsimp only; split <;> simp
@[simp] theorem post_linkx (oob : Bool) (f : Frame401) : (s.post oob f).linkx = s.linkx := by
  unfold post; dsimp only; split <;> simp
@[simp] theorem post_ft (oob : Bool) (f : Frame401) : (s.post oob f).ft = s.ft := by
  unfold post; dsimp only; split <;> simp
@[simp] theorem post_sq (oob : Bool) (f : Frame401) : (s.post oob f).sq = s.sq := by
  unfold post; dsimp only; split <;> simp
@[simp] theorem post_mbx (oob : Bool) (f : Frame401) : (s.post oob f).mbx = s.mbx := by
  unfold post; dsimp only; split <;> simp
@[simp] theorem post_ctx (oob : Bool) (f : Frame401) : (s.post oob f).ctx = s.ctx := by
  unfold post; dsimp only; split <;> simp
@[simp] theorem post_dis (oob : Bool) (f : Frame401) : (s.post oob f).dis = s.dis := by
  unfold post; dsimp only; split <;> simp
@[simp] theorem post_log (oob : Bool) (f : Frame401) : (s.post oob f).log = s.log := by
  unfold post; dsimp only; split <;> simp
@[simp] theorem post_mirror (oob : Bool) (f : Frame401) : (s.post oob f).mirror = s.mirror := by
  unfold post; dsimp only; split <;> simp
@[simp] theorem post_svc (oob : Bool) (f : Frame401) : (s.post oob f).svc = s.svc := by
  unfold post; dsimp only; split <;> simp
@[simp] theorem post_dies (oob : Bool) (f : Frame401) : (s.post oob f).dies = s.dies := by
  unfold post; dsimp only; split <;> simp
@[simp] theorem post_health (oob : Bool) (f : Frame401) : (s.post oob f).health = s.health := by
  unfold post; dsimp only; split <;> simp
@[simp] theorem post_ledger (oob : Bool) (f : Frame401) : (s.post oob f).ledger = s.ledger := by
  unfold post; dsimp only; split <;> simp
@[simp] theorem post_cfg (oob : Bool) (f : Frame401) : (s.post oob f).cfg = s.cfg := by
  unfold post; dsimp only; split <;> simp
@[simp] theorem post_boot (oob : Bool) (f : Frame401) : (s.post oob f).boot = s.boot := by
  unfold post; dsimp only; split <;> simp
@[simp] theorem post_sec (oob : Bool) (f : Frame401) : (s.post oob f).sec = s.sec := by
  unfold post; dsimp only; split <;> simp
@[simp] theorem post_pwr (oob : Bool) (f : Frame401) : (s.post oob f).pwr = s.pwr := by
  unfold post; dsimp only; split <;> simp
@[simp] theorem post_pins (oob : Bool) (f : Frame401) : (s.post oob f).pins = s.pins := by
  unfold post; dsimp only; split <;> simp
@[simp] theorem post_flash (oob : Bool) (f : Frame401) : (s.post oob f).flash = s.flash := by
  unfold post; dsimp only; split <;> simp

@[simp] theorem notice_pending (c code : Nat) (payload : List Byte) : (s.notice c code payload).pending = s.pending := by
  simp [notice]
@[simp] theorem notice_free (c code : Nat) (payload : List Byte) : (s.notice c code payload).free = s.free := by
  simp [notice]
@[simp] theorem notice_aonNs (c code : Nat) (payload : List Byte) : (s.notice c code payload).aonNs = s.aonNs := by
  simp [notice]
@[simp] theorem notice_cds (c code : Nat) (payload : List Byte) : (s.notice c code payload).cds = s.cds := by
  simp [notice]
@[simp] theorem notice_hbm (c code : Nat) (payload : List Byte) : (s.notice c code payload).hbm = s.hbm := by
  simp [notice]
@[simp] theorem notice_poison (c code : Nat) (payload : List Byte) : (s.notice c code payload).poison = s.poison := by
  simp [notice]
@[simp] theorem notice_hub (c code : Nat) (payload : List Byte) : (s.notice c code payload).hub = s.hub := by
  simp [notice]
@[simp] theorem notice_hubm (c code : Nat) (payload : List Byte) : (s.notice c code payload).hubm = s.hubm := by
  simp [notice]
@[simp] theorem notice_ox (c code : Nat) (payload : List Byte) : (s.notice c code payload).ox = s.ox := by
  simp [notice]
@[simp] theorem notice_rt (c code : Nat) (payload : List Byte) : (s.notice c code payload).rt = s.rt := by
  simp [notice]
@[simp] theorem notice_links (c code : Nat) (payload : List Byte) : (s.notice c code payload).links = s.links := by
  simp [notice]
@[simp] theorem notice_linkx (c code : Nat) (payload : List Byte) : (s.notice c code payload).linkx = s.linkx := by
  simp [notice]
@[simp] theorem notice_ft (c code : Nat) (payload : List Byte) : (s.notice c code payload).ft = s.ft := by
  simp [notice]
@[simp] theorem notice_sq (c code : Nat) (payload : List Byte) : (s.notice c code payload).sq = s.sq := by
  simp [notice]
@[simp] theorem notice_ctx (c code : Nat) (payload : List Byte) : (s.notice c code payload).ctx = s.ctx := by
  simp [notice]
@[simp] theorem notice_dis (c code : Nat) (payload : List Byte) : (s.notice c code payload).dis = s.dis := by
  simp [notice]
@[simp] theorem notice_log (c code : Nat) (payload : List Byte) : (s.notice c code payload).log = s.log := by
  simp [notice]
@[simp] theorem notice_mirror (c code : Nat) (payload : List Byte) : (s.notice c code payload).mirror = s.mirror := by
  simp [notice]
@[simp] theorem notice_svc (c code : Nat) (payload : List Byte) : (s.notice c code payload).svc = s.svc := by
  simp [notice]
@[simp] theorem notice_dies (c code : Nat) (payload : List Byte) : (s.notice c code payload).dies = s.dies := by
  simp [notice]
@[simp] theorem notice_health (c code : Nat) (payload : List Byte) : (s.notice c code payload).health = s.health := by
  simp [notice]
@[simp] theorem notice_ledger (c code : Nat) (payload : List Byte) : (s.notice c code payload).ledger = s.ledger := by
  simp [notice]
@[simp] theorem notice_cfg (c code : Nat) (payload : List Byte) : (s.notice c code payload).cfg = s.cfg := by
  simp [notice]
@[simp] theorem notice_boot (c code : Nat) (payload : List Byte) : (s.notice c code payload).boot = s.boot := by
  simp [notice]
@[simp] theorem notice_sec (c code : Nat) (payload : List Byte) : (s.notice c code payload).sec = s.sec := by
  simp [notice]
@[simp] theorem notice_pwr (c code : Nat) (payload : List Byte) : (s.notice c code payload).pwr = s.pwr := by
  simp [notice]
@[simp] theorem notice_pins (c code : Nat) (payload : List Byte) : (s.notice c code payload).pins = s.pins := by
  simp [notice]
@[simp] theorem notice_flash (c code : Nat) (payload : List Byte) : (s.notice c code payload).flash = s.flash := by
  simp [notice]

@[simp] theorem reply_pending (src : Src) (cmd : Nat) (st : Err) (payload : List Byte) : (s.reply src cmd st payload).pending = s.pending := by
  simp [reply]
@[simp] theorem reply_free (src : Src) (cmd : Nat) (st : Err) (payload : List Byte) : (s.reply src cmd st payload).free = s.free := by
  simp [reply]
@[simp] theorem reply_aonNs (src : Src) (cmd : Nat) (st : Err) (payload : List Byte) : (s.reply src cmd st payload).aonNs = s.aonNs := by
  simp [reply]
@[simp] theorem reply_cds (src : Src) (cmd : Nat) (st : Err) (payload : List Byte) : (s.reply src cmd st payload).cds = s.cds := by
  simp [reply]
@[simp] theorem reply_hbm (src : Src) (cmd : Nat) (st : Err) (payload : List Byte) : (s.reply src cmd st payload).hbm = s.hbm := by
  simp [reply]
@[simp] theorem reply_poison (src : Src) (cmd : Nat) (st : Err) (payload : List Byte) : (s.reply src cmd st payload).poison = s.poison := by
  simp [reply]
@[simp] theorem reply_hub (src : Src) (cmd : Nat) (st : Err) (payload : List Byte) : (s.reply src cmd st payload).hub = s.hub := by
  simp [reply]
@[simp] theorem reply_hubm (src : Src) (cmd : Nat) (st : Err) (payload : List Byte) : (s.reply src cmd st payload).hubm = s.hubm := by
  simp [reply]
@[simp] theorem reply_ox (src : Src) (cmd : Nat) (st : Err) (payload : List Byte) : (s.reply src cmd st payload).ox = s.ox := by
  simp [reply]
@[simp] theorem reply_rt (src : Src) (cmd : Nat) (st : Err) (payload : List Byte) : (s.reply src cmd st payload).rt = s.rt := by
  simp [reply]
@[simp] theorem reply_links (src : Src) (cmd : Nat) (st : Err) (payload : List Byte) : (s.reply src cmd st payload).links = s.links := by
  simp [reply]
@[simp] theorem reply_linkx (src : Src) (cmd : Nat) (st : Err) (payload : List Byte) : (s.reply src cmd st payload).linkx = s.linkx := by
  simp [reply]
@[simp] theorem reply_ft (src : Src) (cmd : Nat) (st : Err) (payload : List Byte) : (s.reply src cmd st payload).ft = s.ft := by
  simp [reply]
@[simp] theorem reply_sq (src : Src) (cmd : Nat) (st : Err) (payload : List Byte) : (s.reply src cmd st payload).sq = s.sq := by
  simp [reply]
@[simp] theorem reply_ctx (src : Src) (cmd : Nat) (st : Err) (payload : List Byte) : (s.reply src cmd st payload).ctx = s.ctx := by
  simp [reply]
@[simp] theorem reply_dis (src : Src) (cmd : Nat) (st : Err) (payload : List Byte) : (s.reply src cmd st payload).dis = s.dis := by
  simp [reply]
@[simp] theorem reply_log (src : Src) (cmd : Nat) (st : Err) (payload : List Byte) : (s.reply src cmd st payload).log = s.log := by
  simp [reply]
@[simp] theorem reply_mirror (src : Src) (cmd : Nat) (st : Err) (payload : List Byte) : (s.reply src cmd st payload).mirror = s.mirror := by
  simp [reply]
@[simp] theorem reply_svc (src : Src) (cmd : Nat) (st : Err) (payload : List Byte) : (s.reply src cmd st payload).svc = s.svc := by
  simp [reply]
@[simp] theorem reply_dies (src : Src) (cmd : Nat) (st : Err) (payload : List Byte) : (s.reply src cmd st payload).dies = s.dies := by
  simp [reply]
@[simp] theorem reply_health (src : Src) (cmd : Nat) (st : Err) (payload : List Byte) : (s.reply src cmd st payload).health = s.health := by
  simp [reply]
@[simp] theorem reply_ledger (src : Src) (cmd : Nat) (st : Err) (payload : List Byte) : (s.reply src cmd st payload).ledger = s.ledger := by
  simp [reply]
@[simp] theorem reply_cfg (src : Src) (cmd : Nat) (st : Err) (payload : List Byte) : (s.reply src cmd st payload).cfg = s.cfg := by
  simp [reply]
@[simp] theorem reply_boot (src : Src) (cmd : Nat) (st : Err) (payload : List Byte) : (s.reply src cmd st payload).boot = s.boot := by
  simp [reply]
@[simp] theorem reply_sec (src : Src) (cmd : Nat) (st : Err) (payload : List Byte) : (s.reply src cmd st payload).sec = s.sec := by
  simp [reply]
@[simp] theorem reply_pwr (src : Src) (cmd : Nat) (st : Err) (payload : List Byte) : (s.reply src cmd st payload).pwr = s.pwr := by
  simp [reply]
@[simp] theorem reply_pins (src : Src) (cmd : Nat) (st : Err) (payload : List Byte) : (s.reply src cmd st payload).pins = s.pins := by
  simp [reply]
@[simp] theorem reply_flash (src : Src) (cmd : Nat) (st : Err) (payload : List Byte) : (s.reply src cmd st payload).flash = s.flash := by
  simp [reply]

@[simp] theorem setCtx_pending (x : Nat) (st : CtxSt) (code : Err) (die ltile : Nat) : (s.setCtx x st code die ltile).pending = s.pending := by
  simp [setCtx]
@[simp] theorem setCtx_free (x : Nat) (st : CtxSt) (code : Err) (die ltile : Nat) : (s.setCtx x st code die ltile).free = s.free := by
  simp [setCtx]
@[simp] theorem setCtx_aonNs (x : Nat) (st : CtxSt) (code : Err) (die ltile : Nat) : (s.setCtx x st code die ltile).aonNs = s.aonNs := by
  simp [setCtx]
@[simp] theorem setCtx_cds (x : Nat) (st : CtxSt) (code : Err) (die ltile : Nat) : (s.setCtx x st code die ltile).cds = s.cds := by
  simp [setCtx]
@[simp] theorem setCtx_hbm (x : Nat) (st : CtxSt) (code : Err) (die ltile : Nat) : (s.setCtx x st code die ltile).hbm = s.hbm := by
  simp [setCtx]
@[simp] theorem setCtx_poison (x : Nat) (st : CtxSt) (code : Err) (die ltile : Nat) : (s.setCtx x st code die ltile).poison = s.poison := by
  simp [setCtx]
@[simp] theorem setCtx_hub (x : Nat) (st : CtxSt) (code : Err) (die ltile : Nat) : (s.setCtx x st code die ltile).hub = s.hub := by
  simp [setCtx]
@[simp] theorem setCtx_hubm (x : Nat) (st : CtxSt) (code : Err) (die ltile : Nat) : (s.setCtx x st code die ltile).hubm = s.hubm := by
  simp [setCtx]
@[simp] theorem setCtx_ox (x : Nat) (st : CtxSt) (code : Err) (die ltile : Nat) : (s.setCtx x st code die ltile).ox = s.ox := by
  simp [setCtx]
@[simp] theorem setCtx_rt (x : Nat) (st : CtxSt) (code : Err) (die ltile : Nat) : (s.setCtx x st code die ltile).rt = s.rt := by
  simp [setCtx]
@[simp] theorem setCtx_links (x : Nat) (st : CtxSt) (code : Err) (die ltile : Nat) : (s.setCtx x st code die ltile).links = s.links := by
  simp [setCtx]
@[simp] theorem setCtx_linkx (x : Nat) (st : CtxSt) (code : Err) (die ltile : Nat) : (s.setCtx x st code die ltile).linkx = s.linkx := by
  simp [setCtx]
@[simp] theorem setCtx_ft (x : Nat) (st : CtxSt) (code : Err) (die ltile : Nat) : (s.setCtx x st code die ltile).ft = s.ft := by
  simp [setCtx]
@[simp] theorem setCtx_sq (x : Nat) (st : CtxSt) (code : Err) (die ltile : Nat) : (s.setCtx x st code die ltile).sq = s.sq := by
  simp [setCtx]
@[simp] theorem setCtx_dis (x : Nat) (st : CtxSt) (code : Err) (die ltile : Nat) : (s.setCtx x st code die ltile).dis = s.dis := by
  simp [setCtx]
@[simp] theorem setCtx_log (x : Nat) (st : CtxSt) (code : Err) (die ltile : Nat) : (s.setCtx x st code die ltile).log = s.log := by
  simp [setCtx]
@[simp] theorem setCtx_mirror (x : Nat) (st : CtxSt) (code : Err) (die ltile : Nat) : (s.setCtx x st code die ltile).mirror = s.mirror := by
  simp [setCtx]
@[simp] theorem setCtx_svc (x : Nat) (st : CtxSt) (code : Err) (die ltile : Nat) : (s.setCtx x st code die ltile).svc = s.svc := by
  simp [setCtx]
@[simp] theorem setCtx_dies (x : Nat) (st : CtxSt) (code : Err) (die ltile : Nat) : (s.setCtx x st code die ltile).dies = s.dies := by
  simp [setCtx]
@[simp] theorem setCtx_health (x : Nat) (st : CtxSt) (code : Err) (die ltile : Nat) : (s.setCtx x st code die ltile).health = s.health := by
  simp [setCtx]
@[simp] theorem setCtx_ledger (x : Nat) (st : CtxSt) (code : Err) (die ltile : Nat) : (s.setCtx x st code die ltile).ledger = s.ledger := by
  simp [setCtx]
@[simp] theorem setCtx_cfg (x : Nat) (st : CtxSt) (code : Err) (die ltile : Nat) : (s.setCtx x st code die ltile).cfg = s.cfg := by
  simp [setCtx]
@[simp] theorem setCtx_boot (x : Nat) (st : CtxSt) (code : Err) (die ltile : Nat) : (s.setCtx x st code die ltile).boot = s.boot := by
  simp [setCtx]
@[simp] theorem setCtx_sec (x : Nat) (st : CtxSt) (code : Err) (die ltile : Nat) : (s.setCtx x st code die ltile).sec = s.sec := by
  simp [setCtx]
@[simp] theorem setCtx_pwr (x : Nat) (st : CtxSt) (code : Err) (die ltile : Nat) : (s.setCtx x st code die ltile).pwr = s.pwr := by
  simp [setCtx]
@[simp] theorem setCtx_pins (x : Nat) (st : CtxSt) (code : Err) (die ltile : Nat) : (s.setCtx x st code die ltile).pins = s.pins := by
  simp [setCtx]
@[simp] theorem setCtx_flash (x : Nat) (st : CtxSt) (code : Err) (die ltile : Nat) : (s.setCtx x st code die ltile).flash = s.flash := by
  simp [setCtx]

@[simp] theorem modSleep_pending (u : SleepUnit) (f : SleepU → SleepU) : (s.modSleep u f).pending = s.pending := by
  cases u <;> rfl
@[simp] theorem modSleep_out (u : SleepUnit) (f : SleepU → SleepU) : (s.modSleep u f).out = s.out := by
  cases u <;> rfl
@[simp] theorem modSleep_free (u : SleepUnit) (f : SleepU → SleepU) : (s.modSleep u f).free = s.free := by
  cases u <;> rfl
@[simp] theorem modSleep_aonNs (u : SleepUnit) (f : SleepU → SleepU) : (s.modSleep u f).aonNs = s.aonNs := by
  cases u <;> rfl
@[simp] theorem modSleep_hbm (u : SleepUnit) (f : SleepU → SleepU) : (s.modSleep u f).hbm = s.hbm := by
  cases u <;> rfl
@[simp] theorem modSleep_poison (u : SleepUnit) (f : SleepU → SleepU) : (s.modSleep u f).poison = s.poison := by
  cases u <;> rfl
@[simp] theorem modSleep_hub (u : SleepUnit) (f : SleepU → SleepU) : (s.modSleep u f).hub = s.hub := by
  cases u <;> rfl
@[simp] theorem modSleep_hubm (u : SleepUnit) (f : SleepU → SleepU) : (s.modSleep u f).hubm = s.hubm := by
  cases u <;> rfl
@[simp] theorem modSleep_rt (u : SleepUnit) (f : SleepU → SleepU) : (s.modSleep u f).rt = s.rt := by
  cases u <;> rfl
@[simp] theorem modSleep_links (u : SleepUnit) (f : SleepU → SleepU) : (s.modSleep u f).links = s.links := by
  cases u <;> rfl
@[simp] theorem modSleep_ft (u : SleepUnit) (f : SleepU → SleepU) : (s.modSleep u f).ft = s.ft := by
  cases u <;> rfl
@[simp] theorem modSleep_sq (u : SleepUnit) (f : SleepU → SleepU) : (s.modSleep u f).sq = s.sq := by
  cases u <;> rfl
@[simp] theorem modSleep_eths (u : SleepUnit) (f : SleepU → SleepU) : (s.modSleep u f).eths = s.eths := by
  cases u <;> rfl
@[simp] theorem modSleep_xp (u : SleepUnit) (f : SleepU → SleepU) : (s.modSleep u f).xp = s.xp := by
  cases u <;> rfl
@[simp] theorem modSleep_mbx (u : SleepUnit) (f : SleepU → SleepU) : (s.modSleep u f).mbx = s.mbx := by
  cases u <;> rfl
@[simp] theorem modSleep_ctx (u : SleepUnit) (f : SleepU → SleepU) : (s.modSleep u f).ctx = s.ctx := by
  cases u <;> rfl
@[simp] theorem modSleep_dis (u : SleepUnit) (f : SleepU → SleepU) : (s.modSleep u f).dis = s.dis := by
  cases u <;> rfl
@[simp] theorem modSleep_log (u : SleepUnit) (f : SleepU → SleepU) : (s.modSleep u f).log = s.log := by
  cases u <;> rfl
@[simp] theorem modSleep_mirror (u : SleepUnit) (f : SleepU → SleepU) : (s.modSleep u f).mirror = s.mirror := by
  cases u <;> rfl
@[simp] theorem modSleep_svc (u : SleepUnit) (f : SleepU → SleepU) : (s.modSleep u f).svc = s.svc := by
  cases u <;> rfl
@[simp] theorem modSleep_dies (u : SleepUnit) (f : SleepU → SleepU) : (s.modSleep u f).dies = s.dies := by
  cases u <;> rfl
@[simp] theorem modSleep_health (u : SleepUnit) (f : SleepU → SleepU) : (s.modSleep u f).health = s.health := by
  cases u <;> rfl
@[simp] theorem modSleep_ledger (u : SleepUnit) (f : SleepU → SleepU) : (s.modSleep u f).ledger = s.ledger := by
  cases u <;> rfl
@[simp] theorem modSleep_cfg (u : SleepUnit) (f : SleepU → SleepU) : (s.modSleep u f).cfg = s.cfg := by
  cases u <;> rfl
@[simp] theorem modSleep_boot (u : SleepUnit) (f : SleepU → SleepU) : (s.modSleep u f).boot = s.boot := by
  cases u <;> rfl
@[simp] theorem modSleep_sec (u : SleepUnit) (f : SleepU → SleepU) : (s.modSleep u f).sec = s.sec := by
  cases u <;> rfl
@[simp] theorem modSleep_pwr (u : SleepUnit) (f : SleepU → SleepU) : (s.modSleep u f).pwr = s.pwr := by
  cases u <;> rfl
@[simp] theorem modSleep_pins (u : SleepUnit) (f : SleepU → SleepU) : (s.modSleep u f).pins = s.pins := by
  cases u <;> rfl
@[simp] theorem modSleep_flash (u : SleepUnit) (f : SleepU → SleepU) : (s.modSleep u f).flash = s.flash := by
  cases u <;> rfl

@[simp] theorem tick_pending : (s.tick).pending = s.pending := by
  unfold tick; split <;> rfl
@[simp] theorem tick_out : (s.tick).out = s.out := by
  unfold tick; split <;> rfl
@[simp] theorem tick_free : (s.tick).free = s.free := by
  unfold tick; split <;> rfl
@[simp] theorem tick_cds : (s.tick).cds = s.cds := by
  unfold tick; split <;> rfl
@[simp] theorem tick_hbm : (s.tick).hbm = s.hbm := by
  unfold tick; split <;> rfl
@[simp] theorem tick_poison : (s.tick).poison = s.poison := by
  unfold tick; split <;> rfl
@[simp] theorem tick_hub : (s.tick).hub = s.hub := by
  unfold tick; split <;> rfl
@[simp] theorem tick_hubm : (s.tick).hubm = s.hubm := by
  unfold tick; split <;> rfl
@[simp] theorem tick_ox : (s.tick).ox = s.ox := by
  unfold tick; split <;> rfl
@[simp] theorem tick_rt : (s.tick).rt = s.rt := by
  unfold tick; split <;> rfl
@[simp] theorem tick_links : (s.tick).links = s.links := by
  unfold tick; split <;> rfl
@[simp] theorem tick_linkx : (s.tick).linkx = s.linkx := by
  unfold tick; split <;> rfl
@[simp] theorem tick_sq : (s.tick).sq = s.sq := by
  unfold tick; split <;> rfl
@[simp] theorem tick_eths : (s.tick).eths = s.eths := by
  unfold tick; split <;> rfl
@[simp] theorem tick_xp : (s.tick).xp = s.xp := by
  unfold tick; split <;> rfl
@[simp] theorem tick_mbx : (s.tick).mbx = s.mbx := by
  unfold tick; split <;> rfl
@[simp] theorem tick_ctx : (s.tick).ctx = s.ctx := by
  unfold tick; split <;> rfl
@[simp] theorem tick_dis : (s.tick).dis = s.dis := by
  unfold tick; split <;> rfl
@[simp] theorem tick_log : (s.tick).log = s.log := by
  unfold tick; split <;> rfl
@[simp] theorem tick_mirror : (s.tick).mirror = s.mirror := by
  unfold tick; split <;> rfl
@[simp] theorem tick_svc : (s.tick).svc = s.svc := by
  unfold tick; split <;> rfl
@[simp] theorem tick_dies : (s.tick).dies = s.dies := by
  unfold tick; split <;> rfl
@[simp] theorem tick_health : (s.tick).health = s.health := by
  unfold tick; split <;> rfl
@[simp] theorem tick_ledger : (s.tick).ledger = s.ledger := by
  unfold tick; split <;> rfl
@[simp] theorem tick_cfg : (s.tick).cfg = s.cfg := by
  unfold tick; split <;> rfl
@[simp] theorem tick_boot : (s.tick).boot = s.boot := by
  unfold tick; split <;> rfl
@[simp] theorem tick_sec : (s.tick).sec = s.sec := by
  unfold tick; split <;> rfl
@[simp] theorem tick_pwr : (s.tick).pwr = s.pwr := by
  unfold tick; split <;> rfl
@[simp] theorem tick_pins : (s.tick).pins = s.pins := by
  unfold tick; split <;> rfl
@[simp] theorem tick_flash : (s.tick).flash = s.flash := by
  unfold tick; split <;> rfl

/-! The trace. -/

@[simp] theorem out_post (oob : Bool) (f : Frame401) : (s.post oob f).out = .mailbox oob f :: s.out := by
  unfold post; dsimp only; split
  · rfl
  · unfold queueSeg; dsimp only; split
    · rfl
    · split <;> rfl

/-- The reply frame of a command (R401, R405). -/
theorem out_reply (src : Src) (cmd : Nat) (st : Err) (payload : List Byte) :
    (s.reply src cmd st payload).out =
      .mailbox src.oob { ctrl := src.ctrl, mailbox := src.mbox, flags := 1, command := cmd, seq := src.seq, status := st.code,
                         context := src.context, time := s.now, payload := if st = Err.ok then payload else [] } :: s.out := by
  simp [reply, now]

end Sys2Proof.Machine.State
end

