-- ==== Sys2Proof/Laws/PerInstr.lean ====
section
/-! SUPPORT. What well-formedness gives of each command: its frame's SEQ and CONTEXT, and its packet's header and payload. -/

namespace Sys2Proof.Laws.Rows

/-- A well-formed command's frame has a 32-bit SEQ and a 16-bit CONTEXT (R401); its packet's header is well formed, with at most 8,191
payload bytes, no more than its LENGTH (R324). -/
def Statement (i : Instr) : Prop :=
  i.wf = true → (∀ s, i.src? = some s → s.seq < 2 ^ 32 ∧ s.context < 2 ^ 16) ∧
    (∀ k, i.packet? = some k → k.hdr.wf = true ∧ k.payload.length ≤ k.hdr.length ∧ k.hdr.length < 2 ^ 13)

theorem and_fst {a b : Bool} (h : (a && b) = true) : a = true := (Bool.and_eq_true_iff.mp h).1

theorem of_neither (i : Instr) (hs : i.src? = none) (hk : i.packet? = none) : Statement i :=
  fun _ => ⟨fun s h => by simp [hs] at h, fun k h => by simp [hk] at h⟩

theorem of_src (i : Instr) (src : Src) (hs : i.src? = some src) (hk : i.packet? = none) (hw : i.wf = true → src.wf = true) :
    Statement i := by
  refine fun w => ⟨fun s h => ?_, fun k h => by simp [hk] at h⟩
  have e : src = s := by simpa [hs] using h
  have := hw w
  simp only [Src.wf, okW, Bool.and_eq_true, decide_eq_true_eq] at this
  exact e ▸ this

theorem of_packet (i : Instr) (k : Packet) (hs : i.src? = none) (hk : i.packet? = some k) (hw : i.wf = true → k.wf = true) :
    Statement i := by
  refine fun w => ⟨fun s h => by simp [hs] at h, fun p h => ?_⟩
  have e : k = p := by simpa [hk] using h
  have q := hw w
  subst e
  simp only [Packet.wf, Bool.and_eq_true] at q
  obtain ⟨⟨a, _⟩, c⟩ := q
  refine ⟨a, ?_, ?_⟩
  · split at c <;> simp_all
  · simp only [Hdr.wf, okW, Bool.and_eq_true, decide_eq_true_eq] at a
    exact a.1.1.2

theorem muleInstruction (d : CdId) (p : PTile) : Statement (.muleInstruction d p) :=
  of_neither _ rfl rfl

theorem ebreak (d : CdId) (p : PTile) : Statement (.ebreak d p) :=
  of_neither _ rfl rfl

theorem maPass (d : CdId) (p : PTile) (rd : Fin 32) (rs1 : Fin 32) (rs2 : Fin 32) : Statement (.maPass d p rd rs1 rs2) :=
  of_neither _ rfl rfl

theorem maPassInputEnd (d : CdId) (p : PTile) : Statement (.maPassInputEnd d p) :=
  of_neither _ rfl rfl

theorem maPassComplete (d : CdId) (p : PTile) (mis : Option Miscompare) : Statement (.maPassComplete d p mis) :=
  of_neither _ rfl rfl

theorem eeRun (d : CdId) (p : PTile) (rd : Fin 32) (rs1 : Fin 32) (rs2 : Fin 32) : Statement (.eeRun d p rd rs1 rs2) :=
  of_neither _ rfl rfl

theorem eeRowEnd (d : CdId) (p : PTile) : Statement (.eeRowEnd d p) :=
  of_neither _ rfl rfl

theorem eeRunComplete (d : CdId) (p : PTile) : Statement (.eeRunComplete d p) :=
  of_neither _ rfl rfl

theorem eeCompress (d : CdId) (p : PTile) (rd : Fin 32) (rs1 : Fin 32) (rs2 : Fin 32) : Statement (.eeCompress d p rd rs1 rs2) :=
  of_neither _ rfl rfl

theorem eeCompressComplete (d : CdId) (p : PTile) : Statement (.eeCompressComplete d p) :=
  of_neither _ rfl rfl

theorem eeExpand (d : CdId) (p : PTile) (rd : Fin 32) (rs1 : Fin 32) (rs2 : Fin 32) : Statement (.eeExpand d p rd rs1 rs2) :=
  of_neither _ rfl rfl

theorem eeExpandComplete (d : CdId) (p : PTile) : Statement (.eeExpandComplete d p) :=
  of_neither _ rfl rfl

theorem dmaCopy (d : CdId) (p : PTile) (rd : Fin 32) (rs1 : Fin 32) (rs2 : Fin 32) : Statement (.dmaCopy d p rd rs1 rs2) :=
  of_neither _ rfl rfl

theorem dmaCopyComplete (d : CdId) (e : Fin 8) (ue : Option Nat) (far : List FarRead) : Statement (.dmaCopyComplete d e ue far) :=
  of_neither _ rfl rfl

theorem henLaunch (d : CdId) (p : PTile) (rd : Fin 32) (rs1 : Fin 32) (rs2 : Fin 32) : Statement (.henLaunch d p rd rs1 rs2) :=
  of_neither _ rfl rfl

theorem henLaunchU (d : CdId) (p : PTile) (rd : Fin 32) (rs1 : Fin 32) (rs2 : Fin 32) : Statement (.henLaunchU d p rd rs1 rs2) :=
  of_neither _ rfl rfl

theorem henRequestIssue (d : CdId) (t : Fin 1024) : Statement (.henRequestIssue d t) :=
  of_neither _ rfl rfl

theorem henReply (d : CdId) (t : Fin 1024) (e : Fin 8) (status : Err) (data : List Byte) : Statement (.henReply d t e status data) :=
  of_neither _ rfl rfl

theorem henRequestTimeout (d : CdId) (t : Fin 1024) (e : Fin 8) : Statement (.henRequestTimeout d t e) :=
  of_neither _ rfl rfl

theorem henLateReply (d : CdId) (t : Fin 1024) : Statement (.henLateReply d t) :=
  of_neither _ rfl rfl

theorem henJobComplete (d : CdId) (j : Fin 8) : Statement (.henJobComplete d j) :=
  of_neither _ rfl rfl

theorem asStream (d : CdId) (p : PTile) (rd : Fin 32) (rs1 : Fin 32) (rs2 : Fin 32) : Statement (.asStream d p rd rs1 rs2) :=
  of_neither _ rfl rfl

theorem slotArm (d : CdId) (p : PTile) (rd : Fin 32) (rs1 : Fin 32) (rs2 : Fin 32) : Statement (.slotArm d p rd rs1 rs2) :=
  of_neither _ rfl rfl

theorem lrWait (d : CdId) (p : PTile) (rs1 : Fin 32) : Statement (.lrWait d p rs1) :=
  of_neither _ rfl rfl

theorem lrTest (d : CdId) (p : PTile) (rd : Fin 32) (rs1 : Fin 32) : Statement (.lrTest d p rd rs1) :=
  of_neither _ rfl rfl

theorem endOp (d : CdId) (p : PTile) : Statement (.endOp d p) :=
  of_neither _ rfl rfl

theorem muleWaitRelease (d : CdId) (p : PTile) : Statement (.muleWaitRelease d p) :=
  of_neither _ rfl rfl

theorem callr (d : CdId) (p : PTile) (rd : Fin 32) (rs1 : Fin 32) (imm : Fin 4096) : Statement (.callr d p rd rs1 imm) :=
  of_neither _ rfl rfl

theorem retr (d : CdId) (p : PTile) : Statement (.retr d p) :=
  of_neither _ rfl rfl

theorem routineBudgetPadEnd (d : CdId) (p : PTile) : Statement (.routineBudgetPadEnd d p) :=
  of_neither _ rfl rfl

theorem urBr (d : CdId) (p : PTile) (f3 : Fin 8) (rs1 : Fin 32) (rs2 : Fin 32) (imm : BitVec 13) : Statement (.urBr d p f3 rs1 rs2 imm) :=
  of_neither _ rfl rfl

theorem urJoin (d : CdId) (p : PTile) (rd : Fin 32) (rs1 : Fin 32) (imm : Fin 4096) : Statement (.urJoin d p rd rs1 imm) :=
  of_neither _ rfl rfl

theorem urPadEnd (d : CdId) (p : PTile) : Statement (.urPadEnd d p) :=
  of_neither _ rfl rfl

theorem psyncWrite (d : CdId) (p : PTile) (rd : Fin 32) (value : Word) : Statement (.psyncWrite d p rd value) :=
  of_neither _ rfl rfl

theorem psyncInsertionEnd (d : CdId) (p : PTile) : Statement (.psyncInsertionEnd d p) :=
  of_neither _ rfl rfl

theorem muleThermalGate (d : CdId) (p : PTile) : Statement (.muleThermalGate d p) :=
  of_neither _ rfl rfl

theorem unitIdleTimerExpiry (u : SleepUnit) : Statement (.unitIdleTimerExpiry u) :=
  of_neither _ rfl rfl

theorem unitWake (u : SleepUnit) : Statement (.unitWake u) :=
  of_neither _ rfl rfl

theorem wakePoint (r : Fin 16) (i : Nat) : Statement (.wakePoint r i) :=
  of_neither _ rfl rfl

theorem pageWalkComplete (d : CdId) (slot : Fin 16) (va : Word) (access : Fin 3) (kind : Fin 2) (no : Fin 1024) (stream : Bool) : Statement (.pageWalkComplete d slot va access kind no stream) :=
  of_neither _ rfl rfl

theorem tlbInvalGo (d : CdId) (v : Word) : Statement (.tlbInvalGo d v) :=
  of_neither _ rfl rfl

theorem tlbInvalDone (d : CdId) : Statement (.tlbInvalDone d) :=
  of_neither _ rfl rfl

theorem pfResolve (d : CdId) (v : Word) : Statement (.pfResolve d v) :=
  of_neither _ rfl rfl

theorem hbmRefreshSlot (d : CdId) (pc : Fin 32) (found : List ScrubFind) (temp : Int) : Statement (.hbmRefreshSlot d pc found temp) :=
  of_neither _ rfl rfl

theorem hbmMigrateStart (d : CdId) (v : Word) : Statement (.hbmMigrateStart d v) :=
  of_neither _ rfl rfl

theorem hbmMigrationComplete (d : CdId) : Statement (.hbmMigrationComplete d) :=
  of_neither _ rfl rfl

theorem peerRead (d : CdId) (l : LinkId) (k : Packet) (ue : Bool) : Statement (.peerRead d l k ue) :=
  of_packet _ k rfl rfl id

theorem peerWrite (d : CdId) (l : LinkId) (k : Packet) (ue : Bool) : Statement (.peerWrite d l k ue) :=
  of_packet _ k rfl rfl id

theorem peerAtomic (d : CdId) (l : LinkId) (k : Packet) (ue : Bool) : Statement (.peerAtomic d l k ue) :=
  of_packet _ k rfl rfl id

theorem peerReply (d : CdId) (k : Packet) : Statement (.peerReply d k) :=
  of_packet _ k rfl rfl id

theorem bpApply (d : CdId) (v : Word) : Statement (.bpApply d v) :=
  of_neither _ rfl rfl

theorem bpFwAllocate (d : CdId) (v : Word) : Statement (.bpFwAllocate d v) :=
  of_neither _ rfl rfl

theorem bpFwFree (d : CdId) (v : Word) : Statement (.bpFwFree d v) :=
  of_neither _ rfl rfl

theorem bpFreeWrite (d : CdId) (pool : Fin 6) : Statement (.bpFreeWrite d pool) :=
  of_neither _ rfl rfl

theorem arrColcfgApply (d : CdId) (p : PTile) (v : Word) : Statement (.arrColcfgApply d p v) :=
  of_neither _ rfl rfl

theorem hubPacketIngress (src : Fin 54) (k : Packet) (stripe : Fin 32) : Statement (.hubPacketIngress src k stripe) :=
  of_packet _ k rfl rfl id

theorem hubEgressCell (o : Fin 53) (chk : Fin 3) : Statement (.hubEgressCell o chk) :=
  of_neither _ rfl rfl

theorem hubPartitionWrite (v : Word) : Statement (.hubPartitionWrite v) :=
  of_neither _ rfl rfl

theorem hubDtAlphaWrite (v : Word) : Statement (.hubDtAlphaWrite v) :=
  of_neither _ rfl rfl

theorem hubEgressShareWrite (v : Word) : Statement (.hubEgressShareWrite v) :=
  of_neither _ rfl rfl

theorem hubBankMigrateStart (v : Word) : Statement (.hubBankMigrateStart v) :=
  of_neither _ rfl rfl

theorem hubBankRemove (b : Fin 1024) : Statement (.hubBankRemove b) :=
  of_neither _ rfl rfl

theorem oxDispatch (net : Fin 2) (cls : Fin 3) : Statement (.oxDispatch net cls) :=
  of_neither _ rfl rfl

theorem oxStepFire (b : Fin 1024) (off : Nat) (bad : Option (Fin 272)) (ue : Option Nat) : Statement (.oxStepFire b off bad ue) :=
  of_neither _ rfl rfl

theorem oxStepComplete (b : Fin 1024) (off : Nat) : Statement (.oxStepComplete b off) :=
  of_neither _ rfl rfl

theorem round (b : Fin 1024) (i : Fin 24) : Statement (.round b i) :=
  of_neither _ rfl rfl

theorem carry (b : Fin 1024) (i : Fin 24) : Statement (.carry b i) :=
  of_neither _ rfl rfl

theorem merge (b : Fin 1024) (i : Fin 24) (bad : Option (Fin 272)) : Statement (.merge b i bad) :=
  of_neither _ rfl rfl

theorem sort (b : Fin 1024) (i : Fin 24) (bad : Option (Fin 272)) : Statement (.sort b i bad) :=
  of_neither _ rfl rfl

theorem topk (b : Fin 1024) (i : Fin 24) (bad : Option (Fin 272)) : Statement (.topk b i bad) :=
  of_neither _ rfl rfl

theorem filter (b : Fin 1024) (i : Fin 24) (bad : Option (Fin 272)) : Statement (.filter b i bad) :=
  of_neither _ rfl rfl

theorem isect (b : Fin 1024) (i : Fin 24) (bad : Option (Fin 272)) : Statement (.isect b i bad) :=
  of_neither _ rfl rfl

theorem diff (b : Fin 1024) (i : Fin 24) (bad : Option (Fin 272)) : Statement (.diff b i bad) :=
  of_neither _ rfl rfl

theorem union (b : Fin 1024) (i : Fin 24) (bad : Option (Fin 272)) : Statement (.union b i bad) :=
  of_neither _ rfl rfl

theorem load (b : Fin 1024) (i : Fin 24) : Statement (.load b i) :=
  of_neither _ rfl rfl

theorem gather (b : Fin 1024) (i : Fin 24) : Statement (.gather b i) :=
  of_neither _ rfl rfl

theorem emit (b : Fin 1024) (i : Fin 24) : Statement (.emit b i) :=
  of_neither _ rfl rfl

theorem oxOpenReceive (k : Packet) (owner : Bool) : Statement (.oxOpenReceive k owner) :=
  of_packet _ k rfl rfl id

theorem oxAbortReceive (k : Packet) : Statement (.oxAbortReceive k) :=
  of_packet _ k rfl rfl id

theorem oxAbortSend (b : Fin 1024) : Statement (.oxAbortSend b) :=
  of_neither _ rfl rfl

theorem collTimeout (b : Fin 1024) : Statement (.collTimeout b) :=
  of_neither _ rfl rfl

theorem collCoolExpiry (b : Fin 1024) : Statement (.collCoolExpiry b) :=
  of_neither _ rfl rfl

theorem collFetchPacket (b : Fin 1024) (ue : Bool) : Statement (.collFetchPacket b ue) :=
  of_neither _ rfl rfl

theorem collResultWrite (d : CdId) (k : Packet) : Statement (.collResultWrite d k) :=
  of_packet _ k rfl rfl id

theorem collBind (src : Src) (glob : List Byte) (loc : List Byte) (prog : List Byte) : Statement (.collBind src glob loc prog) :=
  of_src _ src rfl rfl and_fst

theorem collStart (src : Src) (ctx : Nat) (coll : Nat) : Statement (.collStart src ctx coll) :=
  of_src _ src rfl rfl and_fst

theorem collAbort (src : Src) (ctx : Nat) (coll : Nat) : Statement (.collAbort src ctx coll) :=
  of_src _ src rfl rfl and_fst

theorem collFree (src : Src) (ctx : Nat) (coll : Nat) : Statement (.collFree src ctx coll) :=
  of_src _ src rfl rfl and_fst

theorem collStatus (src : Src) (key : Nat) : Statement (.collStatus src key) :=
  of_src _ src rfl rfl and_fst

theorem flitSend (l : LinkId) : Statement (.flitSend l) :=
  of_neither _ rfl rfl

theorem flitReceive (l : LinkId) (f : Flit) : Statement (.flitReceive l f) :=
  of_neither _ rfl rfl

theorem controlCell (l : LinkId) (c : CtlCell) : Statement (.controlCell l c) :=
  of_neither _ rfl rfl

theorem linkAckTimeout (l : LinkId) : Statement (.linkAckTimeout l) :=
  of_neither _ rfl rfl

theorem linkSignalLoss (l : LinkId) (lane : Fin 9) : Statement (.linkSignalLoss l lane) :=
  of_neither _ rfl rfl

theorem linkTrainingComplete (l : LinkId) (t : Training) : Statement (.linkTrainingComplete l t) :=
  of_neither _ rfl rfl

theorem linkRetrainDelayExpiry (l : LinkId) : Statement (.linkRetrainDelayExpiry l) :=
  of_neither _ rfl rfl

theorem flightRemeasure (l : LinkId) (f : Nat) : Statement (.flightRemeasure l f) :=
  of_neither _ rfl rfl

theorem laneErrorCheck (l : LinkId) : Statement (.laneErrorCheck l) :=
  of_neither _ rfl rfl

theorem laneSwap (l : LinkId) : Statement (.laneSwap l) :=
  of_neither _ rfl rfl

theorem linkCtlEnableClear (l : LinkId) : Statement (.linkCtlEnableClear l) :=
  of_neither _ rfl rfl

theorem linkCtlRetrain (l : LinkId) : Statement (.linkCtlRetrain l) :=
  of_neither _ rfl rfl

theorem routeWrite (src : Src) (version : Nat) (table : Nat) (first : Nat) (count : Nat) (rsv : Nat) (entries : List Byte) : Statement (.routeWrite src version table first count rsv entries) :=
  of_src _ src rfl rfl and_fst

theorem routeCommit (src : Src) (version : Nat) (t : Nat) : Statement (.routeCommit src version t) :=
  of_src _ src rfl rfl and_fst

theorem routeStatus (src : Src) : Statement (.routeStatus src) :=
  of_src _ src rfl rfl id

theorem linkSet (src : Src) (mask : Nat) (action : Nat) (mode : Nat) : Statement (.linkSet src mask action mode) :=
  of_src _ src rfl rfl and_fst

theorem linkStatus (src : Src) (link : Nat) : Statement (.linkStatus src link) :=
  of_src _ src rfl rfl and_fst

theorem windowSet (src : Src) (ctx : Nat) (window : Nat) (rctx : Nat) (route : Nat) (base : Nat) (len : Nat) : Statement (.windowSet src ctx window rctx route base len) :=
  of_src _ src rfl rfl and_fst

theorem epochFlush (src : Src) (epoch : Nat) : Statement (.epochFlush src epoch) :=
  of_src _ src rfl rfl and_fst

theorem timeCellSend (l : LinkId) : Statement (.timeCellSend l) :=
  of_neither _ rfl rfl

theorem timeCell (l : LinkId) (c : TimeCell) : Statement (.timeCell l c) :=
  of_neither _ rfl rfl

theorem syncPulseDrive (k : Pulse) (foreign : Bool) : Statement (.syncPulseDrive k foreign) :=
  of_neither _ rfl rfl

theorem syncPulseReceive (width : Nat) (at_ : Nat) : Statement (.syncPulseReceive width at_) :=
  of_neither _ rfl rfl

theorem launchPrewake (r : Fin 16) : Statement (.launchPrewake r) :=
  of_neither _ rfl rfl

theorem launchStart (x : Fin 4096) : Statement (.launchStart x) :=
  of_neither _ rfl rfl

theorem periodStart (r : Fin 16) (refresh : Bool) (replay : Bool) : Statement (.periodStart r refresh replay) :=
  of_neither _ rfl rfl

theorem periodLagTimeout (r : Fin 16) : Statement (.periodLagTimeout r) :=
  of_neither _ rfl rfl

theorem slotData (d : CdId) (k : Packet) (arrival : Nat) : Statement (.slotData d k arrival) :=
  of_packet _ k rfl rfl and_fst

theorem slotConsume (d : CdId) (e : Fin 4096) : Statement (.slotConsume d e) :=
  of_neither _ rfl rfl

theorem schedCollFetchStart (r : Fin 16) (i : Nat) : Statement (.schedCollFetchStart r i) :=
  of_neither _ rfl rfl

theorem schedAbortSend (r : Fin 16) : Statement (.schedAbortSend r) :=
  of_neither _ rfl rfl

theorem schedAbortPacket (k : Packet) : Statement (.schedAbortPacket k) :=
  of_packet _ k rfl rfl id

theorem launchResourcesRelease (r : Fin 16) : Statement (.launchResourcesRelease r) :=
  of_neither _ rfl rfl

theorem schedLoad (src : Src) (ctx : Nat) (va : Nat) (len : Nat) : Statement (.schedLoad src ctx va len) :=
  of_src _ src rfl rfl and_fst

theorem schedUnload (src : Src) (ctx : Nat) : Statement (.schedUnload src ctx) :=
  of_src _ src rfl rfl and_fst

theorem schedStatus (src : Src) (key : Nat) : Statement (.schedStatus src key) :=
  of_src _ src rfl rfl and_fst

theorem schedStop (src : Src) (ctx : Nat) (last : Nat) : Statement (.schedStop src ctx last) :=
  of_src _ src rfl rfl and_fst

theorem schedAbort (src : Src) (ctx : Nat) : Statement (.schedAbort src ctx) :=
  of_src _ src rfl rfl and_fst

theorem timeStatus (src : Src) : Statement (.timeStatus src) :=
  of_src _ src rfl rfl id

theorem timeSet (src : Src) (t : Nat) : Statement (.timeSet src t) :=
  of_src _ src rfl rfl and_fst

theorem ethFrameReceive (k : EthPort) (q : SubPort) (f : EthFrame) : Statement (.ethFrameReceive k q f) :=
  of_neither _ rfl rfl

theorem arpRequest (k : EthPort) (q : SubPort) (f : EthFrame) : Statement (.arpRequest k q f) :=
  of_neither _ rfl rfl

theorem pfcFrame (k : EthPort) (q : SubPort) (enable : Nat) (quanta : List Nat) : Statement (.pfcFrame k q enable quanta) :=
  of_neither _ rfl rfl

theorem pfcPauseExpiry (k : EthPort) (q : SubPort) (n : Fin 8) : Statement (.pfcPauseExpiry k q n) :=
  of_neither _ rfl rfl

theorem pfcRepeat (k : EthPort) (q : SubPort) (n : Fin 8) : Statement (.pfcRepeat k q n) :=
  of_neither _ rfl rfl

theorem pfcXon (k : EthPort) (q : SubPort) (n : Fin 8) (drained : Nat) : Statement (.pfcXon k q n drained) :=
  of_neither _ rfl rfl

theorem mboxSegment (k : EthPort) (q : SubPort) (f : RxSegment) : Statement (.mboxSegment k q f) :=
  of_neither _ rfl rfl

theorem dataSegment (k : EthPort) (q : SubPort) (f : RxSegment) (ue : Bool) : Statement (.dataSegment k q f ue) :=
  of_neither _ rfl rfl

theorem ackSegment (k : EthPort) (q : SubPort) (f : RxSegment) : Statement (.ackSegment k q f) :=
  of_neither _ rfl rfl

theorem nakSegment (k : EthPort) (q : SubPort) (f : RxSegment) : Statement (.nakSegment k q f) :=
  of_neither _ rfl rfl

theorem transportAckTimer (c : Ctrl) : Statement (.transportAckTimer c) :=
  of_neither _ rfl rfl

theorem xportRtoExpiry (c : Ctrl) : Statement (.xportRtoExpiry c) :=
  of_neither _ rfl rfl

theorem xferDoneSend (x : Fin 256) : Statement (.xferDoneSend x) :=
  of_neither _ rfl rfl

theorem getDataSend (x : Fin 256) (ue : Bool) : Statement (.getDataSend x ue) :=
  of_neither _ rfl rfl

theorem egressFrameSelect (k : EthPort) (q : SubPort) : Statement (.egressFrameSelect k q) :=
  of_neither _ rfl rfl

theorem shaperWheelSlot (k : EthPort) (q : SubPort) : Statement (.shaperWheelSlot k q) :=
  of_neither _ rfl rfl

theorem entryShaperRelease (port : Fin 17) (l : LinkId) : Statement (.entryShaperRelease port l) :=
  of_neither _ rfl rfl

theorem subportLinkChange (k : EthPort) (q : SubPort) (up : Bool) : Statement (.subportLinkChange k q up) :=
  of_neither _ rfl rfl

theorem portSet (src : Src) (port : Nat) (mode : Nat) (jumbo : Nat) (txTag : Nat) (addrs : List Byte) : Statement (.portSet src port mode jumbo txTag addrs) :=
  of_src _ src rfl rfl and_fst

theorem portStatus (src : Src) (port : Nat) : Statement (.portStatus src port) :=
  of_src _ src rfl rfl and_fst

theorem xferOpen (src : Src) (ctx : Nat) (die : Nat) (dir : Nat) (pcp : Nat) (va : Nat) (len : Nat) : Statement (.xferOpen src ctx die dir pcp va len) :=
  of_src _ src rfl rfl and_fst

theorem xferStatus (src : Src) (x : Nat) : Statement (.xferStatus src x) :=
  of_src _ src rfl rfl and_fst

theorem xferCancel (src : Src) (x : Nat) : Statement (.xferCancel src x) :=
  of_src _ src rfl rfl and_fst

theorem meterSet (src : Src) (port : Nat) (meter : Nat) (enable : Nat) (actions : Nat) (cir : Nat) (pir : Nat) (cbs : Nat) (pbs : Nat) : Statement (.meterSet src port meter enable actions cir pir cbs pbs) :=
  of_src _ src rfl rfl and_fst

theorem queueSet (src : Src) (port : Nat) (sub : Nat) (queue : Nat) (weight : Nat) (rate : Nat) (burst : Nat) : Statement (.queueSet src port sub queue weight rate burst) :=
  of_src _ src rfl rfl and_fst

theorem entrySet (src : Src) (rate : Nat) : Statement (.entrySet src rate) :=
  of_src _ src rfl rfl and_fst

theorem mailboxFrame (c : Ctrl) (oob : Bool) (seg : List Byte) : Statement (.mailboxFrame c oob seg) :=
  of_neither _ rfl rfl

theorem mailboxCommandStart (c : Ctrl) (m : Mbox) : Statement (.mailboxCommandStart c m) :=
  of_neither _ rfl rfl

theorem sessionOpen (src : Src) (modulus : List Byte) (exponent : List Byte) (nonce : List Byte) : Statement (.sessionOpen src modulus exponent nonce) :=
  of_src _ src rfl rfl and_fst

theorem sessionClose (src : Src) : Statement (.sessionClose src) :=
  of_src _ src rfl rfl id

theorem ctrlEnrol (src : Src) (who : Nat) (entry : List Byte) (rsv : Nat) (count : Nat) (keyHash : List Byte) (sig : List Byte) : Statement (.ctrlEnrol src who entry rsv count keyHash sig) :=
  of_src _ src rfl rfl and_fst

theorem ctrlRevoke (src : Src) (who : Nat) (rsv : Nat) (count : Nat) (sig : List Byte) : Statement (.ctrlRevoke src who rsv count sig) :=
  of_src _ src rfl rfl and_fst

theorem ctrlList (src : Src) : Statement (.ctrlList src) :=
  of_src _ src rfl rfl id

theorem ctxCreate (src : Src) (want : Nat) (flags : Nat) (rsv : Nat) (mask : Nat) (l1 : Nat) : Statement (.ctxCreate src want flags rsv mask l1) :=
  of_src _ src rfl rfl and_fst

theorem ctxDestroy (src : Src) (ctx : Nat) : Statement (.ctxDestroy src ctx) :=
  of_src _ src rfl rfl and_fst

theorem ctxStatus (src : Src) (ctx : Nat) : Statement (.ctxStatus src ctx) :=
  of_src _ src rfl rfl and_fst

theorem ctxSave (src : Src) (ctx : Nat) : Statement (.ctxSave src ctx) :=
  of_src _ src rfl rfl and_fst

theorem ctxList (src : Src) (first : Nat) : Statement (.ctxList src first) :=
  of_src _ src rfl rfl and_fst

theorem ctxReset (src : Src) (ctx : Nat) : Statement (.ctxReset src ctx) :=
  of_src _ src rfl rfl and_fst

theorem ctxAdopt (src : Src) (ctx : Nat) : Statement (.ctxAdopt src ctx) :=
  of_src _ src rfl rfl and_fst

theorem ctxHalt (src : Src) (ctx : Nat) : Statement (.ctxHalt src ctx) :=
  of_src _ src rfl rfl and_fst

theorem memPfResolve (src : Src) (die : Nat) (action : Nat) (id : Nat) : Statement (.memPfResolve src die action id) :=
  of_src _ src rfl rfl and_fst

theorem tlbFlush (src : Src) (ctx : Nat) (mask : Nat) (all : Nat) (va : Nat) (pages : Nat) : Statement (.tlbFlush src ctx mask all va pages) :=
  of_src _ src rfl rfl and_fst

theorem exportSet (src : Src) (die : Nat) (entry : Nat) (data : List Byte) : Statement (.exportSet src die entry data) :=
  of_src _ src rfl rfl and_fst

theorem poolSet (src : Src) (die : Nat) (region : Nat) (counts : List Nat) (quotas : List (Nat × Nat)) : Statement (.poolSet src die region counts quotas) :=
  of_src _ src rfl rfl and_fst

theorem memModeSet (src : Src) (ctx : Nat) (mask : Nat) (mode : Nat) : Statement (.memModeSet src ctx mask mode) :=
  of_src _ src rfl rfl and_fst

theorem poolStatus (src : Src) (die : Nat) : Statement (.poolStatus src die) :=
  of_src _ src rfl rfl and_fst

theorem progLoad (src : Src) (ctx : Nat) (mask : Nat) (va : Nat) (len : Nat) : Statement (.progLoad src ctx mask va len) :=
  of_src _ src rfl rfl and_fst

theorem launch (src : Src) (ctx : Nat) (flags : Nat) (t0 : Nat) (p0 : Nat) : Statement (.launch src ctx flags t0 p0) :=
  of_src _ src rfl rfl and_fst

theorem routineLoad (src : Src) (ctx : Nat) (mask : Nat) (va : Nat) (len : Nat) : Statement (.routineLoad src ctx mask va len) :=
  of_src _ src rfl rfl and_fst

theorem routinePatch (src : Src) (ctx : Nat) (mask : Nat) (va : Nat) (len : Nat) : Statement (.routinePatch src ctx mask va len) :=
  of_src _ src rfl rfl and_fst

theorem unitDisable (src : Src) (die : Nat) (kind : Nat) (index : Nat) (mode : Nat) : Statement (.unitDisable src die kind index mode) :=
  of_src _ src rfl rfl and_fst

theorem unitEnable (src : Src) (die : Nat) (kind : Nat) (index : Nat) : Statement (.unitEnable src die kind index) :=
  of_src _ src rfl rfl and_fst

theorem dbgBreakSet (src : Src) (ctx : Nat) (die : Nat) (tile : Nat) (ctl : Nat) (inst : Nat) (lrc : Nat) : Statement (.dbgBreakSet src ctx die tile ctl inst lrc) :=
  of_src _ src rfl rfl and_fst

theorem dbgResume (src : Src) (ctx : Nat) (mask : Nat) : Statement (.dbgResume src ctx mask) :=
  of_src _ src rfl rfl and_fst

theorem dbgStep (src : Src) (ctx : Nat) (die : Nat) (tile : Nat) : Statement (.dbgStep src ctx die tile) :=
  of_src _ src rfl rfl and_fst

theorem dbgHalt (src : Src) (ctx : Nat) (die : Nat) (tile : Nat) : Statement (.dbgHalt src ctx die tile) :=
  of_src _ src rfl rfl and_fst

theorem devInfo (src : Src) : Statement (.devInfo src) :=
  of_src _ src rfl rfl id

theorem devCaps (src : Src) : Statement (.devCaps src) :=
  of_src _ src rfl rfl id

theorem stateRead (src : Src) (addr : Nat) (len : Nat) : Statement (.stateRead src addr len) :=
  of_src _ src rfl rfl and_fst

theorem stateWrite (src : Src) (addr : Nat) (len : Nat) (data : List Byte) : Statement (.stateWrite src addr len data) :=
  of_src _ src rfl rfl and_fst

theorem stateSnap (src : Src) (count : Nat) (ranges : List (Nat × Nat)) : Statement (.stateSnap src count ranges) :=
  of_src _ src rfl rfl and_fst

theorem unitMap (src : Src) (die : Nat) : Statement (.unitMap src die) :=
  of_src _ src rfl rfl and_fst

theorem collLinesRead (src : Src) (ctx : Nat) (coll : Nat) (first : Nat) (count : Nat) (ue : Option Nat) : Statement (.collLinesRead src ctx coll first count ue) :=
  of_src _ src rfl rfl and_fst

theorem saveRead (src : Src) (ctx : Nat) (die : Nat) (tile : Nat) (buffer : Nat) (offset : Nat) (len : Nat) : Statement (.saveRead src ctx die tile buffer offset len) :=
  of_src _ src rfl rfl and_fst

theorem ctxView (src : Src) (ctx : Nat) : Statement (.ctxView src ctx) :=
  of_src _ src rfl rfl and_fst

theorem collList (src : Src) (first : Nat) : Statement (.collList src first) :=
  of_src _ src rfl rfl and_fst

theorem monitorSample (m : List MonSample) (inlet : Int) (outlet : Int) : Statement (.monitorSample m inlet outlet) :=
  of_neither _ rfl rfl

theorem tileSubstitution (d : CdId) (p : PTile) (ue : Bool) : Statement (.tileSubstitution d p ue) :=
  of_neither _ rfl rfl

theorem healthStatus (src : Src) : Statement (.healthStatus src) :=
  of_src _ src rfl rfl id

theorem monRead (src : Src) (die : Nat) (clear : Nat) : Statement (.monRead src die clear) :=
  of_src _ src rfl rfl and_fst

theorem logRead (src : Src) (first : Nat) (count : Nat) : Statement (.logRead src first count) :=
  of_src _ src rfl rfl and_fst

theorem mirrorRead (src : Src) (first : Nat) (count : Nat) : Statement (.mirrorRead src first count) :=
  of_src _ src rfl rfl and_fst

theorem ledgerRead (src : Src) (first : Nat) (count : Nat) : Statement (.ledgerRead src first count) :=
  of_src _ src rfl rfl and_fst

theorem spareList (src : Src) : Statement (.spareList src) :=
  of_src _ src rfl rfl id

theorem spareApply (src : Src) (kind : Nat) (die : Nat) (index : Nat) : Statement (.spareApply src kind die index) :=
  of_src _ src rfl rfl and_fst

theorem selftest (src : Src) (die : Nat) (tile : Nat) (repeat_ : Nat) (found : List TestMiss) : Statement (.selftest src die tile repeat_ found) :=
  of_src _ src rfl rfl and_fst

theorem quarantineGrant (src : Src) (node : Nat) (token : Nat) (t : Nat) (x : Nat) : Statement (.quarantineGrant src node token t x) :=
  of_src _ src rfl rfl and_fst

theorem quarantineRelease (src : Src) : Statement (.quarantineRelease src) :=
  of_src _ src rfl rfl id

theorem healthSet (src : Src) (limit : Nat) (margin : Nat) : Statement (.healthSet src limit margin) :=
  of_src _ src rfl rfl and_fst

theorem progressRead (src : Src) (ctx : Nat) : Statement (.progressRead src ctx) :=
  of_src _ src rfl rfl and_fst

theorem progressMark (src : Src) (ctx : Nat) (action : Nat) : Statement (.progressMark src ctx action) :=
  of_src _ src rfl rfl and_fst

theorem ledgerNote (src : Src) (note : List Byte) : Statement (.ledgerNote src note) :=
  of_src _ src rfl rfl and_fst

theorem histRead (src : Src) (die : Nat) : Statement (.histRead src die) :=
  of_src _ src rfl rfl and_fst

theorem powerOn (b : BootFinds) : Statement (.powerOn b) :=
  of_neither _ rfl rfl

theorem gooseRestart (b : BootFinds) : Statement (.gooseRestart b) :=
  of_neither _ rfl rfl

theorem dieReset (d : DieId) (byCtrl : Bool) : Statement (.dieReset d byCtrl) :=
  of_neither _ rfl rfl

theorem configCommitRun (readbackOk : Bool) (repairOk : Bool) : Statement (.configCommitRun readbackOk repairOk) :=
  of_neither _ rfl rfl

theorem cfgRead (src : Src) (source : Nat) (type : Nat) (first : Nat) : Statement (.cfgRead src source type first) :=
  of_src _ src rfl rfl and_fst

theorem cfgSet (src : Src) (type : Nat) (index : Nat) (data : List Byte) (len : Nat) : Statement (.cfgSet src type index data len) :=
  of_src _ src rfl rfl and_fst

theorem cfgCommit (src : Src) (expected : Nat) : Statement (.cfgCommit src expected) :=
  of_src _ src rfl rfl and_fst

theorem cfgDiscard (src : Src) : Statement (.cfgDiscard src) :=
  of_src _ src rfl rfl id

theorem cfgStatus (src : Src) : Statement (.cfgStatus src) :=
  of_src _ src rfl rfl id

theorem ownerSet (src : Src) (modulus : List Byte) (exponent : List Byte) (count : Nat) (flags : Nat) (rsv : List Byte) (sig : List Byte) : Statement (.ownerSet src modulus exponent count flags rsv sig) :=
  of_src _ src rfl rfl and_fst

theorem idCert (src : Src) : Statement (.idCert src) :=
  of_src _ src rfl rfl id

theorem attestQuote (src : Src) (nonce : List Byte) (mask : Nat) : Statement (.attestQuote src nonce mask) :=
  of_src _ src rfl rfl and_fst

theorem measRead (src : Src) : Statement (.measRead src) :=
  of_src _ src rfl rfl id

theorem measExtend (src : Src) (digest : List Byte) : Statement (.measExtend src digest) :=
  of_src _ src rfl rfl and_fst

theorem fwWrite (src : Src) (offset : Nat) (flags : Nat) (data : List Byte) : Statement (.fwWrite src offset flags data) :=
  of_src _ src rfl rfl and_fst

theorem fwActivate (src : Src) (flags : Nat) : Statement (.fwActivate src flags) :=
  of_src _ src rfl rfl and_fst

theorem fwStatus (src : Src) : Statement (.fwStatus src) :=
  of_src _ src rfl rfl id

theorem factoryRead (src : Src) (block : Nat) : Statement (.factoryRead src block) :=
  of_src _ src rfl rfl and_fst

theorem svnRaise (src : Src) (svn : Nat) (keys : Nat) : Statement (.svnRaise src svn keys) :=
  of_src _ src rfl rfl and_fst

theorem powerSample (vin : Nat) (iin : Nat) (pin : Nat) (energy : Nat) (sustained : Bool) : Statement (.powerSample vin iin pin energy sustained) :=
  of_neither _ rfl rfl

theorem trip (cause : Fin 5) (die : DieId) : Statement (.trip cause die) :=
  of_neither _ rfl rfl

theorem pmbusPoll (answers : List PmbAnswer) : Statement (.pmbusPoll answers) :=
  of_neither _ rfl rfl

theorem pmbAlert (answers : List PmbAnswer) : Statement (.pmbAlert answers) :=
  of_neither _ rfl rfl

theorem smbusBlockRead (cmd : Nat) : Statement (.smbusBlockRead cmd) :=
  of_neither _ rfl rfl

theorem clkStatus (src : Src) (die : Nat) : Statement (.clkStatus src die) :=
  of_src _ src rfl rfl and_fst

theorem pwrStatus (src : Src) : Statement (.pwrStatus src) :=
  of_src _ src rfl rfl id

theorem powerStateSet (src : Src) (state : Nat) : Statement (.powerStateSet src state) :=
  of_src _ src rfl rfl and_fst

theorem idleTimerSet (src : Src) (us : Nat) : Statement (.idleTimerSet src us) :=
  of_src _ src rfl rfl and_fst

theorem unitSleep (src : Src) (die : Nat) (kind : Nat) (index : Nat) (state : Nat) : Statement (.unitSleep src die kind index state) :=
  of_src _ src rfl rfl and_fst

theorem thermSet (src : Src) (temp : Nat) : Statement (.thermSet src temp) :=
  of_src _ src rfl rfl and_fst

theorem tripClear (src : Src) : Statement (.tripClear src) :=
  of_src _ src rfl rfl id

theorem registerWrite (addr : Nat) (v : Word) : Statement (.registerWrite addr v) :=
  of_neither _ rfl rfl

theorem testPortInstruction (i : TestInstr) : Statement (.testPortInstruction i) :=
  of_neither _ rfl rfl

theorem pmbusRead (src : Src) (addr : Nat) (cmd : Nat) (len : Nat) (answer : Option (List Byte)) : Statement (.pmbusRead src addr cmd len answer) :=
  of_src _ src rfl rfl and_fst

theorem dieResetComplete (d : DieId) (passed : Bool) : Statement (.dieResetComplete d passed) :=
  of_neither _ rfl rfl

theorem powerTransitionComplete (b : BootFinds) : Statement (.powerTransitionComplete b) :=
  of_neither _ rfl rfl

theorem ctxSaveComplete (ctx : Nat) : Statement (.ctxSaveComplete ctx) :=
  of_neither _ rfl rfl

theorem remoteWindowRequest (d : CdId) (l : LinkId) (k : Packet) (write : Bool) (ue : Bool) : Statement (.remoteWindowRequest d l k write ue) :=
  of_packet _ k rfl rfl id

theorem oobLinkChange (up : Bool) : Statement (.oobLinkChange up) :=
  of_neither _ rfl rfl

theorem hubSnapTake : Statement (.hubSnapTake) :=
  of_neither _ rfl rfl

theorem hubSnapComplete : Statement (.hubSnapComplete) :=
  of_neither _ rfl rfl

theorem hubBankMigrationComplete : Statement (.hubBankMigrationComplete) :=
  of_neither _ rfl rfl

theorem routeCommitTakeEffect : Statement (.routeCommitTakeEffect) :=
  of_neither _ rfl rfl

theorem parentLossTimeout : Statement (.parentLossTimeout) :=
  of_neither _ rfl rfl

theorem holdoverTimeout : Statement (.holdoverTimeout) :=
  of_neither _ rfl rfl

theorem syncMarkMissed : Statement (.syncMarkMissed) :=
  of_neither _ rfl rfl

theorem mbxWatchdogExpiry : Statement (.mbxWatchdogExpiry) :=
  of_neither _ rfl rfl

theorem healthScoreCompute : Statement (.healthScoreCompute) :=
  of_neither _ rfl rfl

theorem dayRollover : Statement (.dayRollover) :=
  of_neither _ rfl rfl

theorem qRequestRepeat : Statement (.qRequestRepeat) :=
  of_neither _ rfl rfl

theorem quarantineTakeEffect : Statement (.quarantineTakeEffect) :=
  of_neither _ rfl rfl

theorem tokenLapse : Statement (.tokenLapse) :=
  of_neither _ rfl rfl

theorem logIntake : Statement (.logIntake) :=
  of_neither _ rfl rfl

theorem mirrorCopy : Statement (.mirrorCopy) :=
  of_neither _ rfl rfl

theorem ledgerRecordWrite : Statement (.ledgerRecordWrite) :=
  of_neither _ rfl rfl

theorem claimWindowClose : Statement (.claimWindowClose) :=
  of_neither _ rfl rfl

theorem refclkLoss : Statement (.refclkLoss) :=
  of_neither _ rfl rfl

theorem refclkReturn : Statement (.refclkReturn) :=
  of_neither _ rfl rfl

theorem inputPowerLoss : Statement (.inputPowerLoss) :=
  of_neither _ rfl rfl

theorem insertionLevelStep : Statement (.insertionLevelStep) :=
  of_neither _ rfl rfl

theorem modEnRise : Statement (.modEnRise) :=
  of_neither _ rfl rfl

theorem modEnFall : Statement (.modEnFall) :=
  of_neither _ rfl rfl

theorem smbusAlertResponse : Statement (.smbusAlertResponse) :=
  of_neither _ rfl rfl

theorem fabricTimeUnitFailure : Statement (.fabricTimeUnitFailure) :=
  of_neither _ rfl rfl

end Sys2Proof.Laws.Rows
end

