-- ==== Sys2Proof/Tests/Slice0.lean ====
section
/-! SUPPORT. Tests: ill-formed commands the checks refuse, and for every statement concrete states and operands that meet its hypotheses,
clause by clause. Values come from the rules of spec/ the statements cite. -/

namespace Sys2Proof.Tests

open Sys2Proof.Machine

set_option Elab.async false

/-- The conditions of a Mule that starts an instruction, as one decidable proposition. -/
theorem isReady {s : State} {d p : Nat} {tag : Option Nat}
    (h : (s.tile d p).mule.st = .run ∧ (s.tile d p).mule.breakDue tag = false) : Ready s d p tag := h

theorem isOwner {s : State} {src : Src} {cmd x : Nat}
    (h : s.portAdmits src cmd = true ∧ (s.cx x).owner = src.ctrl.val ∧ (s.cx x).st ≠ .free ∧ src.context = x) : Owner s src cmd x :=
  ⟨h.1, h.2.1, h.2.2.1, h.2.2.2⟩

theorem isAdmin {s : State} {src : Src} {cmd : Nat} (h : s.portAdmits src cmd = true ∧ s.isAdmin src = true) : Admin s src cmd :=
  ⟨h.1, h.2⟩

/-- Tile 0 of compute die 0 as given, the rest after reset. -/
def one (t : Tile) : State := { cds := [(0, { tiles := [(0, t)] })] }

/-- A running Mule of context 5 with the word in bank 0 at PC 0 and the registers given. -/
def muleAt (w : Nat) (regs : Tab Word := []) (m : Mule := {}) : Tile :=
  { mule := { m with st := .run, regs := regs, logical := some 0 }, mem := { bank0 := Mem.writeLe [] 0 4 w, ctx := some 5 } }

/-! The block and the Mule. -/

theorem wit_idle : State.reset.pending = [] := by decide +kernel

/-- Two tiles of context 5, both running, and no launch record. -/
def pair5 : State := { cds := [(0, { tiles := [(0, muleAt 0x13), (1, muleAt 0x13)] })] }

theorem wit_fault_active : (pair5.tile 0 0).mule.st.active = true ∧ (pair5.tile 0 0).mem.ctx = some 5 ∧ pair5.liveRec? 5 = none ∧
    ((0 : Nat) ≠ 0 ∨ (1 : Nat) ≠ 0) ∧ (pair5.tile 0 1).mem.ctx = some 5 ∧ (pair5.tile 0 1).mule.st.active = true := by decide +kernel

theorem wit_fault_inactive : (State.reset.tile 3 4).mule.st.active = false := by decide +kernel

/-- The word at a Mule's PC, as fetched. -/
def fetched (s : State) : Except Err (Nat × Nat) := fetch (s.tile 0 0) (s.cd 0).rs.mem

/-- What it does. -/
def effOf (s : State) (w : Nat) : Eff := muleEff (s.tile 0 0).mule.x (s.tile 0 0).mule.pc w

/-- ADDI x1, x0, 5. -/
theorem wit_write : Ready (one (muleAt 0x00500093)) 0 0 none ∧ fetched (one (muleAt 0x00500093)) = .ok (0x00500093, 4) ∧
    effOf (one (muleAt 0x00500093)) 0x00500093 = .write 1 5 1 := ⟨isReady (by decide +kernel), rfl, rfl⟩

/-- JAL x1, 8. -/
theorem wit_jump : Ready (one (muleAt 0x008000EF)) 0 0 none ∧ fetched (one (muleAt 0x008000EF)) = .ok (0x008000EF, 4) ∧
    effOf (one (muleAt 0x008000EF)) 0x008000EF = .jump 1 8 := ⟨isReady (by decide +kernel), rfl, rfl⟩

/-- BNE x0, x0, 8 is not taken and BEQ x0, x0, 8 is. -/
theorem wit_branch : fetched (one (muleAt 0x00001463)) = .ok (0x00001463, 4) ∧
    effOf (one (muleAt 0x00001463)) 0x00001463 = .branch false 8 ∧
    fetched (one (muleAt 0x00000463)) = .ok (0x00000463, 4) ∧ effOf (one (muleAt 0x00000463)) 0x00000463 = .branch true 8 :=
  ⟨rfl, rfl, rfl, rfl⟩

/-- x2 at an address. -/
def at2 (w a : Nat) : State := one (muleAt w [(2, BitVec.ofNat 64 a)])

/-- LW x1, 0(x2) from the last word of data memory, and misaligned, and outside the map. -/
theorem wit_load : effOf (at2 0x00012083 0x1007FFFC) 0x00012083 = .load 1 4 true 0x1007FFFC ∧
    0x1007FFFC % 4 = 0 ∧ winOf 0x1007FFFC 4 = some (.data, 0x7FFFC) ∧
    effOf (at2 0x00012083 0x10000002) 0x00012083 = .load 1 4 true 0x10000002 ∧ 0x10000002 % 4 ≠ 0 ∧
    effOf (at2 0x00012083 0x10080000) 0x00012083 = .load 1 4 true 0x10080000 ∧ winOf 0x10080000 4 = none :=
  ⟨rfl, rfl, rfl, rfl, by decide, rfl, rfl⟩

/-- SW x1, 0(x2) at the edges of each window. -/
theorem wit_store : effOf (at2 0x00112023 0x10000000) 0x00112023 = .store 4 0x10000000 0 ∧
    winOf 0x10000000 4 = some (.data, 0) ∧ winOf 0x7FFFC 4 = some (.b, 0x3FFFC) ∧ winOf 0x3FFFC 4 = some (.a, 0x3FFFC) ∧
    winOf 0x203FFFFC 4 = some (.store, 0x3FFFFC) ∧ winOf 0x20400000 4 = none :=
  ⟨rfl, rfl, rfl, rfl, rfl, rfl⟩

/-- CSRRS x1, 0x7C6, x0 reads MULE_INSTRET. -/
theorem wit_csr : effOf (one (muleAt 0x7C6020F3)) 0x7C6020F3 = .csr 1 (0x7C0 + 6) false false ∧
    (({} : Mule).regAt 6) = some 0 := ⟨rfl, rfl⟩

/-- A zero word is illegal; a fetch from window B is refused. -/
theorem wit_illegal : effOf (one (muleAt 0)) 0 = .illegal := rfl

theorem wit_custom_illegal : (fetch ((one (muleAt 0x0200000B)).tile 0 0) []).toOption = some (0x0200000B, 4) ∧
    (bits 0x0200000B 31 25, bits 0x0200000B 14 12) = (1, 0) ∧ bits 0x0000202B 6 0 = 0x2B ∧ bits 0x0000202B 14 12 = 2 ∧
    bits 0x0000605B 6 0 = 0x5B ∧ bits 0x0000605B 14 12 = 6 := by decide +kernel

theorem wit_fetch : fetched (one { muleAt 0 with mule := { st := .run, pc := 0x40000 } }) = .error .imemActive := rfl

/-- Tag 3 outstanding in x1's mask, and a mask of other tags. -/
def tagged : State := one (muleAt 0 [(1, 8), (2, 4)] { tags := 8 })

theorem wit_lr : Ready tagged 0 0 none ∧ (tagged.tile 0 0).mule.tags &&& (tagged.tile 0 0).mule.x 2 = 0 ∧
    (tagged.tile 0 0).mule.tags &&& (tagged.tile 0 0).mule.x 1 ≠ 0 ∧ (tagged.tile 0 0).mule.arm = none ∧
    (tagged.tile 0 0).mule.tags ≠ 0 := ⟨isReady (by decide +kernel), by decide +kernel⟩

theorem wit_end : Ready (one (muleAt 0)) 0 0 none ∧ ((one (muleAt 0)).tile 0 0).mule.arm = none ∧
    ((one (muleAt 0)).tile 0 0).mule.tags = 0 := ⟨isReady (by decide +kernel), by decide +kernel⟩

/-- A Mule in WAIT whose awaited tags are complete. -/
def waiting (w : WaitWhy) : State := one { mule := { st := .wait }, mem := { wait := w, ctx := some 5 } }

theorem wit_release : ((waiting (.tags 4)).tile 0 0).mule.st = .wait ∧ ((waiting (.tags 4)).tile 0 0).mem.wait = .tags 4 ∧
    ((waiting (.tags 4)).tile 0 0).mule.tags &&& 4 = 0 ∧ ((waiting .ending).tile 0 0).mem.wait = .ending := by decide +kernel

theorem wit_ebreak : Ready (one (muleAt 0 [] { debug := true })) 0 0 none ∧
    ((one (muleAt 0 [] { debug := true })).tile 0 0).mule.debug = true := ⟨isReady (by decide +kernel), by decide +kernel⟩

theorem wit_break : ((one (muleAt 0 [] { debug := true, brkPending := true })).tile 0 0).mule.st = .run ∧
    ((one (muleAt 0 [] { debug := true, brkPending := true })).tile 0 0).mule.breakDue none = true := by decide +kernel

/-! Calls, arms and periods. -/

/-- A routine store whose directory entry 0 is present. -/
def store0 (t : Tile) : State :=
  { cds := [(0, { tiles := [(0, t)], rs := { mem := Mem.writeLe [] 0x400 4 4096 } })] }

theorem wit_callr : Ready (store0 (muleAt 0)) 0 0 none ∧ (dirEntry ((store0 (muleAt 0)).cd 0).rs.mem 0).offset ≠ 0 ∧
    ((store0 (muleAt 0)).tile 0 0).mule.stack = [] ∧ ((store0 (muleAt 0)).tile 0 0).mule.arm = none ∧
    ((store0 (muleAt 0)).tile 0 0).mule.tags >>> 48 = 0 ∧ ((store0 (muleAt 0)).tile 0 0).mule.switchReq = false :=
  ⟨isReady (by decide +kernel), by decide +kernel⟩

def swReq (busy : Bool) : State := store0 (muleAt 0 [] { switchReq := true, loadBusy := busy, switchPc := 64 })

theorem wit_switch : Ready (swReq false) 0 0 none ∧ ((swReq false).tile 0 0).mule.switchReq = true ∧
    ((swReq false).tile 0 0).mule.loadBusy = false ∧ Ready (swReq true) 0 0 none ∧ ((swReq true).tile 0 0).mule.loadBusy = true :=
  ⟨isReady (by decide +kernel), by decide +kernel, by decide +kernel, isReady (by decide +kernel), by decide +kernel⟩

/-- A Mule inside an unpadded call that returns to x7 at PC 64, with a0 = 9. -/
def inCall (tags : BitVec 64) : State := one (muleAt 0 [(10, 9)] { stack := [{ rd := 7, ret := 64 }], tags := tags })

theorem wit_retr : Ready (inCall 0) 0 0 none ∧ ((inCall 0).tile 0 0).mule.stack = [{ rd := 7, ret := 64 }] ∧
    ((inCall 0).tile 0 0).mule.tags >>> 48 = 0 ∧ ((inCall 0).tile 0 0).mule.switchReq = false ∧
    Ready (inCall (1#64 <<< 50)) 0 0 none ∧ ((inCall (1#64 <<< 50)).tile 0 0).mule.tags >>> 48 ≠ 0 :=
  ⟨isReady (by decide +kernel), by decide +kernel, by decide +kernel, by decide +kernel, isReady (by decide +kernel), by decide +kernel⟩

/-- A Mule padding the rest of a call's budget. -/
def padding : State := one { muleAt 0 [(10, 9)] { stack := [{ rd := 7, ret := 64, budget := 100 }] } with
  mule := { st := .pad, regs := [(10, 9)], stack := [{ rd := 7, ret := 64, budget := 100 }] }, mem := { wait := .retPad } }

theorem wit_pad : (padding.tile 0 0).mule.st = .pad ∧ (padding.tile 0 0).mem.wait = .retPad ∧
    (padding.tile 0 0).mule.stack = [{ rd := 7, ret := 64, budget := 100 }] ∧ (padding.tile 0 0).mule.switchReq = false := by
  decide +kernel

/-- Compatibility mode with a summary, and with an open arm of which `spent` cycles are spent. -/
def compat (valid : Bool) (arm : Option Arm) : State := one (muleAt 0 [] { urMode := true, sumValid := valid, sumVal := 1, arm := arm })

theorem wit_urBr : Ready (compat true none) 0 0 none ∧ ((compat true none).tile 0 0).mule.urMode = true ∧
    ((compat true none).tile 0 0).mule.arm = none ∧ ((compat true none).tile 0 0).mule.sumValid = true ∧
    Ready (compat false none) 0 0 none ∧ ((compat false none).tile 0 0).mule.sumValid = false :=
  ⟨isReady (by decide +kernel), by decide +kernel, by decide +kernel, by decide +kernel, isReady (by decide +kernel), by decide +kernel⟩

theorem wit_urJoin : Ready (compat true (some { spent := 10 })) 0 0 none ∧
    ((compat true (some { spent := 10 })).tile 0 0).mule.arm = some { spent := 10 } ∧
    (10 : Nat) = (10 : Fin 4096).val ∧ (10 : Nat) < (11 : Fin 4096).val ∧ (9 : Fin 4096).val < 10 :=
  ⟨isReady (by decide +kernel), by decide +kernel, by decide, by decide, by decide⟩

/-- A Mule padding an arm. -/
def armPad : State := one { mule := { st := .pad, arm := some { spent := 3 } }, mem := { wait := .armPad } }

theorem wit_urPad : (armPad.tile 0 0).mule.st = .pad ∧ (armPad.tile 0 0).mem.wait = .armPad ∧
    (armPad.tile 0 0).mule.arm = some { spent := 3 } := by decide +kernel

/-- Context 5 in period 7 of a schedule on tile 0, the die at insertion level `level`. -/
def inPeriod (level : Nat) (t : Tile) (sched : Bool := true) : State :=
  { cds := [(0, { tiles := [(0, t)], level := level })],
    ctx := { tab := [(5, { st := .running, scheduled := sched, recIdx := 0 })] },
    sq := { recs := [(0, { st := .running, ctx := 5, period := 7 })], recx := [(0, { waiting := [(0, 0), (1, 2)] })],
            scheds := [(5, { periods := [{ length := 1000, slack := 10 }] })] } }

theorem wit_psync : Ready (inPeriod 0 (muleAt 0)) 0 0 none ∧
    ((inPeriod 0 (muleAt 0)).cx ((inPeriod 0 (muleAt 0)).tile 0 0).cx).scheduled = true ∧
    (inPeriod 0 (muleAt 0)).liveRec? ((inPeriod 0 (muleAt 0)).tile 0 0).cx = some 0 ∧
    (7 : Nat) = ((inPeriod 0 (muleAt 0)).lrec 0).period % 2 ^ 16 ∧
    ((inPeriod 0 (muleAt 0)).cd 0).level * (((inPeriod 0 (muleAt 0)).schedOf 0).desc 7).length / 20 = 0 :=
  ⟨isReady (by decide +kernel), by decide +kernel⟩

theorem wit_psync_hot : Ready (inPeriod 2 (muleAt 0)) 0 0 none ∧
    (inPeriod 2 (muleAt 0)).liveRec? ((inPeriod 2 (muleAt 0)).tile 0 0).cx = some 0 ∧
    0 < ((inPeriod 2 (muleAt 0)).cd 0).level * (((inPeriod 2 (muleAt 0)).schedOf 0).desc 7).length / 20 ∧
    (8 : Nat) ≠ ((inPeriod 2 (muleAt 0)).lrec 0).period % 2 ^ 16 :=
  ⟨isReady (by decide +kernel), by decide +kernel⟩

theorem wit_psync_none : Ready (one (muleAt 0)) 0 0 none ∧
    ((one (muleAt 0)).cx ((one (muleAt 0)).tile 0 0).cx).scheduled = false := ⟨isReady (by decide +kernel), by decide +kernel⟩

/-- A tile whose PSYNC write waits for 100 ns of insertion. -/
def inserting : State := { inPeriod 2 { mule := { st := .wait }, mem := { wait := .insertion 100, ctx := some 5 } } with aonNs := 100 }

theorem wit_insertion : (inserting.tile 0 0).mem.wait = .insertion 100 ∧ inserting.liveRec? (inserting.tile 0 0).cx = some 0 ∧
    (inserting.tile 0 0).mule.st = .wait ∧ (inserting.tile 0 0).mem.waitFrom + 100 ≤ inserting.aonNs := by decide +kernel

/-- An unscheduled Mule on a die at level 3. -/
def warm : State := inPeriod 3 (muleAt 0) false

theorem wit_gate : (warm.cd 0).level ≠ 0 ∧ (warm.tile 0 0).mule.st = .run ∧
    (warm.tile 0 0).mem.gated ≠ warm.aonNs / 20000 + 1 ∧ (warm.tile 0 0).mem.ctx = some 5 ∧ (warm.cx 5).scheduled = false := by
  decide +kernel

/-! Issue of long-running instructions. -/

/-- A descriptor: its head (R81) and body. -/
def descOf (f7 len : Nat) (body : List Byte) : List Byte :=
  padTo 64 ([BitVec.ofNat 8 f7, 1, 0, 0] ++ leBytes 2 len ++ [0, 0] ++ body)

/-- x1 points at the descriptor at the start of data memory and x2 holds tag 3; at 256 a program that copies a constant to OUT0; Hen
threads are allotted and slot 0 of context 5 waits. -/
def issuing (desc : List Byte) (m : Mule := {}) (os : Mem := []) : State :=
  let t := muleAt 0 [(1, 0x10000000), (2, 3)] m
  { cds := [(0, { tiles := [(0, { t with mem := { t.mem with dmem := Mem.writeLe (Mem.writeN [] 0 desc) 288 4 0x03000000 }, os := os })],
                  hen := { allot := [(0, 8)] }, slots := { entries := [(4, { kind := 1, ctx := 5, slot := 0, tile := 0 })] } })] }

def passDesc : List Byte :=
  descOf 0x08 40 (leBytes 4 1 ++ [1, 1, 0, 0] ++ leBytes 4 0 ++ leBytes 4 0 ++ leBytes 4 128 ++ leBytes 4 128)
def eeDesc : List Byte := descOf 0x10 52 (leBytes 4 256 ++ [1, 0, 0, 128] ++ leBytes 4 128)
def cxDesc (f7 : Nat) : List Byte :=
  descOf f7 32 (leBytes 4 128 ++ [4, 0, 0, 0] ++ leBytes 4 0 ++ leBytes 4 0x1000 ++ leBytes 4 0x2000 ++ leBytes 4 0x200)
def dmaDesc : List Byte := descOf 0x18 36 ([0, 4, 0, 0] ++ leBytes 4 1 ++ leBytes 4 4)
def henDesc : List Byte :=
  descOf 0x20 52 ([0, 0, 2, 0] ++ leBytes 2 1 ++ [0, 0] ++ leBytes 4 1 ++ leBytes 4 4 ++ leBytes 8 0 ++ leBytes 4 4 ++ leBytes 4 0 ++
    leBytes 8 128 ++ leBytes 8 0 ++ leBytes 4 0x300)
def slotDesc : List Byte := descOf 0x30 4 []
def streamDesc_ : List Byte := descOf 0x28 52 []

theorem wit_issue : Ready (issuing passDesc) 0 0 (some 3) ∧ ((issuing passDesc).issueOf 0 0 0 0 1 2).tag = 3 ∧
    ((issuing passDesc).tile 0 0).mule.arm = none := ⟨isReady (by decide +kernel), by decide +kernel⟩

theorem wit_issue_pass : issueError (issuing passDesc) 0 0 0x08 0 1 2
    (fun s k => passChecks (s.tile k.d k.p) (s.cd k.d).width k.desc) = none := by decide +kernel

theorem wit_issue_ee : issueError (issuing eeDesc) 0 0 0x10 0 1 2
    (fun s k => eeRunChecks (s.tile k.d k.p) (s.cx k.ctx).urCompat k.desc) = none := by decide +kernel

theorem wit_issue_cx : issueError (issuing (cxDesc 0x11)) 0 0 0x11 0 1 2 (fun s k => cxChecks (s.tile k.d k.p) false k.desc) = none ∧
    issueError (issuing (cxDesc 0x12)) 0 0 0x12 0 1 2 (fun s k => cxChecks (s.tile k.d k.p) true k.desc) = none := by decide +kernel

theorem wit_issue_dma : issueError (issuing dmaDesc) 0 0 0x18 0 1 2 dmaChecks = none ∧
    (Tab.get {} ((issuing dmaDesc).cd 0).dma.engines (dmaD ((issuing dmaDesc).issueOf 0 0 0x18 0 1 2).desc).engine : DmaEng).st = 0 := by
  decide +kernel

theorem wit_issue_hen : issueError (issuing henDesc) 0 0 0x20 0 1 2 henChecks = none ∧
    issueError (issuing henDesc) 0 0 0x20 1 1 2 henChecks = none ∧
    ((issuing henDesc).cd 0).hen.slotFor ((issuing henDesc).issueOf 0 0 0x20 0 1 2).i = some 0 := by decide +kernel

theorem wit_issue_slot : issueError (issuing slotDesc) 0 0 0x30 0 1 2 armChecks = none ∧
    ((issuing slotDesc).armed? ((issuing slotDesc).issueOf 0 0 0x30 0 1 2)).map (·.1) = some 4 := by decide +kernel

/-- What AS.STREAM reads from the body is not fixed by the spec (log entry 13); for any reading with a free generator, at most four
dimensions and no list the issue checks pass. -/
theorem wit_issue_stream (h : (Config.streamDesc (streamDesc_.drop 8)).dims.length = 0 ∧ (Config.streamDesc (streamDesc_.drop 8)).entries = 0 ∧
    (Config.streamDesc (streamDesc_.drop 8)).indexed = false) : issueError (issuing streamDesc_) 0 0 0x28 0 1 2 streamChecks = none := by
  have hd : ((issuing streamDesc_).issueOf 0 0 0x28 0 1 2).desc = streamDesc_ := by decide +kernel
  simp only [issueError, issueChecks, streamChecks, hd, h.1, h.2.1, h.2.2]
  decide +kernel

/-- Descriptors of another kind: E_ALIGN comes before E_BADARG (R87). -/
theorem wit_issue_bad : issueError (issuing dmaDesc) 0 0 0x08 0 1 2
      (fun s k => passChecks (s.tile k.d k.p) (s.cd k.d).width k.desc) = some .align ∧
    issueError (issuing dmaDesc) 0 0 0x20 0 1 2 henChecks = some .badarg ∧
    issueError (issuing dmaDesc) 0 0 0x30 0 1 2 armChecks = some .badarg ∧
    issueError (issuing passDesc) 0 0 0x10 0 1 2 (fun s k => eeRunChecks (s.tile k.d k.p) (s.cx k.ctx).urCompat k.desc) = some .align ∧
    issueError (issuing passDesc) 0 0 0x18 0 1 2 dmaChecks = some .badarg := by decide +kernel

theorem wit_issue_arm : Ready (issuing passDesc { arm := some {} }) 0 0 (some 3) ∧
    ((issuing passDesc { arm := some {} }).tile 0 0).mule.arm.isSome = true := ⟨isReady (by decide +kernel), by decide +kernel⟩

/-! Passes, the element engine, copies and gather jobs. -/

/-- A pass of plane 0 on tile 0, its input phase under way or ended. -/
def inPass (done : Bool) : State :=
  one { mule := { st := .run, tags := 8 }, mem := { ctx := some 5 }, os := [(0, 0x3C), (1, 0x40)],
        arr := { passes := [{ desc := passDesc, tag := 3, inCycles := 20, inputDone := done }], plane0 := { st := .filling } } }

theorem wit_pass_input : List.find? (fun q : Pass => !q.inputDone) ((inPass false).tile 0 0).arr.passes =
    some { desc := passDesc, tag := 3, inCycles := 20 } := by decide +kernel

theorem wit_pass_done : ((inPass true).tile 0 0).arr.passes = [{ desc := passDesc, tag := 3, inCycles := 20, inputDone := true }] ∧
    ((inPass true).cd 0).map.phys 0 = 0 := by decide +kernel

/-- A checked pass catches a miscompare of its checksum row. -/
theorem wit_pass_miscompare : (((inPass true).tile 0 0).arr.caught { desc := passDesc, tag := 3, checked := true, inputDone := true }
    (some { mech := 1 })).isSome = true ∧ ((inPass true).tile 0 0).mule.st.active = true := by decide +kernel

/-- An engine instruction of a kind under way on tile 0. -/
def inEe (kind row : Nat) (desc : List Byte) : State :=
  one { mule := { st := .run, tags := 8 }, mem := { ctx := some 5 }, os := [(0, 0x3C), (1, 0x40), (0x1000, 3)],
        ee := { run := some { kind := kind, desc := desc, prog := [0x03000000], consts := [0], tag := 3, rows := 1, slots := 1, row := row } } }

theorem wit_ee : ((inEe 0 0 eeDesc).tile 0 0).ee.run =
      some { kind := 0, desc := eeDesc, prog := [0x03000000], consts := [0], tag := 3, rows := 1, slots := 1, row := 0 } ∧
    (0 : Nat) < 1 ∧ ((inEe 0 1 eeDesc).cd 0).map.phys 0 = 0 ∧ (1 : Nat) ≤ 1 := by decide +kernel

theorem wit_cx : ((inEe 1 0 (cxDesc 0x11)).tile 0 0).ee.run.map (·.kind) = some 1 ∧
    ((inEe 2 0 (cxDesc 0x12)).tile 0 0).ee.run.map (·.kind) = some 2 := by decide +kernel

/-- DMA engine 0 copies four bytes from device memory to the operand store, and one more copy waits. -/
def copying (queue : List DmaInst) : State :=
  { cds := [(0, { tiles := [(0, { mule := { st := .run, tags := 24 }, mem := { ctx := some 5 } })],
                  tr := { slots := [(0, { bound := true, ctx := 5 })],
                          tlb := [(0, [{ va := 0, size := 65536, pa := 0, write := true, pinned := true }])] },
                  dma := { engines := [(0, { st := 1, cur := { desc := dmaDesc, tag := 3, ctx := 5 }, queue := queue })] } })],
    hbm := [(0, 7), (1, 9)], svc := { cdIn := 1 } }

theorem wit_copy : (Tab.get {} ((copying []).cd 0).dma.engines 0 : DmaEng).st = 1 ∧
    ((copying []).copyRun 0 0 (Tab.get {} ((copying []).cd 0).dma.engines 0) none []).stop = .go ∧
    (Tab.get {} ((copying [{ desc := dmaDesc, tag := 4 }]).cd 0).dma.engines 0 : DmaEng).queue = [{ desc := dmaDesc, tag := 4 }] := by
  decide +kernel

/-- A gather job of tile 0 in slot 0 with one thread. -/
def gathering (h : HenThread) (q : HenJob) (hen : Hen := {}) : State :=
  { cds := [(0, { tiles := [(0, { mule := { st := .run, tags := 8 }, mem := { ctx := some 5 } })],
                  hen := { hen with jobs := [(0, q)], threads := [(2, h)] },
                  tr := { slots := [(0, { bound := true, ctx := 5 })],
                          tlb := [(0, [{ va := 0, size := 65536, pa := 0, write := true, pinned := true }])] } })] }

def aJob : HenJob := { desc := henDesc, st := 1, threads := 1, tag := 3, ctx := 5 }
def aThread : HenThread := { st := 1, slot := 0, reqs := [(0, { addr := 4, item := 0, len := 4 })] }

theorem wit_hen_late : ((gathering { st := 1, late := 2 } aJob).thr 0 2).late ≠ 0 := by decide +kernel

theorem wit_hen_timeout : (gathering aThread aJob).thr 0 2 = aThread ∧ Tab.has aThread.reqs 0 = true ∧
    (Tab.get {} aThread.reqs 0 : HenReq).held = false ∧ ((gathering aThread aJob).job 0 0).st = 1 := by decide +kernel

theorem wit_hen_complete :
    ((gathering { st := 1, slot := 0 } { aJob with commitLow := 1 }).job 0 0).st = 1 ∧ (henD henDesc).hashed = false ∧
    (((gathering { st := 1, slot := 0 } { aJob with commitLow := 1 }).cd 0).hen.threads.all
      fun t => decide (t.2.slot ≠ 0) || decide (t.2.reqs = [])) = true ∧ (henD henDesc).n ≤ 1 := by decide +kernel

/-- A thread at its only item, its index at the start of the operand store. -/
def asking : State := gathering { st := 1, slot := 0 } aJob

theorem wit_hen_issue : asking.thr 0 2 = { st := 1, slot := 0 } ∧ asking.job 0 0 = aJob ∧ aJob.stop = .ok ∧
    ({ st := 1, slot := 0 } : HenThread).item < (henD henDesc).n ∧ (asking.cd 0).hen.quiescing = false ∧
    asking.henNext 0 aJob { st := 1, slot := 0 } = some (0, 4, 0, 0) ∧ ({ st := 1, slot := 0 } : HenThread).freeReq = some 0 ∧
    (henD henDesc).kind = 0 ∧ (henD henDesc).remote = false ∧
    asking.copyTarget 0 (((asking.cd 0).tr.slotOf 5).getD 16) 0 0 = (asking, .mem 0) := by decide +kernel

/-- An ordered job of two 4-byte additions to one word, and a reply to the second while the first is still to commit. -/
def addJob : HenJob :=
  { aJob with desc := descOf 0x20 52 ([2, 0, 0, 0] ++ leBytes 2 2 ++ [0, 0] ++ leBytes 4 2 ++ leBytes 4 0 ++ leBytes 8 64 ++ leBytes 4 0 ++
      leBytes 4 0 ++ leBytes 8 128 ++ leBytes 8 128 ++ leBytes 4 0x300), threads := 2 }
def early : State := gathering { st := 1, slot := 0, item := 1, reqs := [(0, { addr := 64, kind := 2, item := 1, len := 4 })] } addJob

theorem wit_hen_reply : Tab.has (early.thr 0 2).reqs 0 = true ∧ (Tab.get {} (early.thr 0 2).reqs 0 : HenReq).held = false ∧
    addJob.unordered = false ∧ (henD addJob.desc).kind = 2 ∧ (early.thr 0 2).item = 1 ∧ addJob.commitLow = 0 ∧
    Tab.get false addJob.committed 0 = false ∧ early.henTarget 0 addJob 0 / 64 = early.henTarget 0 addJob 1 / 64 ∧
    ((early.cd 0).hen.threads.all fun x => List.all x.2.reqs fun y => !y.2.held) = true := by decide +kernel

/-- A reply to an unordered gather into the operand store. -/
def arriving : State := { gathering aThread { aJob with unordered := true } with svc := { cdIn := 1 } }

theorem wit_hen_gather : Tab.has (arriving.thr 0 2).reqs 0 = true ∧ (arriving.job 0 0).unordered = true ∧
    (henD henDesc).dataOs = true ∧ (Tab.get {} aThread.reqs 0 : HenReq).stuck = false ∧
    (arriving.devReadN 4 4).toOption = some [0, 0, 0, 0] := by decide +kernel

/-! Sleep, translation, the stacks, board peers, pools, column maps. -/

theorem wit_idle_gate : (State.reset.sleepOf (.hen 0)).st = .running ∧ (State.reset.sleepOf (.hen 0)).waking = false ∧
    (State.reset.sleepOf (.hen 0)).holdUntil ≤ State.reset.now ∧ State.reset.unitWorks (.hen 0) = false ∧ State.reset.pwr.st = .run := by
  decide +kernel

/-- A running schedule whose only wake point names tile 1 of compute die 0. -/
def waking (action : Nat) (tile : Tile) (st : RecSt := .running) : State :=
  { cds := [(0, { tiles := [(1, tile)] })], ft := { now := 500 },
    sq := { recs := [(0, { st := st, ctx := 5, t0 := 1000 })], recx := [(0, { actual := 100 })],
            scheds := [(5, { wakes := [{ desc := 0, kind := 0, action := action, unit := 1, offset := 50, hold := 9 }],
                             periods := [{ length := 1000, slack := 10 }] })] } }

theorem wit_wake (a : Nat) (h : a < 3) : ((waking a {}).schedOf 0).wakes[0]? =
      some { desc := 0, kind := 0, action := a, unit := 1, offset := 50, hold := 9 } ∧
    ((waking a {}).lrec 0).st.runs = true ∧ ((waking a {}).lrec 0).period % max 1 ((waking a {}).schedOf 0).periods.length = 0 ∧
    ((waking a {}).recX 0).actual + 50 ≤ (waking a {}).now ∧ ((waking a {}).recX 0).points.contains (0, 0) = false ∧ ((waking a {}).recX 0).starts = [] ∧
    (waking a {}).wakeUnit 0 1 = some (.tile 0 1) := by
  have : a = 0 ∨ a = 1 ∨ a = 2 := by omega
  rcases this with rfl | rfl | rfl <;> decide +kernel

theorem wit_sleep_point : (waking 1 {}).unitWorks (.tile 0 1) = false ∧
    (waking 1 { arr := { passes := [{}] } }).unitWorks (.tile 0 1) = true := by decide +kernel

theorem wit_prewake : ((waking 0 {} .armed).lrec 0).st = .armed ∧ ((waking 0 {} .armed).lrec 0).t0 ≤ (waking 0 {} .armed).now + 64000 ∧
    ((waking 0 {} .armed).recX 0).prewoken = false := by decide +kernel

/-- A context whose level-1 table is at 0x10000 of stack 0, mapping va 0 by one 2 MiB page at 0x200000. -/
def mapped : State :=
  { svc := { cdIn := 1 }, hbm := Mem.writeLe (Mem.writeLe (Mem.writeLe [] 0x10000 8 0x11005) 0x11000 8 0x12005) 0x12000 8 0x200007,
    cds := [(0, { tr := { slots := [(0, { bound := true, ctx := 5, l1 := 0x10000 })] } })] }

theorem wit_walk : (Tab.get {} (mapped.cd 0).tr.slots 0 : TSlot).bound = true ∧ (4 : Word).toNat < 2 ^ 48 ∧ (mapped.cd 0).tr.hit 0 4 = none ∧
    (mapped.cd 0).tr.walkStart 0 4 (Tab.get {} (mapped.cd 0).tr.slots 0 : TSlot).l1 = (4, 0x10000, true) ∧
    (State.walkFrom (mapped.modCd 0 fun c => { c with tr := { c.tr with misses := c.tr.misses + 1 } }) 4 4 0x10000 true).toOption =
        some { va := 0, size := 2 ^ 21, pa := 0x200000, write := true, pinned := false } := by decide +kernel

theorem wit_inval : bit (0x20 : Word).toNat 5 = true ∧ (mapped.cd 0).tr.invDone = true ∧ bit (0x30 : Word).toNat 4 = true := by
  decide +kernel

/-- A parked DMA engine's fault record. -/
def parked : State :=
  { cds := [(0, { tr := { faults := [{ id := 3, ctx := 5, who := { kind := 0, no := 1 } }] },
                  dma := { engines := [(1, { st := 2, cur := { ctx := 5 }, faultVa := 8 })] } })] }

theorem wit_resolve : (parked.cd 0).tr.record? (bits (3 : Word).toNat 15 0) = some { id := 3, ctx := 5, who := { kind := 0, no := 1 } } ∧
    (parked.cd 0).tr.overflow = [] ∧ bit (3 : Word).toNat 16 = false ∧ (Tab.get {} (parked.cd 0).dma.engines 1 : DmaEng).st = 2 ∧
    (parked.cd 0).tr.record? (bits (4 : Word).toNat 15 0) = none := by decide +kernel

/-- Compute die 0 in service with its controller as given. -/
def stack (h : Hbm) : State := { svc := { cdIn := 1 }, cds := [(0, { hbm := h })] }

theorem wit_refresh : (stack {}).dieIn 0 = true ∧ (stack {}).pwr.st ≠ .parked ∧ ((stack {}).cd 0).hbm.repairing = none ∧
    ((stack {}).cd 0).hbm.rowQueue = [] ∧ (0 : Nat) / 2 ^ 37 = 0 ∧ pcOf (0 % 2 ^ 37) = 0 ∧
    Tab.get 0 ((stack {}).cd 0).hbm.scrubLine 0 ≤ lineIdx (0 % 2 ^ 37) ∧ lineIdx (0 % 2 ^ 37) < Tab.get 0 ((stack {}).cd 0).hbm.scrubLine 0 + 8 ∧
    Tab.get false (stack {}).poison (lineOf 0) = false := by decide +kernel

theorem wit_migrate : bit (0x23 : Word).toNat 5 = true ∧ (stack {}).running = false ∧ ((stack {}).cd 0).hbm.migrating = false ∧
    ((stack {}).cd 0).hbm.sparesUsed < 2 ∧ 2 ≤ ((stack { sparesUsed := 2 }).cd 0).hbm.sparesUsed ∧
    ((stack { migrating := true, logicalSel := 3 }).cd 0).hbm.migrating = true := by decide +kernel

/-- A request of a board peer, with its payload's CRC-32 right. -/
def peerPkt (kind : Nat) (payload : List Byte) : Packet :=
  { hdr := { kind := kind, ctx := 5, length := payload.length }, payload := payload, crc := crc32 payload }

/-- A request's payload: address, length, operation, requester, tag, data (R335). -/
def peerPay (p len aop : Nat) (data : List Byte) : List Byte :=
  leBytes 8 p ++ [BitVec.ofNat 8 len, BitVec.ofNat 8 aop, 3, 0] ++ leBytes 4 (2 ^ 31) ++ data

/-- Compute die 0 exports its first 2 MiB to the member at link 30 when `open_`. -/
def exporting (open_ : Bool) : State :=
  { svc := { cdIn := 1 }, links := [(30, { st := .up, board := true, peerBoard := true, peerMember := 1 })],
    cds := [(0, { hbm := { exports := if open_ then [(0, { base := 0, len2m := 1, peers := 15, access := 3 })] else [] },
                  tr := { slots := [(0, { bound := true, ctx := 5 })],
                          tlb := [(0, [{ va := 0, size := 65536, pa := 0, write := true, pinned := true }])] } })] }

theorem wit_peer : (exporting true).dieIn 0 = true ∧ (peerPkt 0x20 (peerPay 8 4 0 [])).poison = false ∧
    crc32 (peerPkt 0x20 (peerPay 8 4 0 [])).payload = (peerPkt 0x20 (peerPay 8 4 0 [])).crc ∧
    (peerReq (peerPay 8 4 0 [])).p = 8 ∧ (peerReq (peerPay 8 4 0 [])).len = 4 ∧ (peerReq (peerPay 8 4 0 [])).aop = 0 := by decide +kernel

theorem wit_peer_serve : (0 : Nat) < 4 ∧ 8 % 64 + 4 ≤ 64 ∧ 8 / 2 ^ 37 = 0 ∧ 8 % 2 ^ 37 + 4 ≤ 0x1800000000 ∧
    ((exporting true).cd 0).hbm.exported ((exporting true).link 30).peerMember 8 4 false = true ∧
    ((exporting true).cd 0).hbm.exported ((exporting true).link 30).peerMember 8 4 true = true ∧
    ((exporting false).cd 0).hbm.exported ((exporting false).link 30).peerMember 8 4 false = false ∧
    ((exporting true).devRead 8 4).toOption = some [0, 0, 0, 0] ∧ ((exporting true).devWrite 8 [1, 2, 3, 4]).toOption.isSome = true := by
  decide +kernel

theorem wit_peer_atomic : ((exporting true).devAtomic false 8 0 1).toOption.isSome = true ∧ Tab.get false (exporting true).poison (lineOf 8) = false ∧ aopWidth 0 = 4 ∧ (8 : Nat) % 4 = 0 := by
  decide +kernel

/-- A reply to request entry 0 of thread 2, and a request through a remote window. -/
def replyPkt : Packet := peerPkt 0x23 (leBytes 4 16 ++ leBytes 2 0 ++ leBytes 2 0 ++ [1, 2, 3, 4])

theorem wit_peer_reply : fld replyPkt.payload 0 4 = 16 ∧
    Tab.has ((gathering { aThread with reqs := [(0, { addr := 4, len := 4, target := 2 })] } aJob).thr 0 2).reqs 0 = true := by
  decide +kernel

theorem wit_window : ((exporting true).cd 0).tr.slotOf 5 = some 0 ∧ (exporting true).translate 0 0 8 0 true = (exporting true, .ok 8) ∧
    (exporting true).target 8 = .dev 8 := by decide +kernel

/-- Pools of compute die 0: one buffer of 64 KiB allowed to the firmware. -/
def pools (inUse : Nat) : State :=
  { cds := [(0, { bp := { configured := true, pools := [(0, { count := 4, applied := 4 })],
                          quota := [(66, { max := 2, inUse := inUse })] } })] }

theorem wit_pools : bit (1 : Word).toNat 0 = true ∧ (∀ q ∈ ((pools 0).cd 0).bp.quota, q.2.inUse = 0) ∧
    (∀ p, p < 6 → (List.range 16).foldl (fun a r => a + (((pools 0).cd 0).bp.quotaOf r p).min) 0 ≤ (((pools 0).cd 0).bp.pool p).count) ∧
    ((pools 0).cd 0).bp.region * 2 ^ 21 + ((pools 0).cd 0).bp.regionBytes ≤ 0x1800000000 ∧
    (∃ q ∈ ((pools 1).cd 0).bp.quota, q.2.inUse ≠ 0) := by decide +kernel

theorem wit_pool_fw : bit (0 : Word).toNat 3 = false ∧ (0 : Word).toNat % 8 < 6 ∧ ((pools 0).cd 0).bp.grant 11 0 = .ok ∧
    ((pools 2).cd 0).bp.grant 11 0 ≠ .ok ∧ bit (8 : Word).toNat 3 = true := by decide +kernel

/-- The firmware holds the lowest buffer of pool 0. -/
def held0 : State :=
  { cds := [(0, { bp := { configured := true, pools := [(0, { count := 4, applied := 4, fresh := 1 })], owner := [(0, 11)],
                          quota := [(66, { max := 2, inUse := 1 })] } })] }

theorem wit_pool_free : ((held0.cd 0).bp.poolAt 0 = some 0) ∧ (0 - (held0.cd 0).bp.base 0) % poolSize 0 = 0 ∧
    Tab.get 16 (held0.cd 0).bp.owner 0 = 11 := by decide +kernel

theorem wit_colcfg : bit (0x10 : Word).toNat 4 = true ∧ (State.reset.tile 2 1).arr.plane0.st = .empty ∧
    (State.reset.tile 2 1).arr.plane1.st = .empty ∧ (State.reset.tile 2 1).arr.passes = [] ∧ State.reset.running = false ∧
    ((one { arr := { plane0 := { st := .full } } }).tile 0 0).arr.plane0.st ≠ .empty := by decide +kernel

/-! The hub, the Ox and collectives. -/

/-- The hub in service with outputs 16 (compute die 0 is 36), 30, 36 and 53, and a packet at the head of the queue of output o. -/
def hubUp (queues : Tab Queue := []) (pkts : Tab HubPkt := []) (ox : Ox := {}) : State :=
  { svc := { hubIn := true, cdIn := 1 }, hub := { up := true, outUp := [(30, true), (36, true), (53, true)], queues := queues, pkts := pkts },
    rt := { v0 := .current }, links := [(30, { st := .up, credits := [(2, 4)] })], ox := ox }

theorem wit_hub_partition : bits (0x100300 : Word).toNat 21 11 ≤ 1024 ∧ 128 ≤ bits (0x100300 : Word).toNat 10 0 ∧
    bits (0x100300 : Word).toNat 10 0 + bits (0x100300 : Word).toNat 21 11 + 128 ≤ 2048 ∧ (hubUp).hub.pkts = [] ∧
    (∀ q ∈ (hubUp).hub.queues, q.2.entries = []) ∧ (∀ b ∈ (hubUp).ox.binds, b.2.st ≠ .open ∧ b.2.st ≠ .running) ∧
    bits (0x7F : Word).toNat 10 0 < 128 ∧ (hubUp).anyLaunch = false ∧ (2 : Word).toNat % 4 ≠ 3 ∧ (7 : Word).toNat % 4 = 3 ∧
    (hubUp).hub.snapBusy = false ∧ ({ snapBusy := true } : Hub).snapBusy = true := by decide +kernel

theorem wit_hub_migrate : bit (0x405 : Word).toNat 10 = true ∧ State.reset.hubm.migrating = none ∧ State.reset.hubm.sparesUsed < 32 ∧
    State.reset.hubm.gone (bits (0x405 : Word).toNat 9 0) = false ∧ 32 ≤ ({ sparesUsed := 32 } : HubMem).sparesUsed ∧
    ({ migrating := some (5, 1024) } : HubMem).migrating = some (5, 1024) ∧ ({ sparesUsed := 32 } : HubMem).gone 7 = false := by
  decide +kernel

/-- A packet of 4 bytes for selector `sel` of a kind, network REQ, class UNSCHED. -/
def pktTo (sel kind : Nat) (payload : List Byte := [1, 2, 3, 4]) : Packet :=
  (hubUp).packet { cls := 1, kind := kind, collId := 9, ctx := 5, route := route1 sel } payload

theorem wit_ingress : (hubUp).hub.up = true ∧ (pktTo 36 0x20).poison = false ∧ (pktTo 36 0x20).hdr.good = true ∧ (pktTo 36 0x20).hdr.cls ≠ 3 ∧
    (hubUp).resolve 37 (pktTo 36 0x20) = .out (pktTo 36 0x20) [36] false ∧ ¬ (36 < 36 ∧ (1 : Nat) = 1) ∧ (hubUp).hub.outIn 36 = true ∧
    (hubUp).memberErr (pktTo 36 0x20) 36 = none ∧ (hubUp).hub.pkts.length < 262144 ∧ (hubUp).hub.entriesUsed < 524288 ∧
    (hubUp).hub.unconsumed 0 + (pktTo 36 0x20).cells ≤ (hubUp).netFree 0 ∧
    (hubUp).resolve 37 (pktTo 63 0x20) = .noRoute ∧ { (pktTo 36 0x20) with poison := true }.poison = true ∧
    ({ (pktTo 36 0x20).hdr with hcrc := 0 } : Hdr).good = false := by decide +kernel

/-- A packet of `n` cells held for output o, `sent` of them read; the output's next cycle is an unscheduled one. -/
def queued (o kind n sent : Nat) (ox : Ox := {}) (payload : List Byte := [1, 2, 3, 4]) : State :=
  let s := hubUp [(queueNo o 0 1, { entries := [{ desc := 7, sent := sent }], len := n, pkts := 1 })]
    [(7, { pkt := pktTo o kind payload, cells := List.range n, refs := 1 })] ox
  { s with hub := { s.hub with cycle := [(o, 15)] } }

theorem wit_egress : (queued 36 0x20 1 0).hub.outIn 36 = true ∧
    List.find? (fun q => ((queued 36 0x20 1 0).hub.queue q).entries ≠ [])
      ((queued 36 0x20 1 0).hub.order 36 (decide (15 % (queued 36 0x20 1 0).hub.shareD = (queued 36 0x20 1 0).hub.shareD - 1))) =
        some (queueNo 36 0 1) ∧
    List.find? (fun q => ((hubUp).hub.queue q).entries ≠ [])
      ((hubUp).hub.order 36 (decide (0 % (hubUp).hub.shareD = (hubUp).hub.shareD - 1))) = none ∧
    (0 : Nat) + 1 < (List.range 2).length ∧ Tab.get 0 ((queued 30 0x20 2 0).link 30).credits (poolOf 0 1) ≠ 0 := by decide +kernel

/-- A packet waits at the entry shaper of compute die 0 for link 0. -/
def shaped : State := { xp := { shapers := [(0, { tokens := 5, waiting := [pktTo 0 0x20] })] } }

theorem wit_shaper : (shaped.xp.shaper 0 0).waiting = [pktTo 0 0x20] ∧
    0 ≤ shaperNow (shaped.xp.shaper 0 0).tokens (shaped.xp.shaper 0 0).tLast shaped.xp.entryRate 4224 shaped.now := by decide +kernel

/-- A running collective with id 9 whose program sums elements of I0 in INT32, one at a time, and rounds the result out. -/
def sumProg : List Byte :=
  padTo 0x80 (padTo 0x40 ([2, 1, 0x11, 1, 1, 0, 16, 0] ++ leBytes 4 2 ++ leBytes 4 8 ++ leBytes 8 0 ++ leBytes 8 0)) ++
    padTo 128 (leBytes 12 (route1 36) ++ [0xFF, 0xFF, 3, 0x43, 0, 0]) ++ leBytes 8 0x0180000000000000 ++ leBytes 8 0x08C8000000000000

def sumOx (st : BindSt) (run : OxRun := {}) : Ox :=
  { binds := [(3, { st := st, collId := 9, ctx := 5, lines := 8, dhash := 77, opensIn := 1, opensOut := 1, nmembers := 2, timeoutUs := 10 })],
    progs := [(3, sumProg)], bindx := [(3, { run := run })] }

/-- Elements 10 and 20 at OFFSET 0 of stream 0, with LAST. -/
def elems : List Byte := [0, 0, 0, 1] ++ leBytes 4 0 ++ leBytes 2 2 ++ leBytes 2 0 ++ leBytes 4 1 ++ leBytes 4 10 ++ leBytes 4 20

theorem wit_ox_dispatch : ((queued 53 0x44 1 0).hub.queue (queueNo 53 0 1)).entries = [{ desc := 7 }] ∧ (queued 53 0x44 1 0).hub.outIn 53 = true ∧
    (queued 53 0x40 1 0).collLive 9 = none ∧ (queued 53 0x40 1 0 (sumOx .running) elems).collLive 9 = some 3 ∧
    ((queued 53 0x40 1 0 (sumOx .running) elems).bind 3).st = .running ∧
    crc32 elems = (pktTo 53 0x40 elems).crc ∧ (queued 53 0x40 1 0 (sumOx .running) elems).collPeriodErr 3 (pktTo 53 0x40 elems) = none ∧
    (queued 53 0x40 1 0 (sumOx .running) elems).oxNoRoom 3 (pktTo 53 0x40 elems) = false ∧
    oxShape ((queued 53 0x40 1 0 (sumOx .running) elems).oxProg 3) 0x40 elems = true := by decide +kernel


/-- The collective runs and its block at OFFSET 0 stands as given. -/
def stepping (k : Block) (accs : Tab Acc := []) : State :=
  hubUp [] [(7, { pkt := pktTo 53 0x40 elems, refs := 1 })] (sumOx .running { blocks := [(0, k)], accs := accs })

/-- The contribution the packet `elems` makes. -/
def contrib : Contrib := { data := leBytes 4 10 ++ leBytes 4 20, desc := 7 }

theorem wit_ox_step : Block.due (oxP sumProg) { nrec := 2, held := [contrib], last := true } = true ∧
    Tab.get [] (stepping {}).ox.progs 3 = sumProg ∧
    ((stepping { nrec := 2, held := [contrib], last := true }).bind 3).used +
      (blockLines 0 { nrec := 2, held := [contrib], last := true }).length ≤ 8 ∧
    contrib.carry = false ∧ (oxP sumProg).red? = some 1 ∧ ((stepping {}).bind 3).place ≠ 2 := by decide +kernel

/-- The collective with its block complete, every OPEN matched and instruction 1 of its program `op`. -/
def finishing (op : Nat) : State :=
  let s := stepping { nrec := 2, added := 2, last := true, lines := true }
    [(0, ({} : Acc).elem 1 1 10 |>.elem 1 1 5), (1, ({} : Acc).elem 1 1 20 |>.elem 1 1 5)]
  { s with ox := { s.ox with progs := [(3, sumProg.set 271 (BitVec.ofNat 8 op))],
                             binds := [(3, { s.bind 3 with opensIn := 0, opensOut := 0 })] } }

theorem wit_ox_finish : ∀ op ∈ [8, 9], ((finishing op).bind 3).st = .running ∧ ((finishing op).bind 3).gate = true ∧
    (1 : Nat) < ((finishing op).oxProg 3).nins ∧ ((finishing op).oxProg 3).red? = some 1 ∧
    (((finishing op).bindX 3).run.finished ((finishing op).oxProg 3)) = [(0, { nrec := 2, added := 2, last := true, lines := true })] ∧
    (((finishing op).oxProg 3).ins 1).op = op := by decide +kernel

/-- A record program of one instruction: its operation, destination, sources, and IMM; one-word records, one run a source. -/
def recProg (op dst b imm : Nat) : List Byte :=
  let w := op * 2 ^ 56 + dst * 2 ^ 52 + b * 2 ^ 44 + imm * 2 ^ 16
  padTo 0x80 (padTo 0x48 (padTo 0x40 ([1, 3, 0, 1, 1, 0, 16, 0] ++ leBytes 4 0 ++ leBytes 4 8 ++ [1, 1, 0, 0, 0, 0, 0, 0, 1, 1, 0, 0, 0, 0, 0, 0]) ++
    leBytes 8 0)) ++ padTo 128 (leBytes 12 (route1 36) ++ [0xFF, 0xFF, 3, 0x42, 0, 0]) ++ leBytes 8 w

/-- Two complete one-word records on I0, one on I1, and a table of three rows. -/
def recState (op dst b imm : Nat) (opened : Tab Bool := []) : State :=
  let r : OxRun := { inputs := [(0, { recs := [(0, leBytes 4 0), (1, leBytes 4 2)], len := some 2 }),
                                (65536, { recs := [(0, leBytes 4 2)], len := some 1 })],
                     table := [leBytes 4 7, leBytes 4 8, leBytes 4 9], tableReady := true, opened := opened }
  hubUp [] [] { binds := [(3, { st := .running, collId := 9, ctx := 5, lines := 8 })], progs := [(3, recProg op dst b imm)],
                bindx := [(3, { run := r })] }

/-- The hypotheses of a record instruction's statement at instruction 0 of a program. -/
def recReady (s : State) (op : Nat) (f : OxP → OxRun → OxI → InsOut) : Bool :=
  decide ((s.bind 3).st = .running ∧ 0 < (s.oxProg 3).nins ∧ ((s.oxProg 3).ins 0).op = op ∧ Tab.get false (s.bindX 3).run.insDone 0 = false ∧
    (f (s.oxProg 3) (s.bindX 3).run ((s.oxProg 3).ins 0)).err = none ∧ (s.bind 3).gate = true ∧
    (f (s.oxProg 3) (s.bindX 3).run ((s.oxProg 3).ins 0)).done = true)

theorem wit_ox_records : recReady (recState 0x10 8 0 0) 0x10 (fun p r k => insMerge p r 0 k) ∧ recReady (recState 0x11 8 0 0) 0x11 insSort ∧
    recReady (recState 0x12 8 0 1) 0x12 insTopk ∧ recReady (recState 0x18 8 0 0) 0x18 insFilter ∧
    recReady (recState 0x20 8 1 0) 0x20 (fun p r k => insSet p r 0 k) ∧ recReady (recState 0x21 8 1 0) 0x21 (fun p r k => insSet p r 0 k) ∧
    recReady (recState 0x22 8 1 0) 0x22 (fun p r k => insSet p r 0 k) ∧ recReady (recState 0x28 8 0 0) 0x28 insLoad ∧
    recReady (recState 0x29 8 0 0) 0x29 insGather ∧ recReady (recState 0x30 12 0 0 [(0, true)]) 0x30 insEmit := by
  decide +kernel

theorem wit_ox_record_out : let s := recState 0x30 12 0 0 [(0, true)]
    let x := insEmit (s.oxProg 3) (s.bindX 3).run ((s.oxProg 3).ins 0)
    Tab.get false (s.bindX 3).run.opened 0 = true ∧ x.r.opened = (s.bindX 3).run.opened ∧ x.outs.flatMap (·.recs) ≠ [] ∧
      (x.outs.flatMap (·.recs)).length ≤ perPacket (((x.outs.flatMap (·.recs)).headD []).length / 4) := by decide +kernel

theorem wit_ox_sort : (((recState 0x11 8 0 0).bindX 3).run.view ((recState 0x11 8 0 0).oxProg 3) 0).closed = true := by decide +kernel

/-- Records l on stream T0. -/
def onT0 (l : List (List Byte)) : OxRun := { ts := [(0, { runs := [{ recs := l }] })] }

theorem onT0_count (l : List (List Byte)) : ((onT0 l).view (oxP []) 8).count = 0 + l.length := rfl

theorem wit_ox_sort_many : 65536 < ((onT0 (List.replicate 65537 [])).view (oxP []) 8).count := by
  rw [onT0_count, List.length_replicate]; decide

/-- One collective of one member: a sum of two INT32 elements, from 0x200 to 0x300 of context 5. -/
def aGlobal : List Byte :=
  padTo 64 (leBytes 4 9 ++ [0, 1, 0x11, 0] ++ leBytes 8 2 ++ leBytes 4 0 ++ leBytes 4 1 ++ leBytes 4 0 ++ leBytes 4 10 ++ leBytes 4 0)

def aLocal (srcUnits : Nat := 2) : List Byte :=
  padTo 128 (leBytes 2 5 ++ [0, 0] ++ leBytes 4 0 ++ leBytes 8 0x100 ++ leBytes 8 0x200 ++ leBytes 8 0x300 ++ leBytes 4 0 ++ leBytes 4 srcUnits ++
    leBytes 12 (route1 53) ++ [0xFF, 0xFF, 3, 0] ++ leBytes 4 0 ++ leBytes 4 2 ++ leBytes 2 1 ++ leBytes 2 1 ++ leBytes 2 0)

/-- Context 5 of controller 0 lives on compute die 0, its first page mapped, its member list and two elements in device memory. -/
def coll (v : BindX := {}) (b : Binding := {}) : State :=
  { hubUp [] [] { node := 6, binds := [(3, { b with collId := 9, ctx := 5, dhash := 77, timeoutUs := 10, opensIn := 1, opensOut := 1, recvUnits := 2 })],
                  bindx := [(3, { v with global := aGlobal, local_ := aLocal })], progs := [(3, padTo 512 sumProg)] } with
    cds := [(0, { tr := { slots := [(0, { bound := true, ctx := 5 })],
                          tlb := [(0, [{ va := 0, size := 65536, pa := 0, write := true, pinned := true }])] } })],
    ctx := { tab := [(5, { st := .loaded })] },
    hbm := [(0x100, 6), (0x104, 5), (0x200, 10), (0x204, 20)] }

/-- The sender of context 5's commands. -/
def five : Src := { context := 5 }

/-- An OX_OPEN of member 0 with the data hash given. -/
def openOf (dh : Nat) (kind : Nat := 0x44) : Packet :=
  pktTo 53 kind (oxPrefix 0 0 0 0 0 1 ++ leBytes 8 dh ++ leBytes 4 7 ++ leBytes 2 0x10 ++ leBytes 2 0)

theorem wit_coll_open : (openOf 77).hdr.kind = 0x44 ∧ (coll {} { st := .open }).collLive (openOf 77).hdr.collId = some 3 ∧
    (openOf 77).poison = false ∧ crc32 (openOf 77).payload = (openOf 77).crc ∧ fld (openOf 77).payload 16 8 = 77 ∧
    fld (openOf 78).payload 16 8 ≠ 77 ∧ (coll {} { st := .open }).collPeriodErr 3 (openOf 77) = none ∧
    ((coll {} { st := .open }).bind 3).matchedIn < 1 ∧ ((coll {} { st := .open }).bind 3).matchedOut < 1 := by decide +kernel

theorem wit_coll_abort : (coll {} { st := .running }).collHeld (openOf 77 0x45).hdr.collId = some 3 ∧ (openOf 77 0x45).hdr.kind = 0x45 ∧
    crc32 (openOf 77 0x45).payload = (openOf 77 0x45).crc ∧ ((coll { abortDue := true } {}).bindX 3).abortDue = true ∧
    ((coll {} { st := .running }).bind 3).tRun + 10 * 1000 ≤ ({ (coll {} { st := .running }) with ft := { now := 10000 } } : State).now ∧
    ((coll { cooling := true } {}).bind 3).tEnd + (coll {} {}).ox.cool * 1000 ≤ ({ (coll {} {}) with ft := { now := 10 ^ 9 } } : State).now := by
  decide +kernel

theorem wit_coll_fetch : ((coll { fetch := { active := true } } { st := .running }).bindX 3).fetch.active = true ∧
    (collG aGlobal).type ≤ 1 ∧ (collG aGlobal).fmt % 16 < 2 ∧ min 1008 ((collL aLocal).srcUnits - 0) = 2 ∧
    (coll { fetch := { active := true, openSent := true } } { st := .running }).vaRead 0
      ((coll {} {}).collSlot 0 5) 0x200 8 =
      (coll { fetch := { active := true, openSent := true } } { st := .running }, .more, leBytes 4 10 ++ leBytes 4 20) := by decide +kernel

/-- The collective's two results. -/
def results : Packet := pktTo 36 0x43 (oxPrefix 0 0 1 0 2 1 ++ leBytes 4 11 ++ leBytes 4 22)

theorem wit_coll_results : results.hdr.kind ≠ 0x44 ∧ (coll {} { st := .running }).collLive results.hdr.collId = some 3 ∧
    results.poison = false ∧ crc32 results.payload = results.crc ∧
    collDest (collG aGlobal) (collL aLocal) results.hdr.kind results.payload = some (4, 0x300) ∧
    0 + fld results.payload 8 2 ≤ ((coll {} { st := .running }).bind 3).recvUnits ∧
    ((coll {} { st := .running }).vaWrite 0 ((coll {} {}).collSlot 0 5) 5 0x300 (results.payload.drop 16)).2 = .more := by decide +kernel

theorem wit_coll_bind : (coll).portAdmits five 0x0601 = true ∧ (coll).owns five 5 = true ∧ five.context = 5 ∧ (collL aLocal).ctx = 5 ∧
    firstErr ((coll { cooling := false } { st := .free }).bindChecks (aGlobal.set 0 8) aLocal (padTo 512 sumProg)) = none ∧
    (coll).collAdmit false 5 0 8 = some (coll, 0, 0) ∧ (coll).collEntry = some 0 ∧
    firstErr ((coll {} { st := .running }).bindChecks aGlobal aLocal (padTo 512 sumProg)) = some .busy := by decide +kernel

theorem wit_coll_commands : (coll).portAdmits five 0x0602 = true ∧ (coll).noCtx 5 = false ∧ (coll).svc.hubIn = true ∧
    (coll {} { st := .open }).collHeld 9 = some 3 ∧ ((coll {} { st := .open }).bind 3).sched = false ∧
    (coll {} { st := .done }).collHeld 9 = some 3 ∧ (9 : Nat) < 2 ^ 31 := by decide +kernel
/-! Links, routing, fabric time and the SYNC line. -/

/-- Link 30 with the registers and link-layer state given, all dies in service. -/
def linked (k : Link := { st := .up }) (x : LinkX := {}) (ft : Ft := {}) : State :=
  { links := [(30, k)], linkx := [(30, x)], ft := ft, hub := { up := true, outUp := [(30, true)] },
    svc := { hubIn := true, cdIn := 1, ldIn := 63, hdIn := true }, mbx := { enrol := [(0, { st := 1, admin := true })] } }

/-- A slot with a one-byte cell. -/
def aCell : TxSlot := { slot := .cell 0 0 true true false [1] }

theorem wit_flit_send : ((linked).link 30).st = .up ∧ ((linked { st := .up } { sleep := { st := .gated } }).lx 30).sleep.st ≠ .running ∧
    ((linked { st := .up } { txSched := [aCell] }).lx 30).sleep.st = .running ∧
    ((linked { st := .up } { txSched := [aCell], cur := List.replicate 9 {} }).lx 30).cur.length = 9 ∧
    (0 : Nat) % (linked).hub.shareD ≠ (linked).hub.shareD - 1 := by decide +kernel

/-- A control cell with its check. -/
def ctl (c : CtlCell) : CtlCell := { c with ccrc := crc16 c.bytes }

theorem wit_flit_receive : ({ seq := 1 } : Flit).ok = true ∧ (1 + 65536 - ((linked).lx 30).rxSeq) % 65536 = 1 ∧
    Tab.get 0 ((linked).lx 30).owed (poolOf 0 1) < poolCells (poolOf 0 1) ∧ ({ ok := false, uncorr := 2 } : Flit).ok = false ∧
    (ctl { ack := 65535, credits := [1, 2, 3, 4, 5, 6] }).ccrc = crc16 (ctl { ack := 65535, credits := [1, 2, 3, 4, 5, 6] }).bytes ∧
    (((linked).lx 30).nextSeq + 65535 - 65535) % 65536 ≤ 128 ∧
    (ctl { down := true }).ccrc = crc16 (ctl { down := true }).bytes ∧ ({ ccrc := 1 } : CtlCell).ccrc ≠ crc16 ({ ccrc := 1 } : CtlCell).bytes ∧
    ((linked { st := .up } { replay := [{ seq := 4 }] }).lx 30).lastAckAt + 10000 ≤
      ({ (linked { st := .up } { replay := [{ seq := 4 }] }) with aonNs := 10000 } : State).aonNs := by decide +kernel

/-- A training that found every lane. -/
def trained : Training := { good := [0, 1, 2, 3, 4, 5, 6, 7, 8], lock := true, flight := 7, peerNode := 3 }

theorem wit_training : trained.lock = true ∧ 8 ≤ (sortBy (fun a b => decide (a ≤ b)) ((trained.good.map (·.val)).eraseDups)).length ∧
    ((linked { st := .training }).link 30).wantBoard = false ∧ trained.flight ≤ 50 ∧
    ((linked { st := .down } { trainAt := some 0 }).lx 30).trainAt = some 0 ∧ ((linked { st := .down }).link 30).auto = true ∧
    ((linked { st := .down }).link 30).enable = true ∧ ((linked).link 30).retrainDue = false ∧ ((linked).link 30).flight + 2 < 3 ∧
    (linked).running = false ∧ ({ (linked) with ctx := { tab := [(5, { st := .running })] } } : State).running = true := by decide +kernel

/-- Lane 2 of link 30 has erred too often. -/
def erring : State := linked { st := .up, laneErrsSec := [(2, 1000001)] }

theorem wit_lanes : (∀ q, q < 9 → Tab.get 0 ((linked).link 30).laneErrsSec q ≤ ((linked).link 30).laneLimit) ∧
    List.find? (fun q => decide ((erring.link 30).laneLimit < Tab.get 0 (erring.link 30).laneErrsSec q)) (List.range 9) = some 2 ∧
    (erring.link 30).spareUsed = false ∧ (erring.link 30).swap = none ∧ laneOf (erring.link 30).laneMap 2 = some 2 ∧
    ((linked { st := .up, spareUsed := true }).link 30).spareUsed = true ∧
    ((linked { st := .up, swap := some { lane := 2, flitsLeft := 0 } }).link 30).swap = some { lane := 2, flitsLeft := 0 } ∧
    (((linked).lx 30).nextSeq + 65536 - 0) % 65536 < 32768 ∧ ((linked { st := .up, enable := false }).link 30).enable = false := by
  decide +kernel

/-- Version 1 may be written or committed, version 0 is in use. -/
def routed (v1 : VerSt := .loaded) (pending : Option (Nat × Nat) := none) : State :=
  { (linked) with rt := { v0 := .current, v1 := v1, pending := pending } }

/-- A continuation entry and a multicast entry. -/
def contEntry : List Byte := padTo 16 (leBytes 12 (route1 36) ++ [1])
def mcEntry : List Byte := leBytes 8 3

theorem wit_routes : (routed .loaded (some (1, 0))).rt.pending = some (1, 0) ∧ (0 : Nat) ≤ (routed).now ∧ (routed).rt.ver 0 = .current ∧
    contEntry.length = 16 * 1 ∧ mcEntry.length = 8 * 1 ∧ (routed .empty).rt.ver 1 = .empty ∧
    (∀ e ∈ entriesOf 16 1 contEntry, routeEntryBad true e = false) ∧ (∀ e ∈ entriesOf 8 1 mcEntry, routeEntryBad false e = false) ∧
    (routed).rt.ver 1 = .loaded ∧ (routed).rt.ver (1 - 1) ≠ .draining ∧ (routed).now < 5 := by decide +kernel

theorem wit_admin (cmd : Nat) : Admin (linked) {} cmd := isAdmin ⟨by rfl, by decide +kernel⟩

theorem wit_link_commands : (linked).dieIn (linkDie 30) = true ∧ ((linked { st := .disabled }).link 30).st = .disabled ∧
    ((linked).link 30).st ≠ .disabled ∧ ((linked).link 30).st ≠ .parked ∧ Admin (routed) {} 0x0707 ∧ (routed).rt.ver 1 ≠ .current :=
  ⟨by decide +kernel, by decide +kernel, by decide +kernel, by decide +kernel, isAdmin (by decide +kernel), by decide +kernel⟩

theorem wit_window_set : Owner (coll) five 0x0706 5 ∧ (0x100 : Nat) + 0x100 ≤ 2 ^ 48 ∧ ((coll).cx 5).st.live = false ∧
    routeEnd (route1 36) = some 36 :=
  ⟨isOwner (by decide +kernel), by decide +kernel, by decide +kernel, by decide +kernel⟩

/-- A TIME cell with its check. -/
def timeCell (tx : Nat) : TimeCell :=
  let c : TimeCell := { locked := true, dist := 1, rootNode := 2, txTime := tx }
  { c with tcrc := crc16 (timeCellBytes c) }

/-- The offset the cell has in a state whose count is `now` and link 30's flight is 7. -/
def timed (now : Nat) (st : FtSt) : State := linked { st := .up, flight := 7 } {} { now := now, st := st, useSync := false }

theorem wit_time_cell : ∀ e ∈ [(1034, FtSt.locked), (1000, FtSt.locked), (500, FtSt.free)],
    let s := timed e.1 e.2
    let c := timeCell 1000
    c.tcrc = crc16 (timeCellBytes c) ∧ s.syncListener = false ∧ s.syncMaster = false ∧ s.ft.stepped = false ∧ (∀ e ∈ s.sq.recs, e.2.st.live = false) ∧
      let k : Cand := { locked := c.locked, dist := c.dist, root := c.rootNode, offset := (1039 : Int) - s.now, at_ := s.now }
      (State.timeComplaints { s with ft := { s.ft with cands := Tab.put s.ft.cands 30 k } }).bestParent = some (30, k) := by decide +kernel

theorem wit_time_offsets : (1039 : Int) - 1034 ≤ (timed 1034 .locked).ft.limit ∧ ((timed 1000 .locked).ft.limit : Int) < 1039 - 1000 ∧
    ({ timeCell 5 with tcrc := 0 } : TimeCell).tcrc ≠ crc16 (timeCellBytes { timeCell 5 with tcrc := 0 }) := by decide +kernel

theorem wit_time_loss : (timed 8192 .locked).ft.lastParent + 8192 ≤ (timed 8192 .locked).now ∧ (timed 8192 .locked).bestParent = none ∧
    (timed 100000 .holdover).ft.holdFrom + 100000 ≤ (timed 100000 .holdover).now ∧
    (({ (timed 100000 .holdover) with sq := { recs := [(4, { st := .armed, ctx := 5 })] } } : State).lrec 4).st.live = true := by decide +kernel

/-- The SYNC master: no lower member is present. -/
def master (now : Nat) (owed : List Int) : State := { ft := { now := now, ctlRoot := true, owed := owed } }

/-- Member 1 beside member 0, which drives SYNC. -/
def listener (now : Nat) (st : FtSt) : State :=
  { links := [(34, { st := .up, board := true, peerBoard := true, peerMember := 0 })], pins := { member := 1 },
    ft := { now := now, st := st } }

theorem wit_sync : (master 0 []).syncMaster = true ∧ (master 0 []).timeLocked = true ∧ (master (2 ^ 20) []).now % 2 ^ 20 = 0 ∧
    nearMark (master 500 [1]).now = false ∧ (master 500 [-1]).ft.owed = [-1] ∧ (master 0 []).ft.silent = false ∧
    (listener 0 .locked).ft.useSync = true ∧ (listener 0 .locked).syncDriver.isSome = true ∧
    (listener (3 * 2 ^ 20) .free).syncListener = true ∧
    (listener (3 * 2 ^ 20) .free).ft.marked + 3 * 2 ^ 20 ≤ (listener (3 * 2 ^ 20) .free).now := by decide +kernel

theorem wit_time_set : (linked {} {} { ctlRoot := true }).ft.wasSet = false ∧ (linked {} {} { ctlRoot := true }).anyLaunch = false ∧
    Admin (linked {} {} { ctlRoot := true }) {} 0x0807 ∧ (linked).portAdmits {} 0x0806 = true ∧ (linked).svc.hdIn = true :=
  ⟨by decide +kernel, by decide +kernel, isAdmin (by decide +kernel), by decide +kernel, by decide +kernel⟩

/-! Schedules and slots. -/

/-- Context 5 with a program on tile 0 of compute die 0, its Mule as given, record 4 and the schedule given. -/
def scheduled (m : Mule := {}) (k : Rec := {}) (x : RecX := {}) (st : CtxSt := .running) (q : Sched := {}) (now : Nat := 100)
    (wait : WaitWhy := .none) (slots : Tab SlotE := []) : State :=
  { cds := [(0, { tiles := [(0, { mule := m, mem := { ctx := some 5, wait := wait } })], slots := { entries := slots } })],
    ctx := { tab := [(5, { st := st, mask := 1 })], x := [(5, { prog := some { dies := 1, tiles := 1, entry := [64] }, t0 := some 90 })] },
    sq := { recs := [(4, { k with ctx := 5 })], recx := [(4, x)], scheds := [(5, { q with groupCtx := 77 })] },
    ft := { now := now }, svc := { hdIn := true, hubIn := true, cdIn := 1 }, hub := { up := true } }

/-- The program runs on one tile. -/
def aProg : Prog := { dies := 1, tiles := 1, entry := [64] }

theorem wit_launch : ((scheduled {} {} {} .armed).cx 5).st = .armed ∧ ((scheduled {} {} {} .armed).cxx 5).resume = false ∧
    ((scheduled {} {} {} .armed).cxx 5).prog = some aProg ∧ (0, 0) ∈ aProg.uses ∧ aProg.uses = [(0, 0)] ∧
    ((scheduled {} {} {} .armed).tile 0 (((scheduled {} {} {} .armed).cd 0).map.phys 0)).mem.ctx = some 5 ∧
    (scheduled {} {} {} .armed).liveRec? 5 = none ∧ ((scheduled {} {} {} .armed).cxx 5).t0 = some 90 ∧ 90 ≤ (scheduled {} {} {} .armed).now ∧
    (scheduled {} { st := .armed, t0 := 80 } {} .armed).liveRec? 5 = some 4 := by decide +kernel

/-- The launch is in period 2 of 9, each period 50 ns long, and its one tile waits after PSYNC. -/
def onSched (now : Nat) (x : RecX := {}) (slots : Tab SlotE := []) : State :=
  scheduled { st := .wait } { st := .running, period := 2, last := 9, lag := 10, t0 := 10 } x .running { periods := [{ length := 50 }], abortGroup := 3 }
    now .psync slots

theorem wit_period : ((onSched 200).lrec 4).st.runs = true ∧ ((onSched 200).recX 4).waiting = [] ∧ ((onSched 200).lrec 4).period < 9 ∧
    (onSched 200).nominal 4 3 = 160 ∧ max 160 ((onSched 200 { finish := 165 }).recX 4).finish ≤ (onSched 200 { finish := 165 }).now ∧
    max 160 ((onSched 200 { finish := 165 }).recX 4).finish ≤ 160 + ((onSched 200).lrec 4).lag ∧
    ((onSched 200).tile 0 0).mem.wait = .psync ∧ ((onSched 200).tile 0 0).mule.st = .wait := by decide +kernel

/-- A SCHED_ABORT of the group for schedule 0 from T0 = 10. -/
def schedAbort : Packet :=
  (hubUp).packet { cls := 2, kind := 0x46, ctx := 77, route := route1 52 } (leBytes 8 0 ++ leBytes 8 10 ++ leBytes 8 2 ++ leBytes 4 31 ++ leBytes 2 (Err.schedLate).code ++ [1, 2])

theorem wit_abort : (onSched 171 { waiting := [(0, 0)] }).nominal 4 3 + 10 < (onSched 171 { waiting := [(0, 0)] }).now ∧
    ((onSched 171 { waiting := [(0, 0)] }).recX 4).waiting ≠ [] ∧ ((onSched 171).tile 0 0).mule.st.active = true ∧
    ((onSched 171 { abortDue := true }).recX 4).abortDue = true ∧ (onSched 171).hub.up = true ∧ schedAbort.hdr.kind = 0x46 ∧
    crc32 schedAbort.payload = schedAbort.crc ∧
    List.find? (fun e => decide (e.2.st ≠ .free) && (Tab.get {} (onSched 171).sq.scheds e.2.ctx).groupCtx == schedAbort.hdr.ctx &&
      e.2.schedId == fld schedAbort.payload 0 8 && e.2.t0 == fld schedAbort.payload 8 8) (onSched 171).sq.recs =
        some (4, (onSched 171).lrec 4) ∧
    ((scheduled {} { st := .aborted, t0 := 10 }).lrec 4).st = .aborted ∧ (scheduled {} { st := .aborted, t0 := 10 }).lrRuns 5 = false := by
  decide +kernel

/-- Slot 3 takes eight bytes into the operand store at 0x200, in its window from 5 to 40 ns, and is consumed at 45. -/
def aSlot (e : SlotE := {}) : SlotE :=
  { e with kind := 1, tile := 0, os := true, length := 8, base := 0x200, wOpen := 5, wClose := 40, consume := 45, step := 1, slot := 3, ctx := 5, next := 2 }

/-- Bytes for slot 3 from OFFSET `off`, of period `p`. -/
def slotData (off p : Nat) : Packet :=
  (hubUp).packet { cls := 0, kind := 0x10, ctx := 77, period := p, route := route1 36 } (leBytes 4 3 ++ leBytes 4 off ++ leBytes 8 0 ++ [1, 2, 3, 4])

theorem wit_slot_data : (slotData 0 2).hdr.kind = 0x10 ∧ (onSched 120 {} [(6, aSlot)]).dieIn 0 = true ∧ (slotData 0 2).poison = false ∧
    crc32 (slotData 0 2).payload = (slotData 0 2).crc ∧ (onSched 120 {} [(6, aSlot)]).groupRec (slotData 0 2).hdr.ctx = some 4 ∧
    ((onSched 120 {} [(6, aSlot)]).cd 0).slots.find 5 3 = some (6, aSlot) ∧
    (onSched 120 {} [(6, aSlot)]).slotFault 4 aSlot 2 120 0 4 = none ∧
    (onSched 120 {} [(6, aSlot { received := 4 })]).slotFault 4 (aSlot { received := 4 }) 2 160 4 4 = none ∧
    (onSched 120 {} [(6, aSlot)]).slotFault 4 aSlot 3 120 0 4 = some (.schedEarly, 0) ∧
    (onSched 120 {} [(6, aSlot)]).slotFault 4 aSlot 1 120 0 4 = some (.schedLate, 0) ∧
    (onSched 120 {} [(6, aSlot)]).slotFault 4 aSlot 2 114 0 4 = some (.schedEarly, -1) ∧
    (onSched 120 {} [(6, aSlot)]).slotFault 4 aSlot 2 161 0 4 = some (.schedLate, 1) ∧
    (onSched 120 {} [(6, aSlot)]).slotFault 4 aSlot 2 120 8 4 = some (.seq, 0) := by decide +kernel

theorem wit_slot_consume : (List.find? (fun r => r.2.ctx == (aSlot).ctx && (onSched 160 {} [(6, aSlot)]).recHears r.1)
      (onSched 160 {} [(6, aSlot)]).sq.recs).map (·.1) = some 4 ∧
    (onSched 160 { actual := 110 } [(6, aSlot)]).startOf 4 (aSlot).next = some 110 ∧ 110 + (aSlot).consume ≤ (onSched 160 {} [(6, aSlot)]).now ∧
    (aSlot { armed := true, filled := true }).armed = true ∧ (aSlot).armed = false := by decide +kernel

/-- The launch's schedule starts the fetch of collective 9 in period 2. -/
def fetching (b : Tab Binding) : State :=
  let s := onSched 160 { actual := 110 }
  { s with sq := { s.sq with scheds := [(5, { groupCtx := 77, periods := [{ length := 50 }], colls := [{ collId := 9, offset := 20, period := 2 }] })] },
           ox := { binds := b } }

theorem wit_coll_start : ((fetching []).schedOf 4).colls[0]? = some { collId := 9, offset := 20, period := 2 } ∧
    (fetching []).startOf 4 2 = some 110 ∧ 110 + 20 ≤ (fetching []).now ∧ (fetching []).collHeld 9 = none ∧
    (fetching [(3, { st := .open, collId := 9, ctx := 5, sched := true })]).collHeld 9 = some 3 := by decide +kernel

/-- A schedule image of one period of 50 ns and one slot, with its digest. -/
def schedImage : List Byte :=
  let body := leBytes 4 50 ++ leBytes 4 0 ++ [1, 0, 1, 0] ++ leBytes 4 8 ++ leBytes 8 0x200 ++ leBytes 4 5 ++ leBytes 4 30 ++ leBytes 4 45 ++
    leBytes 2 1 ++ leBytes 10 0
  padTo 0x40 (leBytes 4 0x53434844 ++ leBytes 2 1 ++ leBytes 2 0 ++ leBytes 8 6 ++ leBytes 8 4 ++ leBytes 4 1 ++ leBytes 4 10 ++ leBytes 2 3 ++
    leBytes 2 77 ++ leBytes 4 1 ++ leBytes 4 1) ++ sha256 body ++ body

/-- Context 5 has a program for schedule 6; the image lies at 0x1000. -/
def loadable : State :=
  { cds := [(0, { tr := { slots := [(0, { bound := true, ctx := 5 })],
                          tlb := [(0, [{ va := 0, size := 65536, pa := 0, write := true, pinned := true }])] } })],
    ctx := { tab := [(5, { st := .loaded, mask := 1, schedId := 6 })], x := [(5, { prog := some aProg })] },
    hbm := Mem.writeN [] 0x1000 schedImage, svc := { hdIn := true, cdIn := 1 } }

theorem wit_sched_load : Owner loadable five 0x0801 5 ∧ loadable.readImage (lowestDie (loadable.cx 5).mask) 5 0x1000 schedImage.length =
      (.ok, schedImage) ∧ firstErr (loadable.schedChecks 5 .ok { bytes := schedImage }) = none ∧
    firstErr (loadable.schedChecks 5 .ok { bytes := [] }) = some .checksum :=
  ⟨isOwner (by decide +kernel), by decide +kernel, by decide +kernel, by decide +kernel⟩

theorem wit_sched_commands : Owner (scheduled {} {} {} .loaded) five 0x0802 5 ∧ Tab.has (scheduled {} {} {} .loaded).sq.scheds 5 = true ∧
    ((scheduled {} {} {} .loaded).cx 5).st.live = false ∧ (onSched 120).portAdmits five 0x0803 = true ∧
    (onSched 120).owns five ((onSched 120).lrec 4).ctx = true ∧ (onSched 120).liveRec? 5 = some 4 ∧ Owner (onSched 120) five 0x0804 5 ∧
    Owner (onSched 120) five 0x0805 5 ∧ ((onSched 120).lrec 4).period < 7 ∧ 7 < ((onSched 120).lrec 4).last :=
  ⟨isOwner (by decide +kernel), by decide +kernel, by decide +kernel, by decide +kernel, by decide +kernel, by decide +kernel,
    isOwner (by decide +kernel), isOwner (by decide +kernel), by decide +kernel, by decide +kernel⟩

/-! Ethernet ports, transport, transfers. -/

/-- Port 0 as given, beside a host die in service; controller 0 enrolled with ADMIN on sub-port 0, its session and transfers as given. -/
def ported (e : Eth) (x : Xs := {}) (xfers : Tab Xfer := []) (aon : Nat := 0) : State :=
  { eths := [(0, { e with mac := 0x020000000001, addrs := [(0, { vid := 5, ip4 := 0x0A000001, ip4En := true })] })],
    xp := { sess := [(0, x)], xfers := xfers }, mbx := { enrol := [(0, { st := 1, admin := true, primary := 0, backup := 0xFF })] },
    svc := { hdIn := true, cdIn := 1 }, aonNs := aon }

/-- An ARP request for 10.0.0.1. -/
def arpBytes : List Byte :=
  padTo 60 (beBytes 6 (2 ^ 48 - 1) ++ beBytes 6 0x020000000099 ++ beBytes 2 0x0806 ++ beBytes 8 0x0001080006040001 ++ beBytes 6 0x020000000099 ++
    beBytes 4 0x0A000002 ++ beBytes 6 0 ++ beBytes 4 0x0A000001)

theorem wit_eth_frames : (ported {}).subIn 0 0 = true ∧ ({ bytes := arpBytes, fcsOk := false } : EthFrame).fcsOk = false ∧
    ({ bytes := [] } : EthFrame).bytes.length < 60 ∧ ((ported {}).eth 0).cause 0 { bytes := List.replicate 60 0 } = some 3 ∧
    ((ported {}).eth 0).cause 0 { bytes := arpBytes } = none ∧ isArp (((ported {}).eth 0).addr 0) (ethParse arpBytes) = true ∧
    (((ported {}).eth 0).sub 0).arpCount < 1000 ∧ (ethParse arpBytes).type = 0x0806 := by decide +kernel

/-- Sub-port 0 has link; queue 2 as given. -/
def sending (u : EgQ) (x : Xs := {}) : State := ported { subs := [(0, { up := true })], queues := [(2, u)] } x

theorem wit_eth_queues : (((sending {}).eth 0).queue 0 2).pauseEnd ≤ (sending {}).now ∧
    Tab.find? (((ported { subs := [(0, { xoff := [(3, 0)], occ := [(3, 600000)] })] }).eth 0).sub 0).xoff 3 = some 0 ∧
    ((ported {}).eth 0).xon * 1024 < 600000 ∧ 600000 - 100000 ≤ ((ported {}).eth 0).xon * 1024 ∧
    (((sending { fifo := [{ raw := [8, 6] }] }).eth 0).sub 0).up = true ∧
    (∀ m : Fin 8, (((sending { fifo := [{ raw := [8, 6] }] }).eth 0).queue 0 m).eligible 0 = decide (m = 2)) ∧
    (∀ m : Fin 8, (((sending { fifo := [{ ctrl := some 0 }] }).eth 0).queue 0 m).eligible 0 = decide (m = 2)) ∧
    (((sending { wheel := some 0, fifo := [{}] }).eth 0).queue 0 2).wheel = some 0 ∧
    (0 : Nat) < 16 ∧ (((sending { wheel := some 16, fifo := [{}] }).eth 0).queue 0 2).wheel = some 16 := by decide +kernel

/-- A segment of controller c with its MAC under `key`. -/
def segOf (key : List Byte) (type psn ack : Nat) (payload : List Byte := []) (xfer offset : Nat := 0) (c : Nat := 0) : RxSegment :=
  let b := leBytes 2 0x484E ++ [1, BitVec.ofNat 8 type, BitVec.ofNat 8 c, 0] ++ leBytes 2 payload.length ++ leBytes 4 psn ++ leBytes 4 ack ++
    leBytes 2 xfer ++ leBytes 2 0 ++ leBytes 8 offset ++ leBytes 4 0 ++ payload
  { seg := b ++ (hmac key b).take 16, wire := 120, pcp := 6, mac := 9, ip := [10, 0, 0, 2], port := 7 }

/-- A session UP under the key, PSN 4 next to come. -/
def aKey : List Byte := List.replicate 32 7
def aSess (unacked : List TxSeg := []) (naked : Option Nat := none) : Xs :=
  { st := 1, key := aKey, expPsn := 4, ackPsn := 8, nextPsn := 9 + unacked.length, unacked := unacked, naked := naked, pcp := 6 }

theorem wit_segments : segBad ((ported {}).eth 0).jumbo (segOf aKey 3 0 0).seg = false ∧ segBad ((ported {}).eth 0).jumbo [1] = true ∧
    fld (segOf aKey 3 0 0 [] 0 0 9).seg 4 1 = 9 ∧ fld (segOf aKey 3 0 0).seg 3 1 = 3 ∧
    (((ported {} (aSess)).rxFront 0 0 (segOf aKey 3 0 8) 3).toOption.map (·.1)) = some 0 ∧
    (((ported {} (aSess)).rxFront 0 0 (segOf aKey 1 4 8 (leBytes 8 0)) 1).toOption.map (·.1)) = some 0 ∧
    (((ported {} (aSess)).rxFront 0 0 (segOf aKey 2 4 8 [1, 2, 3, 4]) 2).toOption.map (·.1)) = some 0 ∧
    (((ported {} (aSess)).rxFront 0 0 (segOf aKey 4 0 9) 4).toOption.map (·.1)) = some 0 := by decide +kernel

theorem wit_segment_macs : macOk ((ported {} (aSess)).sess 0).key (segOf aKey 3 0 8).seg = true ∧
    macOk ((ported {} { st := 1 }).sess 0).key (segOf aKey 3 0 8).seg = false := by decide +kernel

theorem wit_segment_psn : (fld (segOf aKey 1 4 8 (leBytes 8 0)).seg 8 4 + 2 ^ 32 - (aSess).expPsn) % 2 ^ 32 = 0 ∧
    (fld (segOf aKey 1 6 8).seg 8 4 + 2 ^ 32 - (aSess).expPsn) % 2 ^ 32 = 2 ∧ (aSess).naked ≠ some 4 ∧ (aSess [] (some 4)).naked = some 4 ∧
    2 ^ 31 ≤ (fld (segOf aKey 1 3 8).seg 8 4 + 2 ^ 32 - (aSess).expPsn) % 2 ^ 32 ∧
    fld (((segOf aKey 1 4 8 (leBytes 8 0)).seg.drop 32).take 8) 6 2 ≠ 0x0C01 ∧ Tab.find? (ported {} (aSess)).xp.pend 0 = none ∧
    0 < (fld (segOf aKey 3 0 9).seg 12 4 + 2 ^ 32 - (aSess [{}, {}]).ackPsn) % 2 ^ 32 ∧
    (fld (segOf aKey 3 0 9).seg 12 4 + 2 ^ 32 - (aSess [{}, {}]).ackPsn) % 2 ^ 32 ≤ (aSess [{}, {}]).unacked.length := by decide +kernel

/-- A transfer of context 5 to or from 0x400 of compute die 0, with a pool to stage it in. -/
def moving (get : Bool) (x : Xs := aSess) (length : Nat := 4) : State :=
  { (ported {} x [(3, { st := 1, get := get, ctx := 5, va := 0x400, length := length })] 9000) with
    cds := [(0, { tr := { slots := [(0, { bound := true, ctx := 5 })],
                          tlb := [(0, [{ va := 0, size := 65536, pa := 0, write := true, pinned := true }])] },
                  bp := { configured := true, pools := [(2, { count := 4, applied := 4 })], quota := [(2, { max := 2 })] } })],
    hbm := [(0x400, 5)] }

theorem wit_put : (aSess).st = 1 ∧ ((moving false).xfer 3).st = 1 ∧ ((moving false).xfer 3).get = false ∧
    fld (segOf aKey 2 4 8 [1, 2, 3, 4] 3 8).seg 20 8 ≠ ((moving false).xfer 3).done ∧
    fld (segOf aKey 2 4 8 [1, 2, 3, 4] 3 0).seg 20 8 = ((moving false).xfer 3).done ∧ (moving false).dieIn 0 = true ∧
    ((moving false).bpAlloc 0 0 2).2.toOption.isSome = true := by decide +kernel

theorem wit_get : ((moving true).sess 0).unacked.length < 1024 ∧ ((moving true).xfer 3).get = true ∧
    (moving true).vaRead 0 ((moving true).collSlot 0 5) 0x400 4 = (moving true, .more, [5, 0, 0, 0]) ∧
    (ported {} (aSess) [(3, { st := 2, doneDue := true })]).xfer 3 = { st := 2, doneDue := true } := by decide +kernel

theorem wit_timers : (0 : Nat) < ({ aSess with toAck := 2 } : Xs).toAck ∧ ({ aSess with toAck := 2 } : Xs).ackFrom + 8000 ≤ 9000 ∧
    (aSess [{}]).lastAdv + (ported {}).xp.rto * 1000 ≤ 100000 ∧ (aSess [{}]).timeouts < 31 ∧ 31 ≤ ({ aSess [{}] with timeouts := 31 } : Xs).timeouts := by
  decide +kernel

/-- Four address entries with IPv4 on. -/
def fourAddrs : List Byte := (List.range 4).flatMap fun i => padTo 64 (leBytes 2 i ++ leBytes 4 (0x0A000001 + i) ++ leBytes 16 0 ++ leBytes 2 47630 ++ [1])

theorem wit_port_set : (ported {}).modeBusy 1 2 = false ∧ (∀ i, i < 4 → let b := (fourAddrs.drop (64 * i)).take 64
      fld b 0 2 < 2 ^ 15 ∧ fld b 24 1 < 4 ∧ zeroAt b 25 39 = true ∧ (i < subCount 2 → fld b 24 1 ≠ 0)) ∧
    (moving true).modeBusy 0 2 = true := by decide +kernel

theorem wit_host_admin (cmd : Nat) : Admin (ported {}) {} cmd := isAdmin ⟨by rfl, by decide +kernel⟩

/-- Context 5's die, ready for transfers. -/
def openable : State := { (moving true) with xp := {}, ctx := { tab := [(5, { st := .loaded })] } }

theorem wit_xfer : Owner openable five 0x0903 5 ∧ openable.dieIn 0 = true ∧ (openable.cd 0).tr.slotOf 5 ≠ none ∧ openable.freeXfer 0 = some 0 ∧
    openable.portAdmits five 0x0904 = true ∧ (3 : Nat) / 32 = five.ctrl.val ∧ ((moving true).xfer 3).st = 1 :=
  ⟨isOwner (by decide +kernel), by decide +kernel, by decide +kernel, by decide +kernel, by decide +kernel, by decide +kernel, by decide +kernel⟩

theorem wit_rates : (0 : Nat) < subCount ((ported {}).eth 1).mode ∧ (100000 : Nat) ≤ 1600000 / (ported {}).hub.shareD := by decide +kernel

/-! Mailboxes, contexts, programs, debug. -/

/-- A host die in service with controller 0 enrolled, its session and mailbox 1 as given. -/
def mailed (x : Xs := aSess) (b : MboxU := {}) (ctxs : Tab Ctx := []) : State :=
  { xp := { sess := [(0, x)] }, mbx := { enrol := [(0, { st := 1, admin := true, oob := true })], boxes := [(1, b)] },
    svc := { hdIn := true, cdIn := 1 }, ctx := { tab := ctxs } }

/-- A command frame for mailbox 1 of controller 0, its trailer under `key`. -/
def frameOf (key : List Byte) (cmd seq ctx : Nat) (args : List Byte) : List Byte :=
  let b := leBytes 2 0x5A4E ++ [1, 0, 1, 0] ++ leBytes 2 cmd ++ leBytes 4 seq ++ leBytes 2 args.length ++ leBytes 2 0 ++ leBytes 2 ctx ++
    leBytes 14 0 ++ args
  b ++ hmac key b

theorem wit_frames : let seg := frameOf aKey 0x0303 7 5 (leBytes 2 5)
    seg.length = fld seg 12 2 + 64 ∧ fld seg 12 2 ≤ 4096 ∧ fld seg 0 2 = 0x5A4E ∧ fld seg 2 1 = 1 ∧ fld seg 5 1 = 0 ∧ fld seg 3 1 = 0 ∧
      fld seg 4 1 = 1 ∧ fld seg 6 2 ≠ 0x0C01 ∧ Tab.find? (mailed).xp.pend 0 = none ∧ cmdDefined 0x0303 = true := by decide +kernel

theorem wit_frame_keys : hmac aKey ((frameOf aKey 0x0303 7 5 (leBytes 2 5)).take 34) = (frameOf aKey 0x0303 7 5 (leBytes 2 5)).drop 34 ∧
    hmac [1] ((frameOf aKey 0x0303 7 5 (leBytes 2 5)).take 34) ≠ (frameOf aKey 0x0303 7 5 (leBytes 2 5)).drop 34 := by decide +kernel

theorem wit_frame_checks : ((mailed aSess { e := 7 } [(5, { st := .open_ })]).box 0 1).frames.length < 4 ∧
    (mailed).portAdmits { mbox := 1, seq := 7, context := 5 } 0x0303 = true ∧ cmdAdmin 0x0303 = false ∧
    (mailed aSess {} [(5, { st := .open_ })]).owns { mbox := 1 } 5 = true ∧ (mailed aSess {} [(5, { st := .open_, owner := 3 })]).owns { mbox := 1 } 5 = false ∧
    cmdOwner 0x0303 = true ∧ (∀ x, cmdCtx 0x0303 (leBytes 2 5) = some x → x = 5) ∧ 4 ≤ (List.replicate 4 ({} : CmdFrame)).length ∧
    (0 : Nat) < (7 + 2 ^ 32 - 8) % 2 ^ 32 ∧ 2 ^ 32 - 4 ≤ (7 + 2 ^ 32 - 8) % 2 ^ 32 ∧
    List.find? (fun r => r.seq == 7) ({ replies := [{ seq := 7 }] } : MboxU).replies = some { seq := 7 } ∧
    (7 + 2 ^ 32 - 12) % 2 ^ 32 < 2 ^ 32 - 4 := by
  refine ⟨by decide +kernel, by decide +kernel, by decide +kernel, by decide +kernel, by decide +kernel, by decide +kernel, ?_, by decide +kernel,
    by decide +kernel, by decide +kernel, by decide +kernel, by decide +kernel⟩
  intro x h
  have e : cmdCtx 0x0303 (leBytes 2 5) = some 5 := by decide +kernel
  exact (Option.some.inj (e.symm.trans h)).symm

theorem wit_command_start : ((mailed aSess { frames := [{ command := 0x303 }] }).box 0 1).running = false ∧
    ((mailed aSess { frames := [{ command := 0x303 }] }).mbx.boxes.any
      fun o => o.1 != 8 * 0 + 1 && o.2.frames.any (CmdFrame.behind { command := 0x303 })) = false := by decide +kernel

/-- A device with its identity present, whose controller 0 enrolled the key given. -/
def knowing (x : Xs) : State :=
  { (mailed x) with sec := { pufOk := true }, mbx := { enrol := [(0, { st := 1, oob := true, hash := sha256 (List.replicate 384 9 ++ beBytes 4 65537) })] } }

theorem wit_session : (knowing {}).sec.pufOk = true ∧ beNat (padTo 4 (beBytes 4 65537)) = 65537 ∧ ((knowing {}).enrol 0).st = 1 ∧
    sha256 (padTo 384 (List.replicate 384 9) ++ padTo 4 (beBytes 4 65537)) = ((knowing {}).enrol 0).hash ∧ ((knowing {}).enrol 0).oob = true ∧
    ((knowing {}).sess 0).st ≠ 1 ∧ ((knowing aSess).sess 0).st = 1 ∧
    ({ sec := { claimOpen := true } } : State).claims { oob := true } = true := by decide +kernel

/-- An owner whose key has exponent 1, so that a signature is its own encoded digest. -/
def trivialKey : List Byte := List.replicate 384 0xFF ++ [0, 0, 0, 1]
def owned : State := { (mailed) with sec := { owned := true, ownerKey := trivialKey } }

theorem wit_enrol : owned.sec.owned = true ∧ (owned.enrol 2).count < 4 ∧
    rsaVerify owned.sec.ownerKey (owned.ownerMsg 0x0C03 ([BitVec.ofNat 8 2] ++ padTo 5 [3, 1, 0x04, 2, 3] ++ leBytes 2 0 ++ leBytes 8 4 ++
      padTo 32 [])) (pkcs1Digest (owned.ownerMsg 0x0C03 ([BitVec.ofNat 8 2] ++ padTo 5 [3, 1, 0x04, 2, 3] ++ leBytes 2 0 ++ leBytes 8 4 ++
      padTo 32 []))) = true ∧
    (∀ c, c < 8 → c ≠ 2 → (owned.enrol c).st = 1 → (owned.enrol c).primary ≠ 1) ∧
    rsaVerify owned.sec.ownerKey (owned.ownerMsg 0x0C04 ([BitVec.ofNat 8 2] ++ leBytes 7 0 ++ leBytes 8 4))
      (pkcs1Digest (owned.ownerMsg 0x0C04 ([BitVec.ofNat 8 2] ++ leBytes 7 0 ++ leBytes 8 4))) = true := by decide +kernel

/-- Context 5 of controller 0 in a state given, bound on compute die 0, tile 0 with the Mule and context given. -/
def inCtx (st : CtxSt) (m : Mule := {}) (x : CtxX := {}) (c : Ctx := {}) : State :=
  { cds := [(0, { tiles := [(0, { mule := m, mem := { ctx := some 5 } })],
                  tr := { slots := [(0, { bound := true, ctx := 5 })],
                          tlb := [(0, [{ va := 0, size := 65536, pa := 0, write := true, pinned := true }])] } })],
    ctx := { tab := [(5, { c with st := st, mask := 1 })], x := [(5, x)] }, svc := { hdIn := true, cdIn := 1 },
    mbx := { enrol := [(0, { st := 1, admin := true })] } }

theorem wit_ctx_create : (inCtx .open_).portAdmits {} 0x0301 = true ∧ (3 : Nat) % 4096 ≠ 0 ∧ inHbm 0x2000 4096 = true ∧
    (inCtx .open_).pickCtx 0xFFFF = some 0 ∧ (inCtx .open_).pickCtx 9 = some 9 ∧
    (∀ d ∈ diesOf 1, (inCtx .open_).dieIn d = true ∧ (inCtx .open_).freeSlot d ≠ none) := by decide +kernel

theorem wit_ctx_commands : Owner (inCtx .open_) five 0x0302 5 ∧ ((inCtx .open_).cx 5).st.live = false ∧ Owner (inCtx .done) five 0x0307 5 ∧
    ((inCtx .done).cx 5).st ≠ .open_ ∧ Admin (inCtx .done) five 0x0308 ∧ ((inCtx .done).cx 5).st ≠ .free ∧
    ((inCtx .running { st := .run }).cx 5).scheduled = false ∧ ((inCtx .running { st := .run }).tile 0 0).mule.st.active = true :=
  ⟨isOwner (by decide +kernel), by decide +kernel, isOwner (by decide +kernel), by decide +kernel, isAdmin (by decide +kernel),
    by decide +kernel, by decide +kernel, by decide +kernel⟩

theorem wit_ctx_save : ((inCtx .running { st := .run }).cxx 5).saveReply = none ∧
    ((inCtx .running).ox.binds.any fun b => decide (b.2.ctx = 5 ∧ b.2.st = .running)) = false ∧
    ((inCtx .stopping { st := .saved } { saveReply := some five }).cxx 5).saveReply = some five ∧
    (inCtx .stopping { st := .saved } { saveReply := some five }).ctxOut 5 = false := by decide +kernel

/-- A copy of context 5 on compute die 0 is parked at fault 3. -/
def faulted : State :=
  let s := inCtx .running
  s.modCd 0 fun c => { c with tr := { c.tr with faults := [{ id := 3, ctx := 5, who := { no := 1 } }], pfHead := 1 },
                              dma := { engines := [(1, { st := 2, cur := { ctx := 5 } })] } }

theorem wit_pf_resolve : ((faulted.cd 0).tr.record? 3).map (fun f => (f.ctx, f.all)) = some (5, [{ no := 1 }]) ∧ faulted.dieIn 0 = true ∧
    (Tab.get {} (faulted.cd 0).dma.engines 1 : DmaEng).st = 2 ∧ (faulted.cd 0).tr.overflow = [] ∧ (faulted.cx 5).owner = 0 := by decide +kernel

theorem wit_mem_commands : Owner (inCtx .open_) five 0x0402 5 ∧ (1 : Nat) &&& ((inCtx .open_).cx 5).mask = 1 ∧
    (∀ d ∈ diesOf 1, (inCtx .open_).dieIn d = true) ∧ ((inCtx .open_).cd 0).tr.slotOf 5 = some 0 ∧ (∀ d ∈ diesOf 1, (inCtx .open_).slotBusy d 5 = false) ∧
    (exportOf (padTo 16 (leBytes 8 0x200000 ++ leBytes 4 2 ++ [3, 1]))).base + (exportOf (padTo 16 (leBytes 8 0x200000 ++ leBytes 4 2 ++ [3, 1]))).len2m * 2 ^ 21 ≤ 0x1800000000 ∧
    (((inCtx .open_).cd 0).bp.config 3 [0, 0, 0, 0, 0, 5] []).apply.toOption.isSome = true :=
  ⟨isOwner (by decide +kernel), by decide +kernel, by decide +kernel, by decide +kernel, by decide +kernel, by decide +kernel, by decide +kernel⟩

/-- A program image for one tile: eight bytes of code at 0x100, four of data at 0x140. -/
def progImage (flags : Nat := 0) : List Byte :=
  let body := padTo 0xB0 (leBytes 4 0x100 ++ leBytes 4 8 ++ leBytes 4 0x140 ++ leBytes 4 4 ++ leBytes 4 4) ++ [0x13, 0, 0, 0, 0x13, 0, 0, 0] ++
    leBytes 56 0 ++ [1, 2, 3, 4]
  padTo 0x30 (leBytes 4 0x4B50524F ++ leBytes 2 3 ++ leBytes 2 flags ++ [1, 120, 0, 0] ++ leBytes 8 4 ++ leBytes 4 0 ++ leBytes 8 0x77 ++ leBytes 8 6) ++
    sha256 body ++ body

def imaged (st : CtxSt) : State := { (inCtx st) with hbm := Mem.writeN [] 0x1000 (progImage) }

theorem wit_prog_load : Owner (imaged .open_) five 0x0501 5 ∧
    (imaged .open_).readImage (lowestDie 1) 5 0x1000 (progImage).length = (.ok, progImage) ∧ (imaged .open_).health.quarantined = false ∧
    firstErr ((imaged .open_).maskChecks 5 1) = none ∧ firstErr ((imaged .open_).progChecks 5 1 { bytes := progImage }) = none ∧
    Admin (imaged .open_) five 0x0503 :=
  ⟨isOwner (by decide +kernel), by decide +kernel, by decide +kernel, by decide +kernel, by decide +kernel, isAdmin (by decide +kernel)⟩

/-- Context 5 is loaded and may be launched, with or without a schedule. -/
def ready (sched : Bool) : State :=
  { (inCtx .loaded {} { prog := some aProg } { scheduled := sched }) with
    ft := { now := 50, ctlRoot := true }, pwr := { st := .run }, hub := { up := true }, sq := { scheds := [(5, { pcount := 4, id := 6 })] } }

theorem wit_launch_command : Owner (ready false) five 0x0502 5 ∧ firstErr ((ready false).launchChecks 5 0 60 0) = none ∧
    firstErr ((ready false).launchChecks 5 0 50 0) = none ∧ ((ready false).cxx 5).prog = some aProg ∧ bit 0 1 = false ∧ (ready false).now < 60 ∧
    firstErr ((ready true).launchChecks 5 0 200000 1) = none ∧ (ready true).recFor 5 = some 0 ∧ ((ready true).cx 5).scheduled = true :=
  ⟨isOwner (by decide +kernel), by decide +kernel, by decide +kernel, by decide +kernel, by decide +kernel, by decide +kernel,
    by decide +kernel, by decide +kernel, by decide +kernel⟩

/-- A library's signature rests on Config's keys: where one verifies, the load's last clause speaks of it. -/
theorem wit_library (h : libraryErr (padTo 0x400000 []) = .ok) :
    ((!((inCtx .open_).cd 1).tiles.any fun t => t.2.mem.ctx.isSome) = true) ∧ libraryErr (padTo 0x400000 []) = .ok := ⟨by decide +kernel, h⟩

theorem wit_units : (inCtx .running).unitState 0 0 0 = 0 ∧ (inCtx .running).unitQuiet 0 0 0 = true ∧ (inCtx .running).dis = [] ∧
    unitNamed 0 0 = true ∧ ((inCtx .running).modArr 0 0 fun a => { a with passes := [{}] }).unitQuiet 0 0 0 = false ∧
    ((inCtx .running).markUnit 0 0 0 true false).unitState 0 0 0 = 2 ∧ ((inCtx .running).markUnit 0 3 0 true false).unitState 0 3 0 = 2 := by
  decide +kernel

/-- A Mule of a debug context in HALT_BREAK at an ADDI x5, x0, 7 in bank 0. -/
def broken (st : MuleSt := .haltBreak) : State :=
  let s := inCtx .running { st := st, debug := true, logical := some 0 } {} { debug := true }
  s.modTile 0 0 fun t => { t with mem := { t.mem with bank0 := Mem.writeLe [] 0 4 (7 * 2 ^ 20 + 5 * 2 ^ 7 + 0x13) } }

theorem wit_debug : ((broken).cx 5).debug = true ∧ (broken).loadedTile 5 0 0 = some 0 ∧ Owner (broken) five 0x0D01 5 ∧
    ((broken).tile 0 0).mule.st = .haltBreak ∧ ((broken).tile 0 0).mem.wait = .none ∧ ((broken .run).tile 0 0).mule.st = .run ∧
    (fetch ((broken).tile 0 0) ((broken).cd 0).rs.mem).toOption = some (7 * 2 ^ 20 + 0 * 2 ^ 15 + 5 * 2 ^ 7 + 0x13, 4) :=
  ⟨by decide +kernel, by decide +kernel, isOwner (by decide +kernel), by decide +kernel, by decide +kernel, by decide +kernel, by decide +kernel⟩

/-! Readback, health, boot, security, power. -/

theorem wit_readback : firstErr ((inCtx .open_).readChecks 0x40 16) = none ∧ (inCtx .open_).stRange (8 * 2 ^ 36 + 0x50) 8 256 false = false ∧
    (inCtx .open_).wordsErr (stWords (8 * 2 ^ 36 + 0x50) (leBytes 8 7)) = .ok ∧
    ((inCtx .open_).writeWords (stWords (8 * 2 ^ 36 + 0x50) (leBytes 8 7))).toOption.isSome = true ∧
    (inCtx .open_).stRange (0x26 * 2 ^ 36) 8 256 false = false ∧ (inCtx .open_).wordsErr (stWords (0x26 * 2 ^ 36) (leBytes 8 7)) = .denied ∧
    (∀ r ∈ [(0, 8), (0x40, 16)], firstErr ((inCtx .open_).readChecks r.1 r.2) = none) ∧ Admin (inCtx .open_) {} 0x0A02 :=
  ⟨by decide +kernel, by decide +kernel, by decide +kernel, by decide +kernel, by decide +kernel, by decide +kernel, by decide +kernel,
    isAdmin (by decide +kernel)⟩

/-- The binding of `coll` ended. -/
def collDone : State := coll {} { st := .done }

/-- Context 5 is saved: two words at 0x4000 of stack 0. -/
def savedCtx : State :=
  { (inCtx .saved {} { saves := [{ die := 0, ltile := 1, buf := 0x4000, len := 16, store := 0x5000 }] }) with hbm := [(0x4000, 7)] }

theorem wit_readback_tables : collDone.collHeld 9 = some 3 ∧ collDone.svc.hubIn = true ∧ (collDone.bind 3).ctx = 5 ∧
    (collDone.bind 3).st = .done ∧ (∀ l, 0 ≤ l → l < 2 → collDone.lineRead 3 l ≠ none) ∧
    List.find? (fun v : SavedTile => v.die == 0 && v.ltile == 1) (savedCtx.cxx 5).saves ≠ none ∧ (savedCtx.devReadN 0x4008 8).toOption.isSome = true ∧
    (savedCtx.devReadN 0x5000 4096).toOption.isSome = true := by
  refine ⟨by decide +kernel, by decide +kernel, by decide +kernel, by decide +kernel, ?_, by decide +kernel, by decide +kernel, by decide +kernel⟩
  intro l _ h
  have e : collDone.lineState 3 l = 2 := rfl
  simp [State.lineRead, e]

/-- The device with every die in service and the health and log given. -/
def healthy (h : Health := {}) (l : Log := {}) : State :=
  { (mailed) with svc := { hdIn := true, hubIn := true, cdIn := 0xFFFF, ldIn := 0x3F }, health := h, log := l, aonNs := 86400000000005 }

theorem wit_health_events : (healthy).dieIn 24 = true ∧
    ([{ die := 3, temp := 2000 }].find? fun q : MonSample => q.die.val == 3) = some { die := 3, temp := 2000 } ∧
    (healthy).health.dayNo < (healthy).aonNs / (86400 * secNs) ∧ (healthy { qRequest := true }).health.qAt + 3600 * secNs ≤ (healthy).aonNs ∧
    (healthy { token := true, tokenX := 10 }).quarantineDue = true ∧ (healthy { hard := true, band := 3 }).quarantineDue = true ∧
    (healthy { token := true }).health.tokenX ≤ (healthy).now ∧ Tab.get false (healthy { subs := [(16, true)] }).health.subs (5 * 3 + 1) = true ∧
    (healthy).launchOn 3 = false ∧ ((healthy).cd 3).map.phys 1 = 1 ∧ (∀ j, j < 1 → ((healthy).cd 3).map.phys j ≠ 1) := by decide +kernel

/-- Compute die 3 with T4 fit. -/
def spared (t4 : Tile := {}) : State :=
  { (healthy { subs := [(16, true)] }) with cds := [(3, { tiles := [(1, { os := [(9, 1)] }), (4, t4)] })] }

theorem wit_substitution : ((spared).cd 3).spareFit = true ∧
    (({ (spared) with cds := [(3, { map := { ok := 0xF } })] } : State).cd 3).spareFit = false ∧ ((spared).cd 3).carries 1 = true := by
  decide +kernel

/-- A ledger whose first sector is open with nothing after its header, and a record waiting. -/
def ledgered : State := { (healthy) with ledger := { opened := true, seq := 5, pending := [(2, { sev := 4 })] } }

theorem wit_log : (healthy {} { intake := [{ sev := 4 }, {}] }).log.intake = [{ sev := 4 }, {}] ∧ ledgered.ledger.opened = true ∧
    ledgered.ledger.seq % 1008 ≠ 0 ∧ ledgered.flashN (recordAt 5) 64 = List.replicate 64 0xFF := by decide +kernel

theorem wit_health_commands : Admin (healthy) {} 0x0B02 ∧ ((healthy).hubm.gone 7) = false ∧ (healthy).running = false ∧
    ((healthy).cd 0).hbm.migrating = false ∧ (healthy).testBusy 2 1 = false ∧ ((healthy).link 0).enable = true ∧
    (inCtx .open_).health.quarantined = false ∧ (healthy { quarantined := true }).health.hard = false ∧
    ((inCtx .open_).cx 5).goodput = false ∧ ((healthy).tile 2 1).arr.misCount ≤ 0xFFFF ∧ ringAhead 5 4 = false ∧ ringAhead 5 5 = true ∧
    ringAhead 0 0 = true ∧ 4 < ledgered.ledger.seq :=
  ⟨isAdmin (by decide +kernel), by decide +kernel, by decide +kernel, by decide +kernel, by decide +kernel, by decide +kernel, by decide +kernel,
    by decide +kernel, by decide +kernel, by decide +kernel, by decide +kernel, by decide +kernel, by decide +kernel, by decide +kernel⟩

theorem wit_power_on : ({} : State).boot.started = false ∧ ({} : State).boot.romHold = false ∧ ({} : State).pins.fspiReq = true ∧
    ({ boot := { started := true } } : State).anyLaunch = false ∧ ({ boot := { started := true } } : State).boot.started = true := by decide +kernel

theorem wit_die_reset : ((healthy).dieU 3).resetting = false ∧
    (({ (healthy) with dies := [(3, { resetting := true })], pwr := { dark := false } } : State).dieU 3).resetting = true ∧
    ({ (healthy) with pwr := { dark := false } } : State).pwr.dark = false := by decide +kernel

/-- A device in service with its identity present and the commit given in its queue. -/
def committing (k : Commit) : State := { (mailed) with sec := { pufOk := true }, cfg := { seq := 4, queue := [k] } }

theorem wit_commit (k : Commit) : (committing k).cfg.queue = k :: [] ∧ (committing k).sec.pufOk = true ∧
    ({ expected := some 4 } : Commit).expected = some (committing k).cfg.seq ∧ (3 : Nat) ≠ (committing k).cfg.seq ∧
    1800000000000 ≤ (healthy).aonNs := ⟨rfl, rfl, rfl, by show (3 : Nat) ≠ 4; decide, by decide +kernel⟩

/-- Controller 0 has staged a record of NODE. -/
def staging : State := { (mailed) with cfg := { valid0 := true, recs := [{ type := 1, data := [1, 0, 0, 0] }], staged := [(0, [{ type := 2, data := leBytes 16 0 }])] } }

theorem wit_config : recTypes.contains 1 = true ∧ staging.cfg.valid0 = true ∧ setLen 1 = some ([(7 : Byte), 0, 0, 0].length, 1) ∧
    setBad 1 [7, 0, 0, 0] = false ∧ staging.staged 0 ≠ [] ∧
    ((recPut (staging.staged 0) { type := 1, index := 0, data := [7, 0, 0, 0] }).flatMap CfgRec.bytes).length ≤ 65536 := by decide +kernel

theorem wit_owner : let key := padTo 384 (List.replicate 384 0xFF) ++ padTo 4 (beBytes 4 65537)
    let m := leBytes 8 owned.sec.serial ++ key ++ leBytes 8 3 ++ [BitVec.ofNat 8 1]
    owned.portAdmits {} 0x0C06 = true ∧ beNat (padTo 4 (beBytes 4 65537)) = 65537 ∧ owned.sec.ownerCount < 3 ∧
      rsaVerify owned.sec.ownerKey m (pkcs1Digest m) = true := by decide +kernel

/-- The identity is present, and keys 2 and up are not in use. -/
def identified : State := { (mailed) with sec := { pufOk := true, idOk := true, svn := 5, svnMin := 2 }, cfg := { facA := true } }

theorem wit_security : identified.sec.idOk = true ∧ (3 : Nat) % 256 ≠ 0 ∧ 4096 + [(1 : Byte), 2].length ≤ fwSize ∧ identified.boot.activating = false ∧
    (∀ e ∈ ({ dirty := [(0, 4096)] } : Boot).dirty, e.1 + e.2 ≤ 4096 ∨ 4096 + [(1 : Byte), 2].length ≤ e.1) ∧ identified.cfg.facA = true ∧
    identified.sec.svnMin ≤ 5 ∧ 5 ≤ identified.sec.svn ∧ bit 2 identified.boot.keyIndex = false ∧ identified.anyLaunch = false ∧
    identified.dir.preferred ≠ 1 - identified.boot.fwSlot := by decide +kernel

/-- A bundle verifies only under a vendor key, which Config leaves open: where one verifies, the clause of FW_ACTIVATE speaks of it. -/
theorem wit_bundle (h : identified.bundleErr (1 - identified.boot.fwSlot) = .ok) : identified.bundleErr (1 - identified.boot.fwSlot) = .ok ∧
    Admin identified {} 0x0C0C := ⟨h, isAdmin (by decide +kernel)⟩

/-- The device in service with its dies powered, the power unit and boot state given. -/
def powered (p : Pwr := { dark := false }) (b : Boot := {}) : State :=
  { (healthy) with pwr := p, boot := b, pins := { modEn := true }, ft := { st := .locked, now := 9 } }

theorem wit_power_events : (powered).pwr.refLost = false ∧ (powered).pwr.dark = false ∧ (powered).ft.st = .locked ∧ (powered).ft.ctlRoot = false ∧
    powerFault 47999 0 ≠ 0 ∧ powerFault 61001 0 ≠ 0 ∧ powerFault 48000 10501 ≠ 0 ∧ powerFault 48000 10500 = 0 ∧ powerFault 61000 0 = 0 ∧
    (powered).dieIn 5 = true ∧ (powered { moving := some (.mgmt, some {}) }).pwr.moving = some (.mgmt, some {}) ∧
    (powered { answered := [2, 4] }).pwr.answered.Nodup ∧
    ([({ stage := 4, words := some [1, 2, 3] } : PmbAnswer)].find? fun q : PmbAnswer => q.stage.val == 4).bind (·.words) = some [1, 2, 3] ∧
    (powered {} { held := true }).boot.held = true ∧ 1000000 ≤ (powered).aonNs ∧
    ({ (powered) with pins := { smbAlert := true } } : State).pins.smbAlert = true := by decide +kernel

theorem wit_power_commands : (powered).anyLaunch = false ∧ (powered).pins.modEn = true ∧ (powered).pwr.moving = none ∧
    sleepUnitOf 3 0 2 = some (.tile 3 2) ∧ sleepSupports (.tile 3 2) .retained = true ∧ (powered).unitWorks (.tile 3 2) = false ∧
    sleepUnitOf 16 2 5 = some (.ox 5) ∧ sleepSupports (.ox 5) .pllOff = true ∧ (powered).unitWorks (.ox 5) = false ∧
    (powered).launchOn 3 = false ∧ (powered { trip := true, tripAt := 5 }).pwr.tripAt + 60000000000 ≤ (powered).aonNs := by decide +kernel

theorem wit_flash_canonical : let s : State := { (powered) with flash := [(5, 1)], pending := [.refclkReturn] }
    Memory.wf s.flash = true ∧ ∃ t, step s = .next t := ⟨by decide, _, rfl⟩

/-! Well-formedness: a good command of each shape, and one bad field for each check. -/

theorem test_wf_good : ([.hubPacketIngress 0 { hdr := { length := 2 }, payload := [1, 2] } 0, .controlCell 0 { credits := List.replicate 6 1 },
    .flitReceive 0 { slots := List.replicate 10 .empty }, .ctxStatus {} 5, .pmbusPoll [{ words := some [1, 2, 3, 4, 5] }],
    .stateSnap {} 1 [(0, 8)], .monitorSample [{ temp := -32768 }] 0 0] : List Instr).all Instr.wf = true := by decide

theorem test_wf_source : (Instr.ctxStatus { seq := 2 ^ 32 } 5).wf = false ∧ (Instr.ctxStatus { context := 65536 } 5).wf = false ∧
    (Instr.ctxStatus {} 65536).wf = false := by decide

theorem test_wf_packet : (Packet.wf { hdr := { version := 16 } } || Packet.wf { hdr := { net := 2 } } || Packet.wf { hdr := { cls := 4 } } ||
    Packet.wf { hdr := { epoch := 2 } } || Packet.wf { hdr := { hop := 16 } } || Packet.wf { hdr := { route := 2 ^ 96 } } ||
    Packet.wf { hdr := { ctx := 4096 } } || Packet.wf { hdr := { kind := 256 } } || Packet.wf { hdr := { period := 65536 } } ||
    Packet.wf { hdr := { collId := 2 ^ 32 } } || Packet.wf { hdr := { group := 4096 } } || Packet.wf { hdr := { hcrc := 65536 } } ||
    Packet.wf { crc := 2 ^ 32 } || Packet.wf { hdr := { length := 1 } } || Packet.wf { payload := [1], poison := true } ||
    Packet.wf { hdr := { length := 8192 }, payload := [1], poison := true }) = false := by decide

theorem test_wf_cells : (let c : CtlCell := { credits := List.replicate 6 0 }
    CtlCell.wf {} || CtlCell.wf { c with credits := List.replicate 6 65536 } || CtlCell.wf { c with ack := 65536 } ||
    CtlCell.wf { c with echoTx := 2 ^ 32 } || CtlCell.wf { c with echoRx := 2 ^ 32 } || CtlCell.wf { c with swapSeq := 65536 } ||
    CtlCell.wf { c with swapLane := 8 } || CtlCell.wf { c with ccrc := 65536 } || TimeCell.wf { dist := 16 } || TimeCell.wf { rootNode := 2 ^ 32 } ||
    TimeCell.wf { txTime := 2 ^ 64 } || TimeCell.wf { tcrc := 65536 } || FlitSlot.wf (.cell 0 0 true true false []) ||
    FlitSlot.wf (.cell 2 0 true true false (List.replicate 128 0)) || FlitSlot.wf (.cell 0 4 true true false (List.replicate 128 0)) ||
    FlitSlot.wf (.ctl {}) || FlitSlot.wf (.time { dist := 16 }) || Flit.wf {} || Flit.wf { seq := 65536, slots := List.replicate 10 .empty } ||
    Flit.wf { slots := .ctl {} :: List.replicate 9 .empty }) = false := by decide

theorem test_wf_parts : (Training.wf { flight := 2 ^ 32 } || Training.wf { peerNode := 2 ^ 32 } || Miscompare.wf { row := 65536 } ||
    Miscompare.wf { load := 2 ^ 32 } || FarRead.wf { data := List.replicate 4097 0 } || ScrubFind.wf { line := 2 ^ 41 } ||
    ScrubFind.wf { row := 65536 } || RxSegment.wf {} || RxSegment.wf { ip := [1, 2, 3, 4], mac := 2 ^ 48 } ||
    RxSegment.wf { ip := [1, 2, 3, 4], port := 65536 } || MonSample.wf { temp := 32768 } || MonSample.wf { temp := -32769 } ||
    MonSample.wf { vcore := 65536 } || MonSample.wf { power := 65536 } || MonSample.wf { margin := 65536 } || TestMiss.wf { col := 65536 } ||
    TestMiss.wf { row := 65536 } || TestMiss.wf { load := 2 ^ 32 } || PmbAnswer.wf { words := some [1] } ||
    PmbAnswer.wf { words := some [1, 2, 3, 4, 65536] } || BootFinds.wf { levelMs := [1, 2, 3, 4, 5] } ||
    BootFinds.wf { links := [(0, { flight := 2 ^ 32 })] }) = false := by decide +kernel

theorem test_wf_commands : (Instr.wf (.collBind {} [] (List.replicate 128 0) (List.replicate 512 0)) || Instr.wf (.pfcFrame 0 0 256 (List.replicate 8 0)) ||
    Instr.wf (.pfcFrame 0 0 0 []) || Instr.wf (.poolSet {} 0 0 [] []) || Instr.wf (.poolSet {} 0 0 (List.replicate 6 0) []) ||
    Instr.wf (.stateSnap {} 1 []) || Instr.wf (.mailboxFrame 0 false (List.replicate 8193 0)) || Instr.wf (.ledgerNote {} []) ||
    Instr.wf (.registerWrite (2 ^ 64) 0) || Instr.wf (.launch {} 5 256 0 0) || Instr.wf (.monitorSample [] 32768 0)) = false := by decide +kernel

/-- No word of the table spells a command: the table gives its rows no bits. -/
theorem test_no_word : decodeTableWord 32 0x13 = none ∧ State.reset.withFetchWord 32 0x13 = State.reset := by decide +kernel

/-- R76: a Mule at ADDI x5, x0, 7 steps with its command in front of the queue. -/
theorem test_step_front : (match step { (one (muleAt (7 * 2 ^ 20 + 5 * 2 ^ 7 + 0x13))) with pending := [.muleInstruction 0 0, .refclkLoss] } with
    | .next t => decide ((t.tile 0 0).mule.x 5 = 7 ∧ (t.tile 0 0).mule.pc = 4 ∧ t.pending = [.refclkLoss])
    | _ => false) = true := by decide +kernel

/-- R489: with no command waiting one ns passes. -/
theorem test_step_idle : (match step { (powered) with aonNs := 5 } with
    | .next t => decide (t.aonNs = 6 ∧ t.ft.now = 10 ∧ t.cds = (powered).cds)
    | _ => false) = true := by decide +kernel
end Sys2Proof.Tests
end

/-! Reductions (R59, R60): what one contribution does to the long accumulator, and that contributions may arrive in any order. -/

namespace Sys2Proof

/-- Two sums joined: values and counts add, flags are kept. -/
def Sum320.join (s t : Sum320) : Sum320 where
  a := s.a + t.a
  nan := s.nan || t.nan
  pinf := s.pinf || t.pinf
  ninf := s.ninf || t.ninf
  nonnegz := s.nonnegz || t.nonnegz
  count := s.count + t.count

theorem Sum320.join_right_comm (s t u : Sum320) : (s.join t).join u = (s.join u).join t := by
  simp only [Sum320.join, Sum320.mk.injEq]
  exact ⟨Int.add_right_comm .., Bool.or_right_comm .., Bool.or_right_comm .., Bool.or_right_comm .., Bool.or_right_comm ..,
    Nat.add_right_comm ..⟩

/-- An INT32 contribution is joined as the sum it makes alone. -/
theorem Sum320.addInt_eq_join (s : Sum320) (v : Nat) : s.addInt v = s.join (Sum320.addInt {} v) := by
  simp [Sum320.addInt, Sum320.join]

/-- A floating-point contribution is joined as the sum it makes alone. -/
theorem Sum320.addFp_eq_join (s : Sum320) (f : FF) (v : Nat) : s.addFp f v = s.join (Sum320.addFp {} f v) := by
  unfold Sum320.addFp
  cases f.val v with
  | nan => simp [Sum320.join]
  | inf p => cases p <;> simp [Sum320.join]
  | fin p m e => simp [Sum320.join]

theorem Sum320.addFp_fin {f : FF} {v : Nat} {p : Bool} {m : Nat} {e : Int} (h : f.val v = .fin p m e) (s : Sum320) :
    (s.addFp f v).a = s.a + scaled p m e (-149) ∧ (s.addFp f v).nan = s.nan ∧ (s.addFp f v).pinf = s.pinf ∧
      (s.addFp f v).ninf = s.ninf := by
  simp [Sum320.addFp, h]

theorem Sum320.addFp_inf {f : FF} {v : Nat} {p : Bool} (h : f.val v = .inf p) (s : Sum320) :
    (s.addFp f v).a = s.a ∧ (s.addFp f v).nan = s.nan ∧ (s.addFp f v).pinf = (s.pinf || !p) ∧
      (s.addFp f v).ninf = (s.ninf || p) := by
  cases p <;> simp [Sum320.addFp, h]

theorem Sum320.addFp_nan {f : FF} {v : Nat} (h : f.val v = .nan) (s : Sum320) :
    (s.addFp f v).a = s.a ∧ (s.addFp f v).nan = true ∧ (s.addFp f v).pinf = s.pinf ∧ (s.addFp f v).ninf = s.ninf := by
  simp [Sum320.addFp, h]

theorem Sum320.addFp_count (s : Sum320) (f : FF) (v : Nat) : (s.addFp f v).count = s.count + 1 := by
  unfold Sum320.addFp
  cases f.val v with
  | nan => rfl
  | inf p => cases p <;> rfl
  | fin p m e => rfl

/-- The top bit of an (n+1)-bit pattern says whether the pattern reaches its weight. -/
theorem bit_top {v n : Nat} (h : v < 2 ^ (n + 1)) : bit v n = decide (2 ^ n ≤ v) := by
  have hq : v / 2 ^ n < 2 := Nat.div_lt_of_lt_mul (by rwa [← Nat.pow_succ])
  have h1 : v / 2 ^ n = 1 ↔ 2 ^ n ≤ v := by
    have hpos : 0 < v / 2 ^ n ↔ 2 ^ n ≤ v := by simp [Nat.div_pos_iff]
    omega
  simp only [bit, Nat.shiftRight_eq_div_pow, Nat.mod_eq_of_lt hq, h1]

/-- The value of a pattern in a format with infinities and NaNs at its top exponent (R37). -/
theorem FF.val_eq {f : FF} (h : f = .fp32 ∨ f = .bf16 ∨ f = .fp16) (v : Nat) :
    f.val v = if v >>> f.mb % 2 ^ f.eb = 2 ^ f.eb - 1 then
        (if v % 2 ^ f.mb = 0 then .inf (decide (f.sign ≤ v % (2 * f.sign))) else .nan)
      else .fin (decide (f.sign ≤ v % (2 * f.sign)))
        (if v >>> f.mb % 2 ^ f.eb = 0 then v % 2 ^ f.mb else v % 2 ^ f.mb + 2 ^ f.mb)
        ((max (v >>> f.mb % 2 ^ f.eb) 1 : Nat) - (f.bias : Int) - f.mb) := by
  obtain rfl | rfl | rfl := h <;> rfl

end Sys2Proof

namespace Sys2Proof.Machine

theorem oxFF_cases (fmt : Nat) : oxFF fmt = .fp32 ∨ oxFF fmt = .bf16 ∨ oxFF fmt = .fp16 := by
  unfold oxFF
  split
  · exact .inr (.inl rfl)
  · split
    · exact .inr (.inr rfl)
    · exact .inl rfl

/-- The value of a pattern in a format a collective may have (R37, R254): sign, exponent and fraction read off its bits. -/
theorem oxFF_val (fmt : Nat) {v : Nat} (hv : v < 2 ^ ((oxFF fmt).eb + (oxFF fmt).mb + 1)) :
    let f := oxFF fmt
    let neg := bit v (f.eb + f.mb)
    let ex := v / 2 ^ f.mb % 2 ^ f.eb
    let fr := v % 2 ^ f.mb
    f.val v = if ex = 2 ^ f.eb - 1 then (if fr = 0 then .inf neg else .nan)
      else .fin neg (if ex = 0 then fr else fr + 2 ^ f.mb) ((max ex 1 : Nat) - (f.bias : Int) - f.mb) := by
  have hwidth : v < 2 * (oxFF fmt).sign := by rwa [FF.sign, Nat.mul_comm, ← Nat.pow_succ]
  have hneg : decide ((oxFF fmt).sign ≤ v % (2 * (oxFF fmt).sign)) = bit v ((oxFF fmt).eb + (oxFF fmt).mb) := by
    rw [Nat.mod_eq_of_lt hwidth, bit_top hv, FF.sign]
  simp only [FF.val_eq (oxFF_cases fmt), hneg, Nat.shiftRight_eq_div_pow]

/-- In units of 2^-149 a finite value of a collective's format is its significand shifted by its exponent, and by the distance `sh` from
2^-149 to the format's least positive value. -/
theorem scaled_of_finite {bias mb sh : Nat} (hsh : sh + bias + mb = 150) (p : Bool) (ex fr : Nat) :
    scaled p (if ex = 0 then fr else fr + 2 ^ mb) ((max ex 1 : Nat) - (bias : Int) - mb) (-149) =
      let n : Int := ((if ex = 0 then fr else (2 ^ mb + fr) * 2 ^ (ex - 1)) * 2 ^ sh : Nat)
      if p then -n else n := by
  have hexp : ((max ex 1 : Nat) - (bias : Int) - mb - -149).toNat = (ex - 1) + sh := by omega
  rw [scaled, hexp]
  rcases Nat.eq_zero_or_pos ex with rfl | hpos
  · simp
  · simp only [Nat.pos_iff_ne_zero.mp hpos, if_false, Nat.pow_add, Nat.mul_assoc, Nat.add_comm fr]

@[simp] theorem Acc.put_sum (x : Acc) (s : Sum320) : (x.put s).sum = s := rfl
@[simp] theorem Acc.put_put (x : Acc) (s t : Sum320) : (x.put s).put t = x.put t := rfl

theorem Acc.elem_sum_int (x : Acc) (v : Nat) : x.elem 1 1 v = x.put (x.sum.addInt v) := rfl

theorem Acc.elem_sum_float {fmt : Nat} (h : fmt ≠ 1) (x : Acc) (v : Nat) : x.elem 1 fmt v = x.put (x.sum.addFp (oxFF fmt) v) := by
  simp [Acc.elem, h]

/-- What an element of a sum adds, whatever the accumulator holds. -/
def elemSum (fmt v : Nat) : Sum320 := if fmt = 1 then Sum320.addInt {} v else Sum320.addFp {} (oxFF fmt) v

theorem Acc.elem_eq_put_join (x : Acc) (fmt v : Nat) : x.elem 1 fmt v = x.put (x.sum.join (elemSum fmt v)) := by
  by_cases h : fmt = 1
  · subst h
    rw [Acc.elem_sum_int, Sum320.addInt_eq_join, elemSum, if_pos rfl]
  · rw [Acc.elem_sum_float h, Sum320.addFp_eq_join, elemSum, if_neg h]

theorem Acc.elem_right_comm (fmt : Nat) (x : Acc) (v w : Nat) :
    (x.elem 1 fmt v).elem 1 fmt w = (x.elem 1 fmt w).elem 1 fmt v := by
  simp only [Acc.elem_eq_put_join, Acc.put_sum, Acc.put_put]
  rw [Sum320.join_right_comm]

/-- Elements of one format leave the same accumulator in whatever order they arrive (R60). -/
theorem Acc.foldl_elem_perm (fmt : Nat) (x : Acc) {l l' : List Nat} (h : l.Perm l') :
    l.foldl (Acc.elem 1 fmt) x = l'.foldl (Acc.elem 1 fmt) x :=
  h.foldl_eq' (fun v _ w _ y => Acc.elem_right_comm fmt y v w) x

/-- A floating-point element of a sum (R60): a finite one adds its multiple of 2^-149, any other sets its flag; each counts. -/
theorem Acc.elem_float {fmt sh : Nat} (h1 : fmt ≠ 1) (hsh : sh + (oxFF fmt).bias + (oxFF fmt).mb = 150) (x : Acc) {v : Nat}
    (hv : v < 2 ^ ((oxFF fmt).eb + (oxFF fmt).mb + 1)) :
    let f := oxFF fmt
    let neg := bit v (f.eb + f.mb)
    let ex := v / 2 ^ f.mb % 2 ^ f.eb
    let fr := v % 2 ^ f.mb
    let y := x.elem 1 fmt v
    let n : Int := ((if ex = 0 then fr else (2 ^ f.mb + fr) * 2 ^ (ex - 1)) * 2 ^ sh : Nat)
    y.count = x.count + 1 ∧
    (ex ≠ 2 ^ f.eb - 1 → y.a = (if neg then x.a - n else x.a + n) ∧ y.nan = x.nan ∧ y.pinf = x.pinf ∧ y.ninf = x.ninf) ∧
    (ex = 2 ^ f.eb - 1 → y.a = x.a ∧ y.nan = (x.nan || decide (fr ≠ 0)) ∧ y.pinf = (x.pinf || (decide (fr = 0) && !neg)) ∧
      y.ninf = (x.ninf || (decide (fr = 0) && neg))) := by
  intro f neg ex fr y n
  have hval := oxFF_val fmt hv
  have hy : y = x.put (x.sum.addFp f v) := Acc.elem_sum_float h1 x v
  rw [hy]
  refine ⟨x.sum.addFp_count f v, fun hfin => ?_, fun hones => ?_⟩
  · obtain ⟨ha, hflags⟩ := Sum320.addFp_fin (hval.trans (if_neg hfin)) x.sum
    refine ⟨ha.trans ?_, hflags⟩
    rw [scaled_of_finite hsh]
    change x.a + (if neg = true then -n else n) = _
    split
    · exact (Int.sub_eq_add_neg ..).symm
    · rfl
  · have hspecial := hval.trans (if_pos hones)
    by_cases hfr : fr = 0
    · obtain ⟨ha, hnan, hpinf, hninf⟩ := Sum320.addFp_inf (hspecial.trans (if_pos hfr)) x.sum
      simpa [hfr] using ⟨ha, hnan, hpinf, hninf⟩
    · obtain ⟨ha, hnan, hpinf, hninf⟩ := Sum320.addFp_nan (hspecial.trans (if_neg hfr)) x.sum
      simpa [hfr] using ⟨ha, hnan, hpinf, hninf⟩

/-- Settles O28: a contribution's sum does not depend on what the accumulator holds, and sums join in any order. -/
theorem reductionsAreOrderIndependent : Obligations.ReductionsAreOrderIndependent := by
  intro x
  refine ⟨fun v => ⟨rfl, rfl, rfl, rfl, rfl⟩, fun fmt w m sh hmem v hv => ?_, fun fmt l l' => Acc.foldl_elem_perm fmt x⟩
  simp only [List.mem_cons, Prod.mk.injEq, List.not_mem_nil, or_false] at hmem
  obtain ⟨rfl, rfl, rfl, rfl⟩ | ⟨rfl, rfl, rfl, rfl⟩ | ⟨rfl, rfl, rfl, rfl⟩ := hmem
  · exact Acc.elem_float (fmt := 0) (by decide) rfl x hv
  · exact Acc.elem_float (fmt := 2) (by decide) rfl x hv
  · exact Acc.elem_float (fmt := 3) (by decide) rfl x hv

end Sys2Proof.Machine

/-! Faults of ordinary instructions (R74, R76, R534): what halting a Mule leaves of it, and which accesses and words halt it. -/

namespace Sys2Proof.Machine.State

variable {s : State} {d p : Nat}

/-- A fold keeps whatever each of its steps keeps. -/
theorem foldl_keeps {α β γ : Type} (v : α → γ) {f : α → β → α} (h : ∀ a b, v (f a b) = v a) (l : List β) (a : α) :
    v (l.foldl f a) = v a :=
  List.foldlRecOn l f (motive := fun x => v x = v a) rfl fun x hx b _ => (h x b).trans hx

/-- Tiles stand in the compute dies, so what leaves the dies leaves every tile. -/
theorem tile_of_cds {t : State} (h : t.cds = s.cds) (d p : Nat) : t.tile d p = s.tile d p := by
  simp only [tile, cd, h]

@[simp] theorem copyLeaves_cds (q : Nat) : (s.copyLeaves q).cds = s.cds := by
  simp only [copyLeaves]
  split
  · split <;> rfl
  · rfl

@[simp] theorem releaseOx_cds (k : Nat) : (s.releaseOx k).cds = s.cds := by
  simp [releaseOx]

@[simp] theorem collEnd_cds (b : Nat) : (s.collEnd b).cds = s.cds := by
  simp only [collEnd]
  split
  · exact notice_cds ..
  · rfl

@[simp] theorem abortBinding_cds (b : Nat) (code : Err) (origin sev : Nat) (data : List Byte) (contrib : Option Nat) (l : Nat) :
    (s.abortBinding b code origin sev data contrib l).cds = s.cds := by
  have hfold (ks : List Nat) : (ks.foldl (fun s k => s.releaseOx k) s).cds = s.cds :=
    foldl_keeps State.cds (fun _ _ => releaseOx_cds _) ks s
  match hst : (s.bind b).st with
  | .free => simp only [abortBinding, hst]
  | .open | .running | .done =>
    simp only [abortBinding, hst]
    rw [collEnd_cds, raise_cds]
    simp only [modBindX_cds, modBind_cds, hfold]
  | .aborted =>
    simp only [abortBinding, hst]
    split
    · rw [raise_cds, modBindX_cds]
      split <;> exact modBind_cds ..
    · rfl

/-- A change of a tile outside its Mule leaves every Mule. -/
theorem mule_modTile (k q : Nat) {f : Tile → Tile} (h : ∀ t, (f t).mule = t.mule) :
    ((s.modTile k q f).tile d p).mule = (s.tile d p).mule := by
  rw [tile_modTile]
  split
  case isTrue heq => rw [h, heq.1, heq.2]
  case isFalse => rfl

/-- A change of a die outside its tiles leaves every tile. -/
theorem tile_modCd (k : Nat) {f : ComputeDie → ComputeDie} (h : ∀ c, (f c).tiles = c.tiles) : (s.modCd k f).tile d p = s.tile d p := by
  rw [tile, cd_modCd]
  split
  case isTrue heq => rw [h, heq, tile]
  case isFalse => rfl

theorem mule_modArr (k q : Nat) (f : ArrayU → ArrayU) : ((s.modArr k q f).tile d p).mule = (s.tile d p).mule :=
  mule_modTile k q fun _ => rfl

theorem mule_modEe (k q : Nat) (f : EeU → EeU) : ((s.modEe k q f).tile d p).mule = (s.tile d p).mule :=
  mule_modTile k q fun _ => rfl

/-- The marks of UNIT_DISABLE are not in a Mule (R415). -/
theorem mule_markUnit (k kind index : Nat) (off drain : Bool) :
    ((s.markUnit k kind index off drain).tile d p).mule = (s.tile d p).mule := by
  unfold markUnit
  split
  · exact mule_modArr ..
  · exact mule_modEe ..
  · exact congrArg Tile.mule (tile_modCd k fun _ => rfl)
  · exact congrArg Tile.mule (tile_modCd k fun _ => rfl)
  · dsimp only
    split
    · exact mule_modTile k index fun _ => rfl
    · rw [mule_modTile, mule_modEe, mule_modArr]
      exact fun _ => rfl

/-- Disables that complete leave every Mule (R416). -/
theorem mule_settle : (s.settle.tile d p).mule = (s.tile d p).mule := by
  refine foldl_keeps (fun t : State => (t.tile d p).mule) (fun t q => ?_) s.dis s
  split
  · rw [tile_of_cds (reply_cds ..), mule_markUnit]
    rfl
  · rfl

/-- The end of a launch leaves every Mule (R406, R416). -/
theorem mule_launchEnd (x : Nat) : ((s.launchEnd x).tile d p).mule = (s.tile d p).mule := by
  rw [launchEnd, mule_settle]
  refine congrArg Tile.mule (tile_of_cds ?_ d p)
  split <;> split <;> simp

/-- Halting a launch leaves a Mule that is not active (R76). -/
theorem mule_haltLaunch (x : Nat) (code : Err) (h : (s.tile d p).mule.st.active = false) :
    ((s.haltLaunch x code).tile d p).mule = (s.tile d p).mule := by
  simp only [haltLaunch, remapTiles, tile, cd]
  rw [tab_get_remap _ _ _ _ (by rfl), tab_get_remap _ _ _ _ (by rfl)]
  rw [if_neg]
  rintro ⟨-, hact⟩
  exact Bool.false_ne_true (h.symm.trans hact)

/-- The end of a period leaves a Mule that is not active (R364). -/
theorem mule_endPeriod (r : Nat) (code : Err) (die unit slot : Nat) (missed : Int) (node : Option Nat) (sev : Nat)
    (h : (s.tile d p).mule.st.active = false) :
    ((s.endPeriod r code die unit slot missed node sev).tile d p).mule = (s.tile d p).mule := by
  simp only [endPeriod]
  split
  · rw [mule_launchEnd, tile_of_cds (setCtx_cds ..), tile_of_cds (raise_cds ..)]
    rw [foldl_keeps (fun t : State => (t.tile d p).mule)]
    · exact mule_haltLaunch _ _ h
    · intro t e
      split
      · rw [tile_of_cds (abortBinding_cds ..)]
      · rfl
  · split
    · rw [tile_of_cds (raise_cds ..)]
      rfl
    · rfl

/-- A fault halts an active Mule precisely: of its registers only STATE and the fault registers change (R76, R77). -/
theorem mule_muleFault (code : Err) (source unit tag lrc : Nat) (h : (s.tile d p).mule.st.active = true) :
    ((s.muleFault d p code source unit tag lrc).tile d p).mule = (s.tile d p).mule.halt code source unit tag lrc := by
  have hmod : ((s.modMule d p fun m => m.halt code source unit tag lrc).tile d p).mule =
      (s.tile d p).mule.halt code source unit tag lrc := by simp
  have hhalted : ((s.modMule d p fun m => m.halt code source unit tag lrc).tile d p).mule.st.active = false := by
    rw [hmod]
    rfl
  simp only [muleFault, h, if_true]
  split
  · exact hmod
  · split
    · rw [mule_endPeriod _ _ _ _ _ _ _ _ hhalted, hmod]
    · split
      · rw [mule_launchEnd, tile_of_cds (setCtx_cds ..), mule_haltLaunch _ _ hhalted, hmod]
      · rw [tile_of_cds (modCx_cds ..), mule_haltLaunch _ _ hhalted, hmod]

end Sys2Proof.Machine.State

namespace Sys2Proof.Machine

/-- A Mule that is ready carries the instruction out (R92). -/
theorem State.muleStep_of_ready {s : State} {d p : Nat} {tag : Option Nat} (h : Ready s d p tag) (run : Tile → State) :
    s.muleStep d p tag run = .next (run (s.tile d p)) := by
  obtain ⟨hrun, hbreak⟩ := h
  simp [State.muleStep, hrun, hbreak]

/-- A custom-0 word that names no row of R83, a custom-1 word other than CALLR and RETR, and a custom-2 word of funct3 6 (R534). -/
def IllegalCustom (w : Nat) : Prop :=
  (bits w 6 0 = 0x0B ∧ (bits w 31 25, bits w 14 12) ∉ [(0x08, 0), (0x10, 0), (0x11, 0), (0x12, 0), (0x18, 0), (0x20, 0), (0x20, 1),
      (0x28, 0), (0x30, 0), (0x38, 0), (0x38, 1), (0x38, 2)]) ∨
    (bits w 6 0 = 0x2B ∧ bits w 14 12 ≠ 0 ∧ bits w 14 12 ≠ 1) ∨ (bits w 6 0 = 0x5B ∧ bits w 14 12 = 6)

/-- The rows of R83 by funct7 and funct3. -/
theorem mem_rows_of_lrRow {f7 f3 : Nat} (h : lrRow f7 f3 = true) :
    (f7, f3) ∈ [(0x08, 0), (0x10, 0), (0x11, 0), (0x12, 0), (0x18, 0), (0x20, 0), (0x20, 1), (0x28, 0), (0x30, 0), (0x38, 0), (0x38, 1),
      (0x38, 2)] := by
  simp only [lrRow, Bool.or_eq_true, Bool.and_eq_true, beq_iff_eq, List.contains_iff_mem] at h
  obtain (⟨rfl, hf7⟩ | ⟨rfl, rfl⟩) | ⟨rfl, rfl | rfl⟩ := h
  · simpa using hf7
  · decide
  · decide
  · decide

theorem muleEff_of_illegalCustom (x : Nat → Word) (pc : Word) {w : Nat} (h : IllegalCustom w) : muleEff x pc w = .illegal := by
  obtain ⟨hop, hrow⟩ | ⟨hop, h0, h1⟩ | ⟨hop, h6⟩ := h
  · simp only [muleEff, hop]
    rw [if_neg (mt mem_rows_of_lrRow hrow)]
  · simp only [muleEff, hop]
    rw [if_neg (by omega)]
  · simp only [muleEff, hop]
    rw [if_pos h6]

/-- Misalignment comes before every other fault of a load (R76). -/
theorem muleLoad_misaligned (t : Tile) (rs : Mem) {n a : Nat} (sg : Bool) (h : a % n ≠ 0) : muleLoad t rs n sg a = .error .align :=
  if_pos h

theorem muleLoad_outside (t : Tile) (rs : Mem) {n a : Nat} (sg : Bool) (h : a % n = 0) (hwin : winOf a n = none) :
    muleLoad t rs n sg a = .error .range := by
  simp [muleLoad, h, hwin]

/-- Misalignment comes before every other fault of a store (R76). -/
theorem muleStore_misaligned (t : Tile) {n a : Nat} (v : Nat) (h : a % n ≠ 0) : muleStore t n a v = .error .align :=
  if_pos h

theorem muleStore_outside (t : Tile) {n a : Nat} (v : Nat) (h : a % n = 0) (hwin : winOf a n = none) :
    muleStore t n a v = .error .range := by
  simp [muleStore, h, hwin]

/-- The active bank is not written by stores (R74). -/
theorem muleStore_active (t : Tile) {n a o : Nat} (v : Nat) (h : a % n = 0) (hwin : winOf a n = some (.a, o)) :
    muleStore t n a v = .error .imemActive := by
  simp [muleStore, h, hwin]

/-- The routine store is not written by stores (R74). -/
theorem muleStore_routines (t : Tile) {n a o : Nat} (v : Nat) (h : a % n = 0) (hwin : winOf a n = some (.store, o)) :
    muleStore t n a v = .error .denied := by
  simp [muleStore, h, hwin]

section

variable {s : State} {d : CdId} {p : PTile} (hready : Ready s d p none)
include hready

theorem exec_muleInstruction_of_fetch_error {c : Err} (hfetch : fetch (s.tile d p) (s.cd d).rs.mem = .error c) :
    exec (.muleInstruction d p) s = .next (s.muleFault d p c 0) := by
  change execMuleInstruction d p s = _
  simp only [execMuleInstruction, hfetch, State.muleStep_of_ready hready]

variable {w len : Nat} (hfetch : fetch (s.tile d p) (s.cd d).rs.mem = .ok (w, len))
include hfetch

/-- A word that is neither a row of its own nor a CSR instruction is carried out whatever it does (R73). -/
theorem exec_muleInstruction_of_eff {e : Eff} (heff : muleEff (s.tile d p).mule.x (s.tile d p).mule.pc w = e) (hother : e ≠ .other)
    (hcsr : ∀ rd no ws plain, e ≠ .csr rd no ws plain) :
    exec (.muleInstruction d p) s = .next (s.muleDo d p (s.tile d p) len e) := by
  change execMuleInstruction d p s = _
  cases e with
  | other => exact absurd rfl hother
  | csr rd no ws plain => exact absurd rfl (hcsr rd no ws plain)
  | _ => simp only [execMuleInstruction, hfetch, heff, State.muleStep_of_ready hready]

theorem exec_muleInstruction_of_illegal (heff : muleEff (s.tile d p).mule.x (s.tile d p).mule.pc w = .illegal) :
    exec (.muleInstruction d p) s = .next (s.muleFault d p .badcmd 0) :=
  exec_muleInstruction_of_eff hready hfetch heff nofun nofun

theorem exec_muleInstruction_of_load_error {rd n : Nat} {sg : Bool} {a : Word} {c : Err}
    (heff : muleEff (s.tile d p).mule.x (s.tile d p).mule.pc w = .load rd n sg a)
    (hload : muleLoad (s.tile d p) (s.cd d).rs.mem n sg a.toNat = .error c) :
    exec (.muleInstruction d p) s = .next (s.muleFault d p c 0) := by
  rw [exec_muleInstruction_of_eff hready hfetch heff nofun nofun]
  simp only [State.muleDo, hload]

theorem exec_muleInstruction_of_store_error {n : Nat} {a v : Word} {c : Err}
    (heff : muleEff (s.tile d p).mule.x (s.tile d p).mule.pc w = .store n a v)
    (hstore : muleStore (s.tile d p) n a.toNat v.toNat = .error c) :
    exec (.muleInstruction d p) s = .next (s.muleFault d p c 0) := by
  rw [exec_muleInstruction_of_eff hready hfetch heff nofun nofun]
  simp only [State.muleDo, hstore]

end

/-- A fault of a ready Mule halts it with the code and source, and gives no long-running count (R76, R77). -/
theorem muleFault_of_ready {s : State} {d p : Nat} {tag : Option Nat} (h : Ready s d p tag) (code : Err) (source : Nat) :
    let m := ((s.muleFault d p code source).tile d p).mule
    m.st = .haltFault ∧ m.faultCode = code ∧ m.faultSource = source ∧ m.lrCount = (s.tile d p).mule.lrCount := by
  have hactive : (s.tile d p).mule.st.active = true := by rw [h.1]; rfl
  rw [State.mule_muleFault code source _ _ _ hactive]
  exact ⟨rfl, rfl, rfl, rfl⟩

/-- Settles O4: each fault is the error of one step of the instruction (fetch, decode, load, store), and halting changes of the Mule
only STATE and the fault registers. -/
theorem ordinaryInstructionsFault : Obligations.OrdinaryInstructionsFault := by
  intro d p s hready
  refine ⟨fun c => exec_muleInstruction_of_fetch_error hready, fun w len hfetch => ?_⟩
  have loadFault {rd n sg a c} := exec_muleInstruction_of_load_error (rd := rd) (n := n) (sg := sg) (a := a) (c := c) hready hfetch
  have storeFault {n a v c} := exec_muleInstruction_of_store_error (n := n) (a := a) (v := v) (c := c) hready hfetch
  refine ⟨exec_muleInstruction_of_illegal hready hfetch, fun hcustom => ⟨?_, muleFault_of_ready hready .badcmd 0⟩,
    fun rd n sg a he hmis => loadFault he (muleLoad_misaligned _ _ _ hmis),
    fun rd n sg a he hal hwin => loadFault he (muleLoad_outside _ _ _ hal hwin),
    fun n a v he hmis => storeFault he (muleStore_misaligned _ _ hmis),
    fun n a v o he hal hwin => storeFault he (muleStore_active _ _ hal hwin),
    fun n a v o he hal hwin => storeFault he (muleStore_routines _ _ hal hwin),
    fun n a v he hal hwin => storeFault he (muleStore_outside _ _ hal hwin)⟩
  exact exec_muleInstruction_of_illegal hready hfetch (muleEff_of_illegalCustom _ _ hcustom)

end Sys2Proof.Machine

/-! Atomics (R178, R179): little-endian values read and written in memory, and an atomic as one read and one write of its bytes. -/

namespace Sys2Proof

/-- Bytes keep the low part of a value. -/
theorem leNat_leBytes_mod (n x : Nat) : leNat (leBytes n x) = x % 256 ^ n := by
  induction n generalizing x with
  | zero => simp [leBytes, leNat, Nat.mod_one]
  | succ n ih => simp [leBytes, leNat, ih, Nat.pow_succ', Nat.mod_mul]

theorem leNat_lt (bs : List Byte) : leNat bs < 256 ^ bs.length := by
  induction bs with
  | nil => exact Nat.one_pos
  | cons b bs ih =>
    have hb : b.toNat < 256 := b.isLt
    rw [leNat, List.length_cons, Nat.pow_succ]
    omega

theorem mem_readLe_lt (m : Mem) (a n : Nat) : Mem.readLe m a n < 256 ^ n := by
  simpa [Mem.readLe] using leNat_lt (Mem.readN m a n)

theorem mem_readLe_writeLe (m : Mem) (a n x : Nat) : Mem.readLe (Mem.writeLe m a n x) a n = x % 256 ^ n := by
  have hback := mem_readN_writeN m a (leBytes n x)
  rw [leBytes_length] at hback
  rw [Mem.readLe, Mem.writeLe, hback, leNat_leBytes_mod]

theorem mem_read_writeLe_out (m : Mem) (a n x c : Nat) (h : c < a ∨ a + n ≤ c) : Mem.read (Mem.writeLe m a n x) c = Mem.read m c :=
  mem_read_writeN_out m a c _ (by rwa [leBytes_length])

end Sys2Proof

namespace Sys2Proof.Machine

theorem aopWidth_eq {op : Nat} (h : op < 11) : aopWidth op = if op ∈ [0, 2, 3, 4, 5, 6] then 4 else 8 := by
  interval_cases op <;> rfl

/-- Only FADD raises flags (R179). -/
theorem aopApply_flags (ieee : Bool) {op : Nat} (old x : Nat) (h : op ≠ 2) : (aopApply ieee op old x).2 = 0 := by
  unfold aopApply
  split
  case h_3 => exact absurd rfl h
  all_goals rfl

/-- What the target's bytes hold of the new value of each operation (R178): the integer operations already fit the width. -/
theorem aopApply_stored (ieee : Bool) {op old x : Nat} (hop : op < 11) (hold : old < 256 ^ aopWidth op) (hx : x < 2 ^ 128) :
    (aopApply ieee op old x).1 % 256 ^ aopWidth op =
      [(old + x % 2 ^ 32) % 2 ^ 32, (old + x % 2 ^ 64) % 2 ^ 64, (fadd ieee old (x % 2 ^ 32)).1 % 2 ^ 32,
        min old (x % 2 ^ 32), max old (x % 2 ^ 32), fminBits old (x % 2 ^ 32) % 2 ^ 32, fmaxBits old (x % 2 ^ 32) % 2 ^ 32,
        old ||| x % 2 ^ 64, old &&& x % 2 ^ 64, x % 2 ^ 64, if old = x % 2 ^ 64 then x / 2 ^ 64 else old].getD op 0 := by
  have hlow32 : x % 2 ^ 32 < 2 ^ 32 := Nat.mod_lt _ (by decide)
  have hlow64 : x % 2 ^ 64 < 2 ^ 64 := Nat.mod_lt _ (by decide)
  have hhigh : x / 2 ^ 64 < 2 ^ 64 := Nat.div_lt_of_lt_mul hx
  match op, hop, hold with
  | 0, _, _ | 1, _, _ => exact Nat.mod_mod ..
  | 2, _, _ | 5, _, _ | 6, _, _ => rfl
  | 3, _, hold => exact Nat.mod_eq_of_lt (lt_of_le_of_lt (Nat.min_le_left ..) hold)
  | 4, _, hold => exact Nat.mod_eq_of_lt (Nat.max_lt.2 ⟨hold, hlow32⟩)
  | 7, _, hold => exact Nat.mod_eq_of_lt (Nat.or_lt_two_pow hold hlow64)
  | 8, _, _ => exact Nat.mod_eq_of_lt (Nat.and_lt_two_pow _ hlow64)
  | 9, _, _ => exact Nat.mod_eq_of_lt hlow64
  | 10, _, hold =>
    refine Nat.mod_eq_of_lt ?_
    change (if old = x % 2 ^ 64 then x / 2 ^ 64 else old) < 2 ^ 64
    split
    · exact hhigh
    · exact hold

namespace State

variable {s : State} {a : Nat} (hdie : s.dieIn (a / 2 ^ 37) = true) (hclean : Tab.get false s.poison (lineOf a) = false)
include hdie hclean

theorem devRead_of_clean (n : Nat) : s.devRead a n = .ok (Mem.readN s.hbm a n) := by
  simp only [devRead, hdie, hclean, Bool.not_true, Bool.or_self, Bool.false_eq_true, if_false]

theorem devWrite_of_clean (bs : List Byte) :
    s.devWrite a bs = .ok { s with hbm := Mem.writeN s.hbm a bs, poison := Tab.set false s.poison (lineOf a) false } := by
  simp only [devWrite, hdie, hclean, Bool.not_true, Bool.false_and, Bool.false_eq_true, if_false]

/-- On a line that is there and not poisoned an atomic answers the old value and writes the new one over it. -/
theorem devAtomic_of_clean (ieee : Bool) (op x : Nat) :
    let w := aopWidth op
    let old := Mem.readLe s.hbm a w
    let r := aopApply ieee op old x
    s.devAtomic ieee a op x =
      .ok ({ s with hbm := Mem.writeLe s.hbm a w r.1, poison := Tab.set false s.poison (lineOf a) false }, old, r.2) := by
  simp only [devAtomic, devRead_of_clean hdie hclean, devWrite_of_clean hdie hclean, Mem.readLe, Mem.writeLe]

end State

/-- Settles O20: the atomic is one read and one write of the target's bytes, and each operation's new value fits them or is cut to them. -/
theorem atomicsReadModifyWrite : Obligations.AtomicsReadModifyWrite := by
  intro s ieee a op x _ hop hdie hclean hx old lo
  refine ⟨_, _, State.devAtomic_of_clean hdie hclean ieee op x, fun b hb => mem_read_writeLe_out _ _ _ _ _ hb, aopWidth_eq hop,
    aopApply_flags ieee _ _, ?_, ?_⟩
  · rintro rfl
    rfl
  · exact (mem_readLe_writeLe ..).trans (aopApply_stored ieee hop (mem_readLe_lt ..) hx)

end Sys2Proof.Machine

namespace Sys2Proof.Machine

/-! ### Which commands leave the queue of waiting commands and the flash

Two fields are followed together through the model's functions: `pending`, which no command changes (R76, R405), and
`flash`, which only the commands of section 18 that program or erase it change. A lemma `f_kept` says that `f` leaves both,
`execX_still` that the command answers a next state with both as they were. -/

/-- The command answers a next state, with the queue and the flash as they were. -/
def Still (s : State) (o : Out) : Prop := ∃ t, o = .next t ∧ t.pending = s.pending ∧ t.flash = s.flash

@[simp] theorem still_next {s t : State} : Still s (.next t) ↔ t.pending = s.pending ∧ t.flash = s.flash := by
  simp [Still]

theorem still_ite {s : State} {c : Prop} [Decidable c] {a b : Out} (ha : Still s a) (hb : Still s b) : Still s (if c then a else b) := by
  split <;> assumption

@[simp] theorem ite_pending (c : Prop) [Decidable c] (s t : State) : (if c then s else t).pending = if c then s.pending else t.pending :=
  apply_ite ..

@[simp] theorem ite_flash (c : Prop) [Decidable c] (s t : State) : (if c then s else t).flash = if c then s.flash else t.flash :=
  apply_ite ..

@[simp] theorem foldl_kept {α : Type} {s : State} {f : State → α → State} {l : List α}
    (h : ∀ a b, (f a b).pending = a.pending ∧ (f a b).flash = a.flash) :
    (l.foldl f s).pending = s.pending ∧ (l.foldl f s).flash = s.flash :=
  ⟨State.foldl_keeps State.pending (fun a b => (h a b).1) l s, State.foldl_keeps State.flash (fun a b => (h a b).2) l s⟩

/-- A fold over a record that carries the state keeps what each step keeps. -/
theorem foldl_kept_of {β α : Type} (v : β → State) {f : β → α → β} {l : List α} {b : β}
    (h : ∀ r a, (v (f r a)).pending = (v r).pending ∧ (v (f r a)).flash = (v r).flash) :
    (v (l.foldl f b)).pending = (v b).pending ∧ (v (l.foldl f b)).flash = (v b).flash :=
  ⟨State.foldl_keeps (fun r => (v r).pending) (fun r a => (h r a).1) l b,
    State.foldl_keeps (fun r => (v r).flash) (fun r a => (h r a).2) l b⟩

theorem foldl_kept_from {β α : Type} (v : β → State) {s : State} {f : β → α → β} {l : List α} {b : β}
    (hb : (v b).pending = s.pending ∧ (v b).flash = s.flash)
    (h : ∀ r a, (v (f r a)).pending = (v r).pending ∧ (v (f r a)).flash = (v r).flash) :
    (v (l.foldl f b)).pending = s.pending ∧ (v (l.foldl f b)).flash = s.flash :=
  (foldl_kept_of v h).imp (Eq.trans · hb.1) (Eq.trans · hb.2)

theorem ite_kept {β : Type} (v : β → State) {s : State} {c : Prop} [Decidable c] {x y : β}
    (hx : (v x).pending = s.pending ∧ (v x).flash = s.flash) (hy : (v y).pending = s.pending ∧ (v y).flash = s.flash) :
    (v (if c then x else y)).pending = s.pending ∧ (v (if c then x else y)).flash = s.flash := by
  split <;> assumption

/-- The same, with the step's result named, so that the kernel need not evaluate the step. -/
theorem foldl_kept_step {β α : Type} (v : β → State) {f : β → α → β} {l : List α} {b : β}
    (h : ∀ r a y, f r a = y → (v y).pending = (v r).pending ∧ (v y).flash = (v r).flash) :
    (v (l.foldl f b)).pending = (v b).pending ∧ (v (l.foldl f b)).flash = (v b).flash :=
  foldl_kept_of v fun r a => h r a _ rfl

@[simp] theorem foldl_kept_fst {α β : Type} {f : State × β → α → State × β} {l : List α} {b : State × β}
    (h : ∀ r a, (f r a).1.pending = r.1.pending ∧ (f r a).1.flash = r.1.flash) :
    (l.foldl f b).1.pending = b.1.pending ∧ (l.foldl f b).1.flash = b.1.flash :=
  foldl_kept_of Prod.fst h

@[simp] theorem State.command_kept {s : State} (src : Src) (cmd : Nat) (al ag : Bool) (ch : List (Bool × Err)) {run : State → State}
    (h : (run s).pending = s.pending ∧ (run s).flash = s.flash) :
    (s.command src cmd al ag ch run).pending = s.pending ∧ (s.command src cmd al ag ch run).flash = s.flash := by
  unfold State.command
  repeat' split
  all_goals simp [h]

@[simp] theorem State.ownCommand_kept {s : State} (src : Src) (cmd x : Nat) (ch : List (Bool × Err)) {run : State → State}
    (h : (run s).pending = s.pending ∧ (run s).flash = s.flash) :
    (s.ownCommand src cmd x ch run).pending = s.pending ∧ (s.ownCommand src cmd x ch run).flash = s.flash :=
  State.command_kept _ _ _ _ _ h

@[simp] theorem ite_still {s : State} (c : Prop) [Decidable c] (a b : Out) :
    Still s (if c then a else b) ↔ if c then Still s a else Still s b := by
  split <;> rfl

@[simp] theorem State.flightOpen_kept (s : State) (p e n : Nat) :
    (State.flightOpen s p e n).1.pending = s.pending ∧ (State.flightOpen s p e n).1.flash = s.flash := by
  simp [State.flightOpen]

@[simp] theorem State.copyLeaves_kept (s : State) (q : Nat) :
    (State.copyLeaves s q).pending = s.pending ∧ (State.copyLeaves s q).flash = s.flash := by
  simp [State.copyLeaves]

@[simp] theorem State.releaseOx_kept (s : State) (d : Nat) :
    (State.releaseOx s d).pending = s.pending ∧ (State.releaseOx s d).flash = s.flash := by
  simp [State.releaseOx]

@[simp] theorem State.dropQueue_kept (s : State) (q : Nat) :
    (State.dropQueue s q).pending = s.pending ∧ (State.dropQueue s q).flash = s.flash := by
  simp [State.dropQueue]

@[simp] theorem State.outputDown_kept (s : State) (o : Nat) :
    (State.outputDown s o).pending = s.pending ∧ (State.outputDown s o).flash = s.flash := by
  simp [State.outputDown]

@[simp] theorem State.outputUp_kept (s : State) (o : Nat) :
    (State.outputUp s o).pending = s.pending ∧ (State.outputUp s o).flash = s.flash := by
  simp [State.outputUp]

@[simp] theorem State.cdDown_kept (s : State) (n : Nat) (cause : Err) :
    (State.cdDown s n cause).pending = s.pending ∧ (State.cdDown s n cause).flash = s.flash := by
  simp [State.cdDown]

@[simp] theorem State.collEnd_kept (s : State) (b : Nat) :
    (State.collEnd s b).pending = s.pending ∧ (State.collEnd s b).flash = s.flash := by
  simp [State.collEnd]

@[simp] theorem State.abortBinding_kept (s : State) (b : Nat) (code : Err) (origin sev : Nat) (data : List Byte)
    (contrib : Option Nat) (ledger : Nat) :
    (State.abortBinding s b code origin sev data contrib ledger).pending = s.pending ∧
    (State.abortBinding s b code origin sev data contrib ledger).flash = s.flash := by
  unfold State.abortBinding
  dsimp only
  split <;> simp

@[simp] theorem State.haltLaunch_kept (s : State) (x : Nat) (code : Err) :
    (State.haltLaunch s x code).pending = s.pending ∧ (State.haltLaunch s x code).flash = s.flash := by
  simp [State.haltLaunch]

@[simp] theorem State.markUnit_kept (s : State) (d kind index : Nat) (off drain : Bool) :
    (State.markUnit s d kind index off drain).pending = s.pending ∧ (State.markUnit s d kind index off drain).flash = s.flash := by
  unfold State.markUnit
  dsimp only
  split <;> simp

@[simp] theorem State.settle_kept (s : State) : (State.settle s).pending = s.pending ∧ (State.settle s).flash = s.flash := by
  simp [State.settle]

@[simp] theorem State.launchEnd_kept (s : State) (x : Nat) :
    (s.launchEnd x).pending = s.pending ∧ (s.launchEnd x).flash = s.flash := by
  simp only [State.launchEnd]
  repeat' split
  all_goals simp

@[simp] theorem State.endPeriod_kept (s : State) (r : Nat) (code : Err) (die unit : Nat) (slot : Nat) (missed : Int)
    (node : Option Nat) (sev : Nat) :
    (State.endPeriod s r code die unit slot missed node sev).pending = s.pending ∧
    (State.endPeriod s r code die unit slot missed node sev).flash = s.flash := by
  simp [State.endPeriod]

@[simp] theorem State.collAbortBy_kept (s : State) (b : Nat) (code : Err) (origin sev : Nat) (data : List Byte)
    (contrib : Option Nat) (ledger : Nat) :
    (State.collAbortBy s b code origin sev data contrib ledger).pending = s.pending ∧
    (State.collAbortBy s b code origin sev data contrib ledger).flash = s.flash := by
  unfold State.collAbortBy
  dsimp only
  repeat' split
  all_goals simp

@[simp] theorem State.collFail_kept (s : State) (b : Nat) (code : Err) (data : List Byte) (contrib : Option Nat) (ledger : Nat) :
    (State.collFail s b code data contrib ledger).pending = s.pending ∧ (State.collFail s b code data contrib ledger).flash = s.flash := by
  simp [State.collFail]

@[simp] theorem State.muleFault_kept (s : State) (d p : Nat) (code : Err) (source : Nat) (unit : Nat) (tag lrc : Nat) :
    (State.muleFault s d p code source unit tag lrc).pending = s.pending ∧
    (State.muleFault s d p code source unit tag lrc).flash = s.flash := by
  unfold State.muleFault
  dsimp only
  repeat' split
  all_goals simp

@[simp] theorem State.unitFault_kept (s : State) (d i : Nat) (code : Err) (unit tag lrc : Nat) :
    (State.unitFault s d i code unit tag lrc).pending = s.pending ∧ (State.unitFault s d i code unit tag lrc).flash = s.flash := by
  simp [State.unitFault]

@[simp] theorem State.tagDone_kept (s : State) (d i tag : Nat) :
    (State.tagDone s d i tag).pending = s.pending ∧ (State.tagDone s d i tag).flash = s.flash := by
  simp [State.tagDone]

@[simp] theorem State.checkDone_kept (s : State) (x : Nat) :
    (State.checkDone s x).pending = s.pending ∧ (State.checkDone s x).flash = s.flash := by
  simp [State.checkDone]

@[simp] theorem State.retire_kept (s : State) (d p rd : Nat) (v pc : Word) (cycles : Nat) :
    (State.retire s d p rd v pc cycles).pending = s.pending ∧ (State.retire s d p rd v pc cycles).flash = s.flash := by
  simp [State.retire]

@[simp] theorem State.muleStep_still {s : State} {d p : Nat} {tag : Option Nat} {run : Tile → State}
    (h : ∀ t, (run t).pending = s.pending ∧ (run t).flash = s.flash) : Still s (s.muleStep d p tag run) := by
  unfold State.muleStep
  dsimp only
  repeat' split
  all_goals simp [h]

@[simp] theorem State.muleDo_kept (s : State) (d p : Nat) (t : Tile) (len : Nat) (e : Eff) :
    (State.muleDo s d p t len e).pending = s.pending ∧ (State.muleDo s d p t len e).flash = s.flash := by
  unfold State.muleDo
  dsimp only
  repeat' split
  all_goals simp

theorem execMuleInstruction_still (d : CdId) (p : PTile) (s : State) : Still s (execMuleInstruction d p s) := by
  unfold execMuleInstruction
  repeat' split
  all_goals simp

theorem execEbreak_still (d : CdId) (p : PTile) (s : State) : Still s (execEbreak d p s) := by
  simp [execEbreak]

theorem execMuleWaitRelease_still (d : CdId) (p : PTile) (s : State) : Still s (execMuleWaitRelease d p s) := by
  unfold execMuleWaitRelease
  refine still_ite (still_next.2 ⟨rfl, rfl⟩) ?_
  cases (s.tile d p).mem.wait with
  | tags mask => exact still_ite (still_next.2 ⟨rfl, rfl⟩) (still_next.2 ⟨rfl, rfl⟩)
  | ending => exact still_ite (by simp) (still_next.2 ⟨rfl, rfl⟩)
  | _ => exact still_next.2 ⟨rfl, rfl⟩

theorem execLrWait_still (d : CdId) (p : PTile) (rs1 : Fin 32) (s : State) : Still s (execLrWait d p rs1 s) := by
  simp [execLrWait]

theorem execLrTest_still (d : CdId) (p : PTile) (rd rs1 : Fin 32) (s : State) : Still s (execLrTest d p rd rs1 s) := by
  simp [execLrTest]

theorem execEndOp_still (d : CdId) (p : PTile) (s : State) : Still s (execEndOp d p s) := by
  simp [execEndOp]

@[simp] theorem State.issued_kept (s : State) (k : Issue) (rd : Nat) (held : Bool) :
    (State.issued s k rd held).pending = s.pending ∧ (State.issued s k rd held).flash = s.flash := by
  simp [State.issued]

@[simp] theorem State.issue_still {s : State} {d p f7 f3 : Nat} {rd rs1 rs2 : Fin 32} {armOk held : Bool}
    {checks : State → Issue → UnitChecks} {start : State → Issue → State}
    (h : ∀ s k, (start s k).pending = s.pending ∧ (start s k).flash = s.flash) :
    Still s (s.issue d p f7 f3 rd rs1 rs2 armOk held checks start) := by
  unfold State.issue
  refine State.muleStep_still fun t => ?_
  repeat' split
  all_goals simp [h]

theorem execAsStream_still (d : CdId) (p : PTile) (rd rs1 rs2 : Fin 32) (s : State) : Still s (execAsStream d p rd rs1 rs2 s) := by
  simp [execAsStream]

theorem execMaPass_still (d : CdId) (p : PTile) (rd rs1 rs2 : Fin 32) (s : State) : Still s (execMaPass d p rd rs1 rs2 s) := by
  simp [execMaPass]

theorem execMaPassInputEnd_still (d : CdId) (p : PTile) (s : State) : Still s (execMaPassInputEnd d p s) := by
  simp [execMaPassInputEnd]

@[simp] theorem State.miscompare_kept (s : State) (d p mech phys col row lrc load fmt chk ctx : Nat) :
    (State.miscompare s d p mech phys col row lrc load fmt chk ctx).pending = s.pending ∧
    (State.miscompare s d p mech phys col row lrc load fmt chk ctx).flash = s.flash := by
  simp [State.miscompare]

theorem execMaPassComplete_still (d : CdId) (p : PTile) (mis : Option Miscompare) (s : State) : Still s (execMaPassComplete d p mis s) := by
  unfold execMaPassComplete
  dsimp only
  repeat' split
  all_goals simp

@[simp] theorem State.subsForColumns_kept (s : State) (d p : Nat) :
    (State.subsForColumns s d p).pending = s.pending ∧ (State.subsForColumns s d p).flash = s.flash := by
  simp [State.subsForColumns]

@[simp] theorem State.colcfgApply_kept (s : State) (d p : Nat) :
    (State.colcfgApply s d p).pending = s.pending ∧ (State.colcfgApply s d p).flash = s.flash := by
  simp [State.colcfgApply]

@[simp] theorem State.orFlags_kept (s : State) (d i fl flush : Nat) :
    (State.orFlags s d i fl flush).pending = s.pending ∧ (State.orFlags s d i fl flush).flash = s.flash := by
  simp [State.orFlags]

theorem execEeRun_still (d : CdId) (p : PTile) (rd rs1 rs2 : Fin 32) (s : State) : Still s (execEeRun d p rd rs1 rs2 s) := by
  simp [execEeRun]

theorem execEeRowEnd_still (d : CdId) (p : PTile) (s : State) : Still s (execEeRowEnd d p s) := by
  unfold execEeRowEnd
  dsimp only
  split <;> simp

theorem execEeRunComplete_still (d : CdId) (p : PTile) (s : State) : Still s (execEeRunComplete d p s) := by
  unfold execEeRunComplete
  dsimp only
  split <;> simp

@[simp] theorem State.cxStart_kept (s : State) (k : Issue) (kind : Nat) :
    (State.cxStart s k kind).pending = s.pending ∧ (State.cxStart s k kind).flash = s.flash := by
  simp [State.cxStart]

theorem execEeCompress_still (d : CdId) (p : PTile) (rd rs1 rs2 : Fin 32) (s : State) : Still s (execEeCompress d p rd rs1 rs2 s) := by
  simp [execEeCompress]

theorem execEeExpand_still (d : CdId) (p : PTile) (rd rs1 rs2 : Fin 32) (s : State) : Still s (execEeExpand d p rd rs1 rs2 s) := by
  simp [execEeExpand]

@[simp] theorem State.cxComplete_kept (s : State) (d p kind : Nat) :
    (State.cxComplete s d p kind).pending = s.pending ∧ (State.cxComplete s d p kind).flash = s.flash := by
  unfold State.cxComplete
  dsimp only
  split <;> simp

theorem execEeCompressComplete_still (d : CdId) (p : PTile) (s : State) : Still s (execEeCompressComplete d p s) := by
  simp [execEeCompressComplete]

theorem execEeExpandComplete_still (d : CdId) (p : PTile) (s : State) : Still s (execEeExpandComplete d p s) := by
  simp [execEeExpandComplete]

theorem State.devWrite_kept {s : State} {a : Nat} {bs : List Byte} {t : State} (h : State.devWrite s a bs = .ok t) :
    t.pending = s.pending ∧ t.flash = s.flash := by
  unfold State.devWrite at h
  grind

@[simp] theorem State.hbmUe_kept (s : State) (a : Nat) : (State.hbmUe s a).pending = s.pending ∧ (State.hbmUe s a).flash = s.flash := by
  simp [State.hbmUe]

@[simp] theorem State.devWriteN_kept (s : State) (a : Nat) (bs : List Byte) :
    (s.devWriteN a bs).1.pending = s.pending ∧ (s.devWriteN a bs).1.flash = s.flash := by
  refine foldl_kept_of Prod.fst fun r p => ?_
  grind [State.devWrite_kept]

@[simp] theorem State.translate_kept (s : State) (d slot va access : Nat) (remote : Bool) :
    (State.translate s d slot va access remote).1.pending = s.pending ∧ (State.translate s d slot va access remote).1.flash = s.flash := by
  unfold State.translate
  dsimp only
  repeat' split
  all_goals simp

@[simp] theorem State.faultNotice_kept (s : State) (d : Nat) (f : FaultRec) :
    (State.faultNotice s d f).pending = s.pending ∧ (State.faultNotice s d f).flash = s.flash := by
  simp [State.faultNotice]

@[simp] theorem State.queueFault_kept (s : State) (d : Nat) (f : FaultRec) :
    (State.queueFault s d f).pending = s.pending ∧ (State.queueFault s d f).flash = s.flash := by
  simp [State.queueFault]

@[simp] theorem State.parkFault_kept (s : State) (d slot x : Nat) (who : Requester) (access level : Nat) (stream : Bool) (va : Nat) :
    (State.parkFault s d slot x who access level stream va).pending = s.pending ∧
    (State.parkFault s d slot x who access level stream va).flash = s.flash := by
  simp [State.parkFault]

@[simp] theorem State.refillFaults_kept (s : State) (d : Nat) :
    (State.refillFaults s d).pending = s.pending ∧ (State.refillFaults s d).flash = s.flash := by
  unfold State.refillFaults
  dsimp only
  split <;> simp

theorem State.devAtomic_kept {s t : State} {ieee : Bool} {a op operand old flags : Nat}
    (h : s.devAtomic ieee a op operand = .ok (t, old, flags)) : t.pending = s.pending ∧ t.flash = s.flash := by
  unfold State.devAtomic at h
  grind [State.devWrite_kept]

@[simp] theorem State.peerSend_kept (s : State) (d m p kind : Nat) (sched : Bool) (x tag : Nat) (len aop : Nat) (data : List Byte) :
    (State.peerSend s d m p kind sched x tag len aop data).pending = s.pending ∧
    (State.peerSend s d m p kind sched x tag len aop data).flash = s.flash := by
  unfold State.peerSend
  dsimp only
  split <;> simp

@[simp] theorem State.modEng_kept (s : State) (d e : Nat) (f : DmaEng → DmaEng) :
    (State.modEng s d e f).pending = s.pending ∧ (State.modEng s d e f).flash = s.flash := by
  simp [State.modEng]

@[simp] theorem State.setLoadBusy_kept (s : State) (d i : Nat) :
    (State.setLoadBusy s d i).pending = s.pending ∧ (State.setLoadBusy s d i).flash = s.flash := by
  simp [State.setLoadBusy]

theorem execDmaCopy_still (d : CdId) (p : PTile) (rd rs1 rs2 : Fin 32) (s : State) : Still s (execDmaCopy d p rd rs1 rs2 s) := by
  simp [execDmaCopy]

@[simp] theorem State.copyTarget_kept (s : State) (d slot va access : Nat) :
    (State.copyTarget s d slot va access).1.pending = s.pending ∧ (State.copyTarget s d slot va access).1.flash = s.flash := by
  unfold State.copyTarget
  grind [State.translate_kept]

@[simp] theorem Cp.takeFar_kept (c : Cp) (n : Nat) : (c.takeFar n).1.s = c.s := by
  unfold Cp.takeFar
  grind

@[simp] theorem Cp.read_kept (c : Cp) (d p slot : Nat) (q : DmaInst) (sp : Nat) (remote : Bool) (a n o : Nat) (ue : Option Nat) (sched :
  Bool) :
    (c.read d p slot q sp remote a n o ue sched).1.s.pending = c.s.pending ∧ (c.read d p slot q sp remote a n o ue sched).1.s.flash =
      c.s.flash := by
  unfold Cp.read
  grind [Cp.takeFar_kept, State.copyTarget_kept, State.peerSend_kept, State.hbmUe_kept, State.devWrite_kept, State.modTile_pending,
    State.modTile_flash, State.modMem_pending, State.modMem_flash]

@[simp] theorem Cp.write_kept (c : Cp) (d p slot : Nat) (q : DmaInst) (sp a : Nat) (bs : List Byte) (sched : Bool) :
    (c.write d p slot q sp a bs sched).s.pending = c.s.pending ∧ (c.write d p slot q sp a bs sched).s.flash = c.s.flash := by
  unfold Cp.write
  grind [Cp.takeFar_kept, State.copyTarget_kept, State.peerSend_kept, State.hbmUe_kept, State.devWrite_kept, State.modTile_pending,
    State.modTile_flash, State.modMem_pending, State.modMem_flash]

@[simp] theorem Cp.piece_kept (c : Cp) (d p slot : Nat) (q : DmaInst) (ue : Option Nat) (sched : Bool) (src dst o n : Nat) :
    (c.piece d p slot q ue sched src dst o n).s.pending = c.s.pending ∧ (c.piece d p slot q ue sched src dst o n).s.flash = c.s.flash := by
  unfold Cp.piece
  dsimp only
  rw [(Cp.write_kept ..).1, (Cp.write_kept ..).2]
  refine foldl_kept_of (fun r : Cp × List Byte => r.1.s) fun r x => ?_
  grind [Cp.read_kept]

@[simp] theorem State.copyRun_kept (s : State) (d p : Nat) (e : DmaEng) (ue : Option Nat) (far : List FarRead) (limit : Option Nat) :
    (s.copyRun d p e ue far limit).s.pending = s.pending ∧ (s.copyRun d p e ue far limit).s.flash = s.flash := by
  unfold State.copyRun
  refine foldl_kept_of Cp.s fun c i => foldl_kept_of Cp.s fun c x => ?_
  grind [Cp.piece_kept]

@[simp] theorem State.advanceStreams_kept (s : State) (d p : Nat) (k : DmaD) :
    (State.advanceStreams s d p k).pending = s.pending ∧ (State.advanceStreams s d p k).flash = s.flash := by
  simp [State.advanceStreams]

@[simp] theorem State.dmaFail_kept (s : State) (d e : Nat) (code : Err) (resume : Nat) :
    (State.dmaFail s d e code resume).pending = s.pending ∧ (State.dmaFail s d e code resume).flash = s.flash := by
  simp [State.dmaFail]

theorem execDmaCopyComplete_still (d : CdId) (e : Fin 8) (ue : Option Nat) (far : List FarRead) (s : State) :
    Still s (execDmaCopyComplete d e ue far s) := by
  unfold execDmaCopyComplete
  grind [still_next, State.advanceStreams_kept, State.copyRun_kept, State.dmaFail_kept, State.drew_pending, State.drew_flash,
    State.modCd_pending, State.modCd_flash, State.modEng_kept, State.parkFault_kept, State.setLoadBusy_kept, State.tagDone_kept]

@[simp] theorem State.modJob_kept (s : State) (d j : Nat) (f : HenJob → HenJob) :
    (State.modJob s d j f).pending = s.pending ∧ (State.modJob s d j f).flash = s.flash := by
  simp [State.modJob]

@[simp] theorem State.modThr_kept (s : State) (d t : Nat) (f : HenThread → HenThread) :
    (State.modThr s d t f).pending = s.pending ∧ (State.modThr s d t f).flash = s.flash := by
  simp [State.modThr]

@[simp] theorem State.henStart_kept (s : State) (k : Issue) (unordered : Bool) :
    (State.henStart s k unordered).pending = s.pending ∧ (State.henStart s k unordered).flash = s.flash := by
  simp [State.henStart]

theorem execHenLaunch_still (d : CdId) (p : PTile) (rd rs1 rs2 : Fin 32) (s : State) : Still s (execHenLaunch d p rd rs1 rs2 s) := by
  simp [execHenLaunch]

theorem execHenLaunchU_still (d : CdId) (p : PTile) (rd rs1 rs2 : Fin 32) (s : State) : Still s (execHenLaunchU d p rd rs1 rs2 s) := by
  simp [execHenLaunchU]

@[simp] theorem State.henFail_kept (s : State) (d j item : Nat) (code : Err) :
    (State.henFail s d j item code).pending = s.pending ∧ (State.henFail s d j item code).flash = s.flash := by
  simp [State.henFail]

@[simp] theorem State.henFault_kept (s : State) (d t : Nat) (slot level va access : Nat) (stream : Bool) :
    (State.henFault s d t slot level va access stream).pending = s.pending ∧
    (State.henFault s d t slot level va access stream).flash = s.flash := by
  simp [State.henFault]

@[simp] theorem State.vaWrite_kept (s : State) (d slot x va : Nat) (bs : List Byte) :
    (s.vaWrite d slot x va bs).1.pending = s.pending ∧ (s.vaWrite d slot x va bs).1.flash = s.flash := by
  refine foldl_kept_of Prod.fst fun r p => ?_
  grind [State.devWrite_kept, State.copyTarget_kept, State.peerSend_kept]

@[simp] theorem State.vaRead_kept (s : State) (d slot va n : Nat) :
    (s.vaRead d slot va n).1.pending = s.pending ∧ (s.vaRead d slot va n).1.flash = s.flash := by
  refine foldl_kept_of Prod.fst fun r p => ?_
  grind [State.copyTarget_kept, State.drew_pending, State.drew_flash]

@[simp] theorem State.henFound_kept (s : State) (d slot x : Nat) (hash : List Byte) (i : Nat) (found : Bool) :
    (State.henFound s d slot x hash i found).1.pending = s.pending ∧ (State.henFound s d slot x hash i found).1.flash = s.flash := by
  unfold State.henFound
  dsimp only
  repeat' split
  all_goals simp

@[simp] theorem State.henData_kept (s : State) (d : Nat) (q : HenJob) (off : Nat) (bs : List Byte) :
    (State.henData s d q off bs).1.pending = s.pending ∧ (State.henData s d q off bs).1.flash = s.flash := by
  unfold State.henData
  dsimp only
  split <;> simp

@[simp] theorem State.henCommit_kept (s : State) (d : Nat) (q : HenJob) (h : HenThread) (r : HenReq) :
    (s.henCommit d q h r).1.pending = s.pending ∧ (s.henCommit d q h r).1.flash = s.flash := by
  unfold State.henCommit
  dsimp only
  split
  · grind [State.henData_kept]
  · grind [State.vaRead_kept, State.devWrite_kept]
  · grind [State.henData_kept, State.devAtomic_kept]
  · grind [State.henData_kept]
  · grind [State.henData_kept, State.henFound_kept]
  · grind [State.vaRead_kept, State.devWriteN_kept, State.peerSend_kept, State.modJob_kept]

@[simp] theorem State.henItemDone_kept (s : State) (d t : Nat) (found : Bool) :
    (State.henItemDone s d t found).pending = s.pending ∧ (State.henItemDone s d t found).flash = s.flash := by
  simp [State.henItemDone]

@[simp] theorem State.henRun_kept (s : State) (d t e : Nat) :
    (State.henRun s d t e).pending = s.pending ∧ (State.henRun s d t e).flash = s.flash := by
  unfold State.henRun
  dsimp only
  repeat' split
  all_goals simp

@[simp] theorem State.henDrain_kept (s : State) (d j n : Nat) :
    (s.henDrain d j n).pending = s.pending ∧ (s.henDrain d j n).flash = s.flash := by
  induction n generalizing s with
  | zero => exact ⟨rfl, rfl⟩
  | succ n ih =>
    unfold State.henDrain
    grind [State.henRun_kept]

@[simp] theorem State.henGo_kept (s : State) (d j : Nat) :
    (State.henGo s d j).pending = s.pending ∧ (State.henGo s d j).flash = s.flash := by
  simp [State.henGo]

@[simp] theorem State.henReply_kept (s : State) (d t e : Nat) (status : Err) (data : List Byte) :
    (State.henReply s d t e status data).pending = s.pending ∧ (State.henReply s d t e status data).flash = s.flash := by
  simp [State.henReply]

theorem execHenReply_still (d : CdId) (t : Fin 1024) (e : Fin 8) (status : Err) (data : List Byte) (s : State) :
    Still s (execHenReply d t e status data s) := by
  simp [execHenReply]

theorem execHenRequestTimeout_still (d : CdId) (t : Fin 1024) (e : Fin 8) (s : State) : Still s (execHenRequestTimeout d t e s) := by
  simp [execHenRequestTimeout]

theorem execHenLateReply_still (d : CdId) (t : Fin 1024) (s : State) : Still s (execHenLateReply d t s) := by
  simp [execHenLateReply]

@[simp] theorem State.henSkip_kept (s : State) (d t : Nat) :
    (State.henSkip s d t).pending = s.pending ∧ (State.henSkip s d t).flash = s.flash := by
  unfold State.henSkip
  dsimp only
  repeat' split
  all_goals simp

theorem execHenRequestIssue_still (d : CdId) (t : Fin 1024) (s : State) : Still s (execHenRequestIssue d t s) := by
  unfold execHenRequestIssue
  refine still_ite (still_next.2 ⟨rfl, rfl⟩) ?_
  split
  · dsimp only
    refine still_ite (by simp) (still_ite (still_ite (by simp) (by simp)) ?_)
    repeat' split
    all_goals grind [still_next, State.henFail_kept, State.henFault_kept, State.copyTarget_kept, State.peerSend_kept,
      State.vaRead_kept, State.modThr_kept, State.modCd_pending, State.modCd_flash]
  · simp

@[simp] theorem State.henSkips_kept (s : State) (d j n : Nat) :
    (s.henSkips d j n).pending = s.pending ∧ (s.henSkips d j n).flash = s.flash := by
  induction n generalizing s with
  | zero => exact ⟨rfl, rfl⟩
  | succ n ih => simp [State.henSkips, ih]

theorem execHenJobComplete_still (d : CdId) (j : Fin 8) (s : State) : Still s (execHenJobComplete d j s) := by
  simp [execHenJobComplete]

/-! What leaves the queue and the flash: from the page walks to the records of in-network compute (sections 08 to 10) -/

@[simp] theorem wrote_still {s : State} {r : Except Err State} (h : ∀ t, r = .ok t → t.pending = s.pending ∧ t.flash = s.flash) :
    Still s (wrote s r) := by
  unfold wrote
  split
  · exact still_next.2 (h _ rfl)
  · exact still_next.2 ⟨rfl, rfl⟩

@[simp] theorem State.henXl_kept (s : State) (d t slot va access : Nat) (stream : Bool) (x : Xl) :
    (State.henXl s d t slot va access stream x).pending = s.pending ∧ (State.henXl s d t slot va access stream x).flash = s.flash := by
  unfold State.henXl
  grind [State.henFail_kept, State.henFault_kept]

@[simp] theorem State.dmaXl_kept (s : State) (d : CdId) (e : Fin 8) :
    (State.dmaXl s d e).pending = s.pending ∧ (State.dmaXl s d e).flash = s.flash := by
  unfold State.dmaXl
  grind [still_next, State.copyRun_kept, execDmaCopyComplete_still]

theorem execPageWalkComplete_still (d : CdId) (slot : Fin 16) (va : Word) (access : Fin 3) (kind : Fin 2) (no : Fin 1024)
    (stream : Bool) (s : State) :
    Still s (execPageWalkComplete d slot va access kind no stream s) := by
  unfold execPageWalkComplete
  grind [still_next, State.dmaXl_kept, State.henXl_kept, State.translate_kept]

@[simp] theorem State.tlbInval_kept (s : State) (d v : Nat) :
    (State.tlbInval s d v).pending = s.pending ∧ (State.tlbInval s d v).flash = s.flash := by
  simp [State.tlbInval]

theorem execTlbInvalGo_still (d : CdId) (v : Word) (s : State) : Still s (execTlbInvalGo d v s) := by
  simp [execTlbInvalGo]

theorem execTlbInvalDone_still (d : CdId) (s : State) : Still s (execTlbInvalDone d s) := by
  simp [execTlbInvalDone]

@[simp] theorem State.unpark_kept (s : State) (d : Nat) (fail : Bool) (w : Requester) :
    (State.unpark s d fail w).pending = s.pending ∧ (State.unpark s d fail w).flash = s.flash := by
  unfold State.unpark
  grind [State.dmaFail_kept, State.henFail_kept, State.henGo_kept, State.modEng_kept, State.modThr_kept, State.muleFault_kept]

@[simp] theorem State.pfResolve_kept (s : State) (d id : Nat) (fail : Bool) :
    (State.pfResolve s d id fail).pending = s.pending ∧ (State.pfResolve s d id fail).flash = s.flash := by
  unfold State.pfResolve
  dsimp only
  split <;> simp

theorem execPfResolve_still (d : CdId) (v : Word) (s : State) : Still s (execPfResolve d v s) := by
  simp [execPfResolve]

theorem execHbmRefreshSlot_still (d : CdId) (pc : Fin 32) (found : List ScrubFind) (temp : Int) (s : State) :
    Still s (execHbmRefreshSlot d pc found temp s) := by
  unfold execHbmRefreshSlot
  dsimp only
  repeat' split
  all_goals simp

theorem State.hbmMigrate_kept {s : State} {d v : Nat} {t : State} (h : State.hbmMigrate s d v = .ok t) :
    t.pending = s.pending ∧ t.flash = s.flash := by
  unfold State.hbmMigrate at h
  grind [State.cdDown_kept, State.modCd_pending, State.modCd_flash]

theorem execHbmMigrateStart_still (d : CdId) (v : Word) (s : State) : Still s (execHbmMigrateStart d v s) :=
  wrote_still fun _ h => State.hbmMigrate_kept h

theorem execHbmMigrationComplete_still (d : CdId) (s : State) : Still s (execHbmMigrationComplete d s) := by
  simp [execHbmMigrationComplete]

theorem State.badPacket_kept {s : State} {die : Nat} {k : Packet} {t : State} (h : State.badPacket s die k = some t) :
    t.pending = s.pending ∧ t.flash = s.flash := by
  unfold State.badPacket at h
  grind [State.raise_pending, State.raise_flash]

@[simp] theorem State.peerAnswer_kept (s : State) (d l : Nat) (k : Packet) (q : PeerReq) (e : Err) (data : List Byte) :
    (State.peerAnswer s d l k q e data).pending = s.pending ∧ (State.peerAnswer s d l k q e data).flash = s.flash := by
  simp [State.peerAnswer]

theorem State.peerServe_still (s : State) (d l : Nat) (k : Packet) (ue : Bool) (kind : Nat) :
    Still s (State.peerServe s d l k ue kind) := by
  unfold State.peerServe
  dsimp only
  repeat' split
  all_goals grind [still_next, State.badPacket_kept, State.devAtomic_kept, State.devWrite_kept, State.hbmUe_kept, State.peerAnswer_kept]

theorem execPeerRead_still (d : CdId) (l : LinkId) (k : Packet) (ue : Bool) (s : State) : Still s (execPeerRead d l k ue s) := by
  unfold execPeerRead
  grind [State.peerServe_still]

theorem execPeerWrite_still (d : CdId) (l : LinkId) (k : Packet) (ue : Bool) (s : State) : Still s (execPeerWrite d l k ue s) := by
  unfold execPeerWrite
  grind [State.peerServe_still]

theorem execPeerAtomic_still (d : CdId) (l : LinkId) (k : Packet) (ue : Bool) (s : State) : Still s (execPeerAtomic d l k ue s) := by
  unfold execPeerAtomic
  grind [State.peerServe_still]

theorem execPeerReply_still (d : CdId) (k : Packet) (s : State) : Still s (execPeerReply d k s) := by
  unfold execPeerReply
  grind [still_next, State.badPacket_kept, State.henReply_kept]

theorem execRemoteWindowRequest_still (d : CdId) (l : LinkId) (k : Packet) (write : Bool) (ue : Bool) (s : State) :
    Still s (execRemoteWindowRequest d l k write ue s) := by
  unfold execRemoteWindowRequest
  dsimp only
  repeat' split
  all_goals grind [still_next, State.badPacket_kept, State.hbmUe_kept, State.peerAnswer_kept, State.translate_kept]

@[simp] theorem State.bpAlloc_kept (s : State) (d r p : Nat) :
    (State.bpAlloc s d r p).1.pending = s.pending ∧ (State.bpAlloc s d r p).1.flash = s.flash := by
  simp [State.bpAlloc]

@[simp] theorem State.bpFree_kept (s : State) (d r a : Nat) :
    (s.bpFree d r a).1.pending = s.pending ∧ (s.bpFree d r a).1.flash = s.flash := by
  generalize hF : State.bpFree = F
  delta State.bpFree at hF
  have h := congrFun (congrFun (congrFun (congrFun hF s) d) r) a
  beta_reduce at h
  clear hF
  revert h
  generalize (s.cd d).bp.release r a = y
  rintro h
  rw [← h]
  cases y <;> simp

theorem State.bpApply_kept {s : State} {d v : Nat} {t : State} (h : State.bpApply s d v = .ok t) :
    t.pending = s.pending ∧ t.flash = s.flash := by
  unfold State.bpApply at h
  grind [State.modCd_pending, State.modCd_flash]

theorem execBpApply_still (d : CdId) (v : Word) (s : State) : Still s (execBpApply d v s) :=
  wrote_still fun _ h => State.bpApply_kept h

@[simp] theorem State.bpFw_kept (s : State) (d v : Nat) : (State.bpFw s d v).pending = s.pending ∧ (State.bpFw s d v).flash = s.flash := by
  unfold State.bpFw
  grind [State.bpAlloc_kept, State.bpFree_kept, State.modCd_pending, State.modCd_flash]

theorem execBpFwAllocate_still (d : CdId) (v : Word) (s : State) : Still s (execBpFwAllocate d v s) := by
  simp [execBpFwAllocate]

theorem execBpFwFree_still (d : CdId) (v : Word) (s : State) : Still s (execBpFwFree d v s) := by
  simp [execBpFwFree]

theorem execBpFreeWrite_still (d : CdId) (pool : Fin 6) (s : State) : Still s (execBpFreeWrite d pool s) := by
  simp [execBpFreeWrite]

theorem State.colcfg_kept {s : State} {d p v : Nat} {t : State} (h : State.colcfg s d p v = .ok t) :
    t.pending = s.pending ∧ t.flash = s.flash := by
  unfold State.colcfg at h
  grind [State.colcfgApply_kept, State.modArr_pending, State.modArr_flash]

theorem execArrColcfgApply_still (d : CdId) (p : PTile) (v : Word) (s : State) : Still s (execArrColcfgApply d p v s) :=
  wrote_still fun _ h => State.colcfg_kept h

@[simp] theorem VaRes.rd_kept (r : VaRes) (w : Where) (va n : Nat) :
    (r.rd w va n).1.s.pending = r.s.pending ∧ (r.rd w va n).1.s.flash = r.s.flash := by
  unfold VaRes.rd
  split <;> simp

@[simp] theorem VaRes.wr_kept (r : VaRes) (w : Where) (va : Nat) (bs : List Byte) :
    (r.wr w va bs).s.pending = r.s.pending ∧ (r.wr w va bs).s.flash = r.s.flash := by
  unfold VaRes.wr
  split <;> simp

@[simp] theorem VaRes.probe_kept (w : Where) (table log seed key fuel n : Nat) (r : VaRes) :
    (VaRes.probe w table log seed key fuel n r).1.s.pending = r.s.pending ∧
      (VaRes.probe w table log seed key fuel n r).1.s.flash = r.s.flash := by
  induction fuel generalizing n r with
  | zero => exact ⟨rfl, rfl⟩
  | succ fuel ih => grind [VaRes.probe, VaRes.rd_kept]

@[simp] theorem hashBuild_kept (w : Where) (b : List Byte) (s : State) :
    (hashBuild w b s).s.pending = s.pending ∧ (hashBuild w b s).s.flash = s.flash := by
  refine foldl_kept_of VaRes.s fun r i => ?_
  grind [VaRes.rd_kept, VaRes.probe_kept, VaRes.wr_kept]

@[simp] theorem hashProbe_kept (w : Where) (b : List Byte) (s : State) :
    (hashProbe w b s).s.pending = s.pending ∧ (hashProbe w b s).s.flash = s.flash := by
  refine foldl_kept_of VaRes.s fun r i => ?_
  grind [VaRes.rd_kept, VaRes.probe_kept, VaRes.wr_kept]

@[simp] theorem VaRes.adj_kept (r : VaRes) (w : Where) (offs v : Nat) :
    (r.adj w offs v).1.s.pending = r.s.pending ∧ (r.adj w offs v).1.s.flash = r.s.flash :=
  VaRes.rd_kept ..

@[simp] theorem frontier_kept (w : Where) (b : List Byte) (s : State) :
    (frontier w b s).s.pending = s.pending ∧ (frontier w b s).s.flash = s.flash := by
  generalize h : frontier w b s = x
  unfold frontier at h
  have hrd := VaRes.rd_kept
  have hwr := VaRes.wr_kept
  have hadj := VaRes.adj_kept
  generalize VaRes.rd = rd at h hrd
  generalize VaRes.wr = wr at h hwr
  generalize VaRes.adj = next at h hadj
  extract_lets offs adj vis nv inp nin out cap os g us r at h
  have hg : g.1.s.pending = s.pending ∧ g.1.s.flash = s.flash := by
    refine foldl_kept_of (fun x : VaRes × Tab Unit => x.1.s) fun r i => ?_
    dsimp only
    refine ite_kept (fun x : VaRes × Tab Unit => x.1.s) ⟨rfl, rfl⟩ ?_
    refine ite_kept (fun x : VaRes × Tab Unit => x.1.s) ⟨rfl, rfl⟩ ?_
    refine foldl_kept_from (fun x : VaRes × Tab Unit => x.1.s) (hadj ..) fun r p => ?_
    grind
  have hr : r.s.pending = g.1.s.pending ∧ r.s.flash = g.1.s.flash := by
    refine foldl_kept_of VaRes.s fun r e => ?_
    grind [State.modTile_pending, State.modTile_flash]
  rw [← h]
  exact ite_kept VaRes.s hg (ite_kept VaRes.s (by simp [hg, hr]) (by simp [hg, hr]))

/-- The reads of one row of SAMPLE_NEIGHBOURS (R166). -/
theorem sampleRow_kept {rd : VaRes → Where → Nat → Nat → VaRes × List Byte}
    (hrd : ∀ r w va n, (rd r w va n).1.s.pending = r.s.pending ∧ (rd r w va n).1.s.flash = r.s.flash) {w : Where} {adj from_ nv : Nat}
    {q row : VaRes × List Nat} {l : List Nat}
    (h : l.foldl (fun (q : VaRes × List Nat) p =>
      let x := rd q.1 w (adj + 4 * (from_ + p)) 4
      if !x.1.going then (x.1, q.2)
      else if nv ≤ leNat x.2 then ({ x.1 with status := .range }, q.2)
      else (x.1, q.2 ++ [leNat x.2])) q = row) :
    row.1.s.pending = q.1.s.pending ∧ row.1.s.flash = q.1.s.flash := by
  subst h
  refine foldl_kept_of (fun x : VaRes × List Nat => x.1.s) fun r p => ?_
  grind

@[simp] theorem sample_kept (w : Where) (b : List Byte) (s : State) :
    (sample w b s).s.pending = s.pending ∧ (sample w b s).s.flash = s.flash := by
  generalize h : sample w b s = x
  unfold sample at h
  have hrd := VaRes.rd_kept
  have hadj := VaRes.adj_kept
  generalize VaRes.rd = rd at h hrd
  generalize VaRes.adj = next at h hadj
  extract_lets offs adj nv seeds n fan seed stream out cnt os g t at h
  have hg : g.1.s.pending = s.pending ∧ g.1.s.flash = s.flash := by
    refine foldl_kept_step (fun x : VaRes × List (List Nat) => x.1.s) fun r i y hy => ?_
    have ha := hadj r.1 w offs (w32 os (seeds + 4 * i))
    dsimp only at hy ⊢
    generalize next r.1 w offs (w32 os (seeds + 4 * i)) = a at ha hy
    generalize hrow : List.foldl _ (a.1, ([] : List Nat)) _ = row at hy
    have hkept := sampleRow_kept hrd hrow
    grind
  have ht : t.pending = g.1.s.pending ∧ t.flash = g.1.s.flash :=
    foldl_kept fun _ _ => ⟨State.modTile_pending .., State.modTile_flash ..⟩
  rw [← h]
  exact ite_kept VaRes.s hg ⟨ht.1.trans hg.1, ht.2.trans hg.2⟩

@[simp] theorem VaRes.rows_kept (r : VaRes × Mem) (w : Where) (va pitch rows len at_ : Nat) :
    (VaRes.rows r w va pitch rows len at_).1.s.pending = r.1.s.pending ∧ (VaRes.rows r w va pitch rows len at_).1.s.flash = r.1.s.flash :=
  foldl_kept_of (fun x : VaRes × Mem => x.1.s) fun x _ => VaRes.rd_kept x.1 ..

@[simp] theorem mmTiled_kept (w : Where) (b : List Byte) (s : State) :
    (mmTiled w b s).s.pending = s.pending ∧ (mmTiled w b s).s.flash = s.flash := by
  simp only [mmTiled]
  split
  · exact ⟨rfl, rfl⟩
  refine (foldl_kept_of VaRes.s fun r t => ?_).imp (Eq.trans · ?_) (Eq.trans · ?_)
  · generalize hx : List.foldl _ _ (List.range (min 128 _)) = x
    have hrow : x.1.s.pending = r.s.pending ∧ x.1.s.flash = r.s.flash := by
      rw [← hx]
      exact foldl_kept_of (fun x : VaRes × RowSt => x.1.s) fun x i => foldl_kept_of VaRes.s fun r e => VaRes.wr_kept ..
    split <;> exact hrow
  · split <;> simp
  · split <;> simp

@[simp] theorem State.rtWork_kept (s : State) (w : Where) (n : Nat) (b : List Byte) :
    (s.rtWork w n b).s.pending = s.pending ∧ (s.rtWork w n b).s.flash = s.flash := by
  unfold State.rtWork
  dsimp only
  split <;> simp

@[simp] theorem State.rtCall_kept (s : State) (d p n blk : Nat) :
    (s.rtCall d p n blk).pending = s.pending ∧ (s.rtCall d p n blk).flash = s.flash := by
  unfold State.rtCall
  dsimp only
  repeat' split
  all_goals simp

@[simp] theorem State.retr_kept (s : State) (d p : Nat) : (State.retr s d p).pending = s.pending ∧ (State.retr s d p).flash = s.flash := by
  unfold State.retr
  grind [State.modTile_pending, State.modTile_flash, State.muleFault_kept]

theorem execRetr_still (d : CdId) (p : PTile) (s : State) : Still s (execRetr d p s) := by
  unfold execRetr
  grind [State.muleStep_still, State.retr_kept, State.rtCall_kept]

theorem execRoutineBudgetPadEnd_still (d : CdId) (p : PTile) (s : State) : Still s (execRoutineBudgetPadEnd d p s) := by
  unfold execRoutineBudgetPadEnd
  grind [still_next, State.modMule_pending, State.modMule_flash, State.modTile_pending, State.modTile_flash, State.muleFault_kept]

theorem execCallr_still (d : CdId) (p : PTile) (rd rs1 : Fin 32) (imm : Fin 4096) (s : State) : Still s (execCallr d p rd rs1 imm s) := by
  simp [execCallr]

theorem execUrBr_still (d : CdId) (p : PTile) (f3 : Fin 8) (rs1 rs2 : Fin 32) (imm : BitVec 13) (s : State) :
    Still s (execUrBr d p f3 rs1 rs2 imm s) := by
  simp [execUrBr]

theorem execUrJoin_still (d : CdId) (p : PTile) (rd rs1 : Fin 32) (imm : Fin 4096) (s : State) : Still s (execUrJoin d p rd rs1 imm s) := by
  unfold execUrJoin
  grind [State.modMule_pending, State.modMule_flash, State.modTile_pending, State.modTile_flash, State.muleFault_kept, State.muleStep_still]

theorem execUrPadEnd_still (d : CdId) (p : PTile) (s : State) : Still s (execUrPadEnd d p s) := by
  unfold execUrPadEnd
  grind [still_next, State.modTile_pending, State.modTile_flash]

@[simp] theorem State.putCell_kept (s : State) (n b : Nat) (taken : List Nat) :
    (State.putCell s n b taken).1.pending = s.pending ∧ (State.putCell s n b taken).1.flash = s.flash := by
  simp [State.putCell]

@[simp] theorem State.putCells_kept (s : State) (net fuel n st : Nat) (acc : List Nat) :
    (s.putCells net fuel n st acc).1.pending = s.pending ∧ (s.putCells net fuel n st acc).1.flash = s.flash := by
  induction fuel generalizing s n st acc with
  | zero => exact ⟨rfl, rfl⟩
  | succ fuel ih =>
    unfold State.putCells
    dsimp only
    split
    · exact ⟨rfl, rfl⟩
    · simp [ih]

@[simp] theorem State.takeIn_kept (s : State) (src : Nat) (k : Packet) (members : List Nat) (stripe : Nat) :
    (s.takeIn src k members stripe).pending = s.pending ∧ (s.takeIn src k members stripe).flash = s.flash := by
  simp only [State.takeIn]
  split <;> simp

@[simp] theorem State.routeError_kept (s : State) (k : Packet) :
    (State.routeError s k).pending = s.pending ∧ (State.routeError s k).flash = s.flash := by
  simp [State.routeError]

@[simp] theorem State.epochError_kept (s : State) (k : Packet) :
    (State.epochError s k).pending = s.pending ∧ (State.epochError s k).flash = s.flash := by
  simp [State.epochError]

@[simp] theorem State.toMembers_kept (s : State) (src : Nat) (k : Packet) (members : List Nat) (cont : Bool) (stripe : Nat) :
    (State.toMembers s src k members cont stripe).pending = s.pending ∧ (State.toMembers s src k members cont stripe).flash = s.flash := by
  simp [State.toMembers]

@[simp] theorem State.shape_kept (s : State) (port l : Nat) (k : Packet) :
    (State.shape s port l k).1.pending = s.pending ∧ (State.shape s port l k).1.flash = s.flash := by
  unfold State.shape
  grind

@[simp] theorem State.enterHub_kept (s : State) (src : Nat) (k : Packet) (stripe : Nat) :
    (State.enterHub s src k stripe).pending = s.pending ∧ (State.enterHub s src k stripe).flash = s.flash := by
  unfold State.enterHub
  grind [State.epochError_kept, State.routeError_kept, State.toMembers_kept]

@[simp] theorem State.ingress_kept (s : State) (src : Nat) (k : Packet) (stripe : Nat) :
    (State.ingress s src k stripe).pending = s.pending ∧ (State.ingress s src k stripe).flash = s.flash := by
  unfold State.ingress
  grind [State.enterHub_kept, State.shape_kept]

theorem execHubPacketIngress_still (src : Fin 54) (k : Packet) (stripe : Fin 32) (s : State) :
    Still s (execHubPacketIngress src k stripe s) := by
  simp [execHubPacketIngress]

theorem execEntryShaperRelease_still (port : Fin 17) (l : LinkId) (s : State) : Still s (execEntryShaperRelease port l s) := by
  unfold execEntryShaperRelease
  grind [still_next, State.enterHub_kept]

@[simp] theorem State.dequeue_kept (s : State) (q : Nat) (k : HubPkt) (e : QEntry) :
    (State.dequeue s q k e).pending = s.pending ∧ (State.dequeue s q k e).flash = s.flash := by
  simp [State.dequeue]

@[simp] theorem State.hubUe_kept (s : State) (cell o : Nat) :
    (State.hubUe s cell o).pending = s.pending ∧ (State.hubUe s cell o).flash = s.flash := by
  simp [State.hubUe]

@[simp] theorem State.readCell_kept (s : State) (o q : Nat) (e : QEntry) (chk : Nat) :
    (State.readCell s o q e chk).pending = s.pending ∧ (State.readCell s o q e chk).flash = s.flash := by
  simp [State.readCell]

theorem execHubEgressCell_still (o : Fin 53) (chk : Fin 3) (s : State) : Still s (execHubEgressCell o chk s) := by
  unfold execHubEgressCell
  grind [still_next, State.readCell_kept]

theorem State.hubPartition_kept {s : State} {v : Nat} {t : State} (h : State.hubPartition s v = .ok t) :
    t.pending = s.pending ∧ t.flash = s.flash := by
  unfold State.hubPartition at h
  grind

theorem execHubPartitionWrite_still (v : Word) (s : State) : Still s (execHubPartitionWrite v s) :=
  wrote_still fun _ h => State.hubPartition_kept h

@[simp] theorem State.hubAlpha_kept (s : State) (v : Nat) :
    (State.hubAlpha s v).pending = s.pending ∧ (State.hubAlpha s v).flash = s.flash := by
  simp [State.hubAlpha]

theorem execHubDtAlphaWrite_still (v : Word) (s : State) : Still s (execHubDtAlphaWrite v s) := by
  simp [execHubDtAlphaWrite]

theorem State.hubShare_kept {s : State} {v : Nat} {t : State} (h : State.hubShare s v = .ok t) :
    t.pending = s.pending ∧ t.flash = s.flash := by
  unfold State.hubShare at h
  grind

theorem execHubEgressShareWrite_still (v : Word) (s : State) : Still s (execHubEgressShareWrite v s) :=
  wrote_still fun _ h => State.hubShare_kept h

@[simp] theorem State.hubSnap_kept (s : State) : (State.hubSnap s).pending = s.pending ∧ (State.hubSnap s).flash = s.flash := by
  simp [State.hubSnap]

theorem execHubSnapTake_still (s : State) : Still s (execHubSnapTake s) := by
  simp [execHubSnapTake]

theorem execHubSnapComplete_still (s : State) : Still s (execHubSnapComplete s) := by
  simp [execHubSnapComplete]

theorem State.bankMigrate_kept {s : State} {v : Nat} {t : State} (h : State.bankMigrate s v = .ok t) :
    t.pending = s.pending ∧ t.flash = s.flash := by
  unfold State.bankMigrate at h
  grind

theorem execHubBankMigrateStart_still (v : Word) (s : State) : Still s (execHubBankMigrateStart v s) :=
  wrote_still fun _ h => State.bankMigrate_kept h

theorem execHubBankMigrationComplete_still (s : State) : Still s (execHubBankMigrationComplete s) := by
  unfold execHubBankMigrationComplete
  grind [still_next, State.substituted_pending, State.substituted_flash]

theorem execHubBankRemove_still (b : Fin 1024) (s : State) : Still s (execHubBankRemove b s) := by
  simp [execHubBankRemove]

@[simp] theorem State.oxUnbound_kept (s : State) (k : Packet) :
    (State.oxUnbound s k).pending = s.pending ∧ (State.oxUnbound s k).flash = s.flash := by
  simp [State.oxUnbound]

@[simp] theorem State.modRun_kept (s : State) (b : Nat) (f : OxRun → OxRun) :
    (State.modRun s b f).pending = s.pending ∧ (State.modRun s b f).flash = s.flash := by
  simp [State.modRun]

@[simp] theorem State.countLines_kept (s : State) (b : Nat) :
    (State.countLines s b).pending = s.pending ∧ (State.countLines s b).flash = s.flash := by
  simp [State.countLines]

@[simp] theorem State.oxSend_kept (s : State) (b o kind flags offset nrec count : Nat) (data : List Byte) :
    (State.oxSend s b o kind flags offset nrec count data).pending = s.pending ∧
    (State.oxSend s b o kind flags offset nrec count data).flash = s.flash := by
  simp [State.oxSend]

@[simp] theorem State.collSlots_kept (s : State) (x id : Nat) :
    (State.collSlots s x id).pending = s.pending ∧ (State.collSlots s x id).flash = s.flash := by
  simp [State.collSlots]

@[simp] theorem State.collProgress_kept (s : State) (b : Nat) :
    (State.collProgress s b).pending = s.pending ∧ (State.collProgress s b).flash = s.flash := by
  simp [State.collProgress]

@[simp] theorem State.collFirst_kept (s : State) (b : Nat) :
    (State.collFirst s b).pending = s.pending ∧ (State.collFirst s b).flash = s.flash := by
  simp [State.collFirst]

@[simp] theorem State.oxTake_kept (s : State) (q d : Nat) (k : HubPkt) (keep : Bool) :
    (State.oxTake s q d k keep).pending = s.pending ∧ (State.oxTake s q d k keep).flash = s.flash := by
  simp [State.oxTake]

@[simp] theorem State.oxData_kept (s : State) (b q d : Nat) (h : HubPkt) :
    (State.oxData s b q d h).pending = s.pending ∧ (State.oxData s b q d h).flash = s.flash := by
  unfold State.oxData
  grind [State.collFail_kept, State.collFirst_kept, State.countLines_kept, State.modRun_kept, State.oxTake_kept]

theorem execOxDispatch_still (net : Fin 2) (cls : Fin 3) (s : State) : Still s (execOxDispatch net cls s) := by
  unfold execOxDispatch
  grind [still_next, State.collFail_kept, State.emit_pending, State.emit_flash, State.modSleep_pending, State.modSleep_flash,
    State.oxData_kept, State.oxTake_kept, State.oxUnbound_kept]

@[simp] theorem State.oxRelease_kept (s : State) (cs : List Contrib) :
    (State.oxRelease s cs).pending = s.pending ∧ (State.oxRelease s cs).flash = s.flash := by
  simp [State.oxRelease]

theorem State.lineUe_kept (s : State) (b line bank : Nat) {say : List Byte → State → State}
    (h : ∀ bs t, (say bs t).pending = t.pending ∧ (say bs t).flash = t.flash) :
    (s.lineUe b line bank say).pending = s.pending ∧ (s.lineUe b line bank say).flash = s.flash := by
  simp [State.lineUe, h]

@[simp] theorem State.oxLineUe_kept (s : State) (b line bank : Nat) :
    (State.oxLineUe s b line bank).pending = s.pending ∧ (State.oxLineUe s b line bank).flash = s.flash := by
  unfold State.oxLineUe
  grind [State.collFail_kept, State.lineUe_kept]

@[simp] theorem State.oxRetire_kept (s : State) (u : Nat) :
    (State.oxRetire s u).pending = s.pending ∧ (State.oxRetire s u).flash = s.flash := by
  simp [State.oxRetire]

@[simp] theorem State.oxMismatch_kept (s : State) (b u : Nat) :
    (State.oxMismatch s b u).pending = s.pending ∧ (State.oxMismatch s b u).flash = s.flash := by
  simp [State.oxMismatch]

theorem execOxStepFire_still (b : Fin 1024) (off : Nat) (bad : Option (Fin 272)) (ue : Option Nat) (s : State) :
    Still s (execOxStepFire b off bad ue s) := by
  unfold execOxStepFire
  grind [still_next, State.collFail_kept, State.countLines_kept, State.modRun_kept, State.oxLineUe_kept, State.oxMismatch_kept]

@[simp] theorem State.lineStore_kept (s : State) (b red : Nat) (ls : List Nat) :
    (s.lineStore b red ls).pending = s.pending ∧ (s.lineStore b red ls).flash = s.flash := by
  simp only [State.lineStore]
  split
  · exact foldl_kept_from id ⟨rfl, rfl⟩ fun _ _ => State.devWriteN_kept ..
  · exact ⟨rfl, rfl⟩

theorem execOxStepComplete_still (b : Fin 1024) (off : Nat) (s : State) : Still s (execOxStepComplete b off s) := by
  unfold execOxStepComplete
  grind [still_next, State.lineStore_kept, State.modBind_pending, State.modBind_flash, State.modRun_kept, State.oxLineUe_kept,
    State.oxRelease_kept]

@[simp] theorem State.oxWrite_kept (s : State) (b o red : Nat) (rnd : Bool) (off : Nat) (k : Block) :
    (State.oxWrite s b o red rnd off k).pending = s.pending ∧ (State.oxWrite s b o red rnd off k).flash = s.flash := by
  simp [State.oxWrite]

@[simp] theorem State.oxFinal_kept (s : State) (b i op : Nat) :
    (State.oxFinal s b i op).pending = s.pending ∧ (State.oxFinal s b i op).flash = s.flash := by
  unfold State.oxFinal
  dsimp only
  repeat' split
  all_goals simp

theorem execRound_still (b : Fin 1024) (i : Fin 24) (s : State) : Still s (execRound b i s) := by
  simp [execRound]

theorem execCarry_still (b : Fin 1024) (i : Fin 24) (s : State) : Still s (execCarry b i s) := by
  simp [execCarry]

@[simp] theorem State.oxFlush_kept (s : State) (b o : Nat) (closed : Bool) (fuel : Nat) :
    (s.oxFlush b o closed fuel).pending = s.pending ∧ (s.oxFlush b o closed fuel).flash = s.flash := by
  induction fuel generalizing s with
  | zero => exact ⟨rfl, rfl⟩
  | succ fuel ih =>
    simp only [State.oxFlush]
    repeat' split
    all_goals simp [ih]

@[simp] theorem State.oxPut_kept (s : State) (b dst : Nat) (x : InsOut) :
    (s.oxPut b dst x).pending = s.pending ∧ (s.oxPut b dst x).flash = s.flash := by
  simp [State.oxPut]

@[simp] theorem State.oxRecRelease_kept (s : State) (b : Nat) :
    (State.oxRecRelease s b).pending = s.pending ∧ (State.oxRecRelease s b).flash = s.flash := by
  simp [State.oxRecRelease]

@[simp] theorem State.oxRecord_kept (s : State) (b i op : Nat) (bad : Option (Fin 272)) (f : OxP → OxRun → OxI → InsOut) :
    (State.oxRecord s b i op bad f).pending = s.pending ∧ (State.oxRecord s b i op bad f).flash = s.flash := by
  unfold State.oxRecord
  grind [State.collFail_kept, State.collProgress_kept, State.countLines_kept, State.modRun_kept, State.oxMismatch_kept, State.oxPut_kept,
    State.oxRecRelease_kept]

theorem execMerge_still (b : Fin 1024) (i : Fin 24) (bad : Option (Fin 272)) (s : State) : Still s (execMerge b i bad s) := by
  simp [execMerge]

theorem execSort_still (b : Fin 1024) (i : Fin 24) (bad : Option (Fin 272)) (s : State) : Still s (execSort b i bad s) := by
  simp [execSort]

theorem execTopk_still (b : Fin 1024) (i : Fin 24) (bad : Option (Fin 272)) (s : State) : Still s (execTopk b i bad s) := by
  simp [execTopk]

theorem execFilter_still (b : Fin 1024) (i : Fin 24) (bad : Option (Fin 272)) (s : State) : Still s (execFilter b i bad s) := by
  simp [execFilter]

theorem execIsect_still (b : Fin 1024) (i : Fin 24) (bad : Option (Fin 272)) (s : State) : Still s (execIsect b i bad s) := by
  simp [execIsect]

theorem execDiff_still (b : Fin 1024) (i : Fin 24) (bad : Option (Fin 272)) (s : State) : Still s (execDiff b i bad s) := by
  simp [execDiff]

theorem execUnion_still (b : Fin 1024) (i : Fin 24) (bad : Option (Fin 272)) (s : State) : Still s (execUnion b i bad s) := by
  simp [execUnion]

theorem execLoad_still (b : Fin 1024) (i : Fin 24) (s : State) : Still s (execLoad b i s) := by
  simp [execLoad]

theorem execGather_still (b : Fin 1024) (i : Fin 24) (s : State) : Still s (execGather b i s) := by
  simp [execGather]

theorem execEmit_still (b : Fin 1024) (i : Fin 24) (s : State) : Still s (execEmit b i s) := by
  simp [execEmit]

/-! What leaves the queue and the flash: collectives, links, time, and the commands of contexts for memory and programs (sections 11 to 15) -/

theorem State.collAdmit_kept {s t : State} {sched : Bool} {ctx owner need place spill : Nat}
    (h : s.collAdmit sched ctx owner need = some (t, place, spill)) : t.pending = s.pending ∧ t.flash = s.flash := by
  unfold State.collAdmit at h
  grind [State.bpAlloc_kept]

@[simp] theorem State.collOpen_kept (s : State) (src : Src) (b place spill : Nat) (dh : Nat) (g l p : List Byte) :
    (State.collOpen s src b place spill dh g l p).pending = s.pending ∧ (State.collOpen s src b place spill dh g l p).flash = s.flash := by
  simp [State.collOpen]

theorem execCollBind_still (src : Src) (g l p : List Byte) (s : State) : Still s (execCollBind src g l p s) := by
  refine still_next.2 (State.command_kept _ _ _ _ _ ?_)
  split
  case h_1 t place spill h => simp [State.collAdmit_kept h]
  case h_2 => exact ⟨rfl, rfl⟩

theorem State.collCmd_kept {s : State} (src : Src) (cmd ctx coll : Nat) (checks : Nat → List (Bool × Err))
    {run : Nat → State → State} (h : ∀ n, (run n s).pending = s.pending ∧ (run n s).flash = s.flash) :
    (s.collCmd src cmd ctx coll checks run).pending = s.pending ∧ (s.collCmd src cmd ctx coll checks run).flash = s.flash :=
  State.command_kept _ _ _ _ _ (h _)

theorem execCollStart_still (src : Src) (ctx coll : Nat) (s : State) : Still s (execCollStart src ctx coll s) := by
  unfold execCollStart
  grind [still_next, State.collCmd_kept, State.collProgress_kept, State.modBind_pending, State.modBind_flash, State.modBindX_pending,
    State.modBindX_flash, State.reply_pending, State.reply_flash]

theorem execCollAbort_still (src : Src) (ctx coll : Nat) (s : State) : Still s (execCollAbort src ctx coll s) := by
  unfold execCollAbort
  grind [still_next, State.collCmd_kept, State.collFail_kept, State.reply_pending, State.reply_flash]

@[simp] theorem State.collRelease_kept (s : State) (b : Nat) :
    (State.collRelease s b).pending = s.pending ∧ (State.collRelease s b).flash = s.flash := by
  simp [State.collRelease]

theorem execCollFree_still (src : Src) (ctx coll : Nat) (s : State) : Still s (execCollFree src ctx coll s) := by
  unfold execCollFree
  grind [still_next, State.collCmd_kept, State.collRelease_kept, State.reply_pending, State.reply_flash]

theorem execCollStatus_still (src : Src) (key : Nat) (s : State) : Still s (execCollStatus src key s) := by
  simp [execCollStatus]

theorem execOxOpenReceive_still (k : Packet) (owner : Bool) (s : State) : Still s (execOxOpenReceive k owner s) := by
  unfold execOxOpenReceive
  grind [still_next, State.collFail_kept, State.collFirst_kept, State.collProgress_kept, State.modBind_pending, State.modBind_flash,
    State.oxUnbound_kept]

theorem execOxAbortReceive_still (k : Packet) (s : State) : Still s (execOxAbortReceive k s) := by
  unfold execOxAbortReceive
  grind [still_next, State.collAbortBy_kept, State.collFail_kept, State.oxUnbound_kept]

theorem execOxAbortSend_still (b : Fin 1024) (s : State) : Still s (execOxAbortSend b s) := by
  simp [execOxAbortSend]

theorem execCollTimeout_still (b : Fin 1024) (s : State) : Still s (execCollTimeout b s) := by
  simp [execCollTimeout]

theorem execCollCoolExpiry_still (b : Fin 1024) (s : State) : Still s (execCollCoolExpiry b s) := by
  simp [execCollCoolExpiry]

@[simp] theorem State.fetchSend_kept (s : State) (b kind : Nat) (payload : List Byte) :
    (State.fetchSend s b kind payload).pending = s.pending ∧ (State.fetchSend s b kind payload).flash = s.flash := by
  simp [State.fetchSend]

theorem execCollFetchPacket_still (b : Fin 1024) (ue : Bool) (s : State) : Still s (execCollFetchPacket b ue s) := by
  unfold execCollFetchPacket
  grind [still_next, State.collFail_kept, State.collProgress_kept, State.fetchSend_kept, State.hbmUe_kept, State.modBindX_pending,
    State.modBindX_flash, State.translate_kept, State.vaRead_kept]

theorem execCollResultWrite_still (d : CdId) (k : Packet) (s : State) : Still s (execCollResultWrite d k s) := by
  unfold execCollResultWrite
  grind [still_next, State.collFail_kept, State.collFirst_kept, State.collProgress_kept, State.modBind_pending, State.modBind_flash,
    State.oxUnbound_kept, State.vaWrite_kept, execOxOpenReceive_still]

@[simp] theorem State.collEndCtx_kept (s : State) (x : Nat) :
    (State.collEndCtx s x).pending = s.pending ∧ (State.collEndCtx s x).flash = s.flash := by
  simp [State.collEndCtx]

theorem execTimeCellSend_still (l : LinkId) (s : State) : Still s (execTimeCellSend l s) := by
  simp [execTimeCellSend]

@[simp] theorem State.endScheduled_kept (s : State) :
    (State.endScheduled s).pending = s.pending ∧ (State.endScheduled s).flash = s.flash := by
  simp [State.endScheduled]

@[simp] theorem State.acquire_kept (s : State) : (State.acquire s).pending = s.pending ∧ (State.acquire s).flash = s.flash := by
  simp [State.acquire]

@[simp] theorem State.timeComplaints_kept (s : State) :
    (State.timeComplaints s).pending = s.pending ∧ (State.timeComplaints s).flash = s.flash := by
  simp [State.timeComplaints]

@[simp] theorem State.follow_kept (s : State) (l : Nat) (c : Cand) (sync : Bool) :
    (State.follow s l c sync).pending = s.pending ∧ (State.follow s l c sync).flash = s.flash := by
  simp [State.follow]

@[simp] theorem State.slew_kept (s : State) (v : Int) : (State.slew s v).pending = s.pending ∧ (State.slew s v).flash = s.flash := by
  simp [State.slew]

@[simp] theorem State.parentCell_kept (s : State) (o : Int) (target : Nat) (sync : Bool) :
    (State.parentCell s o target sync).pending = s.pending ∧ (State.parentCell s o target sync).flash = s.flash := by
  unfold State.parentCell
  grind [State.acquire_kept, State.raise_pending, State.raise_flash, State.slew_kept]

@[simp] theorem State.timeCell_kept (s : State) (l : Nat) (c : TimeCell) :
    (State.timeCell s l c).pending = s.pending ∧ (State.timeCell s l c).flash = s.flash := by
  unfold State.timeCell
  grind [State.follow_kept, State.parentCell_kept, State.timeComplaints_kept]

theorem execTimeCell_still (l : LinkId) (c : TimeCell) (s : State) : Still s (execTimeCell l c s) := by
  simp [execTimeCell]

@[simp] theorem State.reparent_kept (s : State) : (State.reparent s).pending = s.pending ∧ (State.reparent s).flash = s.flash := by
  unfold State.reparent
  grind [State.acquire_kept, State.follow_kept]

theorem execParentLossTimeout_still (s : State) : Still s (execParentLossTimeout s) := by
  simp [execParentLossTimeout]

theorem execHoldoverTimeout_still (s : State) : Still s (execHoldoverTimeout s) := by
  simp [execHoldoverTimeout]

theorem execSyncPulseDrive_still (k : Pulse) (foreign : Bool) (s : State) : Still s (execSyncPulseDrive k foreign s) := by
  unfold execSyncPulseDrive
  grind [still_next, State.emit_pending, State.emit_flash, State.raise_pending, State.raise_flash]

theorem execSyncPulseReceive_still (width at_ : Nat) (s : State) : Still s (execSyncPulseReceive width at_ s) := by
  simp [execSyncPulseReceive]

theorem execSyncMarkMissed_still (s : State) : Still s (execSyncMarkMissed s) := by
  simp [execSyncMarkMissed]

theorem execFabricTimeUnitFailure_still (s : State) : Still s (execFabricTimeUnitFailure s) := by
  simp [execFabricTimeUnitFailure]

theorem execTimeStatus_still (src : Src) (s : State) : Still s (execTimeStatus src s) := by
  simp [execTimeStatus]

theorem execTimeSet_still (src : Src) (t : Nat) (s : State) : Still s (execTimeSet src t s) := by
  simp [execTimeSet]

@[simp] theorem State.linkDown_kept (s : State) (l cause : Nat) (st : LinkSt) (say : Bool) :
    (State.linkDown s l cause st say).pending = s.pending ∧ (State.linkDown s l cause st say).flash = s.flash := by
  simp [State.linkDown]

@[simp] theorem State.linkLoss_kept (s : State) (l cause : Nat) :
    (State.linkLoss s l cause).pending = s.pending ∧ (State.linkLoss s l cause).flash = s.flash := by
  simp [State.linkLoss]

@[simp] theorem State.trainStart_kept (s : State) (l : Nat) :
    (State.trainStart s l).pending = s.pending ∧ (State.trainStart s l).flash = s.flash := by
  simp [State.trainStart]

@[simp] theorem State.unschedSlot_kept (s : State) (l : Nat) :
    (State.unschedSlot s l).1.pending = s.pending ∧ (State.unschedSlot s l).1.flash = s.flash := by
  unfold State.unschedSlot
  grind [State.modLx_pending, State.modLx_flash]

@[simp] theorem State.schedSlot_kept (s : State) (l : Nat) :
    (State.schedSlot s l).1.pending = s.pending ∧ (State.schedSlot s l).1.flash = s.flash := by
  unfold State.schedSlot
  grind [State.modLx_pending, State.modLx_flash]

@[simp] theorem State.flitOut_kept (s : State) (l : Nat) (slots : List TxSlot) :
    (State.flitOut s l slots).pending = s.pending ∧ (State.flitOut s l slots).flash = s.flash := by
  simp [State.flitOut]

@[simp] theorem State.flitAgain_kept (s : State) (l : Nat) (f : TxFlit) (rest : List TxFlit) :
    (State.flitAgain s l f rest).pending = s.pending ∧ (State.flitAgain s l f rest).flash = s.flash := by
  simp [State.flitAgain]

theorem execFlitSend_still (l : LinkId) (s : State) : Still s (execFlitSend l s) := by
  unfold execFlitSend
  dsimp only
  repeat' split
  all_goals simp

@[simp] theorem State.linkAck_kept (s : State) (l ack : Nat) :
    (State.linkAck s l ack).pending = s.pending ∧ (State.linkAck s l ack).flash = s.flash := by
  simp [State.linkAck]

@[simp] theorem State.swapStart_kept (s : State) (l q : Nat) :
    (State.swapStart s l q).pending = s.pending ∧ (State.swapStart s l q).flash = s.flash := by
  unfold State.swapStart
  grind [State.modLink_pending, State.modLink_flash]

@[simp] theorem State.controlCell_kept (s : State) (l : Nat) (c : CtlCell) :
    (State.controlCell s l c).pending = s.pending ∧ (State.controlCell s l c).flash = s.flash := by
  simp [State.controlCell]

theorem execControlCell_still (l : LinkId) (c : CtlCell) (s : State) : Still s (execControlCell l c s) := by
  simp [execControlCell]

@[simp] theorem State.rxSlot_kept (s : State) (l : Nat) (f : FlitSlot) :
    (s.rxSlot l f).pending = s.pending ∧ (s.rxSlot l f).flash = s.flash := by
  cases f <;> simp [State.rxSlot]

theorem execFlitReceive_still (l : LinkId) (f : Flit) (s : State) : Still s (execFlitReceive l f s) := by
  unfold execFlitReceive
  dsimp only
  repeat' split
  all_goals simp

theorem execLinkAckTimeout_still (l : LinkId) (s : State) : Still s (execLinkAckTimeout l s) := by
  simp [execLinkAckTimeout]

theorem execLinkSignalLoss_still (l : LinkId) (lane : Fin 9) (s : State) : Still s (execLinkSignalLoss l lane s) := by
  unfold execLinkSignalLoss
  grind [still_next, State.linkLoss_kept, State.swapStart_kept]

theorem execLinkTrainingComplete_still (l : LinkId) (t : Training) (s : State) : Still s (execLinkTrainingComplete l t s) := by
  simp [execLinkTrainingComplete]

theorem execLinkRetrainDelayExpiry_still (l : LinkId) (s : State) : Still s (execLinkRetrainDelayExpiry l s) := by
  unfold execLinkRetrainDelayExpiry
  grind [still_next, State.trainStart_kept]

theorem execFlightRemeasure_still (l : LinkId) (f : Nat) (s : State) : Still s (execFlightRemeasure l f s) := by
  simp [execFlightRemeasure]

theorem execLaneErrorCheck_still (l : LinkId) (s : State) : Still s (execLaneErrorCheck l s) := by
  unfold execLaneErrorCheck
  grind [still_next, State.modLink_pending, State.modLink_flash, State.swapStart_kept]

@[simp] theorem State.swapDone_kept (s : State) (l : Nat) (w : Swap) :
    (State.swapDone s l w).pending = s.pending ∧ (State.swapDone s l w).flash = s.flash := by
  simp [State.swapDone]

theorem execLaneSwap_still (l : LinkId) (s : State) : Still s (execLaneSwap l s) := by
  unfold execLaneSwap
  grind [still_next, State.modLink_pending, State.modLink_flash, State.modLx_pending, State.modLx_flash, State.swapDone_kept]

@[simp] theorem State.linkDisable_kept (s : State) (l : Nat) :
    (State.linkDisable s l).pending = s.pending ∧ (State.linkDisable s l).flash = s.flash := by
  simp [State.linkDisable]

@[simp] theorem State.linkCtl_kept (s : State) (l v : Nat) :
    (State.linkCtl s l v).pending = s.pending ∧ (State.linkCtl s l v).flash = s.flash := by
  simp [State.linkCtl]

theorem execLinkCtlEnableClear_still (l : LinkId) (s : State) : Still s (execLinkCtlEnableClear l s) := by
  simp [execLinkCtlEnableClear]

theorem execLinkCtlRetrain_still (l : LinkId) (s : State) : Still s (execLinkCtlRetrain l s) := by
  simp [execLinkCtlRetrain]

@[simp] theorem State.linkAct_kept (s : State) (l action : Nat) :
    (State.linkAct s l action).1.pending = s.pending ∧ (State.linkAct s l action).1.flash = s.flash := by
  unfold State.linkAct
  grind [State.linkDisable_kept, State.linkDown_kept, State.modLink_pending, State.modLink_flash, State.modLx_pending, State.modLx_flash,
    State.trainStart_kept]

theorem execLinkSet_still (src : Src) (mask action mode : Nat) (s : State) : Still s (execLinkSet src mask action mode s) := by
  refine still_next.2 (State.command_kept _ _ _ _ _ ?_)
  simp

theorem execLinkStatus_still (src : Src) (link : Nat) (s : State) : Still s (execLinkStatus src link s) := by
  simp [execLinkStatus]

theorem execRouteCommitTakeEffect_still (s : State) : Still s (execRouteCommitTakeEffect s) := by
  unfold execRouteCommitTakeEffect
  grind [still_next]

theorem execRouteWrite_still (src : Src) (version table first count rsv : Nat) (entries : List Byte) (s : State) :
    Still s (execRouteWrite src version table first count rsv entries s) := by
  simp [execRouteWrite]

theorem execRouteCommit_still (src : Src) (version t : Nat) (s : State) : Still s (execRouteCommit src version t s) := by
  simp [execRouteCommit]

theorem execRouteStatus_still (src : Src) (s : State) : Still s (execRouteStatus src s) := by
  simp [execRouteStatus]

theorem execWindowSet_still (src : Src) (ctx window rctx route base len : Nat) (s : State) :
    Still s (execWindowSet src ctx window rctx route base len s) := by
  simp [execWindowSet]

@[simp] theorem State.flushQueue_kept (s : State) (e q : Nat) :
    (State.flushQueue s e q).pending = s.pending ∧ (State.flushQueue s e q).flash = s.flash := by
  simp [State.flushQueue]

@[simp] theorem State.epochFlush_kept (s : State) (e : Nat) :
    (State.epochFlush s e).1.pending = s.pending ∧ (State.epochFlush s e).1.flash = s.flash := by
  simp [State.epochFlush]

theorem execEpochFlush_still (src : Src) (epoch : Nat) (s : State) : Still s (execEpochFlush src epoch s) := by
  simp [execEpochFlush]

@[simp] theorem State.modSlot_kept (s : State) (d e : Nat) (f : SlotE → SlotE) :
    (State.modSlot s d e f).pending = s.pending ∧ (State.modSlot s d e f).flash = s.flash := by
  simp [State.modSlot]

@[simp] theorem State.schedRelease_kept (s : State) (r : Nat) :
    (State.schedRelease s r).pending = s.pending ∧ (State.schedRelease s r).flash = s.flash := by
  simp [State.schedRelease]

@[simp] theorem State.launchDone_kept (s : State) (r : Nat) :
    (State.launchDone s r).pending = s.pending ∧ (State.launchDone s r).flash = s.flash := by
  simp [State.launchDone]

@[simp] theorem State.startPeriod_kept (s : State) (r p n a mask : Nat) :
    (State.startPeriod s r p n a mask).pending = s.pending ∧ (State.startPeriod s r p n a mask).flash = s.flash := by
  simp [State.startPeriod]

@[simp] theorem State.psyncDone_kept (s : State) (r d p : Nat) :
    (State.psyncDone s r d p).pending = s.pending ∧ (State.psyncDone s r d p).flash = s.flash := by
  unfold State.psyncDone
  grind [State.launchDone_kept, State.modRecX_pending, State.modRecX_flash]

theorem execPsyncWrite_still (d : CdId) (p : PTile) (rd : Fin 32) (value : Word) (s : State) : Still s (execPsyncWrite d p rd value s) := by
  unfold execPsyncWrite
  grind [State.modCd_pending, State.modCd_flash, State.modRecX_pending, State.modRecX_flash, State.modTile_pending, State.modTile_flash,
    State.muleFault_kept, State.muleStep_still, State.psyncDone_kept, State.retire_kept]

theorem execPsyncInsertionEnd_still (d : CdId) (p : PTile) (s : State) : Still s (execPsyncInsertionEnd d p s) := by
  unfold execPsyncInsertionEnd
  grind [still_next, State.modMem_pending, State.modMem_flash, State.psyncDone_kept]

theorem execPeriodStart_still (r : Fin 16) (refresh replay : Bool) (s : State) : Still s (execPeriodStart r refresh replay s) := by
  simp [execPeriodStart]

theorem execPeriodLagTimeout_still (r : Fin 16) (s : State) : Still s (execPeriodLagTimeout r s) := by
  simp [execPeriodLagTimeout]

theorem execSlotArm_still (d : CdId) (p : PTile) (rd rs1 rs2 : Fin 32) (s : State) : Still s (execSlotArm d p rd rs1 rs2 s) := by
  unfold execSlotArm
  grind [State.issue_still, State.modSlot_kept]

@[simp] theorem State.slotDiscard_kept (s : State) (d : Nat) :
    (State.slotDiscard s d).pending = s.pending ∧ (State.slotDiscard s d).flash = s.flash := by
  simp [State.slotDiscard]

@[simp] theorem State.slotWrite_kept (s : State) (d x : Nat) (e : SlotE) (off : Nat) (data : List Byte) :
    (State.slotWrite s d x e off data).1.pending = s.pending ∧ (State.slotWrite s d x e off data).1.flash = s.flash := by
  unfold State.slotWrite
  grind [State.modTile_pending, State.modTile_flash, State.vaWrite_kept]

theorem execSlotData_still (d : CdId) (k : Packet) (arrival : Nat) (s : State) : Still s (execSlotData d k arrival s) := by
  unfold execSlotData
  grind [still_next, State.endPeriod_kept, State.modCd_pending, State.modCd_flash, State.modSlot_kept, State.raise_pending,
    State.raise_flash, State.slotDiscard_kept, State.slotWrite_kept]

@[simp] theorem State.slotHalt_kept (s : State) (d i : Nat) (c : Err) :
    (State.slotHalt s d i c).pending = s.pending ∧ (State.slotHalt s d i c).flash = s.flash := by
  simp [State.slotHalt]

theorem execSlotConsume_still (d : CdId) (e : Fin 4096) (s : State) : Still s (execSlotConsume d e s) := by
  unfold execSlotConsume
  grind [still_next, State.endPeriod_kept, State.modCd_pending, State.modCd_flash, State.modSlot_kept, State.slotHalt_kept]

theorem execSchedCollFetchStart_still (r : Fin 16) (i : Nat) (s : State) : Still s (execSchedCollFetchStart r i s) := by
  unfold execSchedCollFetchStart
  grind [still_next, State.collProgress_kept, State.endPeriod_kept, State.modBind_pending, State.modBind_flash, State.modBindX_pending,
    State.modBindX_flash, State.modRecX_pending, State.modRecX_flash]

@[simp] theorem State.wakeAct_kept (s : State) (r : Nat) (w : WakeP) :
    (State.wakeAct s r w).pending = s.pending ∧ (State.wakeAct s r w).flash = s.flash := by
  unfold State.wakeAct
  grind [State.modRec_pending, State.modRec_flash, State.modSleep_pending, State.modSleep_flash]

theorem execWakePoint_still (r : Fin 16) (i : Nat) (s : State) : Still s (execWakePoint r i s) := by
  unfold execWakePoint
  grind [still_next, State.modRecX_pending, State.modRecX_flash, State.wakeAct_kept]

theorem execLaunchPrewake_still (r : Fin 16) (s : State) : Still s (execLaunchPrewake r s) := by
  generalize h : execLaunchPrewake r s = o
  unfold execLaunchPrewake at h
  generalize State.wakeUnit = wake at h
  rw [← h]
  refine still_ite (still_next.2 ⟨rfl, rfl⟩) (still_next.2 ?_)
  refine foldl_kept_from id ⟨rfl, rfl⟩ fun s w => ?_
  generalize wake s w.kind w.unit = u
  cases u <;> simp

theorem execUnitWake_still (u : SleepUnit) (s : State) : Still s (execUnitWake u s) := by
  simp [execUnitWake]

theorem execUnitIdleTimerExpiry_still (u : SleepUnit) (s : State) : Still s (execUnitIdleTimerExpiry u s) := by
  simp [execUnitIdleTimerExpiry]

theorem execSchedAbortSend_still (r : Fin 16) (s : State) : Still s (execSchedAbortSend r s) := by
  simp [execSchedAbortSend]

theorem execSchedAbortPacket_still (k : Packet) (s : State) : Still s (execSchedAbortPacket k s) := by
  unfold execSchedAbortPacket
  grind [still_next, State.endPeriod_kept, State.raise_pending, State.raise_flash]

theorem execLaunchResourcesRelease_still (r : Fin 16) (s : State) : Still s (execLaunchResourcesRelease r s) := by
  simp [execLaunchResourcesRelease]

@[simp] theorem State.slotsDrop_kept (s : State) (x : Nat) :
    (State.slotsDrop s x).pending = s.pending ∧ (State.slotsDrop s x).flash = s.flash := by
  simp [State.slotsDrop]

@[simp] theorem State.slotPut_kept (s : State) (e : Nat × SlotE) :
    (State.slotPut s e).pending = s.pending ∧ (State.slotPut s e).flash = s.flash := by
  simp [State.slotPut]

@[simp] theorem State.schedPut_kept (s : State) (x : Nat) (i : SImage) :
    (State.schedPut s x i).pending = s.pending ∧ (State.schedPut s x i).flash = s.flash := by
  simp [State.schedPut]

theorem execSchedLoad_still (src : Src) (ctx va len : Nat) (s : State) : Still s (execSchedLoad src ctx va len s) := by
  simp [execSchedLoad]

@[simp] theorem State.recsFree_kept (s : State) (x : Nat) :
    (State.recsFree s x).pending = s.pending ∧ (State.recsFree s x).flash = s.flash := by
  simp [State.recsFree]

@[simp] theorem State.schedDrop_kept (s : State) (x : Nat) :
    (State.schedDrop s x).pending = s.pending ∧ (State.schedDrop s x).flash = s.flash := by
  simp [State.schedDrop]

theorem execSchedUnload_still (src : Src) (ctx : Nat) (s : State) : Still s (execSchedUnload src ctx s) := by
  simp [execSchedUnload]

theorem execSchedStatus_still (src : Src) (key : Nat) (s : State) : Still s (execSchedStatus src key s) := by
  simp [execSchedStatus]

theorem execSchedStop_still (src : Src) (ctx last : Nat) (s : State) : Still s (execSchedStop src ctx last s) := by
  simp [execSchedStop]

theorem execSchedAbort_still (src : Src) (ctx : Nat) (s : State) : Still s (execSchedAbort src ctx s) := by
  simp [execSchedAbort]

@[simp] theorem State.passFull_kept (s : State) (d p : Nat) (q : Pass) :
    (State.passFull s d p q).pending = s.pending ∧ (State.passFull s d p q).flash = s.flash := by
  simp [State.passFull]

@[simp] theorem State.stopArray_kept (s : State) (d p : Nat) :
    (State.stopArray s d p).pending = s.pending ∧ (State.stopArray s d p).flash = s.flash := by
  simp [State.stopArray]

@[simp] theorem State.abortArray_kept (s : State) (d p : Nat) :
    (State.abortArray s d p).pending = s.pending ∧ (State.abortArray s d p).flash = s.flash := by
  simp [State.abortArray]

@[simp] theorem State.stopEe_kept (s : State) (d p : Nat) :
    (State.stopEe s d p).pending = s.pending ∧ (State.stopEe s d p).flash = s.flash := by
  unfold State.stopEe
  grind [State.drew_pending, State.drew_flash, State.modEe_pending, State.modEe_flash, State.modTile_pending, State.modTile_flash,
    State.orFlags_kept, VaRes.rows_kept]

@[simp] theorem State.abortEe_kept (s : State) (d p : Nat) :
    (State.abortEe s d p).pending = s.pending ∧ (State.abortEe s d p).flash = s.flash := by
  unfold State.abortEe
  grind [State.modTile_pending, State.modTile_flash, State.stopEe_kept, State.unitFault_kept]

@[simp] theorem State.dropWaiters_kept (s : State) (d : Nat) (gone : FaultRec → Requester → Bool) :
    (State.dropWaiters s d gone).pending = s.pending ∧ (State.dropWaiters s d gone).flash = s.flash := by
  simp [State.dropWaiters]

@[simp] theorem State.stopEng_kept (s : State) (d e : Nat) :
    (State.stopEng s d e).pending = s.pending ∧ (State.stopEng s d e).flash = s.flash := by
  unfold State.stopEng
  grind [State.copyRun_kept, State.dmaFail_kept, State.drew_pending, State.drew_flash, State.modCd_pending, State.modCd_flash,
    State.modEng_kept]

@[simp] theorem State.abortEng_kept (s : State) (d e : Nat) :
    (State.abortEng s d e).pending = s.pending ∧ (State.abortEng s d e).flash = s.flash := by
  simp [State.abortEng]

@[simp] theorem State.abortHen_kept (s : State) (d : Nat) :
    (State.abortHen s d).pending = s.pending ∧ (State.abortHen s d).flash = s.flash := by
  simp [State.abortHen]

@[simp] theorem State.abortUnit_kept (s : State) (d kind index : Nat) :
    (State.abortUnit s d kind index).pending = s.pending ∧ (State.abortUnit s d kind index).flash = s.flash := by
  unfold State.abortUnit
  grind [State.abortArray_kept, State.abortEe_kept, State.abortEng_kept, State.abortHen_kept, State.muleFault_kept]

theorem execUnitDisable_still (src : Src) (die kind index mode : Nat) (s : State) :
    Still s (execUnitDisable src die kind index mode s) := by
  simp [execUnitDisable]

@[simp] theorem State.enableUnit_kept (s : State) (d kind index : Nat) :
    (State.enableUnit s d kind index).pending = s.pending ∧ (State.enableUnit s d kind index).flash = s.flash := by
  unfold State.enableUnit
  grind [State.modArr_pending, State.modArr_flash, State.modCd_pending, State.modCd_flash, State.modEe_pending, State.modEe_flash,
    State.modEng_kept, State.modTile_pending, State.modTile_flash]

theorem execUnitEnable_still (src : Src) (die kind index : Nat) (s : State) : Still s (execUnitEnable src die kind index s) := by
  simp [execUnitEnable]

@[simp] theorem State.stopUnits_kept (s : State) (x : Nat) :
    (State.stopUnits s x).pending = s.pending ∧ (State.stopUnits s x).flash = s.flash := by
  simp [State.stopUnits]

@[simp] theorem State.stopMules_kept (s : State) (x : Nat) :
    (State.stopMules s x).pending = s.pending ∧ (State.stopMules s x).flash = s.flash := by
  simp [State.stopMules]

theorem execCtxSave_still (src : Src) (ctx : Nat) (s : State) : Still s (execCtxSave src ctx s) := by
  simp [execCtxSave]

@[simp] theorem State.holdJobs_kept (s : State) (d x : Nat) :
    (State.holdJobs s d x).pending = s.pending ∧ (State.holdJobs s d x).flash = s.flash := by
  simp [State.holdJobs]

@[simp] theorem State.writeSave_kept (s : State) (v : SavedTile) (t : Tile) :
    (State.writeSave s v t).pending = s.pending ∧ (State.writeSave s v t).flash = s.flash := by
  simp [State.writeSave]

@[simp] theorem State.vacate_kept (s : State) (v : SavedTile) (p : Nat) :
    (State.vacate s v p).pending = s.pending ∧ (State.vacate s v p).flash = s.flash := by
  simp [State.vacate]

/-- Two buffers given back one after the other, for each of a list. -/
theorem foldl_free_kept {α : Type} {free : State → Nat → Nat → Nat → State × Err}
    (hfree : ∀ s d r a, (free s d r a).1.pending = s.pending ∧ (free s d r a).1.flash = s.flash) (d a b : α → Nat) (s : State)
    (l : List α) :
    (l.foldl (fun s v => (free (free s (d v) 10 (a v)).1 (d v) 10 (b v)).1) s).pending = s.pending ∧
      (l.foldl (fun s v => (free (free s (d v) 10 (a v)).1 (d v) 10 (b v)).1) s).flash = s.flash :=
  foldl_kept fun s v => ⟨by rw [(hfree ..).1, (hfree ..).1], by rw [(hfree ..).2, (hfree ..).2]⟩

@[simp] theorem State.takeBuffers_kept (s : State) (ts : List (Nat × Nat × Nat)) :
    (s.takeBuffers ts).1.pending = s.pending ∧ (s.takeBuffers ts).1.flash = s.flash := by
  generalize h : s.takeBuffers ts = x
  unfold State.takeBuffers at h
  have hfree := State.bpFree_kept
  have halloc := State.bpAlloc_kept
  generalize State.bpFree = free at h hfree
  generalize State.bpAlloc = alloc at h halloc
  extract_lets r at h
  have hr : r.1.pending = s.pending ∧ r.1.flash = s.flash := by
    refine foldl_kept_of (fun x : State × List (Nat × Nat) × Option Err => x.1) fun r t => ?_
    grind
  clear_value r
  obtain ⟨s1, held, e⟩ := r
  cases e with
  | none =>
    rw [← h]
    exact hr
  | some e =>
    have hl := foldl_free_kept hfree (·.1.1) (·.2.1) (·.2.2) s1 (ts.zip held)
    generalize List.foldl _ s1 _ = s2 at h hl
    rw [← h]
    exact ⟨hl.1.trans hr.1, hl.2.trans hr.2⟩

@[simp] theorem State.freeBuffers_kept (s : State) (x : Nat) :
    (s.freeBuffers x).pending = s.pending ∧ (s.freeBuffers x).flash = s.flash := by
  generalize h : s.freeBuffers x = t
  unfold State.freeBuffers at h
  have hl := foldl_free_kept State.bpFree_kept (·.die) (·.buf) (·.store) s (s.cxx x).saves
  generalize List.foldl _ s _ = s1 at h hl
  rw [← h]
  exact hl

theorem execCtxSaveComplete_still (ctx : Nat) (s : State) : Still s (execCtxSaveComplete ctx s) := by
  generalize h : execCtxSaveComplete ctx s = o
  unfold execCtxSaveComplete at h
  have htake := State.takeBuffers_kept
  generalize State.takeBuffers = take at h htake
  generalize (s.cxx ctx).saveReply = reply at h
  cases reply with
  | none => simp [← h]
  | some src =>
    dsimp only at h
    generalize hs : (((s.modCxx ctx fun v => { v with saveReply := none }) : State)) = s1 at h
    generalize hs2 : State.freeBuffers _ ctx = s2 at h
    have hkept : s2.pending = s.pending ∧ s2.flash = s.flash := by
      rw [← hs2, ← hs]
      simp
    have h3 := htake s2 (s2.ctxLogical ctx)
    generalize take s2 (s2.ctxLogical ctx) = w at h h3
    rw [← h]
    refine still_ite (still_next.2 ⟨rfl, rfl⟩) ?_
    obtain ⟨s3, e | bufs⟩ := w
    · simp_all
    · simp_all

@[simp] theorem State.restoreTile_kept (s : State) (x : Nat) (v : SavedTile) (hen : Nat) :
    (State.restoreTile s x v hen).pending = s.pending ∧ (State.restoreTile s x v hen).flash = s.flash := by
  simp [State.restoreTile]

@[simp] theorem State.bindSlot_kept (s : State) (d x l1 : Nat) :
    (State.bindSlot s d x l1).pending = s.pending ∧ (State.bindSlot s d x l1).flash = s.flash := by
  unfold State.bindSlot
  grind [State.modCd_pending, State.modCd_flash]

@[simp] theorem State.slotMode_kept (s : State) (x mask : Nat) (fail : Bool) :
    (State.slotMode s x mask fail).pending = s.pending ∧ (State.slotMode s x mask fail).flash = s.flash := by
  simp [State.slotMode]

@[simp] theorem State.unbindSlots_kept (s : State) (x : Nat) :
    (State.unbindSlots s x).pending = s.pending ∧ (State.unbindSlots s x).flash = s.flash := by
  simp [State.unbindSlots]

theorem execCtxCreate_still (src : Src) (want flags rsv mask l1 : Nat) (s : State) :
    Still s (execCtxCreate src want flags rsv mask l1 s) := by
  simp [execCtxCreate]

@[simp] theorem State.dieCtxEnd_kept (s : State) (d x : Nat) :
    (State.dieCtxEnd s d x).pending = s.pending ∧ (State.dieCtxEnd s d x).flash = s.flash := by
  simp [State.dieCtxEnd]

@[simp] theorem State.ctxUnitsEnd_kept (s : State) (x : Nat) :
    (State.ctxUnitsEnd s x).pending = s.pending ∧ (State.ctxUnitsEnd s x).flash = s.flash := by
  simp [State.ctxUnitsEnd]

@[simp] theorem State.destroyCtx_kept (s : State) (x : Nat) :
    (State.destroyCtx s x).pending = s.pending ∧ (State.destroyCtx s x).flash = s.flash := by
  simp [State.destroyCtx]

theorem execCtxDestroy_still (src : Src) (ctx : Nat) (s : State) : Still s (execCtxDestroy src ctx s) := by
  simp [execCtxDestroy]

theorem execCtxReset_still (src : Src) (ctx : Nat) (s : State) : Still s (execCtxReset src ctx s) := by
  simp [execCtxReset]

theorem execCtxStatus_still (src : Src) (ctx : Nat) (s : State) : Still s (execCtxStatus src ctx s) := by
  simp [execCtxStatus]

theorem execCtxList_still (src : Src) (first : Nat) (s : State) : Still s (execCtxList src first s) := by
  simp [execCtxList]

theorem execCtxAdopt_still (src : Src) (ctx : Nat) (s : State) : Still s (execCtxAdopt src ctx s) := by
  simp [execCtxAdopt]

theorem execCtxHalt_still (src : Src) (ctx : Nat) (s : State) : Still s (execCtxHalt src ctx s) := by
  simp [execCtxHalt]

theorem execMemPfResolve_still (src : Src) (die action id : Nat) (s : State) : Still s (execMemPfResolve src die action id s) := by
  simp [execMemPfResolve]

theorem execTlbFlush_still (src : Src) (ctx mask all va pages : Nat) (s : State) : Still s (execTlbFlush src ctx mask all va pages s) := by
  simp [execTlbFlush]

theorem execExportSet_still (src : Src) (die entry : Nat) (data : List Byte) (s : State) :
    Still s (execExportSet src die entry data s) := by
  simp [execExportSet]

theorem execPoolSet_still (src : Src) (die region : Nat) (counts : List Nat) (quotas : List (Nat × Nat)) (s : State) :
    Still s (execPoolSet src die region counts quotas s) := by
  simp [execPoolSet]

theorem execMemModeSet_still (src : Src) (ctx mask mode : Nat) (s : State) : Still s (execMemModeSet src ctx mask mode s) := by
  simp [execMemModeSet]

theorem execPoolStatus_still (src : Src) (die : Nat) (s : State) : Still s (execPoolStatus src die s) := by
  simp [execPoolStatus]

@[simp] theorem State.progTile_kept (s : State) (x : Nat) (i : PImage) (d t : Nat) :
    (State.progTile s x i d t).pending = s.pending ∧ (State.progTile s x i d t).flash = s.flash := by
  simp [State.progTile]

@[simp] theorem State.progPut_kept (s : State) (x mask : Nat) (i : PImage) :
    (State.progPut s x mask i).pending = s.pending ∧ (State.progPut s x mask i).flash = s.flash := by
  simp [State.progPut]

theorem execProgLoad_still (src : Src) (ctx mask va len : Nat) (s : State) : Still s (execProgLoad src ctx mask va len s) := by
  simp [execProgLoad]

@[simp] theorem State.slotsLaunch_kept (s : State) (x p0 : Nat) :
    (State.slotsLaunch s x p0).pending = s.pending ∧ (State.slotsLaunch s x p0).flash = s.flash := by
  simp [State.slotsLaunch]

@[simp] theorem State.armRec_kept (s : State) (r x t0 p0 : Nat) (notify : Bool) :
    (State.armRec s r x t0 p0 notify).pending = s.pending ∧ (State.armRec s r x t0 p0 notify).flash = s.flash := by
  simp [State.armRec]

@[simp] theorem State.startTiles_kept (s : State) (x : Nat) :
    (State.startTiles s x).pending = s.pending ∧ (State.startTiles s x).flash = s.flash := by
  simp [State.startTiles]

@[simp] theorem State.startFree_kept (s : State) (x : Nat) :
    (State.startFree s x).pending = s.pending ∧ (State.startFree s x).flash = s.flash := by
  simp [State.startFree]

theorem execLaunch_still (src : Src) (ctx flags t0 p0 : Nat) (s : State) : Still s (execLaunch src ctx flags t0 p0 s) := by
  simp [execLaunch]

theorem execLaunchStart_still (x : Fin 4096) (s : State) : Still s (execLaunchStart x s) := by
  unfold execLaunchStart
  grind [still_next, State.modRec_pending, State.modRec_flash, State.modRecX_pending, State.modRecX_flash, State.setCtx_pending,
    State.setCtx_flash, State.startFree_kept, State.startPeriod_kept, State.startTiles_kept]

@[simp] theorem State.extend_kept (s : State) (k : Nat) (digest : List Byte) :
    (State.extend s k digest).pending = s.pending ∧ (State.extend s k digest).flash = s.flash := by
  simp [State.extend]

@[simp] theorem State.storePut_kept (s : State) (d : Nat) (b : List Byte) :
    (State.storePut s d b).pending = s.pending ∧ (State.storePut s d b).flash = s.flash := by
  simp [State.storePut]

theorem execRoutineLoad_still (src : Src) (ctx mask va len : Nat) (s : State) : Still s (execRoutineLoad src ctx mask va len s) := by
  simp [execRoutineLoad]

@[simp] theorem State.patchPut_kept (s : State) (d : Nat) (k : PatchImage) :
    (State.patchPut s d k).pending = s.pending ∧ (State.patchPut s d k).flash = s.flash := by
  simp [State.patchPut]

theorem execRoutinePatch_still (src : Src) (ctx mask va len : Nat) (s : State) : Still s (execRoutinePatch src ctx mask va len s) := by
  simp [execRoutinePatch]

/-! What leaves the queue and the flash: units, host ports, mailboxes, health, security and power (sections 14 to 20) -/

theorem State.stepLr_still (s : State) (d : CdId) (p : PTile) (w : Nat) : Still s (State.stepLr s d p w) := by
  unfold State.stepLr
  grind [execAsStream_still, execDmaCopy_still, execEeCompress_still, execEeExpand_still, execEeRun_still, execEndOp_still,
    execHenLaunch_still, execHenLaunchU_still, execLrTest_still, execLrWait_still, execMaPass_still, execSlotArm_still]

theorem State.stepInsn_still (s : State) (d : CdId) (p : PTile) : Still s (State.stepInsn s d p) := by
  unfold State.stepInsn
  grind [State.stepLr_still, execCallr_still, execEbreak_still, execMuleInstruction_still, execPsyncWrite_still, execRetr_still,
    execUrBr_still, execUrJoin_still]

theorem Out.state_kept {s : State} {o : Out} (h : Still s o) : (o.state s).pending = s.pending ∧ (o.state s).flash = s.flash := by
  obtain ⟨t, rfl, ht⟩ := h
  exact ht

theorem execDbgBreakSet_still (src : Src) (ctx die tile ctl inst lrc : Nat) (s : State) :
    Still s (execDbgBreakSet src ctx die tile ctl inst lrc s) := by
  simp [execDbgBreakSet]

theorem execDbgResume_still (src : Src) (ctx mask : Nat) (s : State) : Still s (execDbgResume src ctx mask s) := by
  simp [execDbgResume]

theorem execDbgStep_still (src : Src) (ctx die tile : Nat) (s : State) : Still s (execDbgStep src ctx die tile s) := by
  refine still_next.2 (State.ownCommand_kept _ _ _ _ ?_)
  have hstep (t : State) (d : CdId) (p : PTile) := Out.state_kept (State.stepInsn_still t d p)
  dsimp only
  split <;> simp [hstep]

theorem execDbgHalt_still (src : Src) (ctx die tile : Nat) (s : State) : Still s (execDbgHalt src ctx die tile s) := by
  simp [execDbgHalt]

@[simp] theorem State.answer_kept (s : State) (src : Src) (cmd mbox : Nat) (e : Err) (payload : List Byte) :
    (State.answer s src cmd mbox e payload).pending = s.pending ∧ (State.answer s src cmd mbox e payload).flash = s.flash := by
  simp [State.answer]

@[simp] theorem State.failXfers_kept (s : State) (c : Nat) :
    (State.failXfers s c).pending = s.pending ∧ (State.failXfers s c).flash = s.flash := by
  simp [State.failXfers]

@[simp] theorem State.dropFrames_kept (s : State) (c : Nat) :
    (State.dropFrames s c).pending = s.pending ∧ (State.dropFrames s c).flash = s.flash := by
  simp [State.dropFrames]

@[simp] theorem State.resendNotices_kept (s : State) (c : Nat) :
    (State.resendNotices s c).pending = s.pending ∧ (State.resendNotices s c).flash = s.flash := by
  simp [State.resendNotices]

@[simp] theorem State.beginSession_kept (s : State) (c : Nat) (p : PendS) :
    (State.beginSession s c p).pending = s.pending ∧ (State.beginSession s c p).flash = s.flash := by
  unfold State.beginSession
  grind [State.dropFrames_kept, State.failXfers_kept, State.modSess_pending, State.modSess_flash, State.resendNotices_kept]

@[simp] theorem State.endSession_kept (s : State) (c st : Nat) :
    (State.endSession s c st).pending = s.pending ∧ (State.endSession s c st).flash = s.flash := by
  simp [State.endSession]

@[simp] theorem State.logSig_kept (s : State) (c : Nat) : (State.logSig s c).pending = s.pending ∧ (State.logSig s c).flash = s.flash := by
  unfold State.logSig
  grind [State.raise_pending, State.raise_flash]

@[simp] theorem State.discardFrame_kept (s : State) :
    (State.discardFrame s).pending = s.pending ∧ (State.discardFrame s).flash = s.flash := by
  simp [State.discardFrame]

@[simp] theorem State.acceptFrame_kept (s : State) (c m : Nat) (f : CmdFrame) (queue : Bool) :
    (State.acceptFrame s c m f queue).pending = s.pending ∧ (State.acceptFrame s c m f queue).flash = s.flash := by
  simp [State.acceptFrame]

@[simp] theorem State.takeFrame_kept (s : State) (src : Src) (f : CmdFrame) :
    (s.takeFrame src f).pending = s.pending ∧ (s.takeFrame src f).flash = s.flash := by
  simp only [State.takeFrame]
  repeat' split
  all_goals simp

@[simp] theorem State.mailboxFrame_kept (s : State) (c : Ctrl) (oob : Bool) (seg : List Byte) :
    (State.mailboxFrame s c oob seg).pending = s.pending ∧ (State.mailboxFrame s c oob seg).flash = s.flash := by
  unfold State.mailboxFrame
  dsimp only
  repeat' split
  all_goals simp

theorem execMailboxFrame_still (c : Ctrl) (oob : Bool) (seg : List Byte) (s : State) : Still s (execMailboxFrame c oob seg s) := by
  simp [execMailboxFrame]

theorem execMailboxCommandStart_still (c : Ctrl) (m : Mbox) (s : State) : Still s (execMailboxCommandStart c m s) := by
  unfold execMailboxCommandStart
  grind [still_next, State.modBox_pending, State.modBox_flash]

@[simp] theorem State.openReply_kept (s : State) (src : Src) (e : Err) (payload : List Byte) :
    (State.openReply s src e payload).pending = s.pending ∧ (State.openReply s src e payload).flash = s.flash := by
  simp [State.openReply]

theorem execSessionOpen_still (src : Src) (modulus exponent nonce : List Byte) (s : State) :
    Still s (execSessionOpen src modulus exponent nonce s) := by
  unfold execSessionOpen
  grind [still_next, State.beginSession_kept, State.drew_pending, State.drew_flash, State.openReply_kept]

theorem execSessionClose_still (src : Src) (s : State) : Still s (execSessionClose src s) := by
  simp [execSessionClose]

theorem execCtrlList_still (src : Src) (s : State) : Still s (execCtrlList src s) := by
  simp [execCtrlList]

@[simp] theorem State.queueCommit_kept (s : State) (c : Commit) :
    (State.queueCommit s c).pending = s.pending ∧ (State.queueCommit s c).flash = s.flash := by
  simp [State.queueCommit]

theorem execCtrlEnrol_still (src : Src) (who : Nat) (entry : List Byte) (rsv : Nat) (count : Nat) (keyHash sig : List Byte) (s : State) :
    Still s (execCtrlEnrol src who entry rsv count keyHash sig s) := by
  simp [execCtrlEnrol]

theorem execCtrlRevoke_still (src : Src) (who rsv count : Nat) (sig : List Byte) (s : State) :
    Still s (execCtrlRevoke src who rsv count sig s) := by
  simp [execCtrlRevoke]

@[simp] theorem State.ethDiscard_kept (s : State) (k i : Nat) :
    (State.ethDiscard s k i).pending = s.pending ∧ (State.ethDiscard s k i).flash = s.flash := by
  simp [State.ethDiscard]

theorem execEthFrameReceive_still (k : EthPort) (q : SubPort) (f : EthFrame) (s : State) : Still s (execEthFrameReceive k q f s) := by
  unfold execEthFrameReceive
  grind [still_next, State.ethDiscard_kept]

theorem execArpRequest_still (k : EthPort) (q : SubPort) (f : EthFrame) (s : State) : Still s (execArpRequest k q f s) := by
  simp [execArpRequest]

theorem execPfcFrame_still (k : EthPort) (q : SubPort) (enable : Nat) (quanta : List Nat) (s : State) :
    Still s (execPfcFrame k q enable quanta s) := by
  simp [execPfcFrame]

theorem execPfcPauseExpiry_still (k : EthPort) (q : SubPort) (n : Fin 8) (s : State) : Still s (execPfcPauseExpiry k q n s) := by
  simp [execPfcPauseExpiry]

@[simp] theorem State.sendPfc_kept (s : State) (k q n quanta : Nat) :
    (State.sendPfc s k q n quanta).pending = s.pending ∧ (State.sendPfc s k q n quanta).flash = s.flash := by
  simp [State.sendPfc]

@[simp] theorem State.modSub_kept (s : State) (k q : Nat) (f : SubSt → SubSt) :
    (State.modSub s k q f).pending = s.pending ∧ (State.modSub s k q f).flash = s.flash := by
  simp [State.modSub]

@[simp] theorem State.ingressBytes_kept (s : State) (k q n bytes : Nat) :
    (State.ingressBytes s k q n bytes).pending = s.pending ∧ (State.ingressBytes s k q n bytes).flash = s.flash := by
  simp [State.ingressBytes]

theorem execPfcRepeat_still (k : EthPort) (q : SubPort) (n : Fin 8) (s : State) : Still s (execPfcRepeat k q n s) := by
  unfold execPfcRepeat
  grind [still_next, State.modSub_kept, State.sendPfc_kept]

theorem execPfcXon_still (k : EthPort) (q : SubPort) (n : Fin 8) (drained : Nat) (s : State) : Still s (execPfcXon k q n drained s) := by
  simp [execPfcXon]

theorem execEgressFrameSelect_still (k : EthPort) (q : SubPort) (s : State) : Still s (execEgressFrameSelect k q s) := by
  unfold execEgressFrameSelect
  grind [still_next, State.drew_pending, State.drew_flash, State.emit_pending, State.emit_flash, State.modEth_pending,
    State.modEth_flash, State.modSess_pending, State.modSess_flash]

theorem execShaperWheelSlot_still (k : EthPort) (q : SubPort) (s : State) : Still s (execShaperWheelSlot k q s) := by
  simp [execShaperWheelSlot]

@[simp] theorem State.moveFrames_kept (s : State) (k q : Nat) :
    (State.moveFrames s k q).pending = s.pending ∧ (State.moveFrames s k q).flash = s.flash := by
  simp [State.moveFrames]

theorem execSubportLinkChange_still (k : EthPort) (q : SubPort) (up : Bool) (s : State) : Still s (execSubportLinkChange k q up s) := by
  simp [execSubportLinkChange]

theorem execPortSet_still (src : Src) (port mode jumbo txTag : Nat) (addrs : List Byte) (s : State) :
    Still s (execPortSet src port mode jumbo txTag addrs s) := by
  simp [execPortSet]

theorem execPortStatus_still (src : Src) (port : Nat) (s : State) : Still s (execPortStatus src port s) := by
  simp [execPortStatus]

theorem execMeterSet_still (src : Src) (port meter enable actions cir pir cbs pbs : Nat) (s : State) :
    Still s (execMeterSet src port meter enable actions cir pir cbs pbs s) := by
  simp [execMeterSet]

theorem execQueueSet_still (src : Src) (port sub queue weight rate burst : Nat) (s : State) :
    Still s (execQueueSet src port sub queue weight rate burst s) := by
  simp [execQueueSet]

theorem execEntrySet_still (src : Src) (rate : Nat) (s : State) : Still s (execEntrySet src rate s) := by
  simp [execEntrySet]

/-- A segment at the checks of a port (R378): a frame that goes no further keeps the queue and the flash. -/
theorem State.rxFront_kept {s t : State} {k q : Nat} {f : RxSegment} {type : Nat} (h : s.rxFront k q f type = .error t) :
    t.pending = s.pending ∧ t.flash = s.flash := by
  unfold State.rxFront at h
  grind [State.ethDiscard_kept, State.modEth_pending, State.modEth_flash]

@[simp] theorem State.badMac_kept (s : State) (k : Nat) : (State.badMac s k).pending = s.pending ∧ (State.badMac s k).flash = s.flash := by
  simp [State.badMac]

@[simp] theorem State.heard_kept (s : State) (k q c : Nat) (f : RxSegment) (meters : Tab Meter) :
    (State.heard s k q c f meters).pending = s.pending ∧ (State.heard s k q c f meters).flash = s.flash := by
  simp [State.heard]

@[simp] theorem State.fillWindow_kept (s : State) (c : Nat) :
    (State.fillWindow s c).pending = s.pending ∧ (State.fillWindow s c).flash = s.flash := by
  simp [State.fillWindow]

@[simp] theorem State.ackTo_kept (s : State) (c a : Nat) :
    (State.ackTo s c a).pending = s.pending ∧ (State.ackTo s c a).flash = s.flash := by
  simp [State.ackTo]

@[simp] theorem State.sendAck_kept (s : State) (c type : Nat) :
    (State.sendAck s c type).pending = s.pending ∧ (State.sendAck s c type).flash = s.flash := by
  simp [State.sendAck]

@[simp] theorem State.resend_kept (s : State) (c : Nat) : (State.resend s c).pending = s.pending ∧ (State.resend s c).flash = s.flash := by
  simp [State.resend]

@[simp] theorem State.accepted_kept (s : State) (c : Nat) (b : List Byte) :
    (State.accepted s c b).pending = s.pending ∧ (State.accepted s c b).flash = s.flash := by
  simp [State.accepted]

@[simp] theorem State.outOfOrder_kept (s : State) (c d : Nat) :
    (State.outOfOrder s c d).pending = s.pending ∧ (State.outOfOrder s c d).flash = s.flash := by
  simp [State.outOfOrder]

theorem execMboxSegment_still (k : EthPort) (q : SubPort) (f : RxSegment) (s : State) : Still s (execMboxSegment k q f s) := by
  unfold execMboxSegment
  split
  case h_1 t h => exact still_next.2 (State.rxFront_kept h)
  case h_2 c m h =>
    dsimp only
    refine still_ite (by simp) (still_ite (by simp) ?_)
    split <;> simp

@[simp] theorem State.endXfer_kept (s : State) (x : Nat) (e : Err) :
    (State.endXfer s x e).pending = s.pending ∧ (State.endXfer s x e).flash = s.flash := by
  simp [State.endXfer]

theorem State.putData_kept {s t : State} {c : Nat} {b : List Byte} {ue : Bool} (h : s.putData c b ue = some t) :
    t.pending = s.pending ∧ t.flash = s.flash := by
  unfold State.putData at h
  have hfree := State.bpFree_kept
  have halloc := State.bpAlloc_kept
  have hwrite := State.vaWrite_kept
  generalize State.bpFree = free at h hfree
  generalize State.bpAlloc = alloc at h halloc
  generalize State.vaWrite = write at h hwrite
  dsimp only at h
  iterate 4
    rcases ite_eq_iff.1 h with ⟨-, hend⟩ | ⟨-, h'⟩
    · clear h
      grind [State.endXfer_kept]
    replace h := h'
    clear h'
  have hgot := halloc s (s.xfer (fld b 16 2)).die c 2
  generalize alloc s (s.xfer (fld b 16 2)).die c 2 = got at h hgot
  obtain ⟨s1, e | a⟩ := got
  · cases h
  dsimp only at h hgot
  generalize hw : (if ue = true then (s1, HenEnd.fail Err.uncorr) else _) = w at h
  have hkept : w.1.pending = s1.pending ∧ w.1.flash = s1.flash := by grind
  grind [State.endXfer_kept, State.modXfer_pending, State.modXfer_flash]

theorem execDataSegment_still (k : EthPort) (q : SubPort) (f : RxSegment) (ue : Bool) (s : State) :
    Still s (execDataSegment k q f ue s) := by
  unfold execDataSegment
  split
  case h_1 t h => exact still_next.2 (State.rxFront_kept h)
  case h_2 c m h =>
    dsimp only
    refine still_ite (by simp) (still_ite (by simp) ?_)
    split
    · simp
    case h_2 t h => simp [State.putData_kept h]

theorem State.ackSeg_still {s : State} {k q : Nat} {f : RxSegment} {type : Nat} {run : State → Nat → State}
    (h : ∀ t c, (run t c).pending = t.pending ∧ (run t c).flash = t.flash) : Still s (s.ackSeg k q f type run) := by
  unfold State.ackSeg
  split
  case h_1 t ht => exact still_next.2 (State.rxFront_kept ht)
  case h_2 c m ht => exact still_ite (by simp) (by simp [h])

theorem execAckSegment_still (k : EthPort) (q : SubPort) (f : RxSegment) (s : State) : Still s (execAckSegment k q f s) := by
  unfold execAckSegment
  grind [State.ackSeg_still]

theorem execNakSegment_still (k : EthPort) (q : SubPort) (f : RxSegment) (s : State) : Still s (execNakSegment k q f s) := by
  unfold execNakSegment
  grind [State.ackSeg_still, State.resend_kept]

theorem execTransportAckTimer_still (c : Ctrl) (s : State) : Still s (execTransportAckTimer c s) := by
  simp [execTransportAckTimer]

theorem execXportRtoExpiry_still (c : Ctrl) (s : State) : Still s (execXportRtoExpiry c s) := by
  simp [execXportRtoExpiry]

theorem execXferDoneSend_still (x : Fin 256) (s : State) : Still s (execXferDoneSend x s) := by
  simp [execXferDoneSend]

theorem execGetDataSend_still (x : Fin 256) (ue : Bool) (s : State) : Still s (execGetDataSend x ue s) := by
  unfold execGetDataSend
  grind [still_next, State.endXfer_kept, State.modXfer_pending, State.modXfer_flash, State.queueSeg_pending, State.queueSeg_flash,
    State.vaRead_kept]

theorem execXferOpen_still (src : Src) (ctx die dir pcp va len : Nat) (s : State) :
    Still s (execXferOpen src ctx die dir pcp va len s) := by
  simp [execXferOpen]

theorem execXferStatus_still (src : Src) (x : Nat) (s : State) : Still s (execXferStatus src x s) := by
  simp [execXferStatus]

theorem execXferCancel_still (src : Src) (x : Nat) (s : State) : Still s (execXferCancel src x s) := by
  simp [execXferCancel]

@[simp] theorem State.startHub_kept (s : State) : (State.startHub s).pending = s.pending ∧ (State.startHub s).flash = s.flash := by
  simp [State.startHub]

@[simp] theorem State.startLd_kept (s : State) (m : Nat) :
    (State.startLd s m).pending = s.pending ∧ (State.startLd s m).flash = s.flash := by
  simp [State.startLd]

@[simp] theorem State.startHd_kept (s : State) : (State.startHd s).pending = s.pending ∧ (State.startHd s).flash = s.flash := by
  unfold State.startHd
  grind [State.extend_kept, State.outputUp_kept, State.raise_pending, State.raise_flash]

@[simp] theorem State.startCd_kept (s : State) (n : Nat) :
    (State.startCd s n).pending = s.pending ∧ (State.startCd s n).flash = s.flash := by
  simp [State.startCd]

@[simp] theorem State.launchFail_kept (s : State) (x : Nat) (code : Err) (d unit : Nat) :
    (State.launchFail s x code d unit).pending = s.pending ∧ (State.launchFail s x code d unit).flash = s.flash := by
  unfold State.launchFail
  grind [State.endPeriod_kept, State.haltLaunch_kept, State.launchEnd_kept, State.setCtx_pending, State.setCtx_flash]

@[simp] theorem State.clearCd_kept (s : State) (n : Nat) :
    (State.clearCd s n).pending = s.pending ∧ (State.clearCd s n).flash = s.flash := by
  simp [State.clearCd]

@[simp] theorem State.downCd_kept (s : State) (n : Nat) : (State.downCd s n).pending = s.pending ∧ (State.downCd s n).flash = s.flash := by
  simp [State.downCd]

@[simp] theorem State.linkReset_kept (s : State) (l : Nat) (say : Bool) :
    (State.linkReset s l say).pending = s.pending ∧ (State.linkReset s l say).flash = s.flash := by
  simp [State.linkReset]

@[simp] theorem State.downLd_kept (s : State) (m : Nat) (say : Bool) :
    (State.downLd s m say).pending = s.pending ∧ (State.downLd s m say).flash = s.flash := by
  simp [State.downLd]

@[simp] theorem State.clearHub_kept (s : State) : (State.clearHub s).pending = s.pending ∧ (State.clearHub s).flash = s.flash := by
  simp [State.clearHub]

@[simp] theorem State.downHub_kept (s : State) (say : Bool) :
    (State.downHub s say).pending = s.pending ∧ (State.downHub s say).flash = s.flash := by
  simp [State.downHub]

@[simp] theorem State.ctxLost_kept (s : State) (x : Nat) :
    (State.ctxLost s x).pending = s.pending ∧ (State.ctxLost s x).flash = s.flash := by
  simp [State.ctxLost]

@[simp] theorem State.downHd_kept (s : State) : (State.downHd s).pending = s.pending ∧ (State.downHd s).flash = s.flash := by
  simp [State.downHd]

@[simp] theorem State.dieDown_kept (s : State) (d : Nat) (say : Bool) :
    (State.dieDown s d say).pending = s.pending ∧ (State.dieDown s d say).flash = s.flash := by
  simp [State.dieDown]

@[simp] theorem State.dieUp_kept (s : State) (d : Nat) : (State.dieUp s d).pending = s.pending ∧ (State.dieUp s d).flash = s.flash := by
  simp [State.dieUp]

@[simp] theorem State.resetDie_kept (s : State) (d : Nat) (byCtrl : Bool) :
    (State.resetDie s d byCtrl).pending = s.pending ∧ (State.resetDie s d byCtrl).flash = s.flash := by
  simp [State.resetDie]

theorem execDieReset_still (d : DieId) (byCtrl : Bool) (s : State) : Still s (execDieReset d byCtrl s) := by
  simp [execDieReset]

theorem execMbxWatchdogExpiry_still (s : State) : Still s (execMbxWatchdogExpiry s) := by
  simp [execMbxWatchdogExpiry]

theorem execOobLinkChange_still (up : Bool) (s : State) : Still s (execOobLinkChange up s) := by
  simp [execOobLinkChange]

@[simp] theorem State.queueRepairs_kept (s : State) :
    (State.queueRepairs s).pending = s.pending ∧ (State.queueRepairs s).flash = s.flash := by
  simp [State.queueRepairs]

@[simp] theorem State.recEffect_kept (s : State) (r : CfgRec) :
    (State.recEffect s r).pending = s.pending ∧ (State.recEffect s r).flash = s.flash := by
  unfold State.recEffect
  dsimp only
  split <;> simp

@[simp] theorem State.replacedSessions_kept (s : State) (recs : List CfgRec) :
    (State.replacedSessions s recs).pending = s.pending ∧ (State.replacedSessions s recs).flash = s.flash := by
  simp [State.replacedSessions]

@[simp] theorem State.commitReply_kept (s : State) (c : Commit) (e : Err) (payload : List Byte) :
    (State.commitReply s c e payload).pending = s.pending ∧ (State.commitReply s c e payload).flash = s.flash := by
  unfold State.commitReply
  grind [State.reply_pending, State.reply_flash]

theorem execClaimWindowClose_still (s : State) : Still s (execClaimWindowClose s) := by
  simp [execClaimWindowClose]

theorem execCfgRead_still (src : Src) (source type first : Nat) (s : State) : Still s (execCfgRead src source type first s) := by
  simp [execCfgRead]

theorem execCfgSet_still (src : Src) (type index : Nat) (data : List Byte) (len : Nat) (s : State) :
    Still s (execCfgSet src type index data len s) := by
  simp [execCfgSet]

theorem execCfgCommit_still (src : Src) (expected : Nat) (s : State) : Still s (execCfgCommit src expected s) := by
  simp [execCfgCommit]

theorem execCfgDiscard_still (src : Src) (s : State) : Still s (execCfgDiscard src s) := by
  simp [execCfgDiscard]

theorem execCfgStatus_still (src : Src) (s : State) : Still s (execCfgStatus src s) := by
  simp [execCfgStatus]

theorem execOwnerSet_still (src : Src) (modulus exponent : List Byte) (count flags : Nat) (_rsv sig : List Byte) (s : State) :
    Still s (execOwnerSet src modulus exponent count flags _rsv sig s) := by
  simp [execOwnerSet]

theorem execSvnRaise_still (src : Src) (svn keys : Nat) (s : State) : Still s (execSvnRaise src svn keys s) := by
  simp [execSvnRaise]

theorem execMeasRead_still (src : Src) (s : State) : Still s (execMeasRead src s) := by
  simp [execMeasRead]

theorem execMeasExtend_still (src : Src) (digest : List Byte) (s : State) : Still s (execMeasExtend src digest s) := by
  simp [execMeasExtend]

theorem execIdCert_still (src : Src) (s : State) : Still s (execIdCert src s) := by
  simp [execIdCert]

theorem execFactoryRead_still (src : Src) (block : Nat) (s : State) : Still s (execFactoryRead src block s) := by
  simp [execFactoryRead]

theorem execFwStatus_still (src : Src) (s : State) : Still s (execFwStatus src s) := by
  simp [execFwStatus]

@[simp] theorem State.eventNotices_kept (s : State) (sev : Nat) (entry : List Byte) :
    (State.eventNotices s sev entry).pending = s.pending ∧ (State.eventNotices s sev entry).flash = s.flash := by
  simp [State.eventNotices]

theorem execLogIntake_still (s : State) : Still s (execLogIntake s) := by
  unfold execLogIntake
  grind [still_next, State.counted_pending, State.counted_flash, State.eventNotices_kept, State.queueRepairs_kept,
    State.toLedger_pending, State.toLedger_flash]

theorem execMirrorCopy_still (s : State) : Still s (execMirrorCopy s) := by
  unfold execMirrorCopy
  grind [still_next]

theorem execLogRead_still (src : Src) (first count : Nat) (s : State) : Still s (execLogRead src first count s) := by
  simp [execLogRead]

theorem execMirrorRead_still (src : Src) (first count : Nat) (s : State) : Still s (execMirrorRead src first count s) := by
  simp [execMirrorRead]

theorem execLedgerRead_still (src : Src) (first count : Nat) (s : State) : Still s (execLedgerRead src first count s) := by
  simp [execLedgerRead]

theorem execLedgerNote_still (src : Src) (note : List Byte) (s : State) : Still s (execLedgerNote src note s) := by
  simp [execLedgerNote]

@[simp] theorem State.modMon_kept (s : State) (d : Nat) (f : Mon → Mon) :
    (State.modMon s d f).pending = s.pending ∧ (State.modMon s d f).flash = s.flash := by
  simp [State.modMon]

@[simp] theorem State.alarms_kept (s : State) (d old : Nat) :
    (State.alarms s d old).pending = s.pending ∧ (State.alarms s d old).flash = s.flash := by
  simp [State.alarms]

@[simp] theorem State.setLevel_kept (s : State) (n l : Nat) :
    (State.setLevel s n l).pending = s.pending ∧ (State.setLevel s n l).flash = s.flash := by
  simp [State.setLevel]

@[simp] theorem State.sampleLevel_kept (s : State) (n : Nat) :
    (State.sampleLevel s n).pending = s.pending ∧ (State.sampleLevel s n).flash = s.flash := by
  simp [State.sampleLevel]

@[simp] theorem State.sampleDie_kept (s : State) (m : List MonSample) (d : Nat) :
    (State.sampleDie s m d).pending = s.pending ∧ (State.sampleDie s m d).flash = s.flash := by
  unfold State.sampleDie
  grind [State.alarms_kept, State.modMon_kept, State.sampleLevel_kept]

@[simp] theorem State.sampleCool_kept (s : State) (inlet outlet : Int) :
    (State.sampleCool s inlet outlet).pending = s.pending ∧ (State.sampleCool s inlet outlet).flash = s.flash := by
  simp [State.sampleCool]

theorem execMonitorSample_still (m : List MonSample) (inlet outlet : Int) (s : State) : Still s (execMonitorSample m inlet outlet s) := by
  simp [execMonitorSample]

theorem execInsertionLevelStep_still (s : State) : Still s (execInsertionLevelStep s) := by
  simp [execInsertionLevelStep]

@[simp] theorem State.hourly_kept (s : State) : (State.hourly s).pending = s.pending ∧ (State.hourly s).flash = s.flash := by
  simp [State.hourly]

@[simp] theorem State.healthEvent_kept (s : State) (sev : Nat) (code : Err) (old oldState : Nat) :
    (State.healthEvent s sev code old oldState).pending = s.pending ∧ (State.healthEvent s sev code old oldState).flash = s.flash := by
  simp [State.healthEvent]

@[simp] theorem State.askQuarantine_kept (s : State) :
    (State.askQuarantine s).pending = s.pending ∧ (State.askQuarantine s).flash = s.flash := by
  simp [State.askQuarantine]

theorem execHealthScoreCompute_still (s : State) : Still s (execHealthScoreCompute s) := by
  simp [execHealthScoreCompute]

theorem execQRequestRepeat_still (s : State) : Still s (execQRequestRepeat s) := by
  simp [execQRequestRepeat]

theorem execDayRollover_still (s : State) : Still s (execDayRollover s) := by
  simp [execDayRollover]

theorem execQuarantineTakeEffect_still (s : State) : Still s (execQuarantineTakeEffect s) := by
  simp [execQuarantineTakeEffect]

theorem execTokenLapse_still (s : State) : Still s (execTokenLapse s) := by
  simp [execTokenLapse]

@[simp] theorem State.retireTile_kept (s : State) (d p : Nat) (ue : Bool) :
    (State.retireTile s d p ue).pending = s.pending ∧ (State.retireTile s d p ue).flash = s.flash := by
  unfold State.retireTile
  dsimp only
  split <;> simp

theorem execTileSubstitution_still (d : CdId) (p : PTile) (ue : Bool) (s : State) : Still s (execTileSubstitution d p ue s) := by
  simp [execTileSubstitution]

theorem execHealthStatus_still (src : Src) (s : State) : Still s (execHealthStatus src s) := by
  simp [execHealthStatus]

theorem execMonRead_still (src : Src) (die clear : Nat) (s : State) : Still s (execMonRead src die clear s) := by
  simp [execMonRead]

theorem execSpareList_still (src : Src) (s : State) : Still s (execSpareList src s) := by
  simp [execSpareList]

theorem State.replyWrite_kept {s : State} (src : Src) (cmd : Nat) {r : Except Err State}
    (h : ∀ t, r = .ok t → t.pending = s.pending ∧ t.flash = s.flash) :
    (s.replyWrite src cmd r).pending = s.pending ∧ (s.replyWrite src cmd r).flash = s.flash := by
  unfold State.replyWrite
  split
  · simp [h]
  · simp

theorem execSpareApply_still (src : Src) (kind die index : Nat) (s : State) : Still s (execSpareApply src kind die index s) := by
  refine still_next.2 (State.command_kept _ _ _ _ _ ?_)
  split
  · dsimp only
    split <;> simp
  · exact State.replyWrite_kept _ _ fun t h => by grind [State.bankMigrate_kept]
  · exact State.replyWrite_kept _ _ fun t h => by grind [State.hbmMigrate_kept]

theorem execSelftest_still (src : Src) (die tile repeat_ : Nat) (found : List TestMiss) (s : State) :
    Still s (execSelftest src die tile repeat_ found s) := by
  simp [execSelftest]

theorem execQuarantineGrant_still (src : Src) (node token t x : Nat) (s : State) : Still s (execQuarantineGrant src node token t x s) := by
  simp [execQuarantineGrant]

theorem execQuarantineRelease_still (src : Src) (s : State) : Still s (execQuarantineRelease src s) := by
  simp [execQuarantineRelease]

theorem execHealthSet_still (src : Src) (limit margin : Nat) (s : State) : Still s (execHealthSet src limit margin s) := by
  simp [execHealthSet]

theorem execProgressRead_still (src : Src) (ctx : Nat) (s : State) : Still s (execProgressRead src ctx s) := by
  simp [execProgressRead]

theorem execProgressMark_still (src : Src) (ctx action : Nat) (s : State) : Still s (execProgressMark src ctx action s) := by
  simp [execProgressMark]

theorem execHistRead_still (src : Src) (die : Nat) (s : State) : Still s (execHistRead src die s) := by
  simp [execHistRead]

theorem execAttestQuote_still (src : Src) (nonce : List Byte) (mask : Nat) (s : State) : Still s (execAttestQuote src nonce mask s) := by
  simp [execAttestQuote]

@[simp] theorem State.darken_kept (s : State) (say : Bool) (cause : Err) :
    (State.darken s say cause).pending = s.pending ∧ (State.darken s say cause).flash = s.flash := by
  simp [State.darken]

@[simp] theorem State.bankFound_kept (s : State) (bad : List Nat) (p : Nat) :
    (State.bankFound s bad p).pending = s.pending ∧ (State.bankFound s bad p).flash = s.flash := by
  unfold State.bankFound
  grind [State.substituted_pending, State.substituted_flash]

@[simp] theorem State.testHub_kept (s : State) (b : BootFinds) :
    (State.testHub s b).pending = s.pending ∧ (State.testHub s b).flash = s.flash := by
  simp [State.testHub]

@[simp] theorem State.testCd_kept (s : State) (n : Nat) (b : BootFinds) :
    (State.testCd s n b).pending = s.pending ∧ (State.testCd s n b).flash = s.flash := by
  simp [State.testCd]

theorem nextOf_kept {s : State} {o : Out} (h : Still s o) : (nextOf s o).pending = s.pending ∧ (nextOf s o).flash = s.flash := by
  obtain ⟨t, rfl, ht⟩ := h
  exact ht

@[simp] theorem State.trainLd_kept (s : State) (m : Nat) (b : BootFinds) :
    (s.trainLd m b).pending = s.pending ∧ (s.trainLd m b).flash = s.flash := by
  have hnext (t : State) (l : LinkId) (r : Training) := nextOf_kept (execLinkTrainingComplete_still l r t)
  simp [State.trainLd, hnext]

@[simp] theorem State.logFailures_kept (s : State) (b : BootFinds) :
    (State.logFailures s b).pending = s.pending ∧ (State.logFailures s b).flash = s.flash := by
  simp [State.logFailures]

@[simp] theorem State.logSlot_kept (s : State) (i : Nat) :
    (State.logSlot s i).pending = s.pending ∧ (State.logSlot s i).flash = s.flash := by
  simp [State.logSlot]

@[simp] theorem State.bootSlots_kept (s : State) : (State.bootSlots s).pending = s.pending ∧ (State.bootSlots s).flash = s.flash := by
  unfold State.bootSlots
  grind [State.extend_kept, State.logSlot_kept, State.raise_pending, State.raise_flash]

@[simp] theorem State.bootFactory_kept (s : State) : (State.bootFactory s).pending = s.pending ∧ (State.bootFactory s).flash = s.flash := by
  simp [State.bootFactory]

@[simp] theorem State.bootRecords_kept (s : State) : (State.bootRecords s).pending = s.pending ∧ (State.bootRecords s).flash = s.flash := by
  unfold State.bootRecords
  dsimp only
  repeat' split
  all_goals simp

@[simp] theorem State.bootFrom_kept (s : State) (i : Nat) :
    (State.bootFrom s i).pending = s.pending ∧ (State.bootFrom s i).flash = s.flash := by
  simp [State.bootFrom]

@[simp] theorem State.bootIdentity_kept (s : State) (b : BootFinds) :
    (State.bootIdentity s b).pending = s.pending ∧ (State.bootIdentity s b).flash = s.flash := by
  simp [State.bootIdentity]

@[simp] theorem State.stampStart_kept (s : State) (ms : List Nat) :
    (State.stampStart s ms).pending = s.pending ∧ (State.stampStart s ms).flash = s.flash := by
  simp [State.stampStart]

@[simp] theorem State.startRecord_kept (s : State) : (State.startRecord s).pending = s.pending ∧ (State.startRecord s).flash = s.flash := by
  simp [State.startRecord]

@[simp] theorem State.bootLedger_kept (s : State) : (State.bootLedger s).pending = s.pending ∧ (State.bootLedger s).flash = s.flash := by
  simp [State.bootLedger]

@[simp] theorem State.unitsSleep_kept (s : State) (st ox : Sleep) :
    (State.unitsSleep s st ox).pending = s.pending ∧ (State.unitsSleep s st ox).flash = s.flash := by
  simp [State.unitsSleep]

@[simp] theorem State.powerPark_kept (s : State) : (State.powerPark s).pending = s.pending ∧ (State.powerPark s).flash = s.flash := by
  simp [State.powerPark]

@[simp] theorem State.powerUnpark_kept (s : State) : (State.powerUnpark s).pending = s.pending ∧ (State.powerUnpark s).flash = s.flash := by
  simp [State.powerUnpark]

@[simp] theorem State.dropMove_kept (s : State) : (State.dropMove s).pending = s.pending ∧ (State.dropMove s).flash = s.flash := by
  unfold State.dropMove
  grind [State.reply_pending, State.reply_flash]

theorem execPowerStateSet_still (src : Src) (state : Nat) (s : State) : Still s (execPowerStateSet src state s) := by
  simp [execPowerStateSet]

@[simp] theorem State.tripNow_kept (s : State) (cause die : Nat) :
    (State.tripNow s cause die).pending = s.pending ∧ (State.tripNow s cause die).flash = s.flash := by
  simp [State.tripNow]

theorem execTrip_still (cause : Fin 5) (die : DieId) (s : State) : Still s (execTrip cause die s) := by
  simp [execTrip]

theorem execPowerSample_still (vin iin pin energy : Nat) (sustained : Bool) (s : State) :
    Still s (execPowerSample vin iin pin energy sustained s) := by
  simp [execPowerSample]

theorem execTripClear_still (src : Src) (s : State) : Still s (execTripClear src s) := by
  simp [execTripClear]

theorem execRefclkLoss_still (s : State) : Still s (execRefclkLoss s) := by
  simp [execRefclkLoss]

theorem execRefclkReturn_still (s : State) : Still s (execRefclkReturn s) := by
  simp [execRefclkReturn]

theorem execModEnRise_still (s : State) : Still s (execModEnRise s) := by
  simp [execModEnRise]

theorem execModEnFall_still (s : State) : Still s (execModEnFall s) := by
  simp [execModEnFall]

@[simp] theorem State.stagePoll_kept (s : State) (a : Nat) (w : Option (List Nat)) :
    (State.stagePoll s a w).pending = s.pending ∧ (State.stagePoll s a w).flash = s.flash := by
  unfold State.stagePoll
  grind [State.raise_pending, State.raise_flash]

@[simp] theorem State.poll_kept (s : State) (answers : List PmbAnswer) :
    (State.poll s answers).pending = s.pending ∧ (State.poll s answers).flash = s.flash := by
  simp [State.poll]

theorem execPmbusPoll_still (answers : List PmbAnswer) (s : State) : Still s (execPmbusPoll answers s) := by
  simp [execPmbusPoll]

theorem execPmbAlert_still (answers : List PmbAnswer) (s : State) : Still s (execPmbAlert answers s) := by
  simp [execPmbAlert]

theorem execSmbusBlockRead_still (cmd : Nat) (s : State) : Still s (execSmbusBlockRead cmd s) := by
  simp [execSmbusBlockRead]

theorem execSmbusAlertResponse_still (s : State) : Still s (execSmbusAlertResponse s) := by
  simp [execSmbusAlertResponse]

theorem execTestPortInstruction_still (i : TestInstr) (s : State) : Still s (execTestPortInstruction i s) :=
  still_next.2 ⟨rfl, rfl⟩

theorem execClkStatus_still (src : Src) (die : Nat) (s : State) : Still s (execClkStatus src die s) := by
  simp [execClkStatus]

theorem execPwrStatus_still (src : Src) (s : State) : Still s (execPwrStatus src s) := by
  simp [execPwrStatus]

theorem State.idleSet_kept {s : State} {us : Nat} {t : State} (h : State.idleSet s us = .ok t) :
    t.pending = s.pending ∧ t.flash = s.flash := by
  unfold State.idleSet at h
  grind

theorem execIdleTimerSet_still (src : Src) (us : Nat) (s : State) : Still s (execIdleTimerSet src us s) := by
  refine still_next.2 (State.command_kept _ _ _ _ _ ?_)
  split
  case h_1 t h => simp [State.idleSet_kept h]
  case h_2 => simp

@[simp] theorem State.thermSet_kept (s : State) (temp : Nat) :
    (State.thermSet s temp).pending = s.pending ∧ (State.thermSet s temp).flash = s.flash := by
  simp [State.thermSet]

theorem execThermSet_still (src : Src) (temp : Nat) (s : State) : Still s (execThermSet src temp s) := by
  simp [execThermSet]

theorem execUnitSleep_still (src : Src) (die kind index state : Nat) (s : State) : Still s (execUnitSleep src die kind index state s) := by
  unfold execUnitSleep
  dsimp only
  split <;> simp

theorem execPmbusRead_still (src : Src) (addr cmd len : Nat) (answer : Option (List Byte)) (s : State) :
    Still s (execPmbusRead src addr cmd len answer s) := by
  simp [execPmbusRead]

theorem execMuleThermalGate_still (d : CdId) (p : PTile) (s : State) : Still s (execMuleThermalGate d p s) := by
  unfold execMuleThermalGate
  grind [still_next, State.modCd_pending, State.modCd_flash, State.modTile_pending, State.modTile_flash]

theorem readOnly_kept {s : State} {ro : Bool} {t : State} (h : readOnly s ro = .ok t) : t.pending = s.pending ∧ t.flash = s.flash := by
  unfold readOnly at h
  grind

theorem State.muleWrite_kept {s : State} {d p o v : Nat} {t : State} (h : State.muleWrite s d p o v = .ok t) :
    t.pending = s.pending ∧ t.flash = s.flash := by
  unfold State.muleWrite at h
  grind [State.modMule_pending, State.modMule_flash, readOnly_kept]

theorem State.arrWrite_kept {s t : State} {d p o v : Nat} (h : s.arrWrite d p o v = .ok t) :
    t.pending = s.pending ∧ t.flash = s.flash := by
  unfold State.arrWrite at h
  dsimp only at h
  split_ifs at h
  all_goals grind [State.colcfg_kept, readOnly_kept, State.modArr_pending, State.modArr_flash]

theorem State.hbmWrite_kept {s : State} {d o v : Nat} {t : State} (h : State.hbmWrite s d o v = .ok t) :
    t.pending = s.pending ∧ t.flash = s.flash := by
  unfold State.hbmWrite at h
  grind [State.hbmMigrate_kept, State.modCd_pending, State.modCd_flash, readOnly_kept]

theorem State.slotEntryWrite_kept {s : State} {d i o v : Nat} {t : State} (h : State.slotEntryWrite s d i o v = .ok t) :
    t.pending = s.pending ∧ t.flash = s.flash := by
  unfold State.slotEntryWrite at h
  grind [State.modCd_pending, State.modCd_flash]

theorem State.trWrite_kept {s : State} {d o v : Nat} {t : State} (h : State.trWrite s d o v = .ok t) :
    t.pending = s.pending ∧ t.flash = s.flash := by
  unfold State.trWrite at h
  grind [State.modCd_pending, State.modCd_flash, State.pfResolve_kept, State.slotEntryWrite_kept, State.tlbInval_kept, readOnly_kept]

theorem State.bpWrite_kept {s : State} {d o v : Nat} {t : State} (h : State.bpWrite s d o v = .ok t) :
    t.pending = s.pending ∧ t.flash = s.flash := by
  unfold State.bpWrite at h
  grind [State.bpApply_kept, State.bpFw_kept, State.modCd_pending, State.modCd_flash, readOnly_kept]

theorem State.cdWrite_kept {s t : State} {d u o v : Nat} (h : s.cdWrite d u o v = .ok t) :
    t.pending = s.pending ∧ t.flash = s.flash := by
  unfold State.cdWrite at h
  split_ifs at h
  all_goals grind [State.muleWrite_kept, State.arrWrite_kept, State.hbmWrite_kept, State.trWrite_kept, State.bpWrite_kept, readOnly_kept,
    State.modCd_pending, State.modCd_flash]

theorem State.hubWrite_kept {s : State} {u o v : Nat} {t : State} (h : State.hubWrite s u o v = .ok t) :
    t.pending = s.pending ∧ t.flash = s.flash := by
  unfold State.hubWrite at h
  grind [State.bankMigrate_kept, State.hubAlpha_kept, State.hubPartition_kept, State.hubShare_kept, State.hubSnap_kept, readOnly_kept]

theorem State.linkWrite_kept {s : State} {l o v : Nat} {t : State} (h : State.linkWrite s l o v = .ok t) :
    t.pending = s.pending ∧ t.flash = s.flash := by
  unfold State.linkWrite at h
  grind [State.linkCtl_kept, State.modLink_pending, State.modLink_flash, readOnly_kept]

theorem State.ethWrite_kept {s : State} {k o v : Nat} {t : State} (h : State.ethWrite s k o v = .ok t) :
    t.pending = s.pending ∧ t.flash = s.flash := by
  unfold State.ethWrite at h
  grind [State.modEth_pending, State.modEth_flash, readOnly_kept]

theorem State.hdWrite_kept {s : State} {u o v : Nat} {t : State} (h : State.hdWrite s u o v = .ok t) :
    t.pending = s.pending ∧ t.flash = s.flash := by
  unfold State.hdWrite at h
  grind [State.ethWrite_kept, readOnly_kept]

theorem State.kdWrite_kept {s : State} {u o v : Nat} {t : State} (h : State.kdWrite s u o v = .ok t) :
    t.pending = s.pending ∧ t.flash = s.flash := by
  unfold State.kdWrite at h
  grind [State.idleSet_kept, State.thermSet_kept, readOnly_kept]

theorem State.unitWrite_kept {s : State} {d u o v : Nat} {t : State} (h : State.unitWrite s d u o v = .ok t) :
    t.pending = s.pending ∧ t.flash = s.flash := by
  unfold State.unitWrite at h
  grind [State.cdWrite_kept, State.hdWrite_kept, State.hubWrite_kept, State.kdWrite_kept, State.linkWrite_kept, readOnly_kept]

theorem execStateRead_still (src : Src) (addr len : Nat) (s : State) : Still s (execStateRead src addr len s) := by
  simp [execStateRead]

theorem State.stWrite_kept {s : State} {a v : Nat} {t : State} (h : State.stWrite s a v = .ok t) :
    t.pending = s.pending ∧ t.flash = s.flash := by
  unfold State.stWrite at h
  grind [State.unitWrite_kept]

theorem State.writeWords_kept {s t : State} {l : List (Nat × Nat)} (h : s.writeWords l = .ok t) :
    t.pending = s.pending ∧ t.flash = s.flash := by
  induction l generalizing s with
  | nil => grind [State.writeWords]
  | cons e l ih => grind [State.writeWords, State.stWrite_kept]

theorem execStateWrite_still (src : Src) (addr len : Nat) (data : List Byte) (s : State) : Still s (execStateWrite src addr len data s) :=
  still_next.2 (State.command_kept _ _ _ _ _ (State.replyWrite_kept _ _ fun _ h => State.writeWords_kept h))

theorem execStateSnap_still (src : Src) (count : Nat) (ranges : List (Nat × Nat)) (s : State) :
    Still s (execStateSnap src count ranges s) := by
  simp [execStateSnap]

theorem execUnitMap_still (src : Src) (die : Nat) (s : State) : Still s (execUnitMap src die s) := by
  simp [execUnitMap]

theorem execDevInfo_still (src : Src) (s : State) : Still s (execDevInfo src s) := by
  simp [execDevInfo]

theorem execDevCaps_still (src : Src) (s : State) : Still s (execDevCaps src s) := by
  simp [execDevCaps]

theorem execCollLinesRead_still (src : Src) (ctx coll first count : Nat) (ue : Option Nat) (s : State) :
    Still s (execCollLinesRead src ctx coll first count ue s) := by
  refine still_next.2 (State.command_kept _ _ _ _ _ ?_)
  dsimp only
  split
  · simp [State.lineUe_kept]
  · simp

theorem execSaveRead_still (src : Src) (ctx die tile buffer offset len : Nat) (s : State) :
    Still s (execSaveRead src ctx die tile buffer offset len s) := by
  refine still_next.2 (State.command_kept _ _ _ _ _ ?_)
  split <;> simp

theorem execCtxView_still (src : Src) (ctx : Nat) (s : State) : Still s (execCtxView src ctx s) := by
  simp [execCtxView]

theorem execCollList_still (src : Src) (first : Nat) (s : State) : Still s (execCollList src first s) := by
  simp [execCollList]

theorem execRegisterWrite_still (addr : Nat) (v : Word) (s : State) : Still s (execRegisterWrite addr v s) :=
  still_ite (still_next.2 ⟨rfl, rfl⟩) (wrote_still fun _ h => State.stWrite_kept h)

/-! ### The commands that write the flash, and every command together -/

/-- A command answers a state with the same queue, whose flash is in canonical form when the first state's is. -/
def Answers (s : State) (o : Out) : Prop :=
  ∃ t, o = .next t ∧ t.pending = s.pending ∧ (Memory.wf s.flash = true → Memory.wf t.flash = true)

theorem answers_next {s t : State} :
    Answers s (.next t) ↔ t.pending = s.pending ∧ (Memory.wf s.flash = true → Memory.wf t.flash = true) := by
  simp [Answers]

theorem answers_of_still {s : State} {o : Out} (h : Still s o) : Answers s o := by
  obtain ⟨t, ht, hpending, hflash⟩ := h
  exact ⟨t, ht, hpending, fun hs => hflash ▸ hs⟩

/-- A refused command leaves the queue and the flash; one that runs does what its effect does. -/
theorem State.command_answers {s : State} (src : Src) (cmd : Nat) (al ag : Bool) (ch : List (Bool × Err)) {run : State → State}
    (h : (run s).pending = s.pending ∧ (Memory.wf s.flash = true → Memory.wf (run s).flash = true)) :
    Answers s (.next (s.command src cmd al ag ch run)) := by
  rw [answers_next]
  unfold State.command
  repeat' split
  case h_2 => exact h
  all_goals exact ⟨State.reply_pending .., fun hs => by rwa [State.reply_flash]⟩

@[simp] theorem State.flashErase_pending (s : State) (a n : Nat) : (s.flashErase a n).pending = s.pending := rfl

theorem State.flashErase_form {s : State} (a n : Nat) (h : Memory.wf s.flash = true) : Memory.wf (s.flashErase a n).flash = true :=
  mem_wf_filter _ _ h

@[simp] theorem State.flashProg_pending (s : State) (a : Nat) (bs : List Byte) : (s.flashProg a bs).pending = s.pending := rfl

theorem State.flashProg_form {s : State} (a : Nat) (bs : List Byte) (h : Memory.wf s.flash = true) :
    Memory.wf (s.flashProg a bs).flash = true :=
  mem_wf_writeN _ _ _ h

@[simp] theorem State.writeSlot_pending (s : State) (base size magic seq res : Nat) (recs : List CfgRec) (ok : Bool) :
    (s.writeSlot base size magic seq res recs ok).pending = s.pending := rfl

theorem State.writeSlot_form {s : State} (base size magic seq res : Nat) (recs : List CfgRec) (ok : Bool)
    (h : Memory.wf s.flash = true) : Memory.wf (s.writeSlot base size magic seq res recs ok).flash = true :=
  State.flashProg_form _ _ (State.flashProg_form _ _ (State.flashErase_form _ _ h))

@[simp] theorem State.writeDir_pending (s : State) (d : FwDir) : (s.writeDir d).pending = s.pending := rfl

theorem State.writeDir_form {s : State} (d : FwDir) (h : Memory.wf s.flash = true) : Memory.wf (s.writeDir d).flash = true :=
  State.flashProg_form _ _ (State.flashErase_form _ _ h)

@[simp] theorem State.confirm_pending (s : State) : s.confirm.pending = s.pending := by
  simp [State.confirm]

theorem State.confirm_form {s : State} (h : Memory.wf s.flash = true) : Memory.wf s.confirm.flash = true := by
  unfold State.confirm
  split
  · exact h
  · exact State.writeDir_form _ h

@[simp] theorem State.writeRepair_pending (s : State) (ok : Bool) : (s.writeRepair ok).pending = s.pending := by
  simp [State.writeRepair]

theorem State.writeRepair_form {s : State} (ok : Bool) (h : Memory.wf s.flash = true) : Memory.wf (s.writeRepair ok).flash = true := by
  unfold State.writeRepair
  split <;> simp [State.writeSlot_form, h]

@[simp] theorem State.commitStore_pending (s : State) (recs : List CfgRec) (ok repairOk : Bool) :
    (s.commitStore recs ok repairOk).1.pending = s.pending := by
  simp only [State.commitStore]
  split <;> simp

theorem State.commitStore_form {s : State} (recs : List CfgRec) (ok repairOk : Bool) (h : Memory.wf s.flash = true) :
    Memory.wf (s.commitStore recs ok repairOk).1.flash = true := by
  simp only [State.commitStore]
  split
  · split
    · refine State.writeRepair_form _ ?_
      simp [State.writeSlot_form, h]
    · simp [State.writeSlot_form, h]
  · simp [State.writeSlot_form, h]

@[simp] theorem State.runCommit_pending (s : State) (c : Commit) (ok repairOk : Bool) :
    (s.runCommit c ok repairOk).pending = s.pending := by
  unfold State.runCommit
  cases c.src <;> simp

theorem State.runCommit_form {s : State} (c : Commit) (ok repairOk : Bool) (h : Memory.wf s.flash = true) :
    Memory.wf (s.runCommit c ok repairOk).flash = true := by
  have hstore := State.commitStore_form c.recs ok repairOk h
  unfold State.runCommit
  split
  · simpa using h
  · cases c.src <;> simpa using hstore

theorem execConfigCommitRun_answers (readbackOk repairOk : Bool) (s : State) : Answers s (execConfigCommitRun readbackOk repairOk s) := by
  unfold execConfigCommitRun
  split
  · exact answers_next.2 ⟨rfl, id⟩
  · refine answers_next.2 ⟨by simp, fun h => State.runCommit_form _ _ _ ?_⟩
    simpa using h

theorem execFwWrite_answers (src : Src) (offset flags : Nat) (data : List Byte) (s : State) :
    Answers s (execFwWrite src offset flags data s) := by
  refine State.command_answers _ _ _ _ _ ?_
  dsimp only
  generalize ht : (if bit flags 0 = true then _ else s) = t
  have hkept : t.pending = s.pending ∧ (Memory.wf s.flash = true → Memory.wf t.flash = true) := by
    rw [← ht]
    split
    · split
      · exact ⟨rfl, fun h => State.writeDir_form _ (State.flashErase_form _ _ h)⟩
      · exact ⟨rfl, State.flashErase_form _ _⟩
    · exact ⟨rfl, id⟩
  exact ⟨by simp [hkept], fun h => by simp [State.flashProg_form, hkept.2 h]⟩

theorem execFwActivate_answers (src : Src) (flags : Nat) (s : State) : Answers s (execFwActivate src flags s) :=
  State.command_answers _ _ _ _ _ ⟨by simp, fun h => by simp [State.writeDir_form, h]⟩

@[simp] theorem State.openSector_pending (s : State) : s.openSector.pending = s.pending := by
  simp [State.openSector]

theorem State.openSector_form {s : State} (h : Memory.wf s.flash = true) : Memory.wf s.openSector.flash = true := by
  simp only [State.openSector]
  split <;> simp [State.flashProg_form, State.flashErase_form, h]

theorem execLedgerRecordWrite_answers (s : State) : Answers s (execLedgerRecordWrite s) := by
  unfold execLedgerRecordWrite
  split
  · exact answers_next.2 ⟨rfl, id⟩
  · refine answers_next.2 ⟨by simp, fun h => ?_⟩
    dsimp only
    split <;> simp [State.flashProg_form, State.openSector_form, h]

@[simp] theorem State.commitRepairs_pending (s : State) : s.commitRepairs.pending = s.pending := by
  simp [State.commitRepairs]

theorem State.commitRepairs_form {s : State} (h : Memory.wf s.flash = true) : Memory.wf s.commitRepairs.flash = true := by
  unfold State.commitRepairs
  split
  · exact h
  · exact State.commitStore_form _ _ _ h

@[simp] theorem State.startDies_pending (s : State) (b : BootFinds) : (s.startDies b).pending = s.pending := by
  simp [State.startDies]

theorem State.startDies_form {s : State} (b : BootFinds) (h : Memory.wf s.flash = true) : Memory.wf (s.startDies b).flash = true := by
  refine State.commitRepairs_form (State.confirm_form ?_)
  simpa using h

@[simp] theorem State.rebuild_pending (s : State) : s.rebuild.pending = s.pending := by
  simp [State.rebuild]

theorem State.rebuild_form {s : State} (h : Memory.wf s.flash = true) : Memory.wf s.rebuild.flash = true := by
  unfold State.rebuild
  split
  · exact h
  · dsimp only
    split <;> simp [State.commitStore_form, h]

@[simp] theorem State.bootFirmware_pending (s : State) : s.bootFirmware.pending = s.pending := by
  simp [State.bootFirmware]

theorem State.bootFirmware_form {s : State} (h : Memory.wf s.flash = true) : Memory.wf s.bootFirmware.flash = true := by
  simp only [State.bootFirmware]
  generalize ht : (if (!bit s.dir.confirmed s.dir.preferred && decide (0 < s.dir.tries)) = true then _ else s) = t
  have hform : Memory.wf t.flash = true := by
    rw [← ht]
    split
    · exact State.writeDir_form _ h
    · exact h
  split
  · simpa using hform
  · split <;> simpa using hform

@[simp] theorem State.bootKeeper_pending (s : State) (b : BootFinds) : (s.bootKeeper b).pending = s.pending := by
  simp [State.bootKeeper]

theorem State.bootKeeper_form {s : State} (b : BootFinds) (h : Memory.wf s.flash = true) : Memory.wf (s.bootKeeper b).flash = true := by
  simp only [State.bootKeeper]
  generalize ht : State.bootFirmware _ = t
  have hform : Memory.wf t.flash = true := by
    rw [← ht]
    refine State.bootFirmware_form ?_
    simpa using h
  split
  · exact hform
  · simpa using State.rebuild_form hform

theorem execPowerOn_answers (b : BootFinds) (s : State) : Answers s (execPowerOn b s) := by
  unfold execPowerOn
  dsimp only
  generalize hk : State.bootKeeper _ b = k
  have hpending : k.pending = s.pending := by simp [← hk]
  have hform (h : Memory.wf s.flash = true) : Memory.wf k.flash = true := by
    rw [← hk]
    refine State.bootKeeper_form _ ?_
    simpa using h
  repeat' split
  · exact answers_next.2 ⟨rfl, id⟩
  · exact answers_next.2 ⟨rfl, id⟩
  · exact answers_next.2 ⟨hpending, hform⟩
  · refine answers_next.2 ⟨by simp [hpending], fun h => ?_⟩
    simp [State.startDies_form, hform h]
  · exact answers_next.2 ⟨by simp [hpending], fun h => by simpa using hform h⟩

theorem execGooseRestart_answers (b : BootFinds) (s : State) : Answers s (execGooseRestart b s) := by
  unfold execGooseRestart
  dsimp only
  generalize hk : State.bootKeeper _ b = k
  have hpending : k.pending = s.pending := by simp [← hk]
  have hform (h : Memory.wf s.flash = true) : Memory.wf k.flash = true := by
    rw [← hk]
    refine State.bootKeeper_form _ ?_
    simpa using h
  repeat' split
  all_goals refine answers_next.2 ⟨by simp [hpending], fun h => ?_⟩
  all_goals have := hform h
  all_goals simp_all [State.startDies_form]

theorem State.powerTo_answers (s : State) (st : PwrSt) (b : BootFinds) : Answers s (.next (s.powerTo st b)) := by
  rw [answers_next]
  cases st with
  | mgmt => simp [State.powerTo]
  | run =>
    simp only [State.powerTo]
    split
    · exact ⟨by simp, fun h => by simp [State.startDies_form, h]⟩
    · simp
  | parked =>
    refine ⟨by simp [State.powerTo], fun h => ?_⟩
    simp only [State.powerTo]
    split <;> split <;> simp [State.startDies_form, h]

theorem execPowerTransitionComplete_answers (b : BootFinds) (s : State) : Answers s (execPowerTransitionComplete b s) := by
  unfold execPowerTransitionComplete
  split
  · exact answers_next.2 ⟨rfl, id⟩
  case h_2 st src hmoving =>
    split
    · exact answers_next.2 ⟨rfl, id⟩
    · cases src with
      | none => exact State.powerTo_answers s st b
      | some c =>
        have hto := answers_next.1 (State.powerTo_answers (s.reply c 0x0E03 .ok [BitVec.ofNat 8 s.pwr.st.code]) st b)
        simp only [State.reply_pending, State.reply_flash] at hto
        exact answers_next.2 hto

theorem execDieResetComplete_answers (d : DieId) (passed : Bool) (s : State) : Answers s (execDieResetComplete d passed s) := by
  unfold execDieResetComplete
  dsimp only
  repeat' split
  · exact answers_next.2 ⟨rfl, id⟩
  · refine answers_next.2 ⟨by simp, fun h => ?_⟩
    simp [State.confirm_form, h]
  · exact answers_next.2 ⟨by simp, fun h => by simpa using h⟩

theorem execInputPowerLoss_answers (s : State) : Answers s (execInputPowerLoss s) :=
  answers_next.2 ⟨rfl, id⟩

/-- Every command answers, with the queue as it was and a flash that stays in form (R76, R405). -/
theorem exec_answers (c : Instr) (s : State) : Answers s (exec c s) := by
  cases c with
  | muleInstruction d p => exact answers_of_still (execMuleInstruction_still ..)
  | ebreak d p => exact answers_of_still (execEbreak_still ..)
  | maPass d p rd rs1 rs2 => exact answers_of_still (execMaPass_still ..)
  | maPassInputEnd d p => exact answers_of_still (execMaPassInputEnd_still ..)
  | maPassComplete d p mis => exact answers_of_still (execMaPassComplete_still ..)
  | eeRun d p rd rs1 rs2 => exact answers_of_still (execEeRun_still ..)
  | eeRowEnd d p => exact answers_of_still (execEeRowEnd_still ..)
  | eeRunComplete d p => exact answers_of_still (execEeRunComplete_still ..)
  | eeCompress d p rd rs1 rs2 => exact answers_of_still (execEeCompress_still ..)
  | eeCompressComplete d p => exact answers_of_still (execEeCompressComplete_still ..)
  | eeExpand d p rd rs1 rs2 => exact answers_of_still (execEeExpand_still ..)
  | eeExpandComplete d p => exact answers_of_still (execEeExpandComplete_still ..)
  | dmaCopy d p rd rs1 rs2 => exact answers_of_still (execDmaCopy_still ..)
  | dmaCopyComplete d e ue far => exact answers_of_still (execDmaCopyComplete_still ..)
  | henLaunch d p rd rs1 rs2 => exact answers_of_still (execHenLaunch_still ..)
  | henLaunchU d p rd rs1 rs2 => exact answers_of_still (execHenLaunchU_still ..)
  | henRequestIssue d t => exact answers_of_still (execHenRequestIssue_still ..)
  | henReply d t e status data => exact answers_of_still (execHenReply_still ..)
  | henRequestTimeout d t e => exact answers_of_still (execHenRequestTimeout_still ..)
  | henLateReply d t => exact answers_of_still (execHenLateReply_still ..)
  | henJobComplete d j => exact answers_of_still (execHenJobComplete_still ..)
  | asStream d p rd rs1 rs2 => exact answers_of_still (execAsStream_still ..)
  | slotArm d p rd rs1 rs2 => exact answers_of_still (execSlotArm_still ..)
  | lrWait d p rs1 => exact answers_of_still (execLrWait_still ..)
  | lrTest d p rd rs1 => exact answers_of_still (execLrTest_still ..)
  | endOp d p => exact answers_of_still (execEndOp_still ..)
  | muleWaitRelease d p => exact answers_of_still (execMuleWaitRelease_still ..)
  | callr d p rd rs1 imm => exact answers_of_still (execCallr_still ..)
  | retr d p => exact answers_of_still (execRetr_still ..)
  | routineBudgetPadEnd d p => exact answers_of_still (execRoutineBudgetPadEnd_still ..)
  | urBr d p f3 rs1 rs2 imm => exact answers_of_still (execUrBr_still ..)
  | urJoin d p rd rs1 imm => exact answers_of_still (execUrJoin_still ..)
  | urPadEnd d p => exact answers_of_still (execUrPadEnd_still ..)
  | psyncWrite d p rd value => exact answers_of_still (execPsyncWrite_still ..)
  | psyncInsertionEnd d p => exact answers_of_still (execPsyncInsertionEnd_still ..)
  | muleThermalGate d p => exact answers_of_still (execMuleThermalGate_still ..)
  | unitIdleTimerExpiry u => exact answers_of_still (execUnitIdleTimerExpiry_still ..)
  | unitWake u => exact answers_of_still (execUnitWake_still ..)
  | wakePoint r ix => exact answers_of_still (execWakePoint_still ..)
  | pageWalkComplete d slot va access kind no stream => exact answers_of_still (execPageWalkComplete_still ..)
  | tlbInvalGo d v => exact answers_of_still (execTlbInvalGo_still ..)
  | tlbInvalDone d => exact answers_of_still (execTlbInvalDone_still ..)
  | pfResolve d v => exact answers_of_still (execPfResolve_still ..)
  | hbmRefreshSlot d pc found temp => exact answers_of_still (execHbmRefreshSlot_still ..)
  | hbmMigrateStart d v => exact answers_of_still (execHbmMigrateStart_still ..)
  | hbmMigrationComplete d => exact answers_of_still (execHbmMigrationComplete_still ..)
  | peerRead d l k ue => exact answers_of_still (execPeerRead_still ..)
  | peerWrite d l k ue => exact answers_of_still (execPeerWrite_still ..)
  | peerAtomic d l k ue => exact answers_of_still (execPeerAtomic_still ..)
  | peerReply d k => exact answers_of_still (execPeerReply_still ..)
  | bpApply d v => exact answers_of_still (execBpApply_still ..)
  | bpFwAllocate d v => exact answers_of_still (execBpFwAllocate_still ..)
  | bpFwFree d v => exact answers_of_still (execBpFwFree_still ..)
  | bpFreeWrite d pool => exact answers_of_still (execBpFreeWrite_still ..)
  | arrColcfgApply d p v => exact answers_of_still (execArrColcfgApply_still ..)
  | hubPacketIngress src k stripe => exact answers_of_still (execHubPacketIngress_still ..)
  | hubEgressCell o chk => exact answers_of_still (execHubEgressCell_still ..)
  | hubPartitionWrite v => exact answers_of_still (execHubPartitionWrite_still ..)
  | hubDtAlphaWrite v => exact answers_of_still (execHubDtAlphaWrite_still ..)
  | hubEgressShareWrite v => exact answers_of_still (execHubEgressShareWrite_still ..)
  | hubBankMigrateStart v => exact answers_of_still (execHubBankMigrateStart_still ..)
  | hubBankRemove b => exact answers_of_still (execHubBankRemove_still ..)
  | oxDispatch net cls => exact answers_of_still (execOxDispatch_still ..)
  | oxStepFire b off bad ue => exact answers_of_still (execOxStepFire_still ..)
  | oxStepComplete b off => exact answers_of_still (execOxStepComplete_still ..)
  | round b ix => exact answers_of_still (execRound_still ..)
  | carry b ix => exact answers_of_still (execCarry_still ..)
  | merge b ix bad => exact answers_of_still (execMerge_still ..)
  | sort b ix bad => exact answers_of_still (execSort_still ..)
  | topk b ix bad => exact answers_of_still (execTopk_still ..)
  | filter b ix bad => exact answers_of_still (execFilter_still ..)
  | isect b ix bad => exact answers_of_still (execIsect_still ..)
  | diff b ix bad => exact answers_of_still (execDiff_still ..)
  | union b ix bad => exact answers_of_still (execUnion_still ..)
  | load b ix => exact answers_of_still (execLoad_still ..)
  | gather b ix => exact answers_of_still (execGather_still ..)
  | emit b ix => exact answers_of_still (execEmit_still ..)
  | oxOpenReceive k owner => exact answers_of_still (execOxOpenReceive_still ..)
  | oxAbortReceive k => exact answers_of_still (execOxAbortReceive_still ..)
  | oxAbortSend b => exact answers_of_still (execOxAbortSend_still ..)
  | collTimeout b => exact answers_of_still (execCollTimeout_still ..)
  | collCoolExpiry b => exact answers_of_still (execCollCoolExpiry_still ..)
  | collFetchPacket b ue => exact answers_of_still (execCollFetchPacket_still ..)
  | collResultWrite d k => exact answers_of_still (execCollResultWrite_still ..)
  | collBind src glob loc prog => exact answers_of_still (execCollBind_still ..)
  | collStart src ctx coll => exact answers_of_still (execCollStart_still ..)
  | collAbort src ctx coll => exact answers_of_still (execCollAbort_still ..)
  | collFree src ctx coll => exact answers_of_still (execCollFree_still ..)
  | collStatus src key => exact answers_of_still (execCollStatus_still ..)
  | flitSend l => exact answers_of_still (execFlitSend_still ..)
  | flitReceive l f => exact answers_of_still (execFlitReceive_still ..)
  | controlCell l c => exact answers_of_still (execControlCell_still ..)
  | linkAckTimeout l => exact answers_of_still (execLinkAckTimeout_still ..)
  | linkSignalLoss l lane => exact answers_of_still (execLinkSignalLoss_still ..)
  | linkTrainingComplete l t => exact answers_of_still (execLinkTrainingComplete_still ..)
  | linkRetrainDelayExpiry l => exact answers_of_still (execLinkRetrainDelayExpiry_still ..)
  | flightRemeasure l f => exact answers_of_still (execFlightRemeasure_still ..)
  | laneErrorCheck l => exact answers_of_still (execLaneErrorCheck_still ..)
  | laneSwap l => exact answers_of_still (execLaneSwap_still ..)
  | linkCtlEnableClear l => exact answers_of_still (execLinkCtlEnableClear_still ..)
  | linkCtlRetrain l => exact answers_of_still (execLinkCtlRetrain_still ..)
  | routeWrite src version table first count rsv entries => exact answers_of_still (execRouteWrite_still ..)
  | routeCommit src version t => exact answers_of_still (execRouteCommit_still ..)
  | routeStatus src => exact answers_of_still (execRouteStatus_still ..)
  | linkSet src mask action mode => exact answers_of_still (execLinkSet_still ..)
  | linkStatus src link => exact answers_of_still (execLinkStatus_still ..)
  | windowSet src ctx window rctx route base len => exact answers_of_still (execWindowSet_still ..)
  | epochFlush src epoch => exact answers_of_still (execEpochFlush_still ..)
  | timeCellSend l => exact answers_of_still (execTimeCellSend_still ..)
  | timeCell l c => exact answers_of_still (execTimeCell_still ..)
  | syncPulseDrive k foreign => exact answers_of_still (execSyncPulseDrive_still ..)
  | syncPulseReceive width at_ => exact answers_of_still (execSyncPulseReceive_still ..)
  | launchPrewake r => exact answers_of_still (execLaunchPrewake_still ..)
  | launchStart x => exact answers_of_still (execLaunchStart_still ..)
  | periodStart r refresh replay => exact answers_of_still (execPeriodStart_still ..)
  | periodLagTimeout r => exact answers_of_still (execPeriodLagTimeout_still ..)
  | slotData d k arrival => exact answers_of_still (execSlotData_still ..)
  | slotConsume d e => exact answers_of_still (execSlotConsume_still ..)
  | schedCollFetchStart r ix => exact answers_of_still (execSchedCollFetchStart_still ..)
  | schedAbortSend r => exact answers_of_still (execSchedAbortSend_still ..)
  | schedAbortPacket k => exact answers_of_still (execSchedAbortPacket_still ..)
  | launchResourcesRelease r => exact answers_of_still (execLaunchResourcesRelease_still ..)
  | schedLoad src ctx va len => exact answers_of_still (execSchedLoad_still ..)
  | schedUnload src ctx => exact answers_of_still (execSchedUnload_still ..)
  | schedStatus src key => exact answers_of_still (execSchedStatus_still ..)
  | schedStop src ctx last => exact answers_of_still (execSchedStop_still ..)
  | schedAbort src ctx => exact answers_of_still (execSchedAbort_still ..)
  | timeStatus src => exact answers_of_still (execTimeStatus_still ..)
  | timeSet src t => exact answers_of_still (execTimeSet_still ..)
  | ethFrameReceive k q f => exact answers_of_still (execEthFrameReceive_still ..)
  | arpRequest k q f => exact answers_of_still (execArpRequest_still ..)
  | pfcFrame k q enable quanta => exact answers_of_still (execPfcFrame_still ..)
  | pfcPauseExpiry k q n => exact answers_of_still (execPfcPauseExpiry_still ..)
  | pfcRepeat k q n => exact answers_of_still (execPfcRepeat_still ..)
  | pfcXon k q n drained => exact answers_of_still (execPfcXon_still ..)
  | mboxSegment k q f => exact answers_of_still (execMboxSegment_still ..)
  | dataSegment k q f ue => exact answers_of_still (execDataSegment_still ..)
  | ackSegment k q f => exact answers_of_still (execAckSegment_still ..)
  | nakSegment k q f => exact answers_of_still (execNakSegment_still ..)
  | transportAckTimer c => exact answers_of_still (execTransportAckTimer_still ..)
  | xportRtoExpiry c => exact answers_of_still (execXportRtoExpiry_still ..)
  | xferDoneSend x => exact answers_of_still (execXferDoneSend_still ..)
  | getDataSend x ue => exact answers_of_still (execGetDataSend_still ..)
  | egressFrameSelect k q => exact answers_of_still (execEgressFrameSelect_still ..)
  | shaperWheelSlot k q => exact answers_of_still (execShaperWheelSlot_still ..)
  | entryShaperRelease port l => exact answers_of_still (execEntryShaperRelease_still ..)
  | subportLinkChange k q up => exact answers_of_still (execSubportLinkChange_still ..)
  | portSet src port mode jumbo txTag addrs => exact answers_of_still (execPortSet_still ..)
  | portStatus src port => exact answers_of_still (execPortStatus_still ..)
  | xferOpen src ctx die dir pcp va len => exact answers_of_still (execXferOpen_still ..)
  | xferStatus src x => exact answers_of_still (execXferStatus_still ..)
  | xferCancel src x => exact answers_of_still (execXferCancel_still ..)
  | meterSet src port meter enable actions cir pir cbs pbs => exact answers_of_still (execMeterSet_still ..)
  | queueSet src port sub queue weight rate burst => exact answers_of_still (execQueueSet_still ..)
  | entrySet src rate => exact answers_of_still (execEntrySet_still ..)
  | mailboxFrame c oob seg => exact answers_of_still (execMailboxFrame_still ..)
  | mailboxCommandStart c m => exact answers_of_still (execMailboxCommandStart_still ..)
  | sessionOpen src modulus exponent nonce => exact answers_of_still (execSessionOpen_still ..)
  | sessionClose src => exact answers_of_still (execSessionClose_still ..)
  | ctrlEnrol src who entry rsv count keyHash sig => exact answers_of_still (execCtrlEnrol_still ..)
  | ctrlRevoke src who rsv count sig => exact answers_of_still (execCtrlRevoke_still ..)
  | ctrlList src => exact answers_of_still (execCtrlList_still ..)
  | ctxCreate src want flags rsv mask l1 => exact answers_of_still (execCtxCreate_still ..)
  | ctxDestroy src ctx => exact answers_of_still (execCtxDestroy_still ..)
  | ctxStatus src ctx => exact answers_of_still (execCtxStatus_still ..)
  | ctxSave src ctx => exact answers_of_still (execCtxSave_still ..)
  | ctxList src first => exact answers_of_still (execCtxList_still ..)
  | ctxReset src ctx => exact answers_of_still (execCtxReset_still ..)
  | ctxAdopt src ctx => exact answers_of_still (execCtxAdopt_still ..)
  | ctxHalt src ctx => exact answers_of_still (execCtxHalt_still ..)
  | memPfResolve src die action id => exact answers_of_still (execMemPfResolve_still ..)
  | tlbFlush src ctx mask all va pages => exact answers_of_still (execTlbFlush_still ..)
  | exportSet src die entry data => exact answers_of_still (execExportSet_still ..)
  | poolSet src die region counts quotas => exact answers_of_still (execPoolSet_still ..)
  | memModeSet src ctx mask mode => exact answers_of_still (execMemModeSet_still ..)
  | poolStatus src die => exact answers_of_still (execPoolStatus_still ..)
  | progLoad src ctx mask va len => exact answers_of_still (execProgLoad_still ..)
  | launch src ctx flags t0 p0 => exact answers_of_still (execLaunch_still ..)
  | routineLoad src ctx mask va len => exact answers_of_still (execRoutineLoad_still ..)
  | routinePatch src ctx mask va len => exact answers_of_still (execRoutinePatch_still ..)
  | unitDisable src die kind index mode => exact answers_of_still (execUnitDisable_still ..)
  | unitEnable src die kind index => exact answers_of_still (execUnitEnable_still ..)
  | dbgBreakSet src ctx die tile ctl inst lrc => exact answers_of_still (execDbgBreakSet_still ..)
  | dbgResume src ctx mask => exact answers_of_still (execDbgResume_still ..)
  | dbgStep src ctx die tile => exact answers_of_still (execDbgStep_still ..)
  | dbgHalt src ctx die tile => exact answers_of_still (execDbgHalt_still ..)
  | devInfo src => exact answers_of_still (execDevInfo_still ..)
  | devCaps src => exact answers_of_still (execDevCaps_still ..)
  | stateRead src addr len => exact answers_of_still (execStateRead_still ..)
  | stateWrite src addr len data => exact answers_of_still (execStateWrite_still ..)
  | stateSnap src count ranges => exact answers_of_still (execStateSnap_still ..)
  | unitMap src die => exact answers_of_still (execUnitMap_still ..)
  | collLinesRead src ctx coll first count ue => exact answers_of_still (execCollLinesRead_still ..)
  | saveRead src ctx die tile buffer offset len => exact answers_of_still (execSaveRead_still ..)
  | ctxView src ctx => exact answers_of_still (execCtxView_still ..)
  | collList src first => exact answers_of_still (execCollList_still ..)
  | monitorSample m inlet outlet => exact answers_of_still (execMonitorSample_still ..)
  | tileSubstitution d p ue => exact answers_of_still (execTileSubstitution_still ..)
  | healthStatus src => exact answers_of_still (execHealthStatus_still ..)
  | monRead src die clear => exact answers_of_still (execMonRead_still ..)
  | logRead src first count => exact answers_of_still (execLogRead_still ..)
  | mirrorRead src first count => exact answers_of_still (execMirrorRead_still ..)
  | ledgerRead src first count => exact answers_of_still (execLedgerRead_still ..)
  | spareList src => exact answers_of_still (execSpareList_still ..)
  | spareApply src kind die index => exact answers_of_still (execSpareApply_still ..)
  | selftest src die tile repeat_ found => exact answers_of_still (execSelftest_still ..)
  | quarantineGrant src node token t x => exact answers_of_still (execQuarantineGrant_still ..)
  | quarantineRelease src => exact answers_of_still (execQuarantineRelease_still ..)
  | healthSet src limit margin => exact answers_of_still (execHealthSet_still ..)
  | progressRead src ctx => exact answers_of_still (execProgressRead_still ..)
  | progressMark src ctx action => exact answers_of_still (execProgressMark_still ..)
  | ledgerNote src note => exact answers_of_still (execLedgerNote_still ..)
  | histRead src die => exact answers_of_still (execHistRead_still ..)
  | powerOn b => exact execPowerOn_answers ..
  | gooseRestart b => exact execGooseRestart_answers ..
  | dieReset d byCtrl => exact answers_of_still (execDieReset_still ..)
  | configCommitRun readbackOk repairOk => exact execConfigCommitRun_answers ..
  | cfgRead src source type first => exact answers_of_still (execCfgRead_still ..)
  | cfgSet src type index data len => exact answers_of_still (execCfgSet_still ..)
  | cfgCommit src expected => exact answers_of_still (execCfgCommit_still ..)
  | cfgDiscard src => exact answers_of_still (execCfgDiscard_still ..)
  | cfgStatus src => exact answers_of_still (execCfgStatus_still ..)
  | ownerSet src modulus exponent count flags rsv sig => exact answers_of_still (execOwnerSet_still (_rsv := rsv) ..)
  | idCert src => exact answers_of_still (execIdCert_still ..)
  | attestQuote src nonce mask => exact answers_of_still (execAttestQuote_still ..)
  | measRead src => exact answers_of_still (execMeasRead_still ..)
  | measExtend src digest => exact answers_of_still (execMeasExtend_still ..)
  | fwWrite src offset flags data => exact execFwWrite_answers ..
  | fwActivate src flags => exact execFwActivate_answers ..
  | fwStatus src => exact answers_of_still (execFwStatus_still ..)
  | factoryRead src block => exact answers_of_still (execFactoryRead_still ..)
  | svnRaise src svn keys => exact answers_of_still (execSvnRaise_still ..)
  | powerSample vin iin pin energy sustained => exact answers_of_still (execPowerSample_still ..)
  | trip cause die => exact answers_of_still (execTrip_still ..)
  | pmbusPoll answers => exact answers_of_still (execPmbusPoll_still ..)
  | pmbAlert answers => exact answers_of_still (execPmbAlert_still ..)
  | smbusBlockRead cmd => exact answers_of_still (execSmbusBlockRead_still ..)
  | clkStatus src die => exact answers_of_still (execClkStatus_still ..)
  | pwrStatus src => exact answers_of_still (execPwrStatus_still ..)
  | powerStateSet src state => exact answers_of_still (execPowerStateSet_still ..)
  | idleTimerSet src us => exact answers_of_still (execIdleTimerSet_still ..)
  | unitSleep src die kind index state => exact answers_of_still (execUnitSleep_still ..)
  | thermSet src temp => exact answers_of_still (execThermSet_still ..)
  | tripClear src => exact answers_of_still (execTripClear_still ..)
  | registerWrite addr v => exact answers_of_still (execRegisterWrite_still ..)
  | testPortInstruction ix => exact answers_of_still (execTestPortInstruction_still ..)
  | pmbusRead src addr cmd len answer => exact answers_of_still (execPmbusRead_still ..)
  | dieResetComplete d passed => exact execDieResetComplete_answers ..
  | powerTransitionComplete b => exact execPowerTransitionComplete_answers ..
  | ctxSaveComplete ctx => exact answers_of_still (execCtxSaveComplete_still ..)
  | remoteWindowRequest d l k write ue => exact answers_of_still (execRemoteWindowRequest_still ..)
  | oobLinkChange up => exact answers_of_still (execOobLinkChange_still ..)
  | hubSnapTake => exact answers_of_still (execHubSnapTake_still ..)
  | hubSnapComplete => exact answers_of_still (execHubSnapComplete_still ..)
  | hubBankMigrationComplete => exact answers_of_still (execHubBankMigrationComplete_still ..)
  | routeCommitTakeEffect => exact answers_of_still (execRouteCommitTakeEffect_still ..)
  | parentLossTimeout => exact answers_of_still (execParentLossTimeout_still ..)
  | holdoverTimeout => exact answers_of_still (execHoldoverTimeout_still ..)
  | syncMarkMissed => exact answers_of_still (execSyncMarkMissed_still ..)
  | mbxWatchdogExpiry => exact answers_of_still (execMbxWatchdogExpiry_still ..)
  | healthScoreCompute => exact answers_of_still (execHealthScoreCompute_still ..)
  | dayRollover => exact answers_of_still (execDayRollover_still ..)
  | qRequestRepeat => exact answers_of_still (execQRequestRepeat_still ..)
  | quarantineTakeEffect => exact answers_of_still (execQuarantineTakeEffect_still ..)
  | tokenLapse => exact answers_of_still (execTokenLapse_still ..)
  | logIntake => exact answers_of_still (execLogIntake_still ..)
  | mirrorCopy => exact answers_of_still (execMirrorCopy_still ..)
  | ledgerRecordWrite => exact execLedgerRecordWrite_answers ..
  | claimWindowClose => exact answers_of_still (execClaimWindowClose_still ..)
  | refclkLoss => exact answers_of_still (execRefclkLoss_still ..)
  | refclkReturn => exact answers_of_still (execRefclkReturn_still ..)
  | inputPowerLoss => exact execInputPowerLoss_answers ..
  | insertionLevelStep => exact answers_of_still (execInsertionLevelStep_still ..)
  | modEnRise => exact answers_of_still (execModEnRise_still ..)
  | modEnFall => exact answers_of_still (execModEnFall_still ..)
  | smbusAlertResponse => exact answers_of_still (execSmbusAlertResponse_still ..)
  | fabricTimeUnitFailure => exact answers_of_still (execFabricTimeUnitFailure_still ..)

theorem step_keepsForm {s t : State} (hflash : Memory.wf s.flash = true) (h : step s = .next t) : Memory.wf t.flash = true := by
  unfold step at h
  split at h
  · cases h
    simpa using hflash
  case h_2 c rest hpending =>
    obtain ⟨u, hu, -, hform⟩ := exec_answers c { s with pending := rest }
    rw [hu] at h
    cases h
    exact hform hflash

/-- Settles O59: erasing filters the flash's list and programming writes into it; no other operation touches it. -/
theorem everyStepKeepsTheFlashCanonical : Obligations.EveryStepKeepsTheFlashCanonical :=
  fun _ _ => step_keepsForm

/-- Settles O60: each command of the table is one call of its meaning, and none touches the queue. -/
theorem everyCommandAnswersAndLeavesTheQueue : Obligations.EveryCommandAnswersAndLeavesTheQueue := by
  intro c s
  obtain ⟨t, ht, hpending, -⟩ := exec_answers c s
  exact ⟨t, ht, hpending⟩

theorem State.tick_eq (s : State) : s.tick = { s with aonNs := s.aonNs + 1, ft := s.tick.ft } ∧
    s.tick.ft = { s.ft with now := s.tick.ft.now, due := s.tick.ft.due } ∧ (s.ft.failed = true → s.tick.ft = s.ft) ∧
    (s.ft.failed = false → s.ft.due = [] → s.tick.ft.now = s.ft.now + 1) := by
  unfold State.tick
  cases hfailed : s.ft.failed
  · refine ⟨rfl, rfl, nofun, fun _ hdue => ?_⟩
    simp only [hdue, takeDue, Bool.false_eq_true, if_false]
    omega
  · exact ⟨rfl, rfl, fun _ => rfl, nofun⟩

/-- Settles O1: the step's two cases, and what a tick changes. -/
theorem stepRunsTheFrontCommandOrPassesTime : Obligations.StepRunsTheFrontCommandOrPassesTime := by
  refine ⟨fun _ _ _ => rfl, fun s hs => ⟨s.tick, ?_, ?_⟩⟩
  · simp only [step, hs]
  · obtain ⟨htick, hft, hfailed, hnow⟩ := s.tick_eq
    have haon : s.tick.aonNs = s.aonNs + 1 := congrArg State.aonNs htick
    exact ⟨haon, haon ▸ htick, hft, hfailed, hnow⟩


end Sys2Proof.Machine

namespace Sys2Proof.Machine

/-! Retirement and faults of a Mule (R73 to R77). -/

theorem Mule.x_setX (m : Mule) (rd r : Nat) (v : Word) : (m.setX rd v).x r = if r = rd ∧ r ≠ 0 then v else m.x r := by
  unfold Mule.setX Mule.x
  split <;> split <;> simp_all

/-- Retirement changes of a Mule its registers, PC, counts and the cycles of its calls and arm. -/
theorem Mule.retire_eq (m : Mule) (rd : Nat) (v pc : Word) (c : Nat) :
    m.retire rd v pc c = { m with regs := (m.retire rd v pc c).regs, pc := (m.retire rd v pc c).pc,
                                  instret := (m.retire rd v pc c).instret, brkSkip := false,
                                  stack := (m.retire rd v pc c).stack, arm := (m.retire rd v pc c).arm } := by
  unfold Mule.retire Mule.setX Mule.spend
  split <;> rfl

theorem Mule.retire_instret (m : Mule) (rd : Nat) (v pc : Word) (c : Nat) : (m.retire rd v pc c).instret = m.instret + 1 := by
  unfold Mule.retire Mule.setX Mule.spend
  split <;> rfl

theorem Mule.x_retire (m : Mule) (rd r : Nat) (v pc : Word) (c : Nat) :
    (m.retire rd v pc c).x r = if r = rd ∧ r ≠ 0 then v else m.x r := by
  have hx : (m.retire rd v pc c).x r = ((m.spend c).setX rd v).x r := rfl
  rw [hx, Mule.x_setX]
  rfl

theorem State.onlyTile_modTile (s : State) (d p : Nat) (f : Tile → Tile) : OnlyTile s (s.modTile d p f) d p where
  rest := rfl
  dies k hk := by simp [State.modTile, hk]
  die := by simp [State.modTile]
  tiles q hq := by simp [hq]

/-- A fault of an unscheduled launch halts the other active Mules of its context with SOURCE 4 (R76). -/
theorem State.mule_haltLaunch_of_active {s : State} {d p x : Nat} (code : Err) (hctx : (s.tile d p).mem.ctx = some x)
    (hactive : (s.tile d p).mule.st.active = true) :
    ((s.haltLaunch x code).tile d p).mule = (s.tile d p).mule.halt code 4 0x1F 0 0 := by
  simp only [haltLaunch, remapTiles, tile, cd] at hctx hactive ⊢
  rw [tab_get_remap _ _ _ _ (by rfl), tab_get_remap _ _ _ _ (by rfl), if_pos ⟨hctx, hactive⟩]

theorem State.mule_muleFault_other {s : State} {d p x k q : Nat} (code : Err) (source unit tag lrc : Nat)
    (hactive : (s.tile d p).mule.st.active = true) (hctx : (s.tile d p).mem.ctx = some x) (hrec : s.liveRec? x = none)
    (hne : k ≠ d ∨ q ≠ p) (hctx' : (s.tile k q).mem.ctx = some x) (hactive' : (s.tile k q).mule.st.active = true) :
    ((s.muleFault d p code source unit tag lrc).tile k q).mule = (s.tile k q).mule.halt code 4 0x1F 0 0 := by
  have hother (f : Mule → Mule) : (s.modMule d p f).tile k q = s.tile k q := by
    rw [tile_modMule, if_neg (by tauto)]
  have hrec' (f : Mule → Mule) : (s.modMule d p f).liveRec? x = none := hrec
  have hhalt (f : Mule → Mule) : (((s.modMule d p f).haltLaunch x code).tile k q).mule = (s.tile k q).mule.halt code 4 0x1F 0 0 := by
    rw [mule_haltLaunch_of_active code (by rwa [hother]) (by rwa [hother]), hother]
  simp only [muleFault, hactive, if_true, hctx, hrec']
  split
  · rw [mule_launchEnd, tile_of_cds (setCtx_cds ..), hhalt]
  · rw [tile_of_cds (modCx_cds ..), hhalt]

/-- Settles O2: retirement changes one tile, and a fault halts its Mule and those of its launch. -/
theorem retirementAndFaultsHaveTheirEffects : Obligations.RetirementAndFaultsHaveTheirEffects := by
  refine ⟨fun s d p rd v pc c => ?_, fun s d p code source unit tag lrc => ⟨fun h => ?_, fun h => ?_, ?_⟩⟩
  · have ht : (s.retire d p rd v pc c).tile d p =
        { s.tile d p with
          mule := (s.tile d p).mule.retire rd v pc c
          mem := { (s.tile d p).mem with cycles := (s.tile d p).mem.cycles + c } } := by
      simp [State.retire]
    refine ⟨State.onlyTile_modTile .., fun r => ?_, ?_, ?_, ?_, ?_⟩
    · rw [ht, Mule.x_retire]
    · rw [ht]; rfl
    · rw [ht]; exact Mule.retire_instret ..
    · rw [ht]; exact Mule.retire_eq ..
    · rw [ht]
  · exact State.mule_muleFault code source unit tag lrc h
  · simp [State.muleFault, h]
  · exact fun x k q hact hctx hrec hne => State.mule_muleFault_other code source unit tag lrc hact hctx hrec hne

end Sys2Proof.Machine

namespace Sys2Proof.Machine

/-! Ordinary instructions that retire (R73 to R77). -/

theorem muleLoad_inside (t : Tile) (rs : Mem) {n a o : Nat} {win : Win} (sg : Bool) (h : a % n = 0) (hwin : winOf a n = some (win, o)) :
    muleLoad t rs n sg a = .ok (if sg then BitVec.ofInt 64 (sx (8 * n) (Mem.readLe (winMem t rs win) o n))
      else BitVec.ofNat 64 (Mem.readLe (winMem t rs win) o n)) := by
  simp only [muleLoad, h, hwin, ne_eq, not_true_eq_false, if_false, sext]

theorem muleStore_data (t : Tile) {n a o : Nat} (v : Nat) (h : a % n = 0) (hwin : winOf a n = some (.data, o)) :
    muleStore t n a v = .ok { t with mem := { t.mem with dmem := Mem.writeLe t.mem.dmem o n v } } := by
  simp [muleStore, h, hwin]

theorem muleStore_inactive (t : Tile) {n a o : Nat} (v : Nat) (h : a % n = 0) (hwin : winOf a n = some (.b, o)) :
    muleStore t n a v = .ok (t.modB fun m => Mem.writeLe m o n v) := by
  simp [muleStore, h, hwin]

/-- The Mule's registers stand below PSYNC (R77, R352). -/
theorem Mule.regAt_lt {m : Mule} {k v : Nat} (h : m.regAt k = some v) : k < 13 := by
  unfold Mule.regAt at h
  split at h
  case h_14 => cases h
  all_goals decide

section

variable {s : State} {d : CdId} {p : PTile} (hready : Ready s d p none) {w len : Nat}
  (hfetch : fetch (s.tile d p) (s.cd d).rs.mem = .ok (w, len))
include hready hfetch

theorem exec_muleInstruction_of_load {rd n : Nat} {sg : Bool} {a v : Word}
    (heff : muleEff (s.tile d p).mule.x (s.tile d p).mule.pc w = .load rd n sg a)
    (hload : muleLoad (s.tile d p) (s.cd d).rs.mem n sg a.toNat = .ok v) :
    exec (.muleInstruction d p) s = .next (s.retire d p rd v ((s.tile d p).mule.pc + BitVec.ofNat 64 len) 2) := by
  rw [exec_muleInstruction_of_eff hready hfetch heff nofun nofun]
  simp only [State.muleDo, hload]

theorem exec_muleInstruction_of_store {n : Nat} {a v : Word} {t : Tile}
    (heff : muleEff (s.tile d p).mule.x (s.tile d p).mule.pc w = .store n a v)
    (hstore : muleStore (s.tile d p) n a.toNat v.toNat = .ok t) :
    exec (.muleInstruction d p) s =
      .next ((s.modTile d p fun _ => t).retire d p 0 0 ((s.tile d p).mule.pc + BitVec.ofNat 64 len) 1) := by
  rw [exec_muleInstruction_of_eff hready hfetch heff nofun nofun]
  simp only [State.muleDo, hstore]

/-- A read of one of the Mule's own registers (R77). -/
theorem exec_muleInstruction_of_regAt {rd k v : Nat}
    (heff : muleEff (s.tile d p).mule.x (s.tile d p).mule.pc w = .csr rd (0x7C0 + k) false false)
    (hreg : (s.tile d p).mule.regAt k = some v) :
    exec (.muleInstruction d p) s =
      .next (s.retire d p rd (BitVec.ofNat 64 v) ((s.tile d p).mule.pc + BitVec.ofNat 64 len) 1) := by
  have hk : 0x7C0 + k ≠ 0x7E0 := by have := Mule.regAt_lt hreg; omega
  have hno : 0x7C0 + k - 0x7C0 = k := by omega
  change execMuleInstruction d p s = _
  simp [execMuleInstruction, hfetch, heff, hk, State.muleStep_of_ready hready, State.muleDo, hreg]

end

/-- Settles O3: each effect of a fetched word is carried out as its kind says. -/
theorem ordinaryInstructionsRetire : Obligations.OrdinaryInstructionsRetire := by
  intro d p s w len hready hfetch t e next
  have done {e' : Eff} (he : e = e') := exec_muleInstruction_of_eff hready hfetch he
  refine ⟨fun rd v c he => done he nofun nofun, fun rd a he => done he nofun nofun, fun a he => done he nofun nofun,
    fun a he => done he nofun nofun,
    fun rd n sg a win o he hal hwin => exec_muleInstruction_of_load hready hfetch he (muleLoad_inside _ _ sg hal hwin),
    fun n a v o he hal hwin => exec_muleInstruction_of_store hready hfetch he (muleStore_data _ _ hal hwin),
    fun n a v o he hal hwin => exec_muleInstruction_of_store hready hfetch he (muleStore_inactive _ _ hal hwin),
    fun rd k v he hreg => exec_muleInstruction_of_regAt hready hfetch he hreg⟩

end Sys2Proof.Machine

namespace Sys2Proof.Machine

theorem runs_of_exec {c : Instr} {s t : State} {P : State → Prop} (h : exec c s = .next t) (hP : P t) : Runs c s P := ⟨t, h, hP⟩

/-! Waits for tags (R83, R86, R533). -/

theorem OnlyTile.trans {s t u : State} {d p : Nat} (h : OnlyTile s t d p) (h' : OnlyTile t u d p) : OnlyTile s u d p where
  rest := by rw [h'.rest, h.rest]
  dies k hk := (h'.dies k hk).trans (h.dies k hk)
  die := by rw [h'.die, h.die]
  tiles q hq := (h'.tiles q hq).trans (h.tiles q hq)

theorem State.onlyTile_modMule (s : State) (d p : Nat) (f : Mule → Mule) : OnlyTile s (s.modMule d p f) d p := s.onlyTile_modTile ..

theorem State.onlyTile_modMem (s : State) (d p : Nat) (f : MuleMem → MuleMem) : OnlyTile s (s.modMem d p f) d p := s.onlyTile_modTile ..

/-- The clean end of a launch leaves every Mule (R86). -/
theorem State.mule_checkDone {s : State} (x d p : Nat) : ((s.checkDone x).tile d p).mule = (s.tile d p).mule := by
  unfold checkDone
  dsimp only
  split
  · rw [mule_launchEnd, tile_of_cds (setCtx_cds ..)]
  · rfl

theorem State.mule_retire (s : State) (d p rd : Nat) (v pc : Word) (c : Nat) :
    ((s.retire d p rd v pc c).tile d p).mule = (s.tile d p).mule.retire rd v pc c := by
  simp [State.retire]

@[simp] theorem Mule.retire_pc (m : Mule) (rd : Nat) (v pc : Word) (c : Nat) : (m.retire rd v pc c).pc = pc := rfl

/-- Retirement into x0 leaves the registers. -/
theorem Mule.x_retire_zero (m : Mule) (v pc : Word) (c r : Nat) : (m.retire 0 v pc c).x r = m.x r := by
  rw [Mule.x_retire, if_neg (by omega)]

section

variable {s : State} {d : CdId} {p : PTile} (hready : Ready s d p none)
include hready

theorem exec_lrWait_of_ready (rs1 : Fin 32) : exec (.lrWait d p rs1) s =
    .next (if (s.tile d p).mule.tags &&& (s.tile d p).mule.x rs1 = 0 then s.retire d p 0 0 ((s.tile d p).mule.pc + 4) 2
      else s.modTile d p fun t => { t with mule := { t.mule with st := .wait }
                                           mem := { t.mem with wait := .tags ((s.tile d p).mule.x rs1), waitFrom := s.aonNs } }) := by
  change execLrWait d p rs1 s = _
  rw [execLrWait, State.muleStep_of_ready hready]

variable (harm : (s.tile d p).mule.arm = none)
include harm

theorem exec_lrTest_of_ready (rd rs1 : Fin 32) : exec (.lrTest d p rd rs1) s =
    .next (s.retire d p rd ((s.tile d p).mule.x rs1 &&& ~~~(s.tile d p).mule.tags) ((s.tile d p).mule.pc + 4) 2) := by
  change execLrTest d p rd rs1 s = _
  rw [execLrTest, State.muleStep_of_ready hready, if_neg (by simp [harm])]

theorem exec_endOp_of_ready : exec (.endOp d p) s =
    .next (if (s.tile d p).mule.tags = 0 then
        ((s.retire d p 0 0 ((s.tile d p).mule.pc + 4) 2).modMule d p fun m => { m with st := .done }).checkDone (s.tile d p).cx
      else s.modTile d p fun t => { t with mule := { t.mule with st := .wait }
                                           mem := { t.mem with wait := .ending, waitFrom := s.aonNs } }) := by
  change execEndOp d p s = _
  rw [execEndOp, State.muleStep_of_ready hready, if_neg (by simp [harm])]

end

/-- The Mule of a tile released from WAIT goes on in STATE `st` (R86, R533). -/
def State.released (s : State) (d p : Nat) (st : MuleSt) : State :=
  (s.modMem d p fun m => { m with wait := .none }).modMule d p fun m =>
    { (m.retire 0 0 (m.pc + 4) (s.waited (s.tile d p))) with st := st }

theorem State.onlyTile_released (s : State) (d p : Nat) (st : MuleSt) : OnlyTile s (s.released d p st) d p :=
  (s.onlyTile_modMem ..).trans (onlyTile_modMule ..)

theorem State.mule_released (s : State) (d p : Nat) (st : MuleSt) : ((s.released d p st).tile d p).mule =
    { (s.tile d p).mule.retire 0 0 ((s.tile d p).mule.pc + 4) (s.waited (s.tile d p)) with st := st } := by
  simp [released]

theorem exec_muleWaitRelease_of_tags {s : State} {d : CdId} {p : PTile} {mask : Word} (hst : (s.tile d p).mule.st = .wait)
    (hwait : (s.tile d p).mem.wait = .tags mask) (htags : (s.tile d p).mule.tags &&& mask = 0) :
    exec (.muleWaitRelease d p) s = .next (s.released d p .run) := by
  change execMuleWaitRelease d p s = _
  unfold execMuleWaitRelease
  simp [hst, hwait, htags, State.released]

theorem exec_muleWaitRelease_of_ending {s : State} {d : CdId} {p : PTile} (hst : (s.tile d p).mule.st = .wait)
    (hwait : (s.tile d p).mem.wait = .ending) (htags : (s.tile d p).mule.tags = 0) :
    exec (.muleWaitRelease d p) s = .next ((s.released d p .done).checkDone (s.tile d p).cx) := by
  change execMuleWaitRelease d p s = _
  unfold execMuleWaitRelease
  simp [hst, hwait, htags, State.released]

/-- Settles O5: each clause is one branch of its instruction, on the tags still set. -/
theorem waitsFollowTheTags : Obligations.WaitsFollowTheTags := by
  intro d p s m
  refine ⟨fun rs1 hr htags => ?_, fun rs1 hr htags => ?_, fun rd rs1 hr harm => exec_lrTest_of_ready hr harm rd rs1,
    fun hr harm htags => ?_, fun hr harm htags => ?_, fun mask hst hwait htags => ?_, fun hst hwait htags => ?_⟩
  · rw [exec_lrWait_of_ready hr, if_pos htags]
  · refine runs_of_exec ((exec_lrWait_of_ready hr rs1).trans (congrArg _ (if_neg htags))) ⟨State.onlyTile_modTile .., ?_, ?_⟩ <;> simp [m]
  · refine runs_of_exec ((exec_endOp_of_ready hr harm).trans (congrArg _ (if_pos htags))) ?_
    rw [State.mule_checkDone]
    simp only [State.tile_modMule, and_self, if_true, State.mule_retire]
    exact ⟨trivial, rfl, fun r => Mule.x_retire_zero m 0 (m.pc + 4) 2 r⟩
  · refine runs_of_exec ((exec_endOp_of_ready hr harm).trans (congrArg _ (if_neg htags))) ⟨State.onlyTile_modTile .., ?_⟩
    simp [m]
  · refine runs_of_exec (exec_muleWaitRelease_of_tags hst hwait htags) ⟨State.onlyTile_released .., ?_⟩
    rw [State.mule_released]
    exact ⟨rfl, rfl, fun r => Mule.x_retire_zero m 0 (m.pc + 4) (s.waited (s.tile d p)) r⟩
  · refine runs_of_exec (exec_muleWaitRelease_of_ending hst hwait htags) ?_
    rw [State.mule_checkDone, State.mule_released]

end Sys2Proof.Machine

namespace Sys2Proof.Machine

/-! Calls and returns of routines (R79, R85, R91, R149). -/

/-- The reading of a register depends on the register file alone. -/
theorem Mule.x_of_regs {m m' : Mule} (h : m'.regs = m.regs) (r : Nat) : m'.x r = m.x r := by rw [Mule.x, Mule.x, h]

/-! A write of a register leaves the rest of the Mule. -/

@[simp] theorem Mule.setX_st (m : Mule) (i : Nat) (v : Word) : (m.setX i v).st = m.st := by unfold Mule.setX; split <;> rfl
@[simp] theorem Mule.setX_bank (m : Mule) (i : Nat) (v : Word) : (m.setX i v).bank = m.bank := by unfold Mule.setX; split <;> rfl
@[simp] theorem Mule.setX_stack (m : Mule) (i : Nat) (v : Word) : (m.setX i v).stack = m.stack := by unfold Mule.setX; split <;> rfl
@[simp] theorem Mule.setX_tags (m : Mule) (i : Nat) (v : Word) : (m.setX i v).tags = m.tags := by unfold Mule.setX; split <;> rfl
@[simp] theorem Mule.setX_switchReq (m : Mule) (i : Nat) (v : Word) : (m.setX i v).switchReq = m.switchReq := by unfold Mule.setX; split <;> rfl
@[simp] theorem Mule.setX_loadBusy (m : Mule) (i : Nat) (v : Word) : (m.setX i v).loadBusy = m.loadBusy := by unfold Mule.setX; split <;> rfl
@[simp] theorem Mule.setX_switchPc (m : Mule) (i : Nat) (v : Word) : (m.setX i v).switchPc = m.switchPc := by unfold Mule.setX; split <;> rfl
@[simp] theorem Mule.setX_arm (m : Mule) (i : Nat) (v : Word) : (m.setX i v).arm = m.arm := by unfold Mule.setX; split <;> rfl
@[simp] theorem Mule.setX_pc (m : Mule) (i : Nat) (v : Word) : (m.setX i v).pc = m.pc := by unfold Mule.setX; split <;> rfl
@[simp] theorem Mule.setX_lrCount (m : Mule) (i : Nat) (v : Word) : (m.setX i v).lrCount = m.lrCount := by unfold Mule.setX; split <;> rfl

section

variable {t : Tile} {f : Frame} {rest : List Frame} (hstack : t.mule.stack = f :: rest) (extra : Nat)
include hstack

theorem Tile.leave_x (r : Nat) : (t.leave extra).mule.x r = if r = f.rd ∧ r ≠ 0 then t.mule.x 10 else t.mule.x r := by
  have hregs (c : Nat) : ((t.leave extra).mule).regs = ((({ t.mule with stack := rest } : Mule).spend c).setX f.rd (t.mule.x 10)).regs := by
    simp only [Tile.leave, hstack]
    split <;> simp only [Mule.setX, Mule.spend] <;> split <;> rfl
  rw [Mule.x_of_regs (hregs 0), Mule.x_setX]
  rfl

/-- A return without a bank switch (R91). -/
theorem Tile.leave_of_unswitched (hswitch : t.mule.switchReq = false) :
    (t.leave extra).mule.pc = f.ret ∧ (t.leave extra).mule.stack.length = rest.length ∧ (t.leave extra).mule.st = .run ∧
      (t.leave extra).mule.bank = t.mule.bank ∧ (t.leave extra).mem.cycles = t.mem.cycles + 6 := by
  simp only [Tile.leave, hstack, hswitch, Bool.and_false, Bool.false_eq_true, if_false, Mule.setX_bank, Mule.setX_stack, Mule.spend]
  simp

/-- The last return with SWITCH_REQ set exchanges the banks (R79). -/
theorem Tile.leave_of_switched (hlast : rest = []) (hswitch : t.mule.switchReq = true) :
    (t.leave extra).mule.pc = BitVec.ofNat 64 (4 * t.mule.switchPc) ∧ (t.leave extra).mule.bank = !t.mule.bank ∧
      (t.leave extra).mule.switchReq = false ∧ (t.leave extra).mem.cycles = t.mem.cycles + 8 := by
  subst hlast
  simp only [Tile.leave, hstack, hswitch, List.isEmpty_nil, Bool.and_self, if_true, Mule.setX_bank, Mule.setX_switchPc, Mule.spend]
  simp

end

theorem Tile.loadHeld_of_unswitched {t : Tile} (h : t.mule.switchReq = false) : t.loadHeld = false := by
  simp [Tile.loadHeld, h]

/-- A call with no budget returns at once (R149). -/
theorem State.retr_of_unpadded {s : State} {d p : Nat} {f : Frame} {rest : List Frame} (hstack : (s.tile d p).mule.stack = f :: rest)
    (htags : (s.tile d p).mule.tags >>> 48 = 0) (hheld : (s.tile d p).loadHeld = false) (hbudget : f.budget = 0) :
    s.retr d p = s.modTile d p fun t => t.leave (f.cycles s.aonNs - 6 - f.spent) := by
  simp [State.retr, hstack, htags, hheld, hbudget]

/-- The tile in the null routine, at its RETR (R91). -/
def Tile.inNull (t : Tile) (rd blk offset now : Nat) : Tile :=
  { t.enter rd 0 blk offset 0 now true with mule := (t.enter rd 0 blk offset 0 now true).mule.setX 10 0 }

theorem Tile.inNull_x (t : Tile) (rd blk offset now r : Nat) :
    (t.inNull rd blk offset now).mule.x r = if r = 10 then 0 else if r = 1 then t.mule.pc + 4 else t.mule.x r := by
  have hregs : (t.enter rd 0 blk offset 0 now true).mule.x r =
      ((t.mule.setX 10 (BitVec.ofNat 64 blk)).setX 1 (t.mule.pc + 4)).x r := Mule.x_of_regs rfl r
  simp only [Tile.inNull, Mule.x_setX, hregs]
  split_ifs <;> grind

/-- The frame of the null routine's call: no budget, 8 cycles spent. -/
theorem Tile.inNull_stack {t : Tile} (hstack : t.mule.stack = []) (rd blk offset now : Nat) :
    (t.inNull rd blk offset now).mule.stack =
      [{ rd := rd, ret := t.mule.pc + 4, number := 0, block := blk, budget := 0, spent := 8, ready := true, from_ := now }] := by
  simp [Tile.inNull, Tile.enter, Mule.spend, hstack]

theorem Tile.inNull_kept (t : Tile) (rd blk offset now : Nat) :
    let m := (t.inNull rd blk offset now).mule
    m.tags = t.mule.tags ∧ m.switchReq = t.mule.switchReq ∧ m.loadBusy = t.mule.loadBusy ∧ m.switchPc = t.mule.switchPc ∧
      m.bank = t.mule.bank ∧ m.st = t.mule.st ∧ (t.inNull rd blk offset now).mem.cycles = t.mem.cycles + 8 := by
  simp [Tile.inNull, Tile.enter, Mule.spend]

/-- The state of a Mule in the null routine, at its RETR. -/
def State.nullCalled (s : State) (d p : Nat) (rd rs1 : Fin 32) : State :=
  ((s.modCd d fun c => { c with rs := { c.rs with calls := c.rs.calls + 1 } }).modTile d p fun t =>
    t.enter rd 0 ((s.tile d p).mule.x rs1).toNat (dirEntry (s.cd d).rs.mem 0).offset 0 s.aonNs true).modMule d p fun m => m.setX 10 0

theorem State.tile_nullCalled (s : State) (d p : Nat) (rd rs1 : Fin 32) : (s.nullCalled d p rd rs1).tile d p =
    (s.tile d p).inNull rd ((s.tile d p).mule.x rs1).toNat (dirEntry (s.cd d).rs.mem 0).offset s.aonNs := by
  have hmod (f : ComputeDie → ComputeDie) (h : ∀ c, (f c).tiles = c.tiles) : (s.modCd d f).tile d p = s.tile d p := tile_modCd d h
  simp [nullCalled, Tile.inNull, hmod]

/-- The null routine is not one whose results the catalogue gives. -/
theorem DirE.known_null (e : DirE) : e.known 0 = false := rfl

/-- CALLR of the null routine goes on as its RETR (R91, R152). -/
theorem exec_callr_null {s : State} {d : CdId} {p : PTile} (hready : Ready s d p none) (rd rs1 : Fin 32)
    (hentry : (dirEntry (s.cd d).rs.mem 0).offset ≠ 0) (hstack : (s.tile d p).mule.stack = []) (harm : (s.tile d p).mule.arm = none) :
    exec (.callr d p rd rs1 0) s = .next ((s.nullCalled d p rd rs1).retr d p) := by
  change execCallr d p rd rs1 0 s = _
  rw [execCallr, State.muleStep_of_ready hready]
  dsimp only
  rw [if_neg (by simp [hentry, hstack]), if_neg (by simp [harm])]
  simp only [Fin.coe_ofNat_eq_mod, Nat.zero_mod, if_true, true_or, DirE.known_null, Bool.not_false]
  cases blockAt ((s.tile d p).mule.x rs1).toNat <;> rfl

/-- A return held up by an outstanding write of window B halts the Mule (R79). -/
theorem State.retr_of_loadHeld {s : State} {d p : Nat} {f : Frame} {rest : List Frame} (hstack : (s.tile d p).mule.stack = f :: rest)
    (htags : (s.tile d p).mule.tags >>> 48 = 0) (hheld : (s.tile d p).loadHeld = true) :
    s.retr d p = s.muleFault d p .imemActive 0 := by
  simp [State.retr, hstack, htags, hheld]

theorem exec_retr_of_ready {s : State} {d : CdId} {p : PTile} (hready : Ready s d p none) {f : Frame} {rest : List Frame}
    (hstack : (s.tile d p).mule.stack = f :: rest) (hf : f.ready = true) : exec (.retr d p) s = .next (s.retr d p) := by
  change execRetr d p s = _
  rw [execRetr, State.muleStep_of_ready hready]
  simp [hstack, hf]

theorem exec_retr_of_empty {s : State} {d : CdId} {p : PTile} (hready : Ready s d p none) (hstack : (s.tile d p).mule.stack = []) :
    exec (.retr d p) s = .next (s.muleFault d p .badcmd 0) := by
  change execRetr d p s = _
  rw [execRetr, State.muleStep_of_ready hready]
  simp [hstack, State.retr]

section

variable {s : State} {d : CdId} {p : PTile} (hready : Ready s d p none) (hentry : (dirEntry (s.cd d).rs.mem 0).offset ≠ 0)
  (hstack : (s.tile d p).mule.stack = []) (harm : (s.tile d p).mule.arm = none) (htags : (s.tile d p).mule.tags >>> 48 = 0)
include hready hentry hstack harm htags

/-- The null routine's return, when no write of window B holds it up. -/
theorem callr_null_runs (rd rs1 : Fin 32) (hheld : (s.tile d p).mule.switchReq = true → (s.tile d p).mule.loadBusy = false)
    {P : State → Prop} (hP : ∀ t n blk off, t.tile d p = ((s.tile d p).inNull rd blk off s.aonNs).leave n → P t) :
    Runs (.callr d p rd rs1 0) s P := by
  have htile := s.tile_nullCalled d p rd rs1
  have hin := Tile.inNull_stack hstack rd ((s.tile d p).mule.x rs1).toNat (dirEntry (s.cd d).rs.mem 0).offset s.aonNs
  have hkept := Tile.inNull_kept (s.tile d p) rd ((s.tile d p).mule.x rs1).toNat (dirEntry (s.cd d).rs.mem 0).offset s.aonNs
  obtain ⟨hktags, hkswitch, hkload, -⟩ := hkept
  refine runs_of_exec ((exec_callr_null hready rd rs1 hentry hstack harm).trans (congrArg _ (State.retr_of_unpadded (rest := [])
    (by rw [htile, hin]) (by rw [htile, hktags, htags]) ?_ rfl))) ?_
  · rw [htile, Tile.loadHeld, hkswitch, hkload]
    cases hs : (s.tile d p).mule.switchReq
    · simp
    · simp [hheld hs]
  · exact hP _ _ _ _ ((State.tile_modTile ..).trans ((if_pos ⟨rfl, rfl⟩).trans (by rw [htile])))

end

/-- RETR of an unpadded call, and the end of a call's pad (R91, R149). -/
theorem State.runs_leave {s : State} {d p : Nat} {c : Instr} {f : Frame} {rest : List Frame} {n : Nat}
    (hexec : exec c s = .next (s.modTile d p fun t => t.leave n)) (hstack : (s.tile d p).mule.stack = f :: rest)
    (hswitch : (s.tile d p).mule.switchReq = false) : Runs c s fun t => OnlyTile s t d p ∧
      (∀ r, (t.tile d p).mule.x r = if r = f.rd ∧ r ≠ 0 then (s.tile d p).mule.x 10 else (s.tile d p).mule.x r) ∧
      (t.tile d p).mule.pc = f.ret ∧ (t.tile d p).mule.stack.length = rest.length ∧ (t.tile d p).mule.st = .run := by
  obtain ⟨hpc, hdepth, hst, -⟩ := Tile.leave_of_unswitched hstack n hswitch
  refine runs_of_exec hexec ⟨State.onlyTile_modTile .., ?_⟩
  rw [State.tile_modTile, if_pos ⟨rfl, rfl⟩]
  exact ⟨Tile.leave_x hstack n, hpc, hdepth, hst⟩

/-- Settles O7: the null routine enters and returns at once; every other return is one branch of RETR. -/
theorem routinesReturnTheirStatus : Obligations.RoutinesReturnTheirStatus := by
  constructor
  · intro d p rd rs1 s m hr hentry hstack harm htags
    refine ⟨fun hsw => ?_, fun hsw hload => ?_, fun hsw hload => ?_⟩
    · refine callr_null_runs hr hentry hstack harm htags rd rs1 (by rw [show _ = false from hsw]; nofun) fun t n blk off ht => ?_
      have hin := Tile.inNull_stack hstack rd blk off s.aonNs
      obtain ⟨-, hkswitch, -, -, hkbank, -, hkcycles⟩ := Tile.inNull_kept (s.tile d p) rd blk off s.aonNs
      obtain ⟨hpc, hdepth, hst, hbank, hcycles⟩ := Tile.leave_of_unswitched hin n (hkswitch.trans hsw)
      rw [ht]
      refine ⟨fun r => ?_, hpc, by simpa using hdepth, hst, hbank.trans hkbank, by rw [hcycles, hkcycles]⟩
      rw [Tile.leave_x hin, Tile.inNull_x, Tile.inNull_x]
      have hx0 : m.x 0 = 0 := rfl
      grind
    · refine callr_null_runs hr hentry hstack harm htags rd rs1 (fun _ => hload) fun t n blk off ht => ?_
      have hin := Tile.inNull_stack hstack rd blk off s.aonNs
      obtain ⟨-, hkswitch, -, hkpc, hkbank, -, hkcycles⟩ := Tile.inNull_kept (s.tile d p) rd blk off s.aonNs
      obtain ⟨hpc, hbank, hreq, hcycles⟩ := Tile.leave_of_switched hin n rfl (hkswitch.trans hsw)
      rw [ht]
      exact ⟨hpc.trans (by rw [hkpc]), hbank.trans (by rw [hkbank]), hreq, by rw [hcycles, hkcycles]⟩
    · have htile := s.tile_nullCalled d p rd rs1
      have hin := Tile.inNull_stack hstack rd (m.x rs1).toNat (dirEntry (s.cd d).rs.mem 0).offset s.aonNs
      obtain ⟨hktags, hkswitch, hkload, -, hkbank, hkst, -⟩ :=
        Tile.inNull_kept (s.tile d p) rd (m.x rs1).toNat (dirEntry (s.cd d).rs.mem 0).offset s.aonNs
      refine runs_of_exec ((exec_callr_null hr rd rs1 hentry hstack harm).trans (congrArg _ (State.retr_of_loadHeld
        ((congrArg (·.mule.stack) htile).trans hin) (by rw [htile, hktags]; exact htags) ?_))) ?_
      · rw [htile, Tile.loadHeld, hkswitch, hkload, hin]
        simp [show (s.tile d p).mule.switchReq = true from hsw, show (s.tile d p).mule.loadBusy = true from hload]
      · rw [State.mule_muleFault _ _ _ _ _ (by rw [htile, hkst, hr.1]; rfl), htile]
        exact ⟨rfl, rfl, hkbank, hkswitch.trans hsw, congrArg List.length hin⟩
  · intro d p s f rest m
    refine ⟨fun hr hstack => exec_retr_of_empty hr hstack, fun hr hstack hf htags => ?_, fun hr hstack hf htags hsw hb => ?_,
      fun hst hwait hstack hsw => ?_⟩
    · rw [exec_retr_of_ready hr hstack hf, State.retr, show (s.tile d p).mule.stack = f :: rest from hstack]
      exact congrArg _ (if_pos htags)
    · refine State.runs_leave ((exec_retr_of_ready hr hstack hf).trans (congrArg _
        (State.retr_of_unpadded hstack htags (Tile.loadHeld_of_unswitched hsw) hb))) hstack hsw
    · refine State.runs_leave (n := f.budget - 6 - f.spent) ?_ hstack hsw
      change execRoutineBudgetPadEnd d p s = _
      unfold execRoutineBudgetPadEnd
      simp only [m] at hst hstack hsw
      simp [hst, hwait, hstack, Tile.loadHeld_of_unswitched hsw]

end Sys2Proof.Machine

namespace Sys2Proof.Machine

/-! The end of a launch (R406, R416): the disables it settles and the notice it sends. -/

theorem State.markUnit_only (s : State) (d kind index : Nat) (off drain : Bool) :
    s.markUnit d kind index off drain = { s with cds := (s.markUnit d kind index off drain).cds } := by
  unfold State.markUnit
  dsimp only
  repeat' split
  all_goals rfl

/-- A reply changes the trace, the mailbox unit and the transport that carries it. -/
theorem State.reply_only (s : State) (src : Src) (cmd : Nat) (e : Err) (payload : List Byte) :
    s.reply src cmd e payload = { s with out := (s.reply src cmd e payload).out, mbx := (s.reply src cmd e payload).mbx,
                                         xp := (s.reply src cmd e payload).xp, eths := (s.reply src cmd e payload).eths } := by
  unfold State.reply State.post State.queueSeg
  dsimp only
  repeat' split
  all_goals rfl

/-- A notice changes the trace, the mailbox unit and the transport that carries it. -/
theorem State.notice_only (s : State) (c code : Nat) (payload : List Byte) :
    s.notice c code payload = { s with out := (s.notice c code payload).out, mbx := (s.notice c code payload).mbx,
                                       xp := (s.notice c code payload).xp, eths := (s.notice c code payload).eths } := by
  unfold State.notice State.post State.queueSeg
  dsimp only
  repeat' split
  all_goals rfl

/-- What a step of a fold leaves alone, the fold leaves alone. -/
theorem State.foldl_only {α : Type} {R : State → State → Prop} (hrefl : ∀ s, R s s) (htrans : ∀ s t u, R s t → R t u → R s u)
    {f : State → α → State} (h : ∀ s a, R s (f s a)) (l : List α) (s : State) : R s (l.foldl f s) :=
  List.foldlRecOn l f (motive := fun t => R s t) (hrefl s) fun t ht a _ => htrans s t _ ht (h t a)

/-- Settling changes the marks of units, the disables pending and their replies. -/
theorem State.settle_only (s : State) : s.settle =
    { s with cds := s.settle.cds, dis := s.settle.dis, out := s.settle.out, mbx := s.settle.mbx, xp := s.settle.xp,
             eths := s.settle.eths } := by
  refine State.foldl_only
    (R := fun s t : State => t = { s with cds := t.cds, dis := t.dis, out := t.out, mbx := t.mbx, xp := t.xp, eths := t.eths })
    (fun _ => rfl) (fun s t u ht hu => by rw [hu, ht]) (fun s q => ?_) s.dis s
  split
  · rw [State.reply_only, State.markUnit_only]
  · rfl

theorem State.launchEnd_only (s : State) (x : Nat) : s.launchEnd x =
    { s with cds := (s.launchEnd x).cds, dis := (s.launchEnd x).dis, out := (s.launchEnd x).out, mbx := (s.launchEnd x).mbx,
             xp := (s.launchEnd x).xp, eths := (s.launchEnd x).eths } := by
  have hend (t : State) (ht : t = { s with out := t.out, mbx := t.mbx, xp := t.xp, eths := t.eths }) :
      t.settle = { s with
        cds := t.settle.cds, dis := t.settle.dis, out := t.settle.out, mbx := t.settle.mbx, xp := t.settle.xp
        eths := t.settle.eths } := by
    rw [State.settle_only t, ht]
  refine hend _ ?_
  split <;> split
  · exact State.notice_only ..
  · rfl
  · exact State.notice_only ..
  · rfl

@[simp] theorem State.settle_hbm (s : State) : (s.settle).hbm = s.hbm := by rw [State.settle_only]

@[simp] theorem State.launchEnd_ox (s : State) (x : Nat) : (s.launchEnd x).ox = s.ox := by rw [State.launchEnd_only]
@[simp] theorem State.launchEnd_ft (s : State) (x : Nat) : (s.launchEnd x).ft = s.ft := by rw [State.launchEnd_only]
@[simp] theorem State.launchEnd_sq (s : State) (x : Nat) : (s.launchEnd x).sq = s.sq := by rw [State.launchEnd_only]
@[simp] theorem State.launchEnd_ctx (s : State) (x : Nat) : (s.launchEnd x).ctx = s.ctx := by rw [State.launchEnd_only]

/-- Two tiles that differ at most in their Mules and in the marks that UNIT_DISABLE sets. -/
structure Tile.SameUnits (t u : Tile) : Prop where
  mem : u.mem = t.mem
  os : u.os = t.os
  sleep : u.sleep = t.sleep
  arr : u.arr = { t.arr with disabled := u.arr.disabled, draining := u.arr.draining }
  ee : u.ee = { t.ee with disabled := u.ee.disabled, draining := u.ee.draining }

/-- Two tiles that differ at most in the marks that UNIT_DISABLE sets. -/
structure Tile.SameWork (t u : Tile) : Prop extends t.SameUnits u where
  mule : u.mule = t.mule

theorem Tile.SameUnits.rfl {t : Tile} : t.SameUnits t := ⟨.refl _, .refl _, .refl _, .refl _, .refl _⟩

theorem Tile.SameUnits.trans {t u v : Tile} (h : t.SameUnits u) (h' : u.SameUnits v) : t.SameUnits v where
  mem := h'.mem.trans h.mem
  os := h'.os.trans h.os
  sleep := h'.sleep.trans h.sleep
  arr := by rw [h'.arr, h.arr]
  ee := by rw [h'.ee, h.ee]

theorem Tile.SameWork.rfl {t : Tile} : t.SameWork t := ⟨.rfl, .refl _⟩

theorem Tile.SameWork.trans {t u v : Tile} (h : t.SameWork u) (h' : u.SameWork v) : t.SameWork v :=
  ⟨h.toSameUnits.trans h'.toSameUnits, h'.mule.trans h.mule⟩

theorem State.sameWork_modTile (s : State) (k q : Nat) {f : Tile → Tile} (h : ∀ t : Tile, t.SameWork (f t)) (d p : Nat) :
    (s.tile d p).SameWork ((s.modTile k q f).tile d p) := by
  rw [tile_modTile]
  split
  case isTrue heq => rw [heq.1, heq.2]; exact h _
  case isFalse => exact Tile.SameWork.rfl

theorem State.sameWork_modCd (s : State) (k : Nat) {f : ComputeDie → ComputeDie} (h : ∀ c, (f c).tiles = c.tiles) (d p : Nat) :
    (s.tile d p).SameWork ((s.modCd k f).tile d p) := by
  rw [tile_modCd k h]
  exact Tile.SameWork.rfl

/-- UNIT_DISABLE sets marks and leaves the work of a tile (R415). -/
theorem State.sameWork_markUnit (s : State) (k kind index : Nat) (off drain : Bool) (d p : Nat) :
    (s.tile d p).SameWork ((s.markUnit k kind index off drain).tile d p) := by
  have harr (s : State) : (s.tile d p).SameWork ((s.modArr k index fun a => { a with disabled := off, draining := drain }).tile d p) := by
    refine sameWork_modTile s k index ?_ d p
    exact fun _ => ⟨⟨rfl, rfl, rfl, rfl, rfl⟩, rfl⟩
  have hee (s : State) : (s.tile d p).SameWork ((s.modEe k index fun e => { e with disabled := off, draining := drain }).tile d p) := by
    refine sameWork_modTile s k index ?_ d p
    exact fun _ => ⟨⟨rfl, rfl, rfl, rfl, rfl⟩, rfl⟩
  unfold markUnit
  split
  · exact harr s
  · exact hee s
  · refine sameWork_modCd s k ?_ d p
    exact fun _ => rfl
  · refine sameWork_modCd s k ?_ d p
    exact fun _ => rfl
  · dsimp only
    split
    · refine sameWork_modTile s k index ?_ d p
      exact fun _ => ⟨⟨rfl, rfl, rfl, rfl, rfl⟩, rfl⟩
    · refine ((harr s).trans (hee _)).trans (sameWork_modTile _ k index ?_ d p)
      exact fun _ => ⟨⟨rfl, rfl, rfl, rfl, rfl⟩, rfl⟩

theorem State.sameWork_of_cds {s t : State} (h : t.cds = s.cds) (d p : Nat) : (s.tile d p).SameWork (t.tile d p) := by
  rw [tile_of_cds h]
  exact Tile.SameWork.rfl

theorem State.sameWork_settle (s : State) (d p : Nat) : (s.tile d p).SameWork (s.settle.tile d p) := by
  refine State.foldl_only (R := fun s t : State => (s.tile d p).SameWork (t.tile d p)) (fun _ => Tile.SameWork.rfl)
    (fun _ _ _ => Tile.SameWork.trans) (fun s q => ?_) s.dis s
  split
  · exact (sameWork_markUnit { s with dis := s.dis.filter fun o => o ≠ q } q.die q.kind q.index true false d p).trans
      (sameWork_of_cds (reply_cds ..) ..)
  · exact Tile.SameWork.rfl

theorem State.sameWork_launchEnd (s : State) (x d p : Nat) : (s.tile d p).SameWork ((s.launchEnd x).tile d p) := by
  refine (sameWork_of_cds ?_ d p).trans (sameWork_settle _ d p)
  split <;> split <;> simp

/-- Halting a launch leaves the units of every tile (R76). -/
theorem State.sameUnits_haltLaunch (s : State) (x : Nat) (code : Err) (d p : Nat) :
    (s.tile d p).SameUnits ((s.haltLaunch x code).tile d p) := by
  simp only [haltLaunch, remapTiles, tile, cd]
  rw [tab_get_remap _ _ _ _ (by rfl), tab_get_remap _ _ _ _ (by rfl)]
  split
  · exact ⟨rfl, rfl, rfl, rfl, rfl⟩
  · exact .rfl

/-- The end of a period leaves the units of every tile (R364). -/
theorem State.sameUnits_endPeriod (s : State) (r : Nat) (code : Err) (die unit slot : Nat) (missed : Int) (node : Option Nat) (sev : Nat)
    (d p : Nat) : (s.tile d p).SameUnits ((s.endPeriod r code die unit slot missed node sev).tile d p) := by
  simp only [endPeriod]
  split
  · refine Tile.SameUnits.trans ?_ (sameWork_launchEnd _ _ d p).toSameUnits
    rw [tile_of_cds (setCtx_cds ..), tile_of_cds (raise_cds ..)]
    rw [foldl_keeps (fun t : State => t.tile d p)]
    · exact sameUnits_haltLaunch _ _ _ d p
    · intro t e
      split
      · rw [tile_of_cds (abortBinding_cds ..)]
      · rfl
  · split
    · rw [tile_of_cds (raise_cds ..)]
      exact .rfl
    · exact .rfl

/-- A fault of a Mule leaves the units of every tile (R76). -/
theorem State.sameUnits_muleFault (s : State) (k q : Nat) (code : Err) (source unit tag lrc : Nat) (d p : Nat) :
    (s.tile d p).SameUnits ((s.muleFault k q code source unit tag lrc).tile d p) := by
  have hmule (f : Mule → Mule) : (s.tile d p).SameUnits ((s.modMule k q f).tile d p) := by
    rw [tile_modMule]
    split
    case isTrue h => rw [h.1, h.2]; exact ⟨rfl, rfl, rfl, rfl, rfl⟩
    case isFalse => exact .rfl
  simp only [muleFault]
  split
  · refine (hmule fun m => m.halt code source unit tag lrc).trans ?_
    split
    · exact .rfl
    · split
      · exact sameUnits_endPeriod ..
      · split
        · refine Tile.SameUnits.trans ?_ (sameWork_launchEnd _ _ d p).toSameUnits
          rw [tile_of_cds (setCtx_cds ..)]
          exact sameUnits_haltLaunch ..
        · rw [tile_of_cds (modCx_cds ..)]
          exact sameUnits_haltLaunch ..
  · exact .rfl

/-- A failing long-running instruction leaves the units of every tile (R85). -/
theorem State.sameUnits_unitFault (s : State) (k i : Nat) (code : Err) (unit tag lrc : Nat) (d p : Nat) :
    (s.tile d p).SameUnits ((s.unitFault k i code unit tag lrc).tile d p) :=
  (sameUnits_muleFault s k _ code 2 unit tag lrc d p).trans (sameWork_settle _ d p).toSameUnits

end Sys2Proof.Machine

namespace Sys2Proof.Machine

/-! The end of a tile's period at PSYNC (R352, R498), and the thermal gate (R499). -/

/-- The end of a launch's schedule leaves the work of every tile. -/
theorem State.sameWork_launchDone (s : State) (r d p : Nat) : (s.tile d p).SameWork ((s.launchDone r).tile d p) := by
  refine (sameWork_of_cds ?_ d p).trans (sameWork_launchEnd _ _ d p)
  rw [setCtx_cds]
  rfl

theorem State.recX_of_sq {s t : State} (h : t.sq = s.sq) (r : Nat) : t.recX r = s.recX r := by rw [recX, recX, h]

/-- Of its timing record the release of a schedule changes what it held. -/
theorem State.recX_schedRelease (s : State) (r : Nat) : (s.schedRelease r).recX r = { s.recX r with taken := false, lines := 0 } := by
  simp only [schedRelease, recX_modRecX, if_true]
  rfl

theorem State.recX_launchDone (s : State) (r : Nat) : (s.launchDone r).recX r = { s.recX r with taken := false, lines := 0 } := by
  have hsq : (s.launchDone r).sq = ((s.modRec r fun k => { k with st := .ended }).schedRelease r).sq := by simp [launchDone]
  rw [recX_of_sq hsq, recX_schedRelease, recX_modRec]

theorem State.sameWork_psyncDone (s : State) (r d p k q : Nat) : (s.tile k q).SameWork ((s.psyncDone r d p).tile k q) := by
  unfold psyncDone
  dsimp only
  split
  · exact (sameWork_of_cds (modRecX_cds ..) k q).trans (sameWork_launchDone _ r k q)
  · exact sameWork_of_cds (modRecX_cds ..) k q

/-- The tile leaves the list of those the period waits for, and the period has finished no earlier than now. -/
theorem State.recX_psyncDone (s : State) (r d p : Nat) : ((s.psyncDone r d p).recX r).finish = s.now ∧
    ((s.psyncDone r d p).recX r).waiting = (s.recX r).waiting.filter fun e => e ≠ (d, p) := by
  unfold psyncDone
  dsimp only
  split
  · rw [recX_launchDone]
    simp
  · simp


section

variable {s : State} {d : CdId} {p : PTile} (hready : Ready s d p none) {rd : Fin 32} {v : Word}
include hready

theorem exec_psyncWrite_unscheduled (hsched : (s.cx (s.tile d p).cx).scheduled = false) :
    exec (.psyncWrite d p rd v) s = .next (s.muleFault d p .badcmd 0) := by
  change execPsyncWrite d p rd v s = _
  rw [execPsyncWrite, State.muleStep_of_ready hready]
  simp [hsched]

variable {r : Nat} (hsched : (s.cx (s.tile d p).cx).scheduled = true) (hrec : s.liveRec? (s.tile d p).cx = some r)
include hsched hrec

theorem exec_psyncWrite_other (hv : v.toNat ≠ (s.lrec r).period % 2 ^ 16) :
    exec (.psyncWrite d p rd v) s = .next (s.muleFault d p .seq 0) := by
  change execPsyncWrite d p rd v s = _
  rw [execPsyncWrite, State.muleStep_of_ready hready]
  simp only [hsched, hrec, if_true, if_pos hv]

/-- The Mule has read PSYNC and waits for `why`. -/
def State.psyncRead (s : State) (d p : Nat) (rd : Fin 32) (per : Nat) (why : WaitWhy) : State :=
  (s.retire d p rd (BitVec.ofNat 64 per) ((s.tile d p).mule.pc + 4) 1).modTile d p fun t =>
    { t with mule := { t.mule with st := .wait }, mem := { t.mem with wait := why, waitFrom := s.aonNs } }

/-- The insertion counts of the die take `gate` ns (R498). -/
def State.insertGate (s : State) (d r gate : Nat) : State :=
  let s := s.modCd d fun c => { c with episode := c.episode.map fun e => (e.1, e.2 + gate) }
  ({ s with pwr := { s.pwr with inserted := s.pwr.inserted + gate } }).modRecX r fun x => { x with inserted := true }

theorem exec_psyncWrite_period (hv : v.toNat = (s.lrec r).period % 2 ^ 16) :
    let gate := (s.cd d).level * ((s.schedOf r).desc (s.lrec r).period).length / 20
    exec (.psyncWrite d p rd v) s = .next (if 0 < gate
      then (s.psyncRead d p rd ((s.lrec r).period % 2 ^ 16) (.insertion gate)).insertGate d r gate
      else (s.psyncRead d p rd ((s.lrec r).period % 2 ^ 16) .psync).psyncDone r d p) := by
  intro gate
  change execPsyncWrite d p rd v s = _
  rw [execPsyncWrite, State.muleStep_of_ready hready]
  simp only [hsched, hrec, if_true, hv, ne_eq, not_true_eq_false, if_false]
  generalize hs : s.retire d p rd (BitVec.ofNat 64 ((s.lrec r).period % 2 ^ 16)) ((s.tile d p).mule.pc + 4) 1 = t
  have hlevel : (t.cd d).level = (s.cd d).level := by simp [← hs, State.retire, State.modTile]
  have hlen : (t.schedOf r).desc (t.lrec r).period = (s.schedOf r).desc (s.lrec r).period := by rw [← hs]; rfl
  have haon : t.aonNs = s.aonNs := by rw [← hs]; rfl
  have hgate : gate = (s.cd d).level * ((s.schedOf r).desc (s.lrec r).period).length / 20 := rfl
  simp only [hlevel, hlen, haon, ← hgate, State.psyncRead, State.insertGate, hs]
  split
  case isTrue => rfl
  case isFalse => rfl

end

theorem State.mule_psyncRead (s : State) (d p : Nat) (rd : Fin 32) (per : Nat) (why : WaitWhy) :
    ((s.psyncRead d p rd per why).tile d p).mule =
      { (s.tile d p).mule.retire rd (BitVec.ofNat 64 per) ((s.tile d p).mule.pc + 4) 1 with st := .wait } := by
  simp [psyncRead, retire]

theorem State.wait_psyncRead (s : State) (d p : Nat) (rd : Fin 32) (per : Nat) (why : WaitWhy) :
    ((s.psyncRead d p rd per why).tile d p).mem.wait = why := by
  simp [psyncRead]

theorem State.recX_psyncRead (s : State) (d p : Nat) (rd : Fin 32) (per : Nat) (why : WaitWhy) (r : Nat) :
    (s.psyncRead d p rd per why).recX r = s.recX r := rfl

theorem State.tile_insertGate (s : State) (d r gate k q : Nat) : (s.insertGate d r gate).tile k q = s.tile k q := by
  have hmod (f : ComputeDie → ComputeDie) (h : ∀ c, (f c).tiles = c.tiles) : (s.modCd d f).tile k q = s.tile k q := tile_modCd d h
  rw [insertGate, tile_of_cds (modRecX_cds ..), ← hmod (fun c => { c with episode := c.episode.map fun e => (e.1, e.2 + gate) })
    fun _ => rfl]
  rfl

theorem State.waiting_insertGate (s : State) (d r gate : Nat) :
    ((s.insertGate d r gate).recX r).waiting = (s.recX r).waiting ∧ (s.insertGate d r gate).pwr.inserted = s.pwr.inserted + gate := by
  simp [insertGate]
  rfl

theorem exec_psyncInsertionEnd_due {s : State} {d : CdId} {p : PTile} {n r : Nat} (hwait : (s.tile d p).mem.wait = .insertion n)
    (hrec : s.liveRec? (s.tile d p).cx = some r) (hst : (s.tile d p).mule.st = .wait) (hdue : (s.tile d p).mem.waitFrom + n ≤ s.aonNs) :
    exec (.psyncInsertionEnd d p) s = .next ((s.modMem d p fun m => { m with wait := .psync }).psyncDone r d p) := by
  change execPsyncInsertionEnd d p s = _
  unfold execPsyncInsertionEnd
  simp [hwait, hrec, hst, hdue]

/-- The state after heat has gated a Mule's time for `gate` ns (R499). -/
def State.heatGated (s : State) (d p gate : Nat) : State :=
  let s := s.modTile d p fun t =>
    { t with mem := { t.mem with gated := s.aonNs / 20000 + 1 },
             mule := { t.mule with stack := t.mule.stack.map fun f => { f with from_ := f.from_ + gate } } }
  let s := s.modCd d fun c => { c with episode := c.episode.map fun e => (e.1, e.2 + gate) }
  { s with pwr := { s.pwr with inserted := s.pwr.inserted + gate } }

theorem State.tile_heatGated (s : State) (d p gate : Nat) : (s.heatGated d p gate).tile d p =
    { s.tile d p with
      mem := { (s.tile d p).mem with gated := s.aonNs / 20000 + 1 }
      mule := { (s.tile d p).mule with stack := (s.tile d p).mule.stack.map fun f => { f with from_ := f.from_ + gate } } } := by
  have hmod (t : State) (f : ComputeDie → ComputeDie) (h : ∀ c, (f c).tiles = c.tiles) : (t.modCd d f).tile d p = t.tile d p :=
    tile_modCd d h
  rw [heatGated]
  refine (tile_of_cds rfl d p).trans ((hmod _ (fun c => { c with episode := c.episode.map fun e => (e.1, e.2 + gate) })
    fun _ => rfl).trans ?_)
  rw [tile_modTile, if_pos ⟨rfl, rfl⟩]

theorem exec_muleThermalGate_hot {s : State} {d : CdId} {p : PTile} {c : Nat} (hlevel : (s.cd d).level ≠ 0)
    (hst : (s.tile d p).mule.st = .run) (hgated : (s.tile d p).mem.gated ≠ s.aonNs / 20000 + 1)
    (hctx : (s.tile d p).mem.ctx = some c) (hsched : (s.cx c).scheduled = false) :
    exec (.muleThermalGate d p) s = .next (s.heatGated d p (1000 * (s.cd d).level)) := by
  change execMuleThermalGate d p s = _
  unfold execMuleThermalGate
  simp [hlevel, hst, hgated, hctx, hsched, State.heatGated]

/-- Settles O9: a period ends in `psyncDone`, at once or after the insertion's gate. -/
theorem periodsEndAtPsync : Obligations.PeriodsEndAtPsync := by
  intro d p rd v s r m x per gate
  refine ⟨fun hr hsched hrec hv hgate => ?_, fun hr hsched hrec hv hgate => ?_,
    fun hr hsched hrec hv => exec_psyncWrite_other hr hsched hrec hv, fun hr hsched => exec_psyncWrite_unscheduled hr hsched,
    fun n hwait hrec hst hdue => ?_, fun c hlevel hst hgated hctx hsched => ?_⟩
  · refine runs_of_exec ((exec_psyncWrite_period hr hsched hrec hv).trans (congrArg _ (if_neg (Nat.not_lt.2 hgate.le)))) ?_
    have hwork := (s.psyncRead d p rd per .psync).sameWork_psyncDone r d p d p
    obtain ⟨hfinish, hwaiting⟩ := (s.psyncRead d p rd per .psync).recX_psyncDone r d p
    rw [hwork.mule, hwork.mem, hfinish, hwaiting, State.mule_psyncRead, State.wait_psyncRead, State.recX_psyncRead]
    exact ⟨rfl, rfl, fun q => Mule.x_retire m rd q (BitVec.ofNat 64 per) (m.pc + 4) 1, rfl, rfl, rfl⟩
  · refine runs_of_exec ((exec_psyncWrite_period hr hsched hrec hv).trans (congrArg _ (if_pos hgate))) ?_
    obtain ⟨hwaiting, hinserted⟩ := (s.psyncRead d p rd per (.insertion gate)).waiting_insertGate d r gate
    rw [State.tile_insertGate, State.mule_psyncRead, State.wait_psyncRead]
    exact ⟨rfl, rfl, hinserted, hwaiting⟩
  · refine runs_of_exec (exec_psyncInsertionEnd_due hwait hrec hst hdue) ?_
    have hwork := (s.modMem d p fun m => { m with wait := .psync }).sameWork_psyncDone r d p d p
    obtain ⟨hfinish, hwaiting⟩ := (s.modMem d p fun m => { m with wait := .psync }).recX_psyncDone r d p
    rw [hwork.mem, hfinish, hwaiting]
    exact ⟨by simp, rfl, rfl⟩
  · refine runs_of_exec (exec_muleThermalGate_hot hlevel hst hgated hctx hsched) ⟨rfl, ?_⟩
    rw [State.tile_heatGated]
    exact ⟨rfl, fun _ => rfl⟩

end Sys2Proof.Machine

namespace Sys2Proof.Machine

/-! Issue of long-running instructions (R81 to R90, R97). -/

/-- The registers of a Mule that issue speaks of. -/
def Mule.SameIssue (m m' : Mule) : Prop :=
  m'.lrCount = m.lrCount ∧ m'.regs = m.regs ∧ m'.pc = m.pc ∧ m'.tags = m.tags ∧ m'.st = m.st

theorem Issued.of_sameIssue {s t u : State} {d p tag : Nat} {rd : Fin 32} {held : Bool} (h : Issued s t d p rd tag held)
    (hm : (t.tile d p).mule.SameIssue (u.tile d p).mule) : Issued s u d p rd tag held where
  count := hm.1.trans h.count
  dest r := (Mule.x_of_regs hm.2.1 r).trans (h.dest r)
  pc := hm.2.2.1.trans h.pc
  tags := hm.2.2.2.1.trans h.tags
  goes := hm.2.2.2.2.trans h.goes

theorem Issued.of_mule {s t u : State} {d p tag : Nat} {rd : Fin 32} {held : Bool} (h : Issued s t d p rd tag held)
    (hm : (u.tile d p).mule = (t.tile d p).mule) : Issued s u d p rd tag held :=
  h.of_sameIssue (by rw [hm]; exact ⟨rfl, rfl, rfl, rfl, rfl⟩)

@[simp] theorem Mule.retire_st (m : Mule) (rd : Nat) (v pc : Word) (c : Nat) : (m.retire rd v pc c).st = m.st := Mule.setX_st ..
@[simp] theorem Mule.retire_tags (m : Mule) (rd : Nat) (v pc : Word) (c : Nat) : (m.retire rd v pc c).tags = m.tags := Mule.setX_tags ..
@[simp] theorem Mule.retire_lrCount (m : Mule) (rd : Nat) (v pc : Word) (c : Nat) : (m.retire rd v pc c).lrCount = m.lrCount :=
  Mule.setX_lrCount ..

section

variable {s : State} {d p f7 f3 : Nat} {rd rs1 rs2 : Fin 32}

theorem State.mule_issued (held : Bool) : ((s.issued (s.issueOf d p f7 f3 rs1 rs2) rd held).tile d p).mule =
    ({ (s.tile d p).mule with
        lrCount := (s.tile d p).mule.lrCount + 1
        tags := if held then (s.tile d p).mule.tags ||| (1#64 <<< (s.issueOf d p f7 f3 rs1 rs2).tag) else (s.tile d p).mule.tags
      } : Mule).retire rd (BitVec.ofNat 64 ((s.tile d p).mule.lrCount + 1)) ((s.tile d p).mule.pc + 4) 4 := by
  simp [issued, retire, issueOf]

theorem State.onlyTile_issued (held : Bool) : OnlyTile s (s.issued (s.issueOf d p f7 f3 rs1 rs2) rd held) d p := by
  unfold issued retire
  exact (s.onlyTile_modTile ..).trans (onlyTile_modTile ..)

/-- Issue changes of a tile its Mule and the streams it takes. -/
theorem State.tile_issued (held : Bool) : (s.issued (s.issueOf d p f7 f3 rs1 rs2) rd held).tile d p =
    { s.tile d p with
      mule := ((s.issued (s.issueOf d p f7 f3 rs1 rs2) rd held).tile d p).mule
      mem := ((s.issued (s.issueOf d p f7 f3 rs1 rs2) rd held).tile d p).mem } := by
  simp [issued, retire, issueOf]

theorem State.issued_of_ready (hrun : (s.tile d p).mule.st = .run) (held : Bool) :
    Issued s (s.issued (s.issueOf d p f7 f3 rs1 rs2) rd held) d p rd (s.issueOf d p 0 0 rs1 rs2).tag held where
  count := by rw [mule_issued, Mule.retire_lrCount]
  dest r := by rw [mule_issued, Mule.x_retire]; rfl
  pc := by rw [mule_issued, Mule.retire_pc]
  tags := by rw [mule_issued, Mule.retire_tags]; rfl
  goes := by rw [mule_issued, Mule.retire_st]; exact hrun

variable (hready : Ready s d p (some (s.issueOf d p 0 0 rs1 rs2).tag)) {armOk held : Bool} {checks : State → Issue → UnitChecks}
  {start : State → Issue → State}
include hready

/-- An instruction that passes its checks starts in its unit (R87). -/
theorem State.issue_of_passes (harm : (s.tile d p).mule.arm = none ∨ armOk = true)
    (herr : issueError s d p f7 f3 rs1 rs2 checks = none) :
    s.issue d p f7 f3 rd rs1 rs2 armOk held checks start =
      .next (start (s.issued (s.issueOf d p f7 f3 rs1 rs2) rd held) (s.issueOf d p f7 f3 rs1 rs2)) := by
  have harm' : ((s.tile d p).mule.arm.isSome && !armOk) = false := by rcases harm with h | h <;> simp [h]
  have hready' : Ready s d p (some (s.issueOf d p f7 f3 rs1 rs2).tag) := hready
  unfold issueError at herr
  dsimp only at herr
  rw [issue, muleStep_of_ready hready']
  simp only [harm', herr, Bool.false_eq_true, if_false]

/-- The first check that fails halts the Mule with SOURCE 1 (R87). -/
theorem State.issue_of_refused (harm : (s.tile d p).mule.arm = none ∨ armOk = true) {e : Err}
    (herr : issueError s d p f7 f3 rs1 rs2 checks = some e) :
    s.issue d p f7 f3 rd rs1 rs2 armOk held checks start = .next (s.muleFault d p e 1 (f7 / 8) (s.issueOf d p 0 0 rs1 rs2).tag) := by
  have harm' : ((s.tile d p).mule.arm.isSome && !armOk) = false := by rcases harm with h | h <;> simp [h]
  have hready' : Ready s d p (some (s.issueOf d p f7 f3 rs1 rs2).tag) := hready
  unfold issueError at herr
  dsimp only at herr
  rw [issue, muleStep_of_ready hready']
  simp only [harm', herr, Bool.false_eq_true, if_false]
  rfl

/-- Inside an arm an instruction that R97 does not permit is denied. -/
theorem State.issue_of_denied (harm : (s.tile d p).mule.arm.isSome = true) :
    s.issue d p f7 f3 rd rs1 rs2 false held checks start =
      .next (s.muleFault d p .denied 0 (f7 / 8) (s.issueOf d p 0 0 rs1 rs2).tag) := by
  have hready' : Ready s d p (some (s.issueOf d p f7 f3 rs1 rs2).tag) := hready
  rw [issue, muleStep_of_ready hready', harm]
  rfl

end

/-- Settles O11: the refusals of each instruction are those of issue in general. -/
theorem issueRefusalsHaveNoOtherEffect : Obligations.IssueRefusalsHaveNoOtherEffect := by
  intro d p rd rs1 rs2 s e tag hready
  refine ⟨fun harm => ⟨?_, ?_, ?_, ?_⟩, ?_, ?_, fun harm => ⟨?_, ?_, ?_, ?_⟩⟩
  · exact fun h => (State.issue_of_refused hready (.inl harm) h : execMaPass d p rd rs1 rs2 s = _)
  · exact fun h => (State.issue_of_refused hready (.inl harm) h : execHenLaunch d p rd rs1 rs2 s = _)
  · exact fun h => (State.issue_of_refused hready (.inl harm) h : execAsStream d p rd rs1 rs2 s = _)
  · exact fun h => (State.issue_of_refused hready (.inl harm) h : execSlotArm d p rd rs1 rs2 s = _)
  · exact fun h => (State.issue_of_refused hready (.inr rfl) h : execEeRun d p rd rs1 rs2 s = _)
  · exact fun h => (State.issue_of_refused hready (.inr rfl) h : execDmaCopy d p rd rs1 rs2 s = _)
  · exact (State.issue_of_denied hready harm : execMaPass d p rd rs1 rs2 s = _)
  · exact (State.issue_of_denied hready harm : execHenLaunch d p rd rs1 rs2 s = _)
  · exact (State.issue_of_denied hready harm : execAsStream d p rd rs1 rs2 s = _)
  · exact (State.issue_of_denied hready harm : execSlotArm d p rd rs1 rs2 s = _)

end Sys2Proof.Machine

namespace Sys2Proof.Machine

/-! The start of long-running instructions in their units (R85, R103, R124, R138, R171, R187, R355). -/

section

variable {s : State} {d p f7 f3 : Nat} {rd rs1 rs2 : Fin 32} (held : Bool)

theorem State.arr_issued : ((s.issued (s.issueOf d p f7 f3 rs1 rs2) rd held).tile d p).arr = (s.tile d p).arr := by
  rw [tile_issued]

theorem State.ee_issued : ((s.issued (s.issueOf d p f7 f3 rs1 rs2) rd held).tile d p).ee = (s.tile d p).ee := by
  rw [tile_issued]

end

@[simp] theorem ArrayU.plane_setPlane (a : ArrayU) (n : Nat) (q : Plane) : (a.setPlane n q).plane n = q := by
  unfold setPlane plane
  split <;> rfl

@[simp] theorem ArrayU.passes_setPlane (a : ArrayU) (n : Nat) (q : Plane) : (a.setPlane n q).passes = a.passes := by
  unfold setPlane
  split <;> rfl

@[simp] theorem ArrayU.passCount_setPlane (a : ArrayU) (n : Nat) (q : Plane) : (a.setPlane n q).passCount = a.passCount := by
  unfold setPlane
  split <;> rfl

theorem OnlyTile.onlyCd {s t : State} {d p : Nat} (h : OnlyTile s t d p) : OnlyCd s t d := ⟨h.rest, h.dies⟩

theorem OnlyCd.trans {s t u : State} {d : Nat} (h : OnlyCd s t d) (h' : OnlyCd t u d) : OnlyCd s u d where
  rest := by rw [h'.rest, h.rest]
  dies k hk := (h'.dies k hk).trans (h.dies k hk)

theorem State.onlyCd_modCd (s : State) (d : Nat) (f : ComputeDie → ComputeDie) : OnlyCd s (s.modCd d f) d where
  rest := rfl
  dies k hk := by simp [hk]

/-- A state in which the instruction k of tile p has been issued and not yet started in its unit. -/
structure AtStart (s u : State) (d p : Nat) (rd : Fin 32) (k : Issue) (tag : Nat) (held : Bool) : Prop where
  issued : Issued s u d p rd tag held
  only : OnlyTile s u d p
  arr : (u.tile d p).arr = (s.tile d p).arr
  ee : (u.tile d p).ee = (s.tile d p).ee
  tag : k.tag = tag
  die : k.d = d
  tile : k.p = p
  count : k.lrc = (s.tile d p).mule.lrCount + 1

theorem AtStart.cd {s u : State} {d p : Nat} {rd : Fin 32} {k : Issue} {tag : Nat} {held : Bool}
    (h : AtStart s u d p rd k tag held) :
    u.cd d = { s.cd d with tiles := (u.cd d).tiles } := h.only.die

/-- An instruction that passes its checks starts in its unit (R87). -/
theorem State.runs_issue {s : State} {d p f7 f3 : Nat} {rd rs1 rs2 : Fin 32} {armOk held : Bool} {checks : State → Issue → UnitChecks}
    {start : State → Issue → State} {c : Instr} {P : State → Prop}
    (hready : Ready s d p (some (s.issueOf d p 0 0 rs1 rs2).tag)) (harm : (s.tile d p).mule.arm = none ∨ armOk = true)
    (herr : issueError s d p f7 f3 rs1 rs2 checks = none)
    (hexec : exec c s = s.issue d p f7 f3 rd rs1 rs2 armOk held checks start)
    (h : ∀ u, AtStart s u d p rd (s.issueOf d p f7 f3 rs1 rs2) (s.issueOf d p 0 0 rs1 rs2).tag held →
      P (start u (s.issueOf d p f7 f3 rs1 rs2))) : Runs c s P :=
  runs_of_exec (hexec.trans (issue_of_passes hready harm herr))
    (h _ ⟨issued_of_ready hready.1 held, onlyTile_issued held, arr_issued held, ee_issued held, rfl, rfl, rfl, rfl⟩)

theorem DmaEng.modEng (s : State) (d e : Nat) (f : DmaEng → DmaEng) :
    (Tab.get {} ((s.modEng d e f).cd d).dma.engines e : DmaEng) = f (Tab.get {} (s.cd d).dma.engines e) := by
  simp [State.modEng]

@[simp] theorem State.tile_modEng (s : State) (d e : Nat) (f : DmaEng → DmaEng) (k q : Nat) :
    (s.modEng d e f).tile k q = s.tile k q := tile_modCd d fun _ => rfl

/-- LOAD_BUSY stands in a Mule; what it changes there issue does not speak of. -/
theorem State.sameIssue_setLoadBusy (s : State) (d i k q : Nat) :
    (s.tile k q).mule.SameIssue ((s.setLoadBusy d i).tile k q).mule := by
  rw [setLoadBusy, tile_modMule]
  split
  case isTrue h => rw [h.1, h.2]; exact ⟨rfl, rfl, rfl, rfl, rfl⟩
  case isFalse => exact ⟨rfl, rfl, rfl, rfl, rfl⟩

theorem State.onlyCd_setLoadBusy (s : State) (d i : Nat) : OnlyCd s (s.setLoadBusy d i) d := (s.onlyTile_modMule ..).onlyCd

theorem State.dma_setLoadBusy (s : State) (d i : Nat) : ((s.setLoadBusy d i).cd d).dma = (s.cd d).dma := by
  simp [setLoadBusy, modMule, modTile]

/-- A gather job starts on the free slot its tile has (R171). -/
theorem State.job_henStart {s : State} {k : Issue} {j : Nat} (unordered : Bool) (hslot : (s.cd k.d).hen.slotFor k.i = some j) :
    ((s.henStart k unordered).job k.d j).st = 1 ∧ ((s.henStart k unordered).job k.d j).unordered = unordered ∧
      ((s.henStart k unordered).job k.d j).tag = k.tag ∧
      ((s.henStart k unordered).cd k.d).hen.jobCount = (s.cd k.d).hen.jobCount + 1 := by
  simp [henStart, job, hslot]

theorem State.tile_henStart (s : State) (k : Issue) (unordered : Bool) (d p : Nat) : (s.henStart k unordered).tile d p = s.tile d p := by
  refine tile_modCd k.d fun c => ?_
  split <;> rfl

section

variable {s u : State} {d p : Nat} {rd : Fin 32} {k : Issue} {tag : Nat}

theorem maPass_starts (h : AtStart s u d p rd k tag true) :
    let q := passD k.desc
    let t := u.modArr k.d k.p fun a =>
      let n := passInput q a.checkedLaunch q.k
      let pass : Pass := { desc := k.desc, tag := k.tag, lrc := k.lrc, plane := q.plane, ltile := k.i,
                           ieee := (u.cx k.ctx).ieee, checked := a.checkedLaunch, inputDone := decide (q.k = 0),
                           inCycles := n, total := n + 270, serial := a.passCount, startNs := u.aonNs }
      { (a.setPlane q.plane { st := .filling, int32 := q.int8, cells := [] }) with
        passes := a.passes ++ [pass], passCount := a.passCount + 1 }
    Issued s t d p rd tag true ∧ OnlyTile s t d p ∧ ((t.tile d p).arr.plane q.plane).st = .filling ∧
      ((t.tile d p).arr.plane q.plane).cells = [] ∧ (t.tile d p).arr.passes.length = (s.tile d p).arr.passes.length + 1 ∧
      (t.tile d p).arr.passCount = (s.tile d p).arr.passCount + 1 := by
  dsimp only
  rw [h.die, h.tile]
  refine ⟨h.issued.of_mule (State.mule_modArr ..), h.only.trans (State.onlyTile_modTile ..), ?_⟩
  rw [State.tile_modArr, if_pos ⟨rfl, rfl⟩, h.arr]
  exact ⟨congrArg Plane.st (ArrayU.plane_setPlane ..), congrArg Plane.cells (ArrayU.plane_setPlane ..), by simp, rfl⟩

/-- An engine instruction and the plane it drains (R107, R124). -/
theorem eeRun_starts (h : AtStart s u d p rd k tag true) (run : Tile → EeRun) :
    let t := u.modTile k.d k.p fun t =>
      { t with ee := { (t.ee.start (run t)) with vregs := [], masks := [] },
               arr := match (eeD k.desc).plane? with
                 | some n => t.arr.setPlaneSt n .draining
                 | none => t.arr }
    Issued s t d p rd tag true ∧ OnlyTile s t d p ∧ (t.tile d p).ee.run.isSome = true ∧
      (t.tile d p).ee.runs = (s.tile d p).ee.runs + 1 ∧ (t.tile d p).ee.laneFlags = [] ∧ (t.tile d p).ee.vregs = [] ∧
      (t.tile d p).ee.masks = [] ∧ ∀ n, (eeD k.desc).plane? = some n → ((t.tile d p).arr.plane n).st = .draining := by
  dsimp only
  rw [h.die, h.tile]
  refine ⟨h.issued.of_mule (State.mule_modTile d p fun _ => rfl), h.only.trans (u.onlyTile_modTile d p _), ?_⟩
  rw [State.tile_modTile, if_pos ⟨rfl, rfl⟩, h.ee]
  refine ⟨rfl, rfl, rfl, rfl, rfl, fun n hn => ?_⟩
  simp only [hn, ArrayU.setPlaneSt, ArrayU.plane_setPlane]

/-- EE.COMPRESS and EE.EXPAND, the instructions of kind 1 and 2 (R138). -/
theorem cxStart_starts (h : AtStart s u d p rd k tag true) (kind : Nat) :
    let t := u.cxStart k kind
    Issued s t d p rd tag true ∧ OnlyTile s t d p ∧ (t.tile d p).ee.run.map (·.kind) = some kind ∧
      (t.tile d p).ee.runs = (s.tile d p).ee.runs + 1 := by
  simp only [State.cxStart]
  rw [h.die, h.tile]
  refine ⟨h.issued.of_mule (State.mule_modEe ..), h.only.trans (State.onlyTile_modTile ..), ?_⟩
  rw [State.tile_modEe, if_pos ⟨rfl, rfl⟩, h.ee]
  exact ⟨rfl, rfl⟩

/-- A copy on an idle engine (R187). -/
theorem dmaCopy_starts (h : AtStart s u d p rd k tag true) (eng : DmaEng → DmaEng) :
    let t := (u.modEng k.d (dmaD k.desc).engine eng).setLoadBusy k.d k.i
    OnlyCd s t d ∧ Issued s t d p rd tag true ∧
      (Tab.get {} (t.cd d).dma.engines (dmaD k.desc).engine : DmaEng) =
        eng (Tab.get {} (s.cd d).dma.engines (dmaD k.desc).engine) := by
  dsimp only
  rw [h.die]
  refine ⟨h.only.onlyCd.trans ((u.onlyCd_modCd d _).trans (State.onlyCd_setLoadBusy ..)), h.issued.of_sameIssue ?_, ?_⟩
  · rw [← u.tile_modEng d (dmaD k.desc).engine eng]
    exact State.sameIssue_setLoadBusy ..
  · rw [State.dma_setLoadBusy, DmaEng.modEng, h.cd]

/-- A gather job on the free slot of its tile (R171). -/
theorem henStart_starts (h : AtStart s u d p rd k tag true) (unordered : Bool) {j : Nat} (hslot : (s.cd d).hen.slotFor k.i = some j) :
    let t := u.henStart k unordered
    Issued s t d p rd tag true ∧ OnlyCd s t d ∧ (t.job d j).st = 1 ∧ (t.job d j).unordered = unordered ∧ (t.job d j).tag = tag ∧
      (t.cd d).hen.jobCount = (s.cd d).hen.jobCount + 1 := by
  intro t
  have hhen : (u.cd d).hen = (s.cd d).hen := by rw [h.cd]
  have hjob := State.job_henStart (s := u) (k := k) unordered (j := j) (by rw [h.die, hhen, hslot])
  rw [h.die, h.tag, hhen] at hjob
  refine ⟨h.issued.of_mule (congrArg Tile.mule (State.tile_henStart ..)), h.only.onlyCd.trans ?_, hjob⟩
  exact h.die ▸ u.onlyCd_modCd k.d _

theorem asStream_starts (h : AtStart s u d p rd k tag false) (g : Nat) (x : Stream) :
    let t := u.modMem k.d k.p fun m => { m with streams := Tab.set {} m.streams g x }
    Issued s t d p rd tag false ∧ OnlyTile s t d p ∧ (Tab.get {} (t.tile d p).mem.streams g : Stream) = x := by
  dsimp only
  rw [h.die, h.tile]
  refine ⟨h.issued.of_mule (State.mule_modTile d p fun _ => rfl), h.only.trans (State.onlyTile_modTile ..), ?_⟩
  simp

/-- A slot of the schedule that is armed (R355). -/
theorem slotArm_starts (h : AtStart s u d p rd k tag false) {e : Nat × SlotE} (harmed : u.armed? k = some e) :
    let t := match u.armed? k with
      | some e => u.modSlot k.d e.1 fun x => { x with armed := true }
      | none => u
    Issued s t d p rd tag false ∧ OnlyCd s t d ∧ (Tab.get {} (t.cd d).slots.entries e.1 : SlotE).armed = true := by
  simp only [harmed, h.die]
  refine ⟨h.issued.of_mule (congrArg Tile.mule (State.tile_modCd d fun _ => rfl)), h.only.onlyCd.trans (u.onlyCd_modCd d _), ?_⟩
  simp [State.modSlot]

end

/-- Settles O10: each instruction is issued, and then starts in its unit. -/
theorem longRunningInstructionsIssue : Obligations.LongRunningInstructionsIssue := by
  intro d p rd rs1 rs2 s a go tag free hready
  refine ⟨fun harm herr => ?_, fun herr => ?_, fun herr => ?_, fun herr => ?_, fun herr hidle => ?_, fun j harm herr hslot => ?_,
    fun j harm herr hslot => ?_, fun harm herr => ?_, fun e harm herr harmed => ?_⟩
  · exact State.runs_issue hready (.inl harm) herr (show execMaPass d p rd rs1 rs2 s = _ from rfl) fun u h => maPass_starts h
  · exact State.runs_issue hready (.inr rfl) herr (show execEeRun d p rd rs1 rs2 s = _ from rfl) fun u h => eeRun_starts h _
  · exact State.runs_issue hready (.inr rfl) herr (show execEeCompress d p rd rs1 rs2 s = _ from rfl) fun u h => cxStart_starts h 1
  · exact State.runs_issue hready (.inr rfl) herr (show execEeExpand d p rd rs1 rs2 s = _ from rfl) fun u h => cxStart_starts h 2
  · refine State.runs_issue hready (.inr rfl) herr (show execDmaCopy d p rd rs1 rs2 s = _ from rfl) fun u h => ?_
    obtain ⟨honly, hissued, heng⟩ := dmaCopy_starts h _
    refine ⟨honly, ?_, hissued⟩
    rw [heng, if_pos hidle]
    exact ⟨rfl, rfl, rfl, rfl⟩
  · refine State.runs_issue hready (.inl harm) herr (show execHenLaunch d p rd rs1 rs2 s = _ from rfl) fun u h => ?_
    obtain ⟨hissued, honly, hst, hun, htag, hcount⟩ := henStart_starts h false hslot
    exact ⟨hissued, honly, hst, hun, htag, hcount⟩
  · refine State.runs_issue hready (.inl harm) herr (show execHenLaunchU d p rd rs1 rs2 s = _ from rfl) fun u h => ?_
    obtain ⟨hissued, honly, hst, hun, -, hcount⟩ := henStart_starts h true hslot
    exact ⟨hissued, honly, hst, hun, hcount⟩
  · exact State.runs_issue hready (.inl harm) herr (show execAsStream d p rd rs1 rs2 s = _ from rfl) fun u h => asStream_starts h _ _
  · refine State.runs_issue hready (.inl harm) herr (show execSlotArm d p rd rs1 rs2 s = _ from rfl) fun u h => slotArm_starts h ?_
    have hslots : (u.cd d).slots = (s.cd d).slots := by rw [h.cd]
    rw [← harmed, State.armed?, State.armed?]
    exact congrArg (fun v : Slots => v.find _ _) hslots

end Sys2Proof.Machine

namespace Sys2Proof.Machine

/-! The end of matrix passes (R103, R107, R119). -/

/-- The tile with a tag cleared and the streams it held no longer busy (R85, R89). -/
def Tile.clearTag (t : Tile) (tag : Nat) : Tile :=
  { t with
    mule := { t.mule with tags := t.mule.tags &&& ~~~ (1#64 <<< tag) }
    mem := { t.mem with
      streams := Tab.remap {} (fun _ g => if g.busy ∧ g.user = tag then { g with busy := false } else g) t.mem.streams } }

theorem State.sameWork_tagDone {s : State} {d i p : Nat} (tag : Nat) (h : (s.cd d).map.phys i = p) :
    ((s.tile d p).clearTag tag).SameWork ((s.tagDone d i tag).tile d p) := by
  have htile : (s.modTile d p fun t => t.clearTag tag).tile d p = (s.tile d p).clearTag tag := by simp
  have hdone : s.tagDone d i tag = (s.modTile d p fun t => t.clearTag tag).settle := by rw [← h]; rfl
  rw [← htile, hdone]
  exact sameWork_settle ..

namespace Tile.SameUnits

variable {t u : Tile} (h : t.SameUnits u)
include h

theorem passes : u.arr.passes = t.arr.passes := by rw [h.arr]

theorem plane (n : Nat) : u.arr.plane n = t.arr.plane n := by
  rw [h.arr]
  rfl

end Tile.SameUnits

theorem State.cd_of_cds {s t : State} (h : t.cds = s.cds) (d : Nat) : t.cd d = s.cd d := by rw [cd, cd, h]

@[simp] theorem State.map_modTile (s : State) (d p : Nat) (f : Tile → Tile) (k : Nat) : ((s.modTile d p f).cd k).map = (s.cd k).map := by
  rw [modTile, cd_modCd]
  split
  case isTrue h => rw [h]
  case isFalse => rfl

@[simp] theorem State.map_modArr (s : State) (d p : Nat) (f : ArrayU → ArrayU) (k : Nat) :
    ((s.modArr d p f).cd k).map = (s.cd k).map := map_modTile ..

/-- A miscompare is counted in the array, and logged (R119). -/
theorem State.cds_miscompare (s : State) (d p mech phys col row lrc load fmt chk ctx : Nat) :
    (s.miscompare d p mech phys col row lrc load fmt chk ctx).cds =
      (s.modArr d p fun a => { a with misCount := min 0xFFFF (a.misCount + 1) }).cds := by
  unfold miscompare
  dsimp only
  rw [raise_cds]
  split <;> rfl

theorem State.tile_miscompare (s : State) (d p mech phys col row lrc load fmt chk ctx : Nat) :
    (s.miscompare d p mech phys col row lrc load fmt chk ctx).tile d p =
      { s.tile d p with arr := { (s.tile d p).arr with misCount := min 0xFFFF ((s.tile d p).arr.misCount + 1) } } := by
  rw [tile_of_cds (cds_miscompare ..), tile_modArr, if_pos ⟨rfl, rfl⟩]

theorem State.map_miscompare (s : State) (d p mech phys col row lrc load fmt chk ctx k : Nat) :
    ((s.miscompare d p mech phys col row lrc load fmt chk ctx).cd k).map = (s.cd k).map := by
  rw [cd_of_cds (cds_miscompare ..), map_modArr]

/-- The pass at the head of an array has left its plane in the state st (R107). -/
def State.passLeft (s : State) (d p : Nat) (q : Pass) (rest : List Pass) (st : PlaneSt) : State :=
  (s.modArr d p fun a =>
    { (a.setPlane q.plane { (s.tile d p).passPlane s.free q (passD q.desc).k with st := st }) with passes := rest }).drew

theorem State.tile_passLeft (s : State) (d p : Nat) (q : Pass) (rest : List Pass) (st : PlaneSt) :
    let t := (s.passLeft d p q rest st).tile d p
    t.mule = (s.tile d p).mule ∧ t.arr.passes = rest ∧
      t.arr.plane q.plane = { (s.tile d p).passPlane s.free q (passD q.desc).k with st := st } := by
  intro t
  have ht : t = (s.modArr d p fun a =>
      { (a.setPlane q.plane { (s.tile d p).passPlane s.free q (passD q.desc).k with st := st }) with passes := rest }).tile d p := rfl
  rw [ht, tile_modArr, if_pos ⟨rfl, rfl⟩]
  exact ⟨rfl, rfl, ArrayU.plane_setPlane ..⟩

theorem State.map_passLeft (s : State) (d p : Nat) (q : Pass) (rest : List Pass) (st : PlaneSt) (k : Nat) :
    ((s.passLeft d p q rest st).cd k).map = (s.cd k).map := by
  rw [passLeft, cd_of_cds (drew_cds ..), map_modArr]

section

variable {s : State} {d : CdId} {p : PTile} {q : Pass} {rest : List Pass} (hpasses : (s.tile d p).arr.passes = q :: rest)
  (hinput : q.inputDone = true)
include hpasses hinput

theorem exec_maPassComplete_of_good :
    exec (.maPassComplete d p none) s = .next ((s.passLeft d p q rest .full).tagDone d q.ltile q.tag) := by
  change execMaPassComplete d p none s = _
  unfold execMaPassComplete
  simp [hpasses, hinput, ArrayU.caught, State.passLeft]

theorem exec_maPassComplete_of_caught {mis m : Miscompare} (hcaught : (s.tile d p).arr.caught q (some mis) = some m) :
    ∃ phys row chk fmt : Nat, exec (.maPassComplete d p (some mis)) s =
      .next (((s.passLeft d p q rest .held).miscompare d p m.mech phys m.col row q.lrc m.load fmt chk (s.tile d p).cx).unitFault d q.ltile
        .checksum 1 q.tag q.lrc) := by
  refine ⟨(s.tile d p).arr.phys m.col, if m.mech = 0 then m.row else 0xFFFF, if m.mech = 0 then (s.tile d p).arr.checkPhys else 0xFFFF,
    (passD q.desc).fmt, ?_⟩
  change execMaPassComplete d p (some mis) s = _
  unfold execMaPassComplete
  simp [hpasses, hinput, hcaught, State.passLeft]

end

/-- Settles O12: the array's planes and passes are as the pass leaves them; clearing its tag or halting its Mule changes neither. -/
theorem passesFillTheirPlanes : Obligations.PassesFillTheirPlanes := by
  intro d p s q rest
  refine ⟨fun hfind => ?_, fun hpasses hinput hphys => ?_, fun mis hpasses hinput hphys hcaught hactive => ?_⟩
  · refine ⟨_, rfl, State.onlyTile_modTile .., ?_⟩
    rw [State.tile_modArr, if_pos ⟨rfl, rfl⟩]
    simp only [hfind]
    refine ⟨fun r hr => ?_, List.length_map .., trivial⟩
    obtain ⟨r', -, rfl⟩ := List.mem_map.1 hr
    split <;> simp_all
  · refine runs_of_exec (exec_maPassComplete_of_good hpasses hinput) ?_
    obtain ⟨hmule, hrest, hplane⟩ := s.tile_passLeft d p q rest .full
    have hwork := State.sameWork_tagDone q.tag ((congrArg (·.phys q.ltile) (s.map_passLeft d p q rest .full d)).trans hphys)
    rw [hwork.passes, hwork.plane, hwork.mule]
    exact ⟨hrest, congrArg Plane.st hplane, (congrArg Plane.cells hplane : _), congrArg (fun m : Mule => m.tags &&& ~~~(1#64 <<< q.tag)) hmule⟩
  · obtain ⟨m, hm⟩ := Option.isSome_iff_exists.1 hcaught
    obtain ⟨phys, row, chk, fmt, hexec⟩ := exec_maPassComplete_of_caught hpasses hinput hm
    refine runs_of_exec hexec ?_
    obtain ⟨hmule, hrest, hplane⟩ := s.tile_passLeft d p q rest .held
    generalize hu : (s.passLeft d p q rest .held).miscompare d p m.mech phys m.col row q.lrc m.load fmt chk (s.tile d p).cx = u
    have hmap : (u.cd d).map.phys q.ltile = p := by rw [← hu, State.map_miscompare, State.map_passLeft, hphys]
    have hutile := State.tile_miscompare (s.passLeft d p q rest .held) d p m.mech phys m.col row q.lrc m.load fmt chk (s.tile d p).cx
    rw [hu] at hutile
    have humule : (u.tile d p).mule = (s.tile d p).mule := (congrArg Tile.mule hutile).trans hmule
    have hhalt : ((u.unitFault d q.ltile .checksum 1 q.tag q.lrc).tile d p).mule = (s.tile d p).mule.halt .checksum 2 1 q.tag q.lrc := by
      rw [State.unitFault, State.mule_settle, hmap, State.mule_muleFault, humule]
      rw [humule, hactive]
    rw [hhalt, (u.sameUnits_unitFault d q.ltile .checksum 1 q.tag q.lrc d p).plane, hutile]
    exact ⟨congrArg Plane.st hplane, rfl, rfl, rfl, rfl⟩

end Sys2Proof.Machine

namespace Sys2Proof

/-! Entries of a table by membership. -/

theorem tab_mem_of_find {α : Type} {t : Tab α} {k : Nat} {v : α} (h : Tab.find? t k = some v) : (k, v) ∈ t := by
  induction t with
  | nil => cases h
  | cons e t ih =>
    rw [Tab.find?] at h
    split at h
    case isTrue heq => cases h; subst heq; exact List.mem_cons_self
    case isFalse => exact List.mem_cons_of_mem _ (ih h)

/-- An entry read is one of the table or the default. -/
theorem tab_get_mem {α : Type} (d : α) (t : Tab α) (k : Nat) : (k, Tab.get d t k) ∈ t ∨ Tab.get d t k = d := by
  cases h : Tab.find? t k with
  | none => exact .inr (by rw [Tab.get, h]; rfl)
  | some v => exact .inl (by rw [Tab.get, h]; exact tab_mem_of_find h)

theorem tab_mem_set {α : Type} [DecidableEq α] {d : α} {t : Tab α} {k : Nat} {v : α} {e : Nat × α} (h : e ∈ Tab.set d t k v) :
    e = (k, v) ∨ (e ∈ t ∧ e.1 ≠ k) := by
  unfold Tab.set at h
  split at h
  · exact .inr (by simpa [Tab.del] using h)
  · exact ((tab_mem_ins ..).1 h).imp_right fun h => by simpa [Tab.del] using h

theorem tab_mem_set_self {α : Type} [DecidableEq α] {d : α} (t : Tab α) (k : Nat) {v : α} (h : v ≠ d) : (k, v) ∈ Tab.set d t k v := by
  rw [Tab.set, if_neg h]
  exact (tab_mem_ins ..).2 (.inl rfl)

end Sys2Proof

namespace Sys2Proof.Machine

/-! Requests and replies of gather threads (R173, R181, R182, R188). -/

@[simp] theorem State.thr_modThr (s : State) (d t k : Nat) (f : HenThread → HenThread) :
    (s.modThr d t f).thr d k = if k = t then f (s.thr d t) else s.thr d k := by
  simp [modThr, thr]

@[simp] theorem State.job_modThr (s : State) (d t j : Nat) (f : HenThread → HenThread) : (s.modThr d t f).job d j = s.job d j := by
  simp [modThr, job]

@[simp] theorem State.thr_modJob (s : State) (d j t : Nat) (f : HenJob → HenJob) : (s.modJob d j f).thr d t = s.thr d t := by
  simp [modJob, thr]

theorem State.tile_modThr (s : State) (d t k q : Nat) (f : HenThread → HenThread) : (s.modThr d t f).tile k q = s.tile k q :=
  tile_modCd d fun _ => rfl

theorem State.tile_modJob (s : State) (d j k q : Nat) (f : HenJob → HenJob) : (s.modJob d j f).tile k q = s.tile k q :=
  tile_modCd d fun _ => rfl

theorem State.onlyCd_modThr (s : State) (d t : Nat) (f : HenThread → HenThread) : OnlyCd s (s.modThr d t f) d := s.onlyCd_modCd ..

theorem State.threads_modThr (s : State) (d t : Nat) (f : HenThread → HenThread) :
    ((s.modThr d t f).cd d).hen.threads = Tab.set {} (s.cd d).hen.threads t (f (s.thr d t)) := by
  simp [modThr, thr, Tab.modify]

theorem State.threads_modJob (s : State) (d j : Nat) (f : HenJob → HenJob) :
    ((s.modJob d j f).cd d).hen.threads = (s.cd d).hen.threads := by
  simp [modJob]

/-- A request that may commit now (R181): it is held, and of an ordered job the lowest of its item and in its turn. -/
structure MayCommit (s : State) (d j : Nat) (h : HenThread) (r : HenReq) : Prop where
  slot : h.slot = j
  live : h.st = 1 ∨ h.st = 2
  held : r.held = true
  free : r.stuck = false
  turn : (s.job d j).unordered = true ∨ ((∀ x ∈ h.reqs, r.off ≤ x.2.off) ∧ s.henTurn d j (s.job d j) h r = true)

section

variable {s : State} {d j : Nat}

/-- The requests that may commit, as a list whose head is the next. -/
theorem State.henReady_list : ∃ l : List (Nat × Nat), s.henReady d j = l.head? ∧
    ∀ c, c ∈ l ↔ ∃ x ∈ (s.cd d).hen.threads, ∃ r ∈ x.2.reqs, MayCommit s d j x.2 r.2 ∧ c = (x.1, r.1) := by
  refine ⟨_, rfl, fun c => ?_⟩
  rw [List.mem_flatMap]
  refine exists_congr fun x => and_congr_right fun hx => ?_
  constructor
  · intro h
    split at h
    case isTrue hlive =>
      obtain ⟨r, hr, rfl⟩ := List.mem_map.1 h
      simp only [List.mem_filter, Bool.and_eq_true, Bool.not_eq_true', Bool.or_eq_true, List.all_eq_true, decide_eq_true_eq] at hr
      obtain ⟨hr, ⟨hheld, hfree⟩, hturn⟩ := hr
      exact ⟨r, hr, ⟨hlive.1, hlive.2, hheld, hfree, hturn⟩, rfl⟩
    case isFalse => cases h
  · rintro ⟨r, hr, ⟨hslot, hlive, hheld, hfree, hturn⟩, rfl⟩
    rw [if_pos ⟨hslot, hlive⟩]
    refine List.mem_map.2 ⟨r, ?_, rfl⟩
    simp only [List.mem_filter, Bool.and_eq_true, Bool.not_eq_true', Bool.or_eq_true, List.all_eq_true, decide_eq_true_eq]
    exact ⟨hr, ⟨hheld, hfree⟩, hturn⟩

theorem State.henReady_eq_none (h : ∀ x ∈ (s.cd d).hen.threads, ∀ r ∈ x.2.reqs, ¬ MayCommit s d j x.2 r.2) : s.henReady d j = none := by
  obtain ⟨l, hl, hmem⟩ := s.henReady_list (d := d) (j := j)
  rw [hl, List.head?_eq_none_iff, List.eq_nil_iff_forall_not_mem]
  intro c hc
  obtain ⟨x, hx, r, hr, hmay, -⟩ := (hmem c).1 hc
  exact h x hx r hr hmay

/-- The one request that may commit is the next to be carried out. -/
theorem State.henReady_eq_some {x : Nat × HenThread} {r : Nat × HenReq} (hx : x ∈ (s.cd d).hen.threads) (hr : r ∈ x.2.reqs)
    (hmay : MayCommit s d j x.2 r.2)
    (honly : ∀ x' ∈ (s.cd d).hen.threads, ∀ r' ∈ x'.2.reqs, MayCommit s d j x'.2 r'.2 → x'.1 = x.1 ∧ r'.1 = r.1) :
    s.henReady d j = some (x.1, r.1) := by
  obtain ⟨l, hl, hmem⟩ := s.henReady_list (d := d) (j := j)
  have hin : (x.1, r.1) ∈ l := (hmem _).2 ⟨x, hx, r, hr, hmay, rfl⟩
  rw [hl]
  cases l with
  | nil => cases hin
  | cons c l =>
    obtain ⟨x', hx', r', hr', hmay', rfl⟩ := (hmem c).1 List.mem_cons_self
    obtain ⟨hx1, hr1⟩ := honly x' hx' r' hr' hmay'
    rw [List.head?_cons, hx1, hr1]

end

/-- No request of job j is held. -/
def NoneHeld (s : State) (d j : Nat) : Prop :=
  ∀ x ∈ (s.cd d).hen.threads, x.2.slot = j → ∀ r ∈ x.2.reqs, r.2.held = false

theorem State.henReady_of_noneHeld {s : State} {d j : Nat} (h : NoneHeld s d j) : s.henReady d j = none :=
  henReady_eq_none fun x hx r hr hmay => by simpa [h x hx hmay.slot r hr] using hmay.held

/-- The requests of a thread of the job. -/
theorem NoneHeld.thr {s : State} {d j : Nat} (h : NoneHeld s d j) {t : Nat} (hslot : (s.thr d t).slot = j) :
    ∀ r ∈ (s.thr d t).reqs, r.2.held = false := by
  rcases tab_get_mem {} (s.cd d).hen.threads t with hmem | hdef
  · exact h _ hmem hslot
  · intro r hr
    rw [State.thr, hdef] at hr
    cases hr

theorem NoneHeld.modThr {s : State} {d j : Nat} (h : NoneHeld s d j) (t : Nat) {f : HenThread → HenThread}
    (hf : (f (s.thr d t)).slot = j → ∀ r ∈ (f (s.thr d t)).reqs, r.2.held = false) : NoneHeld (s.modThr d t f) d j := by
  intro x hx hslot
  rw [State.threads_modThr] at hx
  obtain rfl | ⟨hx, -⟩ := tab_mem_set hx
  · exact hf hslot
  · exact h x hx hslot

theorem State.jobTile_modThr (s : State) (d t : Nat) (f : HenThread → HenThread) (q : HenJob) :
    (s.modThr d t f).jobTile d q = s.jobTile d q := by
  rw [jobTile, jobTile, tile_modThr]
  simp [modThr]

theorem State.henTarget_modThr (s : State) (d t : Nat) (f : HenThread → HenThread) (q : HenJob) (i : Nat) :
    (s.modThr d t f).henTarget d q i = s.henTarget d q i := by
  simp only [henTarget, henIdx, jobTile_modThr]

/-- An atomic waits for an earlier item's atomic to the same line (R181). -/
theorem State.henTurn_of_line {s : State} {d j : Nat} {q : HenJob} {h : HenThread} {r : HenReq} {i : Nat}
    (hkind : (henD q.desc).kind = 2) (hlow : q.commitLow ≤ i) (hi : i < r.item) (hopen : Tab.get false q.committed i = false)
    (hline : s.henTarget d q i / 64 = s.henTarget d q r.item / 64) : s.henTurn d j q h r = false := by
  have hwidth : 0 < aopWidth (henD q.desc).aop := by unfold aopWidth; split <;> decide
  have hmeet : linesMeet (s.henTarget d q i, aopWidth (henD q.desc).aop, true)
      (s.henTarget d q r.item, aopWidth (henD q.desc).aop, true) = true := by
    simp only [linesMeet, Bool.or_self, Bool.true_and, decide_eq_true_eq]
    omega
  have hrest : (s.henTarget d q i, aopWidth (henD q.desc).aop, true) ∈ s.henRest d j q i := by
    simp [henRest, henTouch, hkind]
  have hmine (o n : Nat) : (s.henTarget d q r.item, aopWidth (henD q.desc).aop, true) ∈ s.henTouch d q r.item o n := by
    simp [henTouch, hkind]
  simp only [henTurn, hkind]
  rw [if_neg (by decide), List.all_eq_false]
  refine ⟨i - q.commitLow, List.mem_range.2 (by omega), ?_⟩
  rw [Nat.add_sub_cancel' hlow, hopen]
  simp only [Bool.false_or, Bool.not_eq_true', Bool.not_eq_false]
  exact List.any_eq_true.2 ⟨_, hrest, List.any_eq_true.2 ⟨_, hmine _ _, hmeet⟩⟩

section

variable {s : State} {d t e : Nat} {r : HenReq} (hhas : Tab.has (s.thr d t).reqs e = true)
  (hreq : Tab.get {} (s.thr d t).reqs e = r) (hfree : r.held = false) (hrun : (s.thr d t).st = 1)

/-- The state in which a reply is held at its request. -/
def State.replyHeld (s : State) (d t e : Nat) (r : HenReq) (data : List Byte) : State :=
  s.modThr d t fun h => { h with reqs := Tab.set {} h.reqs e { r with held := true, status := .ok, data := data } }

include hhas hreq hfree hrun in
/-- A reply is held, and then what may commit does (R181). -/
theorem State.henReply_ok (data : List Byte) :
    s.henReply d t e .ok data = (s.replyHeld d t e r data).henGo d (s.thr d t).slot := by
  simp [henReply, hhas, hreq, hfree, hrun, replyHeld]

/-- The one request that is held after a reply is the one replied to. -/
theorem State.held_of_replyHeld {data : List Byte} (hnone : NoneHeld s d (s.thr d t).slot) {x : Nat × HenThread}
    (hx : x ∈ ((s.replyHeld d t e r data).cd d).hen.threads) (hslot : x.2.slot = (s.thr d t).slot) {y : Nat × HenReq}
    (hy : y ∈ x.2.reqs) (hheld : y.2.held = true) :
    x = (t, (s.replyHeld d t e r data).thr d t) ∧ y = (e, { r with held := true, status := .ok, data := data }) := by
  rw [replyHeld, threads_modThr] at hx
  obtain rfl | ⟨hx, -⟩ := tab_mem_set hx
  · obtain rfl | ⟨hy, -⟩ := tab_mem_set hy
    · exact ⟨by simp [replyHeld], rfl⟩
    · rw [hnone.thr rfl y hy] at hheld
      cases hheld
  · rw [hnone x hx hslot y hy] at hheld
    cases hheld

end

/-- Nothing more is committed when nothing may be. -/
theorem State.henDrain_of_none {s : State} {d j : Nat} (h : s.henReady d j = none) (n : Nat) : s.henDrain d j n = s := by
  cases n with
  | zero => rfl
  | succ n =>
    rw [henDrain, h]
    split <;> rfl

theorem NoneHeld.modJob {s : State} {d j : Nat} (h : NoneHeld s d j) (k : Nat) (f : HenJob → HenJob) : NoneHeld (s.modJob d k f) d j := by
  intro x hx
  rw [State.threads_modJob] at hx
  exact h x hx

/-- The end of an item leaves the requests of its thread and every tile. -/
theorem State.thr_henItemDone (s : State) (d t : Nat) (found : Bool) :
    ((s.henItemDone d t found).thr d t).reqs = (s.thr d t).reqs ∧ ((s.henItemDone d t found).thr d t).slot = (s.thr d t).slot := by
  simp [henItemDone]

theorem State.tile_henItemDone (s : State) (d t k q : Nat) (found : Bool) : (s.henItemDone d t found).tile k q = s.tile k q := by
  rw [henItemDone, tile_modThr, tile_modJob]

theorem NoneHeld.henItemDone {s : State} {d j t : Nat} (h : NoneHeld s d j) (found : Bool) : NoneHeld (s.henItemDone d t found) d j := by
  unfold State.henItemDone
  refine (h.modJob _ _).modThr t fun hslot => ?_
  rw [State.thr_modJob] at hslot ⊢
  exact h.thr hslot

/-- A gather into the operand store commits (R176): its bytes are written, and its entry is given up. -/
def State.gathered (s : State) (d t e at_ : Nat) (q : HenJob) (bs : List Byte) : State :=
  ((s.modTile d ((s.cd d).map.phys q.ltile) fun t => t.osWrite at_ bs).modJob d (s.thr d t).slot fun q => { q with flags := q.flags ||| 0 }
    ).modThr d t fun _ => { s.thr d t with reqs := Tab.del (s.thr d t).reqs e }

/-- After a commit the item of its thread may be over. -/
def State.itemEnds (s : State) (d t : Nat) (k : HenD) : State := if (s.thr d t).itemOver k then s.henItemDone d t false else s

theorem State.henRun_gather {s : State} {d t e : Nat} {q : HenJob} {r : HenReq} {bs : List Byte} (hreq : Tab.get {} (s.thr d t).reqs e = r)
    (hq : s.job d (s.thr d t).slot = q) (hok : r.status = .ok) (hkind : (henD q.desc).kind = 0) (hos : (henD q.desc).dataOs = true)
    (hnear : r.target < 2) (hread : s.devReadN r.addr r.len = .ok bs) :
    s.henRun d t e = (s.gathered d t e ((henD q.desc).data + (r.item * (henD q.desc).rowBytes + r.off)) q bs).itemEnds d t (henD q.desc) := by
  simp [henRun, hreq, hq, hok, henCommit, hkind, henRead, hnear, hread, henData, hos, gathered, itemEnds]

theorem State.tile_gathered (s : State) (d t e at_ : Nat) (q : HenJob) (bs : List Byte) :
    (s.gathered d t e at_ q bs).tile d ((s.cd d).map.phys q.ltile) = (s.tile d ((s.cd d).map.phys q.ltile)).osWrite at_ bs := by
  rw [gathered, tile_modThr, tile_modJob, tile_modTile, if_pos ⟨rfl, rfl⟩]

theorem State.tile_itemEnds (s : State) (d t k q : Nat) (x : HenD) : (s.itemEnds d t x).tile k q = s.tile k q := by
  unfold itemEnds
  split
  · exact tile_henItemDone ..
  · rfl

theorem State.thr_itemEnds (s : State) (d t : Nat) (x : HenD) :
    ((s.itemEnds d t x).thr d t).reqs = (s.thr d t).reqs := by
  unfold itemEnds
  split
  · exact (thr_henItemDone ..).1
  · rfl

theorem NoneHeld.itemEnds {s : State} {d j t : Nat} (h : NoneHeld s d j) (x : HenD) : NoneHeld (s.itemEnds d t x) d j := by
  unfold State.itemEnds
  split
  · exact h.henItemDone _
  · exact h

theorem tab_has_del {α : Type} (t : Tab α) (k : Nat) : Tab.has (Tab.del t k) k = false := by
  simp [Tab.has, tab_find_del]

section

variable {d : CdId} {t : Fin 1024} {e : Fin 8} {s : State} {h : HenThread} {q : HenJob} (hthr : s.thr d t.val = h)
  (hjob : s.job d h.slot = q) (hrun : h.st = 1) (hlive : q.st = 1)
include hthr hjob hrun hlive

/-- A gather's next request, to the memory of a die (R173). -/
theorem henRequestIssue_runs {a n off kind pa : Nat} (hstop : q.stop = .ok) (hitem : h.item < (henD q.desc).n)
    (hquiet : (s.cd d).hen.quiescing = false) (hnext : s.henNext d q h = some (a, n, off, kind)) (hfree : h.freeReq = some e.val)
    (hkind : (henD q.desc).kind = 0) (hremote : (henD q.desc).remote = false) (halign : a % 4 = 0)
    (htarget : s.copyTarget d (((s.cd d).tr.slotOf q.ctx).getD 16) a kind = (s, .mem pa)) :
    Runs (.henRequestIssue d t) s fun u => OnlyCd s u d ∧ (u.cd d).hen.reqCount = (s.cd d).hen.reqCount + 1 ∧
      (u.thr d t.val).pos = h.pos + n ∧ (Tab.get {} (u.thr d t.val).reqs e.val : HenReq) =
        { addr := pa, target := if pa / 2 ^ 37 = d.val then 0 else 1, kind := kind, item := h.item, len := n, off := off } := by
  refine ⟨(s.modThr d t fun h => { h with
      pos := h.pos + n
      reqs := Tab.set {} h.reqs e.val
        { addr := pa, target := if pa / 2 ^ 37 = d.val then 0 else 1, kind := kind, item := h.item, len := n, off := off } }
      ).modCd d fun c => { c with hen := { c.hen with reqCount := c.hen.reqCount + 1 } }, ?_, ?_, ?_, ?_, ?_⟩
  · change execHenRequestIssue d t s = _
    have hitem' := Nat.not_le.2 hitem
    unfold execHenRequestIssue
    simp only [hthr, hjob, hrun, hlive, hstop, hitem', hquiet, hnext, hfree, hkind, hremote, halign, htarget]
    simp
  · exact (s.onlyCd_modCd d _).trans (State.onlyCd_modCd ..)
  · simp [State.modThr]
  · simp [State.thr, State.modThr, ← hthr]
  · simp [State.thr, State.modThr, ← hthr]

omit hlive in
/-- A reply to an ordered atomic that an earlier item holds back is only held (R181). -/
theorem henReply_waits {data : List Byte} {r : HenReq} {i : Nat} (hhas : Tab.has h.reqs e.val = true)
    (hreq : Tab.get {} h.reqs e.val = r) (hfree : r.held = false) (hordered : q.unordered = false) (hkind : (henD q.desc).kind = 2)
    (hlow : q.commitLow ≤ i) (hi : i < r.item) (hopen : Tab.get false q.committed i = false)
    (hline : s.henTarget d q i / 64 = s.henTarget d q r.item / 64) (hnone : NoneHeld s d h.slot) :
    exec (.henReply d t e .ok data) s = .next (s.replyHeld d t e r data) := by
  change Host.Outcome.next (s.henReply d t e .ok data) = _
  subst hthr
  rw [State.henReply_ok hhas hreq hfree hrun, State.henGo, State.henDrain_of_none]
  refine State.henReady_eq_none fun x hx y hy hmay => ?_
  obtain ⟨-, rfl⟩ := State.held_of_replyHeld hnone hx hmay.slot hy hmay.held
  have hq : (s.replyHeld d t e r data).job d (s.thr d t).slot = q := (State.job_modThr ..).trans hjob
  rcases hmay.turn with hun | ⟨-, hturn⟩
  · rw [hq, hordered] at hun
    cases hun
  · have hturn' : (s.replyHeld d t e r data).henTurn d (s.thr d t).slot q x.2 { r with held := true, status := .ok, data := data } =
        true := hq ▸ hturn
    rw [State.henTurn_of_line (r := { r with held := true, status := .ok, data := data }) hkind hlow hi hopen] at hturn'
    · cases hturn'
    · simpa only [State.replyHeld, State.henTarget_modThr] using hline

/-- A reply to an unordered gather into the operand store is carried out at once (R181, R188). -/
theorem henReply_gathers {data : List Byte} {r : HenReq} {bs : List Byte} (hhas : Tab.has h.reqs e.val = true)
    (hreq : Tab.get {} h.reqs e.val = r) (hfree : r.held = false) (hstuck : r.stuck = false) (hun : q.unordered = true)
    (hkind : (henD q.desc).kind = 0) (hos : (henD q.desc).dataOs = true) (hnear : r.target < 2)
    (hread : s.devReadN r.addr r.len = .ok bs) (hnone : NoneHeld s d h.slot) :
    exec (.henReply d t e .ok data) s = .next
      (((s.replyHeld d t e r data).gathered d t e ((henD q.desc).data + (r.item * (henD q.desc).rowBytes + r.off)) q bs).itemEnds d t
        (henD q.desc)) := by
  change Host.Outcome.next (s.henReply d t e .ok data) = _
  subst hthr
  rw [State.henReply_ok hhas hreq hfree hrun, State.henGo]
  generalize hu : s.replyHeld d t e r data = u
  have huthr : u.thr d t = { s.thr d t with
      reqs := Tab.set {} (s.thr d t).reqs e { r with held := true, status := .ok, data := data } } := by
    simp [← hu, State.replyHeld]
  have hujob : u.job d (s.thr d t).slot = q := by rw [← hu]; exact (State.job_modThr ..).trans hjob
  have hheld (x) (hx : x ∈ (u.cd d).hen.threads) (hslot : x.2.slot = (s.thr d t).slot) (y) (hy : y ∈ x.2.reqs) (hy' : y.2.held = true) :=
    State.held_of_replyHeld hnone (hu.symm ▸ hx) hslot hy hy'
  have hready : u.henReady d (s.thr d t).slot = some (t.val, e.val) := by
    refine State.henReady_eq_some (x := (t.val, u.thr d t)) (r := (e.val, { r with held := true, status := .ok, data := data }))
      ?_ ?_ ⟨?_, ?_, rfl, hstuck, .inl (hujob ▸ hun)⟩ ?_
    · rw [← hu, State.replyHeld, State.threads_modThr, State.thr_modThr, if_pos rfl]
      exact tab_mem_set_self _ _ fun hdef => absurd (congrArg HenThread.st hdef) (by simp [hrun])
    · rw [huthr]
      exact tab_mem_set_self _ _ fun hdef => absurd (congrArg HenReq.held hdef) (by simp)
    · rw [huthr]
    · rw [huthr]
      exact .inl hrun
    · intro x hx y hy hmay
      obtain ⟨rfl, rfl⟩ := hheld x hx hmay.slot y hy hmay.held
      exact ⟨rfl, rfl⟩
  have hreq' : Tab.get {} (u.thr d t).reqs e.val = { r with held := true, status := .ok, data := data } := by simp [huthr]
  have hread' : u.devReadN r.addr r.len = .ok bs := by rw [← hu]; exact hread
  have hcommit := State.henRun_gather hreq' (by rw [huthr]; exact hujob) rfl hkind hos hnear hread'
  have hafter : NoneHeld ((u.gathered d t e ((henD q.desc).data + (r.item * (henD q.desc).rowBytes + r.off)) q bs).itemEnds d t
      (henD q.desc)) d (s.thr d t).slot := by
    refine NoneHeld.itemEnds (fun x hx hslot y hy => ?_) _
    rw [State.gathered, State.threads_modThr] at hx
    obtain rfl | ⟨hx, hne⟩ := tab_mem_set hx
    · obtain ⟨hy, hye⟩ : y ∈ (u.thr d t).reqs ∧ y.1 ≠ e := by simpa [Tab.del] using hy
      rw [huthr] at hy
      obtain rfl | ⟨hy, -⟩ := tab_mem_set hy
      · exact absurd rfl hye
      · exact hnone.thr rfl y hy
    · have hx' : x ∈ (u.cd d).hen.threads := by simpa [State.modJob, State.modTile] using hx
      cases hheld' : y.2.held with
      | false => rfl
      | true => exact absurd (congrArg Prod.fst (hheld x hx' hslot y hy hheld').1) hne
  rw [State.henDrain, hujob, hready, if_neg (by simp [hlive])]
  simp only
  rw [hcommit, State.henDrain_of_none (State.henReady_of_noneHeld hafter)]

end

/-- Settles O15: a request is issued, a reply held back, or a reply carried out. -/
theorem gatherThreadsRequestAndReceive : Obligations.GatherThreadsRequestAndReceive := by
  intro d t e s h q hthr hjob hrun hlive
  refine ⟨fun a n off kind pa hstop hitem hquiet hnext hfree hkind hremote halign htarget =>
    henRequestIssue_runs hthr hjob hrun hlive hstop hitem hquiet hnext hfree hkind hremote halign htarget,
    fun data r i hhas hreq hfree hordered hkind hitem hlow hi hopen hline hnone => ?_,
    fun data r bs hhas hreq hfree hstuck hun hkind hos hnear hread _ hnone => ?_⟩
  · refine runs_of_exec (henReply_waits hthr hjob hrun hhas hreq hfree hordered hkind hlow hi hopen hline hnone)
      ⟨s.onlyCd_modThr d t _, (State.job_modThr ..).trans hjob, ?_⟩
    simp [State.replyHeld]
  · refine runs_of_exec (henReply_gathers hthr hjob hrun hlive hhas hreq hfree hstuck hun hkind hos hnear hread hnone) ?_
    have hmap : ((s.replyHeld d t e r data).cd d).map = (s.cd d).map := by simp [State.replyHeld, State.modThr]
    have htile := (s.replyHeld d t e r data).tile_gathered d t e ((henD q.desc).data + (r.item * (henD q.desc).rowBytes + r.off)) q bs
    rw [hmap] at htile
    rw [State.tile_itemEnds, htile, State.thr_itemEnds, ← Nat.add_assoc, State.replyHeld, State.tile_modThr]
    refine ⟨mem_readN_writeN .., fun a ha => mem_read_writeN_out _ _ _ _ ha, ?_⟩
    rw [State.gathered, State.thr_modThr, if_pos rfl]
    exact tab_has_del ..

end Sys2Proof.Machine

namespace Sys2Proof.Machine

/-! Sleep of the units (R27 to R30, R350, R362). -/

@[simp] theorem State.hen_modTile (s : State) (d p : Nat) (f : Tile → Tile) (k : Nat) : ((s.modTile d p f).cd k).hen = (s.cd k).hen := by
  rw [modTile, cd_modCd]
  split
  case isTrue h => rw [h]
  case isFalse => rfl

@[simp] theorem State.lx_modTile (s : State) (d p l : Nat) (f : Tile → Tile) : (s.modTile d p f).lx l = s.lx l := rfl
@[simp] theorem State.lx_modCd (s : State) (d l : Nat) (f : ComputeDie → ComputeDie) : (s.modCd d f).lx l = s.lx l := rfl

/-- A change of one unit's sleep changes no other's. -/
theorem State.sleepOf_modSleep (s : State) (u v : SleepUnit) (f : SleepU → SleepU) :
    (s.modSleep u f).sleepOf v = if v = u then f (s.sleepOf u) else s.sleepOf v := by
  cases u with
  | tile d p =>
    cases v
    case tile => simp only [modSleep, sleepOf, tile_modTile, SleepUnit.tile.injEq, Fin.ext_iff]; split <;> rfl
    all_goals simp [modSleep, sleepOf]
  | hen d =>
    cases v
    case tile => simp [modSleep, sleepOf, tile_modCd]
    case hen => simp only [modSleep, sleepOf, cd_modCd, SleepUnit.hen.injEq, Fin.ext_iff]; split <;> rfl
    all_goals simp [modSleep, sleepOf]
  | ox g =>
    cases v
    case ox => simp only [modSleep, sleepOf, tab_get_set, SleepUnit.ox.injEq, Fin.ext_iff]
    all_goals rfl
  | link l =>
    cases v
    case link => simp only [modSleep, sleepOf, lx_modLx, SleepUnit.link.injEq, Fin.ext_iff]; split <;> rfl
    all_goals rfl

theorem State.map_modSleep (s : State) (u : SleepUnit) (f : SleepU → SleepU) (k : Nat) : ((s.modSleep u f).cd k).map = (s.cd k).map := by
  cases u with
  | tile d p => exact map_modTile ..
  | hen d => simp only [modSleep, cd_modCd]; split <;> simp_all
  | ox g => rfl
  | link l => rfl

theorem State.wakeUnit_modSleep (s : State) (u : SleepUnit) (f : SleepU → SleepU) (kind no : Nat) :
    (s.modSleep u f).wakeUnit kind no = s.wakeUnit kind no := by
  simp only [wakeUnit, map_modSleep]

theorem State.sleepOf_modRecX (s : State) (r : Nat) (f : RecX → RecX) (u : SleepUnit) : (s.modRecX r f).sleepOf u = s.sleepOf u := by
  cases u <;> rfl

theorem State.sleepOf_modRec (s : State) (r : Nat) (f : Rec → Rec) (u : SleepUnit) : (s.modRec r f).sleepOf u = s.sleepOf u := by
  cases u <;> rfl

theorem State.unitWorks_modRecX (s : State) (r : Nat) (f : RecX → RecX) (u : SleepUnit) :
    (s.modRecX r f).unitWorks u = s.unitWorks u := by
  cases u <;> rfl

/-- Waking a unit that wakes changes nothing. -/
theorem SleepU.wake_wake (v : SleepU) : v.wake.wake = v.wake := by
  unfold wake
  split <;> simp_all

theorem SleepU.wake_twice (a b : Bool) (v : SleepU) :
    (if b = true then (if a = true then v.wake else v).wake else if a = true then v.wake else v) =
      if (a || b) = true then v.wake else v := by
  cases a <;> cases b <;> simp [wake_wake]

/-- One wake point of the prewake (R350). -/
def State.prewakePoint (s : State) (w : WakeP) : State :=
  match s.wakeUnit w.kind w.unit with
  | some u => s.modSleep u SleepU.wake
  | none => s

theorem State.wakeUnit_prewakePoint (s : State) (w : WakeP) (kind no : Nat) :
    (s.prewakePoint w).wakeUnit kind no = s.wakeUnit kind no := by
  unfold prewakePoint
  split
  · exact wakeUnit_modSleep ..
  · rfl

theorem State.sleepOf_prewakePoint (s : State) (w : WakeP) (u : SleepUnit) :
    (s.prewakePoint w).sleepOf u = if s.wakeUnit w.kind w.unit == some u then (s.sleepOf u).wake else s.sleepOf u := by
  unfold prewakePoint
  split
  case h_1 v hv =>
    rw [sleepOf_modSleep]
    by_cases h : u = v
    · subst h; simp [hv]
    · simp [hv, h, Ne.symm h]
  case h_2 hv => simp [hv]

/-- Waking the units of a list of points in turn wakes each of them once. -/
theorem State.sleepOf_prewakePoints (l : List WakeP) (s : State) (u : SleepUnit) :
    (l.foldl State.prewakePoint s).sleepOf u =
      if l.any fun w => s.wakeUnit w.kind w.unit == some u then (s.sleepOf u).wake else s.sleepOf u := by
  induction l generalizing s with
  | nil => rfl
  | cons w l ih =>
    simp only [List.foldl_cons, ih, wakeUnit_prewakePoint, sleepOf_prewakePoint, List.any_cons]
    exact SleepU.wake_twice ..

theorem State.recX_prewakePoints (l : List WakeP) (s : State) (r : Nat) : (l.foldl State.prewakePoint s).recX r = s.recX r := by
  refine foldl_keeps (fun s : State => s.recX r) (fun s w => ?_) l s
  unfold prewakePoint
  split
  · exact recX_of_sq (modSleep_sq ..) r
  · rfl

theorem exec_launchPrewake_due {s : State} {r : Fin 16} (hst : (s.lrec r).st = .armed) (hdue : (s.lrec r).t0 ≤ s.now + 64000)
    (hnew : (s.recX r).prewoken = false) : exec (.launchPrewake r) s =
      .next (((s.schedOf r).wakes.filter fun w => w.action == 0 && w.desc == (s.lrec r).p0 % max 1 (s.schedOf r).periods.length).foldl
        State.prewakePoint (s.modRecX r fun x => { x with prewoken := true })) := by
  change execLaunchPrewake r s = _
  unfold execLaunchPrewake
  simp [hst, hnew, Nat.not_lt.2 hdue]
  rfl

/-- A point that is due in the period that runs acts (R362). -/
theorem exec_wakePoint_due {s : State} {r : Fin 16} {i : Nat} {w : WakeP} (hw : (s.schedOf r).wakes[i]? = some w)
    (hruns : (s.lrec r).st.runs = true) (hdesc : (s.lrec r).period % max 1 (s.schedOf r).periods.length = w.desc)
    (hdue : (s.recX r).actual + w.offset ≤ s.now) (hstarts : (s.recX r).starts = [])
    (hnew : (s.recX r).points.contains ((s.lrec r).period, i) = false) :
    exec (.wakePoint r i) s = .next ((s.modRecX r fun x => { x with points := ((s.lrec r).period, i) :: x.points }).wakeAct r w) := by
  have hpoint : s.pointDue r i w = some (s.lrec r).period := by
    simp only [State.pointDue, hstarts, List.nil_append, List.find?_cons, hdesc, hnew, hdue]
    rfl
  change execWakePoint r i s = _
  unfold execWakePoint
  simp [hw, hruns, hpoint]

/-- Settles O16: every clause is one change of one unit's sleep, or a fold of such changes. -/
theorem unitsSleepAndWake : Obligations.UnitsSleepAndWake := by
  intro s
  have others (u : SleepUnit) (f : SleepU → SleepU) : ∀ v, v ≠ u → (s.modSleep u f).sleepOf v = s.sleepOf v :=
    fun v hv => by rw [State.sleepOf_modSleep, if_neg hv]
  refine ⟨fun u hst hwaking hhold hworks => ?_, fun u hpwr => ?_, fun r i w u hw hruns hdesc hdue hstarts hnew hunit => ?_,
    fun r hst hdue hnew => ?_⟩
  · refine ⟨s.modSleep u fun v => { v with st := .gated }, ?_, ?_, others u _⟩
    · change execUnitIdleTimerExpiry u s = _
      unfold execUnitIdleTimerExpiry
      simp [hst, hwaking, hworks, Nat.not_lt.2 hhold]
    · rw [State.sleepOf_modSleep, if_pos rfl]
  · refine ⟨s.modSleep u fun v => { v with st := .running, waking := false }, if_pos hpwr, ?_, others u _⟩
    rw [State.sleepOf_modSleep, if_pos rfl]
  · have hexec := exec_wakePoint_due hw hruns hdesc hdue hstarts hnew
    generalize hs : (s.modRecX r fun x => { x with points := ((s.lrec r).period, i) :: x.points }) = t at hexec
    have hunit' : t.wakeUnit w.kind w.unit = some u := by rw [← hs]; exact hunit
    have hsleep (v : SleepUnit) : t.sleepOf v = s.sleepOf v := by rw [← hs, State.sleepOf_modRecX]
    have hworks : t.unitWorks u = s.unitWorks u := by rw [← hs, State.unitWorks_modRecX]
    have hpoints : (t.recX r).points = ((s.lrec r).period, i) :: (s.recX r).points := by rw [← hs, State.recX_modRecX, if_pos rfl]
    have hnow : t.now = s.now := by rw [← hs]; rfl
    refine ⟨fun hact => runs_of_exec hexec ?_, fun hact hidle => runs_of_exec hexec ?_, fun hact hbusy => runs_of_exec hexec ?_⟩
    · simp only [State.wakeAct, hunit', hact, if_true, hnow]
      refine ⟨?_, ?_⟩
      · rw [State.sleepOf_modSleep, if_pos rfl, hsleep]
      · rw [State.recX_of_sq (State.modSleep_sq ..), hpoints]
    · have hsupports : sleepSupports u .pllOff = true := by cases u <;> rfl
      simp only [State.wakeAct, hunit', hact, hworks, hidle, hsupports, if_neg Nat.one_ne_zero, if_true, Bool.not_true, Bool.or_self,
        Bool.false_eq_true, if_false]
      rw [State.sleepOf_modSleep, if_pos rfl, hsleep]
    · simp only [State.wakeAct, hunit', if_neg hact, hworks, hbusy, Bool.true_or, if_true]
      refine ⟨fun v => by rw [State.sleepOf_modRec, hsleep], ?_⟩
      rw [State.lrec_modRec, if_pos rfl, ← hs]
      rfl
  · refine runs_of_exec (exec_launchPrewake_due hst hdue hnew) ⟨?_, fun u => ?_⟩
    · rw [State.recX_prewakePoints, State.recX_modRecX, if_pos rfl]
    · rw [State.sleepOf_prewakePoints, List.any_filter, State.sleepOf_modRecX]
      simp only [Bool.and_assoc]
      rfl

end Sys2Proof.Machine

namespace Sys2Proof

/-- A bit that is cleared reads 0. -/
theorem bit_setBit_false (x i : Nat) : bit (setBit x i false) i = false := by
  unfold setBit
  split
  case isTrue h => exact h
  case isFalse h =>
    have hodd : x / 2 ^ i % 2 = 1 := by simpa [bit, Nat.shiftRight_eq_div_pow] using h
    have hpos : 0 < 2 ^ i := Nat.two_pow_pos i
    have hdiv : (x - 2 ^ i) / 2 ^ i = x / 2 ^ i - 1 := by
      have := Nat.sub_mul_div x (2 ^ i) 1
      rwa [Nat.mul_one] at this
    simp only [bit, Nat.shiftRight_eq_div_pow, Bool.false_eq_true, if_false, hdiv]
    generalize x / 2 ^ i = y at *
    rw [decide_eq_false_iff_not]
    have := Nat.sub_le y 1
    omega

end Sys2Proof

namespace Sys2Proof.Machine

/-! Scrubbing and migration of a stack (R199 to R204). -/

@[simp] theorem State.cds_dropQueue (s : State) (q : Nat) : (s.dropQueue q).cds = s.cds := by
  unfold dropQueue
  dsimp only
  rw [foldl_keeps State.cds]
  exact fun t e => releaseOx_cds e.desc

@[simp] theorem State.cds_outputDown (s : State) (o : Nat) : (s.outputDown o).cds = s.cds :=
  foldl_keeps State.cds (fun t i => cds_dropQueue t (6 * o + i)) _ _

theorem State.svc_service (s : State) (v : Service) (cause : Err) : (s.service v cause).svc = { v with level := s.levelOf v } := by
  unfold service
  dsimp only
  split
  · exact raise_svc ..
  · split
    · exact raise_svc ..
    · rfl

@[simp] theorem State.cds_cdDown (s : State) (n : Nat) (cause : Err) : (s.cdDown n cause).cds = s.cds :=
  (service_cds ..).trans (cds_outputDown ..)

/-- A die that goes down is out of service (R14). -/
theorem State.cdIn_cdDown (s : State) (n : Nat) (cause : Err) : bit (s.cdDown n cause).svc.cdIn n = false := by
  rw [cdDown, svc_service]
  exact bit_setBit_false ..

theorem Hbm.scrubLine_scrub (h : Hbm) (pc : Nat) : (h.scrub pc).scrubLine =
    Tab.set 0 h.scrubLine pc (if Tab.get 0 h.scrubLine pc + 8 < 50331648 then Tab.get 0 h.scrubLine pc + 8 else 0) := by
  unfold scrub scrubLines
  dsimp only
  split <;> rfl

theorem Hbm.ue_scrub (h : Hbm) (pc : Nat) : (h.scrub pc).ue = h.ue := by
  unfold scrub
  dsimp only
  split <;> rfl

theorem Hbm.fastRef_scrub (h : Hbm) (pc : Nat) : (h.scrub pc).fastRef = h.fastRef := by
  unfold scrub
  dsimp only
  split <;> rfl

/-- Without a repair running, a slot completes none (R202). -/
theorem Hbm.repairSlot_idle (h : Hbm) (pc : Nat) (hidle : h.repairing = none) :
    (h.repairSlot pc).softRepairs = h.softRepairs ∧ (h.repairSlot pc).ue = h.ue := by
  simp only [repairSlot, hidle]
  split <;> exact ⟨rfl, rfl⟩

theorem Hbm.repairSlot_quiet (h : Hbm) (pc : Nat) (hidle : h.repairing = none) (hqueue : h.rowQueue = []) : h.repairSlot pc = h := by
  simp [repairSlot, hidle, hqueue]

theorem Hbm.qualify_kept (h : Hbm) (pc bank row : Nat) : (h.qualify pc bank row).repairing = h.repairing ∧
    (h.qualify pc bank row).ue = h.ue := by
  unfold qualify
  split <;> exact ⟨rfl, rfl⟩

/-- The end of a refresh slot: repairs progress, the scrubber moves on and the refresh interval follows the temperature. -/
def State.slotEnd (s : State) (d pc : Nat) (temp : Int) : State :=
  s.modCd d fun c => { c with hbm := (((s.cd d).hbm.repairSlot pc).scrub pc).refresh temp }

theorem exec_hbmRefreshSlot_clean {s : State} {d : CdId} (pc : Fin 32) (temp : Int) (hin : s.dieIn d = true) (hpwr : s.pwr.st ≠ .parked)
    (hidle : (s.cd d).hbm.repairing = none) : exec (.hbmRefreshSlot d pc [] temp) s = .next (s.slotEnd d pc temp) := by
  change execHbmRefreshSlot d pc [] temp s = _
  unfold execHbmRefreshSlot
  simp [hin, hpwr, (Hbm.repairSlot_idle _ pc hidle).1, State.slotEnd]

section

variable {s : State} {a d : Nat} (hdie : a / 2 ^ 37 = d) (hclean : Tab.get false s.poison (lineOf a) = false)
include hdie hclean

/-- An uncorrectable line found for the first time (R185): it is poisoned, counted and logged. -/
theorem State.hbmUe_new : (s.hbmUe a).poison = Tab.set false s.poison (lineOf a) true ∧ (s.hbmUe a).hbm = s.hbm := by
  unfold hbmUe
  dsimp only
  rw [hclean, hdie, if_neg Bool.false_ne_true]
  split <;> simp

theorem State.cds_hbmUe_new : ∃ seen pcUe, (s.hbmUe a).cds =
    (s.modCd d fun c => { c with hbm := { (s.cd d).hbm with ue := (s.cd d).hbm.ue + 1, ueSeen := seen, pcUe := pcUe } }).cds := by
  unfold hbmUe
  dsimp only
  rw [hclean, hdie, if_neg Bool.false_ne_true]
  refine ⟨Tab.set false (s.cd d).hbm.ueSeen (a % 2 ^ 37 / 64 * 64 / 64) true, Tab.set 0 (s.cd d).hbm.pcUe
    (pcOf (a % 2 ^ 37 / 64 * 64)) (Tab.get 0 (s.cd d).hbm.pcUe (pcOf (a % 2 ^ 37 / 64 * 64)) + 1), ?_⟩
  split
  · rw [raise_cds]
    exact raise_cds ..
  · exact raise_cds ..

theorem State.hbm_hbmUe_new : ((s.hbmUe a).cd d).hbm.ue = (s.cd d).hbm.ue + 1 ∧
    ((s.hbmUe a).cd d).hbm.repairing = (s.cd d).hbm.repairing := by
  obtain ⟨seen, pcUe, hcds⟩ := cds_hbmUe_new hdie hclean
  rw [cd_of_cds hcds, cd_modCd, if_pos rfl]
  exact ⟨rfl, rfl⟩

end

theorem exec_hbmRefreshSlot_uncorrectable {s : State} {d : CdId} {pc : Fin 32} {temp : Int} {f : ScrubFind} (hin : s.dieIn d = true)
    (hpwr : s.pwr.st ≠ .parked) (hidle : (s.cd d).hbm.repairing = none) (hbad : f.uncorrectable = true) (hdie : f.line / 2 ^ 37 = d.val)
    (hpc : pcOf (f.line % 2 ^ 37) = pc.val) (hlow : Tab.get 0 (s.cd d).hbm.scrubLine pc.val ≤ lineIdx (f.line % 2 ^ 37))
    (hhigh : lineIdx (f.line % 2 ^ 37) < Tab.get 0 (s.cd d).hbm.scrubLine pc.val + 8)
    (hclean : Tab.get false s.poison (lineOf f.line) = false) :
    exec (.hbmRefreshSlot d pc [f] temp) s =
      .next (((s.hbmUe (f.line / 64 * 64)).modCd d fun c => { c with hbm := c.hbm.qualify pc f.bank f.row }).slotEnd d pc temp) := by
  change execHbmRefreshSlot d pc [f] temp s = _
  unfold execHbmRefreshSlot
  have hdie' : f.line / 64 * 64 / 2 ^ 37 = d.val := by omega
  have hclean' : Tab.get false s.poison (lineOf (f.line / 64 * 64)) = false := by
    rw [lineOf, Nat.mul_div_cancel _ (by decide)]
    exact hclean
  have hrepair : (((s.hbmUe (f.line / 64 * 64)).cd d).hbm.qualify pc f.bank f.row).repairing = none := by
    rw [(Hbm.qualify_kept ..).1, (State.hbm_hbmUe_new hdie' hclean').2, hidle]
  simp [-Nat.reducePow, hin, hpwr, hbad, hdie, hpc, hlow, hhigh, hclean, State.slotEnd]
  rw [if_neg (by rw [(Hbm.repairSlot_idle _ pc hrepair).1]; exact lt_irrefl _)]

theorem State.hbm_slotEnd (s : State) (d pc : Nat) (temp : Int) :
    ((s.slotEnd d pc temp).cd d).hbm = (((s.cd d).hbm.repairSlot pc).scrub pc).refresh temp := by
  rw [slotEnd, cd_modCd, if_pos rfl]

/-- Settles O18: each clause is one update of the stack's record. -/
theorem stacksScrubAndMigrate : Obligations.StacksScrubAndMigrate := by
  intro d s h
  refine ⟨fun pc temp hin hpwr hidle hqueue => ?_, fun pc temp f hin hpwr hidle hqueue hbad hdie hpc hlow hhigh hclean => ?_,
    fun v hgo hrun hmig => ⟨fun hspare => ?_, fun hspare => ?_⟩, fun hmig => ?_⟩
  · refine runs_of_exec (exec_hbmRefreshSlot_clean pc temp hin hpwr hidle) ⟨s.onlyCd_modCd d _, ?_⟩
    rw [State.hbm_slotEnd, Hbm.repairSlot_quiet _ _ hidle hqueue]
    simp only [Hbm.refresh, Hbm.scrubLine_scrub, Hbm.fastRef_scrub, tab_get_set, if_true]
    exact ⟨trivial, fun k hk => if_neg hk, trivial, trivial⟩
  · have hdie' : f.line / 64 * 64 / 2 ^ 37 = d.val := by omega
    have hline : lineOf (f.line / 64 * 64) = lineOf f.line := by rw [lineOf, Nat.mul_div_cancel _ (by decide), lineOf]
    obtain ⟨hpoison, hhbm⟩ := State.hbmUe_new hdie' (hline ▸ hclean)
    obtain ⟨hue, hrep⟩ := State.hbm_hbmUe_new hdie' (hline ▸ hclean)
    refine runs_of_exec (exec_hbmRefreshSlot_uncorrectable hin hpwr hidle hbad hdie hpc hlow hhigh hclean) ⟨?_, ?_, hhbm⟩
    · refine (congrArg (fun p => Tab.get false p (lineOf f.line)) hpoison).trans ?_
      rw [hline, tab_get_set, if_pos rfl]
    · rw [State.hbm_slotEnd, Hbm.refresh, Hbm.ue_scrub, (Hbm.repairSlot_idle ..).2]
      all_goals rw [State.cd_modCd, if_pos rfl]
      · exact (Hbm.qualify_kept ..).2.trans hue
      · exact (Hbm.qualify_kept ..).1.trans (hrep.trans hidle)
  · refine runs_of_exec (t := (s.modCd d fun c => { c with hbm := { c.hbm with logicalSel := bits v.toNat 4 0 } }).modCd d fun c =>
        { c with hbm := { c.hbm with migrating := true, migDone := false, migCode := .ok } }) ?_
      ⟨(s.onlyCd_modCd d _).trans (State.onlyCd_modCd ..), ?_⟩
    · change execHbmMigrateStart d v s = _
      simp only [h] at hmig hspare
      simp [execHbmMigrateStart, State.hbmMigrate, wrote, hgo, hrun, hmig, hspare]
    · simp [h]
  · refine runs_of_exec (t := ((s.modCd d fun c => { c with hbm := { c.hbm with logicalSel := bits v.toNat 4 0 } }).modCd d fun c =>
        { c with hbm := { c.hbm with ready := false } }).cdDown d .uncorr) ?_ ⟨State.cdIn_cdDown .., ?_⟩
    · change execHbmMigrateStart d v s = _
      simp only [h] at hmig hspare
      simp [execHbmMigrateStart, State.hbmMigrate, wrote, hgo, hrun, hmig, Nat.not_lt.2 hspare]
    · rw [State.cd_of_cds (State.cds_cdDown ..)]
      simp
  · refine runs_of_exec (t := (s.modCd d fun c => { c with hbm := { c.hbm with
        migrating := false, migDone := true, migCode := .ok, sparesUsed := h.sparesUsed + 1,
        pcMap := Tab.set h.logicalSel h.pcMap h.logicalSel (32 + h.sparesUsed), pcUe := Tab.del h.pcUe h.logicalSel } }).substituted d 0x24 6
          h.logicalSel (Tab.get h.logicalSel h.pcMap h.logicalSel) (32 + h.sparesUsed)) ?_ ?_
    · change execHbmMigrationComplete d s = _
      simp only [execHbmMigrationComplete]
      simp only [h] at hmig
      rw [hmig]
      rfl
    · rw [State.cd_of_cds (State.substituted_cds ..), State.cd_modCd, if_pos rfl]
      refine ⟨?_, rfl, rfl, rfl, by simp⟩
      rw [tab_get_set, if_pos rfl]

end Sys2Proof.Machine

namespace Sys2Proof.Machine

/-! Requests of board peers and of remote windows (R185, R206, R334, R335). -/

theorem State.badPacket_of_good {s : State} {k : Packet} (d : Nat) (hpoison : k.poison = false) (hcrc : crc32 k.payload = k.crc) :
    s.badPacket d k = none := by
  simp [badPacket, hpoison, hcrc]

theorem aopWidth_le (op : Nat) : 0 < aopWidth op ∧ aopWidth op ≤ 8 := by
  unfold aopWidth
  split <;> decide

/-- A request of a peer that is well formed and names the die's own memory: its exports decide (R206). -/
structure WellFormed (d : Nat) (k : Packet) (kind : Nat) : Prop where
  isKind : k.hdr.kind = kind
  some : 0 < (peerReq k.payload).len
  line : (peerReq k.payload).p % 64 + (peerReq k.payload).len ≤ 64
  noAop : kind ≠ 0x22 → (peerReq k.payload).aop = 0
  aop : kind = 0x22 → (peerReq k.payload).aop ≤ 0xA ∧ (peerReq k.payload).len = aopWidth (peerReq k.payload).aop
  die : (peerReq k.payload).p / 2 ^ 37 = d
  stack : (peerReq k.payload).p % 2 ^ 37 + (peerReq k.payload).len ≤ 0x1800000000

section

variable {d : CdId} {l : LinkId} {k : Packet} {s : State} (hin : s.dieIn d = true) (hpoison : k.poison = false)
  (hcrc : crc32 k.payload = k.crc)
include hin hpoison hcrc

/-- What a request past its form checks does (R206). -/
theorem State.peerServe_wellFormed {kind : Nat} (h : WellFormed d k kind) : s.peerServe d l k false kind =
    let q := peerReq k.payload
    if !(s.cd d).hbm.exported (s.link l).peerMember (q.p % 2 ^ 37) q.len (decide (kind ≠ 0x20)) then .next (s.peerAnswer d l k q .prot [])
    else if decide (kind = 0x22) && decide (q.p % q.len ≠ 0) then .next (s.peerAnswer d l k q .align [])
    else if kind = 0x20 then
      match s.devRead q.p q.len with
      | .ok bs => .next (s.peerAnswer d l k q .ok bs)
      | .error e => .next (s.peerAnswer d l k q e [])
    else if kind = 0x21 then
      match s.devWrite q.p (padTo q.len q.data) with
      | .ok s => .next (s.peerAnswer d l k q .ok [])
      | .error e => .next (s.peerAnswer d l k q e [])
    else
      match s.devAtomic (s.cx k.hdr.ctx).ieee q.p q.aop (leNat (padTo 16 q.data)) with
      | .ok (s, old, _) => .next (s.peerAnswer d l k q .ok (leBytes q.len old))
      | .error e => .next (s.peerAnswer d l k q e []) := by
  obtain ⟨hkind, hsome, hline, haop, hop, hdie, hstack⟩ := h
  have hgood : ((decide ((peerReq k.payload).len = 0 ∨ 64 < (peerReq k.payload).len ∨
        64 < (peerReq k.payload).p % 64 + (peerReq k.payload).len) || (decide (kind ≠ 0x22) && decide ((peerReq k.payload).aop ≠ 0)) ||
      (decide (kind = 0x22) && decide (0xA < (peerReq k.payload).aop ∨
        (peerReq k.payload).len ≠ aopWidth (peerReq k.payload).aop)))) = false := by
    simp only [Bool.or_eq_false_iff, Bool.and_eq_false_iff, decide_eq_false_iff_not]
    omega
  unfold peerServe
  rw [if_neg (by simp [hkind, hin]), badPacket_of_good d hpoison hcrc]
  dsimp only
  rw [hgood, if_neg Bool.false_ne_true, if_neg (by omega)]
  rfl

end

/-- Settles O19: a request past its form checks is decided by the exports, and answered once. -/
theorem peersAreServed : Obligations.PeersAreServed := by
  intro d l k s q o inside hin hpoison hcrc
  refine ⟨fun e data => rfl, fun hsome hlen hline haop hdie hstack => ⟨fun hkind hexp bs hread => ?_, fun hkind hexp t hwrite => ?_,
    fun hkind hexp => ?_, fun hkind hexp => ?_⟩, fun hkind hop hlen hline halign hdie hstack hexp t old fl hatomic => ?_,
    fun hkind htag hhas htarget => ?_, ?_, fun hsome hlen hline slot t sa a bs hslot htrans htarget hread => ?_⟩
  · refine (State.peerServe_wellFormed hin hpoison hcrc ⟨hkind, hsome, hline, fun _ => haop, nofun, hdie, hstack⟩).trans ?_
    dsimp only
    rw [show (s.cd d).hbm.exported _ _ _ (decide (0x20 ≠ 0x20)) = true from hexp, hread]
    rfl
  · refine (State.peerServe_wellFormed hin hpoison hcrc ⟨hkind, hsome, hline, fun _ => haop, nofun, hdie, hstack⟩).trans ?_
    dsimp only
    rw [show (s.cd d).hbm.exported _ _ _ (decide (0x21 ≠ 0x20)) = true from hexp, hwrite]
    rfl
  · refine (State.peerServe_wellFormed hin hpoison hcrc ⟨hkind, hsome, hline, fun _ => haop, nofun, hdie, hstack⟩).trans ?_
    dsimp only
    rw [show (s.cd d).hbm.exported _ _ _ (decide (0x20 ≠ 0x20)) = false from hexp]
    rfl
  · refine (State.peerServe_wellFormed hin hpoison hcrc ⟨hkind, hsome, hline, fun _ => haop, nofun, hdie, hstack⟩).trans ?_
    dsimp only
    rw [show (s.cd d).hbm.exported _ _ _ (decide (0x21 ≠ 0x20)) = false from hexp]
    rfl
  · have hwidth := aopWidth_le q.aop
    refine (State.peerServe_wellFormed hin hpoison hcrc ⟨hkind, hlen ▸ hwidth.1, hline, fun h => absurd rfl h, fun _ => ⟨hop, hlen⟩, hdie,
      hstack⟩).trans ?_
    dsimp only
    rw [show (s.cd d).hbm.exported _ _ _ (decide (0x22 ≠ 0x20)) = true from hexp, hatomic,
      show decide (q.p % q.len ≠ 0) = false from decide_eq_false (not_not.2 halign)]
    rfl
  · change execPeerReply d k s = _
    unfold execPeerReply
    rw [if_neg (not_not.2 hkind), State.badPacket_of_good d hpoison hcrc]
    exact if_pos ⟨htag, hhas, htarget⟩
  · change execRemoteWindowRequest d l k true false s = _
    unfold execRemoteWindowRequest
    rw [if_neg (by simp [hin]), State.badPacket_of_good d hpoison hcrc]
    rfl
  · change execRemoteWindowRequest d l k false false s = _
    have hform : ¬ (q.len = 0 ∨ 64 < q.len ∨ 64 < q.p % 64 + q.len) := by omega
    unfold execRemoteWindowRequest
    rw [if_neg (by simp [hin]), State.badPacket_of_good d hpoison hcrc]
    dsimp only
    rw [if_neg Bool.false_ne_true, if_neg hform, hslot]
    dsimp only
    rw [htrans]
    dsimp only
    rw [htarget]
    dsimp only
    rw [if_neg Bool.false_ne_true, hread]

end Sys2Proof.Machine

namespace Sys2Proof

theorem tab_get_del_same {α : Type} (d : α) (t : Tab α) (k : Nat) : Tab.get d (Tab.del t k) k = d := by
  simp [Tab.get, tab_find_del]

/-- A fold that modifies each key of a list once gives each of them its own change. -/
theorem tab_get_foldl_modify {α : Type} [DecidableEq α] (d : α) (f : α → α) (l : List Nat) (hl : l.Nodup) (t : Tab α) (k : Nat) :
    Tab.get d (l.foldl (fun m p => Tab.modify d m p f) t) k = if k ∈ l then f (Tab.get d t k) else Tab.get d t k := by
  induction l generalizing t with
  | nil => simp
  | cons a l ih =>
    obtain ⟨ha, hl⟩ := List.nodup_cons.mp hl
    rw [List.foldl_cons, ih hl]
    by_cases hk : k = a
    · subst hk; simp [ha]
    · simp [hk]

end Sys2Proof

namespace Sys2Proof.Machine

/-! Buffer pools: apply, allocate, free (R223 to R227). -/

/-- The region, the counts and the MINs in force (R223). -/
def Bp.inForce (b : Bp) : Bp :=
  { b with
    configured := true, appliedRegion := b.region
    pools := (List.range 6).foldl (fun m p => Tab.modify {} m p fun x =>
      { x with applied := x.count, fresh := 0, freed := [], low := x.count }) b.pools
    quota := Tab.remap {} (fun _ q => { q with minIn := q.min }) b.quota }

theorem Bp.pool_inForce (b : Bp) {p : Nat} (hp : p < 6) :
    b.inForce.pool p = { b.pool p with applied := (b.pool p).count, fresh := 0, freed := [], low := (b.pool p).count } := by
  simp only [inForce, pool, tab_get_foldl_modify _ _ _ List.nodup_range, List.mem_range, hp, if_true]

theorem Bp.minIn_inForce (b : Bp) (r p : Nat) : (b.inForce.quotaOf r p).minIn = (b.quotaOf r p).min :=
  congrArg Quota.minIn (tab_get_remap {} (fun _ q => { q with minIn := q.min }) b.quota (6 * r + p) rfl)

/-- BP_APPLY of a free unit whose MINs fit and whose region lies in the memory (R223). -/
theorem Bp.apply_ok {b : Bp} (hfree : ∀ q ∈ b.quota, q.2.inUse = 0)
    (hmin : ∀ p, p < 6 → (List.range 16).foldl (fun a r => a + (b.quotaOf r p).min) 0 ≤ (b.pool p).count)
    (hend : b.region * 2 ^ 21 + b.regionBytes ≤ 0x1800000000) : b.apply = .ok b.inForce := by
  unfold apply
  rw [if_neg (by simpa using fun a q hq => hfree (a, q) hq), if_neg (by simpa using hmin), if_neg (by omega), inForce]

theorem Bp.apply_busy {b : Bp} (h : ∃ q ∈ b.quota, q.2.inUse ≠ 0) : b.apply = .error .busy := by
  unfold apply
  rw [if_pos (by simpa using h)]

theorem State.runs_bpApply {d : CdId} {s : State} {v : Word} (hv : bit v.toNat 0 = true)
    (hfree : ∀ q ∈ (s.cd d).bp.quota, q.2.inUse = 0)
    (hmin : ∀ p, p < 6 → (List.range 16).foldl (fun a r => a + ((s.cd d).bp.quotaOf r p).min) 0 ≤ ((s.cd d).bp.pool p).count)
    (hend : (s.cd d).bp.region * 2 ^ 21 + (s.cd d).bp.regionBytes ≤ 0x1800000000) :
    Runs (.bpApply d v) s fun t => OnlyCd s t d ∧ (t.cd d).bp.configured = true ∧ (t.cd d).bp.appliedRegion = (s.cd d).bp.region ∧
      (∀ p, p < 6 → (t.cd d).bp.pool p =
        { (s.cd d).bp.pool p with
          applied := ((s.cd d).bp.pool p).count, fresh := 0, freed := [], low := ((s.cd d).bp.pool p).count }) ∧
      ∀ r p, 0 < ((s.cd d).bp.quotaOf r p).min → ((t.cd d).bp.quotaOf r p).minIn = ((s.cd d).bp.quotaOf r p).min := by
  have hx : exec (.bpApply d v) s = wrote s (s.bpApply d v.toNat) := rfl
  unfold bpApply at hx
  rw [if_neg (by simp [hv]), Bp.apply_ok hfree hmin hend] at hx
  refine runs_of_exec hx ⟨s.onlyCd_modCd .., ?_⟩
  rw [cd_modCd, if_pos rfl]
  exact ⟨rfl, rfl, fun p hp => Bp.pool_inForce _ hp, fun r p _ => Bp.minIn_inForce ..⟩

theorem State.exec_bpApply_busy {d : CdId} {s : State} {v : Word} (hv : bit v.toNat 0 = true)
    (h : ∃ q ∈ (s.cd d).bp.quota, q.2.inUse ≠ 0) : exec (.bpApply d v) s = .next s := by
  have hx : exec (.bpApply d v) s = wrote s (s.bpApply d v.toNat) := rfl
  unfold bpApply at hx
  rwa [if_neg (by simp [hv]), Bp.apply_busy h] at hx

/-- The buffer an allocation takes: the last freed, else the lowest never taken (R224). -/
theorem Pool.take_index (x : Pool) : x.take.2 = x.freed.headD x.fresh := by
  unfold take
  split <;> simp [*]

/-- What a granted allocation changes (R224). -/
theorem Bp.alloc_granted {b : Bp} {r p : Nat} (h : b.grant r p = .ok) : b.alloc r p =
    ({ b with
        pools := Tab.set {} b.pools p (b.pool p).take.1, allocs := b.allocs + 1
        owner := Tab.set 16 b.owner (b.base p + (b.pool p).take.2 * poolSize p) r
        quota := Tab.modify {} b.quota (6 * r + p) fun q => { q with inUse := q.inUse + 1 } },
      .ok (b.base p + (b.pool p).take.2 * poolSize p)) := by
  unfold alloc
  rw [h]

/-- What a refused allocation changes: its counts alone (R224). -/
theorem Bp.alloc_refused {b : Bp} {r p : Nat} (h : b.grant r p ≠ .ok) : b.alloc r p =
    ({ b with
        refused := b.refused + 1
        quota := Tab.modify {} b.quota (6 * r + p) fun q => { q with refused := sat 32 (q.refused + 1) } },
      .error (b.grant r p)) := by
  unfold alloc
  split
  · contradiction
  · rfl

section

variable {d : CdId} {s : State} {v : Word}

theorem State.runs_bpFwAllocate (hv : bit v.toNat 3 = false) (hp : v.toNat % 8 < 6)
    (hg : (s.cd d).bp.grant 11 (v.toNat % 8) = .ok) : Runs (.bpFwAllocate d v) s fun t => OnlyCd s t d ∧
      (t.cd d).bp.resValid = true ∧ (t.cd d).bp.resCode = .ok ∧
      (t.cd d).bp.resAddr = (s.cd d).bp.base (v.toNat % 8) +
        ((s.cd d).bp.pool (v.toNat % 8)).freed.headD ((s.cd d).bp.pool (v.toNat % 8)).fresh * poolSize (v.toNat % 8) ∧
      (t.cd d).bp.allocs = (s.cd d).bp.allocs + 1 ∧
      ((t.cd d).bp.quotaOf 11 (v.toNat % 8)).inUse = ((s.cd d).bp.quotaOf 11 (v.toNat % 8)).inUse + 1 := by
  have hx : exec (.bpFwAllocate d v) s = if bit v.toNat 3 then .next s else .next (s.bpFw d v.toNat) := rfl
  rw [if_neg (by simp [hv])] at hx
  unfold bpFw bpAlloc at hx
  generalize hn : v.toNat % 8 = p at *
  rw [if_neg (by simp [hv]), if_neg (by omega), Bp.alloc_granted hg, Pool.take_index] at hx
  refine runs_of_exec hx ⟨(s.onlyCd_modCd ..).trans (onlyCd_modCd ..), ?_⟩
  simp [Bp.quotaOf]

theorem State.runs_bpFwAllocate_refused (hv : bit v.toNat 3 = false) (hp : v.toNat % 8 < 6)
    (hg : (s.cd d).bp.grant 11 (v.toNat % 8) ≠ .ok) : Runs (.bpFwAllocate d v) s fun t => OnlyCd s t d ∧
      (t.cd d).bp.resCode = (s.cd d).bp.grant 11 (v.toNat % 8) ∧ (t.cd d).bp.refused = (s.cd d).bp.refused + 1 ∧
      (t.cd d).bp.pools = (s.cd d).bp.pools := by
  have hx : exec (.bpFwAllocate d v) s = if bit v.toNat 3 then .next s else .next (s.bpFw d v.toNat) := rfl
  rw [if_neg (by simp [hv])] at hx
  unfold bpFw bpAlloc at hx
  generalize hn : v.toNat % 8 = p at *
  rw [if_neg (by simp [hv]), if_neg (by omega), Bp.alloc_refused hg] at hx
  refine runs_of_exec hx ⟨(s.onlyCd_modCd ..).trans (onlyCd_modCd ..), ?_⟩
  simp

/-- The owner of a buffer gives it back (R225). The definition is unfolded before it is applied: applied, the kernel would evaluate the
search of the pools. -/
theorem Bp.release_ok {b : Bp} {r a p : Nat} (hp : b.poolAt a = some p) (halign : (a - b.base p) % poolSize p = 0)
    (howner : Tab.get 16 b.owner a = r) (hr : r ≠ 16) : b.release r a = .ok { b with
      pools := Tab.modify {} b.pools p fun x => { x with freed := (a - b.base p) / poolSize p :: x.freed }
      frees := b.frees + 1, owner := Tab.del b.owner a
      quota := Tab.modify {} b.quota (6 * r + p) fun q => { q with inUse := q.inUse - 1 } } := by
  obtain ⟨f, hf⟩ : ∃ f, f = release := ⟨_, rfl⟩
  rw [← hf]
  delta release at hf
  rw [hf]
  beta_reduce
  rw [hp]
  dsimp only
  rw [if_neg (not_not.mpr halign), howner, if_neg hr, if_neg (not_not.mpr rfl)]

theorem State.bpFree_ok {s : State} {d a r : Nat} {b : Bp} (h : (s.cd d).bp.release r a = .ok b) :
    s.bpFree d r a = (s.modCd d fun c => { c with bp := b }, .ok) := by
  obtain ⟨f, hf⟩ : ∃ f, f = bpFree := ⟨_, rfl⟩
  rw [← hf]
  delta bpFree at hf
  rw [hf]
  beta_reduce
  rw [h]

theorem State.runs_bpFwFree (hv : bit v.toNat 3 = true) {p : Nat} (hp : (s.cd d).bp.poolAt (bits v.toNat 44 8 * 256) = some p)
    (halign : (bits v.toNat 44 8 * 256 - (s.cd d).bp.base p) % poolSize p = 0)
    (howner : Tab.get 16 (s.cd d).bp.owner (bits v.toNat 44 8 * 256) = 11) :
    Runs (.bpFwFree d v) s fun t => OnlyCd s t d ∧ (t.cd d).bp.resCode = .ok ∧ (t.cd d).bp.frees = (s.cd d).bp.frees + 1 ∧
      ((t.cd d).bp.pool p).freed =
        (bits v.toNat 44 8 * 256 - (s.cd d).bp.base p) / poolSize p :: ((s.cd d).bp.pool p).freed ∧
      Tab.get 16 (t.cd d).bp.owner (bits v.toNat 44 8 * 256) = 16 := by
  have hx : exec (.bpFwFree d v) s = if bit v.toNat 3 then .next (s.bpFw d v.toNat) else .next s := rfl
  rw [if_pos hv, bpFw, if_pos hv, bpFree_ok (Bp.release_ok hp halign howner (by decide))] at hx
  dsimp only at hx
  refine runs_of_exec hx ⟨(s.onlyCd_modCd ..).trans (onlyCd_modCd ..), ?_⟩
  simp [Bp.pool, tab_get_del_same]

theorem State.runs_bpFreeWrite (p : Fin 6) : Runs (.bpFreeWrite d p) s fun t => OnlyCd s t d ∧
    (t.cd d).bp.pool p = { (s.cd d).bp.pool p with low := ((s.cd d).bp.pool p).free } := by
  refine runs_of_exec rfl ⟨s.onlyCd_modCd .., ?_⟩
  simp [Bp.pool]

end

/-- Settles O21: one lemma per command; what a pool and a quota hold after it is read from the tables. -/
theorem poolsAllocateAndFree : Obligations.PoolsAllocateAndFree := by
  unfold Obligations.PoolsAllocateAndFree
  intro d s b
  refine ⟨fun v hv hfree hmin hend => State.runs_bpApply hv hfree hmin hend, fun v hv h => State.exec_bpApply_busy hv h,
    fun v hv hp => ⟨State.runs_bpFwAllocate hv hp, State.runs_bpFwAllocate_refused hv hp⟩, ?_, State.runs_bpFreeWrite⟩
  intro v hv a p hp halign howner
  exact State.runs_bpFwFree hv hp halign howner

end Sys2Proof.Machine

namespace Sys2Proof.Machine

/-! The hub's registers (R230, R242, R248). -/

section

variable {s : State} {v : Word}

theorem State.hubPartition_ok (hred : bits v.toNat 21 11 ≤ 1024) (hreq : 128 ≤ bits v.toNat 10 0)
    (hsum : bits v.toNat 10 0 + bits v.toNat 21 11 + 128 ≤ 2048) (hpkts : s.hub.pkts = []) (hqueues : ∀ q ∈ s.hub.queues, q.2.entries = [])
    (hbinds : ∀ b ∈ s.ox.binds, b.2.st ≠ .open ∧ b.2.st ≠ .running) :
    s.hubPartition v.toNat = .ok { s with hub := { s.hub with reqRows := bits v.toNat 10 0, redRows := bits v.toNat 21 11 } } := by
  unfold hubPartition
  dsimp only
  rw [if_neg (by omega), if_neg]
  simpa [hpkts] using ⟨fun a q hq => hqueues (a, q) hq, fun a b hb => hbinds (a, b) hb⟩

theorem State.hubPartition_refused (h : bits v.toNat 10 0 < 128 ∨ 1024 < bits v.toNat 21 11 ∨ s.hub.pkts ≠ []) :
    ∃ e, s.hubPartition v.toNat = .error e := by
  unfold hubPartition
  dsimp only
  split
  · exact ⟨_, rfl⟩
  next hrange =>
    have hpkts : s.hub.pkts ≠ [] := h.elim (by omega) (·.elim (by omega) id)
    rw [if_pos (.inl hpkts)]
    exact ⟨_, rfl⟩

theorem State.runs_hubDtAlphaWrite : Runs (.hubDtAlphaWrite v) s fun t => t = { s with hub := { s.hub with alpha := t.hub.alpha } } ∧
    t.hub.alpha < 2 ^ 16 ∧ ∀ i, i < 4 → bits t.hub.alpha (4 * i + 3) (4 * i) = min 11 (bits v.toNat (4 * i + 3) (4 * i)) := by
  refine runs_of_exec (t := s.hubAlpha v.toNat) rfl ?_
  unfold hubAlpha
  dsimp only
  have h0 := Nat.min_le_left 11 (bits v.toNat 3 0)
  have h1 := Nat.min_le_left 11 (bits v.toNat 7 4)
  have h2 := Nat.min_le_left 11 (bits v.toNat 11 8)
  have h3 := Nat.min_le_left 11 (bits v.toNat 15 12)
  refine ⟨rfl, by omega, fun i hi => ?_⟩
  interval_cases i <;>
  · simp only [Nat.mul_zero, Nat.zero_add, Nat.reduceMul, Nat.reduceAdd]
    rw [bits, Nat.shiftRight_eq_div_pow]
    omega

theorem State.exec_hubEgressShareWrite (hshare : v.toNat % 4 ≠ 3) (hidle : s.anyLaunch = false) :
    exec (.hubEgressShareWrite v) s = .next { s with hub := { s.hub with share := v.toNat % 4 } } := by
  change wrote s (s.hubShare v.toNat) = _
  rw [hubShare, if_neg hshare, hidle, if_neg Bool.false_ne_true, wrote]

theorem State.exec_hubEgressShareWrite_refused (h : s.anyLaunch = true ∨ v.toNat % 4 = 3) : exec (.hubEgressShareWrite v) s = .next s := by
  change wrote s (s.hubShare v.toNat) = _
  rw [hubShare]
  by_cases hshare : v.toNat % 4 = 3
  · rw [if_pos hshare, wrote]
  · rw [if_neg hshare, if_pos (h.resolve_right hshare), wrote]

theorem State.runs_hubSnapTake (hidle : s.hub.snapBusy = false) : Runs .hubSnapTake s fun t => t = { s with hub := t.hub } ∧
    t.hub.snapBusy = true ∧ t.hub.snapReady = false ∧ t.hub.snapTime = s.now ∧ t.hub.snapTaken = s.hub.queues ∧
    t.hub.queues = s.hub.queues := by
  refine runs_of_exec (t := s.hubSnap) rfl ?_
  rw [hubSnap, hidle, if_neg Bool.false_ne_true]
  exact ⟨rfl, rfl, rfl, rfl, rfl, rfl⟩

theorem State.runs_hubSnapComplete (hbusy : s.hub.snapBusy = true) : Runs .hubSnapComplete s fun t => t = { s with hub := t.hub } ∧
    t.hub.snapBusy = false ∧ t.hub.snapReady = true ∧ t.hub.snapQueues = s.hub.snapTaken ∧ t.hub.snapTime = s.hub.snapTime := by
  have hx : exec .hubSnapComplete s = execHubSnapComplete s := rfl
  rw [execHubSnapComplete, if_neg (by simp [hbusy])] at hx
  exact runs_of_exec hx ⟨rfl, rfl, rfl, rfl, rfl⟩

end

/-- Settles O23: one lemma per register. -/
theorem hubRegistersTakeTheirSettings : Obligations.HubRegistersTakeTheirSettings := by
  unfold Obligations.HubRegistersTakeTheirSettings
  intro s v
  refine ⟨fun hred hreq hsum hpkts hqueues hbinds => ?_, fun h => ?_, State.runs_hubDtAlphaWrite, State.exec_hubEgressShareWrite,
    State.exec_hubEgressShareWrite_refused, State.runs_hubSnapTake, State.runs_hubSnapComplete⟩
  · change wrote s (s.hubPartition v.toNat) = _
    rw [State.hubPartition_ok hred hreq hsum hpkts hqueues hbinds, wrote]
  · obtain ⟨e, he⟩ := State.hubPartition_refused h
    change wrote s (s.hubPartition v.toNat) = _
    rw [he, wrote]

end Sys2Proof.Machine

namespace Sys2Proof.Machine

/-! Ingress of the hub (R235 to R237, R241 to R244, R532). -/

/-- What every stored cell leaves alone, storing a packet leaves alone. -/
theorem State.putCells_keeps {β : Type} (v : State → β) (h : ∀ s n b taken, v (putCell s n b taken).1 = v s) (net fuel : Nat) (s : State)
    (n st : Nat) (acc : List Nat) : v (s.putCells net fuel n st acc).1 = v s := by
  have hstripe (bs : List Nat) (r : State × List Nat) :
      v (bs.foldl (fun (r : State × List Nat) b =>
        let x := r.1.putCell net b ((r.2.filter fun c => c % 1024 == b).map (· / 1024))
        (x.1, r.2 ++ [x.2])) r).1 = v r.1 := by
    induction bs generalizing r with
    | nil => rfl
    | cons b bs ih => rw [List.foldl_cons, ih, h]
  induction fuel generalizing s n st acc with
  | zero => rfl
  | succ fuel ih =>
    unfold putCells
    split
    · rfl
    · rw [ih, hstripe]

/-- Cells are stored in the banks: the packets, the queues, the counts and the routing stay (R236). -/
theorem State.pkts_putCells (s : State) (net fuel n st : Nat) (acc : List Nat) : (s.putCells net fuel n st acc).1.hub.pkts = s.hub.pkts :=
  putCells_keeps (fun s => s.hub.pkts) (fun _ _ _ _ => rfl) ..

theorem State.queues_putCells (s : State) (net fuel n st : Nat) (acc : List Nat) :
    (s.putCells net fuel n st acc).1.hub.queues = s.hub.queues :=
  putCells_keeps (fun s => s.hub.queues) (fun _ _ _ _ => rfl) ..

theorem State.pktsIn_putCells (s : State) (net fuel n st : Nat) (acc : List Nat) :
    (s.putCells net fuel n st acc).1.hub.pktsIn = s.hub.pktsIn :=
  putCells_keeps (fun s => s.hub.pktsIn) (fun _ _ _ _ => rfl) ..

theorem State.rt_putCells (s : State) (net fuel n st : Nat) (acc : List Nat) : (s.putCells net fuel n st acc).1.rt = s.rt :=
  putCells_keeps State.rt (fun _ _ _ _ => rfl) ..

/-- A queue after a packet joined a queue (R236). -/
theorem Hub.queue_enqueue (h : Hub) (o n c d cells j : Nat) : (h.enqueue o n c d cells).queue j =
    if j = queueNo o n c then
      { h.queue (queueNo o n c) with
        entries := (h.queue (queueNo o n c)).entries ++ [{ desc := d }], len := (h.queue (queueNo o n c)).len + cells
        pkts := (h.queue (queueNo o n c)).pkts + 1 }
    else h.queue j := by
  unfold enqueue setQueue
  exact tab_get_set ..

/-- A packet with one member that passes admission is stored once and joins that member's queue (R236, R241 to R243). -/
theorem State.takeIn_one {s : State} {src o stripe : Nat} {k : Packet} (hmember : s.memberErr k o = none)
    (hpkts : s.hub.pkts.length < 262144) (hentries : s.hub.entriesUsed < 524288)
    (hfree : k.hdr.cls ≠ 0 → s.hub.unconsumed k.hdr.net + k.cells ≤ s.netFree k.hdr.net) :
    ∃ (h : Hub) (cells : List Nat), h.queues = s.hub.queues ∧ h.pktsIn = s.hub.pktsIn + 1 ∧
      h.pkts = Tab.set {} s.hub.pkts s.hub.newDesc { pkt := k, src := src, cells := cells, refs := 1, serial := s.hub.nextSerial } ∧
      (s.takeIn src k [o] stripe).hub = h.enqueue o k.hdr.net k.hdr.cls s.hub.newDesc k.cells ∧
      (s.takeIn src k [o] stripe).rt = s.rt.enter src k.hdr.epoch := by
  have hfull : (decide (262144 ≤ s.hub.pkts.length) || decide (524288 < s.hub.entriesUsed + [o].length) ||
      (decide (k.hdr.cls ≠ 0) && decide (s.netFree k.hdr.net < s.hub.unconsumed k.hdr.net + k.cells))) = false := by
    simp only [Bool.or_eq_false_iff, Bool.and_eq_false_iff, decide_eq_false_iff_not, List.length_singleton]
    by_cases hcls : k.hdr.cls = 0
    · exact ⟨by omega, .inl (not_not.mpr hcls)⟩
    · exact ⟨by omega, .inr (by have := hfree hcls; omega)⟩
  unfold takeIn
  dsimp only
  rw [hfull]
  simp only [List.map_cons, List.map_nil, hmember, if_neg Bool.false_ne_true, List.filterMap_cons_none, Option.map_none,
    List.filterMap_nil, List.foldl_nil, Option.isNone_none, List.filter_cons_of_pos, List.filter_nil, List.length_singleton,
    List.cons_ne_nil, if_false, List.foldl_cons]
  have hp := pkts_putCells (s.flightOpen src k.hdr.epoch 1).1 k.hdr.net (32 * k.cells + 32) k.cells stripe []
  have hq := queues_putCells (s.flightOpen src k.hdr.epoch 1).1 k.hdr.net (32 * k.cells + 32) k.cells stripe []
  have hi := pktsIn_putCells (s.flightOpen src k.hdr.epoch 1).1 k.hdr.net (32 * k.cells + 32) k.cells stripe []
  have hr := rt_putCells (s.flightOpen src k.hdr.epoch 1).1 k.hdr.net (32 * k.cells + 32) k.cells stripe []
  generalize (s.flightOpen src k.hdr.epoch 1).1.putCells k.hdr.net (32 * k.cells + 32) k.cells stripe [] = r at *
  have hd : r.1.hub.newDesc = s.hub.newDesc := by
    unfold Hub.newDesc
    rw [hp]
    rfl
  rw [hp, hi, hd]
  refine ⟨_, r.2, ?_, ?_, ?_, rfl, hr⟩
  · exact hq
  · rfl
  · rfl

/-- A packet for one output in service is admitted for that output (R244). -/
theorem State.toMembers_one {s : State} {src o stripe : Nat} {k : Packet} (hon : s.hub.outIn o = true) :
    s.toMembers src k [o] false stripe = s.takeIn src k [o] stripe := by
  simp [toMembers, hon]

section

variable {src : Fin 54} {k : Packet} {stripe : Fin 32} {s : State} (hup : s.hub.up = true)
include hup

theorem State.ingress_poison (hpoison : k.poison = true) :
    s.ingress src k stripe = { s with hub := { s.hub with poison := sat 32 (s.hub.poison + 1) } } := by
  rw [ingress, if_neg (by simp [hup]), if_pos hpoison]

theorem State.ingress_badHeader (hpoison : k.poison = false) (hgood : k.hdr.good = false) :
    s.ingress src k stripe = { s with hub := { s.hub with hdrErr := sat 32 (s.hub.hdrErr + 1) } } := by
  rw [ingress, if_neg (by simp [hup]), if_neg (by simp [hpoison]), if_pos (.inl (by simp [hgood]))]

variable (hpoison : k.poison = false) (hgood : k.hdr.good = true) (hcls : k.hdr.cls ≠ 3)
include hpoison hgood hcls

/-- A packet without a route is counted and logged (R235). -/
theorem State.hub_ingress_noRoute (hroute : s.resolve src k = .noRoute) :
    (s.ingress src k stripe).hub = { s.hub with routeErr := sat 32 (s.hub.routeErr + 1) } := by
  rw [ingress, if_neg (by simp [hup]), if_neg (by simp [hpoison]), if_neg (by simp [hgood, hcls]), enterHub]
  simp only [hroute]
  exact raise_hub ..

/-- A packet for one output that no entry shaper holds enters the hub (R235, R392). -/
theorem State.ingress_unshaped {o : Nat} (hroute : s.resolve src k = .out k [o] false)
    (hshape : ¬ (o < 36 ∧ k.hdr.cls = 1 ∧ 36 ≤ src.val ∧ src.val < 53)) (hon : s.hub.outIn o = true) :
    s.ingress src k stripe = s.takeIn src k [o] stripe := by
  rw [ingress, if_neg (by simp [hup]), if_neg (by simp [hpoison]), if_neg (by simp [hgood, hcls]), enterHub]
  simp only [hroute, toMembers_one hon]
  by_cases ho : o < 36
  · rw [List.find?_cons_of_pos (by simp [ho])]
    exact if_neg fun h => hshape ⟨ho, h⟩
  · rw [List.find?_cons_of_neg (by simp [ho]), List.find?_nil]

end

/-- Settles O25: an admitted packet is stored by `State.takeIn_one`, and the tables are read after it. -/
theorem packetsEnterTheHub : Obligations.PacketsEnterTheHub := by
  unfold Obligations.PacketsEnterTheHub
  intro src k stripe s hup
  refine ⟨fun hpoison => congrArg Host.Outcome.next (State.ingress_poison hup hpoison),
    fun hpoison hgood => congrArg Host.Outcome.next (State.ingress_badHeader hup hpoison hgood),
    fun hpoison hgood hcls hroute => runs_of_exec rfl (State.hub_ingress_noRoute hup hpoison hgood hcls hroute), ?_⟩
  intro o hpoison hgood hcls hroute hshape hon hmember hpkts hentries hfree
  refine runs_of_exec (t := s.ingress src k stripe) rfl ?_
  rw [State.ingress_unshaped hup hpoison hgood hcls hroute hshape hon]
  obtain ⟨h, cells, hqueues, hin, hstored, hhub, hrt⟩ := State.takeIn_one (src := src) (stripe := stripe) hmember hpkts hentries hfree
  have hqueue (j : Nat) : h.queue j = s.hub.queue j := by
    rw [Hub.queue, hqueues, Hub.queue]
  have hpkt : Tab.get {} h.pkts s.hub.newDesc =
      { pkt := k, src := src, cells := cells, refs := 1, serial := s.hub.nextSerial } := by
    rw [hstored, tab_get_set, if_pos rfl]
  rw [hhub, hrt]
  simp only [Hub.queue_enqueue, hqueue, if_true]
  refine ⟨⟨trivial, trivial, trivial, trivial, fun j hj => if_neg hj⟩, congrArg HubPkt.pkt hpkt, congrArg HubPkt.refs hpkt, hin, ?_⟩
  simp [Routing.enter, Routing.counter]

end Sys2Proof.Machine

namespace Sys2Proof.Machine

/-! Packets leave the hub's queues for the Ox units (R252, R253, R257, R258, R260). -/

/-- A copy that leaves changes the counters of routing and the flights alone (R330). -/
theorem State.copyLeaves_only (s : State) (q : Nat) :
    s.copyLeaves q = { s with hub := { s.hub with flights := (s.copyLeaves q).hub.flights }, rt := (s.copyLeaves q).rt } := by
  unfold copyLeaves
  dsimp only
  split
  · split <;> rfl
  · rfl

theorem Hub.queues_release (h : Hub) (d : Nat) : (h.release d).queues = h.queues := by
  unfold release
  dsimp only
  split
  · exact State.foldl_keeps queues (f := fun g c => freeCell g _ c) (fun _ _ => rfl) _ _
  · rfl

/-- A reference given back changes the hub and the counters of routing alone. -/
theorem State.releaseOx_only (s : State) (d : Nat) : s.releaseOx d = { s with hub := (s.releaseOx d).hub, rt := (s.releaseOx d).rt } := by
  unfold releaseOx
  dsimp only
  rw [copyLeaves_only]

theorem State.queues_releaseOx (s : State) (d : Nat) : (s.releaseOx d).hub.queues = s.hub.queues := by
  unfold releaseOx
  dsimp only
  rw [copyLeaves_only]
  exact Hub.queues_release ..

section

variable (s : State) (q d : Nat) (k : HubPkt)

/-- A packet taken from a queue of output 53 changes the hub and the counters of routing alone. -/
theorem State.oxTake_only (keep : Bool) :
    s.oxTake q d k keep = { s with hub := (s.oxTake q d k keep).hub, rt := (s.oxTake q d k keep).rt } := by
  unfold oxTake
  dsimp only
  split
  · rfl
  · rw [releaseOx_only]

/-- The head of the queue leaves it. -/
theorem State.entries_oxTake (keep : Bool) :
    ((s.oxTake q d k keep).hub.queue q).entries = (s.hub.queue q).entries.tail := by
  unfold oxTake
  dsimp only
  split
  · simp [Hub.queue, Hub.setQueue]
  · rw [Hub.queue, queues_releaseOx]
    simp [Hub.setQueue]

/-- A packet the Ox still reads keeps its references (R258). -/
theorem State.refs_oxTake : (Tab.get {} (s.oxTake q d k true).hub.pkts d).refs = k.refs := by
  unfold oxTake
  simp

end

@[simp] theorem State.hub_modRun (s : State) (b : Nat) (f : OxRun → OxRun) : (s.modRun b f).hub = s.hub := rfl

@[simp] theorem State.hub_countLines (s : State) (b : Nat) : (s.countLines b).hub = s.hub := rfl

@[simp] theorem State.out_modRun (s : State) (b : Nat) (f : OxRun → OxRun) : (s.modRun b f).out = s.out := rfl

@[simp] theorem State.out_countLines (s : State) (b : Nat) : (s.countLines b).out = s.out := rfl

@[simp] theorem State.bindX_countLines (s : State) (b k : Nat) : (s.countLines b).bindX k = s.bindX k := rfl

@[simp] theorem State.st_countLines (s : State) (b k : Nat) : ((s.countLines b).bind k).st = (s.bind k).st := by
  unfold countLines
  rw [bind_modBind]
  split
  next h => rw [h]
  · rfl

@[simp] theorem State.bindX_modRun (s : State) (b k : Nat) (f : OxRun → OxRun) :
    (s.modRun b f).bindX k = if k = b then { s.bindX b with run := f (s.bindX b).run } else s.bindX k := bindX_modBindX ..

@[simp] theorem State.bind_modRun (s : State) (b k : Nat) (f : OxRun → OxRun) : (s.modRun b f).bind k = s.bind k := rfl

/-- A running binding has had its first contribution. -/
theorem State.collFirst_running {s : State} {b : Nat} (h : (s.bind b).st = .running) : s.collFirst b = s := by
  rw [collFirst, if_neg (by simp [h])]

section

variable {net : Fin 2} {cls : Fin 3} {s : State} {e : QEntry} {rest : List QEntry}
  (hhead : (s.hub.queue (queueNo 53 net.val cls.val)).entries = e :: rest) (hon : s.hub.outIn 53 = true)
include hhead hon

/-- OX_DISPATCH with a packet at the head of the queue. -/
theorem State.exec_oxDispatch : exec (.oxDispatch net cls) s =
    let q := queueNo 53 net cls
    let h := Tab.get {} s.hub.pkts e.desc
    let k := h.pkt
    if k.hdr.kind = 0x44 ∨ k.hdr.kind = 0x45 then .next ((s.oxTake q e.desc h false).emit (.packet 53 k))
    else match s.collLive k.hdr.collId with
      | none => .next ((s.oxTake q e.desc h false).oxUnbound k)
      | some b =>
        let g := (s.oxPacketUnit b k).map (· / 17)
        let asleep : Bool := match g with
          | some g => decide ((s.sleepOf (.ox ⟨g % 16, Nat.mod_lt _ (by decide)⟩)).st ≠ .running)
          | none => false
        if asleep then
          .next (s.modSleep (.ox ⟨(g.getD 0) % 16, Nat.mod_lt _ (by decide)⟩) fun u => { u with waking := true })
        else if crc32 k.payload ≠ k.crc then .next ((s.oxTake q e.desc h false).collFail b .checksum)
        else match s.collPeriodErr b k with
          | some c => .next ((s.oxTake q e.desc h false).collFail b c)
          | none => .next (s.oxData b q e.desc h) := by
  change execOxDispatch net cls s = _
  unfold execOxDispatch
  simp only [hhead, hon, Bool.not_true, if_neg Bool.false_ne_true] <;> rfl

/-- An OX_OPEN is handed on as taken by selector 53 (R301). -/
theorem State.runs_oxDispatch_open (hkind : (Tab.get {} s.hub.pkts e.desc).pkt.hdr.kind = 0x44) : Runs (.oxDispatch net cls) s fun t =>
    t.out = .packet 53 (Tab.get {} s.hub.pkts e.desc).pkt :: s.out ∧ (t.hub.queue (queueNo 53 net.val cls.val)).entries = rest := by
  refine runs_of_exec ((exec_oxDispatch hhead hon).trans (if_pos (.inl hkind))) ⟨?_, ?_⟩
  · rw [emit, oxTake_only]
  · exact (entries_oxTake ..).trans (by rw [hhead, List.tail_cons])

variable (hopen : (Tab.get {} s.hub.pkts e.desc).pkt.hdr.kind ≠ 0x44) (habort : (Tab.get {} s.hub.pkts e.desc).pkt.hdr.kind ≠ 0x45)
include hopen habort

/-- A packet for no live collective is counted and dropped (R257). -/
theorem State.runs_oxDispatch_unbound (hlive : s.collLive (Tab.get {} s.hub.pkts e.desc).pkt.hdr.collId = none) :
    Runs (.oxDispatch net cls) s fun t =>
      t.ox = { s.ox with unbound := sat 32 (s.ox.unbound + 1) } ∧ (t.hub.queue (queueNo 53 net.val cls.val)).entries = rest := by
  have hx := exec_oxDispatch hhead hon
  dsimp only at hx
  rw [if_neg (by simp [hopen, habort]), hlive] at hx
  refine runs_of_exec hx ⟨?_, ?_⟩
  · rw [oxUnbound, raise_ox, oxTake_only]
  · rw [oxUnbound, raise_hub]
    exact (entries_oxTake ..).trans (by rw [hhead, List.tail_cons])

/-- A packet for a sleeping group waits, and the group wakes (R252). -/
theorem State.runs_oxDispatch_asleep {b u : Nat} {g : Fin 16} (hlive : s.collLive (Tab.get {} s.hub.pkts e.desc).pkt.hdr.collId = some b)
    (hunit : s.oxPacketUnit b (Tab.get {} s.hub.pkts e.desc).pkt = some u) (hg : g.val = u / 17 % 16)
    (hsleep : (s.sleepOf (.ox g)).st ≠ .running) :
    Runs (.oxDispatch net cls) s fun t => t = { s with ox := t.ox } ∧ t.sleepOf (.ox g) = { s.sleepOf (.ox g) with waking := true } := by
  have hx := exec_oxDispatch hhead hon
  dsimp only at hx
  have hfin : (⟨u / 17 % 16, Nat.mod_lt _ (by decide)⟩ : Fin 16) = g := Fin.ext hg.symm
  rw [if_neg (by simp [hopen, habort]), hlive] at hx
  simp only [hunit, Option.map_some, Option.getD_some, hfin, hsleep, ne_eq, not_false_eq_true, decide_true, if_true] at hx
  refine runs_of_exec hx ⟨rfl, ?_⟩
  simp [sleepOf, modSleep]

end

/-- Elements that join their block (R258, R260, R265). -/
theorem State.oxData_contribution {s : State} {b q d : Nat} {h : HubPkt} {r : OxRun} (hkind : h.pkt.hdr.kind = 0x40)
    (hst : (s.bind b).st = .running) (hroom : (s.bind b).sched = true ∨ s.oxNoRoom b h.pkt = false)
    (hshape : oxShape (s.oxProg b) 0x40 h.pkt.payload = true)
    (hjoin : (s.bindX b).run.contribute (s.oxProg b) d 0x40 h.pkt.payload = some r) :
    s.oxData b q d h = ((s.oxTake q d h true).modRun b fun _ => r).countLines b := by
  have hroom' : ¬ ((s.bind b).sched = false ∧ s.oxNoRoom b h.pkt = true) := by
    rcases hroom with hs | hn
    · simp [hs]
    · simp [hn]
  unfold oxData
  dsimp only
  rw [if_neg hroom', collFirst_running hst, hkind, if_neg (by simp [hshape]), if_neg (by decide), hjoin]
  rfl

section

variable {net : Fin 2} {cls : Fin 3} {s : State} {e : QEntry} {rest : List QEntry}
  (hhead : (s.hub.queue (queueNo 53 net.val cls.val)).entries = e :: rest) (hon : s.hub.outIn 53 = true)
include hhead hon

theorem State.runs_oxDispatch_contribution {b : Nat} {r : OxRun} (hkind : (Tab.get {} s.hub.pkts e.desc).pkt.hdr.kind = 0x40)
    (hlive : s.collLive (Tab.get {} s.hub.pkts e.desc).pkt.hdr.collId = some b) (hst : (s.bind b).st = .running)
    (hawake : ∀ u (g : Fin 16), s.oxPacketUnit b (Tab.get {} s.hub.pkts e.desc).pkt = some u → g.val = u / 17 % 16 →
      (s.sleepOf (.ox g)).st = .running)
    (hcrc : crc32 (Tab.get {} s.hub.pkts e.desc).pkt.payload = (Tab.get {} s.hub.pkts e.desc).pkt.crc)
    (hperiod : s.collPeriodErr b (Tab.get {} s.hub.pkts e.desc).pkt = none)
    (hroom : (s.bind b).sched = true ∨ s.oxNoRoom b (Tab.get {} s.hub.pkts e.desc).pkt = false)
    (hshape : oxShape (s.oxProg b) 0x40 (Tab.get {} s.hub.pkts e.desc).pkt.payload = true)
    (hjoin : (s.bindX b).run.contribute (s.oxProg b) e.desc 0x40 (Tab.get {} s.hub.pkts e.desc).pkt.payload = some r) :
    Runs (.oxDispatch net cls) s fun t => (t.bindX b).run = r ∧ (t.hub.queue (queueNo 53 net.val cls.val)).entries = rest ∧
      t.out = s.out ∧ (Tab.get {} t.hub.pkts e.desc : HubPkt).refs = (Tab.get {} s.hub.pkts e.desc : HubPkt).refs ∧
      (t.bind b).st = .running := by
  have hx := exec_oxDispatch hhead hon
  dsimp only at hx
  generalize hk : (Tab.get {} s.hub.pkts e.desc : HubPkt) = h at *
  have hasleep : (match (s.oxPacketUnit b h.pkt).map (· / 17) with
      | some g => decide ((s.sleepOf (.ox ⟨g % 16, Nat.mod_lt _ (by decide)⟩)).st ≠ .running)
      | none => false) = false := by
    cases hu : s.oxPacketUnit b h.pkt with
    | none => rfl
    | some u => simp [hawake u ⟨u / 17 % 16, Nat.mod_lt _ (by decide)⟩ hu rfl]
  rw [if_neg (by simp [hkind]), hlive] at hx
  dsimp only at hx
  rw [if_neg (by simpa using hasleep), if_neg (by simp [hcrc]), hperiod] at hx
  dsimp only at hx
  rw [oxData_contribution hkind hst hroom hshape hjoin] at hx
  refine runs_of_exec hx ⟨by simp, ?_, ?_, ?_, ?_⟩
  · rw [hub_countLines, hub_modRun, entries_oxTake, hhead, List.tail_cons]
  · rw [out_countLines, out_modRun, oxTake_only]
  · rw [hub_countLines, hub_modRun, refs_oxTake]
  · rw [st_countLines, bind_modRun, oxTake_only]
    exact hst

end

/-- Settles O27: OX_DISPATCH at a head packet, case by case. -/
theorem contributionsReachTheOx : Obligations.ContributionsReachTheOx := by
  unfold Obligations.ContributionsReachTheOx
  intro net cls s e rest q h k hhead hon
  exact ⟨State.runs_oxDispatch_open hhead hon, State.runs_oxDispatch_unbound hhead hon,
    fun b u g hopen habort => State.runs_oxDispatch_asleep hhead hon hopen habort,
    fun b r => State.runs_oxDispatch_contribution hhead hon⟩

end Sys2Proof.Machine

namespace Sys2Proof.Machine

/-! Reduction steps and finished blocks (R265 to R268, R276, R300). -/

/-- The elements of a block each take their own change; the others keep what they hold. -/
theorem get_blockEls_foldl (g : Acc → Nat → Acc) (off : Nat) (k : Block) (accs : Tab Acc) (j : Nat) :
    Tab.get {} ((blockEls off k).zipIdx.foldl (fun accs e => Tab.set {} accs e.1 (g (Tab.get {} accs e.1) e.2)) accs) j =
      if off ≤ j ∧ j < off + k.nrec then g (Tab.get {} accs j) (j - off) else Tab.get {} accs j := by
  unfold blockEls
  induction k.nrec with
  | zero => rw [if_neg (by omega)]; rfl
  | succ n ih =>
    rw [List.range_succ, List.map_append, List.map_singleton, List.zipIdx_append, List.foldl_append]
    simp only [List.zipIdx_singleton, List.foldl_cons, List.foldl_nil, List.length_map, List.length_range, Nat.zero_add, tab_get_set]
    by_cases hj : j = off + n
    · subst hj
      have hlast := ih
      rw [if_neg (by omega)] at hlast
      rw [if_pos rfl, hlast, if_pos (by omega), Nat.add_sub_cancel_left]
    · rw [if_neg hj, ih]
      have : (off ≤ j ∧ j < off + n) ↔ (off ≤ j ∧ j < off + (n + 1)) := by omega
      simp only [this]

theorem State.ox_oxRelease (s : State) (cs : List Contrib) : (s.oxRelease cs).ox = s.ox :=
  foldl_keeps State.ox (fun t c => by rw [releaseOx_only]) cs s

/-- Lines that do not spill are stored in the hub's memory. -/
theorem State.ox_lineStore {s : State} {b : Nat} (red : Nat) (ls : List Nat) (hplace : (s.bind b).place ≠ 2) :
    (s.lineStore b red ls).ox = s.ox := by
  unfold lineStore
  dsimp only
  split
  next h => exact absurd h hplace
  · rfl

theorem OxRun.accs_newPlaces (r : OxRun) (ls : List Nat) : (r.newPlaces ls).accs = r.accs :=
  by
  unfold newPlaces
  refine State.foldl_keeps (fun r : OxRun => r.accs) ?_ ls r
  exact fun _ _ => rfl

section

variable {b : Fin 1024} {s : State} {off : Nat}

/-- A due step takes the first GROUPN contributions of its block (R265, R276). -/
theorem State.runs_oxStepFire (hst : (s.bind b).st = .running) (hdue : (Tab.get {} (s.bindX b).run.blocks off).due (s.oxProg b) = true)
    (hstored : (Tab.get {} (s.bindX b).run.blocks off).stored = false)
    (hroom : (Tab.get {} (s.bindX b).run.blocks off).lines = true ∨
      (s.bind b).used + (blockLines off (Tab.get {} (s.bindX b).run.blocks off)).length ≤ (s.bind b).lines) :
    Runs (.oxStepFire b off none none) s fun t => (Tab.get {} (t.bindX b).run.blocks off : Block) =
        { Tab.get {} (s.bindX b).run.blocks off with
          held := (Tab.get {} (s.bindX b).run.blocks off).held.drop (s.oxProg b).groupN
          firing := some ((Tab.get {} (s.bindX b).run.blocks off).held.take (s.oxProg b).groupN), lines := true } ∧
      t.ox.adds = s.ox.adds + ((Tab.get {} (s.bindX b).run.blocks off).held.take (s.oxProg b).groupN).length *
        (Tab.get {} (s.bindX b).run.blocks off).nrec ∧
      (t.bindX b).run.accs = (s.bindX b).run.accs := by
  have hx : exec (.oxStepFire b off none none) s = execOxStepFire b off none none s := rfl
  unfold execOxStepFire at hx
  dsimp only at hx
  generalize hk : (Tab.get {} (s.bindX b).run.blocks off : Block) = k at *
  rw [if_neg (by simp [hst, hdue]), if_neg (by rcases hroom with h | h <;> [simp [h]; omega]), hstored] at hx
  refine runs_of_exec hx ⟨?_, rfl, ?_⟩
  · rw [show ∀ t : State, ∀ x, ({ t with ox := { t.ox with adds := x } } : State).bindX b = t.bindX b from fun _ _ => rfl]
    simp [hstored]
  · rw [show ∀ t : State, ∀ x, ({ t with ox := { t.ox with adds := x } } : State).bindX b = t.bindX b from fun _ _ => rfl]
    simp only [bindX_countLines, bindX_modRun, if_true]
    split
    · rfl
    · exact OxRun.accs_newPlaces ..

/-- The end of a step of one contribution of elements: each element is added to its accumulator (R266, R268). -/
theorem State.runs_oxStepComplete {c : Contrib} (hfiring : (Tab.get {} (s.bindX b).run.blocks off).firing = some [c])
    (helem : c.carry = false) (hred : (s.oxProg b).red? = some 1) (hplace : (s.bind b).place ≠ 2) :
    Runs (.oxStepComplete b off) s fun t =>
      (∀ i, i < (Tab.get {} (s.bindX b).run.blocks off).nrec → (Tab.get {} (t.bindX b).run.accs (off + i) : Acc) =
        (Tab.get {} (s.bindX b).run.accs (off + i) : Acc).elem 1 (s.oxProg b).fmt
          (fld c.data (oxSize (s.oxProg b).fmt * i) (oxSize (s.oxProg b).fmt))) ∧
      (∀ j, j < off ∨ off + (Tab.get {} (s.bindX b).run.blocks off).nrec ≤ j →
        (Tab.get {} (t.bindX b).run.accs j : Acc) = Tab.get {} (s.bindX b).run.accs j) ∧
      (Tab.get {} (t.bindX b).run.blocks off : Block).firing = none ∧
      (Tab.get {} (t.bindX b).run.blocks off : Block).added = (Tab.get {} (s.bindX b).run.blocks off).added + c.units ∧
      t.ox.steps = s.ox.steps + 1 ∧ (t.bind b).steps = (s.bind b).steps + 1 := by
  have hx : exec (.oxStepComplete b off) s = execOxStepComplete b off s := rfl
  unfold execOxStepComplete at hx
  dsimp only at hx
  generalize hk : (Tab.get {} (s.bindX b).run.blocks off : Block) = k at *
  rw [hfiring, hred] at hx
  dsimp only at hx
  rw [if_neg (by simp [hplace])] at hx
  simp only [List.foldl_cons, List.foldl_nil, helem, Bool.false_eq_true, if_false] at hx
  have hbind (t : State) (x : Nat) (q : Nat) : ({ t with ox := { t.ox with steps := x } } : State).bindX q = t.bindX q := rfl
  have hbind' (t : State) (x : Nat) (q : Nat) : ({ t with ox := { t.ox with steps := x } } : State).bind q = t.bind q := rfl
  generalize hu : s.modRun b _ = u at hx
  generalize hv : State.oxRelease _ _ = v at hx
  have hox : v.ox = u.ox := by
    rw [← hv, State.ox_oxRelease]
    split
    · rw [State.ox_lineStore]
      rw [← hu, bind_modRun]
      exact hplace
    · rfl
  have hrun (q : Nat) : v.bindX q = u.bindX q := by rw [bindX, hox, bindX]
  have hst (q : Nat) : v.bind q = u.bind q := by rw [bind, hox, bind]
  refine runs_of_exec hx ?_
  rw [hbind, hbind', bindX_modBind, bind_modBind, if_pos rfl, hrun, hst, ← hu, bindX_modRun, if_pos rfl,
    bind_modRun]
  have hacc := get_blockEls_foldl
    (fun a i => a.elem 1 (s.oxProg b).fmt (fld c.data (oxSize (s.oxProg b).fmt * i) (oxSize (s.oxProg b).fmt))) off k (s.bindX b).run.accs
  refine ⟨fun i hi => ?_, fun j hj => ?_, ?_, ?_, ?_, rfl⟩
  · exact (hacc _).trans (by rw [if_pos (by omega), Nat.add_sub_cancel_left])
  · exact (hacc j).trans (if_neg (by omega))
  · simp
  · simp [Block.firingUnits, hfiring]
  · exact congrArg (fun x => x.steps + 1) (hox.trans (by rw [← hu]))

end

/-- The pieces of a block together hold all its elements. -/
theorem chunks_sum (n : Nat) {most : Nat} (hmost : 0 < most) : ((chunks n most).map (·.2)).sum = n := by
  have hsum (m : Nat) : ((List.range m).map fun i => min most (n - i * most)).sum = min n (m * most) := by
    induction m with
    | zero => simp
    | succ m ih =>
      rw [List.range_succ, List.map_append, List.sum_append, ih, List.map_singleton, List.sum_singleton, Nat.succ_mul]
      omega
  unfold chunks
  rw [List.map_map]
  refine (hsum _).trans (Nat.min_eq_left ?_)
  have := Nat.lt_div_mul_add (a := n + most - 1) hmost
  unfold cdiv
  omega

theorem State.bindX_emit (s : State) (o : Output) (b : Nat) : (s.emit o).bindX b = s.bindX b := rfl

/-- A packet the collective sends: its records are counted; of the run only the open outputs change (R298). -/
theorem State.bind_oxSend (s : State) (b o kind flags offset nrec count : Nat) (data : List Byte) :
    (s.oxSend b o kind flags offset nrec count data).bind b = { s.bind b with sent := (s.bind b).sent + nrec } := by
  unfold oxSend
  dsimp only
  rw [bind_modBind, if_pos rfl]
  split <;> rfl

theorem State.run_oxSend (s : State) (b o kind flags offset nrec count : Nat) (data : List Byte) :
    ((s.oxSend b o kind flags offset nrec count data).bindX b).run =
      { (s.bindX b).run with opened := ((s.oxSend b o kind flags offset nrec count data).bindX b).run.opened } := by
  unfold oxSend
  dsimp only
  rw [bindX_modBind]
  split
  · rfl
  · rw [bindX_emit, bindX_modRun, if_pos rfl]
    rfl

/-- Sending the pieces of a block. -/
theorem State.foldl_oxSend (b o kind count : Nat) (flags offset : Nat × Nat → Nat) (data : Nat × Nat → List Byte) (l : List (Nat × Nat))
    (s : State) :
    let t := l.foldl (fun s e => s.oxSend b o kind (flags e) (offset e) e.2 count (data e)) s
    t.bind b = { s.bind b with sent := (s.bind b).sent + (l.map (·.2)).sum } ∧
      (t.bindX b).run = { (s.bindX b).run with opened := (t.bindX b).run.opened } := by
  induction l generalizing s with
  | nil => exact ⟨rfl, rfl⟩
  | cons e l ih =>
    obtain ⟨hbind, hrun⟩ := ih (s.oxSend b o kind (flags e) (offset e) e.2 count (data e))
    rw [bind_oxSend] at hbind
    rw [run_oxSend] at hrun
    refine ⟨hbind.trans ?_, hrun⟩
    simp [Nat.add_assoc]

theorem State.ox_collEnd (s : State) (b : Nat) : (s.collEnd b).ox = s.ox := by
  unfold collEnd
  split
  · exact notice_ox ..
  · rfl

/-- The end of a collective leaves its run and the counts of its binding (R301). -/
theorem State.bindX_collProgress (s : State) (b k : Nat) : (s.collProgress b).bindX k = s.bindX k := by
  unfold collProgress
  dsimp only
  split
  · rw [bindX, ox_collEnd]
    rfl
  · rfl

theorem State.finished_collProgress (s : State) (b : Nat) : ((s.collProgress b).bind b).finished = (s.bind b).finished := by
  unfold collProgress
  dsimp only
  split
  · rw [bind, ox_collEnd]
    simp [collSlots, modBind, bind]
  · rfl

theorem State.sent_collProgress (s : State) (b : Nat) : ((s.collProgress b).bind b).sent = (s.bind b).sent := by
  unfold collProgress
  dsimp only
  split
  · rw [bind, ox_collEnd]
    simp [collSlots, modBind, bind]
  · rfl

/-- A finished block is written out once (R267). -/
theorem State.oxWrite_block (s : State) (b o red : Nat) (rnd : Bool) (off : Nat) (k : Block) :
    let t := s.oxWrite b o red rnd off k
    (Tab.get {} (t.bindX b).run.blocks off : Block) = { k with written := true } ∧ (t.bindX b).run.accs = (s.bindX b).run.accs ∧
      (t.bind b).finished = (s.bind b).finished + cdiv k.nrec 16 ∧ (t.bind b).sent = (s.bind b).sent + k.nrec := by
  unfold oxWrite
  dsimp only
  generalize hmost : (if (!rnd) = true then 96 else if oxSize (s.oxProg b).ofmt = 4 then 1008 else 2032) = most
  have hpos : 0 < most := by
    rw [← hmost]
    split
    · decide
    · split <;> decide
  generalize hu : List.foldl _ s (chunks k.nrec most) = u
  have hsent : u.bind b = { s.bind b with sent := (s.bind b).sent + k.nrec } ∧
      (u.bindX b).run = { (s.bindX b).run with opened := (u.bindX b).run.opened } := by
    rw [← hu]
    have hsum := chunks_sum k.nrec hpos
    refine Eq.subst (motive := fun n => _ = { s.bind b with sent := (s.bind b).sent + n } ∧ _) hsum ?_
    exact foldl_oxSend ..
  obtain ⟨hbind, hrun⟩ := hsent
  simp only [bindX_modRun, if_true, bindX_modBind, tab_get_set, countLines, bind_modBind, bind_modRun, hbind]
  exact ⟨trivial, (congrArg OxRun.accs hrun :), trivial, trivial⟩

/-- ROUND or CARRY with one finished block. -/
theorem State.oxFinal_block {s : State} {b i op red off : Nat} {k : Block} (hst : (s.bind b).st = .running) (hgate : (s.bind b).gate = true)
    (hi : i < (s.oxProg b).nins) (hred : (s.oxProg b).red? = some red) (hfin : (s.bindX b).run.finished (s.oxProg b) = [(off, k)])
    (hop : ((s.oxProg b).ins i).op = op) :
    let t := s.oxFinal b i op
    (Tab.get {} (t.bindX b).run.blocks off : Block) = { k with written := true } ∧ (t.bindX b).run.accs = (s.bindX b).run.accs ∧
      (t.bind b).finished = (s.bind b).finished + cdiv k.nrec 16 ∧ (t.bind b).sent = (s.bind b).sent + k.nrec := by
  have hwrite := s.oxWrite_block b (((s.oxProg b).ins i).dst - 12) red (decide (op = 8)) off k
  unfold oxFinal
  dsimp only at hwrite ⊢
  rw [if_neg (by simp [hst, hgate, hi, hop]), hred, hfin]
  dsimp only
  rw [List.foldl_cons, List.foldl_nil, bindX_collProgress, finished_collProgress, sent_collProgress]
  dsimp only
  split
  · simpa using hwrite
  · exact hwrite

/-- Settles O29: the start and the end of a step, and ROUND and CARRY, by their lemmas. -/
theorem reductionsStepAndFinish : Obligations.ReductionsStepAndFinish := by
  unfold Obligations.ReductionsStepAndFinish
  intro b s p r
  refine ⟨?_, ?_, ?_⟩
  · rintro off k rfl
    exact State.runs_oxStepFire
  · rintro off k c rfl
    exact State.runs_oxStepComplete
  · intro i off k red hst hgate hi hred hfin
    exact ⟨fun hop => runs_of_exec rfl (State.oxFinal_block hst hgate hi hred hfin hop),
      fun hop => runs_of_exec rfl (State.oxFinal_block hst hgate hi hred hfin hop)⟩

end Sys2Proof.Machine

namespace Sys2Proof.Machine

/-! Record instructions of the Ox (R262, R263, R270 to R275). -/

/-- What was sent stays sent: the outputs of a state that only sends more. -/
theorem Sent.of_suffix {s u t : State} {o : Output} (hu : s.out <:+ u.out) (ht : (u.emit o).out <:+ t.out) : Sent s t o := by
  obtain ⟨b, hb⟩ := hu
  obtain ⟨a, ha⟩ := ht
  exact ⟨a, b, by rw [hb, ← ha]; rfl⟩

theorem State.out_notice (s : State) (c code : Nat) (payload : List Byte) : s.out <:+ (s.notice c code payload).out := by
  unfold notice
  dsimp only
  rw [out_post]
  exact List.suffix_cons ..

theorem State.out_collEnd (s : State) (b : Nat) : s.out <:+ (s.collEnd b).out := by
  unfold collEnd
  split
  · exact out_notice ..
  · exact List.suffix_refl _

theorem State.out_collProgress (s : State) (b : Nat) : s.out <:+ (s.collProgress b).out := by
  unfold collProgress
  dsimp only
  split
  · refine List.IsSuffix.trans ?_ (out_collEnd _ b)
    exact List.suffix_refl _
  · exact List.suffix_refl _

section

variable (s : State) (b : Nat)

theorem State.out_oxRecRelease : (s.oxRecRelease b).out = s.out := by
  refine foldl_keeps State.out (fun t e => ?_) _ s
  rw [releaseOx_only]

/-- The packets given back after a record instruction leave its run but for the list of them. -/
theorem State.run_oxRecRelease : ((s.oxRecRelease b).bindX b).run =
    { (s.bindX b).run with recHeld := ((s.oxRecRelease b).bindX b).run.recHeld } := by
  have hfold (l : List (Nat × Nat × Nat)) : (l.foldl (fun s e => s.releaseOx e.2.2) s).bindX b = s.bindX b := by
    refine foldl_keeps (fun t : State => t.bindX b) (fun t e => ?_) l s
    rw [releaseOx_only]
    rfl
  unfold oxRecRelease
  dsimp only
  rw [bindX_modRun, if_pos rfl, hfold]

/-- Sending records changes no part of a run but its buffers and open outputs. -/
theorem State.run_oxFlush {β : Type} (v : OxRun → β)
    (hv : ∀ r opened outBuf nextOff, v { r with opened := opened, outBuf := outBuf, nextOff := nextOff } = v r) (o : Nat) (closed : Bool)
    (fuel : Nat) : v ((s.oxFlush b o closed fuel).bindX b).run = v (s.bindX b).run := by
  have hsend (s : State) (o kind flags offset nrec count : Nat) (data : List Byte) :
      v ((s.oxSend b o kind flags offset nrec count data).bindX b).run = v (s.bindX b).run := by
    rw [run_oxSend]
    exact hv (s.bindX b).run _ _ _
  induction fuel generalizing s with
  | zero => rfl
  | succ fuel ih =>
    unfold oxFlush
    dsimp only
    split
    · split
      · exact hsend ..
      · rfl
    · split
      · split
        · rw [bindX_modRun, if_pos rfl]
          exact (hv _ _ _ _).trans (hsend ..)
        · rw [ih, bindX_modRun, if_pos rfl]
          exact (hv _ _ _ _).trans (hsend ..)
      · rfl

/-- The records of a closed output that fit one packet leave as one, with LAST (R275). -/
theorem State.oxFlush_last {o fuel : Nat} (hne : Tab.get [] (s.bindX b).run.outBuf o ≠ [])
    (hfit : (Tab.get [] (s.bindX b).run.outBuf o).length ≤ perPacket (((Tab.get [] (s.bindX b).run.outBuf o).headD []).length / 4)) :
    ∃ u f, s.oxFlush b o true (fuel + 1) = (s.oxSend b o 0x42 1 (Tab.get 0 (s.bindX b).run.nextOff o)
      (Tab.get [] (s.bindX b).run.outBuf o).length 1 (Tab.get [] (s.bindX b).run.outBuf o).flatten).modRun u f := by
  unfold oxFlush
  dsimp only
  rw [if_neg hne, if_pos (.inr rfl), decide_eq_true hfit, Bool.and_true, if_pos rfl, Nat.min_eq_right hfit, List.take_length]
  exact ⟨_, _, rfl⟩

/-- A packet on an open output. -/
theorem State.out_oxSend_opened {o kind flags offset nrec count : Nat} {data : List Byte} (hopen : Tab.get false (s.bindX b).run.opened o = true) :
    (s.oxSend b o kind flags offset nrec count data).out =
      .send 16 (s.packet (s.collHdr b ((s.oxProg b).out o).netcls ((s.oxProg b).out o).route ((s.oxProg b).out o).group kind)
        (oxPrefix ((s.oxProg b).out o).run 0 flags offset nrec count ++ data)) :: s.out := by
  unfold oxSend
  dsimp only
  rw [if_pos hopen]
  rfl

end

/-- What a run has gathered is not part of the headers of its packets. -/
theorem State.collHdr_modRun (s : State) (b c : Nat) (f : OxRun → OxRun) (netcls route group kind : Nat) :
    (s.modRun b f).collHdr c netcls route group kind = s.collHdr c netcls route group kind := by
  unfold collHdr
  dsimp only
  rw [bindX_modRun]
  split
  next h => rw [h]; rfl
  · rfl

section

variable {s : State} {b i op : Nat} {f : OxP → OxRun → OxI → InsOut}

/-- The state in which a record instruction gives what it gives: its sources read, and its completion marked. -/
def State.recTaken (s : State) (b i : Nat) (x : InsOut) : State :=
  s.modRun b fun _ => { x.r with insDone := if x.done then Tab.set false x.r.insDone i true else x.r.insDone }

/-- A record instruction that runs and meets no fault (R262, R263). -/
theorem State.oxRecord_ok (hst : (s.bind b).st = .running) (hi : i < (s.oxProg b).nins) (hop : ((s.oxProg b).ins i).op = op)
    (hnew : Tab.get false (s.bindX b).run.insDone i = false) {x : InsOut}
    (hx : f (s.oxProg b) (s.bindX b).run ((s.oxProg b).ins i) = x) (herr : x.err = none)
    (hgate : op = 0x28 ∨ ((s.oxProg b).ins i).dst < 12 ∨ (s.bind b).gate = true) :
    s.oxRecord b i op none f =
      (((if op = 0x28 then s.recTaken b i x else (s.recTaken b i x).oxPut b ((s.oxProg b).ins i).dst x).oxRecRelease b).countLines
        b).collProgress b := by
  have hopen : ¬ (((s.oxProg b).ins i).op ≠ 0x28 ∧ 12 ≤ ((s.oxProg b).ins i).dst ∧ (s.bind b).gate = false) := by
    rintro ⟨hload, hdst, hshut⟩
    rcases hgate with h | h | h
    · exact hload (hop.trans h)
    · omega
    · simp [hshut] at h
  unfold oxRecord
  dsimp only
  rw [if_neg (by simp [hst, hi, hop, hnew]), if_neg hopen, hx, herr]
  rfl

/-- A part of a run that sending and giving back leave alone is what the instruction left of it. -/
theorem State.run_tail {β : Type} (v : OxRun → β) (hv : ∀ r recHeld, v { r with recHeld := recHeld } = v r) (u : State) (b : Nat) :
    v ((((u.oxRecRelease b).countLines b).collProgress b).bindX b).run = v (u.bindX b).run := by
  rw [bindX_collProgress, bindX_countLines, run_oxRecRelease]
  exact hv (u.bindX b).run _

theorem State.run_oxPut {β : Type} (v : OxRun → β)
    (hv : ∀ r ts opened outBuf nextOff, v { r with ts := ts, opened := opened, outBuf := outBuf, nextOff := nextOff } = v r)
    (u : State) (b dst : Nat) (x : InsOut) : v ((u.oxPut b dst x).bindX b).run = v (u.bindX b).run := by
  unfold oxPut
  dsimp only
  split
  · rw [bindX_modRun, if_pos rfl]
    exact hv (u.bindX b).run _ _ _ _
  · rw [run_oxFlush _ _ v fun r _ _ _ => hv r _ _ _ _, bindX_modRun, if_pos rfl]
    exact hv (u.bindX b).run _ _ _ _

/-- What a record instruction leaves of a run that neither T nor an output holds. -/
theorem State.run_recEnd {β : Type} (v : OxRun → β) (hv : ∀ r recHeld ts opened outBuf nextOff, v { r with
    recHeld := recHeld, ts := ts, opened := opened, outBuf := outBuf, nextOff := nextOff } = v r) (x : InsOut) (dst : Nat) :
    v (((((if op = 0x28 then s.recTaken b i x else (s.recTaken b i x).oxPut b dst x).oxRecRelease b).countLines b).collProgress
      b).bindX b).run = v { x.r with insDone := if x.done then Tab.set false x.r.insDone i true else x.r.insDone } := by
  have htaken : ((s.recTaken b i x).bindX b).run =
      { x.r with insDone := if x.done then Tab.set false x.r.insDone i true else x.r.insDone } := by
    rw [recTaken, bindX_modRun, if_pos rfl]
  rw [run_tail v fun r h => hv r h _ _ _ _, ← htaken]
  split
  · rfl
  · exact run_oxPut v (fun r _ _ _ _ => hv r _ _ _ _ _) ..

/-- What is given to a T stream (R270). -/
theorem State.ts_recEnd (hload : op ≠ 0x28) {dst : Nat} (hdst : dst < 12) (x : InsOut) :
    Tab.get {} (((((if op = 0x28 then s.recTaken b i x else (s.recTaken b i x).oxPut b dst x).oxRecRelease b).countLines
      b).collProgress b).bindX b).run.ts (dst - 8) = {
        runs := x.outs.foldl addRun (Tab.get {} x.r.ts (dst - 8) : TStream).runs
        whole := (Tab.get {} x.r.ts (dst - 8) : TStream).whole || x.whole } := by
  rw [run_tail (fun r => r.ts) fun _ _ => rfl, if_neg hload, oxPut, if_pos hdst, bindX_modRun, if_pos rfl, recTaken, bindX_modRun,
    if_pos rfl]
  simp

/-- The records of a completed instruction that fit a packet are sent (R275). -/
theorem State.sent_recEnd (hload : op ≠ 0x28) {dst : Nat} (hdst : 12 ≤ dst) {x : InsOut} (hdone : x.done = true)
    (hopen : Tab.get false x.r.opened (dst - 12) = true) (hbuf : Tab.get [] x.r.outBuf (dst - 12) = [])
    (hne : x.outs.flatMap (·.recs) ≠ [])
    (hfit : (x.outs.flatMap (·.recs)).length ≤ perPacket (((x.outs.flatMap (·.recs)).headD []).length / 4)) :
    Sent s ((((if op = 0x28 then s.recTaken b i x else (s.recTaken b i x).oxPut b dst x).oxRecRelease b).countLines b).collProgress b)
      (.send 16 (s.packet (s.collHdr b ((s.oxProg b).out (dst - 12)).netcls ((s.oxProg b).out (dst - 12)).route
          ((s.oxProg b).out (dst - 12)).group 0x42)
        (oxPrefix ((s.oxProg b).out (dst - 12)).run 0 1 (Tab.get 0 x.r.nextOff (dst - 12)) (x.outs.flatMap (·.recs)).length 1 ++
          (x.outs.flatMap (·.recs)).flatten))) := by
  refine Sent.of_suffix (u := s) (List.suffix_refl _) ?_
  refine List.IsSuffix.trans ?_ (out_collProgress _ _)
  rw [out_countLines, out_oxRecRelease, if_neg hload, oxPut, if_neg (by omega), hdone]
  dsimp only
  generalize hrecs : x.outs.flatMap (·.recs) = recs at hne hfit ⊢
  generalize hu : State.modRun (s.recTaken b i x) b _ = u
  have hrun : (u.bindX b).run = { x.r with
      insDone := if x.done then Tab.set false x.r.insDone i true else x.r.insDone
      outBuf := Tab.set [] x.r.outBuf (dst - 12) (Tab.get [] x.r.outBuf (dst - 12) ++ recs) } := by
    simp [← hu, recTaken]
  have hout : Tab.get [] (u.bindX b).run.outBuf (dst - 12) = recs := by
    rw [hrun, tab_get_set, if_pos rfl, hbuf, List.nil_append]
  have hopen' : Tab.get false (u.bindX b).run.opened (dst - 12) = true := by rw [hrun]; exact hopen
  obtain ⟨n, g, hflush⟩ := u.oxFlush_last b (o := dst - 12)
    (fuel := recs.length + (Tab.get [] (u.bindX b).run.outBuf (dst - 12)).length) (by rw [hout]; exact hne) (by rw [hout]; exact hfit)
  rw [hflush, out_modRun, out_oxSend_opened _ _ hopen', hout, hrun, ← hu]
  rw [collHdr_modRun, recTaken, collHdr_modRun]
  exact List.suffix_refl _

end

/-- Settles O30: the ten instructions are one function of what each does; its effects are read after it. -/
theorem recordInstructionsTakeTheirSources : Obligations.RecordInstructionsTakeTheirSources := by
  unfold Obligations.RecordInstructionsTakeTheirSources
  intro b i s c op f hc p k r x hst hi hop hnew herr hgate
  have hexec : exec c s = .next (s.oxRecord b i op none f) := by
    rcases hc with ⟨rfl, rfl, rfl⟩ | ⟨rfl, rfl, rfl⟩ | ⟨rfl, rfl, rfl⟩ | ⟨rfl, rfl, rfl⟩ | ⟨rfl, rfl, rfl⟩ | ⟨rfl, rfl, rfl⟩ |
      ⟨rfl, rfl, rfl⟩ | ⟨rfl, rfl, rfl⟩ | ⟨rfl, rfl, rfl⟩ | ⟨rfl, rfl, rfl⟩ <;> rfl
  rw [State.oxRecord_ok hst hi hop hnew (x := x) rfl herr hgate] at hexec
  refine runs_of_exec hexec ⟨?_, ?_, fun hdone => ?_, fun hload hdst => ?_, ?_⟩
  · exact State.run_recEnd (fun r => r.inputs) (fun _ _ _ _ _ _ => rfl) ..
  · exact State.run_recEnd (fun r => r.table) (fun _ _ _ _ _ _ => rfl) ..
  · rw [State.run_recEnd (fun r => r.insDone) fun _ _ _ _ _ _ => rfl]
    simp [hdone]
  · exact State.ts_recEnd hload hdst x
  · intro hload hdst hdone hopen hbuf recs hopened hne hfit
    exact State.sent_recEnd hload hdst hdone (by rw [hopened]; exact hopen) hbuf hne hfit

end Sys2Proof.Machine

namespace Sys2Proof.Machine

/-- The model's sort is the library's insertion sort. -/
theorem insertBy_eq_orderedInsert {α : Type} (le : α → α → Bool) (x : α) (l : List α) :
    insertBy le x l = l.orderedInsert (fun a b => le a b = true) x := by
  induction l with
  | nil => rfl
  | cons y l ih => simp only [insertBy, List.orderedInsert, ih]

theorem sortBy_eq_insertionSort {α : Type} (le : α → α → Bool) (l : List α) :
    sortBy le l = l.insertionSort (fun a b => le a b = true) := by
  unfold sortBy
  induction l with
  | nil => rfl
  | cons y l ih => rw [List.foldr_cons, ih, insertBy_eq_orderedInsert, List.insertionSort_cons]

theorem sortBy_perm {α : Type} (le : α → α → Bool) (l : List α) : (sortBy le l).Perm l := by
  rw [sortBy_eq_insertionSort]
  exact List.perm_insertionSort ..

theorem sortBy_pairwise {α : Type} {le : α → α → Bool} (htotal : ∀ a b, le a b = true ∨ le b a = true)
    (htrans : ∀ a b c, le a b = true → le b c = true → le a c = true) (l : List α) : (sortBy le l).Pairwise fun a b => le a b = true := by
  rw [sortBy_eq_insertionSort]
  have : Std.Total fun a b => le a b = true := ⟨htotal⟩
  have : IsTrans α fun a b => le a b = true := ⟨htrans⟩
  exact List.pairwise_insertionSort ..

/-- Keys are ordered, a NaN after every number (R269). -/
theorem keyLe_total (a b : Bool × Int) : keyLe a b = true ∨ keyLe b a = true := by
  obtain ⟨a, x⟩ := a
  obtain ⟨b, y⟩ := b
  cases a <;> cases b <;> simp [keyLe, le_total]

theorem keyLe_trans (a b c : Bool × Int) (hab : keyLe a b = true) (hbc : keyLe b c = true) : keyLe a c = true := by
  obtain ⟨a, x⟩ := a
  obtain ⟨b, y⟩ := b
  obtain ⟨c, z⟩ := c
  cases a <;> cases b <;> cases c <;> simp_all [keyLe]
  omega


/-- What SORT and TOPK order: a permutation of the source's records, in order of their keys (R271). -/
theorem SrcView.sorted_perm (v : SrcView) (c : OxI) : (v.sorted c).Perm (v.runs.flatMap (·.recs)) := sortBy_perm ..

theorem SrcView.sorted_pairwise (v : SrcView) (c : OxI) :
    (v.sorted c).Pairwise fun a b => keyLe (recKey c.kfmt c.desc a) (recKey c.kfmt c.desc b) = true :=
  sortBy_pairwise (le := fun a b => keyLe (recKey c.kfmt c.desc a) (recKey c.kfmt c.desc b)) (fun _ _ => keyLe_total _ _)
    (fun _ _ _ => keyLe_trans _ _ _) _

/-- Settles O31: the model's sort is the library's insertion sort, and the keys are totally ordered. -/
theorem sortAndFilterGiveTheirRecords : Obligations.SortAndFilterGiveTheirRecords := by
  unfold Obligations.SortAndFilterGiveTheirRecords
  intro p r c v all le
  refine ⟨fun hclosed hcount => ⟨v.sorted c, ?_, v.sorted_perm c, v.sorted_pairwise c, ?_⟩, fun hcount => ?_, ?_⟩
  · unfold insSort
    dsimp only
    rw [if_neg (Nat.not_lt.mpr hcount), if_neg (by simpa using hclosed)]
  · unfold insTopk
    dsimp only
    rw [if_neg (by simpa using hclosed)]
  · unfold insSort
    dsimp only
    rw [if_pos hcount]
  · unfold insFilter insMap
    dsimp only
    rw [List.map_map]
    refine List.map_congr_left fun e _ => ?_
    exact congrFun List.filterMap_eq_filter e.recs

end Sys2Proof.Machine

namespace Sys2Proof.Machine

/-! Collectives open, abort and end (R296 to R308). -/

/-- A binding that no abort of a period reaches: its entry neither opens nor runs. -/
def State.Settled (s : State) (b : Nat) : Prop := ∀ e ∈ s.ox.binds, e.1 = b → e.2.st ≠ .open ∧ e.2.st ≠ .running

theorem State.bind_of_ox {s t : State} (h : t.ox = s.ox) (b : Nat) : t.bind b = s.bind b := by rw [bind, h, bind]

theorem State.bindX_of_ox {s t : State} (h : t.ox = s.ox) (b : Nat) : t.bindX b = s.bindX b := by rw [bindX, h, bindX]

theorem State.ox_foldl_releaseOx (s : State) (l : List Nat) : (l.foldl (fun s d => s.releaseOx d) s).ox = s.ox :=
  foldl_keeps State.ox (fun t d => by rw [releaseOx_only]) l s

/-- The entry of a binding that aborts (R304). -/
def Binding.abortedBy (x : Binding) (code : Err) (origin now : Nat) : Binding :=
  { x with st := .aborted, code := code, origin := origin, tEnd := now, used := 0 }

/-- The rest of a binding that aborts: its OX_ABORT is due, its fetch stops, what it held is dropped (R304). -/
def BindX.abortedBy (x : BindX) (sev : Nat) : BindX :=
  { x with
    abortDue := true, localCause := decide (sev = 3), fetch := { x.fetch with active := false }
    run := { x.run with blocks := Tab.remap {} (fun _ k => { k with held := [], firing := none }) x.run.blocks, recHeld := [],
                        inputs := [], ts := [], table := [] } }

/-- The tables of bindings with the entries of one of them changed. -/
def State.oxWith (s : State) (b : Nat) (x : Binding) (y : BindX) (n : Nat) : Ox :=
  { s.ox with binds := Tab.set {} s.ox.binds b x, bindx := Tab.set {} s.ox.bindx b y, abortCount := n }

theorem State.bind_oxWith {s t : State} {b n : Nat} {x : Binding} {y : BindX} (h : t.ox = s.oxWith b x y n) (k : Nat) :
    t.bind k = if k = b then x else s.bind k := by
  rw [bind, h, oxWith, tab_get_set, bind]

theorem State.bindX_oxWith {s t : State} {b n : Nat} {x : Binding} {y : BindX} (h : t.ox = s.oxWith b x y n) (k : Nat) :
    t.bindX k = if k = b then y else s.bindX k := by
  rw [bindX, h, oxWith, tab_get_set, bindX]

section

variable {s : State} {b : Nat} {code : Err} {origin sev : Nat} {data : List Byte} {contrib : Option Nat} {ledger : Nat}

theorem State.abortBinding_live (h : (s.bind b).st = .open ∨ (s.bind b).st = .running ∨ (s.bind b).st = .done) :
    (s.abortBinding b code origin sev data contrib ledger).ox =
      s.oxWith b ((s.bind b).abortedBy code origin s.now) ((s.bindX b).abortedBy sev) (s.ox.abortCount + 1) := by
  have hox := s.ox_foldl_releaseOx (s.bindX b).run.descs
  have hnow : (List.foldl (fun s d => s.releaseOx d) s (s.bindX b).run.descs).now = s.now := by
    refine foldl_keeps State.now (fun t d => ?_) _ s
    rw [releaseOx_only]
    rfl
  have hend : (s.abortBinding b code origin sev data contrib ledger).ox =
      (List.foldl (fun s d => s.releaseOx d) s (s.bindX b).run.descs).oxWith b
        (((List.foldl (fun s d => s.releaseOx d) s (s.bindX b).run.descs).bind b).abortedBy code origin
          (List.foldl (fun s d => s.releaseOx d) s (s.bindX b).run.descs).now)
        (((List.foldl (fun s d => s.releaseOx d) s (s.bindX b).run.descs).bindX b).abortedBy sev)
        ((List.foldl (fun s d => s.releaseOx d) s (s.bindX b).run.descs).ox.abortCount + 1) := by
    unfold abortBinding
    dsimp only
    split
    · rw [ox_collEnd, raise_ox]; rfl
    · rw [ox_collEnd, raise_ox]; rfl
    · rw [ox_collEnd, raise_ox]; rfl
    next ha => simp [ha] at h
    next ha => simp [ha] at h
  rw [hend, hnow, bind_of_ox hox, bindX_of_ox hox, oxWith, hox, oxWith]

/-- Aborting a binding changes its own entries alone. -/
theorem State.abortBinding_only : (s.abortBinding b code origin sev data contrib ledger).ox = s.ox ∨
    ∃ x y n, (s.abortBinding b code origin sev data contrib ledger).ox = s.oxWith b x y n := by
  by_cases hlive : (s.bind b).st = .open ∨ (s.bind b).st = .running ∨ (s.bind b).st = .done
  · exact .inr ⟨_, _, _, abortBinding_live hlive⟩
  · unfold abortBinding
    dsimp only
    split
    next h => simp [h] at hlive
    next h => simp [h] at hlive
    next h => simp [h] at hlive
    · split
      · rw [raise_ox]
        right
        split <;> exact ⟨_, _, _, rfl⟩
      · exact .inl rfl
    · exact .inl rfl

theorem State.abortBinding_other {k : Nat} (hk : b ≠ k) :
    (s.abortBinding k code origin sev data contrib ledger).bind b = s.bind b ∧
      (s.abortBinding k code origin sev data contrib ledger).bindX b = s.bindX b := by
  rcases abortBinding_only with h | ⟨x, y, n, h⟩
  · exact ⟨bind_of_ox h b, bindX_of_ox h b⟩
  · exact ⟨(bind_oxWith h b).trans (if_neg hk), (bindX_oxWith h b).trans (if_neg hk)⟩

theorem State.abortBinding_settled (h : (s.bind b).st = .open ∨ (s.bind b).st = .running ∨ (s.bind b).st = .done) :
    (s.abortBinding b code origin sev data contrib ledger).Settled b := by
  intro e he hb
  rw [abortBinding_live h] at he
  have he : e ∈ Tab.set {} s.ox.binds b ((s.bind b).abortedBy code origin s.now) := he
  rcases tab_mem_set he with rfl | ⟨-, hne⟩
  · simp [Binding.abortedBy]
  · exact absurd hb hne

end

/-- A sweep that aborts other bindings leaves this one. -/
theorem State.sweep_settled {s : State} {b : Nat} (l : List (Nat × Binding))
    (h : ∀ e ∈ l, e.1 = b → e.2.st ≠ .open ∧ e.2.st ≠ .running) (p : Nat × Binding → Prop) [DecidablePred p] (code : Err) :
    let t := l.foldl (fun s e => if p e ∧ (e.2.st = .open ∨ e.2.st = .running) then s.abortBinding e.1 code s.node 3 else s) s
    t.bind b = s.bind b ∧ t.bindX b = s.bindX b := by
  refine List.foldlRecOn l _ (motive := fun t : State => t.bind b = s.bind b ∧ t.bindX b = s.bindX b) ⟨rfl, rfl⟩ ?_
  rintro t ⟨hbind, hbindX⟩ e he
  split
  next hlive =>
    obtain ⟨-, hst⟩ := hlive
    have hne : b ≠ e.1 := fun heq => by
      obtain ⟨hopen, hrun⟩ := h e he heq.symm
      exact hst.elim hopen hrun
    exact ⟨(abortBinding_other hne).1.trans hbind, (abortBinding_other hne).2.trans hbindX⟩
  · exact ⟨hbind, hbindX⟩

/-- The end of a period leaves a binding that neither opens nor runs (R364). -/
theorem State.endPeriod_settled {s : State} {b : Nat} (h : s.Settled b) (r : Nat) (code : Err) (die unit slot : Nat) (missed : Int)
    (node : Option Nat) (sev : Nat) : (s.endPeriod r code die unit slot missed node sev).bind b = s.bind b ∧
      (s.endPeriod r code die unit slot missed node sev).bindX b = s.bindX b := by
  unfold endPeriod
  dsimp only
  split
  · rw [bind_of_ox ((launchEnd_ox ..).trans ((setCtx_ox ..).trans (raise_ox ..))),
      bindX_of_ox ((launchEnd_ox ..).trans ((setCtx_ox ..).trans (raise_ox ..)))]
    simp only [← and_assoc]
    exact sweep_settled _ h _ _
  · split
    · exact ⟨bind_of_ox (raise_ox ..) b, bindX_of_ox (raise_ox ..) b⟩
    · exact ⟨rfl, rfl⟩

/-- A collective that aborts, in a scheduled launch or not (R304, R306). -/
theorem State.collAbortBy_live {s : State} {b : Nat} (h : (s.bind b).st = .open ∨ (s.bind b).st = .running ∨ (s.bind b).st = .done)
    (code : Err) (origin sev : Nat) (data : List Byte) (contrib : Option Nat) (ledger : Nat) :
    (s.collAbortBy b code origin sev data contrib ledger).bind b = (s.bind b).abortedBy code origin s.now ∧
      (s.collAbortBy b code origin sev data contrib ledger).bindX b = (s.bindX b).abortedBy sev := by
  have hlive := abortBinding_live (code := code) (origin := origin) (sev := sev) (data := data) (contrib := contrib) (ledger := ledger) h
  have hbind := (bind_oxWith hlive b).trans (if_pos rfl)
  have hbindX := (bindX_oxWith hlive b).trans (if_pos rfl)
  have hset := abortBinding_settled (code := code) (origin := origin) (sev := sev) (data := data) (contrib := contrib) (ledger := ledger) h
  unfold collAbortBy
  dsimp only
  split
  · split
    · obtain ⟨he, heX⟩ := endPeriod_settled hset _ code 16 0x04 0xFFFF 0 none 3
      exact ⟨he.trans hbind, heX.trans hbindX⟩
    · exact ⟨hbind, hbindX⟩
  · exact ⟨hbind, hbindX⟩

theorem State.collFirst_bind (s : State) (b : Nat) : (s.collFirst b).bind b = s.bind b ∨
    (s.collFirst b).bind b = { s.bind b with st := .running, tRun := s.now } := by
  unfold collFirst
  split
  · right
    rw [bind_modBind, if_pos rfl]
  · exact .inl rfl

theorem State.bindX_collFirst (s : State) (b k : Nat) : (s.collFirst b).bindX k = s.bindX k := by
  unfold collFirst
  split <;> rfl

/-- The end of a collective leaves the counts of its openings. -/
theorem State.matched_collProgress (s : State) (b : Nat) : ((s.collProgress b).bind b).matchedIn = (s.bind b).matchedIn ∧
    ((s.collProgress b).bind b).matchedOut = (s.bind b).matchedOut := by
  unfold collProgress
  dsimp only
  split
  · rw [bind_of_ox (ox_collEnd ..)]
    simp [collSlots, modBind, bind]
  · exact ⟨rfl, rfl⟩

section

variable {s : State} {b : Nat} {k : Packet} {owner : Bool}

/-- An OX_OPEN that reaches its binding and is in time (R301). -/
theorem State.exec_oxOpenReceive (hkind : k.hdr.kind = 0x44) (hlive : s.collLive k.hdr.collId = some b) (hpoison : k.poison = false)
    (hcrc : crc32 k.payload = k.crc) (hperiod : owner = true ∨ s.collPeriodErr b k = none) :
    exec (.oxOpenReceive k owner) s =
      let s := s.collFirst b
      let x := s.bind b
      let full := if owner then decide (x.opensOut ≤ x.matchedOut) else decide (x.opensIn ≤ x.matchedIn)
      if fld k.payload 16 8 ≠ x.dhash ∨ full = true then
        .next (s.collFail b .collMismatch (padTo 12 (k.payload.drop 16) ++ leBytes 4 x.collId))
      else
        .next ((s.modBind b fun v => if owner then { v with matchedOut := v.matchedOut + 1 }
          else { v with matchedIn := v.matchedIn + 1 }).collProgress b) := by
  have hlate : (if owner = true then none else s.collPeriodErr b k) = none := by
    rcases hperiod with h | h <;> simp [h]
  change execOxOpenReceive k owner s = _
  unfold execOxOpenReceive
  rw [if_neg (by simp [hkind, hpoison]), hlive]
  dsimp only
  rw [if_neg (by simp [hcrc]), hlate]

/-- The facts a matched OX_OPEN is judged by do not change with the binding's start. -/
theorem State.collFirst_counts (s : State) (b : Nat) : ((s.collFirst b).bind b).dhash = (s.bind b).dhash ∧
    ((s.collFirst b).bind b).matchedIn = (s.bind b).matchedIn ∧ ((s.collFirst b).bind b).opensIn = (s.bind b).opensIn ∧
    ((s.collFirst b).bind b).matchedOut = (s.bind b).matchedOut ∧ ((s.collFirst b).bind b).opensOut = (s.bind b).opensOut := by
  rcases s.collFirst_bind b with h | h <;> rw [h] <;> exact ⟨rfl, rfl, rfl, rfl, rfl⟩

theorem State.runs_oxOpenReceive_in (hkind : k.hdr.kind = 0x44) (hlive : s.collLive k.hdr.collId = some b) (hpoison : k.poison = false)
    (hcrc : crc32 k.payload = k.crc) (hhash : fld k.payload 16 8 = (s.bind b).dhash) (hperiod : s.collPeriodErr b k = none)
    (hroom : (s.bind b).matchedIn < (s.bind b).opensIn) : Runs (.oxOpenReceive k false) s fun t =>
      (t.bind b).matchedIn = (s.bind b).matchedIn + 1 ∧ (t.bind b).matchedOut = (s.bind b).matchedOut ∧
      (t.bindX b).run = (s.bindX b).run := by
  obtain ⟨hd, hmi, hoi, hmo, -⟩ := s.collFirst_counts b
  have hx := exec_oxOpenReceive (owner := false) hkind hlive hpoison hcrc (.inr hperiod)
  dsimp only at hx
  rw [if_neg (by simp [hd, hhash, hmi, hoi, hroom])] at hx
  refine runs_of_exec hx ⟨?_, ?_, ?_⟩
  · rw [(matched_collProgress _ _).1]
    simp [hmi]
  · rw [(matched_collProgress _ _).2]
    simp [hmo]
  · rw [bindX_collProgress, bindX_modBind, bindX_collFirst]

theorem State.runs_oxOpenReceive_out (hkind : k.hdr.kind = 0x44) (hlive : s.collLive k.hdr.collId = some b) (hpoison : k.poison = false)
    (hcrc : crc32 k.payload = k.crc) (hhash : fld k.payload 16 8 = (s.bind b).dhash)
    (hroom : (s.bind b).matchedOut < (s.bind b).opensOut) : Runs (.oxOpenReceive k true) s fun t =>
      (t.bind b).matchedOut = (s.bind b).matchedOut + 1 ∧ (t.bind b).matchedIn = (s.bind b).matchedIn := by
  obtain ⟨hd, hmi, -, hmo, hoo⟩ := s.collFirst_counts b
  have hx := exec_oxOpenReceive (owner := true) hkind hlive hpoison hcrc (.inl rfl)
  dsimp only at hx
  rw [if_neg (by simp [hd, hhash, hmo, hoo, hroom])] at hx
  refine runs_of_exec hx ⟨?_, ?_⟩
  · rw [(matched_collProgress _ _).2]
    simp [hmo]
  · rw [(matched_collProgress _ _).1]
    simp [hmi]

theorem State.runs_oxOpenReceive_mismatch (hkind : k.hdr.kind = 0x44) (hlive : s.collLive k.hdr.collId = some b)
    (hpoison : k.poison = false) (hcrc : crc32 k.payload = k.crc) (hst : (s.bind b).st = .open ∨ (s.bind b).st = .running)
    (hhash : fld k.payload 16 8 ≠ (s.bind b).dhash) : Runs (.oxOpenReceive k true) s fun t =>
      (t.bind b).st = .aborted ∧ (t.bind b).code = .collMismatch ∧ (t.bindX b).abortDue = true := by
  obtain ⟨hd, -⟩ := s.collFirst_counts b
  have hx := exec_oxOpenReceive (owner := true) hkind hlive hpoison hcrc (.inl rfl)
  dsimp only at hx
  rw [if_pos (.inl (by rw [hd]; exact hhash))] at hx
  have hst' : ((s.collFirst b).bind b).st = .open ∨ ((s.collFirst b).bind b).st = .running ∨ ((s.collFirst b).bind b).st = .done := by
    rcases s.collFirst_bind b with h | h <;> rw [h]
    · exact hst.imp_right .inl
    · exact .inr (.inl rfl)
  obtain ⟨hbind, hbindX⟩ := collAbortBy_live hst' .collMismatch (s.collFirst b).node 3 _ none 0
  refine runs_of_exec hx ?_
  rw [collFail, hbind, hbindX]
  exact ⟨rfl, rfl, rfl⟩

theorem State.runs_oxAbortReceive (hkind : k.hdr.kind = 0x45) (hheld : s.collHeld k.hdr.collId = some b) (hpoison : k.poison = false)
    (hcrc : crc32 k.payload = k.crc) (hst : (s.bind b).st = .open ∨ (s.bind b).st = .running ∨ (s.bind b).st = .done) :
    Runs (.oxAbortReceive k) s fun t => (t.bind b).st = .aborted ∧ (t.bind b).code = Err.ofCode (fld k.payload 28 2) ∧
      (t.bind b).origin = fld k.payload 24 4 ∧ (t.bindX b).abortDue = true := by
  have hx : exec (.oxAbortReceive k) s = execOxAbortReceive k s := rfl
  unfold execOxAbortReceive at hx
  rw [if_neg (by simp [hkind, hpoison]), hheld] at hx
  dsimp only at hx
  rw [if_neg (by rcases hst with h | h | h <;> simp [h]), if_neg (by simp [hcrc])] at hx
  obtain ⟨hbind, hbindX⟩ := collAbortBy_live hst (Err.ofCode (fld k.payload 28 2)) (fld k.payload 24 4) 2 [] none 0
  refine runs_of_exec hx ?_
  rw [hbind, hbindX]
  exact ⟨rfl, rfl, rfl, rfl⟩

end

/-- An abort is sent once (R304). -/
theorem State.exec_oxAbortSend {s : State} {b : Fin 1024} (hdue : (s.bindX b).abortDue = true) : exec (.oxAbortSend b) s =
    .next ((s.modBindX b fun v => { v with abortDue := false }).enterHub 53
      (s.packet (s.collHdr b 5 (2 ^ 96 - 1) (collL (s.bindX b).local_).abortGroup 0x45)
        (oxPrefix (s.bind b).myIndex 0 0 0 0 1 ++ leBytes 8 (s.bind b).dhash ++ leBytes 4 (s.bind b).origin ++
          leBytes 2 (s.bind b).code.code ++ leBytes 2 0)) 0) := by
  change execOxAbortSend b s = _
  unfold execOxAbortSend
  rw [if_neg (by simp [hdue])]
  dsimp only
  unfold collHdr
  rw [bindX_modBindX, if_pos rfl]
  rfl

/-- A running collective beyond its time (R305). -/
theorem State.runs_collTimeout {s : State} {b : Fin 1024} (hst : (s.bind b).st = .running)
    (hlate : (s.bind b).tRun + (s.bind b).timeoutUs * 1000 ≤ s.now) : Runs (.collTimeout b) s fun t =>
      (t.bind b).st = .aborted ∧ (t.bind b).code = .collTimeout ∧ (t.bind b).origin = s.node ∧ (t.bind b).tEnd = s.now := by
  have hx : exec (.collTimeout b) s = execCollTimeout b s := rfl
  unfold execCollTimeout at hx
  dsimp only at hx
  rw [if_pos ⟨hst, hlate⟩] at hx
  obtain ⟨hbind, -⟩ := collAbortBy_live (.inr (.inl hst)) .collTimeout s.node 3 [] none 0
  refine runs_of_exec hx ?_
  rw [collFail, hbind]
  exact ⟨rfl, rfl, rfl, rfl⟩

/-- Settles O32: opens and aborts by the binding's live state, and what an end of a period leaves of it. -/
theorem collectivesOpenAbortAndEnd : Obligations.CollectivesOpenAbortAndEnd := by
  unfold Obligations.CollectivesOpenAbortAndEnd
  intro s b x
  refine ⟨fun k hkind hlive hpoison hcrc hst => ⟨State.runs_oxOpenReceive_in hkind hlive hpoison hcrc,
      State.runs_oxOpenReceive_out hkind hlive hpoison hcrc, State.runs_oxOpenReceive_mismatch hkind hlive hpoison hcrc hst⟩,
    fun k hkind hheld hpoison hcrc hst => State.runs_oxAbortReceive hkind hheld hpoison hcrc hst, ?_, ?_, ?_⟩
  · rintro n rfl hdue
    exact State.exec_oxAbortSend hdue
  · rintro n rfl hst hlate
    exact State.runs_collTimeout hst hlate
  · rintro n rfl hst hcool hend
    change execCollCoolExpiry n s = _
    rw [execCollCoolExpiry, if_pos ⟨hst, hcool, hend⟩]

end Sys2Proof.Machine

namespace Sys2Proof.Machine

/-! The local fetch of a collective and the write of its results (R296 to R298). -/

/-- A translation changes the translation unit of its die alone (R209). -/
theorem State.translate_only (s : State) (d slot va access : Nat) (remote : Bool) :
    (s.translate d slot va access remote).1 = { s with cds := (s.translate d slot va access remote).1.cds } := by
  unfold translate
  dsimp only
  split
  · rfl
  · split
    · rfl
    · split
      · rfl
      · split <;> rfl

theorem State.copyTarget_only (s : State) (d slot va access : Nat) :
    (s.copyTarget d slot va access).1 = { s with cds := (s.copyTarget d slot va access).1.cds } := by
  have ht := s.translate_only d slot va access false
  unfold copyTarget
  generalize s.translate d slot va access false = r at ht ⊢
  split
  · exact ht
  · exact ht
  · split <;> exact ht

/-- What translations and unspecified bytes leave alone, a read through a slot leaves alone (R297). -/
theorem State.vaRead_keeps {β : Type} (v : State → β) (hcds : ∀ s cds, v { s with cds := cds } = v s) (hdrew : ∀ s, v (State.drew s) = v s)
    (s : State) (d slot va n : Nat) : v (s.vaRead d slot va n).1 = v s := by
  unfold vaRead
  refine List.foldlRecOn _ _ (motive := fun r : State × HenEnd × List Byte => v r.1 = v s) rfl ?_
  rintro ⟨u, e, bs⟩ hu p -
  dsimp only at hu ⊢
  have hc : v (u.copyTarget d slot (va + p.1) 0).1 = v s := by
    rw [copyTarget_only, hcds]
    exact hu
  split
  · exact hu
  · generalize u.copyTarget d slot (va + p.1) 0 = c at hc ⊢
    split
    · exact hc
    · exact hc
    · exact hc
    · exact hc
    · exact (hdrew _).trans hc
    · split <;> exact hc

/-- What translations, writes to memory and requests to peers leave alone, a write through a slot leaves alone (R297). -/
theorem State.vaWrite_keeps {β : Type} (v : State → β) (hcds : ∀ s cds, v { s with cds := cds } = v s)
    (hmem : ∀ s hbm poison, v { s with hbm := hbm, poison := poison } = v s) (hout : ∀ s out, v { s with out := out } = v s)
    (s : State) (d slot x va : Nat) (bs : List Byte) : v (s.vaWrite d slot x va bs).1 = v s := by
  unfold vaWrite
  refine List.foldlRecOn _ _ (motive := fun r : State × HenEnd => v r.1 = v s) rfl ?_
  rintro ⟨u, e⟩ hu p -
  dsimp only at hu ⊢
  have hc : v (u.copyTarget d slot (va + p.1) 1).1 = v s := by
    rw [copyTarget_only, hcds]
    exact hu
  split
  · exact hu
  · generalize u.copyTarget d slot (va + p.1) 1 = c at hc ⊢
    split
    · exact hc
    · exact hc
    · exact hc
    · exact hc
    · unfold peerSend
      split
      · exact hc
      · exact (hout _ _).trans hc
    · split
      · exact hc
      next t ht =>
        unfold devWrite at ht
        split at ht
        · cases ht
        · split at ht
          · cases ht
          · cases ht
            exact (hmem _ _ _).trans hc

section

variable {s : State} {b : Fin 1024}

/-- The fetch sends its OX_OPEN first (R298). -/
theorem State.runs_collFetchPacket_open (hactive : (s.bindX b).fetch.active = true) (hst : (s.bind b).st = .open ∨ (s.bind b).st = .running)
    (hfirst : (s.bindX b).fetch.openSent = false) : Runs (.collFetchPacket b false) s fun t =>
      t.out = .send (collL (s.bindX b).local_).owner (s.packet (s.collHdr b (collL (s.bindX b).local_).inNetcls
          (collL (s.bindX b).local_).inRoute (collL (s.bindX b).local_).inGroup 0x44)
        (oxPrefix (collL (s.bindX b).local_).me (collL (s.bindX b).local_).inStream 0 0 0 1 ++ leBytes 8 (s.bind b).dhash ++
          leBytes 4 s.node ++ leBytes 4 0)) :: s.out ∧
      (t.bindX b).fetch = { (s.bindX b).fetch with openSent := true } ∧ t = { s with out := t.out, ox := t.ox } := by
  have hx : exec (.collFetchPacket b false) s = execCollFetchPacket b false s := rfl
  unfold execCollFetchPacket at hx
  dsimp only at hx
  rw [if_neg (by rcases hst with h | h <;> simp [h, hactive]), if_pos (by simp [hfirst])] at hx
  refine runs_of_exec hx ⟨rfl, ?_, rfl⟩
  rw [bindX_modBindX, if_pos rfl]
  rfl

/-- Then its units, as many to a packet as fit (R296). -/
theorem State.runs_collFetchPacket_units (hactive : (s.bindX b).fetch.active = true) (hst : (s.bind b).st = .open ∨ (s.bind b).st = .running)
    (hopen : (s.bindX b).fetch.openSent = true) (htype : (collG (s.bindX b).global).type ≤ 1)
    (hfmt : (collG (s.bindX b).global).fmt % 16 < 2) {t0 : State} {bs : List Byte} {n : Nat}
    (hn : n = min 1008 ((collL (s.bindX b).local_).srcUnits - (s.bindX b).fetch.pos))
    (hread : s.vaRead (collL (s.bindX b).local_).owner (s.collSlot (collL (s.bindX b).local_).owner (s.bind b).ctx)
      ((collL (s.bindX b).local_).srcVa + (s.bindX b).fetch.pos * 4) (n * 4) = (t0, .more, bs)) :
    Runs (.collFetchPacket b false) s fun t =>
      Sent s t (.send (collL (s.bindX b).local_).owner (t0.packet (t0.collHdr b (collL (s.bindX b).local_).inNetcls
          (collL (s.bindX b).local_).inRoute (collL (s.bindX b).local_).inGroup 0x40)
        (oxPrefix (collL (s.bindX b).local_).me (collL (s.bindX b).local_).inStream
          (b2n (decide ((collL (s.bindX b).local_).srcUnits ≤ (s.bindX b).fetch.pos + n)))
          ((collL (s.bindX b).local_).srcOff + (s.bindX b).fetch.pos) n 1 ++ bs))) ∧
      (t.bindX b).fetch.pos = (s.bindX b).fetch.pos + n ∧
      (t.bindX b).fetch.done = decide ((collL (s.bindX b).local_).srcUnits ≤ (s.bindX b).fetch.pos + n) := by
  have hsize : oxSize ((collG (s.bindX b).global).fmt % 16) = 4 := by
    generalize (collG (s.bindX b).global).fmt % 16 = m at hfmt
    interval_cases m <;> rfl
  have hox : t0.ox = s.ox := by
    have := vaRead_keeps State.ox (fun _ _ => rfl) (fun _ => rfl) s (collL (s.bindX b).local_).owner
      (s.collSlot (collL (s.bindX b).local_).owner (s.bind b).ctx) ((collL (s.bindX b).local_).srcVa + (s.bindX b).fetch.pos * 4) (n * 4)
    rwa [hread] at this
  have hout : t0.out = s.out := by
    have := vaRead_keeps State.out (fun _ _ => rfl) (fun _ => rfl) s (collL (s.bindX b).local_).owner
      (s.collSlot (collL (s.bindX b).local_).owner (s.bind b).ctx) ((collL (s.bindX b).local_).srcVa + (s.bindX b).fetch.pos * 4) (n * 4)
    rwa [hread] at this
  have hx : exec (.collFetchPacket b false) s = execCollFetchPacket b false s := rfl
  unfold execCollFetchPacket at hx
  dsimp only at hx
  rw [if_neg (by rcases hst with h | h <;> simp [h, hactive]), if_neg (by simp [hopen]), if_neg Bool.false_ne_true,
    decide_eq_true htype] at hx
  simp only [if_true, hsize, ← hn, hread, HenEnd.collErr, fetchSend, bindX_of_ox hox] at hx
  refine runs_of_exec hx ⟨?_, ?_, ?_⟩
  · refine Sent.of_suffix (u := t0) (by rw [hout]) ?_
    refine List.IsSuffix.trans ?_ (out_collProgress _ _)
    exact List.suffix_refl _
  · rw [bindX_collProgress, bindX_modBindX, if_pos rfl]
  · rw [bindX_collProgress, bindX_modBindX, if_pos rfl]

end

theorem State.written_collProgress (s : State) (b : Nat) : ((s.collProgress b).bind b).written = (s.bind b).written := by
  unfold collProgress
  dsimp only
  split
  · rw [bind_of_ox (ox_collEnd ..)]
    simp [collSlots, modBind, bind]
  · rfl

/-- The end of a collective leaves the memory. -/
theorem State.mem_collProgress (s : State) (b : Nat) : (s.collProgress b).hbm = s.hbm ∧ (s.collProgress b).poison = s.poison := by
  unfold collProgress collEnd
  dsimp only
  split
  · split
    · exact ⟨notice_hbm .., notice_poison ..⟩
    · exact ⟨rfl, rfl⟩
  · exact ⟨rfl, rfl⟩

/-- A packet of results is written at its address in the destination and counted (R297). -/
theorem State.runs_collResultWrite {s : State} {b : Nat} {d : CdId} {k : Packet} {sz va : Nat} (hkind : k.hdr.kind ≠ 0x44)
    (hlive : s.collLive k.hdr.collId = some b) (hst : (s.bind b).st = .running) (howner : (s.bind b).owner = d.val)
    (hpoison : k.poison = false) (hcrc : crc32 k.payload = k.crc)
    (hdest : collDest (collG (s.bindX b).global) (collL (s.bindX b).local_) k.hdr.kind k.payload = some (sz, va))
    (hroom : (s.bind b).written + fld k.payload 8 2 ≤ (s.bind b).recvUnits) {t0 : State}
    (hwrite : s.vaWrite d (s.collSlot d (s.bind b).ctx) (s.bind b).ctx va (k.payload.drop 16) = (t0, .more)) :
    Runs (.collResultWrite d k) s fun t =>
      (t.bind b).written = (s.bind b).written + fld k.payload 8 2 ∧ t.hbm = t0.hbm ∧ t.poison = t0.poison := by
  have hox : t0.ox = s.ox := by
    have := vaWrite_keeps State.ox (fun _ _ => rfl) (fun _ _ _ => rfl) (fun _ _ => rfl) s d (s.collSlot d (s.bind b).ctx) (s.bind b).ctx va
      (k.payload.drop 16)
    rwa [hwrite] at this
  have hx : exec (.collResultWrite d k) s = execCollResultWrite d k s := rfl
  unfold execCollResultWrite at hx
  rw [if_neg (by simp [hpoison]), if_neg hkind, hlive] at hx
  dsimp only at hx
  rw [if_neg (not_not.mpr howner), if_neg (not_not.mpr hcrc), collFirst_running hst, hdest] at hx
  dsimp only at hx
  rw [if_neg (by omega), hwrite] at hx
  refine runs_of_exec hx ⟨?_, ?_, ?_⟩
  · rw [written_collProgress, bind_modBind, if_pos rfl, bind_of_ox hox]
  · rw [(mem_collProgress ..).1]
    rfl
  · rw [(mem_collProgress ..).2]
    rfl

/-- Settles O33: the fetch's opening, its units and the write of results. -/
theorem collectivesFetchAndDeliver : Obligations.CollectivesFetchAndDeliver := by
  unfold Obligations.CollectivesFetchAndDeliver
  intro s b x g y f
  refine ⟨State.runs_collFetchPacket_open, fun hactive hst hopen htype hfmt => ?_, fun d k sz va => ?_⟩
  · intro t0 bs n hread
    exact State.runs_collFetchPacket_units hactive hst hopen htype hfmt rfl hread
  · intro hkind hlive hst howner hpoison hcrc hdest hroom t0 hwrite
    exact State.runs_collResultWrite hkind hlive hst howner hpoison hcrc hdest hroom hwrite

end Sys2Proof.Machine

namespace Sys2Proof.Machine

/-! What the units of compute dies, the Ox and the launches never change: links, time, service, configuration, security and power. -/

/-- The health state but for the counts that log entries feed and the hard errors found (R203, R436, R444, R450). -/
def Health.core (h : Health) : Health := { h with days := [], hist := [], uncorrHour := [], hard := false, hardUe := 0 }

/-- The parts of the state that no fault of a Mule or of a gather thread reaches. -/
def State.outer (s : State) :=
  (s.links, s.linkx, s.ft, s.aonNs, s.svc, s.dies, s.cfg, s.boot, s.sec, s.pwr, s.pins, s.hubm, s.health.core)

section

variable {s t : State} (h : t.outer = s.outer)
include h

theorem State.links_of_outer : t.links = s.links := congrArg (·.1) h

theorem State.linkx_of_outer : t.linkx = s.linkx := congrArg (·.2.1) h

theorem State.ft_of_outer : t.ft = s.ft := congrArg (·.2.2.1) h

theorem State.aonNs_of_outer : t.aonNs = s.aonNs := congrArg (·.2.2.2.1) h

theorem State.svc_of_outer : t.svc = s.svc := congrArg (·.2.2.2.2.1) h

theorem State.core_of_outer : t.health.core = s.health.core := congrArg (·.2.2.2.2.2.2.2.2.2.2.2.2) h

theorem State.link_of_outer (l : Nat) : t.link l = s.link l := by rw [link, links_of_outer h, link]

theorem State.lx_of_outer (l : Nat) : t.lx l = s.lx l := by rw [lx, linkx_of_outer h, lx]

theorem State.now_of_outer : t.now = s.now := by rw [now, ft_of_outer h, now]

end

theorem State.core_counted (s : State) (e : Event) : (s.counted e).health.core = s.health.core := by
  unfold counted
  split
  · rfl
  · dsimp only
    split <;> split <;> rfl

theorem State.core_toLedger (s : State) (e : Event) : (s.toLedger e).health.core = s.health.core := by
  unfold toLedger
  dsimp only
  split
  · rfl
  · split
    · split <;> rfl
    · rfl

@[simp] theorem State.core_raise (s : State) (die unit sev : Nat) (code : Err) (data : List Byte) (x : Nat) (contrib : Option Nat) (l : Nat) :
    (s.raise die unit sev code data x contrib l).health.core = s.health.core := by
  unfold raise logEv
  dsimp only
  split
  · split <;> rfl
  · split
    · exact (core_toLedger ..).trans (core_counted ..)
    · rfl

theorem State.outer_raise (s : State) (die unit sev : Nat) (code : Err) (data : List Byte) (x : Nat) (contrib : Option Nat) (l : Nat) :
    (s.raise die unit sev code data x contrib l).outer = s.outer := by simp [outer]

theorem State.outer_notice (s : State) (c code : Nat) (payload : List Byte) : (s.notice c code payload).outer = s.outer := by simp [outer]

theorem State.outer_setCtx (s : State) (x : Nat) (st : CtxSt) (code : Err) (die ltile : Nat) :
    (s.setCtx x st code die ltile).outer = s.outer := by simp [outer]

theorem State.outer_reply (s : State) (src : Src) (cmd : Nat) (e : Err) (payload : List Byte) :
    (s.reply src cmd e payload).outer = s.outer := by simp [outer]

theorem State.outer_settle (s : State) : s.settle.outer = s.outer := by
  rw [settle_only]
  rfl

theorem State.outer_launchEnd (s : State) (x : Nat) : (s.launchEnd x).outer = s.outer := by
  rw [launchEnd_only]
  rfl

theorem State.outer_releaseOx (s : State) (d : Nat) : (s.releaseOx d).outer = s.outer := by
  rw [releaseOx_only]
  rfl

theorem State.outer_copyLeaves (s : State) (q : Nat) : (s.copyLeaves q).outer = s.outer := by
  rw [copyLeaves_only]
  rfl

theorem State.outer_collEnd (s : State) (b : Nat) : (s.collEnd b).outer = s.outer := by
  unfold collEnd
  split
  · exact outer_notice ..
  · rfl

theorem State.outer_abortBinding (s : State) (b : Nat) (code : Err) (origin sev : Nat) (data : List Byte) (contrib : Option Nat)
    (ledger : Nat) : (s.abortBinding b code origin sev data contrib ledger).outer = s.outer := by
  have hfold : (List.foldl (fun s d => s.releaseOx d) s (s.bindX b).run.descs).outer = s.outer :=
    foldl_keeps State.outer (fun t d => outer_releaseOx t d) _ s
  unfold abortBinding
  dsimp only
  generalize List.foldl (fun s d => s.releaseOx d) s (s.bindX b).run.descs = u at hfold ⊢
  split
  · rw [outer_collEnd, outer_raise]; exact hfold
  · rw [outer_collEnd, outer_raise]; exact hfold
  · rw [outer_collEnd, outer_raise]; exact hfold
  · split
    · rw [outer_raise]
      split <;> rfl
    · rfl
  · rfl

theorem State.outer_haltLaunch (s : State) (x : Nat) (code : Err) : (s.haltLaunch x code).outer = s.outer := rfl

theorem State.outer_endPeriod (s : State) (r : Nat) (code : Err) (die unit slot : Nat) (missed : Int) (node : Option Nat) (sev : Nat) :
    (s.endPeriod r code die unit slot missed node sev).outer = s.outer := by
  unfold endPeriod
  dsimp only
  split
  · rw [outer_launchEnd, outer_setCtx, outer_raise]
    refine foldl_keeps State.outer (fun t e => ?_) _ _
    split
    · exact outer_abortBinding ..
    · rfl
  · split
    · exact outer_raise ..
    · rfl

theorem State.outer_collAbortBy (s : State) (b : Nat) (code : Err) (origin sev : Nat) (data : List Byte) (contrib : Option Nat)
    (ledger : Nat) : (s.collAbortBy b code origin sev data contrib ledger).outer = s.outer := by
  unfold collAbortBy
  dsimp only
  split
  · split
    · rw [outer_endPeriod, outer_abortBinding]
    · exact outer_abortBinding ..
  · exact outer_abortBinding ..

theorem State.outer_muleFault (s : State) (d p : Nat) (code : Err) (source unit tag lrc : Nat) :
    (s.muleFault d p code source unit tag lrc).outer = s.outer := by
  unfold muleFault
  dsimp only
  split
  · split
    · rfl
    · split
      · exact outer_endPeriod ..
      · split
        · rw [outer_launchEnd, outer_setCtx]
          rfl
        · rfl
  · rfl

theorem State.outer_unitFault (s : State) (d i : Nat) (code : Err) (unit tag lrc : Nat) :
    (s.unitFault d i code unit tag lrc).outer = s.outer := by
  rw [unitFault, outer_settle, outer_muleFault]

theorem State.outer_hard (s : State) (n : Nat) : ({ s with health := { s.health with hard := true, hardUe := n } } : State).outer = s.outer := rfl

theorem State.outer_hbmUe (s : State) (a : Nat) : (s.hbmUe a).outer = s.outer := by
  unfold hbmUe
  dsimp only
  split
  · rfl
  · split
    · rw [outer_raise]
      exact (outer_hard ..).trans (outer_raise ..)
    · exact outer_raise ..

theorem State.outer_of_devWrite {s t : State} {a : Nat} {bs : List Byte} (h : s.devWrite a bs = .ok t) : t.outer = s.outer := by
  unfold devWrite at h
  split at h
  · cases h
  · split at h
    · cases h
    · cases h
      rfl

theorem State.outer_of_devAtomic {s t : State} {ieee : Bool} {a op operand old fl : Nat} (h : s.devAtomic ieee a op operand = .ok (t, old, fl)) :
    t.outer = s.outer := by
  unfold devAtomic at h
  dsimp only at h
  split at h
  · cases h
  · split at h
    · cases h
    next hw =>
      cases h
      exact outer_of_devWrite hw

theorem State.outer_devWriteN (s : State) (a : Nat) (bs : List Byte) : (s.devWriteN a bs).1.outer = s.outer := by
  unfold devWriteN
  refine foldl_keeps (fun r : State × Err => r.1.outer) (fun r p => ?_) _ (s, Err.ok)
  split
  · rfl
  · split
    · rfl
    next hw => exact outer_of_devWrite hw

theorem State.outer_vaRead (s : State) (d slot va n : Nat) : (s.vaRead d slot va n).1.outer = s.outer :=
  vaRead_keeps State.outer (fun _ _ => rfl) (fun _ => rfl) ..

theorem State.outer_vaWrite (s : State) (d slot x va : Nat) (bs : List Byte) : (s.vaWrite d slot x va bs).1.outer = s.outer :=
  vaWrite_keeps State.outer (fun _ _ => rfl) (fun _ _ _ => rfl) (fun _ _ => rfl) ..

theorem State.outer_peerSend (s : State) (d m p kind : Nat) (sched : Bool) (x tag len aop : Nat) (data : List Byte) :
    (s.peerSend d m p kind sched x tag len aop data).outer = s.outer := by
  unfold peerSend
  split <;> rfl

theorem State.outer_modCd (s : State) (d : Nat) (f : ComputeDie → ComputeDie) : (s.modCd d f).outer = s.outer := rfl

theorem State.outer_modJob (s : State) (d j : Nat) (f : HenJob → HenJob) : (s.modJob d j f).outer = s.outer := rfl

theorem State.outer_modThr (s : State) (d t : Nat) (f : HenThread → HenThread) : (s.modThr d t f).outer = s.outer := rfl

theorem State.outer_orFlags (s : State) (d i fl flush : Nat) : (s.orFlags d i fl flush).outer = s.outer := rfl

theorem State.outer_henFail (s : State) (d j item : Nat) (code : Err) : (s.henFail d j item code).outer = s.outer := by
  unfold henFail
  dsimp only
  split
  · split
    · exact outer_modJob ..
    · rfl
  · split
    · rw [outer_unitFault, outer_orFlags, outer_modCd, outer_modJob]
    · rfl

theorem State.outer_queueFault (s : State) (d : Nat) (f : FaultRec) : (s.queueFault d f).outer = s.outer := by
  unfold queueFault
  dsimp only
  split
  · exact outer_notice ..
  · exact outer_modCd ..

theorem State.outer_parkFault (s : State) (d slot x : Nat) (who : Requester) (access level : Nat) (stream : Bool) (va : Nat) :
    (s.parkFault d slot x who access level stream va).outer = s.outer := by
  unfold parkFault
  dsimp only
  split
  · exact outer_modCd ..
  · exact outer_queueFault ..

theorem State.outer_henFault (s : State) (d t slot level va access : Nat) (stream : Bool) :
    (s.henFault d t slot level va access stream).outer = s.outer := by
  unfold henFault
  dsimp only
  split
  · exact outer_henFail ..
  · exact outer_parkFault ..

theorem State.outer_henFound (s : State) (d slot x : Nat) (hash : List Byte) (i : Nat) (found : Bool) :
    (s.henFound d slot x hash i found).1.outer = s.outer := by
  unfold henFound
  dsimp only
  split
  · rfl
  · split
    · exact outer_vaRead ..
    · exact (outer_vaWrite ..).trans (outer_vaRead ..)

theorem State.outer_henData (s : State) (d : Nat) (q : HenJob) (off : Nat) (bs : List Byte) :
    (s.henData d q off bs).1.outer = s.outer := by
  unfold henData
  dsimp only
  split
  · rfl
  · exact outer_vaWrite ..

theorem State.outer_henItemDone (s : State) (d t : Nat) (found : Bool) : (s.henItemDone d t found).outer = s.outer := rfl

theorem State.outer_henCommit (s : State) (d : Nat) (q : HenJob) (h : HenThread) (r : HenReq) : (s.henCommit d q h r).1.outer = s.outer := by
  unfold henCommit
  dsimp only
  split
  · split
    · rfl
    · exact outer_henData ..
  · generalize hsrc : (if (henD q.desc).dataOs = true then _ else _ : State × HenEnd × List Byte) = src
    have ho : src.1.outer = s.outer := by
      rw [← hsrc]
      split
      · rfl
      · exact outer_vaRead ..
    split
    · exact ho
    · split
      · split
        · exact ho
        next hw => exact (outer_of_devWrite hw).trans ho
      · exact ho
  · split
    · rfl
    next t old fl hdone =>
      have ho : t.outer = s.outer := by
        split at hdone
        · exact outer_of_devAtomic hdone
        · cases hdone
          rfl
      split
      · exact (outer_henData ..).trans ho
      · exact ho
  · split
    · rfl
    · split
      · split
        · rfl
        · split
          · exact (outer_henData ..).trans (outer_henData ..)
          · exact outer_henData ..
      · exact outer_henData ..
  · split
    · rfl
    · split
      · generalize (if leNat _ = s.henIdx d q r.item then _ else _ : List Byte) = data
        split
        · exact outer_henData ..
        · exact (outer_henFound ..).trans (outer_henData ..)
      · rfl
  · split
    · rfl
    · split
      · rfl
      · split
        · split
          · exact outer_vaRead ..
          · split
            · rw [outer_modJob, outer_peerSend, outer_vaRead]
            · split
              · exact (outer_devWriteN ..).trans (outer_vaRead ..)
              · exact (outer_devWriteN ..).trans (outer_vaRead ..)
        · split <;> rfl

theorem State.outer_henRun (s : State) (d t e : Nat) : (s.henRun d t e).outer = s.outer := by
  unfold henRun
  dsimp only
  split
  · rw [outer_henFail]
    split
    · exact outer_hbmUe ..
    · rfl
  · have hc := s.outer_henCommit d (s.job d (s.thr d t).slot) (s.thr d t) (Tab.get {} (s.thr d t).reqs e)
    generalize s.henCommit d _ _ _ = c at hc ⊢
    split
    · rw [outer_henFail, outer_modThr, outer_modJob, hc]
    · split
      · rw [outer_modThr, outer_modJob, hc]
      · rw [outer_henFault, outer_modThr, outer_modJob, hc]
    · rw [outer_modJob, outer_modThr, outer_modJob, hc]
    · rw [outer_henItemDone, outer_modThr, outer_modJob, hc]
    · split
      · rw [outer_henItemDone, outer_modThr, outer_modJob, hc]
      · rw [outer_modThr, outer_modJob, hc]

theorem State.outer_henDrain (s : State) (d j n : Nat) : (s.henDrain d j n).outer = s.outer := by
  induction n generalizing s with
  | zero => rfl
  | succ n ih =>
    unfold henDrain
    split
    · rfl
    · split
      · rfl
      · rw [ih, outer_henRun]

theorem State.outer_henReply (s : State) (d t e : Nat) (status : Err) (data : List Byte) :
    (s.henReply d t e status data).outer = s.outer := by
  unfold henReply
  dsimp only
  split
  · rfl
  · split
    · rw [outer_settle]
      split
      · exact outer_modThr ..
      · rw [outer_henFail, outer_modThr]
    · split
      · rfl
      · split
        · rw [outer_henRun, outer_modThr]
        · rw [henGo, outer_henDrain, outer_modThr]

end Sys2Proof.Machine

namespace Sys2Proof.Machine

/-! Commands and their replies (R405), and the collectives group (R288, R293 to R295, R301 to R303, R308, R310). -/

theorem State.out_reply_answer (s : State) (src : Src) (cmd : Nat) (e : Err) (payload : List Byte) :
    (s.reply src cmd e payload).out = Machine.answer s src cmd e (if e = .ok then payload else []) :: s.out := out_reply ..

theorem State.out_reply_ok (s : State) (src : Src) (cmd : Nat) (payload : List Byte) :
    (s.reply src cmd .ok payload).out = Machine.answer s src cmd .ok payload :: s.out := out_reply ..

theorem State.out_reply_error (s : State) (src : Src) (cmd : Nat) (e : Err) :
    (s.reply src cmd e []).out = Machine.answer s src cmd e [] :: s.out := by
  rw [out_reply_answer, ite_self]

theorem answer_of_now {s t : State} (h : t.now = s.now) (src : Src) (cmd : Nat) (e : Err) (payload : List Byte) :
    answer t src cmd e payload = answer s src cmd e payload := by rw [answer, h, answer]

theorem RepliedLast.of_reply {s u : State} (h : u.now = s.now) (src : Src) (cmd : Nat) (payload : List Byte) :
    RepliedLast s (u.reply src cmd .ok payload) src cmd payload := by
  rw [RepliedLast, State.out_reply_ok, answer_of_now h, List.head?_cons]

theorem Replied.of_reply {s u : State} (h : u.now = s.now) (hout : u.out = s.out) (src : Src) (cmd : Nat) (payload : List Byte) :
    Replied s (u.reply src cmd .ok payload) src cmd payload := by
  rw [Replied, State.out_reply_ok, answer_of_now h, hout]

theorem OnlyReply.of_reply (s : State) (src : Src) (cmd : Nat) (e : Err) (payload : List Byte) :
    OnlyReply s (s.reply src cmd e payload) := s.reply_only ..

theorem State.bind_reply (s : State) (src : Src) (cmd : Nat) (e : Err) (payload : List Byte) (b : Nat) :
    (s.reply src cmd e payload).bind b = s.bind b := bind_of_ox (reply_ox ..) b

theorem State.bindX_reply (s : State) (src : Src) (cmd : Nat) (e : Err) (payload : List Byte) (b : Nat) :
    (s.reply src cmd e payload).bindX b = s.bindX b := bindX_of_ox (reply_ox ..) b

theorem State.oxProg_reply (s : State) (src : Src) (cmd : Nat) (e : Err) (payload : List Byte) (b : Nat) :
    (s.reply src cmd e payload).oxProg b = s.oxProg b := by
  rw [oxProg, reply_ox, oxProg]

/-- A command the port admits, whose fields agree and whose checks all pass, runs (R405). -/
theorem State.command_runs {s : State} {src : Src} {cmd : Nat} {allowed agrees : Bool} {checks : List (Bool × Err)} {run : State → State}
    (hport : s.portAdmits src cmd = true) (hallowed : allowed = true) (hagrees : agrees = true) (hchecks : firstErr checks = none) :
    s.command src cmd allowed agrees checks run = run s := by
  unfold command
  rw [if_neg (by simp [hport, hallowed]), if_neg (by simp [hagrees]), hchecks]

/-- A command that fails a check answers its code (R405). -/
theorem State.command_fails {s : State} {src : Src} {cmd : Nat} {allowed agrees : Bool} {checks : List (Bool × Err)} {run : State → State}
    {e : Err} (hport : s.portAdmits src cmd = true) (hallowed : allowed = true) (hagrees : agrees = true)
    (hchecks : firstErr checks = some e) : s.command src cmd allowed agrees checks run = s.reply src cmd e [] := by
  unfold command
  rw [if_neg (by simp [hport, hallowed]), if_neg (by simp [hagrees]), hchecks]

/-- Checks that all pass. -/
theorem firstErr_none {checks : List (Bool × Err)} (h : ∀ c ∈ checks, c.1 = false) : firstErr checks = none := by
  induction checks with
  | nil => rfl
  | cons c checks ih =>
    obtain ⟨b, e⟩ := c
    have hb : b = false := h _ List.mem_cons_self
    rw [firstErr, hb, if_neg Bool.false_ne_true]
    exact ih fun c hc => h c (List.mem_cons_of_mem _ hc)

/-- The claim of a collective changes a buffer pool at most (R278, R279). -/
theorem State.collAdmit_only {s t : State} {sched : Bool} {ctx owner need place spill : Nat}
    (h : s.collAdmit sched ctx owner need = some (t, place, spill)) : t = { s with cds := t.cds } := by
  unfold collAdmit at h
  dsimp only at h
  generalize (sched && _ : Bool) = kept at h
  cases kept with
  | true => cases h; rfl
  | false =>
    rw [if_neg Bool.false_ne_true] at h
    split at h
    · cases h; rfl
    · unfold bpAlloc at h
      dsimp only at h
      generalize ((s.cd owner).bp.alloc 9 5).2 = r at h
      cases r with
      | ok a => cases h; rfl
      | error e => cases h

/-- The entry COLL_BIND opens (R288, R293). -/
def State.openedBinding (s : State) (place spill dh : Nat) (g l p : List Byte) : Binding :=
  { st := .open, collId := (collG g).id, ctx := (collL l).ctx, place := place, owner := (collL l).owner, ieee := (s.cx (collL l).ctx).ieee,
    lines := (oxP p).lines, spill := spill, dhash := dh, nmembers := (collG g).members, myIndex := (collL l).me,
    timeoutUs := (collG g).timeout, opensIn := (collL l).opensIn, opensOut := (collL l).opensOut, recvUnits := (collL l).recv,
    sched := bit (collG g).flags 0, partial_ := bit (collG g).flags 1, notify := bit (collL l).lflags 0 }

theorem State.bind_collOpen (s : State) (src : Src) (b place spill dh : Nat) (g l p : List Byte) (j : Nat) :
    (s.collOpen src b place spill dh g l p).bind j = if j = b then s.openedBinding place spill dh g l p else s.bind j := by
  unfold collOpen
  dsimp only
  rw [bind_reply]
  exact tab_get_set {} s.ox.binds b j (s.openedBinding place spill dh g l p)

theorem State.oxProg_collOpen (s : State) (src : Src) (b place spill dh : Nat) (g l p : List Byte) :
    (s.collOpen src b place spill dh g l p).oxProg b = oxP p := by
  unfold collOpen
  dsimp only
  rw [oxProg_reply]
  exact congrArg oxP ((tab_get_set ([] : List Byte) s.ox.progs b b p).trans (if_pos rfl))

theorem State.runs_collBind {s t0 : State} {src : Src} {g l p : List Byte} {place spill b : Nat} (hport : s.portAdmits src 0x0601 = true)
    (howns : s.owns src (collL l).ctx = true) (hctx : src.context = (collL l).ctx) (hchecks : firstErr (s.bindChecks g l p) = none)
    (hadmit : s.collAdmit (bit (collG g).flags 0) (collL l).ctx (collL l).owner (oxP p).lines = some (t0, place, spill))
    (hentry : s.collEntry = some b) {dh : Nat}
    (hdh : dh = collHash g (s.vaRead (collL l).owner (s.collSlot (collL l).owner (collL l).ctx) (collL l).membersVa (8 * (collG g).members)).2.2) :
    Runs (.collBind src g l p) s fun t =>
      RepliedLast s t src 0x0601 (leBytes 2 b ++ leBytes 8 dh ++ leBytes 1 place) ∧ (t.bind b).st = .open ∧
      (t.bind b).collId = (collG g).id ∧ (t.bind b).ctx = (collL l).ctx ∧ (t.bind b).lines = (oxP p).lines ∧ (t.bind b).dhash = dh ∧
      (t.bind b).place = place ∧ t.oxProg b = oxP p ∧ ∀ j, j ≠ b → t.bind j = s.bind j := by
  subst hdh
  have hx : exec (.collBind src g l p) s = execCollBind src g l p s := rfl
  unfold execCollBind at hx
  dsimp only at hx
  rw [command_runs hport howns (decide_eq_true hctx) hchecks, hadmit, hentry] at hx
  dsimp only at hx
  rw [Option.getD_some] at hx
  have honly := collAdmit_only hadmit
  have hox : t0.ox = s.ox := by rw [honly]
  have hnow : t0.now = s.now := by rw [honly]; rfl
  refine runs_of_exec hx ⟨RepliedLast.of_reply (by exact hnow) .., ?_⟩
  rw [oxProg_collOpen]
  simp only [bind_collOpen, if_true]
  exact ⟨rfl, rfl, rfl, rfl, rfl, rfl, trivial, fun j hj => (if_neg hj).trans (bind_of_ox hox j)⟩

/-- A refused COLL_BIND changes nothing but its reply (R295). -/
theorem State.runs_collBind_refused {s : State} {src : Src} {g l p : List Byte} {e : Err} (hport : s.portAdmits src 0x0601 = true)
    (howns : s.owns src (collL l).ctx = true) (hctx : src.context = (collL l).ctx) (hchecks : firstErr (s.bindChecks g l p) = some e) :
    Runs (.collBind src g l p) s fun t => t.ox = s.ox ∧ t.cds = s.cds ∧ t.out.head? = some (Machine.answer s src 0x0601 e []) := by
  have hx : exec (.collBind src g l p) s = execCollBind src g l p s := rfl
  unfold execCollBind at hx
  dsimp only at hx
  rw [command_fails hport howns (decide_eq_true hctx) hchecks] at hx
  exact runs_of_exec hx ⟨reply_ox .., reply_cds .., by rw [out_reply_error, List.head?_cons]⟩

section

variable {s : State} {src : Src} {cmd ctx coll b : Nat} (hport : s.portAdmits src cmd = true) (howns : s.owns src ctx = true)
  (hagrees : src.context = ctx) (hhub : s.svc.hubIn = true) (hctx : s.noCtx ctx = false) (hheld : s.collHeld coll = some b)
  (hbctx : (s.bind b).ctx = ctx)
include hport howns hagrees hhub hctx hheld hbctx

/-- A collectives command of the owner of the binding's context whose own checks pass (R310). -/
theorem State.collCmd_runs {checks : Nat → List (Bool × Err)} {run : Nat → State → State} (hchecks : ∀ c ∈ checks b, c.1 = false) :
    s.collCmd src cmd ctx coll checks run = run b s := by
  unfold collCmd
  dsimp only
  rw [hheld, Option.getD_some, command_runs hport howns (decide_eq_true hagrees)]
  refine firstErr_none fun c hc => ?_
  rcases List.mem_append.mp hc with hc | hc
  · simp only [List.mem_cons, List.not_mem_nil, or_false] at hc
    rcases hc with rfl | rfl | rfl
    · simp [hhub, hctx]
    · rfl
    · simp [hbctx]
  · exact hchecks c hc

end

/-- A collective that progresses keeps its entry, or is DONE (R301). -/
theorem State.collProgress_bind (s : State) (b : Nat) : (s.collProgress b).bind b = s.bind b ∨
    (s.collProgress b).bind b = { s.bind b with st := .done, tEnd := s.now, used := 0 } := by
  unfold collProgress
  dsimp only
  split
  · right
    rw [bind_of_ox (ox_collEnd ..)]
    simp [collSlots, modBind, bind]
  · exact .inl rfl

theorem State.tRun_collProgress (s : State) (b : Nat) : ((s.collProgress b).bind b).tRun = (s.bind b).tRun := by
  rcases s.collProgress_bind b with h | h <;> rw [h]

theorem State.st_collProgress_ne_open {s : State} {b : Nat} (h : (s.bind b).st ≠ .open) : ((s.collProgress b).bind b).st ≠ .open := by
  rcases s.collProgress_bind b with h' | h' <;> rw [h']
  · exact h
  · simp

theorem State.bpFree_error {s : State} {d r a : Nat} {e : Err} (h : (s.cd d).bp.release r a = .error e) :
    s.bpFree d r a = ((s.modCd d fun c => { c with bp := { c.bp with refused := c.bp.refused + 1 } }).raise d 0x27 2 e (leBytes 8 a), e) := by
  obtain ⟨f, hf⟩ : ∃ f, f = bpFree := ⟨_, rfl⟩
  rw [← hf]
  delta bpFree at hf
  rw [hf]
  beta_reduce
  rw [h]

theorem State.ft_bpFree (s : State) (d r a : Nat) : (s.bpFree d r a).1.ft = s.ft ∧ (s.bpFree d r a).1.ox = s.ox := by
  cases h : (s.cd d).bp.release r a with
  | ok b =>
    rw [bpFree_ok h]
    exact ⟨rfl, rfl⟩
  | error e =>
    rw [bpFree_error h]
    exact ⟨raise_ft .., raise_ox ..⟩

/-- A binding that becomes FREE (R308). -/
theorem State.collRelease_bind (s : State) (b : Nat) : (s.collRelease b).ft = s.ft ∧ ((s.collRelease b).bind b).st = .free ∧
    ((s.collRelease b).bind b).lines = 0 ∧ ((s.collRelease b).bind b).tEnd = s.now ∧ ((s.collRelease b).bindX b).cooling = true := by
  have hfold : (List.foldl (fun s d => s.releaseOx d) s (s.bindX b).run.descs).ft = s.ft :=
    foldl_keeps State.ft (fun t d => by rw [releaseOx_only]) _ s
  unfold collRelease
  dsimp only
  generalize List.foldl (fun s d => s.releaseOx d) s (s.bindX b).run.descs = u at hfold ⊢
  generalize hv : (if (s.bind b).place = 2 then (u.bpFree (s.bind b).owner 9 (s.bind b).spill).1 else u) = v
  have hft : v.ft = s.ft := by
    rw [← hv]
    split
    · exact (ft_bpFree ..).1.trans hfold
    · exact hfold
  refine ⟨hft, ?_, ?_, ?_, ?_⟩
  · rw [bind_modBindX, bind_modBind, if_pos rfl]
  · rw [bind_modBindX, bind_modBind, if_pos rfl]
  · rw [bind_modBindX, bind_modBind, if_pos rfl]
    exact congrArg Ft.now hft
  · rw [bindX_modBindX, if_pos rfl]

section

variable {s : State} {src : Src} {ctx coll b : Nat} (howns : s.owns src ctx = true) (hagrees : src.context = ctx)
  (hhub : s.svc.hubIn = true) (hctx : s.noCtx ctx = false) (hheld : s.collHeld coll = some b) (hbctx : (s.bind b).ctx = ctx)
include howns hagrees hhub hctx hheld hbctx

/-- COLL_START (R301). -/
theorem State.runs_collStart (hport : s.portAdmits src 0x0602 = true) (hst : (s.bind b).st = .open) (hsched : (s.bind b).sched = false) :
    Runs (.collStart src ctx coll) s fun t => Answered s t src 0x0602 [] ∧ (t.bind b).tRun = s.now ∧ (t.bind b).st ≠ .open ∧
      (t.bindX b).fetch.active = !(s.bindX b).fetch.done := by
  have hx : exec (.collStart src ctx coll) s = execCollStart src ctx coll s := rfl
  unfold execCollStart at hx
  rw [collCmd_runs hport howns hagrees hhub hctx hheld hbctx (by simp [hst, hsched])] at hx
  dsimp only at hx
  refine runs_of_exec hx ⟨?_, ?_, ?_, ?_⟩
  · refine Sent.of_suffix (u := s) (List.suffix_refl _) ?_
    refine List.IsSuffix.trans ?_ (out_collProgress _ _)
    rw [out_reply_ok]
    exact List.suffix_refl _
  · rw [tRun_collProgress, bind_reply, bind_modBindX, bind_modBind, if_pos rfl]
  · refine st_collProgress_ne_open ?_
    rw [bind_reply, bind_modBindX, bind_modBind, if_pos rfl]
    simp
  · rw [bindX_collProgress, bindX_reply, bindX_modBindX, if_pos rfl, bindX_modBind]

/-- COLL_ABORT answers the state before (R303). -/
theorem State.runs_collAbort (hport : s.portAdmits src 0x0603 = true) (hst : (s.bind b).st ≠ .free) :
    Runs (.collAbort src ctx coll) s fun t => RepliedLast s t src 0x0603 (leBytes 1 (s.bind b).st.code) ∧ (t.bind b).st = .aborted ∧
      ((s.bind b).st ≠ .aborted → (t.bind b).code = .collAborted) := by
  have hx : exec (.collAbort src ctx coll) s = execCollAbort src ctx coll s := rfl
  unfold execCollAbort at hx
  rw [collCmd_runs hport howns hagrees hhub hctx hheld hbctx (by simp)] at hx
  dsimp only at hx
  by_cases hab : (s.bind b).st = .aborted
  · rw [if_pos hab] at hx
    refine runs_of_exec hx ⟨RepliedLast.of_reply rfl .., ?_, fun h => absurd hab h⟩
    rw [bind_reply, hab]
  · rw [if_neg hab] at hx
    have hlive : (s.bind b).st = .open ∨ (s.bind b).st = .running ∨ (s.bind b).st = .done := by
      generalize (s.bind b).st = st at hst hab
      cases st <;> simp_all
    obtain ⟨hbind, -⟩ := collAbortBy_live hlive .collAborted s.node 3 [] none 0
    refine runs_of_exec hx ⟨RepliedLast.of_reply (now_of_outer (outer_collAbortBy ..)) .., ?_, fun _ => ?_⟩
    · rw [bind_reply, collFail, hbind]
      rfl
    · rw [bind_reply, collFail, hbind]
      rfl

/-- COLL_FREE (R308). -/
theorem State.runs_collFree (hport : s.portAdmits src 0x0604 = true) (hst : (s.bind b).st = .done ∨ (s.bind b).st = .aborted) :
    Runs (.collFree src ctx coll) s fun t => RepliedLast s t src 0x0604 [] ∧ (t.bind b).st = .free ∧ (t.bind b).lines = 0 ∧
      (t.bind b).tEnd = s.now ∧ (t.bindX b).cooling = true := by
  have hx : exec (.collFree src ctx coll) s = execCollFree src ctx coll s := rfl
  unfold execCollFree at hx
  rw [collCmd_runs hport howns hagrees hhub hctx hheld hbctx (by rcases hst with h | h <;> simp [h])] at hx
  obtain ⟨hft, hfree, hlines, hend, hcool⟩ := s.collRelease_bind b
  refine runs_of_exec hx ⟨RepliedLast.of_reply (congrArg Ft.now hft) .., ?_⟩
  rw [bind_reply, bindX_reply]
  exact ⟨hfree, hlines, hend, hcool⟩

end

/-- COLL_STATUS (R310). -/
theorem State.runs_collStatus {s : State} {src : Src} {coll b : Nat} (hport : s.portAdmits src 0x0605 = true) (hhub : s.svc.hubIn = true)
    (hkey : coll < 2 ^ 31) (hheld : s.collHeld coll = some b) (howns : s.owns src (s.bind b).ctx = true) :
    Runs (.collStatus src coll) s fun t => Replied s t src 0x0605 (s.bind b).status ∧ OnlyReply s t := by
  have hx : exec (.collStatus src coll) s = execCollStatus src coll s := rfl
  unfold execCollStatus at hx
  dsimp only at hx
  rw [if_neg (by omega), hheld] at hx
  dsimp only at hx
  rw [command_runs hport (by simp [howns]) rfl (by simp [firstErr, hhub])] at hx
  exact runs_of_exec hx ⟨Replied.of_reply rfl rfl .., OnlyReply.of_reply ..⟩

/-- Settles O34: one lemma per command. -/
theorem collectiveCommandsAnswer : Obligations.CollectiveCommandsAnswer := by
  unfold Obligations.CollectiveCommandsAnswer
  intro src s
  refine ⟨?_, fun g l p e => State.runs_collBind_refused, ?_, ?_, ?_, fun coll b => State.runs_collStatus⟩
  · intro g l p t0 place spill hport howns hctx hchecks dh hadmit b hentry
    exact State.runs_collBind hport howns hctx hchecks hadmit hentry rfl
  · intro ctx coll b hport howns hagrees hhub hctx hheld hbctx hst hsched
    exact State.runs_collStart howns hagrees hhub hctx hheld hbctx hport hst hsched
  · intro ctx coll b hport howns hagrees hhub hctx hheld hbctx hst
    exact State.runs_collAbort howns hagrees hhub hctx hheld hbctx hport hst
  · intro ctx coll b hport howns hagrees hhub hctx hheld hbctx hst
    exact State.runs_collFree howns hagrees hhub hctx hheld hbctx hport hst

end Sys2Proof.Machine

namespace Sys2Proof.Machine

/-! Flits, control cells and the loss of a link (R313 to R317, R321, R322). -/

theorem State.outer_dropQueue (s : State) (q : Nat) : (s.dropQueue q).outer = s.outer := by
  unfold dropQueue
  dsimp only
  generalize hu : List.foldl _ s (s.hub.queue q).entries = u
  have ho : u.outer = s.outer := by
    rw [← hu]
    refine foldl_keeps State.outer (fun t e => ?_) _ s
    exact outer_releaseOx ..
  exact ho

/-- An output that goes out of service changes the hub, the flights and routing. -/
theorem State.outer_outputDown (s : State) (o : Nat) : (s.outputDown o).outer = s.outer :=
  foldl_keeps State.outer (fun t i => outer_dropQueue t (6 * o + i)) _ _

/-- The registers of a link that is lost (R321). -/
def Link.lost (k : Link) (st : LinkSt) (cause : Nat) : Link :=
  { k with st := st, board := false, swap := none, credits := [], downs := sat 32 (k.downs + 1), lastCause := cause }

/-- What a lost link leaves of its transmitter and receiver: the sleep state and the time to train again (R318, R322). -/
def LinkX.lost (x : LinkX) (k : Link) (cause aon : Nat) : LinkX :=
  { sleep := x.sleep, trainAt := if k.auto && k.enable && decide (cause ≠ 7) then some (aon + k.retrainDelay * 1000) else none }

/-- What the loss of an UP link changes of the links (R321, R322). -/
theorem State.linkDown_up {s : State} {l cause : Nat} {st : LinkSt} {say : Bool} (hup : (s.link l).st = .up) :
    (s.linkDown l cause st say).link l = (s.link l).lost st cause ∧
      (s.linkDown l cause st say).lx l = (s.lx l).lost (s.link l) cause s.aonNs ∧ (s.linkDown l cause st say).aonNs = s.aonNs := by
  unfold linkDown
  dsimp only
  rw [if_neg (not_not.mpr hup)]
  generalize hv : List.foldl (fun (s : State) q => s.copyLeaves q) _ _ = v
  have hov : v.outer = s.outer := by
    rw [← hv, foldl_keeps State.outer fun t q => outer_copyLeaves t q, outer_outputDown]
    split <;> rfl
  have hdown (u : State) := foldl_keeps State.outer (fun (t : State) (e : Nat × Nat × Nat) => outer_henReply t e.1 e.2.1 e.2.2 .uncorr [])
    (s.peerOutstanding l) u
  rw [link_of_outer ((outer_raise ..).trans (hdown _)), lx_of_outer ((outer_raise ..).trans (hdown _)),
    aonNs_of_outer ((outer_raise ..).trans (hdown _))]
  refine ⟨?_, ?_, ?_⟩
  · rw [link_modLink, if_pos rfl, link_modLx, link_of_outer hov]
    rfl
  · rw [lx_modLink, lx_modLx, if_pos rfl, lx_of_outer hov, aonNs_of_outer hov]
    rfl
  · exact (aonNs_of_outer hov :)


theorem runs_flitSend_sleeping {l : LinkId} {s : State} (hup : (s.link l).st = .up) (hsl : (s.lx l).sleep.st ≠ .running) :
    Runs (.flitSend l) s fun t => (t.lx l).sleep = { (s.lx l).sleep with waking := true } ∧ t.out = s.out ∧
      (t.lx l).cur = (s.lx l).cur := by
  have hx : exec (.flitSend l) s = execFlitSend l s := rfl
  unfold execFlitSend at hx
  dsimp only at hx
  rw [if_neg (not_not.mpr hup), if_pos hsl] at hx
  refine runs_of_exec hx ⟨?_, rfl, ?_⟩ <;> simp [State.modSleep]

/-- A scheduled slot of the flit takes the next waiting cell; the flit leaves with its tenth slot (R314). -/
theorem exec_flitSend_slot {l : LinkId} {s : State} {c : TxSlot} {rest : List TxSlot} (hup : (s.link l).st = .up)
    (hrun : (s.lx l).sleep.st = .running) (hcur : (s.lx l).resend = [] ∨ (s.lx l).cur ≠ []) (hroom : (s.lx l).replay.length < 128)
    (hslot : (s.lx l).slotNo % s.hub.shareD ≠ s.hub.shareD - 1) (htx : (s.lx l).txSched = c :: rest) :
    ∃ u : State, u = { s with linkx := u.linkx } ∧
      (∀ k, u.lx k = if k = l then { s.lx l with txSched := rest, slotNo := (s.lx l).slotNo + 1, cur := (s.lx l).cur ++ [c] } else s.lx k) ∧
      exec (.flitSend l) s = .next (if (u.lx l).cur.length < 10 then u else u.flitOut l (u.lx l).cur) := by
  have hx : exec (.flitSend l) s = execFlitSend l s := rfl
  unfold execFlitSend at hx
  dsimp only at hx
  rw [if_neg (not_not.mpr hup), if_neg (not_not.mpr hrun), if_neg (Nat.not_le.mpr hroom), decide_eq_false hslot] at hx
  unfold State.schedSlot at hx
  rw [htx] at hx
  simp only [Bool.false_eq_true, if_false] at hx
  refine ⟨(s.modLx l fun x => { x with txSched := rest }).modLx l fun x => { x with slotNo := x.slotNo + 1, cur := x.cur ++ [c] },
    rfl, fun k => ?_, ?_⟩
  · rw [State.lx_modLx, State.lx_modLx, State.lx_modLx, if_pos rfl]
    split <;> rfl
  · rw [hx]
    rcases hcur with h | h
    · rw [h]
    · obtain ⟨a, b, hab⟩ := List.exists_cons_of_ne_nil h
      rw [hab]
      cases (s.lx l).resend <;> rfl

theorem State.link_flitOut (s : State) (l : Nat) (slots : List TxSlot) :
    ((s.flitOut l slots).link l).flitsTx = (s.link l).flitsTx + 1 := by
  unfold flitOut
  dsimp only
  rw [link_modLx, link_modLink, if_pos rfl]
  rfl

/-- A flit with room to keep it takes the next SEQ and is kept for replay (R313, R317). -/
theorem State.flitOut_room {s : State} {l : Nat} (slots : List TxSlot) (hroom : (s.lx l).replay.length < 128) :
    (s.flitOut l slots).out = .flit l (s.lx l).nextSeq (slots.map (·.slot)) :: s.out ∧ ((s.flitOut l slots).lx l).cur = [] ∧
      ((s.flitOut l slots).lx l).txSched = (s.lx l).txSched ∧
      ((s.flitOut l slots).lx l).nextSeq = ((s.lx l).nextSeq + 1) % 65536 ∧
      ((s.flitOut l slots).lx l).replay.length = (s.lx l).replay.length + 1 := by
  unfold flitOut
  dsimp only
  rw [decide_eq_false (Nat.not_le.mpr hroom), modLx_out, modLink_out, out_emit, lx_modLx, if_pos rfl]
  exact ⟨rfl, rfl, rfl, rfl, by simp; rfl⟩

theorem exec_flitReceive_next {l : LinkId} {s : State} {f : Flit} (hup : (s.link l).st = .up) (hok : f.ok = true)
    (hseq : (f.seq + 65536 - (s.lx l).rxSeq) % 65536 = 1) :
    ∃ u : State, (u.link l).st = .up ∧ (u.link l).flitsRx = (s.link l).flitsRx + 1 ∧ u.hub = s.hub ∧
      u.lx l = { s.lx l with rxSeq := f.seq, nakSent := false, ctlDue := true } ∧
      exec (.flitReceive l f) s = .next (f.slots.foldl (fun s t => s.rxSlot l t) u) := by
  have hx : exec (.flitReceive l f) s = execFlitReceive l f s := rfl
  unfold execFlitReceive at hx
  dsimp only at hx
  rw [if_neg (not_not.mpr hup), hok, Bool.not_true, if_neg Bool.false_ne_true, State.lx_modLink, hseq, if_pos rfl] at hx
  refine ⟨_, ?_, ?_, ?_, ?_, hx⟩
  · simpa using hup
  · simp
  · rfl
  · simp

theorem runs_flitReceive_bad {l : LinkId} {s : State} {f : Flit} (hup : (s.link l).st = .up) (hok : f.ok = false)
    (hnak : (s.lx l).nakSent = false) :
    Runs (.flitReceive l f) s fun t => (t.lx l).nakSent = true ∧ (t.lx l).ctlUrgent = (s.lx l).ctlUrgent ++ [{ nak := true }] ∧
      (t.lx l).rxSeq = (s.lx l).rxSeq ∧ (t.link l).fecUncorr = (s.link l).fecUncorr + f.uncorr := by
  have hx : exec (.flitReceive l f) s = execFlitReceive l f s := rfl
  unfold execFlitReceive at hx
  dsimp only at hx
  rw [if_neg (not_not.mpr hup), hok, Bool.not_false, if_pos rfl, State.lx_modLink, State.lx_modLink, hnak, if_neg Bool.false_ne_true] at hx
  refine runs_of_exec hx ⟨?_, ?_, ?_, ?_⟩ <;> simp

/-- The first cell of a packet with room in its pool is kept until the packet is whole (R315). -/
theorem State.rxSlot_firstCell {s : State} {l net cls : Nat} (bytes : List Byte) (hup : (s.link l).st = .up)
    (hroom : Tab.get 0 (s.lx l).owed (poolOf net cls) < poolCells (poolOf net cls)) :
    Tab.get [] ((s.rxSlot l (.cell net cls true false false bytes)).lx l).asm (poolOf net cls) = bytes ∧
      Tab.get 0 ((s.rxSlot l (.cell net cls true false false bytes)).lx l).owed (poolOf net cls) =
        Tab.get 0 (s.lx l).owed (poolOf net cls) + 1 ∧ (s.rxSlot l (.cell net cls true false false bytes)).hub = s.hub := by
  unfold rxSlot
  dsimp only
  rw [if_neg (not_not.mpr hup), if_neg (Nat.not_le.mpr hroom)]
  simp [tab_get_set]

theorem tab_get_foldl_set {l : List Nat} (hl : l.Nodup) (f : Nat → Nat → Nat) (t : Tab Nat) (p : Nat) :
    Tab.get 0 (l.foldl (fun t i => Tab.set 0 t i (f (Tab.get 0 t i) i)) t) p =
      if p ∈ l then f (Tab.get 0 t p) p else Tab.get 0 t p := by
  induction l generalizing t with
  | nil => rfl
  | cons a l ih =>
    obtain ⟨ha, hl⟩ := List.nodup_cons.mp hl
    rw [List.foldl_cons, ih hl, tab_get_set]
    by_cases hpa : p = a
    · subst hpa
      simp [ha]
    · simp [hpa]

/-- An acknowledgement changes the replay buffer of its link, and no link (R317). -/
theorem State.linkAck_keeps (s : State) (l ack : Nat) : (∀ k, (s.linkAck l ack).link k = s.link k) ∧
    ((s.linkAck l ack).lx l).replay = (s.lx l).replay.filter (fun f => !decide ((ack + 65536 - f.seq) % 65536 < 32768)) ∧
    ((s.linkAck l ack).lx l).lastEcho = (s.lx l).lastEcho := by
  unfold linkAck
  dsimp only
  generalize hv : List.foldl (fun (s : State) q => s.copyLeaves q) _ _ = v
  have hov : v.outer = s.outer := by
    rw [← hv]
    exact foldl_keeps State.outer (fun t q => outer_copyLeaves t q) _ _
  rw [lx_modLx, if_pos rfl, lx_of_outer hov]
  exact ⟨fun k => link_of_outer hov k, rfl, rfl⟩

theorem runs_controlCell_ack {l : LinkId} {s : State} {c : CtlCell} (hup : (s.link l).st = .up) (hcrc : c.ccrc = crc16 c.bytes)
    (hdown : c.down = false) (hreset : c.reset = false) (hack : ((s.lx l).nextSeq + 65535 - c.ack) % 65536 ≤ 128)
    (hnak : c.nak = false) (hswap : c.swap = false) :
    Runs (.controlCell l c) s fun t => (t.link l).st = .up ∧
      (∀ p, p < 6 → Tab.get 0 (t.link l).credits p = Tab.get 0 (s.link l).credits p + c.credits.getD p 0) ∧
      (t.lx l).replay = (s.lx l).replay.filter (fun f => !decide ((c.ack + 65536 - f.seq) % 65536 < 32768)) ∧
      (t.lx l).lastEcho = c.echoTx := by
  have hx : exec (.controlCell l c) s = .next (s.controlCell l c) := rfl
  unfold State.controlCell at hx
  dsimp only at hx
  rw [if_neg (by simp [hup, hcrc]), hdown, hreset, if_neg Bool.false_ne_true, if_neg Bool.false_ne_true,
    if_neg (Nat.not_lt.mpr hack), hnak, hswap, if_neg Bool.false_ne_true, if_neg Bool.false_ne_true] at hx
  generalize hu : State.linkAck _ _ _ = u at hx
  obtain ⟨hlink, hreplay, hecho⟩ := State.linkAck_keeps (s.modLx l fun x => { x with lastEcho := c.echoTx, lastEchoAt := s.aonNs }) l c.ack
  rw [hu] at hlink hreplay hecho
  refine runs_of_exec hx ⟨?_, fun p hp => ?_, ?_, ?_⟩
  · simpa [hlink] using hup
  · rw [State.link_modLink, if_pos rfl]
    dsimp only
    rw [tab_get_foldl_set List.nodup_range fun v i => v + c.credits.getD i 0, if_pos (List.mem_range.mpr hp), hlink]
    rfl
  · simpa using hreplay
  · simpa using hecho

theorem State.linkLoss_up {s : State} {l : Nat} (cause : Nat) (hup : (s.link l).st = .up) :
    (s.linkLoss l cause).link l = (s.link l).lost .down cause ∧
      (s.linkLoss l cause).lx l = (s.lx l).lost (s.link l) cause s.aonNs :=
  ⟨(linkDown_up hup).1, (linkDown_up hup).2.1⟩

/-- Settles O35: each clause runs its command to a state the link rules describe. -/
theorem linksCarryFlits : Obligations.LinksCarryFlits := by
  unfold Obligations.LinksCarryFlits
  intro l s hup x
  refine ⟨runs_flitSend_sleeping hup, ?_, ?_, ?_, fun f => runs_flitReceive_bad hup, fun c => runs_controlCell_ack hup, ?_, ?_, ?_⟩
  · intro c rest hrun hcur hroom hslot htx
    obtain ⟨u, hu, hlx, hx⟩ := exec_flitSend_slot hup hrun hcur hroom hslot htx
    have hl := hlx l
    rw [if_pos rfl] at hl
    have hlen : (u.lx l).cur.length = x.cur.length + 1 := by simp [hl, x]
    refine ⟨fun h9 => ?_, fun h9 => ?_⟩
    · rw [if_pos (by omega)] at hx
      exact runs_of_exec hx ⟨hu, hl, fun k hk => (hlx k).trans (if_neg hk)⟩
    · rw [if_neg (by omega)] at hx
      obtain ⟨hout, hcur', htx', hnext, hrep⟩ := State.flitOut_room (s := u) (l := l) (u.lx l).cur (by rw [hl]; exact hroom)
      refine runs_of_exec hx ⟨?_, hcur', ?_, ?_, ?_, ?_⟩
      · rw [hout, hl, hu]
      · rw [htx', hl]
      · rw [hnext, hl]
      · rw [hrep, hl]
      · rw [State.link_flitOut, hu]
        rfl
  · intro f hok hseq hslots
    obtain ⟨u, hu, hrx, hhub, hlx, hx⟩ := exec_flitReceive_next hup hok hseq
    rw [hslots] at hx
    refine runs_of_exec hx ⟨?_, ?_, ?_, hrx, hhub⟩ <;> rw [List.foldl_nil, hlx]
  · intro f net cls bytes hok hseq hslots hroom
    obtain ⟨u, hu, hrx, hhub, hlx, hx⟩ := exec_flitReceive_next hup hok hseq
    rw [hslots] at hx
    have howed : (u.lx l).owed = x.owed := by rw [hlx]
    obtain ⟨hasm, how, hh⟩ := State.rxSlot_firstCell bytes hu (by rw [howed]; exact hroom)
    exact runs_of_exec hx ⟨hasm, how.trans (by rw [howed]), hh.trans hhub⟩
  · intro c hcrc
    have hx : exec (.controlCell l c) s = .next (s.controlCell l c) := rfl
    unfold State.controlCell at hx
    rwa [if_pos (Or.inr hcrc)] at hx
  · intro c hcrc hdown
    have hx : exec (.controlCell l c) s = .next (s.controlCell l c) := rfl
    unfold State.controlCell at hx
    rw [if_neg (by simp [hup, hcrc]), if_pos hdown] at hx
    obtain ⟨hlink, hlx⟩ := State.linkLoss_up 2 hup
    refine runs_of_exec hx ?_
    rw [hlink, hlx]
    exact ⟨rfl, rfl, rfl, rfl⟩
  · intro hrep hat
    have hx : exec (.linkAckTimeout l) s = execLinkAckTimeout l s := rfl
    unfold execLinkAckTimeout at hx
    rw [if_pos ⟨hup, hrep, hat⟩] at hx
    obtain ⟨hlink, hlx⟩ := State.linkLoss_up 5 hup
    refine runs_of_exec hx ?_
    rw [hlink, hlx]
    exact ⟨rfl, rfl, rfl, rfl, rfl, rfl⟩

end Sys2Proof.Machine

namespace Sys2Proof.Machine

/-! Training, the spare lane and the control register of a link (R318 to R322, R339, R536). -/

/-- A link that is lost, up or not, keeps its settings (R321, R339). -/
theorem State.link_linkDown (s : State) (l cause : Nat) (st : LinkSt) (say : Bool) :
    ((s.linkDown l cause st say).link l).st = st ∧ ((s.linkDown l cause st say).link l).enable = (s.link l).enable ∧
      ((s.linkDown l cause st say).link l).wantBoard = (s.link l).wantBoard := by
  by_cases hup : (s.link l).st = .up
  · rw [(linkDown_up hup).1]
    exact ⟨rfl, rfl, rfl⟩
  · unfold linkDown
    dsimp only
    rw [if_pos hup, link_modLink, if_pos rfl]
    exact ⟨rfl, rfl, rfl⟩

theorem State.trainStart_trains (s : State) (l : Nat) :
    ((s.trainStart l).link l).st = .training ∧ ((s.trainStart l).link l).enable = (s.link l).enable ∧
      ((s.trainStart l).link l).wantBoard = (s.link l).wantBoard ∧ ((s.trainStart l).lx l).trainAt = none := by
  obtain ⟨-, hen, hwb⟩ := link_linkDown s l 8 .down true
  unfold trainStart
  dsimp only
  rw [lx_modLx, if_pos rfl, link_modLx, link_modLink, if_pos rfl]
  split
  · exact ⟨rfl, hen, hwb, rfl⟩
  · exact ⟨rfl, rfl, rfl, rfl⟩

theorem State.linkDisable_disables (s : State) (l : Nat) :
    ((s.linkDisable l).link l).st = .disabled ∧ ((s.linkDisable l).link l).enable = (s.link l).enable ∧
      ((s.linkDisable l).lx l).trainAt = none := by
  obtain ⟨hst, hen, -⟩ := link_linkDown s l 7 .disabled true
  unfold linkDisable
  rw [lx_modLx, if_pos rfl, link_modLx]
  exact ⟨hst, hen, rfl⟩

theorem State.link_outputUp (s : State) (o l : Nat) : (s.outputUp o).link l = s.link l := rfl

theorem State.lx_outputUp (s : State) (o l : Nat) : (s.outputUp o).lx l = s.lx l := rfl

theorem State.outUp_outputUp (s : State) (o : Nat) : Tab.get false (s.outputUp o).hub.outUp o = true := by
  rw [outputUp, tab_get_set, if_pos rfl]

/-- The credits of a link that comes UP: the capacity of each pool (R315). -/
theorem credits_fresh {p : Nat} (hp : p < 6) :
    Tab.get 0 ((List.range 6).map fun i => (i, poolCells i)) p = if p < 2 then 768 else 128 := by
  interval_cases p <;> rfl

/-- A link that trains with 8 good lanes and a match of modes comes UP (R318, R319). -/
theorem runs_linkTrainingComplete_up {l : LinkId} {s : State} {t : Training} (hst : (s.link l).st = .training) (hlock : t.lock = true)
    (hgood : (sortBy (fun a b => decide (a ≤ b)) ((t.good.map (·.val)).eraseDups)).length ≥ 8) (hwant : (s.link l).wantBoard = false)
    (hpeer : t.peerBoard = false) (hflight : t.flight ≤ 50) :
    Runs (.linkTrainingComplete l t) s fun u => (u.link l).st = .up ∧ (u.link l).board = false ∧ (u.link l).flight = t.flight ∧
      (u.link l).peerNode = t.peerNode ∧ (∀ p, p < 6 → Tab.get 0 (u.link l).credits p = if p < 2 then 768 else 128) ∧
      (u.lx l).rxSeq = 65535 ∧ (u.lx l).nextSeq = 0 ∧ Tab.get false u.hub.outUp l.val = true := by
  have hx : exec (.linkTrainingComplete l t) s = execLinkTrainingComplete l t s := rfl
  unfold execLinkTrainingComplete at hx
  dsimp only at hx
  rw [if_neg (not_not.mpr hst), if_neg (by simp [hlock]; omega), hwant, hpeer] at hx
  simp only [Bool.false_and, Bool.not_false, Bool.false_eq_true, or_false, and_false, if_false, if_neg (Nat.not_lt.mpr hflight)] at hx
  refine runs_of_exec hx ?_
  rw [State.outUp_outputUp, State.link_outputUp, State.lx_outputUp, State.lx_modLx, if_pos rfl, State.link_modLx, State.link_modLink,
    if_pos rfl, State.link_modLink, if_pos rfl]
  exact ⟨rfl, rfl, rfl, rfl, fun p hp => credits_fresh hp, rfl, rfl, rfl⟩

theorem runs_linkTrainingComplete_unlocked {l : LinkId} {s : State} {t : Training} (hst : (s.link l).st = .training)
    (hlock : t.lock = false) :
    Runs (.linkTrainingComplete l t) s fun u => (u.link l).st = .down ∧
      ((s.link l).auto = true → (u.lx l).trainAt = some (s.aonNs + (s.link l).retrainDelay * 1000)) := by
  have hx : exec (.linkTrainingComplete l t) s = execLinkTrainingComplete l t s := rfl
  unfold execLinkTrainingComplete at hx
  dsimp only at hx
  rw [if_neg (not_not.mpr hst), if_pos (Or.inr hlock)] at hx
  refine runs_of_exec hx ⟨?_, fun hauto => ?_⟩
  · rw [State.link_modLx, State.link_modLink, if_pos rfl]
  · rw [State.lx_modLx, if_pos rfl]
    exact if_pos hauto

theorem runs_linkRetrainDelayExpiry {l : LinkId} {s : State} {a : Nat} (hat : (s.lx l).trainAt = some a) (ha : a ≤ s.aonNs)
    (hst : (s.link l).st = .down) (hauto : (s.link l).auto = true) (hen : (s.link l).enable = true) :
    Runs (.linkRetrainDelayExpiry l) s fun t => (t.link l).st = .training ∧ (t.lx l).trainAt = none := by
  have hx : exec (.linkRetrainDelayExpiry l) s = execLinkRetrainDelayExpiry l s := rfl
  unfold execLinkRetrainDelayExpiry at hx
  rw [hat] at hx
  dsimp only at hx
  rw [if_pos ⟨ha, hst, hauto, hen⟩] at hx
  obtain ⟨hst', -, -, htrain⟩ := s.trainStart_trains l
  exact runs_of_exec hx ⟨hst', htrain⟩

/-- A new flight: retraining is due when it has changed by more than 2 ns, and starts when no launch runs (R320). -/
theorem exec_flightRemeasure {l : LinkId} {s : State} (f : Nat) (hup : (s.link l).st = .up) :
    let due := (s.link l).retrainDue || decide ((s.link l).flight + 2 < f ∨ f + 2 < (s.link l).flight)
    let u := s.modLink l fun k => { k with flightNow := f, retrainDue := due }
    exec (.flightRemeasure l f) s = .next (if due && !s.running then u.trainStart l else u) := by
  have hx : exec (.flightRemeasure l f) s = execFlightRemeasure l f s := rfl
  unfold execFlightRemeasure at hx
  dsimp only at hx
  rwa [if_neg (not_not.mpr hup)] at hx

theorem State.swapStart_lane {s : State} {l q i : Nat} (hlane : laneOf (s.link l).laneMap q = some i) (hswap : (s.link l).swap = none) :
    s.swapStart l q = s.modLink l fun k => { k with swap := some { lane := i } } := by
  unfold swapStart
  rw [hlane, hswap]

theorem runs_laneErrorCheck_worst {l : LinkId} {s : State} {q i : Nat}
    (hq : List.find? (fun q => decide ((s.link l).laneLimit < Tab.get 0 (s.link l).laneErrsSec q)) (List.range 9) = some q)
    (hup : (s.link l).st = .up) (hspare : (s.link l).spareUsed = false) (hswap : (s.link l).swap = none)
    (hlane : laneOf (s.link l).laneMap q = some i) :
    Runs (.laneErrorCheck l) s fun t => t.link l = { s.link l with laneErrsSec := [], swap := some { lane := i } } := by
  have hx : exec (.laneErrorCheck l) s = execLaneErrorCheck l s := rfl
  unfold execLaneErrorCheck at hx
  dsimp only at hx
  rw [hq] at hx
  dsimp only at hx
  rw [if_pos ⟨hup, hspare⟩, State.swapStart_lane (i := i) (by simpa using hlane) (by simpa using hswap)] at hx
  refine runs_of_exec hx ?_
  rw [State.link_modLink, if_pos rfl, State.link_modLink, if_pos rfl]

theorem State.link_substituted (s : State) (die unit kind index old new sev : Nat) (code : Err) :
    (s.substituted die unit kind index old new sev code).links = s.links := by
  unfold substituted
  dsimp only
  split
  · exact links_of_outer (outer_raise ..)
  · simp

theorem runs_laneSwap_send {l : LinkId} {s : State} {w : Swap} (hswap : (s.link l).swap = some w) (hup : (s.link l).st = .up)
    (hsent : w.sent = false) (hleft : w.flitsLeft = 0) :
    Runs (.laneSwap l) s fun t => (t.link l).swap = some { w with sent := true, seq := ((s.lx l).nextSeq + 16) % 65536 } ∧
      (t.lx l).ctlUrgent = (s.lx l).ctlUrgent ++ [{ swap := true, swapSeq := ((s.lx l).nextSeq + 16) % 65536, swapLane := w.lane }] := by
  have hx : exec (.laneSwap l) s = execLaneSwap l s := rfl
  unfold execLaneSwap at hx
  dsimp only at hx
  rw [hswap] at hx
  dsimp only at hx
  rw [if_neg (not_not.mpr hup), hsent, Bool.not_false, if_pos rfl, if_pos hleft] at hx
  refine runs_of_exec hx ?_
  rw [State.link_modLx, State.link_modLink, if_pos rfl, State.lx_modLx, if_pos rfl]
  exact ⟨rfl, rfl⟩

theorem runs_laneSwap_done {l : LinkId} {s : State} {w : Swap} (hswap : (s.link l).swap = some w) (hup : (s.link l).st = .up)
    (hsent : w.sent = true) (hpeer : w.peer = false) (hseq : ((s.lx l).nextSeq + 65536 - w.seq) % 65536 < 32768) :
    Runs (.laneSwap l) s fun t => (t.link l).swap = none ∧ (t.link l).spareUsed = true ∧
      (t.link l).laneMap = laneSwapped (s.link l).laneMap w.lane := by
  have hx : exec (.laneSwap l) s = execLaneSwap l s := rfl
  unfold execLaneSwap at hx
  dsimp only at hx
  rw [hswap] at hx
  dsimp only at hx
  rw [if_neg (not_not.mpr hup), hsent, Bool.not_true, if_neg Bool.false_ne_true, hpeer, if_neg Bool.false_ne_true, if_pos hseq] at hx
  unfold State.swapDone at hx
  refine runs_of_exec hx ?_
  rw [State.link, State.link_substituted]
  change ((State.link _ l).swap = none ∧ (State.link _ l).spareUsed = true ∧ (State.link _ l).laneMap = _)
  rw [State.link_modLink, if_pos rfl]
  exact ⟨rfl, rfl, rfl⟩

/-- A write of LINK_CTL that keeps ENABLE off sets the register and does nothing else (R536). -/
theorem State.linkCtl_off {s : State} {l v : Nat} (hold : (s.link l).enable = false) (hen : bit v 0 = false) :
    ((s.linkCtl l v).link l).st = (s.link l).st ∧ (s.linkCtl l v).out = s.out := by
  unfold linkCtl
  dsimp only
  rw [hold, hen, Bool.false_and, if_neg Bool.false_ne_true, Bool.not_false, if_pos rfl, link_modLink, if_pos rfl]
  exact ⟨rfl, rfl⟩

theorem State.linkCtl_disable {s : State} {l v : Nat} (hold : (s.link l).enable = true) (hen : bit v 0 = false) :
    ((s.linkCtl l v).link l).st = .disabled ∧ ((s.linkCtl l v).link l).enable = false ∧ ((s.linkCtl l v).lx l).trainAt = none := by
  unfold linkCtl
  dsimp only
  rw [hold, hen, Bool.not_false, Bool.true_and, if_pos rfl]
  obtain ⟨hst, hen', htrain⟩ := linkDisable_disables (s.modLink l fun k => { k with
    enable := false, wantBoard := bit v 1 && decide (30 ≤ l), auto := bit v 3,
    retrainDelay := if bits v 19 4 = 0 then 1 else bits v 19 4 }) l
  refine ⟨hst, hen'.trans ?_, htrain⟩
  rw [link_modLink, if_pos rfl]

theorem State.linkCtl_retrain {s : State} {l v : Nat} (hen : bit v 0 = true) (hre : bit v 2 = true) :
    ((s.linkCtl l v).link l).st = .training ∧ ((s.linkCtl l v).link l).enable = true := by
  unfold linkCtl
  dsimp only
  rw [hen, hre, Bool.not_true, Bool.and_false, if_neg Bool.false_ne_true, if_neg Bool.false_ne_true, Bool.or_true, if_pos rfl]
  obtain ⟨hst, hen', -, -⟩ := trainStart_trains (s.modLink l fun k => { k with
    enable := true, wantBoard := bit v 1 && decide (30 ≤ l), auto := bit v 3,
    retrainDelay := if bits v 19 4 = 0 then 1 else bits v 19 4 }) l
  refine ⟨hst, hen'.trans ?_⟩
  rw [link_modLink, if_pos rfl]

theorem b2n_le_one (b : Bool) : b2n b ≤ 1 := by cases b <;> decide

theorem bit_zero_of_even {v : Nat} (h : v % 2 = 0) : bit v 0 = false := by
  unfold bit
  rw [Nat.shiftRight_zero]
  exact decide_eq_false (by omega)

theorem bit_zero_of_odd {v : Nat} (h : v % 2 = 1) : bit v 0 = true := by
  unfold bit
  rw [Nat.shiftRight_zero]
  exact decide_eq_true h

theorem bit_two {v : Nat} (h : v / 4 % 2 = 1) : bit v 2 = true := by
  unfold bit
  rw [Nat.shiftRight_eq_div_pow]
  exact decide_eq_true h

/-- Settles O36: each clause runs its command to a state the link rules describe. -/
theorem linksTrainAndSwapLanes : Obligations.LinksTrainAndSwapLanes := by
  unfold Obligations.LinksTrainAndSwapLanes
  intro l s k
  have hwb := b2n_le_one k.wantBoard
  have hauto := b2n_le_one k.auto
  have hclear : exec (.linkCtlEnableClear l) s = .next (s.linkCtl l (2 * b2n k.wantBoard + 8 * b2n k.auto + 16 * k.retrainDelay)) := rfl
  have hretrain : exec (.linkCtlRetrain l) s =
      .next (s.linkCtl l (b2n k.enable + 2 * b2n k.wantBoard + 4 + 8 * b2n k.auto + 16 * k.retrainDelay)) := rfl
  refine ⟨fun t => runs_linkTrainingComplete_up, fun t => runs_linkTrainingComplete_unlocked, fun a => runs_linkRetrainDelayExpiry,
    ?_, ?_, ?_, fun q i => runs_laneErrorCheck_worst, ?_, fun w hw hup => ⟨runs_laneSwap_send hw hup, runs_laneSwap_done hw hup⟩, ?_, ?_, ?_⟩
  · intro f hup hdue hlo hhi
    rw [exec_flightRemeasure f hup, hdue, decide_eq_false (show ¬(k.flight + 2 < f ∨ f + 2 < k.flight) by omega)]
    rfl
  · intro f hup hf
    have hx := exec_flightRemeasure f hup
    rw [decide_eq_true (show k.flight + 2 < f ∨ f + 2 < k.flight from Or.inl hf), Bool.or_true] at hx
    dsimp only at hx
    refine ⟨fun hrun => ?_, fun hrun => ?_⟩
    · rw [hrun, if_neg (by decide)] at hx
      refine runs_of_exec hx ?_
      rw [State.link_modLink, if_pos rfl]
      exact ⟨hup, rfl, rfl⟩
    · rw [hrun, if_pos (by decide)] at hx
      exact runs_of_exec hx (State.trainStart_trains _ _).1
  · intro hq
    have hx : exec (.laneErrorCheck l) s = execLaneErrorCheck l s := rfl
    unfold execLaneErrorCheck at hx
    dsimp only at hx
    rwa [List.find?_eq_none.mpr (fun q hmem => by simpa using hq q (List.mem_range.mp hmem))] at hx
  · intro q i hup hlane
    have hx : exec (.linkSignalLoss l q) s = execLinkSignalLoss l q s := rfl
    unfold execLinkSignalLoss at hx
    dsimp only at hx
    rw [if_neg (not_not.mpr hup), hlane] at hx
    dsimp only at hx
    refine ⟨fun hspare hswap => ?_, fun hspare => ?_⟩
    · rwa [if_neg (by simp [k] at hspare hswap; simp [hspare, hswap]), State.swapStart_lane hlane hswap] at hx
    · rw [if_pos (Or.inl hspare)] at hx
      obtain ⟨hlink, hlx⟩ := State.linkLoss_up 1 hup
      refine runs_of_exec hx ?_
      rw [hlink, hlx]
      exact ⟨rfl, rfl, rfl⟩
  · exact fun hen => runs_of_exec hclear (State.linkCtl_disable hen (bit_zero_of_even (by omega)))
  · intro hen
    rw [hen, b2n] at hretrain
    exact runs_of_exec hretrain (State.linkCtl_retrain (bit_zero_of_odd (by simp; omega)) (bit_two (by simp; omega)))
  · intro hen
    rw [hen, b2n] at hretrain
    exact runs_of_exec hretrain (State.linkCtl_off hen (bit_zero_of_even (by simp; omega)))

end Sys2Proof.Machine

namespace Sys2Proof

/-- Every entry of a table whose entries have all been changed is a changed one. -/
theorem tab_mem_remap {α : Type} [DecidableEq α] {d : α} {f : Nat → α → α} {t : Tab α} {e : Nat × α} (h : e ∈ Tab.remap d f t) :
    e.2 = f e.1 (Tab.get d t e.1) := by
  have hall : ∀ l r : List (Nat × α), e ∈ l.foldl (fun r e => Tab.set d r e.1 (f e.1 (Tab.get d t e.1))) r →
      e.2 = f e.1 (Tab.get d t e.1) ∨ (e ∈ r ∧ ∀ x ∈ l, e.1 ≠ x.1) := by
    intro l
    induction l with
    | nil => exact fun r h => .inr ⟨h, by simp⟩
    | cons a l ih =>
      intro r h
      rcases ih _ h with h | ⟨h, hne⟩
      · exact .inl h
      · rcases tab_mem_set h with rfl | ⟨h, ha⟩
        · exact .inl rfl
        · exact .inr ⟨h, List.forall_mem_cons.mpr ⟨ha, hne⟩⟩
  rcases hall t t h with h | ⟨h, hne⟩
  · exact h
  · exact absurd rfl (hne e h)

/-- Entries set under distinct indices. -/
theorem tab_get_foldl_entries {α β : Type} [DecidableEq α] (d : α) {key : β → Nat} (val : β → α) {l : List β} (hn : (l.map key).Nodup)
    {a : β} (ha : a ∈ l) (t : Tab α) : Tab.get d (l.foldl (fun t e => Tab.set d t (key e) (val e)) t) (key a) = val a := by
  induction l generalizing t with
  | nil => exact absurd ha List.not_mem_nil
  | cons b l ih =>
    rw [List.map_cons] at hn
    obtain ⟨hb, hn⟩ := List.nodup_cons.mp hn
    rcases List.mem_cons.mp ha with rfl | ha
    · have hkeep : ∀ (l : List β) (t : Tab α), key a ∉ l.map key →
          Tab.get d (l.foldl (fun t e => Tab.set d t (key e) (val e)) t) (key a) = Tab.get d t (key a) := by
        intro l
        induction l with
        | nil => exact fun _ _ => rfl
        | cons c l ih =>
          intro t hc
          rw [List.map_cons, List.mem_cons, not_or] at hc
          rw [List.foldl_cons, ih _ hc.2, tab_get_set, if_neg hc.1]
      rw [List.foldl_cons, hkeep _ _ hb, tab_get_set, if_pos rfl]
    · exact ih hn ha _

/-- A field of a slice of bytes. -/
theorem fld_slice {bs : List Byte} {a n o k : Nat} (h : o + k ≤ n) : fld ((bs.drop a).take n) o k = fld bs (a + o) k := by
  rw [fld, List.drop_take, List.take_take, List.drop_drop, Nat.min_eq_left (by omega), fld]

end Sys2Proof

namespace Sys2Proof.Machine

/-! Routing tables, link and window commands, and the flush of an epoch (R327 to R331, R338, R535, R536). -/

section

variable {s : State} {src : Src} {cmd x : Nat} (h : Owner s src cmd x)
include h

theorem Owner.noCtx : s.noCtx x = false := decide_eq_false h.live

theorem Owner.owns : s.owns src x = true := by
  rw [State.owns, decide_eq_true h.mine, Bool.or_true]

theorem Owner.agrees : decide (src.context = x) = true := decide_eq_true h.named

end

/-- A reply touches the transport's sessions alone (R405). -/
theorem State.xp_reply (s : State) (src : Src) (cmd : Nat) (e : Err) (payload : List Byte) :
    (s.reply src cmd e payload).xp = { s.xp with sess := (s.reply src cmd e payload).xp.sess } := by
  unfold State.reply State.post State.queueSeg
  dsimp only
  repeat' split
  all_goals rfl

theorem State.now_of_ft {s t : State} (h : t.ft = s.ft) : t.now = s.now := congrArg Ft.now h

theorem State.ft_linkDown (s : State) (l cause : Nat) (st : LinkSt) (say : Bool) : (s.linkDown l cause st say).ft = s.ft := by
  unfold linkDown
  dsimp only
  split
  · rfl
  · rw [raise_ft, foldl_keeps State.ft (fun t e => ft_of_outer (outer_henReply ..)), modLink_ft, modLx_ft,
      foldl_keeps State.ft (fun t q => ft_of_outer (outer_copyLeaves t q)), ft_of_outer (outer_outputDown ..)]
    split <;> rfl

theorem State.ft_trainStart (s : State) (l : Nat) : (s.trainStart l).ft = s.ft := by
  unfold trainStart
  dsimp only
  rw [modLx_ft, modLink_ft]
  split
  · exact ft_linkDown ..
  · rfl

theorem State.ft_linkDisable (s : State) (l : Nat) : (s.linkDisable l).ft = s.ft := ft_linkDown ..

theorem Routing.ver_setVer_same (r : Routing) (e : Nat) (v : VerSt) : (r.setVer e v).ver e = v := by
  unfold setVer ver
  split <;> rfl

theorem Routing.ver_setVer_other (r : Routing) {e k : Nat} (he : e < 2) (hk : k < 2) (h : k ≠ e) (v : VerSt) :
    (r.setVer e v).ver k = r.ver k := by
  unfold setVer ver
  split <;> split <;> first | rfl | omega

theorem Routing.drained_eq (r : Routing) (e : Nat) : r.drained e = r ∨ (r.ver e = .draining ∧ r.drained e = r.setVer e .loaded) := by
  unfold drained
  split
  case isTrue h => exact .inr ⟨h.1, rfl⟩
  case isFalse => exact .inl rfl

/-- What a version that becomes CURRENT leaves (R331). -/
theorem Routing.commit_spec (r : Routing) {v : Nat} (hv : v < 2) (t : Nat) :
    (r.commit v t).ver v = .current ∧
      (r.ver (1 - v) = .current → (r.commit v t).ver (1 - v) = .draining ∨ (r.commit v t).ver (1 - v) = .loaded) ∧
      (r.commit v t).pending = none ∧ (r.commit v t).lastVersion = v ∧ (r.commit v t).commitTime = t := by
  have hother : 1 - v < 2 := by omega
  have hne : v ≠ 1 - v := by omega
  unfold commit
  dsimp only
  generalize hu : ({ r.setVer v .current with pending := none, lastVersion := v, commitTime := t } : Routing) = u
  have hver (k : Nat) : u.ver k = (r.setVer v .current).ver k := by rw [← hu]; rfl
  have hv' : u.ver v = .current := by rw [hver, ver_setVer_same]
  have hset (k : Nat) (w : VerSt) : (u.setVer k w).pending = none ∧ (u.setVer k w).lastVersion = v ∧ (u.setVer k w).commitTime = t := by
    rw [← hu]
    unfold setVer
    split <;> exact ⟨rfl, rfl, rfl⟩
  by_cases hwas : r.ver (1 - v) = .current
  · rw [decide_eq_true hwas, if_pos rfl]
    rcases (u.setVer (1 - v) .draining).drained_eq (1 - v) with h | ⟨-, h⟩ <;> rw [h]
    · exact ⟨(ver_setVer_other u hother hv hne _).trans hv', fun _ => .inl (ver_setVer_same ..), hset _ _⟩
    · refine ⟨?_, fun _ => .inr (ver_setVer_same ..), ?_⟩
      · rw [ver_setVer_other _ hother hv hne, ver_setVer_other _ hother hv hne, hv']
      · have hdr := hset (1 - v) .draining
        generalize u.setVer (1 - v) .draining = w at hdr ⊢
        unfold setVer
        split <;> exact hdr
  · rw [decide_eq_false hwas, if_neg Bool.false_ne_true]
    exact ⟨hv', fun h => absurd h hwas, by rw [← hu], by rw [← hu], by rw [← hu]⟩

theorem runs_routeCommitTakeEffect {s : State} {v t : Nat} (hp : s.rt.pending = some (v, t)) (hv : v < 2) (ht : t ≤ s.now) :
    Runs .routeCommitTakeEffect s fun u => u = { s with rt := u.rt } ∧ u.rt.ver v = .current ∧
      (s.rt.ver (1 - v) = .current → u.rt.ver (1 - v) = .draining ∨ u.rt.ver (1 - v) = .loaded) ∧
      u.rt.pending = none ∧ u.rt.lastVersion = v ∧ u.rt.commitTime = t := by
  have hx : exec .routeCommitTakeEffect s = execRouteCommitTakeEffect s := rfl
  unfold execRouteCommitTakeEffect at hx
  rw [hp] at hx
  dsimp only at hx
  rw [if_pos ht] at hx
  exact runs_of_exec hx ⟨rfl, s.rt.commit_spec hv t⟩

/-- Entry i of a table written from a payload of n entries of `size` bytes (R327, R328). -/
theorem mem_indexed {size n first i : Nat} (bs : List Byte) (hi : i < n) :
    (first + i, (bs.drop (size * i)).take size) ∈ (entriesOf size n bs).zipIdx.map fun e => (first + e.2, e.1) := by
  refine List.mem_map.mpr ⟨((bs.drop (size * i)).take size, i), ?_, rfl⟩
  rw [List.mk_mem_zipIdx_iff_getElem?, entriesOf, List.getElem?_map, List.getElem?_range hi]
  rfl

theorem indexed_nodup (es : List (List Byte)) (first : Nat) :
    ((es.zipIdx.map fun e => (first + e.2, e.1)).map Prod.fst).Nodup := by
  rw [List.map_map]
  have hcomp : (Prod.fst ∘ fun e : List Byte × Nat => (first + e.2, e.1)) = (fun k => first + k) ∘ Prod.snd := rfl
  rw [hcomp, ← List.map_map, List.zipIdx_map_snd]
  exact List.Nodup.map (fun a b h => Nat.add_left_cancel h) (List.nodup_range' ..)

/-- The tables a write of version v leaves (R327, R328, R331). -/
theorem Routing.write_spec (r : Routing) {v : Nat} (hv : v ≤ 1) (first : Nat) (cont : Bool) (es : List (List Byte))
    (hst : r.ver v = .empty ∨ r.ver v = .loaded) :
    (r.write v first cont es).ver v = .loaded ∧
      (cont = true → (if v = 0 then (r.write v first cont es).cont0 else (r.write v first cont es).cont1) =
        (es.zipIdx.map fun e => (first + e.2, e.1)).foldl (fun t e => Tab.set (0, false) t e.1 (fld e.2 0 12, bit (fld e.2 12 1) 0))
          (if v = 0 then r.cont0 else r.cont1)) ∧
      (cont = false → (if v = 0 then (r.write v first cont es).mc0 else (r.write v first cont es).mc1) =
        (es.zipIdx.map fun e => (first + e.2, e.1)).foldl (fun t e => Tab.set 0 t e.1 (fld e.2 0 8)) (if v = 0 then r.mc0 else r.mc1)) := by
  have hver : (if r.ver v = .empty then r.setVer v .loaded else r).ver v = .loaded := by
    split
    case isTrue => exact ver_setVer_same ..
    case isFalse h => exact hst.resolve_left h
  have htabs : ∀ u, u = (if r.ver v = .empty then r.setVer v .loaded else r) →
      u.cont0 = r.cont0 ∧ u.cont1 = r.cont1 ∧ u.mc0 = r.mc0 ∧ u.mc1 = r.mc1 := by
    rintro u rfl
    unfold setVer
    split
    · split <;> exact ⟨rfl, rfl, rfl, rfl⟩
    · exact ⟨rfl, rfl, rfl, rfl⟩
  unfold write
  dsimp only
  generalize (if r.ver v = .empty then r.setVer v .loaded else r) = u at hver htabs ⊢
  obtain ⟨hc0, hc1, hm0, hm1⟩ := htabs u rfl
  have hv01 : v = 0 ∨ v = 1 := by omega
  rcases hv01 with rfl | rfl <;> cases cont
  · exact ⟨hver, nofun, fun _ => by rw [if_pos rfl, if_pos rfl, ← hm0]; rfl⟩
  · exact ⟨hver, fun _ => by rw [if_pos rfl, if_pos rfl, ← hc0]; rfl, nofun⟩
  · exact ⟨hver, nofun, fun _ => by rw [if_neg one_ne_zero, if_neg one_ne_zero, ← hm1]; rfl⟩
  · exact ⟨hver, fun _ => by rw [if_neg one_ne_zero, if_neg one_ne_zero, ← hc1]; rfl, nofun⟩

theorem runs_routeWrite {s : State} {src : Src} {v table first count : Nat} {es : List Byte} (ha : Admin s src 0x0701)
    (hhub : s.svc.hubIn = true) (hv : v ≤ 1) (htab : table ≤ 1) (hpos : 0 < count) (hcount : count ≤ (if table = 0 then 255 else 511))
    (hlen : es.length = (if table = 0 then 16 else 8) * count) (hst : s.rt.ver v = .empty ∨ s.rt.ver v = .loaded)
    (hfirst : first + count ≤ 4096)
    (hgood : ∀ e ∈ entriesOf (if table = 0 then 16 else 8) count es, routeEntryBad (decide (table = 0)) e = false) :
    Runs (.routeWrite src v table first count 0 es) s fun t => Replied s t src 0x0701 [] ∧ t.rt.ver v = .loaded ∧
      (table = 0 → ∀ i, i < count → Tab.get (0, false) (if v = 0 then t.rt.cont0 else t.rt.cont1) (first + i) =
        (fld es (16 * i) 12, bit (fld es (16 * i + 12) 1) 0)) ∧
      (table = 1 → ∀ i, i < count → Tab.get 0 (if v = 0 then t.rt.mc0 else t.rt.mc1) (first + i) = fld es (8 * i) 8) := by
  have hx : exec (.routeWrite src v table first count 0 es) s = execRouteWrite src v table first count 0 es s := rfl
  unfold execRouteWrite at hx
  dsimp only at hx
  simp only [decide_eq_true_eq] at hx
  generalize hsize : (if table = 0 then 16 else 8) = size at hx hlen hgood
  rw [State.command_runs ha.port ha.admin rfl] at hx
  rotate_left
  · refine firstErr_none fun c hc => ?_
    simp only [List.mem_cons, List.not_mem_nil, or_false] at hc
    rcases hc with rfl | rfl | rfl | rfl | rfl
    · simp [hhub]
    · simp only [decide_eq_false_iff_not, not_or]
      omega
    · rcases hst with h | h <;> simp [h]
    · simpa using hfirst
    · simpa using hgood
  obtain ⟨hver, hcont, hmc⟩ := s.rt.write_spec hv first (decide (table = 0)) (entriesOf size count es) hst
  refine runs_of_exec hx ⟨Replied.of_reply rfl rfl .., ?_⟩
  rw [State.reply_rt]
  refine ⟨hver, fun h i hi => ?_, fun h i hi => ?_⟩
  · rw [hcont (decide_eq_true h)]
    rw [if_pos h] at hsize
    subst hsize
    rw [tab_get_foldl_entries (0, false) (key := Prod.fst) (fun e : Nat × List Byte => (fld e.2 0 12, bit (fld e.2 12 1) 0)) (indexed_nodup ..)
      (mem_indexed es hi)]
    rw [fld_slice (by omega), fld_slice (by omega)]
    rfl
  · rw [hmc (decide_eq_false (by omega))]
    rw [if_neg (by omega)] at hsize
    subst hsize
    rw [tab_get_foldl_entries 0 (key := Prod.fst) (fun e : Nat × List Byte => fld e.2 0 8) (indexed_nodup ..) (mem_indexed es hi)]
    rw [fld_slice (by omega)]
    rfl

theorem runs_routeCommit_later {s : State} {src : Src} {v t : Nat} (ha : Admin s src 0x0702) (hhub : s.svc.hubIn = true) (hv : v ≤ 1)
    (hst : s.rt.ver v = .loaded) (hother : s.rt.ver (1 - v) ≠ .draining) (hp : s.rt.pending = none) (ht : s.now < t) :
    Runs (.routeCommit src v t) s fun u => u.rt = { s.rt with pending := some (v, t), lastVersion := v, commitTime := t } ∧
      Replied s u src 0x0702 (leBytes 1 (if s.rt.v0 = .current then 0 else if s.rt.v1 = .current then 1 else 0xFF)) := by
  have hx : exec (.routeCommit src v t) s = execRouteCommit src v t s := rfl
  unfold execRouteCommit at hx
  dsimp only at hx
  rw [State.command_runs ha.port ha.admin rfl (by simp [firstErr, hhub, hst, hother, hp]; omega), if_neg (by omega)] at hx
  exact runs_of_exec hx ⟨State.reply_rt .., Replied.of_reply rfl rfl ..⟩

theorem runs_routeStatus {s : State} {src : Src} (ha : Admin s src 0x0703) (hhub : s.svc.hubIn = true) :
    Runs (.routeStatus src) s fun t => OnlyReply s t ∧ Replied s t src 0x0703 (leBytes 8 s.rt.status ++ leBytes 8 s.rt.commitTime ++
      (List.range 108).flatMap fun i => leBytes 4 (Tab.get 0 s.rt.counters i)) := by
  have hx : exec (.routeStatus src) s = execRouteStatus src s := rfl
  unfold execRouteStatus at hx
  rw [State.command_runs ha.port ha.admin rfl (by simp [firstErr, hhub])] at hx
  exact runs_of_exec hx ⟨OnlyReply.of_reply .., Replied.of_reply rfl rfl ..⟩

theorem maskLinks_one (l : LinkId) : maskLinks (2 ^ l.val) = [l.val] := by
  revert l
  decide

/-- LINK_SET on one link (R536). -/
theorem runs_linkSet_one {s : State} {src : Src} {l : LinkId} {action : Nat} (ha : Admin s src 0x0704) (hdie : s.dieIn (linkDie l) = true)
    (haction : action ≤ 3) {P : State → Prop}
    (hP : ∀ u : State, u.ft = s.ft → (u.link l).st = (s.link l).st → (u.link l).wantBoard = false →
      ∃ t, u.linkAct l action = (t, .ok) ∧ P (t.reply src 0x0704 .ok [0, 0])) :
    Runs (.linkSet src (2 ^ l.val) action 0) s P := by
  have hx : exec (.linkSet src (2 ^ l.val) action 0) s = execLinkSet src (2 ^ l.val) action 0 s := rfl
  unfold execLinkSet at hx
  have hmask : 2 ^ l.val < 2 ^ 36 := Nat.pow_lt_pow_right (by omega) l.isLt
  rw [maskLinks_one, State.command_runs ha.port ha.admin rfl] at hx
  rotate_left
  · refine firstErr_none fun c hc => ?_
    simp only [List.mem_cons, List.not_mem_nil, or_false] at hc
    rcases hc with rfl | rfl | rfl | rfl
    · rfl
    · simp only [decide_eq_false_iff_not, not_or]
      omega
    · rfl
    · simp [hdie]
  dsimp only at hx
  rw [List.foldl_cons, List.foldl_nil, List.nil_append] at hx
  generalize hu : s.modLink l _ = u at hx
  have hlink : u.link l = { s.link l with wantBoard := false } := by
    rw [← hu, State.link_modLink, if_pos rfl]
    rfl
  obtain ⟨t, ht, hP⟩ := hP u (by rw [← hu]; rfl) (by rw [hlink]) (by rw [hlink])
  rw [ht] at hx
  have hok : leBytes 2 Err.ok.code = [0, 0] := rfl
  dsimp only at hx
  rw [hok] at hx
  exact runs_of_exec hx hP

theorem State.link_reply (s : State) (src : Src) (cmd : Nat) (e : Err) (payload : List Byte) (l : Nat) :
    (s.reply src cmd e payload).link l = s.link l := link_of_outer (outer_reply ..) l

theorem State.linkAct_enable {s : State} {l : Nat} (h : (s.link l).st = .disabled ∨ (s.link l).st = .parked) :
    s.linkAct l 0 = ((s.modLink l fun k => { k with enable := true }).trainStart l, .ok) := if_pos h

theorem State.linkAct_disable {s : State} {l : Nat} (h : (s.link l).st ≠ .disabled) :
    s.linkAct l 1 = ((s.linkDisable l).modLink l fun k => { k with enable := false }, .ok) := if_neg h

theorem State.linkAct_train {s : State} {l : Nat} (hd : (s.link l).st ≠ .disabled) (hp : (s.link l).st ≠ .parked) :
    s.linkAct l 2 = (s.trainStart l, .ok) := if_neg (not_or.mpr ⟨hd, hp⟩)

theorem State.linkAct_park {s : State} {l : Nat} (h : (s.link l).st ≠ .disabled) :
    s.linkAct l 3 = ((s.linkDown l 7 .parked true).modLx l fun x => { x with trainAt := none }, .ok) := if_neg h

section

variable {s : State} {src : Src} {l : LinkId} (ha : Admin s src 0x0704) (hdie : s.dieIn (linkDie l) = true)
include ha hdie

theorem runs_linkSet_enable (hst : (s.link l).st = .disabled ∨ (s.link l).st = .parked) :
    Runs (.linkSet src (2 ^ l.val) 0 0) s fun t => RepliedLast s t src 0x0704 [0, 0] ∧ (t.link l).st = .training ∧
      (t.link l).enable = true ∧ (t.link l).wantBoard = false := by
  refine runs_linkSet_one ha hdie (by omega) fun u hft hu hwant => ?_
  refine ⟨_, State.linkAct_enable (by rwa [hu]), ?_⟩
  rw [State.link_reply]
  obtain ⟨htrain, hen, hwb, -⟩ := (u.modLink l fun k => { k with enable := true }).trainStart_trains l
  rw [State.link_modLink, if_pos rfl] at hen hwb
  exact ⟨RepliedLast.of_reply (by exact State.now_of_ft ((State.ft_trainStart ..).trans hft)) .., htrain, hen, hwb.trans hwant⟩

theorem runs_linkSet_disable (hst : (s.link l).st ≠ .disabled) :
    Runs (.linkSet src (2 ^ l.val) 1 0) s fun t => RepliedLast s t src 0x0704 [0, 0] ∧ (t.link l).st = .disabled ∧
      (t.link l).enable = false := by
  refine runs_linkSet_one ha hdie (by omega) fun u hft hu _ => ?_
  refine ⟨_, State.linkAct_disable (by rwa [hu]), ?_⟩
  rw [State.link_reply, State.link_modLink, if_pos rfl]
  exact ⟨RepliedLast.of_reply (by exact State.now_of_ft ((State.ft_linkDisable ..).trans hft)) .., (State.linkDisable_disables ..).1, rfl⟩

theorem runs_linkSet_train (hd : (s.link l).st ≠ .disabled) (hp : (s.link l).st ≠ .parked) :
    Runs (.linkSet src (2 ^ l.val) 2 0) s fun t => RepliedLast s t src 0x0704 [0, 0] ∧ (t.link l).st = .training := by
  refine runs_linkSet_one ha hdie (by omega) fun u hft hu _ => ?_
  refine ⟨_, State.linkAct_train (by rwa [hu]) (by rwa [hu]), ?_⟩
  rw [State.link_reply]
  exact ⟨RepliedLast.of_reply (by exact State.now_of_ft ((State.ft_trainStart ..).trans hft)) .., (State.trainStart_trains ..).1⟩

theorem runs_linkSet_park (hst : (s.link l).st ≠ .disabled) :
    Runs (.linkSet src (2 ^ l.val) 3 0) s fun t => RepliedLast s t src 0x0704 [0, 0] ∧ (t.link l).st = .parked := by
  refine runs_linkSet_one ha hdie (by omega) fun u hft hu _ => ?_
  refine ⟨_, State.linkAct_park (by rwa [hu]), ?_⟩
  rw [State.link_reply, State.link_modLx]
  exact ⟨RepliedLast.of_reply (by exact State.now_of_ft ((State.ft_linkDown ..).trans hft)) .., (State.link_linkDown ..).1⟩

end

theorem runs_linkStatus {s : State} {src : Src} {l : Nat} (ha : Admin s src 0x0705) (hl : l ≤ 35) (hdie : s.dieIn (linkDie l) = true) :
    Runs (.linkStatus src l) s fun t => OnlyReply s t ∧
      Replied s t src 0x0705 ((List.range 41).flatMap fun i => leBytes 8 ((s.link l).reg i)) := by
  have hx : exec (.linkStatus src l) s = execLinkStatus src l s := rfl
  unfold execLinkStatus at hx
  rw [State.command_runs ha.port ha.admin rfl (by simp [firstErr, hdie]; omega)] at hx
  exact runs_of_exec hx ⟨OnlyReply.of_reply .., Replied.of_reply rfl rfl ..⟩

theorem State.cxx_reply (s : State) (src : Src) (cmd : Nat) (e : Err) (payload : List Byte) (x : Nat) :
    (s.reply src cmd e payload).cxx x = s.cxx x := by
  rw [cxx, reply_ctx, cxx]

theorem runs_windowSet {s : State} {src : Src} {x w rctx route base len e : Nat} (ho : Owner s src 0x0706 x) (hw : w ≤ 255)
    (hrctx : rctx ≤ 4095) (hlen : base + len ≤ 2 ^ 48) (hlive : (s.cx x).st.live = false) (hend : routeEnd route = some e)
    (hlo : 36 ≤ e) (hhi : e < 52) :
    Runs (.windowSet src x w rctx route base len) s fun t => Replied s t src 0x0706 [] ∧
      (Tab.get {} (t.cxx x).windows w : Window) = { ctx := rctx, route := route, base := base, len := len } ∧
      ∀ j, j ≠ w → (Tab.get {} (t.cxx x).windows j : Window) = Tab.get {} (s.cxx x).windows j := by
  have hx : exec (.windowSet src x w rctx route base len) s = execWindowSet src x w rctx route base len s := rfl
  unfold execWindowSet at hx
  dsimp only at hx
  rw [hend, State.command_runs ho.port ho.owns ho.agrees] at hx
  rotate_left
  · refine firstErr_none fun c hc => ?_
    simp only [List.mem_cons, List.not_mem_nil, or_false] at hc
    rcases hc with rfl | rfl | rfl
    · rw [ho.noCtx, Bool.false_or]
      exact decide_eq_false (by omega)
    · simp [hlive]
    · simp [hlo, hhi]
  refine runs_of_exec hx ⟨Replied.of_reply rfl rfl .., ?_⟩
  rw [State.cxx_reply, State.cxx_modCxx, if_pos rfl]
  exact ⟨(tab_get_set ..).trans (if_pos rfl), fun j hj => (tab_get_set ..).trans (if_neg hj)⟩

theorem Hub.drops_release (h : Hub) (d : Nat) : (h.release d).drops = h.drops := by
  unfold release
  dsimp only
  split
  · exact List.foldlRecOn _ _ (motive := fun u : Hub => u.drops = h.drops) rfl fun _ hu _ _ => hu
  · rfl

theorem State.drops_releaseOx (s : State) (d : Nat) : (s.releaseOx d).hub.drops = s.hub.drops := by
  unfold releaseOx
  dsimp only
  rw [copyLeaves_only]
  exact Hub.drops_release ..

/-- What a flushed queue leaves alone: the drops counted, the transport, the trace and time (R338). -/
theorem State.flushQueue_keeps (s : State) (e q : Nat) :
    ((s.flushQueue e q).hub.drops, (s.flushQueue e q).xp, (s.flushQueue e q).out, (s.flushQueue e q).ft) =
      (s.hub.drops, s.xp, s.out, s.ft) := by
  unfold flushQueue
  dsimp only
  refine (foldl_keeps (fun t : State => (t.hub.drops, t.xp, t.out, t.ft)) (fun t x => ?_) _ _).trans rfl
  rw [drops_releaseOx, releaseOx_only]
  split <;> rfl

/-- What the flush of an epoch counts, and what no shaper holds after it (R338). -/
theorem State.epochFlush_spec (s : State) (e : Nat) :
    (s.epochFlush e).1.hub.drops = s.hub.drops + (s.epochFlush e).2 ∧
      (∀ x ∈ (s.epochFlush e).1.xp.shapers, ∀ k ∈ x.2.waiting, k.hdr.epoch ≠ e) ∧
      (s.epochFlush e).1.out = s.out ∧ (s.epochFlush e).1.ft = s.ft := by
  unfold epochFlush
  dsimp only
  generalize hu : List.foldl (fun (s : State) q => s.flushQueue e q) s _ = u
  have hkeep : (u.hub.drops, u.xp, u.out, u.ft) = (s.hub.drops, s.xp, s.out, s.ft) := by
    rw [← hu]
    exact foldl_keeps (fun t : State => (t.hub.drops, t.xp, t.out, t.ft)) (fun t q => flushQueue_keeps t e q) _ _
  simp only [Prod.mk.injEq] at hkeep
  obtain ⟨hdrops, hxp, hout, hft⟩ := hkeep
  refine ⟨by rw [hdrops, Nat.add_assoc], fun x hx k hk => ?_, hout, hft⟩
  rw [tab_mem_remap hx] at hk
  simpa using (List.mem_filter.mp hk).2

theorem runs_epochFlush {s : State} {src : Src} {e : Nat} (ha : Admin s src 0x0707) (hhub : s.svc.hubIn = true) (he : e ≤ 1)
    (hcur : s.rt.ver e ≠ .current) :
    Runs (.epochFlush src e) s fun t => Replied s t src 0x0707 (leBytes 4 (s.epochFlush e).2) ∧
      t.hub.drops = s.hub.drops + (s.epochFlush e).2 ∧ (∀ x ∈ t.xp.shapers, ∀ k ∈ x.2.waiting, k.hdr.epoch ≠ e) := by
  have hx : exec (.epochFlush src e) s = execEpochFlush src e s := rfl
  unfold execEpochFlush at hx
  rw [State.command_runs ha.port ha.admin rfl (by simp [firstErr, hhub, hcur]; omega)] at hx
  obtain ⟨hdrops, hwait, hout, hft⟩ := s.epochFlush_spec e
  refine runs_of_exec hx ⟨Replied.of_reply (State.now_of_ft hft) hout .., ?_, ?_⟩
  · rw [State.reply_hub]
    exact hdrops
  · rw [State.xp_reply]
    exact hwait

/-- Settles O37: one lemma per command. -/
theorem routesAreWrittenAndCommitted : Obligations.RoutesAreWrittenAndCommitted := by
  unfold Obligations.RoutesAreWrittenAndCommitted
  intro src s
  refine ⟨fun v t => runs_routeCommitTakeEffect, fun v table first count es => runs_routeWrite, fun v t => runs_routeCommit_later,
    runs_routeStatus, ?_, fun l => runs_linkStatus, fun x w rctx route base len e => runs_windowSet,
    fun e => runs_epochFlush⟩
  intro l action ha hdie _ st
  exact ⟨fun _ => runs_linkSet_enable ha hdie, fun _ => runs_linkSet_disable ha hdie, fun _ => runs_linkSet_train ha hdie,
    fun _ => runs_linkSet_park ha hdie⟩

end Sys2Proof.Machine

namespace Sys2Proof.Machine

/-! What the end of a period does to its record, its context and its Mules (R76, R353, R364). -/

theorem State.sq_ctx_collEnd (s : State) (b : Nat) : (s.collEnd b).sq = s.sq ∧ (s.collEnd b).ctx = s.ctx := by
  unfold collEnd
  split
  · exact ⟨notice_sq .., notice_ctx ..⟩
  · exact ⟨rfl, rfl⟩

/-- An aborted binding leaves the schedules, their records and the contexts (R304). -/
theorem State.sq_ctx_abortBinding (s : State) (b : Nat) (code : Err) (origin sev : Nat) (data : List Byte) (contrib : Option Nat)
    (ledger : Nat) : ((s.abortBinding b code origin sev data contrib ledger).sq, (s.abortBinding b code origin sev data contrib ledger).ctx) =
      (s.sq, s.ctx) := by
  have hfold : ((List.foldl (fun s d => s.releaseOx d) s (s.bindX b).run.descs).sq,
      (List.foldl (fun s d => s.releaseOx d) s (s.bindX b).run.descs).ctx) = (s.sq, s.ctx) :=
    foldl_keeps (fun t => (t.sq, t.ctx)) (fun t d => by rw [releaseOx_only]) _ s
  unfold abortBinding
  dsimp only
  generalize List.foldl (fun s d => s.releaseOx d) s (s.bindX b).run.descs = u at hfold ⊢
  split
  · rw [(sq_ctx_collEnd ..).1, (sq_ctx_collEnd ..).2, raise_sq, raise_ctx]; exact hfold
  · rw [(sq_ctx_collEnd ..).1, (sq_ctx_collEnd ..).2, raise_sq, raise_ctx]; exact hfold
  · rw [(sq_ctx_collEnd ..).1, (sq_ctx_collEnd ..).2, raise_sq, raise_ctx]; exact hfold
  · split
    · rw [raise_sq, raise_ctx]
      split <;> rfl
    · rfl
  · rfl

/-- The record of a launch whose period ends (R364). -/
def State.endedRec (s : State) (r : Nat) (code : Err) (die unit : Nat) (node : Option Nat) : Rec :=
  { s.lrec r with st := .aborted, code := code, abortPeriod := (s.lrec r).period, abortTime := s.now, die := die, unit := unit,
                  node := node.getD s.node }

theorem State.cx_setCtx (s : State) (x : Nat) (st : CtxSt) (code : Err) (die ltile : Nat) : ((s.setCtx x st code die ltile).cx x).st = st := by
  unfold setCtx
  dsimp only
  rw [cx, notice_ctx]
  change (State.cx (State.modCx _ _ _) x).st = st
  rw [cx_modCx, if_pos rfl]

section

variable {s : State} {r : Nat} (hlive : (s.lrec r).st.live = true) (code : Err) (die unit slot : Nat) (missed : Int) (node : Option Nat)
  (sev : Nat)
include hlive

/-- The period of a live launch ends: the records and the tables of schedules. -/
theorem State.sq_endPeriod : (s.endPeriod r code die unit slot missed node sev).sq =
    { s.sq with recs := Tab.set {} s.sq.recs r (s.endedRec r code die unit node),
                recx := Tab.set {} s.sq.recx r { s.recX r with abortDue := true, remote := decide (sev = 2) },
                aborts := s.sq.aborts + 1 } := by
  unfold endPeriod
  dsimp only
  rw [if_pos hlive, launchEnd_sq, setCtx_sq, raise_sq, foldl_keeps State.sq]
  · rfl
  · intro t e
    split
    · exact congrArg Prod.fst (sq_ctx_abortBinding ..)
    · rfl

theorem State.lrec_endPeriod (k : Nat) : (s.endPeriod r code die unit slot missed node sev).lrec k =
    if k = r then s.endedRec r code die unit node else s.lrec k := by
  rw [lrec, sq_endPeriod hlive]
  dsimp only
  rw [tab_get_set]
  rfl

theorem State.recX_endPeriod : (s.endPeriod r code die unit slot missed node sev).recX r =
    { s.recX r with abortDue := true, remote := decide (sev = 2) } := by
  rw [recX, sq_endPeriod hlive]
  exact (tab_get_set ({} : RecX) s.sq.recx r r _).trans (if_pos rfl)

theorem State.cx_endPeriod : ((s.endPeriod r code die unit slot missed node sev).cx (s.lrec r).ctx).st = .halted := by
  unfold endPeriod
  dsimp only
  rw [if_pos hlive, cx, launchEnd_ctx]
  exact cx_setCtx ..

/-- Every active Mule of the launch halts with SOURCE 4 (R76, R364). -/
theorem State.mule_endPeriod_active {d p : Nat} (hctx : (s.tile d p).mem.ctx = some (s.lrec r).ctx) (hact : (s.tile d p).mule.st.active = true) :
    ((s.endPeriod r code die unit slot missed node sev).tile d p).mule = (s.tile d p).mule.halt code 4 0x1F 0 0 := by
  unfold endPeriod
  dsimp only
  rw [if_pos hlive, mule_launchEnd, tile_of_cds (setCtx_cds ..), tile_of_cds (raise_cds ..), foldl_keeps (fun t : State => t.tile d p)]
  · exact mule_haltLaunch_of_active code hctx hact
  · intro t e
    split
    · rw [tile_of_cds (abortBinding_cds ..)]
    · rfl

end

/-- A period that ends again in the same ns keeps its launch ABORTED, with the same code when the causes agree (R359). -/
theorem State.lrec_endPeriod_again {s : State} {r : Nat} {code : Err} (hst : (s.lrec r).st = .aborted) (hcode : (s.lrec r).code = code)
    (die unit slot : Nat) (missed : Int) (node : Option Nat) (sev : Nat) :
    ((s.endPeriod r code die unit slot missed node sev).lrec r).st = .aborted ∧
      ((s.endPeriod r code die unit slot missed node sev).lrec r).code = code := by
  unfold endPeriod
  dsimp only
  rw [if_neg (by simp [hst, RecSt.live])]
  split
  · rw [lrec, raise_sq]
    change (State.lrec (State.modRec _ r _) r).st = _ ∧ (State.lrec (State.modRec _ r _) r).code = _
    rw [lrec_modRec, if_pos rfl]
    split
    · exact ⟨hst, rfl⟩
    · exact ⟨hst, hcode⟩
  · exact ⟨hst, hcode⟩

/-- The end of a period leaves the records of other launches (R364). -/
theorem State.lrec_endPeriod_other (s : State) {r k : Nat} (hk : k ≠ r) (code : Err) (die unit slot : Nat) (missed : Int)
    (node : Option Nat) (sev : Nat) : (s.endPeriod r code die unit slot missed node sev).lrec k = s.lrec k := by
  by_cases hlive : (s.lrec r).st.live = true
  · rw [lrec_endPeriod hlive, if_neg hk]
  · unfold endPeriod
    dsimp only
    rw [if_neg hlive]
    split
    · rw [lrec, raise_sq]
      change State.lrec (State.modRec _ r _) k = _
      rw [lrec_modRec, if_neg hk]
      rfl
    · rfl

/-- Every scheduled launch that was live is ABORTED with E_SCHED_LATE (R346). -/
theorem State.lrec_endScheduled {s : State} {r : Nat} (hlive : (s.lrec r).st.live = true) :
    (s.endScheduled.lrec r).st = .aborted ∧ (s.endScheduled.lrec r).code = .schedLate := by
  have hmem : (r, s.lrec r) ∈ s.sq.recs := by
    rcases tab_get_mem {} s.sq.recs r with h | h
    · exact h
    · exact absurd hlive (by rw [lrec, h]; decide)
  have hfold : ∀ (l : List (Nat × Rec)) (t : State),
      ((t.lrec r).st.live = true ∧ (r, s.lrec r) ∈ l) ∨ ((t.lrec r).st = .aborted ∧ (t.lrec r).code = .schedLate) →
      ((l.foldl (fun s e => if e.2.st.live then s.endPeriod e.1 .schedLate 23 0x02 else s) t).lrec r).st = .aborted ∧
        ((l.foldl (fun s e => if e.2.st.live then s.endPeriod e.1 .schedLate 23 0x02 else s) t).lrec r).code = .schedLate := by
    intro l
    induction l with
    | nil => exact fun t h => h.resolve_left fun h => List.not_mem_nil h.2
    | cons e l ih =>
      intro t h
      rw [List.foldl_cons]
      refine ih _ ?_
      by_cases he : e.1 = r
      · split
        · rcases h with ⟨h, -⟩ | ⟨hst, hcode⟩
          · rw [he, lrec_endPeriod h, if_pos rfl]
            exact .inr ⟨rfl, rfl⟩
          · rw [he]
            exact .inr (lrec_endPeriod_again hst hcode ..)
        case isFalse hne =>
          refine h.imp_left fun ⟨h, hm⟩ => ⟨h, ?_⟩
          rcases List.mem_cons.mp hm with rfl | hm
          · exact absurd hlive hne
          · exact hm
      · have hsame : (if e.2.st.live = true then t.endPeriod e.1 .schedLate 23 0x02 else t).lrec r = t.lrec r := by
          split
          · exact lrec_endPeriod_other t (Ne.symm he) ..
          · rfl
        rw [hsame]
        refine h.imp_left fun ⟨h, hm⟩ => ⟨h, ?_⟩
        rcases List.mem_cons.mp hm with rfl | hm
        · exact absurd rfl he
        · exact hm
  exact hfold _ s (.inl ⟨hlive, hmem⟩)

theorem State.outer_endScheduled (s : State) : s.endScheduled.outer = s.outer := by
  refine foldl_keeps State.outer (fun t e => ?_) _ s
  split
  · exact outer_endPeriod ..
  · rfl

/-! Fabric time (R26, R341 to R347). -/

/-- What R344 says once changes the fabric time unit's notes and the log. -/
theorem State.timeComplaints_keeps (s : State) :
    s.timeComplaints.ft = { s.ft with saidRoot := s.timeComplaints.ft.saidRoot, saidDist := s.timeComplaints.ft.saidDist } ∧
      s.timeComplaints.links = s.links ∧ s.timeComplaints.pins = s.pins ∧ s.timeComplaints.sq = s.sq := by
  unfold timeComplaints
  dsimp only
  split <;> split <;> simp

theorem State.peerLink_of {s t : State} (hl : t.links = s.links) : t.peerLink = s.peerLink := by
  funext m l
  unfold peerLink link
  rw [hl]

theorem State.presentPeers_of {s t : State} (hl : t.links = s.links) (hp : t.pins = s.pins) : t.presentPeers = s.presentPeers := by
  simp only [presentPeers, boardLinks, peerLink_of hl, hp]

theorem State.syncMaster_of {s t : State} (hl : t.links = s.links) (hp : t.pins = s.pins) (hu : t.ft.useSync = s.ft.useSync) :
    t.syncMaster = s.syncMaster := by
  simp only [syncMaster, presentPeers_of hl hp, boardLinks, peerLink_of hl, hp, hu]

theorem State.syncListener_of {s t : State} (hl : t.links = s.links) (hp : t.pins = s.pins) (hu : t.ft.useSync = s.ft.useSync)
    (hs : t.ft.silent = s.ft.silent) : t.syncListener = s.syncListener := by
  simp only [syncListener, syncDriver, presentPeers_of hl hp, hp, hu, hs]

/-- What a parent cell finds once its candidate is noted: the device's own time and links (R343, R344). -/
structure State.TimeBefore (s u : State) (l : Nat) (c : Cand) : Prop where
  st : u.ft.st = s.ft.st
  limit : u.ft.limit = s.ft.limit
  due : u.ft.due = s.ft.due
  slews : u.ft.slews = s.ft.slews
  steps : u.ft.steps = s.ft.steps
  now : u.ft.now = s.ft.now
  parent : u.ft.parent = some l
  offset : u.ft.offset = offSat c.offset
  stepped : s.ft.stepped = false → u.ft.stepped = false
  recs : u.sq = s.sq
  master : u.syncMaster = s.syncMaster

/-- A good cell of the parent is followed (R343, R344). -/
theorem State.timeCell_parent {s : State} {l : Nat} {c : TimeCell} {p : Cand} (hcrc : c.tcrc = crc16 (timeCellBytes c))
    (hup : (s.link l).st = .up) (hfail : s.ft.failed = false) (hroot : s.ft.ctlRoot = false) (hlisten : s.syncListener = false)
    {target : Nat} (htarget : target = c.txTime + (s.link l).flight + 32) {k : Cand}
    (hk : k = { locked := c.locked, dist := c.dist, root := c.rootNode, offset := (target : Int) - s.now, at_ := s.now })
    (hbest : (State.timeComplaints { s with ft := { s.ft with cands := Tab.put s.ft.cands l k } }).bestParent = some (l, p)) :
    ∃ u, s.TimeBefore u l k ∧ s.timeCell l c = u.parentCell ((target : Int) - s.now) target false := by
  unfold timeCell
  dsimp only
  rw [if_neg (by simp [hcrc, hup, hfail]), if_neg (by simp [hroot]), ← htarget, ← hk]
  obtain ⟨hft, hlinks, hpins, hsq⟩ := timeComplaints_keeps { s with ft := { s.ft with cands := Tab.put s.ft.cands l k } }
  generalize State.timeComplaints _ = t at hbest hft hlinks hpins hsq ⊢
  have hft' : t.ft = { s.ft with cands := Tab.put s.ft.cands l k, saidRoot := t.ft.saidRoot, saidDist := t.ft.saidDist } := hft
  have hl : t.syncListener = false := (syncListener_of hlinks hpins (by rw [hft']) (by rw [hft'])).trans hlisten
  rw [hl, hbest]
  dsimp only
  rw [if_neg (not_not.mpr rfl)]
  generalize hv : (if t.ft.parent ≠ some l ∧ t.ft.st ≠ .locked then { t with ft := { t.ft with stepped := false, run16 := 0 } } else t) = v
  have hvft : v = { t with ft := { t.ft with stepped := v.ft.stepped, run16 := v.ft.run16 } } := by
    rw [← hv]
    split <;> rfl
  have hstep : s.ft.stepped = false → v.ft.stepped = false := by
    intro h
    rw [← hv]
    split
    · rfl
    · rw [hft']; exact h
  have hmaster : (v.follow l k false).syncMaster = s.syncMaster :=
    syncMaster_of (by rw [hvft]; exact hlinks) (by rw [hvft]; exact hpins) (by rw [hvft]; exact (congrArg Ft.useSync hft' :))
  refine ⟨v.follow l k false, ⟨?_, ?_, ?_, ?_, ?_, ?_, rfl, rfl, hstep, ?_, hmaster⟩, rfl⟩
  · rw [hvft]; exact (congrArg Ft.st hft' :)
  · rw [hvft]; exact (congrArg Ft.limit hft' :)
  · rw [hvft]; exact (congrArg Ft.due hft' :)
  · rw [hvft]; exact (congrArg Ft.slews hft' :)
  · rw [hvft]; exact (congrArg Ft.steps hft' :)
  · rw [hvft]; exact (congrArg Ft.now hft' :)
  · rw [hvft]; exact hsq

/-- ACQUIRING is entered whatever the unit was (R346). -/
theorem State.ft_acquire (s : State) : s.acquire.ft = { s.ft with st := .acquiring, stepped := false, run16 := 0 } := by
  unfold acquire
  dsimp only
  rw [ft_of_outer (outer_endScheduled _)]
  split
  · rw [raise_ft]
  · rfl

theorem State.parentCell_slew {u : State} {o : Int} {target : Nat} (hst : u.ft.st = .locked) (hlo : 1 ≤ o) (hhi : o ≤ u.ft.limit)
    (hmaster : u.syncMaster = false) :
    u.parentCell o target false = { u with ft := { u.ft with due := u.ft.due ++ [(u.now, 1)], slews := u.ft.slews + 1 } } := by
  have hslew : u.parentCell o target false = u.slew 1 := by
    unfold parentCell
    dsimp only
    rw [hst, decide_eq_true (show o.natAbs ≤ u.ft.limit by omega)]
    dsimp only
    rw [if_neg (by decide), if_neg (by decide), if_pos hlo]
  rw [hslew, slew, hmaster, Bool.false_and, if_neg Bool.false_ne_true]

theorem State.parentCell_acquire {u : State} {o : Int} {target : Nat} (hst : u.ft.st = .locked) (hhi : (u.ft.limit : Int) < o) :
    (u.parentCell o target false).ft.st = .acquiring := by
  unfold parentCell
  dsimp only
  rw [hst, decide_eq_false (show ¬o.natAbs ≤ u.ft.limit by omega)]
  dsimp only
  rw [if_pos (by decide), ft_acquire]

theorem State.parentCell_step {u : State} {o : Int} {target : Nat} (hst : u.ft.st = .free) (hstep : u.ft.stepped = false)
    (hrecs : ∀ e ∈ u.sq.recs, e.2.st.live = false) :
    (u.parentCell o target false).ft.now = target ∧ (u.parentCell o target false).ft.steps = sat 32 (u.ft.steps + 1) ∧
      (u.parentCell o target false).ft.lastStep = (target : Int) - u.now ∧ (u.parentCell o target false).ft.st = .acquiring := by
  have hany : (u.sq.recs.any fun e => e.2.st.live) = false := by simpa using hrecs
  unfold parentCell
  dsimp only
  rw [hst]
  dsimp only
  rw [hstep, Bool.not_false, if_pos rfl, hany, if_neg Bool.false_ne_true, raise_ft]
  exact ⟨rfl, rfl, rfl, rfl⟩

/-- Settles O38: a cell of the parent acts as the state of the unit says (R344 to R346). -/
theorem fabricTimeFollowsItsParent : Obligations.FabricTimeFollowsItsParent := by
  unfold Obligations.FabricTimeFollowsItsParent
  intro s
  refine ⟨fun l hup => ?_, fun l c hcrc => ?_, ?_, ?_, ?_, rfl⟩
  · have hx : exec (.timeCellSend l) s = execTimeCellSend l s := rfl
    rwa [execTimeCellSend, if_pos hup] at hx
  · have hx : exec (.timeCell l c) s = .next (s.timeCell l c) := rfl
    rwa [State.timeCell, if_pos (Or.inl hcrc)] at hx
  · intro l c p hcrc hup hfail hroot target o k s1 hlisten hbest
    obtain ⟨u, hu, hcell⟩ := State.timeCell_parent hcrc hup hfail hroot hlisten (target := target) rfl (k := k) rfl hbest
    have hx : exec (.timeCell l c) s = .next (u.parentCell o target false) := congrArg Host.Outcome.next hcell
    have hnow : u.now = s.now := hu.now
    refine ⟨fun hst hlo hhi hmaster => runs_of_exec hx ?_, fun hst hhi => runs_of_exec hx ?_, fun hst hstep hrecs => runs_of_exec hx ?_⟩
    · rw [State.parentCell_slew (hu.st.trans hst) hlo (by rw [hu.limit]; exact hhi) (hu.master.trans hmaster)]
      exact ⟨by rw [hu.due, hnow], by rw [hu.slews], hu.st.trans hst, hu.parent, hu.offset, hu.now⟩
    · exact State.parentCell_acquire (hu.st.trans hst) (by rw [hu.limit]; exact hhi)
    · obtain ⟨hn, hsteps, hlast, hst'⟩ := State.parentCell_step (o := o) (target := target) (hu.st.trans hst) (hu.stepped hstep)
        (by rw [hu.recs]; exact hrecs)
      exact ⟨hn, by rw [hsteps, hu.steps], by rw [hlast, hnow], hst'⟩
  · intro hst hroot hlast hlisten hbest
    have hx : exec .parentLossTimeout s = execParentLossTimeout s := rfl
    rwa [execParentLossTimeout, if_pos ⟨hst, hroot, hlast, Or.inl hlisten⟩, State.reparent, hbest] at hx
  · intro r hst hfrom hlive
    have hx : exec .holdoverTimeout s = execHoldoverTimeout s := rfl
    rw [execHoldoverTimeout, if_pos ⟨hst, hfrom⟩] at hx
    exact runs_of_exec hx (State.lrec_endScheduled hlive)

end Sys2Proof.Machine

namespace Sys2Proof.Machine

/-! The SYNC line and the time commands (R336, R347, R369, R520). -/

/-- A parent chosen among the links keeps what the unit knows of SYNC (R347). -/
theorem State.silent_reparent (s : State) : s.reparent.ft.silent = s.ft.silent := by
  unfold reparent
  split
  · rfl
  · dsimp only
    split
    · rfl
    · rw [ft_acquire]
      rfl

section

variable {s : State} (hm : s.syncMaster = true) (hl : s.timeLocked = true)
include hm hl

theorem exec_syncPulseDrive_mark (hnow : s.now % 2 ^ 20 = 0) :
    exec (.syncPulseDrive .mark false) s = .next { s with ft := { s.ft with silent := false }, out := .pulse .mark :: s.out } := by
  have hx : exec (.syncPulseDrive .mark false) s = execSyncPulseDrive .mark false s := rfl
  unfold execSyncPulseDrive at hx
  rw [if_neg (by simp [hm, hl]), if_neg Bool.false_ne_true] at hx
  dsimp only at hx
  rwa [if_pos hnow] at hx

theorem exec_syncPulseDrive_add {rest : List Int} (howed : s.ft.owed = 1 :: rest) (hnear : nearMark s.now = false) :
    exec (.syncPulseDrive .add false) s =
      .next { s with ft := { s.ft with silent := false, owed := rest, due := s.ft.due ++ [(s.now, 1)] }, out := .pulse .add :: s.out } := by
  have hx : exec (.syncPulseDrive .add false) s = execSyncPulseDrive .add false s := rfl
  unfold execSyncPulseDrive at hx
  rw [if_neg (by simp [hm, hl]), if_neg Bool.false_ne_true, howed] at hx
  dsimp only at hx
  rwa [if_pos ⟨rfl, hnear⟩] at hx

theorem exec_syncPulseDrive_hold {rest : List Int} (howed : s.ft.owed = -1 :: rest) (hnear : nearMark s.now = false) :
    exec (.syncPulseDrive .hold false) s =
      .next { s with ft := { s.ft with silent := false, owed := rest, due := s.ft.due ++ [(s.now, -1)] }, out := .pulse .hold :: s.out } := by
  have hx : exec (.syncPulseDrive .hold false) s = execSyncPulseDrive .hold false s := rfl
  unfold execSyncPulseDrive at hx
  rw [if_neg (by simp [hm, hl]), if_neg Bool.false_ne_true, howed] at hx
  dsimp only at hx
  rwa [if_pos ⟨rfl, hnear⟩] at hx

/-- A master that sees another's edge stops driving (R520). -/
theorem runs_syncPulseDrive_foreign (k : Pulse) (hs : s.ft.silent = false) :
    Runs (.syncPulseDrive k true) s fun t => t.ft = { s.ft with silent := true } ∧ t.out = s.out := by
  have hx : exec (.syncPulseDrive k true) s = execSyncPulseDrive k true s := rfl
  unfold execSyncPulseDrive at hx
  rw [if_neg (by simp [hm, hl]), if_pos rfl, if_neg (by simp [hs])] at hx
  exact runs_of_exec hx ⟨State.raise_ft .., State.raise_out ..⟩

end

theorem exec_syncPulseReceive_short {s : State} {w : Nat} (a : Nat) (hu : s.ft.useSync = true) (hd : s.syncDriver.isSome = true)
    (hf : s.ft.failed = false) (hs : s.ft.silent = false) (hw : w < 44) :
    exec (.syncPulseReceive w a) s = .next { s with ft := { s.ft with
      due := s.ft.due ++ [(a + 32, if w < 16 then 1 else -1)], slews := s.ft.slews + 1 } } := by
  have hnone : s.syncDriver.isNone = false := by rw [← Option.not_isSome, hd, Bool.not_true]
  have hx : exec (.syncPulseReceive w a) s = execSyncPulseReceive w a s := rfl
  unfold execSyncPulseReceive at hx
  rwa [if_neg (by simp [hu, hnone, hf]), if_pos hw, if_neg (by simp [hs])] at hx

theorem runs_syncMarkMissed {s : State} (hl : s.syncListener = true) (hm : s.ft.marked + 3 * 2 ^ 20 ≤ s.now) :
    Runs .syncMarkMissed s fun t => t.ft.silent = true ∧ (s.ft.st ≠ .locked → t = { s with ft := { s.ft with silent := true } }) := by
  have hx : exec .syncMarkMissed s = execSyncMarkMissed s := rfl
  unfold execSyncMarkMissed at hx
  rw [if_pos ⟨hl, hm⟩] at hx
  refine runs_of_exec hx ⟨?_, fun h => if_neg h⟩
  split
  · rw [State.silent_reparent]
  · rfl

theorem runs_timeStatus {s : State} {src : Src} (hport : s.portAdmits src 0x0806 = true) (hhd : s.svc.hdIn = true) :
    Runs (.timeStatus src) s fun t => OnlyReply s t ∧
      Replied s t src 0x0806 ((List.range 8).flatMap fun k => leBytes 8 (s.ftReg k)) := by
  have hx : exec (.timeStatus src) s = execTimeStatus src s := rfl
  unfold execTimeStatus at hx
  rw [State.command_runs hport rfl rfl (by simp [firstErr, hhd])] at hx
  exact runs_of_exec hx ⟨OnlyReply.of_reply .., Replied.of_reply rfl rfl ..⟩

theorem State.armed_running_of_anyLaunch {s : State} (h : s.anyLaunch = false) :
    (s.ctx.tab.any fun e => decide (e.2.st = .armed ∨ e.2.st = .running)) = false := by
  rw [List.any_eq_false]
  intro e he hst
  refine (List.any_eq_false.mp h) e he ?_
  rcases of_decide_eq_true hst with h | h <;> rw [h] <;> rfl

theorem runs_timeSet {s : State} {src : Src} {a : Nat} (ha : Admin s src 0x0807) (hhd : s.svc.hdIn = true) (hroot : s.ft.ctlRoot = true)
    (hset : s.ft.wasSet = false) (hlaunch : s.anyLaunch = false) :
    Runs (.timeSet src a) s fun t => t.ft = { s.ft with now := a, wasSet := true } ∧
      t.out.head? = some (.mailbox src.oob { ctrl := src.ctrl, mailbox := src.mbox, flags := 1, command := 0x0807, seq := src.seq, status := 0,
                                             context := src.context, time := a, payload := [] }) := by
  have hx : exec (.timeSet src a) s = execTimeSet src a s := rfl
  unfold execTimeSet at hx
  rw [State.command_runs ha.port ha.admin rfl] at hx
  rotate_left
  · rw [State.armed_running_of_anyLaunch hlaunch]
    simp [firstErr, hhd, hroot, hset]
  refine runs_of_exec hx ⟨State.reply_ft .., ?_⟩
  rw [State.out_reply_ok]
  rfl

/-- Settles O39: one lemma per event and command. -/
theorem theSyncLineAndTimeCommands : Obligations.TheSyncLineAndTimeCommands := by
  unfold Obligations.TheSyncLineAndTimeCommands
  intro src s
  exact ⟨fun hm hl => ⟨exec_syncPulseDrive_mark hm hl, fun rest => exec_syncPulseDrive_add hm hl, fun rest => exec_syncPulseDrive_hold hm hl,
    fun k => runs_syncPulseDrive_foreign hm hl k⟩, fun w a hu hd hf hs => exec_syncPulseReceive_short a hu hd hf hs, runs_syncMarkMissed,
    runs_timeStatus, fun a => runs_timeSet⟩

end Sys2Proof.Machine

namespace Sys2Proof.Machine

/-! Launches that start (R72, R240, R350, R409, R414). -/

theorem State.mem_allTiles {s : State} {d p x : Nat} (h : (s.tile d p).mem.ctx = some x) : (d, p, s.tile d p) ∈ s.allTiles := by
  have hne : s.tile d p ≠ {} := fun heq => by rw [heq] at h; cases h
  have htile : (p, s.tile d p) ∈ (s.cd d).tiles := (tab_get_mem ({} : Tile) (s.cd d).tiles p).resolve_right hne
  have hcd : (d, s.cd d) ∈ s.cds := by
    refine (tab_get_mem ({} : ComputeDie) s.cds d).resolve_right fun heq => ?_
    have heq' : s.cd d = {} := heq
    rw [heq'] at htile
    exact List.not_mem_nil htile
  exact List.mem_flatMap.mpr ⟨_, hcd, List.mem_map.mpr ⟨_, htile, rfl⟩⟩

theorem State.mem_ctxTiles {s : State} {d p x : Nat} (h : (s.tile d p).mem.ctx = some x) : (d, p) ∈ s.ctxTiles x :=
  List.mem_map.mpr ⟨_, List.mem_filter.mpr ⟨mem_allTiles h, decide_eq_true h⟩, rfl⟩

theorem Prog.uses_nodup (g : Prog) : g.uses.Nodup := by
  unfold uses
  rw [List.nodup_flatMap]
  refine ⟨fun d _ => List.Nodup.map (fun a b h => congrArg Prod.snd h) List.nodup_range, ?_⟩
  refine List.Pairwise.imp ?_ (List.nodup_range.filter _)
  intro a b hab t ha hb
  obtain ⟨i, -, rfl⟩ := List.mem_map.mp ha
  obtain ⟨j, -, hj⟩ := List.mem_map.mp hb
  exact hab (congrArg Prod.fst hj).symm

section

variable (f : Nat × Nat → Tile → Tile)

/-- Change the tiles a list names by die and logical tile. -/
def State.startEach (s : State) (l : List (Nat × Nat)) : State :=
  l.foldl (fun s t => s.modTile t.1 ((s.cd t.1).map.phys t.2) (f t)) s

theorem State.startEach_only (s : State) (l : List (Nat × Nat)) : s.startEach f l = { s with cds := (s.startEach f l).cds } :=
  State.foldl_only (R := fun s t : State => t = { s with cds := t.cds }) (fun _ => rfl)
    (fun s t u h h' => by rw [h', h]) (fun _ _ => rfl) l s

theorem State.tile_startEach_other {s : State} {d q : Nat} {l : List (Nat × Nat)} (h : ∀ j, (d, j) ∈ l → (s.cd d).map.phys j ≠ q) :
    (s.startEach f l).tile d q = s.tile d q := by
  induction l generalizing s with
  | nil => rfl
  | cons t l ih =>
    rw [startEach, List.foldl_cons, ← startEach, ih]
    · rw [tile_modTile, if_neg]
      rintro ⟨rfl, hq⟩
      exact h t.2 List.mem_cons_self hq.symm
    · intro j hj
      rw [map_modTile]
      exact h j (List.mem_cons_of_mem _ hj)

/-- A tile that one entry of the list names is changed once. -/
theorem State.tile_startEach {s : State} {d i : Nat} {l : List (Nat × Nat)} (hn : l.Nodup) (hm : (d, i) ∈ l)
    (hone : ∀ j, (d, j) ∈ l → (s.cd d).map.phys j = (s.cd d).map.phys i → j = i) :
    (s.startEach f l).tile d ((s.cd d).map.phys i) = f (d, i) (s.tile d ((s.cd d).map.phys i)) := by
  induction l generalizing s with
  | nil => exact absurd hm List.not_mem_nil
  | cons t l ih =>
    obtain ⟨ht, hn⟩ := List.nodup_cons.mp hn
    rw [startEach, List.foldl_cons, ← startEach]
    rcases List.mem_cons.mp hm with rfl | hm
    · rw [tile_startEach_other]
      · rw [tile_modTile, if_pos ⟨rfl, rfl⟩]
      · intro j hj heq
        rw [map_modTile] at heq
        rw [hone j (List.mem_cons_of_mem _ hj) heq] at hj
        exact ht hj
    · have hstep := ih (s := s.modTile t.1 ((s.cd t.1).map.phys t.2) (f t)) hn hm (by
        intro j hj
        rw [map_modTile]
        exact hone j (List.mem_cons_of_mem _ hj))
      rw [map_modTile] at hstep
      rw [hstep, tile_modTile, if_neg]
      rintro ⟨hd, hp⟩
      subst hd
      have : t.2 = i := hone t.2 List.mem_cons_self hp.symm
      subst this
      exact ht hm

end

/-- The tiles of a fresh launch start at their entry PCs (R72). -/
theorem State.startTiles_fresh {s : State} {x : Nat} {g : Prog} (hr : (s.cxx x).resume = false) (hg : (s.cxx x).prog = some g) :
    s.startTiles x = s.startEach (fun t k => k.start (g.entry.getD t.2 0) (bit g.flags 0) (s.cxx x).debug) g.uses := by
  unfold startTiles
  dsimp only
  rw [hr, if_neg Bool.false_ne_true, hg, Option.getD_some]
  rfl

/-- A launch with a Mule that runs is not done (R409). -/
theorem State.checkDone_running {s : State} {x d p : Nat} (hctx : (s.tile d p).mem.ctx = some x) (hrun : (s.tile d p).mule.st = .run) :
    s.checkDone x = s := by
  unfold checkDone
  dsimp only
  refine if_neg ?_
  rintro ⟨-, -, -, hall⟩
  have hd := List.all_eq_true.mp hall _ (List.mem_filter.mpr ⟨mem_allTiles hctx, decide_eq_true hctx⟩)
  rw [decide_eq_true_eq, hrun] at hd
  cases hd

theorem State.ctxTiles_of_cds {s t : State} (h : t.cds = s.cds) (x : Nat) : t.ctxTiles x = s.ctxTiles x := by
  unfold ctxTiles allTiles
  rw [h]

/-- A period that starts: what it notes before a launch without tiles here ends with it (R351, R368). -/
theorem State.startPeriod_notes (s : State) (r p n a mask : Nat) :
    ∃ u : State, s.startPeriod r p n a mask = (if s.ctxTiles (s.lrec r).ctx = [] ∧ (s.lrec r).last ≤ p then u.launchDone r else u) ∧
      (u.cds = s.cds ∧ u.hub = s.hub ∧ u.ctx = s.ctx) ∧
      ((u.lrec r).st = (s.lrec r).st ∧ (u.lrec r).ctx = (s.lrec r).ctx ∧ (u.lrec r).period = p ∧ (u.lrec r).nominal = n ∧
        (u.lrec r).lambda = a - n ∧ (u.lrec r).peak = max (s.lrec r).peak (a - n)) ∧
      (u.recX r).actual = a ∧ (u.recX r).taken = (s.recX r).taken := by
  unfold startPeriod
  extract_lets k x lam late first starts w src w' peak v u
  have hwrec : w.lrec r = { s.lrec r with
      period := p, nominal := n, lambda := a - n, peak := max (s.lrec r).peak (a - n), lates := (w.lrec r).lates, lateNow := (w.lrec r).lateNow,
      slack := (w.lrec r).slack } := by
    rw [lrec_modRec, if_pos rfl]
  have hvk : (v.cds = s.cds ∧ v.hub = s.hub ∧ v.ctx = s.ctx) ∧ v.lrec r = w.lrec r ∧ v.recX r = s.recX r := by
    have hraise (data : List Byte) :
        ((w'.raise 23 0x03 1 .ok data k.ctx).cds = s.cds ∧ (w'.raise 23 0x03 1 .ok data k.ctx).hub = s.hub ∧
          (w'.raise 23 0x03 1 .ok data k.ctx).ctx = s.ctx) ∧ (w'.raise 23 0x03 1 .ok data k.ctx).lrec r = w.lrec r ∧
          (w'.raise 23 0x03 1 .ok data k.ctx).recX r = s.recX r := by
      refine ⟨⟨raise_cds .., raise_hub .., raise_ctx ..⟩, ?_, ?_⟩
      · rw [lrec, raise_sq]
        rfl
      · rw [recX, raise_sq]
        rfl
    unfold v
    split
    · exact hraise _
    · split
      · exact hraise _
      · exact ⟨⟨rfl, rfl, rfl⟩, rfl, rfl⟩
  obtain ⟨⟨hcds, hhub, hctx⟩, hrec, hrx⟩ := hvk
  have htiles : u.ctxTiles k.ctx = s.ctxTiles k.ctx := ctxTiles_of_cds hcds _
  rw [htiles]
  refine ⟨u, rfl, ⟨hcds, hhub, hctx⟩, ?_, ?_⟩
  · rw [lrec_modRecX, hrec, hwrec]
    exact ⟨rfl, rfl, rfl, rfl, rfl, rfl⟩
  · rw [recX_modRecX, if_pos rfl, hrx]
    exact ⟨rfl, rfl⟩

theorem State.cxx_setCtx (s : State) (x k : Nat) (st : CtxSt) (code : Err) (die ltile : Nat) :
    (s.setCtx x st code die ltile).cxx k = s.cxx k := by
  unfold setCtx
  dsimp only
  rw [cxx, notice_ctx]
  rfl

section

variable {x : Fin 4096} {s : State} {g : Prog} {d i : Nat} (harm : (s.cx x).st = .armed) (hresume : (s.cxx x).resume = false)
  (hprog : (s.cxx x).prog = some g) (huse : (d, i) ∈ g.uses)
  (hone : ∀ j, (d, j) ∈ g.uses → (s.cd d).map.phys j = (s.cd d).map.phys i → j = i)
  (hctx : (s.tile d ((s.cd d).map.phys i)).mem.ctx = some x.val)
include hresume hprog huse hone

/-- The tile of a launch that starts, from a state with the same dies and the same program. -/
theorem State.tile_startTiles {u : State} (hcds : u.cds = s.cds) (hcxx : (u.cxx x).resume = (s.cxx x).resume ∧ (u.cxx x).prog = (s.cxx x).prog) :
    (u.startTiles x).tile d ((s.cd d).map.phys i) =
      (s.tile d ((s.cd d).map.phys i)).start (g.entry.getD i 0) (bit g.flags 0) (u.cxx x).debug := by
  have hcd (k : Nat) : u.cd k = s.cd k := by rw [cd, hcds, cd]
  rw [startTiles_fresh (hcxx.1.trans hresume) (hcxx.2.trans hprog), ← hcd, tile_startEach _ g.uses_nodup huse (by rwa [hcd]),
    tile_of_cds hcds]

include harm hctx

/-- An unscheduled launch at its time (R409, R414). -/
theorem State.runs_launchStart_free {a : Nat} (hrec : s.liveRec? x = none) (ht : (s.cxx x).t0 = some a) (ha : a ≤ s.now) :
    Runs (.launchStart x) s fun t => (t.cx x).st = .running ∧ (t.tile d ((s.cd d).map.phys i)).mule.st = .run ∧
      (t.tile d ((s.cd d).map.phys i)).mule.pc = BitVec.ofNat 64 (g.entry.getD i 0) ∧
      (t.tile d ((s.cd d).map.phys i)).mule.bank = !(s.tile d ((s.cd d).map.phys i)).mule.bank ∧
      ∀ r, (t.tile d ((s.cd d).map.phys i)).mule.x r = (s.tile d ((s.cd d).map.phys i)).mule.x r := by
  have hx : exec (.launchStart x) s = execLaunchStart x s := rfl
  unfold execLaunchStart at hx
  rw [if_neg (not_not.mpr harm), hrec, ht] at hx
  dsimp only at hx
  rw [if_neg (by omega)] at hx
  unfold startFree at hx
  generalize hu : State.setCtx _ _ _ = u at hx
  have hucds : u.cds = s.cds := by
    rw [← hu, setCtx_cds]
    rfl
  have hucxx : (u.cxx x).resume = (s.cxx x).resume ∧ (u.cxx x).prog = (s.cxx x).prog := by
    rw [← hu, cxx_setCtx, cxx_modCxx, if_pos rfl]
    exact ⟨rfl, rfl⟩
  have htile := tile_startTiles hresume hprog huse hone hucds hucxx
  have hst : ((u.startTiles x).cx x).st = .running := by
    rw [startTiles_fresh (hucxx.1.trans hresume) (hucxx.2.trans hprog), startEach_only, ← hu]
    exact cx_setCtx ..
  rw [checkDone_running (d := d) (p := (s.cd d).map.phys i) (by rw [htile]; exact hctx) (by rw [htile]; rfl)] at hx
  refine runs_of_exec hx ⟨hst, ?_⟩
  rw [htile]
  exact ⟨rfl, rfl, rfl, fun _ => rfl⟩

/-- A launch with a schedule at its T0: its reservations are taken and period P0 has started (R240, R350, R351). -/
theorem State.runs_launchStart_scheduled {r : Nat} (hrec : s.liveRec? x = some r) (hrctx : (s.lrec r).ctx = x.val) (ha : (s.lrec r).t0 ≤ s.now) :
    Runs (.launchStart x) s fun t =>
      (t.cx x).st = .running ∧ (t.lrec r).st = .running ∧ (t.lrec r).period = (s.lrec r).p0 ∧ (t.lrec r).nominal = (s.lrec r).t0 ∧
      (t.recX r).actual = (s.lrec r).t0 ∧ (t.recX r).taken = true ∧ t.hub = s.hub.reserve (s.recX r).rsvs ∧
      (t.tile d ((s.cd d).map.phys i)).mule.st = .run ∧
      (t.tile d ((s.cd d).map.phys i)).mule.pc = BitVec.ofNat 64 (g.entry.getD i 0) := by
  have hx : exec (.launchStart x) s = execLaunchStart x s := rfl
  unfold execLaunchStart at hx
  rw [if_neg (not_not.mpr harm), hrec] at hx
  dsimp only at hx
  rw [if_neg (by omega)] at hx
  generalize hv : State.modRec _ r _ = v at hx
  have hvrec : v.lrec r = { s.lrec r with st := .running } := by
    rw [← hv, lrec_modRec, if_pos rfl]
    rfl
  have hvx : (v.recX r).taken = true := by
    rw [← hv, recX_modRec, recX_modRecX, if_pos rfl]
  have hvk : v.cds = s.cds ∧ v.hub = s.hub.reserve (s.recX r).rsvs ∧ ∀ k, v.cxx k = s.cxx k := by
    rw [← hv]
    exact ⟨rfl, rfl, fun _ => rfl⟩
  obtain ⟨hvcds, hvhub, hvcxx⟩ := hvk
  generalize hu : State.setCtx _ _ _ = u at hx
  have hucds : u.cds = s.cds := by rw [← hu, setCtx_cds, hvcds]
  have hucxx : (u.cxx x).resume = (s.cxx x).resume ∧ (u.cxx x).prog = (s.cxx x).prog := by
    rw [← hu, cxx_setCtx, hvcxx]
    exact ⟨rfl, rfl⟩
  have husq : u.sq = v.sq ∧ u.hub = v.hub := by
    rw [← hu]
    exact ⟨setCtx_sq .., setCtx_hub ..⟩
  have hust : (u.cx x).st = .running := by
    rw [← hu]
    exact cx_setCtx ..
  have htile := tile_startTiles hresume hprog huse hone hucds hucxx
  have honly := startTiles_fresh (hucxx.1.trans hresume) (hucxx.2.trans hprog)
  rw [startEach_only] at honly
  generalize u.startTiles x = w at hx htile honly
  have hwrec : w.lrec r = { s.lrec r with st := .running } := by
    rw [honly, ← hvrec, lrec, husq.1, lrec]
  have hwx : (w.recX r).taken = true := by
    rw [honly, recX, husq.1]
    exact hvx
  have hwhub : w.hub = s.hub.reserve (s.recX r).rsvs := by rw [honly, ← hvhub, ← husq.2]
  have hwst : (w.cx x).st = .running := by
    rw [honly]
    exact hust
  obtain ⟨t, hstart, ⟨hcds, hhub, hctx'⟩, ⟨hst, -, hperiod, hnominal, -, -⟩, hactual, htaken⟩ :=
    w.startPeriod_notes r (s.lrec r).p0 (s.lrec r).t0 (s.lrec r).t0 0
  have htiles : (d, (s.cd d).map.phys i) ∈ w.ctxTiles (w.lrec r).ctx := by
    refine mem_ctxTiles ?_
    rw [htile, hwrec]
    exact hctx.trans (congrArg some hrctx.symm)
  rw [if_neg (fun h => List.ne_nil_of_mem htiles h.1)] at hstart
  rw [hstart] at hx
  refine runs_of_exec hx ⟨?_, ?_, hperiod, hnominal, hactual, htaken.trans hwx, hhub.trans hwhub, ?_⟩
  · rw [cx, hctx']
    exact hwst
  · rw [hst, hwrec]
  · rw [tile_of_cds hcds, htile]
    exact ⟨rfl, rfl⟩

end

/-- Settles O40: an unscheduled launch, and one with a schedule. -/
theorem launchesStartAtTheirTime : Obligations.LaunchesStartAtTheirTime := by
  unfold Obligations.LaunchesStartAtTheirTime
  intro x s g d i harm hresume hprog huse hone p hctx
  exact ⟨fun a => State.runs_launchStart_free harm hresume hprog huse hone hctx,
    fun r => State.runs_launchStart_scheduled harm hresume hprog huse hone hctx⟩

end Sys2Proof.Machine

namespace Sys2Proof.Machine

/-! Periods that start, and the end of a launch everywhere (R304, R351 to R353, R359, R362, R364, R365). -/

/-- A launch that ends cleanly keeps the measures of its last period and the work of every tile (R352, R366). -/
theorem State.launchDone_keeps (s : State) (r : Nat) :
    (s.launchDone r).lrec r = { s.lrec r with st := .ended } ∧ ((s.launchDone r).recX r).actual = (s.recX r).actual ∧
      ∀ d p, (s.tile d p).SameWork ((s.launchDone r).tile d p) := by
  unfold launchDone
  dsimp only
  have hsq (u : State) (x : Nat) (st : CtxSt) (f : CtxX → CtxX) : (((u.modCxx x f).setCtx x st).launchEnd x).sq = u.sq := by
    rw [launchEnd_sq, setCtx_sq]
    rfl
  have hrel (u : State) : (u.schedRelease r).lrec r = u.lrec r ∧ ((u.schedRelease r).recX r).actual = (u.recX r).actual := by
    unfold schedRelease
    dsimp only
    rw [lrec_modRecX, recX_modRecX, if_pos rfl]
    exact ⟨rfl, rfl⟩
  refine ⟨?_, ?_, fun d p => ?_⟩
  · rw [lrec, hsq]
    change (State.schedRelease _ r).lrec r = _
    rw [(hrel _).1, lrec_modRec, if_pos rfl]
  · rw [recX, hsq]
    change ((State.schedRelease _ r).recX r).actual = _
    rw [(hrel _).2, recX_modRec]
  · refine Tile.SameWork.trans (sameWork_of_cds ?_ d p) (sameWork_launchEnd _ _ d p)
    rw [setCtx_cds]
    rfl

/-- A period that starts: its measures, and the work of every tile (R351, R368). -/
theorem State.startPeriod_spec (s : State) (r p n a mask : Nat) :
    (((s.startPeriod r p n a mask).lrec r).period = p ∧ ((s.startPeriod r p n a mask).lrec r).nominal = n ∧
      ((s.startPeriod r p n a mask).lrec r).lambda = a - n ∧
      ((s.startPeriod r p n a mask).lrec r).peak = max (s.lrec r).peak (a - n) ∧ ((s.startPeriod r p n a mask).recX r).actual = a) ∧
      ∀ d q, (s.tile d q).SameWork ((s.startPeriod r p n a mask).tile d q) := by
  obtain ⟨u, hstart, ⟨hcds, -, -⟩, ⟨-, -, hperiod, hnominal, hlambda, hpeak⟩, hactual, -⟩ := s.startPeriod_notes r p n a mask
  rw [hstart]
  split
  · obtain ⟨hrec, hx, htile⟩ := u.launchDone_keeps r
    rw [hrec, hx]
    exact ⟨⟨hperiod, hnominal, hlambda, hpeak, hactual⟩, fun d q => (sameWork_of_cds hcds d q).trans (htile d q)⟩
  · exact ⟨⟨hperiod, hnominal, hlambda, hpeak, hactual⟩, sameWork_of_cds hcds⟩

/-- A Mule that waits after PSYNC goes on with the next period (R352). -/
def Tile.psyncOver (x : Nat) (t : Tile) : Tile :=
  if t.mem.ctx = some x ∧ t.mem.wait = .psync then
    { t with mule := { t.mule with st := if t.mule.st = .wait then .run else t.mule.st }, mem := { t.mem with wait := .none } }
  else t

theorem State.tile_remapTiles (s : State) {f : Tile → Tile} (hf : f {} = {}) (d p : Nat) :
    (s.remapTiles fun _ _ t => f t).tile d p = f (s.tile d p) := by
  simp only [remapTiles, tile, cd]
  rw [tab_get_remap _ _ _ _ (by rfl), tab_get_remap _ _ _ _ hf]

theorem exec_periodStart {r : Fin 16} {refresh replay : Bool} {s : State} {n a : Nat} (hn : n = s.nominal r ((s.lrec r).period + 1))
    (ha : a = max n (s.recX r).finish) (hruns : (s.lrec r).st.runs = true) (hwait : (s.recX r).waiting = [])
    (hlast : (s.lrec r).period < (s.lrec r).last) (hnow : a ≤ s.now) (hlag : a ≤ n + (s.lrec r).lag) :
    ∃ (u : State) (mask : Nat), u.lrec r = s.lrec r ∧ u.cds = s.cds ∧ exec (.periodStart r refresh replay) s =
      .next ((u.startPeriod r ((s.lrec r).period + 1) n a mask).remapTiles fun _ _ t => t.psyncOver (s.lrec r).ctx) := by
  have hx : exec (.periodStart r refresh replay) s = execPeriodStart r refresh replay s := rfl
  unfold execPeriodStart at hx
  dsimp only at hx
  rw [← hn, ← ha, if_neg] at hx
  · refine ⟨_, _, ?_, ?_, hx⟩ <;> split <;> rfl
  · rw [hruns, hwait]
    simp only [not_or]
    exact ⟨by decide, by simp, by omega, by omega, by omega⟩

theorem Tile.psyncOver_waiting {x : Nat} {t : Tile} (hctx : t.mem.ctx = some x) (hpsync : t.mem.wait = .psync) (hst : t.mule.st = .wait) :
    (t.psyncOver x).mule.st = .run ∧ (t.psyncOver x).mem.wait = .none := by
  rw [psyncOver, if_pos ⟨hctx, hpsync⟩, if_pos hst]
  exact ⟨rfl, rfl⟩

theorem Tile.psyncOver_other {x : Nat} {t : Tile} (hctx : t.mem.ctx ≠ some x) : t.psyncOver x = t := if_neg fun h => hctx h.1

/-- Settles O41: a start of the period follows its record, its Mules waiting after PSYNC and the lateness recorded. -/
theorem periodsStartInTime : Obligations.PeriodsStartInTime := by
  unfold Obligations.PeriodsStartInTime
  intro r refresh replay s k n a hruns hwait hlast hnow hlag
  obtain ⟨u, mask, hrec, hcds, hx⟩ :=
    exec_periodStart (refresh := refresh) (replay := replay) (n := n) (a := a) rfl rfl hruns hwait hlast hnow hlag
  obtain ⟨⟨hperiod, hnominal, hlambda, hpeak, hactual⟩, htile⟩ := u.startPeriod_spec r (k.period + 1) n a mask
  rw [hrec] at hpeak
  generalize u.startPeriod r (k.period + 1) n a mask = v at hx hperiod hnominal hlambda hpeak hactual htile
  have hover (d p : Nat) : (v.remapTiles fun _ _ t => t.psyncOver k.ctx).tile d p = (v.tile d p).psyncOver k.ctx :=
    v.tile_remapTiles rfl d p
  have hwork (d p : Nat) : (s.tile d p).SameWork (v.tile d p) := (State.sameWork_of_cds hcds d p).trans (htile d p)
  refine runs_of_exec hx ⟨hperiod, hnominal, hlambda, hpeak, hactual, fun d p hctx hpsync hst => ?_, fun d p hctx => ?_⟩
  · rw [hover]
    exact Tile.psyncOver_waiting (by rw [(hwork d p).mem, hctx]) (by rw [(hwork d p).mem, hpsync]) (by rw [(hwork d p).mule, hst])
  · rw [hover, Tile.psyncOver_other (by rw [(hwork d p).mem]; exact hctx)]
    exact ⟨(hwork d p).mule, (hwork d p).mem⟩

theorem RecSt.live_of_runs {st : RecSt} (h : st.runs = true) : st.live = true := by
  cases st <;> first | rfl | exact absurd h (by decide)

/-- The edge of a period passes before it has started (R353). -/
theorem runs_periodLagTimeout {r : Fin 16} {s : State} (hruns : (s.lrec r).st.runs = true) (hlast : (s.lrec r).period < (s.lrec r).last)
    (hnow : s.nominal r ((s.lrec r).period + 1) + (s.lrec r).lag < s.now)
    (hwait : (s.recX r).waiting ≠ [] ∨ s.nominal r ((s.lrec r).period + 1) + (s.lrec r).lag < (s.recX r).finish) :
    Runs (.periodLagTimeout r) s fun t =>
      (t.lrec r).st = .aborted ∧ (t.lrec r).code = .schedLate ∧ (t.lrec r).abortPeriod = (s.lrec r).period ∧ (t.lrec r).abortTime = s.now ∧
      (t.lrec r).node = s.node ∧ (t.recX r).abortDue = true ∧ (t.cx (s.lrec r).ctx).st = .halted ∧ t.sq.aborts = s.sq.aborts + 1 ∧
      ∀ d p, (s.tile d p).mem.ctx = some (s.lrec r).ctx → (s.tile d p).mule.st.active = true →
        (t.tile d p).mule.st = .haltFault ∧ (t.tile d p).mule.faultCode = .schedLate ∧ (t.tile d p).mule.faultSource = 4 := by
  have hx : exec (.periodLagTimeout r) s = execPeriodLagTimeout r s := rfl
  have hhears : s.recHears r = true := by
    unfold State.recHears
    dsimp only
    rw [hruns, Bool.true_or]
  have hlive := RecSt.live_of_runs hruns
  unfold execPeriodLagTimeout at hx
  dsimp only at hx
  generalize hedge : s.nominal r ((s.lrec r).period + 1) + (s.lrec r).lag = edge at hx hnow hwait
  rw [if_neg] at hx
  rotate_left
  · rw [hhears]
    simp only [not_or, not_and]
    refine ⟨by decide, by omega, by omega, fun hw => ?_⟩
    have := hwait.resolve_left (not_not.mpr hw)
    omega
  refine runs_of_exec hx ?_
  rw [State.lrec_endPeriod hlive, if_pos rfl, State.recX_endPeriod hlive, State.sq_endPeriod hlive]
  refine ⟨rfl, rfl, rfl, rfl, rfl, rfl, State.cx_endPeriod hlive .., rfl, fun d p hctx hact => ?_⟩
  rw [State.mule_endPeriod_active hlive _ _ _ _ _ _ _ hctx hact]
  exact ⟨rfl, rfl, rfl⟩

/-- A SCHED_ABORT that falls due (R364, R365). -/
theorem exec_schedAbortSend {r : Fin 16} {s : State} (hdue : (s.recX r).abortDue = true) :
    exec (.schedAbortSend r) s = .next (if s.hub.up = true then
      (s.modRecX r fun x => { x with abortDue := false }).enterHub 52
        (s.packet { net := 1, cls := 2, mc := true, route := 2 ^ 96 - 1, ctx := (s.schedOf r).groupCtx, kind := 0x46,
                    period := (s.lrec r).abortPeriod % 65536, group := (s.schedOf r).abortGroup }
          (leBytes 8 (s.lrec r).schedId ++ leBytes 8 (s.lrec r).t0 ++ leBytes 8 (s.lrec r).abortPeriod ++ leBytes 4 (s.lrec r).node ++
            leBytes 2 (s.lrec r).code.code ++ [BitVec.ofNat 8 (s.lrec r).die, BitVec.ofNat 8 (s.lrec r).unit])) 0
      else s.modRecX r fun x => { x with abortDue := false }) := by
  have hx : exec (.schedAbortSend r) s = execSchedAbortSend r s := rfl
  unfold execSchedAbortSend at hx
  dsimp only at hx
  rwa [hdue, Bool.not_true, if_neg Bool.false_ne_true] at hx

section

variable {r : Fin 16} {s : State} {m : Packet} {v : Rec} (hkind : m.hdr.kind = 0x46) (hhd : s.svc.hdIn = true) (hpoison : m.poison = false)
  (hcrc : crc32 m.payload = m.crc)
  (hfind : List.find? (fun e => decide (e.2.st ≠ .free) && (Tab.get {} s.sq.scheds e.2.ctx).groupCtx == m.hdr.ctx &&
    e.2.schedId == fld m.payload 0 8 && e.2.t0 == fld m.payload 8 8) s.sq.recs = some (r.val, v))
include hkind hhd hpoison hcrc hfind

theorem exec_schedAbortPacket_found : exec (.schedAbortPacket m) s = if v.st.live = true then
      .next (s.endPeriod r (Err.ofCode (fld m.payload 28 2)) (fld m.payload 30 1) (fld m.payload 31 1) (node := some (fld m.payload 24 4))
        (sev := 2))
    else if v.st = .aborted then .next { s with sq := { s.sq with dups := sat 32 (s.sq.dups + 1) } } else .next s := by
  have hx : exec (.schedAbortPacket m) s = execSchedAbortPacket m s := rfl
  unfold execSchedAbortPacket at hx
  dsimp only at hx
  rwa [if_neg (by simp [hkind, hhd, hpoison]), if_neg (not_not.mpr hcrc), hfind] at hx

/-- A SCHED_ABORT of the group ends the period here (R365). -/
theorem runs_schedAbortPacket (hv : v = s.lrec r) (hlive : (s.lrec r).st.live = true) :
    Runs (.schedAbortPacket m) s fun t => (t.lrec r).st = .aborted ∧ (t.lrec r).code = Err.ofCode (fld m.payload 28 2) ∧
      (t.lrec r).node = fld m.payload 24 4 ∧ (t.cx (s.lrec r).ctx).st = .halted := by
  have hx := exec_schedAbortPacket_found hkind hhd hpoison hcrc hfind
  rw [hv, if_pos hlive] at hx
  refine runs_of_exec hx ?_
  rw [State.lrec_endPeriod hlive, if_pos rfl]
  exact ⟨rfl, rfl, rfl, State.cx_endPeriod hlive ..⟩

theorem exec_schedAbortPacket_again (hst : v.st = .aborted) :
    exec (.schedAbortPacket m) s = .next { s with sq := { s.sq with dups := sat 32 (s.sq.dups + 1) } } := by
  rw [exec_schedAbortPacket_found hkind hhd hpoison hcrc hfind, if_neg (by rw [hst]; decide), if_pos hst]

end

theorem runs_launchResourcesRelease {r : Fin 16} {s : State} (hst : (s.lrec r).st = .aborted) (hruns : s.lrRuns (s.lrec r).ctx = false) :
    Runs (.launchResourcesRelease r) s fun t => (t.recX r).taken = false ∧ (t.recX r).lines = 0 ∧
      t.ox.reserved = s.ox.reserved - (s.recX r).lines ∧
      t.hub = if (s.recX r).taken then s.hub.unreserve (s.recX r).rsvs else s.hub := by
  have hx : exec (.launchResourcesRelease r) s = execLaunchResourcesRelease r s := rfl
  unfold execLaunchResourcesRelease State.schedRelease at hx
  dsimp only at hx
  rw [if_pos ⟨hst, hruns⟩] at hx
  refine runs_of_exec hx ?_
  rw [State.recX_modRecX, if_pos rfl]
  exact ⟨rfl, rfl, rfl, rfl⟩

/-- Settles O42: one lemma per event. -/
theorem aSchedulePeriodEndsEverywhere : Obligations.ASchedulePeriodEndsEverywhere := by
  unfold Obligations.ASchedulePeriodEndsEverywhere
  intro r s k
  refine ⟨runs_periodLagTimeout, fun hdue hup => ?_, fun hdue hup => ?_, fun m v hkind hhd hpoison hcrc hfind => ⟨?_, ?_⟩,
    runs_launchResourcesRelease⟩
  · rw [exec_schedAbortSend hdue, if_neg (by rw [hup]; decide)]
  · rw [exec_schedAbortSend hdue, if_pos hup]
  · exact runs_schedAbortPacket hkind hhd hpoison hcrc hfind
  · exact exec_schedAbortPacket_again hkind hhd hpoison hcrc hfind

end Sys2Proof.Machine

namespace Sys2Proof.Machine

/-! Slots: data in window and order, the consume time, and scheduled fetches (R354 to R358, R360). -/

theorem State.slots_modSlot (s : State) (d e : Nat) (f : SlotE → SlotE) :
    ((s.modSlot d e f).cd d).slots = { (s.cd d).slots with entries := Tab.modify {} (s.cd d).slots.entries e f } := by
  rw [modSlot, cd_modCd, if_pos rfl]

theorem State.tile_modSlot (s : State) (d e : Nat) (f : SlotE → SlotE) (k p : Nat) : (s.modSlot d e f).tile k p = s.tile k p :=
  tile_modCd d fun _ => rfl

section

variable {d : CdId} {s : State} {k : Packet} {arrival r i : Nat} {e : SlotE} (hkind : k.hdr.kind = 0x10) (hin : s.dieIn d = true)
  (hpoison : k.poison = false) (hcrc : crc32 k.payload = k.crc) (hrec : s.groupRec k.hdr.ctx = some r)
  (hfind : (s.cd d).slots.find (s.lrec r).ctx (fld k.payload 0 2 % 4096) = some (i, e)) (hslot : e.kind = 1)
include hkind hin hpoison hcrc hrec hfind hslot

/-- Slot data that misses its window, its order or its period ends the period (R356). -/
theorem runs_slotData_fault {c : Err} {m : Int}
    (hfault : s.slotFault r e k.hdr.period arrival (fld k.payload 4 4) (k.payload.drop 16).length = some (c, m))
    (hlive : (s.lrec r).st.live = true) :
    Runs (.slotData d k arrival) s fun t => (t.lrec r).st = .aborted ∧ (t.lrec r).code = c ∧ (t.lrec r).die = d.val ∧
      (t.lrec r).unit = 0x28 := by
  have hx : exec (.slotData d k arrival) s = execSlotData d k arrival s := rfl
  unfold execSlotData at hx
  dsimp only at hx
  rw [if_neg (by simp [hkind, hin, hpoison]), if_neg (not_not.mpr hcrc), hrec] at hx
  dsimp only at hx
  rw [hfind, Option.filter_some, if_pos (by simp [hslot])] at hx
  dsimp only at hx
  rw [hfault] at hx
  refine runs_of_exec hx ?_
  rw [State.lrec_endPeriod hlive, if_pos rfl]
  exact ⟨rfl, rfl, rfl, rfl⟩

/-- Slot data in its window and in order is written, and fills its slot with its last byte (R356). -/
theorem runs_slotData_taken
    (hfault : s.slotFault r e k.hdr.period arrival (fld k.payload 4 4) (k.payload.drop 16).length = none)
    (hruns : (s.lrec r).st.runs = true) (hoff : fld k.payload 4 4 = e.received) (hos : e.os = true)
    (hget : (Tab.get {} (s.cd d).slots.entries i : SlotE) = e) :
    Runs (.slotData d k arrival) s fun t => OnlyCd s t d ∧
      (t.tile d ((s.cd d).map.phys e.tile)).os =
        Mem.writeN (s.tile d ((s.cd d).map.phys e.tile)).os (e.base + fld k.payload 4 4) (k.payload.drop 16) ∧
      (Tab.get {} (t.cd d).slots.entries i : SlotE).received = fld k.payload 4 4 + (k.payload.drop 16).length ∧
      ((Tab.get {} (t.cd d).slots.entries i : SlotE).filled = true ↔
        e.filled = true ∨ (fld k.payload 4 4 + (k.payload.drop 16).length = e.length ∧ e.gap = false)) ∧
      (t.cd d).slots.arrivals = (s.cd d).slots.arrivals + 1 := by
  have hx : exec (.slotData d k arrival) s = execSlotData d k arrival s := rfl
  unfold execSlotData at hx
  dsimp only at hx
  rw [if_neg (by simp [hkind, hin, hpoison]), if_neg (not_not.mpr hcrc), hrec] at hx
  dsimp only at hx
  rw [hfind, Option.filter_some, if_pos (by simp [hslot])] at hx
  dsimp only at hx
  rw [hfault] at hx
  dsimp only at hx
  rw [hruns, Bool.not_true, if_neg Bool.false_ne_true, if_neg (by omega)] at hx
  unfold State.slotWrite at hx
  rw [if_pos hos] at hx
  dsimp only [HenEnd.collErr] at hx
  generalize hu : State.modTile _ _ _ _ = u at hx
  have hus : (u.cd d).slots = (s.cd d).slots := by
    rw [← hu, State.modTile, State.cd_modCd, if_pos rfl]
  have huonly : OnlyCd s u d := by
    rw [← hu]
    exact s.onlyCd_modCd ..
  have huos : (u.tile d ((s.cd d).map.phys e.tile)).os =
      Mem.writeN (s.tile d ((s.cd d).map.phys e.tile)).os (e.base + fld k.payload 4 4) (k.payload.drop 16) := by
    rw [← hu, State.tile_modTile, if_pos ⟨rfl, rfl⟩]
  generalize hw : State.modSlot _ _ _ _ = w at hx
  have hwonly : OnlyCd s w d := by
    rw [← hw]
    exact huonly.trans (u.onlyCd_modCd ..)
  have hwtile : w.tile d ((s.cd d).map.phys e.tile) = u.tile d ((s.cd d).map.phys e.tile) := by
    rw [← hw, State.tile_modSlot]
  have hwslots : (w.cd d).slots.arrivals = (s.cd d).slots.arrivals ∧
      (Tab.get {} (w.cd d).slots.entries i : SlotE).received = fld k.payload 4 4 + (k.payload.drop 16).length ∧
      ((Tab.get {} (w.cd d).slots.entries i : SlotE).filled = true ↔
        e.filled = true ∨ (fld k.payload 4 4 + (k.payload.drop 16).length = e.length ∧ e.gap = false)) := by
    rw [← hw, State.slots_modSlot, hus]
    dsimp only
    rw [tab_get_modify, if_pos rfl, hget, hoff]
    exact ⟨rfl, rfl, by simp⟩
  obtain ⟨harr, hreceived, hfilled⟩ := hwslots
  refine runs_of_exec hx ⟨hwonly.trans (w.onlyCd_modCd ..), ?_, ?_⟩
  · rw [State.tile_modCd, hwtile, huos]
    exact fun _ => rfl
  · rw [State.cd_modCd, if_pos rfl]
    exact ⟨hreceived, hfilled, congrArg (· + 1) harr⟩

end

/-- What happens at the consume time of a slot entry (R358). -/
theorem exec_slotConsume {d : CdId} {n : Fin 4096} {s : State} {r a : Nat}
    (hrec : (List.find? (fun r => r.2.ctx == (Tab.get {} (s.cd d).slots.entries n.val : SlotE).ctx && s.recHears r.1) s.sq.recs).map (·.1) = some r)
    (hkind : (Tab.get {} (s.cd d).slots.entries n.val : SlotE).kind ≠ 0)
    (hstart : s.startOf r (Tab.get {} (s.cd d).slots.entries n.val : SlotE).next = some a)
    (ha : a + (Tab.get {} (s.cd d).slots.entries n.val : SlotE).consume ≤ s.now) (hruns : (s.lrec r).st.runs = true) {e : SlotE}
    (he : Tab.get {} (s.cd d).slots.entries n.val = e) :
    exec (.slotConsume d n) s = .next (if (e.armed && e.filled) = true then
      (s.modSlot d n fun v => { v with armed := false, filled := false, gap := false, received := 0, next := v.next + v.step }).modCd d
        fun c => { c with slots := { c.slots with consumed := c.slots.consumed + 1 } }
      else (s.slotHalt d e.tile (if e.armed then .schedUnderrun else .schedLate)).endPeriod r
        (if e.armed then .schedUnderrun else .schedLate) d 0x28 e.slot) := by
  have hx : exec (.slotConsume d n) s = execSlotConsume d n s := rfl
  unfold execSlotConsume at hx
  dsimp only at hx
  rw [hrec] at hx
  dsimp only at hx
  rw [if_neg (by rw [hstart]; simp [hkind, ha]), hruns, Bool.not_true, if_neg Bool.false_ne_true, he] at hx
  rw [hx]
  split <;> rfl

theorem runs_slotConsume_filled {d : CdId} {n : Fin 4096} {s : State} {e : SlotE} (he : Tab.get {} (s.cd d).slots.entries n.val = e)
    (hx : exec (.slotConsume d n) s = .next
      ((s.modSlot d n fun v => { v with armed := false, filled := false, gap := false, received := 0, next := v.next + v.step }).modCd d
        fun c => { c with slots := { c.slots with consumed := c.slots.consumed + 1 } })) :
    Runs (.slotConsume d n) s fun t => OnlyCd s t d ∧
      (Tab.get {} (t.cd d).slots.entries n.val : SlotE) =
        { e with armed := false, filled := false, gap := false, received := 0, next := e.next + e.step } ∧
      (t.cd d).slots.consumed = (s.cd d).slots.consumed + 1 := by
  refine runs_of_exec hx ⟨(s.onlyCd_modCd ..).trans (State.onlyCd_modCd ..), ?_⟩
  rw [State.cd_modCd, if_pos rfl, State.slots_modSlot]
  dsimp only
  rw [tab_get_modify, if_pos rfl, he]
  exact ⟨rfl, rfl⟩

/-- A slot that is not filled and armed at its consume time halts its Mule, and the period ends (R358). -/
theorem runs_slotConsume_missed {d : CdId} {n : Fin 4096} {s : State} {r i slot : Nat} {c : Err} (hlive : (s.lrec r).st.live = true)
    (hact : (s.tile d ((s.cd d).map.phys i)).mule.st.active = true)
    (hx : exec (.slotConsume d n) s = .next ((s.slotHalt d i c).endPeriod r c d 0x28 slot)) :
    Runs (.slotConsume d n) s fun t => (t.tile d ((s.cd d).map.phys i)).mule.st = .haltFault ∧
      (t.tile d ((s.cd d).map.phys i)).mule.faultSource = 3 ∧ (t.tile d ((s.cd d).map.phys i)).mule.faultCode = c ∧
      (t.lrec r).st = .aborted := by
  have hmule : ((s.slotHalt d i c).tile d ((s.cd d).map.phys i)).mule = (s.tile d ((s.cd d).map.phys i)).mule.halt c 3 0x1F 0 0 := by
    unfold State.slotHalt
    rw [State.tile_modMule, if_pos ⟨rfl, rfl⟩, if_pos hact]
  have hlive' : ((s.slotHalt d i c).lrec r).st.live = true := hlive
  refine runs_of_exec hx ?_
  rw [State.mule_endPeriod _ _ _ _ _ _ _ _ (by rw [hmule]; rfl), hmule, State.lrec_endPeriod hlive', if_pos rfl]
  exact ⟨rfl, rfl, rfl, rfl⟩

theorem State.sq_collProgress (s : State) (b : Nat) : (s.collProgress b).sq = s.sq := by
  unfold collProgress
  dsimp only
  split
  · exact (sq_ctx_collEnd ..).1
  · rfl

section

variable {r : Fin 16} {i a : Nat} {s : State} {c : SColl} (hcoll : (s.schedOf r).colls[i]? = some c) (hruns : (s.lrec r).st.runs = true)
  (hstart : s.startOf r c.period = some a) (ha : a + c.offset ≤ s.now) (hnew : (s.recX r).fetched.contains i = false)
include hcoll hruns hstart ha hnew

/-- The fetch of a scheduled collective that is OPEN starts (R360). -/
theorem runs_schedCollFetchStart {b : Nat} (hheld : s.collHeld c.collId = some b) (hctx : (s.bind b).ctx = (s.lrec r).ctx)
    (hst : (s.bind b).st = .open) :
    Runs (.schedCollFetchStart r i) s fun t => (t.bind b).tRun = s.now ∧ (t.bind b).st ≠ .open ∧
      (t.bindX b).fetch.active = !(s.bindX b).fetch.done ∧ (t.recX r).fetched = i :: (s.recX r).fetched := by
  have hx : exec (.schedCollFetchStart r i) s = execSchedCollFetchStart r i s := rfl
  unfold execSchedCollFetchStart at hx
  dsimp only at hx
  rw [hcoll] at hx
  dsimp only at hx
  rw [if_neg (by rw [hstart, hruns, hnew]; simp [ha])] at hx
  generalize hw : State.modRecX s r _ = w at hx
  have hwf : (w.recX r).fetched = i :: (s.recX r).fetched := by
    rw [← hw, State.recX_modRecX, if_pos rfl]
  have hwox : w.ox = s.ox := by
    rw [← hw]
    rfl
  have hwnow : w.now = s.now := by
    rw [← hw]
    rfl
  have hwheld : w.collHeld c.collId = some b := by
    rw [State.collHeld, hwox]
    exact hheld
  rw [hwheld, Option.filter_some, if_pos] at hx
  rotate_left
  · rw [Bool.and_eq_true, State.bind_of_ox hwox]
    exact ⟨decide_eq_true hctx, decide_eq_true hst⟩
  dsimp only at hx
  refine runs_of_exec hx ⟨?_, ?_, ?_, ?_⟩
  · rw [State.tRun_collProgress, State.bind_modBindX, State.bind_modBind, if_pos rfl]
    exact hwnow
  · refine State.st_collProgress_ne_open ?_
    rw [State.bind_modBindX, State.bind_modBind, if_pos rfl]
    simp
  · rw [State.bindX_collProgress, State.bindX_modBindX, if_pos rfl, State.bindX_modBind, State.bindX_of_ox hwox]
  · rw [State.recX, State.sq_collProgress]
    exact hwf

/-- A scheduled collective that no binding holds ends the period (R360). -/
theorem runs_schedCollFetchStart_unbound (hheld : s.collHeld c.collId = none) :
    Runs (.schedCollFetchStart r i) s fun t => (t.lrec r).st = .aborted ∧ (t.lrec r).code = .schedLate := by
  have hx : exec (.schedCollFetchStart r i) s = execSchedCollFetchStart r i s := rfl
  have hheld' : (s.modRecX r fun x => { x with fetched := i :: x.fetched }).collHeld c.collId = none := hheld
  have hlive : ((s.modRecX r fun x => { x with fetched := i :: x.fetched }).lrec r).st.live = true := RecSt.live_of_runs hruns
  unfold execSchedCollFetchStart at hx
  dsimp only at hx
  rw [hcoll] at hx
  dsimp only at hx
  rw [if_neg (by rw [hstart, hruns, hnew]; simp [ha]), hheld', Option.filter_none] at hx
  dsimp only at hx
  refine runs_of_exec hx ?_
  rw [State.lrec_endPeriod hlive, if_pos rfl]
  exact ⟨rfl, rfl⟩

end

/-- Settles O43: one lemma per event. -/
theorem slotsTakeTheirData : Obligations.SlotsTakeTheirData := by
  unfold Obligations.SlotsTakeTheirData
  intro s
  refine ⟨?_, ?_, ?_⟩
  · intro d k arrival r i e hkind hin hpoison hcrc hrec hfind hslot off data
    exact ⟨runs_slotData_taken hkind hin hpoison hcrc hrec hfind hslot,
      fun c m => runs_slotData_fault hkind hin hpoison hcrc hrec hfind hslot⟩
  · intro d n r e a hrec hkind hstart ha hruns
    have hx := exec_slotConsume hrec hkind hstart ha hruns (e := e) rfl
    refine ⟨fun harmed hfilled => ?_, fun hmiss hact => ?_⟩
    · rw [harmed, hfilled, if_pos rfl] at hx
      exact runs_slotConsume_filled rfl hx
    · rw [if_neg (by rw [hmiss]; exact Bool.false_ne_true)] at hx
      exact runs_slotConsume_missed (RecSt.live_of_runs hruns) hact hx
  · intro r i c hcoll hruns a hstart ha hnew
    exact ⟨fun b => runs_schedCollFetchStart hcoll hruns hstart ha hnew, runs_schedCollFetchStart_unbound hcoll hruns hstart ha hnew⟩

end Sys2Proof.Machine

namespace Sys2Proof.Machine

/-! The schedule commands (R348, R349, R366, R369). -/

section

variable {s : State} {src : Src} {cmd x : Nat} (h : Owner s src cmd x) (hhd : s.svc.hdIn = true) {checks : List (Bool × Err)}
include h hhd

theorem Owner.firstErr_own : firstErr ([(!s.svc.hdIn, .range), (s.noCtx x, .range)] ++ checks) = firstErr checks := by
  rw [hhd, h.noCtx]
  rfl

/-- A command of a context's owner whose own checks pass runs (R369). -/
theorem Owner.ownCommand_runs (hchecks : firstErr checks = none) (run : State → State) : s.ownCommand src cmd x checks run = run s := by
  unfold State.ownCommand
  rw [State.command_runs h.port h.owns h.agrees ((h.firstErr_own hhd).trans hchecks)]

theorem Owner.ownCommand_fails {e : Err} (hchecks : firstErr checks = some e) (run : State → State) :
    s.ownCommand src cmd x checks run = s.reply src cmd e [] := by
  unfold State.ownCommand
  rw [State.command_fails h.port h.owns h.agrees ((h.firstErr_own hhd).trans hchecks)]

end

theorem State.schedPut_spec (s : State) (x : Nat) (i : SImage) :
    (s.schedPut x i).ft = s.ft ∧ (s.schedPut x i).out = s.out ∧
      (s.schedPut x i).sq = { s.sq with scheds := Tab.put s.sq.scheds x { i.sched with slots := (i.slots x).map fun e => (e.1, e.2.slot) } } := by
  unfold schedPut
  dsimp only
  generalize hu : List.foldl (fun (s : State) e => s.slotPut e) _ _ = u
  have hk : (u.ft, u.out, u.sq) = (s.ft, s.out, s.sq) := by
    rw [← hu]
    refine (foldl_keeps (fun t : State => (t.ft, t.out, t.sq)) (fun t e => ?_) _ _).trans rfl
    rfl
  simp only [Prod.mk.injEq] at hk
  obtain ⟨hft, hout, hsq⟩ := hk
  exact ⟨hft, hout, by rw [hsq]⟩

theorem runs_schedLoad {s : State} {src : Src} {x va len : Nat} {b : List Byte} (ho : Owner s src 0x0801 x) (hhd : s.svc.hdIn = true)
    (himg : s.readImage (lowestDie (s.cx x).mask) x va len = (.ok, b)) {i : SImage} (hi : i = { bytes := b })
    (hchecks : firstErr (s.schedChecks x .ok i) = none) :
    Runs (.schedLoad src x va len) s fun t => Replied s t src 0x0801 (leBytes 8 i.sched.id ++ leBytes 4 (i.slots x).length) ∧
      (Tab.get {} t.sq.scheds x : Sched) = { i.sched with slots := (i.slots x).map fun e => (e.1, e.2.slot) } ∧
      (∀ y, y ≠ x → (Tab.get {} t.sq.scheds y : Sched) = Tab.get {} s.sq.scheds y) ∧ t.sq.recs = s.sq.recs := by
  have hx : exec (.schedLoad src x va len) s = execSchedLoad src x va len s := rfl
  unfold execSchedLoad at hx
  dsimp only at hx
  rw [himg] at hx
  dsimp only at hx
  rw [← hi, ho.ownCommand_runs hhd hchecks] at hx
  obtain ⟨hft, hout, hsq⟩ := s.schedPut_spec x i
  refine runs_of_exec hx ⟨Replied.of_reply (State.now_of_ft hft) hout .., ?_⟩
  rw [State.reply_sq, hsq]
  refine ⟨?_, fun y hy => ?_, rfl⟩
  · dsimp only
    rw [Tab.get, tab_find_put, if_pos rfl, Option.getD_some]
  · dsimp only
    rw [Tab.get, tab_find_put, if_neg hy, Tab.get]

theorem runs_schedLoad_refused {s : State} {src : Src} {x va len : Nat} {e : Err} (ho : Owner s src 0x0801 x) (hhd : s.svc.hdIn = true)
    (hchecks : firstErr (s.schedChecks x (s.readImage (lowestDie (s.cx x).mask) x va len).1
      { bytes := (s.readImage (lowestDie (s.cx x).mask) x va len).2 }) = some e) :
    Runs (.schedLoad src x va len) s fun t => t.sq = s.sq ∧ t.cds = s.cds ∧ t.out.head? = some (answer s src 0x0801 e []) := by
  have hx : exec (.schedLoad src x va len) s = execSchedLoad src x va len s := rfl
  unfold execSchedLoad at hx
  dsimp only at hx
  rw [ho.ownCommand_fails hhd hchecks] at hx
  exact runs_of_exec hx ⟨State.reply_sq .., State.reply_cds .., by rw [State.out_reply_error, List.head?_cons]⟩

/-- No slot of a context is left on any die once its schedule is unloaded (R369). -/
theorem State.schedDrop_spec (s : State) (x : Nat) : (s.schedDrop x).ft = s.ft ∧ (s.schedDrop x).out = s.out ∧
    Tab.has (s.schedDrop x).sq.scheds x = false ∧ ∀ d, ∀ e ∈ ((s.schedDrop x).cd d).slots.entries, e.2.ctx ≠ x := by
  unfold schedDrop
  extract_lets v u
  have hk : u.ft = s.ft ∧ u.out = s.out ∧ u.cds = (s.slotsDrop x).cds := by
    unfold u
    split <;> exact ⟨rfl, rfl, rfl⟩
  obtain ⟨hft, hout, hcds⟩ := hk
  refine ⟨hft, hout, tab_has_del .., fun d e he => ?_⟩
  change e ∈ (u.cd d).slots.entries at he
  rw [cd, hcds, slotsDrop, tab_get_remap _ _ _ _ (by rfl)] at he
  simpa using (List.mem_filter.mp he).2

theorem runs_schedUnload {s : State} {src : Src} {x : Nat} (ho : Owner s src 0x0802 x) (hhd : s.svc.hdIn = true)
    (hhas : Tab.has s.sq.scheds x = true) (hlive : (s.cx x).st.live = false) :
    Runs (.schedUnload src x) s fun t => Replied s t src 0x0802 [] ∧ Tab.has t.sq.scheds x = false ∧
      ∀ d, ∀ e ∈ (t.cd d).slots.entries, e.2.ctx ≠ x := by
  have hx : exec (.schedUnload src x) s = execSchedUnload src x s := rfl
  unfold execSchedUnload at hx
  rw [ho.ownCommand_runs hhd (by simp [firstErr, hhas, State.ctxLive, hlive])] at hx
  obtain ⟨hft, hout, hdel, hslots⟩ := s.schedDrop_spec x
  refine runs_of_exec hx ⟨Replied.of_reply (State.now_of_ft hft) hout .., ?_, fun d => ?_⟩
  · rw [State.reply_sq]
    exact hdel
  · rw [State.cd, State.reply_cds]
    exact hslots d

theorem runs_schedStatus_index {s : State} {src : Src} {r : Nat} (hport : s.portAdmits src 0x0803 = true) (hhd : s.svc.hdIn = true)
    (hr : r < 16) (howns : s.owns src (s.lrec r).ctx = true) :
    Runs (.schedStatus src (2 ^ 15 + r)) s fun t => Replied s t src 0x0803 (s.lrec r).bytes ∧ OnlyReply s t := by
  have hrec : s.statusRec (2 ^ 15 + r) = some r := by
    unfold State.statusRec
    rw [if_pos (Nat.le_add_right ..), Nat.add_sub_cancel_left, if_pos hr]
  have hx : exec (.schedStatus src (2 ^ 15 + r)) s = execSchedStatus src (2 ^ 15 + r) s := rfl
  unfold execSchedStatus at hx
  dsimp only at hx
  rw [hrec] at hx
  dsimp only at hx
  rw [State.command_runs hport (by rw [howns, Bool.or_true]) (decide_eq_true (Or.inl (Nat.le_add_right ..))) (by simp [firstErr, hhd]), hrec] at hx
  exact runs_of_exec hx ⟨Replied.of_reply rfl rfl .., OnlyReply.of_reply ..⟩

theorem State.lrec_reply (s : State) (src : Src) (cmd : Nat) (e : Err) (payload : List Byte) (r : Nat) :
    (s.reply src cmd e payload).lrec r = s.lrec r := by
  rw [lrec, reply_sq, lrec]

theorem State.cx_reply (s : State) (src : Src) (cmd : Nat) (e : Err) (payload : List Byte) (x : Nat) :
    (s.reply src cmd e payload).cx x = s.cx x := by
  rw [cx, reply_ctx, cx]

theorem runs_schedStop {s : State} {src : Src} {x last r : Nat} (ho : Owner s src 0x0804 x) (hhd : s.svc.hdIn = true)
    (hrec : s.liveRec? x = some r) (hst : (s.lrec r).st = .running) (hlo : (s.lrec r).period < last) (hhi : last < (s.lrec r).last) :
    Runs (.schedStop src x last) s fun t => RepliedLast s t src 0x0804 (leBytes 8 last) ∧
      t.lrec r = { s.lrec r with last := last, st := .stopping } ∧ (t.cx x).st = .stopping := by
  have hx : exec (.schedStop src x last) s = execSchedStop src x last s := rfl
  unfold execSchedStop at hx
  dsimp only at hx
  rw [hrec, Option.getD_some, ho.ownCommand_runs hhd (by simp [firstErr, hst]; omega)] at hx
  refine runs_of_exec hx ⟨RepliedLast.of_reply (by exact State.now_of_ft (State.setCtx_ft ..)) .., ?_, ?_⟩
  · rw [State.lrec_reply, State.lrec, State.setCtx_sq]
    change State.lrec (State.modRec s r _) r = _
    rw [State.lrec_modRec, if_pos rfl]
  · rw [State.cx_reply]
    exact State.cx_setCtx ..

theorem runs_schedAbort {s : State} {src : Src} {x r : Nat} (ho : Owner s src 0x0805 x) (hhd : s.svc.hdIn = true)
    (hrec : s.liveRec? x = some r) (hlive : (s.lrec r).st.live = true) (hctx : (s.lrec r).ctx = x) :
    Runs (.schedAbort src x) s fun t => RepliedLast s t src 0x0805 [] ∧ (t.lrec r).st = .aborted ∧ (t.lrec r).code = .aborted ∧
      (t.cx x).st = .halted := by
  have hx : exec (.schedAbort src x) s = execSchedAbort src x s := rfl
  unfold execSchedAbort at hx
  rw [ho.ownCommand_runs hhd (by simp [firstErr, hrec]), hrec, Option.getD_some] at hx
  refine runs_of_exec hx ⟨RepliedLast.of_reply (State.now_of_outer (State.outer_endPeriod ..)) .., ?_, ?_, ?_⟩
  · rw [State.lrec_reply, State.lrec_endPeriod hlive, if_pos rfl]
    rfl
  · rw [State.lrec_reply, State.lrec_endPeriod hlive, if_pos rfl]
    rfl
  · rw [State.cx_reply, ← hctx]
    exact State.cx_endPeriod hlive ..

/-- Settles O44: one lemma per command. -/
theorem scheduleCommandsAnswer : Obligations.ScheduleCommandsAnswer := by
  unfold Obligations.ScheduleCommandsAnswer
  intro src x s
  refine ⟨?_, fun va len e => runs_schedLoad_refused, runs_schedUnload, fun r => runs_schedStatus_index, fun last r => runs_schedStop,
    fun r => runs_schedAbort⟩
  intro va len b ho hhd himg i hchecks
  exact runs_schedLoad ho hhd himg rfl hchecks

end Sys2Proof.Machine

namespace Sys2Proof.Machine

/-! Ethernet ports: frames, pauses and egress queues (R374, R377, R378, R385 to R389, R394). -/

theorem Eth.queue_modQueue (e : Eth) (q n m : Nat) (f : EgQ → EgQ) :
    (e.modQueue q n f).queue q m = if m = n then f (e.queue q n) else e.queue q m := by
  unfold modQueue queue
  rw [tab_get_set]
  simp only [Nat.add_left_cancel_iff]

theorem Eth.queue_push (e : Eth) (q n m : Nat) (f : TxFrame) :
    (e.push q n f).queue q m = if m = n then (e.queue q n).push (e.sub q).v f else e.queue q m := by
  unfold push queue
  rw [tab_get_set]
  simp only [Nat.add_left_cancel_iff]

theorem EgQ.fifo_tagHead (u : EgQ) (v : Nat) : (u.tagHead v).fifo = u.fifo := by
  unfold tagHead
  split
  · rfl
  · split <;> rfl

theorem EgQ.fifo_push (u : EgQ) (v : Nat) (f : TxFrame) : (u.push v f).fifo = u.fifo ++ [f] := by
  unfold push
  split
  case isTrue h => rw [fifo_tagHead, h, List.nil_append]
  case isFalse => rfl

/-- A step that changes one queue of a sub-port each, over a list of queues. -/
theorem Eth.queue_foldl {q : Nat} {step : Eth → Nat → Eth} {F : Nat → EgQ → EgQ} {P : Eth → Prop}
    (h : ∀ e n, P e → P (step e n) ∧ ∀ m, (step e n).queue q m = if m = n then F n (e.queue q n) else e.queue q m)
    {l : List Nat} (hl : l.Nodup) {e : Eth} (hP : P e) :
    P (l.foldl step e) ∧ ∀ m, (l.foldl step e).queue q m = if m ∈ l then F m (e.queue q m) else e.queue q m := by
  induction l generalizing e with
  | nil => exact ⟨hP, fun m => rfl⟩
  | cons a l ih =>
    obtain ⟨ha, hl⟩ := List.nodup_cons.mp hl
    obtain ⟨hP', hstep⟩ := h e a hP
    refine ⟨(ih hl hP').1, fun m => ?_⟩
    rw [List.foldl_cons, (ih hl hP').2, hstep]
    by_cases hm : m = a
    · subst hm
      rw [if_neg ha, if_pos rfl, if_pos List.mem_cons_self]
    · simp [hm]

theorem State.modEth_only (s : State) (k : Nat) (f : Eth → Eth) : s.modEth k f = { s with eths := (s.modEth k f).eths } := rfl

section

variable {k : EthPort} {q : SubPort} {s : State} (hin : s.subIn k q = true)
include hin

/-- A frame that fails a check is discarded and counted (R378). -/
theorem runs_ethFrameReceive_discard {f : EthFrame} {i : Nat} (hcause : (s.eth k).cause q f = some i) :
    Runs (.ethFrameReceive k q f) s fun t => t = { s with eths := t.eths } ∧
      t.eth k = { s.eth k with discards := (t.eth k).discards } ∧ (∀ j : Nat, j ≠ k.val → t.eth j = s.eth j) ∧
      (∀ j, Tab.get 0 (t.eth k).discards j =
        if j = i then sat 32 (Tab.get 0 (s.eth k).discards i + 1) else Tab.get 0 (s.eth k).discards j) := by
  have hx : exec (.ethFrameReceive k q f) s = execEthFrameReceive k q f s := rfl
  unfold execEthFrameReceive at hx
  rw [hin, Bool.not_true, if_neg Bool.false_ne_true, hcause] at hx
  dsimp only at hx
  unfold State.ethDiscard at hx
  refine runs_of_exec hx ⟨rfl, ?_, fun j hj => ?_, fun j => ?_⟩
  · rw [State.eth_modEth, if_pos rfl]
  · rw [State.eth_modEth, if_neg hj]
  · rw [State.eth_modEth, if_pos rfl]
    dsimp only
    rw [tab_get_modify]

/-- A request for the sub-port's own address is answered on queue 7 (R377). -/
theorem runs_arpRequest {f : EthFrame} (hcause : (s.eth k).cause q f = none)
    (hask : (isArp ((s.eth k).addr q) (ethParse f.bytes) || isNs ((s.eth k).addr q) (ethParse f.bytes)) = true)
    (hrate : ((s.eth k).sub q).arpSec = s.aonNs / 1000000000 → ((s.eth k).sub q).arpCount < 1000) :
    Runs (.arpRequest k q f) s fun t => (t.eth k).rx = (s.eth k).rx + 1 ∧ t.xp = s.xp ∧ t.out = s.out ∧
      (∃ g, ((t.eth k).queue q 7).fifo = ((s.eth k).queue q 7).fifo ++ [g] ∧ g.mac = (ethParse f.bytes).src ∧ g.ctrl = none ∧
        ((ethParse f.bytes).type = 0x0806 → g.raw = beBytes 2 0x0806 ++ beBytes 8 0x0001080006040002 ++ beBytes 6 ((s.eth k).macOf q) ++
          beBytes 4 ((s.eth k).addr q).ip4 ++ ((ethParse f.bytes).body.drop 8).take 10)) ∧
      ∀ n, n < 7 → (t.eth k).queue q n = (s.eth k).queue q n := by
  have hx : exec (.arpRequest k q f) s = execArpRequest k q f s := rfl
  unfold execArpRequest at hx
  dsimp only at hx
  rw [if_neg (by rw [hin, hcause, hask]; decide), if_neg] at hx
  rotate_left
  · split
    case isTrue h => exact Nat.not_le.mpr (hrate h)
    case isFalse => decide
  have heth (e : Eth) : ((s.modEth k fun _ => e).drew).eth k = e := by
    change (s.modEth k fun _ => e).eth k = e
    rw [State.eth_modEth, if_pos rfl]
  generalize hg : TxFrame.mk _ _ _ _ _ _ = g at hx
  refine runs_of_exec hx ?_
  rw [heth]
  refine ⟨rfl, rfl, rfl, ⟨g, ?_, by rw [← hg], by rw [← hg], fun h => by rw [← hg]; exact if_pos h⟩, fun n hn => ?_⟩
  · rw [Eth.queue_push, if_pos rfl, EgQ.fifo_push]
    rfl
  · rw [Eth.queue_push, if_neg (by omega)]
    rfl

theorem runs_pfcFrame (enable : Nat) (quanta : List Nat) :
    Runs (.pfcFrame k q enable quanta) s fun t => t = { s with eths := t.eths } ∧ (t.eth k).pfcRx = (s.eth k).pfcRx + 1 ∧
      ∀ n, n < 8 → (t.eth k).queue q n = if bit enable n = true
        then { (s.eth k).queue q n with
          pauseEnd := s.now + cdiv (quanta.getD n 0 % 65536 * 512) (subRate (s.eth k).mode) } else (s.eth k).queue q n := by
  have hx : exec (.pfcFrame k q enable quanta) s = execPfcFrame k q enable quanta s := rfl
  unfold execPfcFrame at hx
  rw [hin, Bool.not_true, if_neg Bool.false_ne_true] at hx
  obtain ⟨⟨-, hrx⟩, hqueue⟩ := Eth.queue_foldl (q := q)
    (step := fun e n => e.modQueue q n fun u => { u with pauseEnd := s.now + cdiv (quanta.getD n 0 % 65536 * 512) (subRate e.mode) })
    (F := fun n u => { u with pauseEnd := s.now + cdiv (quanta.getD n 0 % 65536 * 512) (subRate (s.eth k).mode) })
    (P := fun e => e.mode = (s.eth k).mode ∧ e.pfcRx = (s.eth k).pfcRx + 1)
    (fun e n h => ⟨h, fun m => by rw [Eth.queue_modQueue, h.1]⟩) (List.nodup_range.filter (bit enable))
    (e := { s.eth k with pfcRx := (s.eth k).pfcRx + 1 }) ⟨rfl, rfl⟩
  refine runs_of_exec hx ?_
  rw [State.eth_modEth, if_pos rfl]
  refine ⟨rfl, hrx, fun n hn => ?_⟩
  rw [hqueue]
  simp only [List.mem_filter, List.mem_range, hn, true_and]
  rfl

theorem runs_subportLinkChange_up :
    exec (.subportLinkChange k q true) s = .next (s.modSub k q fun u => { u with up := true }) := by
  have hx : exec (.subportLinkChange k q true) s = execSubportLinkChange k q true s := rfl
  unfold execSubportLinkChange at hx
  dsimp only at hx
  rwa [hin, Bool.not_true, if_neg Bool.false_ne_true, if_pos rfl] at hx

end

section

variable {k : EthPort} {q : SubPort} {s : State}

theorem runs_pfcPauseExpiry {n : Fin 8} (h : ((s.eth k).queue q n).pauseEnd ≤ s.now) :
    Runs (.pfcPauseExpiry k q n) s fun t => t = { s with eths := t.eths } ∧
      (t.eth k).queue q n = { (s.eth k).queue q n with pauseEnd := 0 } ∧ ∀ m : Fin 8, m ≠ n → (t.eth k).queue q m = (s.eth k).queue q m := by
  have hx : exec (.pfcPauseExpiry k q n) s = execPfcPauseExpiry k q n s := rfl
  unfold execPfcPauseExpiry at hx
  rw [if_pos h] at hx
  refine runs_of_exec hx ?_
  rw [State.eth_modEth, if_pos rfl]
  refine ⟨rfl, ?_, fun m hm => ?_⟩
  · rw [Eth.queue_modQueue, if_pos rfl]
  · rw [Eth.queue_modQueue, if_neg (Fin.val_ne_of_ne hm)]

theorem State.eth_modSub (s : State) (k q : Nat) (f : SubSt → SubSt) :
    (s.modSub k q f).eth k = { s.eth k with subs := Tab.set {} (s.eth k).subs q (f ((s.eth k).sub q)) } := by
  unfold modSub
  rw [eth_modEth, if_pos rfl]

theorem State.sub_modSub (s : State) (k q : Nat) (f : SubSt → SubSt) : ((s.modSub k q f).eth k).sub q = f ((s.eth k).sub q) := by
  rw [eth_modSub, Eth.sub]
  exact (tab_get_set ({} : SubSt) (s.eth k).subs q q _).trans (if_pos rfl)

/-- A PFC frame to a sender changes the trace and the count of them (R386). -/
theorem State.sendPfc_spec (s : State) (k q n quanta : Nat) : (s.sendPfc k q n quanta).out = .pfc k q n quanta :: s.out ∧
    ((s.sendPfc k q n quanta).eth k).pfcTx = (s.eth k).pfcTx + 1 ∧ ((s.sendPfc k q n quanta).eth k).sub q = (s.eth k).sub q := by
  have heth : (s.sendPfc k q n quanta).eth k = { s.eth k with pfcTx := (s.eth k).pfcTx + 1 } := by
    change (s.modEth k fun e => { e with pfcTx := e.pfcTx + 1 }).eth k = _
    rw [eth_modEth, if_pos rfl]
  rw [heth]
  exact ⟨rfl, rfl, rfl⟩

theorem runs_pfcRepeat {n : Fin 8} {a : Nat} (hoff : Tab.find? ((s.eth k).sub q).xoff n = some a) (ha : a + 40000 ≤ s.aonNs)
    (hocc : (s.eth k).xon * 1024 < Tab.get 0 ((s.eth k).sub q).occ n) :
    Runs (.pfcRepeat k q n) s fun t => t.out = .pfc k q n 0xFFFF :: s.out ∧ (t.eth k).pfcTx = (s.eth k).pfcTx + 1 ∧
      Tab.find? ((t.eth k).sub q).xoff n = some s.aonNs := by
  have hx : exec (.pfcRepeat k q n) s = execPfcRepeat k q n s := rfl
  unfold execPfcRepeat at hx
  dsimp only at hx
  rw [hoff] at hx
  dsimp only at hx
  rw [if_pos ⟨ha, hocc⟩] at hx
  generalize hu : s.modSub k q _ = u at hx
  have hsub : ((u.eth k).sub q).xoff = Tab.put ((s.eth k).sub q).xoff n s.aonNs := by rw [← hu, State.sub_modSub]
  have htx : u.out = s.out ∧ (u.eth k).pfcTx = (s.eth k).pfcTx := by
    rw [← hu, State.eth_modSub]
    exact ⟨rfl, rfl⟩
  obtain ⟨hout, hpfc, hsame⟩ := u.sendPfc_spec k q n 0xFFFF
  refine runs_of_exec hx ⟨by rw [hout, htx.1], by rw [hpfc, htx.2], ?_⟩
  rw [hsame, hsub, tab_find_put, if_pos rfl]

theorem runs_pfcXon {n : Fin 8} {drained : Nat} (hoff : Tab.has ((s.eth k).sub q).xoff n = true)
    (hocc : Tab.get 0 ((s.eth k).sub q).occ n - drained ≤ (s.eth k).xon * 1024) :
    Runs (.pfcXon k q n drained) s fun t => t.out = .pfc k q n 0 :: s.out ∧ (t.eth k).pfcTx = (s.eth k).pfcTx + 1 ∧
      Tab.has ((t.eth k).sub q).xoff n = false ∧
      Tab.get 0 ((t.eth k).sub q).occ n = Tab.get 0 ((s.eth k).sub q).occ n - drained := by
  have hx : exec (.pfcXon k q n drained) s = execPfcXon k q n drained s := rfl
  unfold execPfcXon at hx
  dsimp only at hx
  generalize hu : s.modSub k q _ = u at hx
  have hsub : ((u.eth k).sub q).xoff = ((s.eth k).sub q).xoff ∧
      Tab.get 0 ((u.eth k).sub q).occ n = Tab.get 0 ((s.eth k).sub q).occ n - drained := by
    rw [← hu, State.sub_modSub]
    dsimp only
    rw [tab_get_modify, if_pos rfl]
    exact ⟨rfl, rfl⟩
  have hkeep : u.out = s.out ∧ (u.eth k).pfcTx = (s.eth k).pfcTx ∧ (u.eth k).xon = (s.eth k).xon := by
    rw [← hu, State.eth_modSub]
    exact ⟨rfl, rfl, rfl⟩
  rw [if_pos ⟨by rw [hsub.1]; exact hoff, by rw [hsub.2, hkeep.2.2]; exact hocc⟩] at hx
  generalize hv : u.modSub k q _ = v at hx
  have hvsub : ((v.eth k).sub q).xoff = Tab.del ((u.eth k).sub q).xoff n ∧ ((v.eth k).sub q).occ = ((u.eth k).sub q).occ := by
    rw [← hv, State.sub_modSub]
    exact ⟨rfl, rfl⟩
  have hvkeep : v.out = u.out ∧ (v.eth k).pfcTx = (u.eth k).pfcTx := by
    rw [← hv, State.eth_modSub]
    exact ⟨rfl, rfl⟩
  obtain ⟨hout, hpfc, hsame⟩ := v.sendPfc_spec k q n 0
  refine runs_of_exec hx ⟨by rw [hout, hvkeep.1, hkeep.1], by rw [hpfc, hvkeep.2, hkeep.2.1], ?_, ?_⟩
  · rw [hsame, hvsub.1, tab_has_del]
  · rw [hsame, hvsub.2, hsub.2]

/-- The wheel leaves what a queue holds (R389). -/
theorem EgQ.place_keeps (u : EgQ) (now : Nat) : (u.place now).tLast = u.tLast ∧ (u.place now).fifo = u.fifo ∧
    (u.place now).tokens = u.tokens ∧ (u.place now).frames = u.frames ∧ (u.place now).bytes = u.bytes := by
  unfold place
  split <;> exact ⟨rfl, rfl, rfl, rfl, rfl⟩

theorem EgQ.wheel_place {u : EgQ} (h : 0 ≤ u.tokens) (now : Nat) : (u.place now).wheel = none := by
  unfold place
  rw [if_neg fun h' => absurd h'.2 (by omega)]

/-- What the wheel does to a queue of a sub-port at a time (R389). -/
def EgQ.turned (u : EgQ) (now : Nat) : EgQ :=
  match u.wheel with
  | some t => if t ≤ now then ({ u with tokens := shaperNow u.tokens u.tLast u.rate u.burst now, tLast := now } : EgQ).place now else u
  | none => u

theorem EgQ.turned_due {u : EgQ} {now a : Nat} (hw : u.wheel = some a) (ha : a ≤ now) :
    (u.turned now).tLast = now ∧ (u.turned now).fifo = u.fifo ∧
      (u.turned now).tokens = shaperNow u.tokens u.tLast u.rate u.burst now ∧
      (0 ≤ (u.turned now).tokens → (u.turned now).wheel = none) := by
  have hplace : u.turned now = ({ u with tokens := shaperNow u.tokens u.tLast u.rate u.burst now, tLast := now } : EgQ).place now := by
    unfold turned
    rw [hw]
    exact if_pos ha
  rw [hplace]
  obtain ⟨hlast, hfifo, htok, -, -⟩ :=
    place_keeps ({ u with tokens := shaperNow u.tokens u.tLast u.rate u.burst now, tLast := now } : EgQ) now
  exact ⟨hlast, hfifo, htok, fun h => wheel_place (htok ▸ h) now⟩

theorem EgQ.turned_early {u : EgQ} {now a : Nat} (hw : u.wheel = some a) (ha : now < a) : u.turned now = u := by
  unfold turned
  rw [hw]
  exact if_neg (by omega)

/-- The wheel turns for queue n of a sub-port (R389). -/
def Eth.turn (q now : Nat) (e : Eth) (n : Nat) : Eth :=
  match (e.queue q n).wheel with
  | some t => if t ≤ now then e.modQueue q n fun u =>
      ({ u with tokens := shaperNow u.tokens u.tLast u.rate u.burst now, tLast := now } : EgQ).place now else e
  | none => e

theorem Eth.queue_turn (q now : Nat) (e : Eth) (n m : Nat) :
    (e.turn q now n).queue q m = if m = n then (e.queue q n).turned now else e.queue q m := by
  unfold turn EgQ.turned
  split
  · split
    · rw [queue_modQueue]
    · split
      case isTrue h => rw [h]
      case isFalse => rfl
  · split
    case isTrue h => rw [h]
    case isFalse => rfl

theorem exec_shaperWheelSlot (k : EthPort) (q : SubPort) (s : State) :
    exec (.shaperWheelSlot k q) s = .next (s.modEth k fun e => (List.range 8).foldl (Eth.turn q s.now) e) := rfl

theorem queue_shaperWheelSlot (k : EthPort) (q : SubPort) (s : State) {n : Nat} (hn : n < 8) :
    ((s.modEth k fun e => (List.range 8).foldl (Eth.turn q s.now) e).eth k).queue q n = ((s.eth k).queue q n).turned s.now := by
  rw [State.eth_modEth, if_pos rfl]
  have hstep := Eth.queue_foldl (q := q) (step := Eth.turn q s.now) (F := fun _ u => u.turned s.now) (P := fun _ => True)
    (fun e n _ => ⟨trivial, e.queue_turn q s.now n⟩) (l := List.range 8) List.nodup_range (e := s.eth k) trivial
  rw [hstep.2, if_pos (List.mem_range.mpr hn)]

theorem runs_shaperWheelSlot_due {n : Fin 8} {a : Nat} (hw : ((s.eth k).queue q n).wheel = some a) (ha : a ≤ s.now) :
    Runs (.shaperWheelSlot k q) s fun t => t = { s with eths := t.eths } ∧ ((t.eth k).queue q n).tLast = s.now ∧
      ((t.eth k).queue q n).fifo = ((s.eth k).queue q n).fifo ∧
      ((t.eth k).queue q n).tokens = shaperNow ((s.eth k).queue q n).tokens ((s.eth k).queue q n).tLast ((s.eth k).queue q n).rate
        ((s.eth k).queue q n).burst s.now ∧
      (0 ≤ ((t.eth k).queue q n).tokens → ((t.eth k).queue q n).wheel = none) := by
  refine runs_of_exec (exec_shaperWheelSlot k q s) ⟨State.modEth_only .., ?_⟩
  rw [queue_shaperWheelSlot k q s n.isLt]
  exact EgQ.turned_due hw ha

theorem runs_shaperWheelSlot_early {n : Fin 8} {a : Nat} (hw : ((s.eth k).queue q n).wheel = some a) (ha : s.now < a) :
    Runs (.shaperWheelSlot k q) s fun t => (t.eth k).queue q n = (s.eth k).queue q n := by
  refine runs_of_exec (exec_shaperWheelSlot k q s) ?_
  rw [queue_shaperWheelSlot k q s n.isLt, EgQ.turned_early hw ha]

end

end Sys2Proof.Machine

namespace Sys2Proof.Machine

/-! The frame a MAC takes next, and the links of the ports (R374, R388, R389). -/

theorem filter_range_single (n : Fin 8) : ((List.range 8).filter fun m => decide (m = n.val)) = [n.val] := by
  revert n
  decide

/-- The one queue that may send is the one the MAC takes from (R388). -/
theorem Eth.pick_single {e : Eth} {q now : Nat} {n : Fin 8} (h : ∀ m : Fin 8, (e.queue q m).eligible now = decide (m = n)) :
    e.pick q now = some n.val := by
  have hon : ((List.range 8).filter fun m => (e.queue q m).eligible now) = [n.val] := by
    rw [← filter_range_single n]
    refine List.filter_congr fun m hm => ?_
    have hm8 : m < 8 := List.mem_range.mp hm
    have := h ⟨m, hm8⟩
    simpa [Fin.ext_iff] using this
  unfold pick
  dsimp only
  rw [hon]
  by_cases hw : (e.queue q n).weight = 0
  · have hstrict : List.filter (fun m => decide ((e.queue q m).weight = 0)) [n.val] = [n.val] := by simp [hw]
    rw [hstrict]
    rfl
  · have hstrict : List.filter (fun m => decide ((e.queue q m).weight = 0)) [n.val] = [] := by simp [hw]
    rw [hstrict]
    rfl

theorem EgQ.tagHead_keeps (u : EgQ) (v : Nat) : (u.tagHead v).frames = u.frames ∧ (u.tagHead v).bytes = u.bytes := by
  unfold tagHead
  split
  · exact ⟨rfl, rfl⟩
  · split <;> exact ⟨rfl, rfl⟩

/-- What a frame that leaves changes of its sub-port's queues (R388, R394). -/
theorem Eth.take_spec (e : Eth) (q n now : Nat) (f : TxFrame) :
    (e.take q n now f).tx = e.tx + 1 ∧ ((e.take q n now f).queue q n).fifo = (e.queue q n).fifo.tail ∧
      ((e.take q n now f).queue q n).frames = (e.queue q n).frames + 1 ∧
      ((e.take q n now f).queue q n).bytes = (e.queue q n).bytes + f.bytes ∧
      ∀ m, m ≠ n → ((e.take q n now f).queue q m).fifo = (e.queue q m).fifo := by
  unfold take
  extract_lets u v t u' e' w
  have htx : e'.tx = e.tx + 1 := rfl
  have hq (m : Nat) : e'.queue q m = if m = n then (u'.tagHead v).place now else e.queue q m := by
    unfold e' queue
    dsimp only
    rw [tab_get_set]
    simp only [Nat.add_left_cancel_iff]
  obtain ⟨-, hfifo, -, hframes, hbytes⟩ := (u'.tagHead v).place_keeps now
  have hn : (e'.queue q n).fifo = (e.queue q n).fifo.tail ∧ (e'.queue q n).frames = (e.queue q n).frames + 1 ∧
      (e'.queue q n).bytes = (e.queue q n).bytes + f.bytes := by
    rw [hq, if_pos rfl, hfifo, hframes, hbytes, EgQ.fifo_tagHead, (EgQ.tagHead_keeps ..).1, (EgQ.tagHead_keeps ..).2]
    exact ⟨rfl, rfl, rfl⟩
  have hother (m : Nat) (hm : m ≠ n) : (e'.queue q m).fifo = (e.queue q m).fifo := by rw [hq, if_neg hm]
  split
  · obtain ⟨htx', hfold⟩ := Eth.queue_foldl (q := q) (step := fun e n => e.modQueue q n fun u => { u with fLast := 0 })
      (F := fun _ u => { u with fLast := 0 }) (P := fun x => x.tx = e'.tx)
      (fun e n h => ⟨h, fun m => Eth.queue_modQueue ..⟩) (l := List.range 8) List.nodup_range (e := e') rfl
    have hw : List.foldl (fun e n => e.modQueue q n fun u => { u with fLast := 0 }) e' (List.range 8) = w := rfl
    rw [hw] at htx'
    rw [hw] at hfold
    clear_value w
    have hsame (m : Nat) : (w.queue q m).fifo = (e'.queue q m).fifo ∧ (w.queue q m).frames = (e'.queue q m).frames ∧
        (w.queue q m).bytes = (e'.queue q m).bytes := by
      rw [hfold]
      split <;> exact ⟨rfl, rfl, rfl⟩
    exact ⟨htx'.trans htx, (hsame n).1.trans hn.1, (hsame n).2.1.trans hn.2.1, (hsame n).2.2.trans hn.2.2,
      fun m hm => (hsame m).1.trans (hother m hm)⟩
  · exact ⟨htx, hn.1, hn.2.1, hn.2.2, hother⟩

section

variable {k : EthPort} {q : SubPort} {s : State}

/-- The MAC takes the head of the one queue that may send (R376, R388, R389). -/
theorem runs_egressFrameSelect (hin : s.subIn k q = true) {n : Fin 8} {f : TxFrame} {g : List TxFrame} (hup : ((s.eth k).sub q).up = true)
    (hfifo : ((s.eth k).queue q n).fifo = f :: g) (hone : ∀ m : Fin 8, ((s.eth k).queue q m).eligible s.now = decide (m = n)) :
    Runs (.egressFrameSelect k q) s fun t => (t.eth k).tx = (s.eth k).tx + 1 ∧ ((t.eth k).queue q n).fifo = g ∧
      ((t.eth k).queue q n).frames = ((s.eth k).queue q n).frames + 1 ∧
      ((t.eth k).queue q n).bytes = ((s.eth k).queue q n).bytes + f.bytes ∧
      (∀ m : Fin 8, m ≠ n → ((t.eth k).queue q m).fifo = ((s.eth k).queue q m).fifo) ∧
      (f.ctrl = none → t.xp = s.xp ∧ t.out = .frame k q
        (let b := beBytes 6 f.mac ++ beBytes 6 ((s.eth k).macOf q) ++
          (if (s.eth k).txTag then beBytes 2 0x8100 ++ beBytes 2 (n.val * 8192 + ((s.eth k).addr q).vid) else []) ++ f.raw
         b ++ List.replicate (60 - b.length) 0) :: s.out) ∧
      (∀ c, f.ctrl = some c → (∃ b, t.out = .frame k q b :: s.out) ∧ (f.zeroKey = false → (t.sess c).toAck = 0)) := by
  have hx : exec (.egressFrameSelect k q) s = execEgressFrameSelect k q s := rfl
  unfold execEgressFrameSelect at hx
  dsimp only at hx
  rw [hin, hup, if_neg (by decide), Eth.pick_single hone] at hx
  dsimp only at hx
  rw [hfifo] at hx
  dsimp only at hx
  obtain ⟨htx, hq, hframes, hbytes, hother⟩ := (s.eth k).take_spec q n s.now f
  rw [hfifo, List.tail_cons] at hq
  generalize hu : State.drew _ 1 = u at hx
  have heth : u.eth k = (s.eth k).take q n s.now f := by
    rw [← hu]
    change (s.modEth k fun e => e.take q n s.now f).eth k = _
    rw [State.eth_modEth, if_pos rfl]
  have hkeep : u.xp = s.xp ∧ u.out = s.out := by
    rw [← hu]
    exact ⟨rfl, rfl⟩
  have hports (t : State) (ht : t.eth k = u.eth k) : (t.eth k).tx = (s.eth k).tx + 1 ∧ ((t.eth k).queue q n).fifo = g ∧
      ((t.eth k).queue q n).frames = ((s.eth k).queue q n).frames + 1 ∧
      ((t.eth k).queue q n).bytes = ((s.eth k).queue q n).bytes + f.bytes ∧
      ∀ m : Fin 8, m ≠ n → ((t.eth k).queue q m).fifo = ((s.eth k).queue q m).fifo := by
    rw [ht, heth]
    exact ⟨htx, hq, hframes, hbytes, fun m hm => hother m (Fin.val_ne_of_ne hm)⟩
  cases hc : f.ctrl with
  | none =>
    rw [hc] at hx
    dsimp only at hx
    obtain ⟨h1, h2, h3, h4, h5⟩ := hports _ rfl
    refine runs_of_exec hx ⟨h1, h2, h3, h4, h5, fun _ => ⟨hkeep.1, ?_⟩, nofun⟩
    rw [State.out_emit, hkeep.2]
    rfl
  | some c =>
    rw [hc] at hx
    dsimp only at hx
    generalize hv : (if f.zeroKey = true then u else u.modSess c fun x => { x with toAck := 0 }) = v at hx
    have hvk : v.eth k = u.eth k ∧ v.out = u.out ∧ (f.zeroKey = false → (v.sess c).toAck = 0) := by
      rw [← hv]
      split
      case isTrue h => exact ⟨rfl, rfl, fun h' => absurd (h.symm.trans h') (by decide)⟩
      case isFalse => exact ⟨rfl, rfl, fun _ => by rw [State.sess_modSess, if_pos rfl]⟩
    obtain ⟨hve, hvo, hvs⟩ := hvk
    obtain ⟨h1, h2, h3, h4, h5⟩ := hports v hve
    refine runs_of_exec hx ⟨h1, h2, h3, h4, h5, nofun, fun c' hc' => ?_⟩
    cases hc'
    exact ⟨⟨_, by rw [State.out_emit, hvo, hkeep.2]⟩, hvs⟩

end

theorem runs_oobLinkChange (s : State) (up : Bool) :
    Runs (.oobLinkChange up) s fun t => t.svc = { s.svc with oobLink := up, level := s.levelOf s.svc } := by
  have hx : exec (.oobLinkChange up) s = .next (s.service { s.svc with oobLink := up } .uncorr) := rfl
  unfold State.service at hx
  dsimp only at hx
  refine runs_of_exec hx ?_
  split
  · rw [State.raise_svc]
    rfl
  · split
    · rw [State.raise_svc]
      rfl
    · rfl

theorem Eth.queue_push_other (e : Eth) {sub q p n : Nat} (hs : sub ≠ q) (hp : p < 8) (hn : n < 8) (f : TxFrame) :
    (e.push sub p f).queue q n = e.queue q n := by
  unfold push queue
  rw [tab_get_set, if_neg (by omega)]

/-- The sub-port on which the device sends depends on the links of the ports alone. -/
theorem State.outSub_of {s t : State} (h : ∀ j, (t.eth j).subs = (s.eth j).subs) (x : Xs) : t.outSub x = s.outSub x := by
  have hup (c : Nat) : t.subUp c = s.subUp c := by
    unfold subUp Eth.sub
    rw [h]
  unfold outSub
  rw [funext hup]

/-- The frames of a sub-port all belong on it (R374): what moving frames keeps, from the state in which the link went down. -/
structure State.Moved (s t : State) (k q : Nat) : Prop where
  xp : t.xp = s.xp
  out : t.out = s.out
  subs : ∀ j, (t.eth j).subs = (s.eth j).subs
  own : ∀ n f c, n < 8 → f ∈ ((t.eth k).queue q n).fifo → f.ctrl = some c → s.outSub (s.sess c) % 64 = k + 16 * q

theorem State.Moved.sendSeg {s t : State} {k q : Nat} (h : s.Moved t k q) (c : Nat) (g : TxSeg) (z : Bool) : s.Moved (t.sendSeg c g z) k q := by
  have hsess (c : Nat) : t.sess c = s.sess c := by rw [sess, h.xp, sess]
  have hout : t.outSub (t.sess c) = s.outSub (s.sess c) := by rw [hsess, outSub_of h.subs]
  unfold State.sendSeg
  dsimp only
  rw [hout]
  generalize ho : s.outSub (s.sess c) = o
  refine ⟨h.xp, h.out, fun j => ?_, fun n f c' hn hf hc => ?_⟩
  · rw [eth_modEth]
    split
    case isTrue hj => rw [hj]; exact h.subs _
    case isFalse => exact h.subs _
  · rw [eth_modEth] at hf
    split at hf
    case isFalse => exact h.own n f c' hn hf hc
    case isTrue hk =>
      rw [← hk] at hf
      by_cases hq : o / 16 % 4 = q
      · rw [hq, Eth.queue_push] at hf
        split at hf
        case isFalse => exact h.own n f c' hn hf hc
        case isTrue hp =>
          rw [EgQ.fifo_push, List.mem_append, List.mem_singleton] at hf
          rcases hf with hf | rfl
          · exact h.own _ f c' (by omega) hf hc
          · cases hc
            rw [ho]
            omega
      · rw [Eth.queue_push_other _ hq (by omega) hn] at hf
        exact h.own n f c' hn hf hc

/-- The frames of a queue that stay on sub-port `code` (R374). -/
def State.staying (s : State) (code : Nat) (l : List TxFrame) : List TxFrame :=
  l.filter fun f => match f.ctrl with
    | some c => decide (s.outSub (s.sess c) = code)
    | none => true

theorem State.outSub_of_staying {s : State} {code c : Nat} {l : List TxFrame} {f : TxFrame} (hf : f ∈ s.staying code l)
    (hc : f.ctrl = some c) : s.outSub (s.sess c) = code := by
  have h := (List.mem_filter.mp hf).2
  rw [hc] at h
  exact of_decide_eq_true h

/-- A queue once the frames that belong elsewhere have left it. -/
def State.stay (s : State) (code v : Nat) (u : EgQ) : EgQ :=
  if (s.staying code u.fifo).head? = u.fifo.head? then { u with fifo := s.staying code u.fifo }
  else ({ u with fifo := s.staying code u.fifo } : EgQ).tagHead v

theorem State.fifo_stay (s : State) (code v : Nat) (u : EgQ) : (s.stay code v u).fifo = s.staying code u.fifo := by
  unfold stay
  split
  · rfl
  · rw [EgQ.fifo_tagHead]

/-- Frames of controllers bound elsewhere leave the queues of a sub-port (R374). -/
theorem State.moveFrames_moved (s : State) {k q : Nat} (hk : k < 16) (hq : q < 4) : s.Moved (s.moveFrames k q) k q := by
  unfold moveFrames
  extract_lets fs go u
  have hu : s.Moved u k q := by
    have hu : u = s.modEth k fun e =>
        (List.range 8).foldl (fun e n => e.modQueue q n (s.stay (k + 16 * q) (e.sub q).v)) e := rfl
    clear_value u
    obtain ⟨hsubs, hqueue⟩ := Eth.queue_foldl (q := q) (step := fun e n => e.modQueue q n (s.stay (k + 16 * q) (e.sub q).v))
      (F := fun _ => s.stay (k + 16 * q) ((s.eth k).sub q).v) (P := fun e => e.subs = (s.eth k).subs)
      (fun e n h => ⟨h, fun m => by rw [Eth.queue_modQueue, Eth.sub, h, Eth.sub]⟩) (l := List.range 8) List.nodup_range (e := s.eth k) rfl
    have heth (j : Nat) : u.eth j = if j = k then
        (List.range 8).foldl (fun e n => e.modQueue q n (s.stay (k + 16 * q) (e.sub q).v)) (s.eth k) else s.eth j := by
      rw [hu, eth_modEth]
    refine ⟨by rw [hu]; rfl, by rw [hu]; rfl, fun j => ?_, fun n f c hn hf hc => ?_⟩
    · rw [heth]
      split
      case isTrue hj => rw [hj]; exact hsubs
      case isFalse => rfl
    · rw [heth, if_pos rfl, hqueue, if_pos (List.mem_range.mpr hn), fifo_stay] at hf
      rw [outSub_of_staying hf hc]
      omega
  have hfold : ∀ (l : List (Nat × Nat × TxFrame)) (t : State), s.Moved t k q →
      s.Moved (l.foldl (fun s e => s.sendSeg e.2.1 e.2.2.seg e.2.2.zeroKey) t) k q := by
    intro l
    induction l with
    | nil => exact fun t h => h
    | cons a l ih => exact fun t h => ih _ (h.sendSeg ..)
  exact hfold go u hu

theorem runs_subportLinkChange_down {k : EthPort} {q : SubPort} {s : State} (hin : s.subIn k q = true) :
    Runs (.subportLinkChange k q false) s fun t => ((t.eth k).sub q).up = false ∧ t.out = s.out ∧
      ∀ n f c, n < 8 → f ∈ ((t.eth k).queue q n).fifo → f.ctrl = some c → t.outSub (t.sess c) % 64 = k.val + 16 * q.val := by
  have hx : exec (.subportLinkChange k q false) s = execSubportLinkChange k q false s := rfl
  unfold execSubportLinkChange at hx
  dsimp only at hx
  rw [hin, Bool.not_true, if_neg Bool.false_ne_true, if_neg Bool.false_ne_true] at hx
  generalize hu : s.modSub k q _ = u at hx
  have hup : ((u.eth k).sub q).up = false ∧ u.out = s.out := by
    rw [← hu, State.sub_modSub]
    exact ⟨rfl, rfl⟩
  have hmoved := u.moveFrames_moved (k := k) (q := q) (by omega) q.isLt
  refine runs_of_exec hx ⟨?_, hmoved.out.trans hup.2, fun n f c hn hf hc => ?_⟩
  · rw [Eth.sub, hmoved.subs]
    exact hup.1
  · rw [State.outSub_of hmoved.subs, State.sess, hmoved.xp]
    exact hmoved.own n f c hn hf hc

/-- Settles O45: one lemma per event of a port. -/
theorem ethernetPortsPauseAndSend : Obligations.EthernetPortsPauseAndSend := by
  unfold Obligations.EthernetPortsPauseAndSend
  intro k q s hin e
  refine ⟨fun f hf => ?_, fun f hok hlen => ?_, fun f i => runs_ethFrameReceive_discard hin, ?_, runs_pfcFrame hin,
    fun n => runs_pfcPauseExpiry, fun n a => runs_pfcRepeat, fun n d => runs_pfcXon,
    fun n f g hup hfifo hone => runs_egressFrameSelect hin hup hfifo hone,
    fun n a hw => ⟨runs_shaperWheelSlot_due hw, runs_shaperWheelSlot_early hw⟩, runs_subportLinkChange_up hin,
    runs_subportLinkChange_down hin, runs_oobLinkChange s⟩
  · unfold Eth.cause
    dsimp only
    rw [hf, Bool.not_false, if_pos rfl]
  · unfold Eth.cause
    dsimp only
    rw [hok, Bool.not_true, if_neg Bool.false_ne_true, if_pos (by omega)]
  · intro f p a hcause hask hrate
    exact runs_arpRequest hin hcause hask hrate

end Sys2Proof.Machine

namespace Sys2Proof.Machine

/-! What sending segments leaves of the transport (R379, R380). -/

/-- What a session holds beside the segments it sends (R380). -/
def Xs.received (x : Xs) : Nat × Nat × Nat × Nat × List Byte × Option Nat × Nat :=
  (x.st, x.expPsn, x.accepted, x.lastSub, x.key, x.naked, x.primary)

/-- The state `t` is `s` but for segments sent or queued: the sessions' own receiving side, the rest of the transport, the frames received
and the memory are as they were. -/
structure State.Sending (s t : State) : Prop where
  sess : ∀ c, (t.sess c).received = (s.sess c).received
  xp : { t.xp with sess := s.xp.sess } = s.xp
  rx : ∀ k, (t.eth k).rx = (s.eth k).rx
  hbm : t.hbm = s.hbm

namespace State.Sending

variable {s t u : State}

theorem refl (s : State) : s.Sending s := ⟨fun _ => rfl, rfl, fun _ => rfl, rfl⟩

theorem trans (h : s.Sending t) (h' : t.Sending u) : s.Sending u where
  sess c := (h'.sess c).trans (h.sess c)
  xp := by rw [← h.xp, ← h'.xp]
  rx k := (h'.rx k).trans (h.rx k)
  hbm := h'.hbm.trans h.hbm

theorem of_eq (hxp : t.xp = s.xp) (heths : t.eths = s.eths) (hhbm : t.hbm = s.hbm) : s.Sending t where
  sess c := by rw [State.sess, hxp, State.sess]
  xp := by rw [hxp]
  rx k := by rw [State.eth, heths, State.eth]
  hbm := hhbm

theorem of_same (h : u.Sending t) (hxp : u.xp = s.xp) (heths : u.eths = s.eths) (hhbm : u.hbm = s.hbm) :
    s.Sending t :=
  (of_eq hxp heths hhbm).trans h

theorem xfer (h : s.Sending t) (i : Nat) : t.xfer i = s.xfer i := by
  rw [State.xfer, State.xfer, ← h.xp]

theorem retx (h : s.Sending t) : t.xp.retx = s.xp.retx := by rw [← h.xp]

theorem sendSeg (c : Nat) (g : TxSeg) (z : Bool) : s.Sending (s.sendSeg c g z) where
  sess _ := rfl
  xp := rfl
  rx k := by
    unfold State.sendSeg
    dsimp only
    rw [eth_modEth]
    split
    case isTrue h => rw [h]; rfl
    case isFalse => rfl
  hbm := rfl

theorem modSess (c : Nat) (f : Xs → Xs) (hf : ∀ x, (f x).received = x.received) : s.Sending (s.modSess c f) where
  sess k := by
    rw [sess_modSess]
    split
    case isTrue h => rw [hf, h]
    case isFalse => rfl
  xp := rfl
  rx _ := rfl
  hbm := rfl

theorem of_modSess {c : Nat} {f : Xs → Xs} (h : (s.modSess c f).Sending t) (hf : ∀ x, (f x).received = x.received) : s.Sending t :=
  (modSess c f hf).trans h

theorem queueSeg (c : Nat) (g : TxSeg) : s.Sending (s.queueSeg c g) := by
  unfold State.queueSeg
  dsimp only
  split
  · exact refl s
  · split
    · exact of_modSess (sendSeg ..) fun _ => rfl
    · exact modSess c _ fun _ => rfl

theorem foldl {α : Type} {step : State → α → State} (h : ∀ (s : State) a, s.Sending (step s a)) (l : List α) (s : State) :
    s.Sending (l.foldl step s) := by
  induction l generalizing s with
  | nil => exact refl s
  | cons a l ih => exact (h s a).trans (ih _)

theorem fillWindow (c : Nat) : s.Sending (s.fillWindow c) :=
  of_modSess (foldl (fun _ g => queueSeg c g) _ _) fun _ => rfl

theorem ackTo (c a : Nat) : s.Sending (s.ackTo c a) := by
  unfold State.ackTo
  dsimp only
  split
  · exact of_modSess (fillWindow c) fun _ => rfl
  · exact refl s

theorem sendAck (c type : Nat) : s.Sending (s.sendAck c type) :=
  of_modSess (sendSeg ..) fun _ => rfl

theorem post (oob : Bool) (f : Frame401) : s.Sending (s.post oob f) := by
  unfold State.post
  dsimp only
  split
  · exact of_eq rfl rfl rfl
  · exact (of_eq rfl rfl rfl : s.Sending (s.emit _)).trans (queueSeg ..)

theorem answer (src : Src) (cmd mbox : Nat) (e : Err) (p : List Byte) : s.Sending (s.answer src cmd mbox e p) :=
  of_same (post ..) rfl rfl rfl

theorem reply (src : Src) (cmd : Nat) (e : Err) (p : List Byte) : s.Sending (s.reply src cmd e p) :=
  of_same (post ..) rfl rfl rfl

theorem raise (die unit sev : Nat) (code : Err) (data : List Byte) : s.Sending (s.raise die unit sev code data) :=
  of_eq (by simp) (by simp) (by simp)

theorem logSig (c : Nat) : s.Sending (s.logSig c) := by
  unfold State.logSig
  split
  · split
    · exact refl s
    · exact of_same (raise ..) rfl rfl rfl
  · exact of_same (raise ..) rfl rfl rfl

theorem takeFrame (src : Src) (f : CmdFrame) : s.Sending (s.takeFrame src f) := by
  have hacc (q : Bool) : s.Sending (s.acceptFrame src.ctrl src.mbox f q) := of_eq rfl rfl rfl
  have hrefuse (e : Err) : s.Sending _ := (hacc false).trans (reply src f.command e [])
  unfold State.takeFrame
  dsimp only
  split
  · split
    · split
      · exact post ..
      · split
        · exact refl s
        · exact answer ..
    · exact answer ..
  · split
    · exact answer ..
    · split
      · exact hrefuse _
      · split
        · exact hrefuse _
        · have hif (b : Bool) : s.Sending (if b then (s.acceptFrame src.ctrl src.mbox f false).reply src f.command .badarg []
              else s.acceptFrame src.ctrl src.mbox f true) := by
            cases b
            · exact hacc true
            · exact hrefuse _
          exact hif _

/-- A frame that begins no session leaves what every session receives (R399, R400). -/
theorem mailboxFrame {c : Ctrl} (seg : List Byte) (hpend : Tab.find? s.xp.pend c.val = none) : s.Sending (s.mailboxFrame c false seg) := by
  have hbad : s.Sending s.discardFrame := of_eq rfl rfl rfl
  have hsig : s.Sending (s.discardFrame.logSig c) := hbad.trans (logSig c)
  unfold State.mailboxFrame
  dsimp only
  split
  · exact hbad
  · split
    · exact hbad
    · split
      · split
        · exact of_eq rfl rfl rfl
        · exact hsig
      · split
        · exact hsig
        case h_2 first _ =>
          rw [hpend]
          cases first
          all_goals
            split
            · exact takeFrame ..
            · exact answer ..

end State.Sending

end Sys2Proof.Machine

namespace Sys2Proof.Machine

/-! Segments received (R378 to R384). -/

/-- The row of a segment's TYPE (R374). -/
def segRow (k : EthPort) (q : SubPort) (f : RxSegment) (type : Nat) : Instr :=
  if type = 1 then .mboxSegment k q f else if type = 2 then .dataSegment k q f false
  else if type = 3 then .ackSegment k q f else .nakSegment k q f

theorem State.rxFront_bad {s : State} {k : EthPort} {q : SubPort} {f : RxSegment} (hin : s.subIn k q = true)
    (hbad : segBad (s.eth k).jumbo f.seg = true) (type : Nat) : s.rxFront k q f type = .error (s.ethDiscard k 5) := by
  unfold rxFront
  dsimp only
  rw [hin, hbad]
  rfl

theorem State.rxFront_stranger {s : State} {k : EthPort} {q : SubPort} {f : RxSegment} {type : Nat} (hin : s.subIn k q = true)
    (hbad : segBad (s.eth k).jumbo f.seg = false) (htype : fld f.seg 3 1 = type)
    (hc : 8 ≤ fld f.seg 4 1 ∨ (s.enrol (fld f.seg 4 1)).st ≠ 1 ∨
      ((s.enrol (fld f.seg 4 1)).primary ≠ k.val + 16 * q.val ∧ (s.enrol (fld f.seg 4 1)).backup ≠ k.val + 16 * q.val)) :
    s.rxFront k q f type = .error (s.ethDiscard k 6) := by
  unfold rxFront
  dsimp only
  rw [hin, hbad, if_neg (by simp), if_neg (by simp), if_neg (by simpa using htype), if_pos hc]

theorem State.rxFront_ok {s : State} {k : EthPort} {q : SubPort} {f : RxSegment} {type c : Nat} {m : Tab Meter}
    (h : s.rxFront k q f type = .ok (c, m)) : c = fld f.seg 4 1 ∧ c < 8 := by
  unfold rxFront at h
  dsimp only at h
  split at h
  · cases h
  split at h
  · cases h
  split at h
  · cases h
  split at h
  · cases h
  next hc =>
    split at h
    · cases h
    · split at h
      · cases h
        exact ⟨rfl, by omega⟩
      · cases h

section
variable {s t : State} {k : EthPort} {q : SubPort} {f : RxSegment} {type c d : Nat} {m : Tab Meter}

/-- A frame that goes no further (R378). -/
theorem exec_segRow_error (htype : type ∈ [1, 2, 3, 4]) (h : s.rxFront k q f type = .error t) : exec (segRow k q f type) s = .next t := by
  simp only [List.mem_cons, List.not_mem_nil, or_false] at htype
  obtain rfl | rfl | rfl | rfl := htype
  · have hx : exec (segRow k q f 1) s = execMboxSegment k q f s := rfl
    rw [hx, execMboxSegment, h]
  · have hx : exec (segRow k q f 2) s = execDataSegment k q f false s := rfl
    rw [hx, execDataSegment, h]
  · have hx : exec (segRow k q f 3) s = s.ackSeg k q f 3 fun s _ => s := rfl
    rw [hx, State.ackSeg, h]
  · have hx : exec (segRow k q f 4) s = s.ackSeg k q f 4 State.resend := rfl
    rw [hx, State.ackSeg, h]

/-- A segment whose MAC does not verify (R378, R379). -/
theorem exec_segRow_badMac (htype : type ∈ [2, 3, 4]) (h : s.rxFront k q f type = .ok (c, m))
    (hmac : macOk (s.sess c).key f.seg = false) : exec (segRow k q f type) s = .next (s.badMac k) := by
  simp only [List.mem_cons, List.not_mem_nil, or_false] at htype
  obtain rfl | rfl | rfl := htype
  · have hx : exec (segRow k q f 2) s = execDataSegment k q f false s := rfl
    rw [hx, execDataSegment, h]
    dsimp only
    rw [if_pos (Or.inr hmac)]
  · have hx : exec (segRow k q f 3) s = s.ackSeg k q f 3 fun s _ => s := rfl
    rw [hx, State.ackSeg, h]
    dsimp only
    rw [if_pos (Or.inr hmac)]
  · have hx : exec (segRow k q f 4) s = s.ackSeg k q f 4 State.resend := rfl
    rw [hx, State.ackSeg, h]
    dsimp only
    rw [if_pos (Or.inr hmac)]

/-- An authentic MBOX in order goes to the mailbox engine (R380, R383). -/
theorem exec_mboxSegment_inOrder (h : s.rxFront k q f 1 = .ok (c, m)) (hst : (s.sess c).st = 1)
    (hmac : macOk (s.sess c).key f.seg = true) (hopen : fld ((f.seg.drop 32).take (fld f.seg 6 2)) 6 2 ≠ 0x0C01)
    (hd : (fld f.seg 8 4 + 2 ^ 32 - (s.sess c).expPsn) % 2 ^ 32 = d) (hd0 : d = 0) :
    exec (segRow k q f 1) s =
      .next (((s.heard k q c f m).accepted c f.seg).mailboxFrame (Fin.ofNat 8 c) false ((f.seg.drop 32).take (fld f.seg 6 2))) := by
  have hx : exec (segRow k q f 1) s = execMboxSegment k q f s := rfl
  rw [hx, execMboxSegment, h]
  dsimp only
  rw [if_neg (fun hz => hopen hz.1), if_pos ⟨hst, hmac⟩, hd, if_pos hd0]

/-- An authentic segment out of order (R380). -/
theorem exec_segRow_outOfOrder (htype : type ∈ [1, 2]) (h : s.rxFront k q f type = .ok (c, m)) (hst : (s.sess c).st = 1)
    (hmac : macOk (s.sess c).key f.seg = true) (hopen : fld ((f.seg.drop 32).take (fld f.seg 6 2)) 6 2 ≠ 0x0C01)
    (hd : (fld f.seg 8 4 + 2 ^ 32 - (s.sess c).expPsn) % 2 ^ 32 = d) (hd0 : d ≠ 0) :
    exec (segRow k q f type) s = .next (s.outOfOrder c d) := by
  simp only [List.mem_cons, List.not_mem_nil, or_false] at htype
  obtain rfl | rfl := htype
  · have hx : exec (segRow k q f 1) s = execMboxSegment k q f s := rfl
    rw [hx, execMboxSegment, h]
    dsimp only
    rw [if_neg (fun hz => hopen hz.1), if_pos ⟨hst, hmac⟩, hd, if_neg hd0]
  · have hx : exec (segRow k q f 2) s = execDataSegment k q f false s := rfl
    rw [hx, execDataSegment, h]
    dsimp only
    rw [if_neg (by simp [hst, hmac]), hd, if_pos hd0]

/-- An authentic DATA in order whose bytes are dealt with (R381). -/
theorem exec_dataSegment_inOrder (h : s.rxFront k q f 2 = .ok (c, m)) (hst : (s.sess c).st = 1)
    (hmac : macOk (s.sess c).key f.seg = true) (hd : (fld f.seg 8 4 + 2 ^ 32 - (s.sess c).expPsn) % 2 ^ 32 = d) (hd0 : d = 0)
    (hput : s.putData c f.seg false = some t) :
    exec (segRow k q f 2) s = .next ((t.heard k q c f m).accepted c f.seg) := by
  have hx : exec (segRow k q f 2) s = execDataSegment k q f false s := rfl
  rw [hx]
  unfold execDataSegment
  rw [h]
  dsimp only
  rw [hd, if_neg (by simp [hst, hmac]), if_neg (fun hd1 => hd1 hd0)]
  rw [hput]

/-- An authentic ACK or NAK (R380). -/
theorem exec_ackSegment (htype : type ∈ [3, 4]) (h : s.rxFront k q f type = .ok (c, m)) (hst : (s.sess c).st = 1)
    (hmac : macOk (s.sess c).key f.seg = true) :
    exec (segRow k q f type) s = .next (if type = 4 then ((s.heard k q c f m).ackTo c (fld f.seg 12 4)).resend c
      else (s.heard k q c f m).ackTo c (fld f.seg 12 4)) := by
  simp only [List.mem_cons, List.not_mem_nil, or_false] at htype
  obtain rfl | rfl := htype
  · have hx : exec (segRow k q f 3) s = s.ackSeg k q f 3 fun s _ => s := rfl
    rw [hx, State.ackSeg, h]
    dsimp only
    rw [if_neg (by simp [hst, hmac]), if_neg (by decide)]
  · have hx : exec (segRow k q f 4) s = s.ackSeg k q f 4 State.resend := rfl
    rw [hx, State.ackSeg, h]
    dsimp only
    rw [if_neg (by simp [hst, hmac]), if_pos rfl]

end

/-! What the parts of a row change. -/

theorem State.badMac_spec (s : State) (k : Nat) : (s.badMac k).xp = s.xp ∧ (s.badMac k).mbx = s.mbx ∧
    Tab.get 0 ((s.badMac k).eth k).discards 7 = sat 32 (Tab.get 0 (s.eth k).discards 7 + 1) := by
  have hd : Tab.get 0 ((s.ethDiscard k 7).eth k).discards 7 = sat 32 (Tab.get 0 (s.eth k).discards 7 + 1) := by
    unfold ethDiscard
    rw [eth_modEth, if_pos rfl]
    dsimp only
    rw [tab_get_modify, if_pos rfl]
  unfold badMac
  extract_lets u due
  have hu : u.xp = s.xp ∧ u.mbx = s.mbx := ⟨rfl, rfl⟩
  obtain ⟨hxp, hmbx⟩ := hu
  split
  · refine ⟨by simp [hxp], by simp [hmbx], ?_⟩
    rw [eth, raise_eths, ← eth, eth_modEth, if_pos rfl]
    exact hd
  · exact ⟨hxp, hmbx, hd⟩

theorem State.xp_ingressBytes (s : State) (k q n bytes : Nat) :
    (s.ingressBytes k q n bytes).xp = s.xp ∧ (s.ingressBytes k q n bytes).hbm = s.hbm ∧
      (s.ingressBytes k q n bytes).mbx = s.mbx ∧ ((s.ingressBytes k q n bytes).eth k).rx = (s.eth k).rx := by
  have hsub (s : State) (g : SubSt → SubSt) : ((s.modSub k q g).eth k).rx = (s.eth k).rx := by
    unfold modSub
    rw [eth_modEth, if_pos rfl]
  unfold ingressBytes
  extract_lets u e v
  have hu : u.xp = s.xp ∧ u.hbm = s.hbm ∧ u.mbx = s.mbx ∧ (u.eth k).rx = (s.eth k).rx := ⟨rfl, rfl, rfl, hsub ..⟩
  clear_value u
  obtain ⟨hxp, hhbm, hmbx, hrx⟩ := hu
  split
  · refine ⟨hxp, hhbm, hmbx, ?_⟩
    unfold sendPfc
    rw [eth, emit_eths, ← eth, eth_modEth, if_pos rfl]
    exact (hsub ..).trans hrx
  · exact ⟨hxp, hhbm, hmbx, hrx⟩

/-- What hearing a segment changes (R374, R386). -/
theorem State.heard_spec (s : State) (k q c : Nat) (f : RxSegment) (m : Tab Meter) :
    (s.heard k q c f m).xp = (s.modSess c fun x =>
        { x with lastSub := k + 16 * q, peerMac := f.mac, peerIp := f.ip, peerPort := f.port }).xp ∧
      (s.heard k q c f m).hbm = s.hbm ∧ ((s.heard k q c f m).eth k).rx = (s.eth k).rx + 1 := by
  unfold heard
  extract_lets u
  obtain ⟨hxp, hhbm, -, hrx⟩ := (u.modEth k fun e => { e with rx := e.rx + 1, meters := m }).xp_ingressBytes k q f.pcp f.wire
  refine ⟨hxp, hhbm, ?_⟩
  rw [hrx, eth_modEth, if_pos rfl]
  rfl

/-- The transport but for its sessions, kept twice. -/
theorem Xport.rest_trans {x y z : Xport} (h : { z with sess := y.sess } = y) (h' : { y with sess := x.sess } = x) :
    { z with sess := x.sess } = x := by
  rw [← h', ← h]

/-- A segment accepted (R380): E rises. -/
theorem State.accepted_spec (s : State) (c : Nat) (b : List Byte) :
    ((s.accepted c b).sess c).expPsn = ((s.sess c).expPsn + 1) % 2 ^ 32 ∧ ((s.accepted c b).sess c).accepted = (s.sess c).accepted + 1 ∧
      ((s.accepted c b).sess c).lastSub = (s.sess c).lastSub ∧ { (s.accepted c b).xp with sess := s.xp.sess } = s.xp ∧
      (∀ k, ((s.accepted c b).eth k).rx = (s.eth k).rx) ∧ (s.accepted c b).hbm = s.hbm := by
  obtain ⟨u, hu⟩ : ∃ u, u = s.modSess c fun x => { x with
    expPsn := (x.expPsn + 1) % 2 ^ 32, accepted := x.accepted + 1, naked := none, toAck := x.toAck + 1,
    ackFrom := if x.toAck = 0 then s.aonNs else x.ackFrom } := ⟨_, rfl⟩
  have hxp : { u.xp with sess := s.xp.sess } = s.xp := by rw [hu]; rfl
  have hrx (k : Nat) : (u.eth k).rx = (s.eth k).rx := by rw [hu]; rfl
  have hhbm : u.hbm = s.hbm := by rw [hu]; rfl
  have hx : (u.sess c).expPsn = ((s.sess c).expPsn + 1) % 2 ^ 32 ∧ (u.sess c).accepted = (s.sess c).accepted + 1 ∧
      (u.sess c).lastSub = (s.sess c).lastSub := by
    rw [hu, sess_modSess, if_pos rfl]
    exact ⟨rfl, rfl, rfl⟩
  have hv : s.accepted c b = if 16 ≤ ((u.ackTo c (fld b 12 4)).sess c).toAck ∨ bit (fld b 5 1) 0
      then (u.ackTo c (fld b 12 4)).sendAck c 3 else u.ackTo c (fld b 12 4) := by
    unfold accepted
    dsimp only
    rw [← hu]
  have hw : u.Sending (s.accepted c b) := by
    rw [hv]
    split
    · exact (Sending.ackTo c _).trans (Sending.sendAck c 3)
    · exact Sending.ackTo c _
  have hr := hw.sess c
  simp only [Xs.received, Prod.mk.injEq] at hr
  obtain ⟨-, hexp, hacc, hsub, -, -⟩ := hr
  obtain ⟨hx1, hx2, hx3⟩ := hx
  refine ⟨hexp.trans hx1, hacc.trans hx2, hsub.trans hx3, ?_, fun k => (hw.rx k).trans (hrx k), hw.hbm.trans hhbm⟩
  exact Xport.rest_trans hw.xp hxp

end Sys2Proof.Machine

namespace Sys2Proof.Machine

/-! Acknowledgements, timers and transfers (R380 to R382), and the rows of the transport. -/

theorem State.sess_sendAck (s : State) (c type : Nat) : (s.sendAck c type).sess c = { s.sess c with toAck := 0 } := by
  change (s.modSess c fun x => { x with toAck := 0 }).sess c = _
  rw [sess_modSess, if_pos rfl]

/-- The session of a segment heard (R374). -/
theorem State.sess_heard (s : State) (k q c : Nat) (f : RxSegment) (m : Tab Meter) : (s.heard k q c f m).sess c =
    { s.sess c with lastSub := k + 16 * q, peerMac := f.mac, peerIp := f.ip, peerPort := f.port } := by
  rw [sess, (s.heard_spec k q c f m).1, ← sess, sess_modSess, if_pos rfl]

theorem State.xfer_heard (s : State) (k q c : Nat) (f : RxSegment) (m : Tab Meter) (i : Nat) : (s.heard k q c f m).xfer i = s.xfer i := by
  rw [xfer, (s.heard_spec k q c f m).1]
  rfl

/-- A segment of the controller's, heard and accepted (R374, R380). -/
theorem State.heardAccepted_spec (s : State) (k q c : Nat) (f : RxSegment) (m : Tab Meter) {t : State}
    (ht : t = (s.heard k q c f m).accepted c f.seg) :
    (t.sess c).expPsn = ((s.sess c).expPsn + 1) % 2 ^ 32 ∧ (t.sess c).accepted = (s.sess c).accepted + 1 ∧
      (t.sess c).lastSub = k + 16 * q ∧ (t.eth k).rx = (s.eth k).rx + 1 ∧ (∀ i, t.xfer i = s.xfer i) ∧ t.xp.pend = s.xp.pend ∧
      t.hbm = s.hbm := by
  obtain ⟨hxp, hhbm, hrx⟩ := s.heard_spec k q c f m
  have hx := s.sess_heard k q c f m
  have hi := s.xfer_heard k q c f m
  have hpend : (s.heard k q c f m).xp.pend = s.xp.pend := (congrArg Xport.pend hxp).trans rfl
  generalize s.heard k q c f m = u at hxp hhbm hrx hx hi hpend ht
  obtain ⟨hexp, hacc, hsub, hrest, hrx', hhbm'⟩ := u.accepted_spec c f.seg
  rw [← ht] at hexp hacc hsub hrest hrx' hhbm'
  have hxe : (u.sess c).expPsn = (s.sess c).expPsn := (congrArg Xs.expPsn hx).trans rfl
  have hxa : (u.sess c).accepted = (s.sess c).accepted := (congrArg Xs.accepted hx).trans rfl
  have hxl : (u.sess c).lastSub = k + 16 * q := (congrArg Xs.lastSub hx).trans rfl
  rw [hxe] at hexp
  rw [hxa] at hacc
  rw [hxl] at hsub
  refine ⟨hexp, hacc, hsub, (hrx' k).trans hrx, fun i => ?_, (congrArg Xport.pend hrest).trans hpend, hhbm'.trans hhbm⟩
  exact (congrArg (fun x : Xport => Tab.get ({} : Xfer) x.xfers i) hrest).trans (hi i)

/-- Segments acknowledged with none waiting (R380). -/
theorem State.ackTo_spec {s : State} {c a : Nat} (h0 : 0 < (a + 2 ^ 32 - (s.sess c).ackPsn) % 2 ^ 32)
    (hn : (a + 2 ^ 32 - (s.sess c).ackPsn) % 2 ^ 32 ≤ (s.sess c).unacked.length) (hw : (s.sess c).waiting = []) :
    (s.ackTo c a).sess c = { s.sess c with ackPsn := a, unacked := (s.sess c).unacked.drop ((a + 2 ^ 32 - (s.sess c).ackPsn) % 2 ^ 32),
                                           timeouts := 0, lastAdv := s.aonNs } ∧ (s.ackTo c a).xp.retx = s.xp.retx := by
  refine ⟨?_, (Sending.ackTo c a).retx⟩
  unfold ackTo
  dsimp only
  rw [if_pos ⟨h0, hn⟩]
  generalize (a + 2 ^ 32 - (s.sess c).ackPsn) % 2 ^ 32 = n
  obtain ⟨u, hu⟩ : ∃ u, u = s.modSess c fun x => { x with ackPsn := a, unacked := x.unacked.drop n, timeouts := 0, lastAdv := s.aonNs } :=
    ⟨_, rfl⟩
  have hux : u.sess c = { s.sess c with ackPsn := a, unacked := (s.sess c).unacked.drop n, timeouts := 0, lastAdv := s.aonNs } := by
    rw [hu, sess_modSess, if_pos rfl]
  have huw : (u.sess c).waiting = [] := by rw [hux]; exact hw
  rw [← hu, ← hux]
  unfold fillWindow
  dsimp only
  rw [huw, List.take_nil, List.drop_nil, List.foldl_nil, sess_modSess, if_pos rfl, ← huw]

/-- Unacknowledged segments sent again (R380). -/
theorem State.xp_resend (s : State) (c : Nat) : (s.resend c).xp = { s.xp with retx := s.xp.retx + (s.sess c).unacked.length } :=
  foldl_keeps State.xp (f := fun s g => s.sendSeg c g) (fun s g => sendSeg_xp s c g false) (s.sess c).unacked
    { s with xp := { s.xp with retx := s.xp.retx + (s.sess c).unacked.length } }

theorem State.sess_resend (s : State) (c : Nat) : (s.resend c).sess c = s.sess c := by
  rw [sess, xp_resend]
  rfl

/-- A transfer ended (R381, R382). -/
theorem State.xfer_endXfer (s : State) (i j : Nat) (e : Err) : (s.endXfer i e).xfer j = if j = i
    then { s.xfer i with st := if e = Err.ok then 2 else 3, code := e, ended := s.now, doneDue := true } else s.xfer j := by
  unfold endXfer
  rw [xfer_modXfer]

/-- No transfer of a controller is open once its transfers have failed (R380). -/
theorem State.failXfers_closes (s : State) (c : Nat) {i : Nat} (hi : i < 32) : ((s.failXfers c).xfer (32 * c + i)).st ≠ 1 := by
  unfold failXfers
  dsimp only
  obtain ⟨step, hstep⟩ : ∃ step : State → Nat → State, step = fun s i => if (s.xfer (32 * c + i)).st = 1
    then s.modXfer (32 * c + i) fun f => { f with st := 3, code := .aborted, ended := s.now, doneDue := true } else s := ⟨_, rfl⟩
  have hone (s : State) (i j : Nat) : ((step s i).xfer j).st ≠ 1 ↔ (j = 32 * c + i ∨ (s.xfer j).st ≠ 1) := by
    rw [hstep]
    dsimp only
    split
    · rw [xfer_modXfer]
      split <;> simp [*]
    · by_cases hj : j = 32 * c + i
      · subst hj; simp [*]
      · simp [hj]
  have hall (l : List Nat) (s : State) (i : Nat) (h : i ∈ l ∨ (s.xfer (32 * c + i)).st ≠ 1) :
      ((l.foldl step s).xfer (32 * c + i)).st ≠ 1 := by
    induction l generalizing s with
    | nil => simpa using h
    | cons a l ih =>
      refine ih _ ?_
      rw [hone]
      rcases h with h | h
      · rcases List.mem_cons.mp h with rfl | h
        · exact Or.inr (Or.inl rfl)
        · exact Or.inl h
      · exact Or.inr (Or.inr h)
  have := hall (List.range 32) s i (Or.inl (List.mem_range.mpr hi))
  rw [hstep] at this
  exact this

theorem State.failXfers_keeps (s : State) (c : Nat) : (s.failXfers c).xp.sess = s.xp.sess ∧ (s.failXfers c).xp.pend = s.xp.pend ∧
    (s.failXfers c).mbx = s.mbx ∧ (s.failXfers c).out = s.out := by
  have h (l : List Nat) : (fun t : State => (t.xp.sess, t.xp.pend, t.mbx, t.out)) (l.foldl (fun s i =>
      let x := 32 * c + i
      if (s.xfer x).st = 1 then s.modXfer x fun f => { f with st := 3, code := .aborted, ended := s.now, doneDue := true } else s) s) =
        (s.xp.sess, s.xp.pend, s.mbx, s.out) := by
    refine foldl_keeps (fun t : State => (t.xp.sess, t.xp.pend, t.mbx, t.out)) (fun t i => ?_) l s
    dsimp only
    split <;> rfl
  unfold failXfers
  simpa only [Prod.mk.injEq] using h (List.range 32)

/-- A session ended (R380, R400). -/
theorem State.endSession_spec (s : State) (c st : Nat) : ((s.endSession c st).sess c).st = st ∧ ((s.endSession c st).sess c).unacked = [] ∧
    ∀ i, i < 32 → ((s.endSession c st).xfer (32 * c + i)).st ≠ 1 := by
  have hclosed (i : Nat) (hi : i < 32) := s.failXfers_closes c hi
  unfold endSession
  dsimp only
  generalize s.failXfers c = u at hclosed ⊢
  obtain ⟨v, hv⟩ : ∃ v, v = u.modSess c fun x => { x with st := st, unacked := [], waiting := [], toAck := 0 } := ⟨_, rfl⟩
  have hx : v.sess c = { u.sess c with st := st, unacked := [], waiting := [], toAck := 0 } := by
    rw [hv, sess_modSess, if_pos rfl]
  have hxfer (i : Nat) : v.xfer i = u.xfer i := by rw [hv]; rfl
  rw [← hv]
  refine ⟨?_, ?_, fun i hi => ?_⟩
  · exact congrArg Xs.st hx
  · exact congrArg Xs.unacked hx
  · have := hclosed i hi
    rw [← hxfer] at this
    exact this

/-- A session ended leaves the others, and nothing is sent (R400). -/
theorem State.endSession_keeps (s : State) (c st : Nat) : (s.endSession c st).out = s.out ∧
    ∀ k, k ≠ c → (s.endSession c st).sess k = s.sess k := by
  obtain ⟨hsess, -, -, hout⟩ := s.failXfers_keeps c
  unfold endSession
  dsimp only
  generalize s.failXfers c = u at hsess hout ⊢
  refine ⟨hout, fun k hk => ?_⟩
  have hx : (u.modSess c fun x => { x with st := st, unacked := [], waiting := [], toAck := 0 }).sess k = u.sess k := by
    rw [sess_modSess, if_neg hk]
  refine Eq.trans ?_ (hx.trans ?_)
  · rfl
  · rw [sess, hsess, sess]

/-- A segment queued on an open session with room in its window (R379, R380). -/
theorem State.sess_queueSeg {s : State} {c : Nat} (hst : (s.sess c).st = 1) (hroom : (s.sess c).unacked.length < 1024) (g : TxSeg) :
    ((s.queueSeg c g).sess c).nextPsn = ((s.sess c).nextPsn + 1) % 2 ^ 32 ∧ ((s.queueSeg c g).sess c).unacked = (s.sess c).unacked ++
      [{ g with psn := (s.sess c).nextPsn, pcp := if g.type = 2 then g.pcp else (s.sess c).pcp }] := by
  have hx : (s.queueSeg c g).sess c = (s.modSess c fun x => { x with
      nextPsn := (x.nextPsn + 1) % 2 ^ 32,
      unacked := x.unacked ++ [{ g with psn := (s.sess c).nextPsn, pcp := if g.type = 2 then g.pcp else (s.sess c).pcp }],
      lastAdv := if x.unacked = [] then s.aonNs else x.lastAdv }).sess c := by
    unfold queueSeg
    dsimp only
    rw [if_neg (by simp [hst]), if_pos hroom]
    rfl
  rw [hx, sess_modSess, if_pos rfl]
  exact ⟨rfl, rfl⟩

theorem State.keeps_bpFree (s : State) (d r a : Nat) : (s.bpFree d r a).1.xp = s.xp ∧ (s.bpFree d r a).1.hbm = s.hbm := by
  cases h : (s.cd d).bp.release r a with
  | ok b =>
    rw [bpFree_ok h]
    exact ⟨rfl, rfl⟩
  | error e =>
    rw [bpFree_error h]
    exact ⟨raise_xp .., raise_hbm ..⟩

end Sys2Proof.Machine

namespace Sys2Proof.Machine

/-! What each row of the transport does (R378 to R384). -/

section
variable {s : State} {c : Nat} {b : List Byte} {i : Nat} {y : Xfer}

/-- DATA at another offset than the next fails its transfer (R381). -/
theorem State.putData_seq (hi : fld b 16 2 = i) (hy : s.xfer i = y) (hc : i / 32 = c) (hst : y.st = 1) (hget : y.get = false)
    (hoff : fld b 20 8 ≠ y.done) : s.putData c b false = some (s.endXfer i .seq) := by
  unfold putData
  dsimp only
  rw [hi, hy, if_neg (by simp [hc, hst, hget]), if_pos hoff]

/-- DATA in place is written, and the transfer goes on or ends (R381, R382). -/
theorem State.putData_written {data : List Byte} {a : Nat} {u w : State} (hi : fld b 16 2 = i) (hy : s.xfer i = y)
    (hdata : (b.drop 32).take (fld b 6 2) = data) (hc : i / 32 = c) (hst : y.st = 1) (hget : y.get = false) (hoff : fld b 20 8 = y.done)
    (hfits : y.done + data.length ≤ y.length) (hpart : data.length % 64 = 0 ∨ y.done + data.length = y.length) (hdie : s.dieIn y.die = true)
    (ha : s.bpAlloc y.die c 2 = (u, .ok a))
    (hw : u.vaWrite y.die (u.collSlot y.die y.ctx) y.ctx (y.va + y.done) data = (w, .more)) (hwy : w.xfer i = y) :
    ∃ t, s.putData c b false = some t ∧ t.hbm = w.hbm ∧ (t.xfer i).done = y.done + data.length ∧
      (t.xfer i).st = (if y.done + data.length = y.length then 2 else 1) ∧
      ((t.xfer i).doneDue = true ↔ y.doneDue = true ∨ y.done + data.length = y.length) := by
  obtain ⟨hbxp, hbhbm⟩ := w.keeps_bpFree y.die c a
  obtain ⟨v, hv⟩ : ∃ v, v = (w.bpFree y.die c a).1.modXfer i fun t => { t with done := t.done + data.length } := ⟨_, rfl⟩
  have hvhbm : v.hbm = w.hbm := by rw [hv, modXfer_hbm, hbhbm]
  have hvi : v.xfer i = { y with done := y.done + data.length } := by
    rw [hv, xfer_modXfer, if_pos rfl, xfer, hbxp, ← xfer, hwy]
  have hput : s.putData c b false = some (if (v.xfer i).done = y.length then v.endXfer i .ok else v) := by
    unfold putData
    dsimp only
    rw [hi, hy, hdata, if_neg (by simp [hc, hst, hget]), if_neg (by simp [hoff]), if_neg (by omega), hdie, if_neg (by simp), ha]
    dsimp only
    rw [if_neg (by simp), hw]
    dsimp only [HenEnd.collErr]
    rw [← hv]
  refine ⟨_, hput, ?_⟩
  rw [hvi]
  dsimp only
  by_cases hend : y.done + data.length = y.length
  · rw [if_pos hend, if_pos hend, xfer_endXfer, if_pos rfl, hvi]
    exact ⟨hvhbm, rfl, rfl, by simp [hend]⟩
  · rw [if_neg hend, if_neg hend, hvi]
    exact ⟨hvhbm, rfl, hst, by simp [hend]⟩

end

section
variable {s : State} {k : EthPort} {q : SubPort} {f : RxSegment} {type c : Nat} {m : Tab Meter} {x : Xs}

theorem runs_segRow_badMac (htype : type ∈ [2, 3, 4]) (h : s.rxFront k q f type = .ok (c, m))
    (hmac : macOk (s.sess c).key f.seg = false) : Runs (segRow k q f type) s fun t => t.xp = s.xp ∧ t.mbx = s.mbx ∧
      Tab.get 0 (t.eth k).discards 7 = sat 32 (Tab.get 0 (s.eth k).discards 7 + 1) :=
  runs_of_exec (exec_segRow_badMac htype h hmac) (s.badMac_spec k)

theorem exec_segRow_naked {d : Nat} (htype : type ∈ [1, 2]) (h : s.rxFront k q f type = .ok (c, m)) (hx : s.sess c = x) (hst : x.st = 1)
    (hmac : macOk x.key f.seg = true) (hopen : fld ((f.seg.drop 32).take (fld f.seg 6 2)) 6 2 ≠ 0x0C01)
    (hd : (fld f.seg 8 4 + 2 ^ 32 - x.expPsn) % 2 ^ 32 = d) (hd0 : 0 < d) (hd1 : d < 2 ^ 31) (hn : x.naked = some x.expPsn) :
    exec (segRow k q f type) s = .next s := by
  subst hx
  rw [exec_segRow_outOfOrder htype h hst hmac hopen hd (by omega), State.outOfOrder, if_pos hd1, if_pos hn]

theorem runs_segRow_nak {d : Nat} (htype : type ∈ [1, 2]) (h : s.rxFront k q f type = .ok (c, m)) (hx : s.sess c = x) (hst : x.st = 1)
    (hmac : macOk x.key f.seg = true) (hopen : fld ((f.seg.drop 32).take (fld f.seg 6 2)) 6 2 ≠ 0x0C01)
    (hd : (fld f.seg 8 4 + 2 ^ 32 - x.expPsn) % 2 ^ 32 = d) (hd0 : 0 < d) (hd1 : d < 2 ^ 31) (hn : x.naked ≠ some x.expPsn) :
    Runs (segRow k q f type) s fun t => t.mbx = s.mbx ∧ t.out = s.out ∧ t.sess c = { x with naked := some x.expPsn, toAck := 0 } := by
  subst hx
  have he := exec_segRow_outOfOrder htype h hst hmac hopen hd (by omega)
  rw [State.outOfOrder, if_pos hd1, if_neg hn] at he
  refine runs_of_exec he ⟨rfl, rfl, ?_⟩
  rw [State.sess_sendAck, State.sess_modSess, if_pos rfl]

theorem runs_segRow_duplicate {d : Nat} (htype : type ∈ [1, 2]) (h : s.rxFront k q f type = .ok (c, m)) (hx : s.sess c = x) (hst : x.st = 1)
    (hmac : macOk x.key f.seg = true) (hopen : fld ((f.seg.drop 32).take (fld f.seg 6 2)) 6 2 ≠ 0x0C01)
    (hd : (fld f.seg 8 4 + 2 ^ 32 - x.expPsn) % 2 ^ 32 = d) (hd1 : 2 ^ 31 ≤ d) :
    Runs (segRow k q f type) s fun t => t.mbx = s.mbx ∧ t.out = s.out ∧ t.sess c = { x with toAck := 0 } := by
  subst hx
  have he := exec_segRow_outOfOrder htype h hst hmac hopen hd (by omega)
  rw [State.outOfOrder, if_neg (by omega)] at he
  exact runs_of_exec he ⟨rfl, rfl, State.sess_sendAck ..⟩

theorem runs_mboxSegment_inOrder {d : Nat} (h : s.rxFront k q f 1 = .ok (c, m)) (hx : s.sess c = x) (hst : x.st = 1)
    (hmac : macOk x.key f.seg = true) (hopen : fld ((f.seg.drop 32).take (fld f.seg 6 2)) 6 2 ≠ 0x0C01)
    (hd : (fld f.seg 8 4 + 2 ^ 32 - x.expPsn) % 2 ^ 32 = d) (hd0 : d = 0) (hpend : Tab.find? s.xp.pend c = none) :
    Runs (segRow k q f 1) s fun t => (t.sess c).expPsn = (x.expPsn + 1) % 2 ^ 32 ∧
      (t.sess c).accepted = x.accepted + 1 ∧ (t.sess c).lastSub = k.val + 16 * q.val ∧ (t.eth k).rx = (s.eth k).rx + 1 ∧
      t = ((s.heard k q c f m).accepted c f.seg).mailboxFrame (Fin.ofNat 8 c) false ((f.seg.drop 32).take (fld f.seg 6 2)) := by
  subst hx
  have hc : (Fin.ofNat 8 c).val = c := Nat.mod_eq_of_lt (State.rxFront_ok h).2
  have he := exec_mboxSegment_inOrder h hst hmac hopen hd hd0
  generalize (f.seg.drop 32).take (fld f.seg 6 2) = frame at he ⊢
  generalize hu : (s.heard k q c f m).accepted c f.seg = u at he ⊢
  obtain ⟨hexp, hacc, hsub, hrx, -, hpend', -⟩ := s.heardAccepted_spec k q c f m hu.symm
  have hfind : Tab.find? u.xp.pend (Fin.ofNat 8 c).val = none := by rw [hpend', hc, hpend]
  have hsend : u.Sending (u.mailboxFrame (Fin.ofNat 8 c) false frame) := State.Sending.mailboxFrame frame hfind
  have hr := hsend.sess c
  simp only [Xs.received, Prod.mk.injEq] at hr
  obtain ⟨-, hexp', hacc', hsub', -, -⟩ := hr
  exact runs_of_exec he ⟨hexp'.trans hexp, hacc'.trans hacc, hsub'.trans hsub, (hsend.rx k).trans hrx, rfl⟩

/-- DATA whose bytes are dealt with (R381). -/
theorem runs_dataSegment {d : Nat} {u : State} (h : s.rxFront k q f 2 = .ok (c, m)) (hx : s.sess c = x) (hst : x.st = 1)
    (hmac : macOk x.key f.seg = true) (hd : (fld f.seg 8 4 + 2 ^ 32 - x.expPsn) % 2 ^ 32 = d) (hd0 : d = 0)
    (hput : s.putData c f.seg false = some u) :
    Runs (segRow k q f 2) s fun t => (t.sess c).expPsn = ((u.sess c).expPsn + 1) % 2 ^ 32 ∧ (∀ i, t.xfer i = u.xfer i) ∧ t.hbm = u.hbm := by
  subst hx
  have he := exec_dataSegment_inOrder h hst hmac hd hd0 hput
  generalize hv : (u.heard k q c f m).accepted c f.seg = v at he
  obtain ⟨hexp, -, -, -, hxfer, -, hhbm⟩ := u.heardAccepted_spec k q c f m hv.symm
  exact runs_of_exec he ⟨hexp, hxfer, hhbm⟩

theorem runs_ackSegment {n : Nat} (htype : type ∈ [3, 4]) (h : s.rxFront k q f type = .ok (c, m)) (hx : s.sess c = x) (hst : x.st = 1)
    (hmac : macOk x.key f.seg = true) (hn : (fld f.seg 12 4 + 2 ^ 32 - x.ackPsn) % 2 ^ 32 = n) (hn0 : 0 < n) (hn1 : n ≤ x.unacked.length)
    (hw : x.waiting = []) :
    Runs (segRow k q f type) s fun t => (t.sess c).ackPsn = fld f.seg 12 4 ∧
          (t.sess c).unacked = x.unacked.drop n ∧ (t.sess c).timeouts = 0 ∧ (t.sess c).expPsn = x.expPsn ∧
          t.xp.retx = s.xp.retx + if type = 4 then x.unacked.length - n else 0 := by
  subst hx
  have he := exec_ackSegment htype h hst hmac
  have hhx := s.sess_heard k q c f m
  have hhr : (s.heard k q c f m).xp.retx = s.xp.retx := (congrArg Xport.retx (s.heard_spec k q c f m).1).trans rfl
  generalize s.heard k q c f m = u at he hhx hhr
  have hack : (u.sess c).ackPsn = (s.sess c).ackPsn := (congrArg Xs.ackPsn hhx).trans rfl
  have hun : (u.sess c).unacked = (s.sess c).unacked := (congrArg Xs.unacked hhx).trans rfl
  have hexp : (u.sess c).expPsn = (s.sess c).expPsn := (congrArg Xs.expPsn hhx).trans rfl
  have hwait : (u.sess c).waiting = [] := (congrArg Xs.waiting hhx).trans hw
  rw [← hack] at hn
  obtain ⟨hvx, hvr⟩ := State.ackTo_spec (s := u) (c := c) (a := fld f.seg 12 4) (by rw [hn]; exact hn0) (by rw [hn, hun]; exact hn1) hwait
  rw [hn, hun] at hvx
  generalize u.ackTo c (fld f.seg 12 4) = v at he hvx hvr
  have hva : (v.sess c).ackPsn = fld f.seg 12 4 := congrArg Xs.ackPsn hvx
  have hvu : (v.sess c).unacked = (s.sess c).unacked.drop n := congrArg Xs.unacked hvx
  have hvt : (v.sess c).timeouts = 0 := congrArg Xs.timeouts hvx
  have hve : (v.sess c).expPsn = (s.sess c).expPsn := (congrArg Xs.expPsn hvx).trans hexp
  by_cases h4 : type = 4
  · rw [if_pos h4] at he
    rw [if_pos h4]
    refine runs_of_exec he ?_
    rw [State.sess_resend, State.xp_resend]
    refine ⟨hva, hvu, hvt, hve, ?_⟩
    dsimp only
    rw [hvr, hhr, hvu, List.length_drop]
  · rw [if_neg h4] at he
    rw [if_neg h4]
    exact runs_of_exec he ⟨hva, hvu, hvt, hve, hvr.trans hhr⟩

end

section
variable {s : State} {x : Xs}

theorem runs_transportAckTimer {c : Ctrl} (hx : s.sess c = x) (hst : x.st = 1) (hto : 0 < x.toAck) (hdue : x.ackFrom + 8000 ≤ s.aonNs) :
    Runs (.transportAckTimer c) s fun t => t.sess c = { x with toAck := 0 } ∧
        ∃ g, ((t.eth (s.outSub x % 16)).queue (s.outSub x / 16 % 4) (x.pcp % 8)).fifo =
          ((s.eth (s.outSub x % 16)).queue (s.outSub x / 16 % 4) (x.pcp % 8)).fifo ++ [g] ∧ g.ctrl = some c.val ∧ g.seg.type = 3 := by
  have he : exec (.transportAckTimer c) s = execTransportAckTimer c s := rfl
  unfold execTransportAckTimer at he
  dsimp only at he
  rw [hx, if_pos ⟨hst, hto, hdue⟩] at he
  refine runs_of_exec he ⟨by rw [State.sess_sendAck, hx], ?_⟩
  unfold State.sendAck State.sendSeg
  dsimp only
  rw [State.sess_modSess, if_pos rfl, hx]
  have hsub : (s.modSess c fun x => { x with toAck := 0 }).outSub { x with toAck := 0 } = s.outSub x := rfl
  rw [hsub, State.eth_modEth, if_pos rfl, Eth.queue_push, if_pos rfl, EgQ.fifo_push]
  exact ⟨_, rfl, rfl, rfl⟩

theorem runs_xportRtoExpiry {c : Ctrl} (hx : s.sess c = x) (hst : x.st = 1) (hun : x.unacked ≠ [])
    (hdue : x.lastAdv + s.xp.rto * 1000 ≤ s.aonNs) (hto : x.timeouts < 31) :
    Runs (.xportRtoExpiry c) s fun t => t.sess c = { x with timeouts := x.timeouts + 1, lastAdv := s.aonNs } ∧
          t.xp.retx = s.xp.retx + x.unacked.length := by
  have he : exec (.xportRtoExpiry c) s = execXportRtoExpiry c s := rfl
  unfold execXportRtoExpiry at he
  dsimp only at he
  rw [hx, if_neg (by simp [hst, hun]; omega), if_neg (by omega)] at he
  have hux : (s.modSess c fun x => { x with timeouts := x.timeouts + 1, lastAdv := s.aonNs }).sess c =
      { x with timeouts := x.timeouts + 1, lastAdv := s.aonNs } := by
    rw [State.sess_modSess, if_pos rfl, hx]
  refine runs_of_exec he ⟨by rw [State.sess_resend, hux], ?_⟩
  rw [State.xp_resend, hux]
  rfl

theorem runs_xportRtoExpiry_lost {c : Ctrl} (hx : s.sess c = x) (hst : x.st = 1) (hun : x.unacked ≠ [])
    (hdue : x.lastAdv + s.xp.rto * 1000 ≤ s.aonNs) (hto : 31 ≤ x.timeouts) :
    Runs (.xportRtoExpiry c) s fun t => (t.sess c).st = 2 ∧ (t.sess c).unacked = [] ∧ ∀ i, i < 32 → (t.xfer (32 * c.val + i)).st ≠ 1 := by
  have he : exec (.xportRtoExpiry c) s = execXportRtoExpiry c s := rfl
  unfold execXportRtoExpiry at he
  dsimp only at he
  rw [hx, if_neg (by simp [hst, hun]; omega), if_pos (by omega)] at he
  generalize s.modSess c (fun x => { x with timeouts := x.timeouts + 1, lastAdv := s.aonNs }) = u at he
  obtain ⟨h1, h2, h3⟩ := u.endSession_spec c 2
  refine runs_of_exec he ?_
  simp only [State.sess, State.xfer, State.raise_xp]
  exact ⟨h1, h2, h3⟩

theorem runs_xferDoneSend {i : Fin 256} {y : Xfer} (hy : s.xfer i = y) (hx : s.sess (i.val / 32) = x) (hst : x.st = 1)
    (hroom : x.unacked.length < 1024) (hdue : y.doneDue = true) :
    Runs (.xferDoneSend i) s fun t => t.xfer i = { y with doneDue := false } ∧
        (t.sess (i.val / 32)).nextPsn = (x.nextPsn + 1) % 2 ^ 32 ∧
        (t.sess (i.val / 32)).unacked =
          x.unacked ++ [{ type := 5, xfer := i, status := y.code.code, psn := x.nextPsn, pcp := x.pcp }] := by
  have he : exec (.xferDoneSend i) s = execXferDoneSend i s := rfl
  unfold execXferDoneSend at he
  dsimp only at he
  rw [hy, hdue, if_neg (by simp)] at he
  obtain ⟨u, hu⟩ : ∃ u, u = s.modXfer i fun t => { t with doneDue := false } := ⟨_, rfl⟩
  have hux : u.sess (i.val / 32) = x := by rw [hu]; exact hx
  have huy : u.xfer i = { y with doneDue := false } := by rw [hu, State.xfer_modXfer, if_pos rfl, hy]
  rw [← hu] at he
  obtain ⟨hnext, hunacked⟩ := State.sess_queueSeg (s := u) (c := i.val / 32) (by rw [hux]; exact hst) (by rw [hux]; exact hroom)
    { type := 5, xfer := i, status := y.code.code }
  rw [hux] at hnext hunacked
  exact runs_of_exec he ⟨((State.Sending.queueSeg ..).xfer i).trans huy, hnext, hunacked⟩

theorem runs_getDataSend {i : Fin 256} {y : Xfer} {u : State} {data : List Byte} {n : Nat} (hy : s.xfer i = y)
    (hx : s.sess (i.val / 32) = x) (hst : x.st = 1) (hroom : x.unacked.length < 1024)
    (hn : min (if (s.eth (s.outSub x % 16)).jumbo then 8192 else 1024) (y.length - y.done) = n) (hopen : y.st = 1) (hget : y.get = true)
    (hdie : s.dieIn y.die = true) (hread : s.vaRead y.die (s.collSlot y.die y.ctx) (y.va + y.done) n = (u, .more, data))
    (huy : u.xfer i = y) (hux : u.sess (i.val / 32) = x) :
    Runs (.getDataSend i false) s fun t => (t.xfer i).done = y.done + n ∧
          ((t.xfer i).st = if y.done + n = y.length then 2 else 1) ∧ (t.sess (i.val / 32)).nextPsn = (x.nextPsn + 1) % 2 ^ 32 ∧
          (t.sess (i.val / 32)).unacked = x.unacked ++
            [{ type := 2, xfer := i, offset := y.done, payload := data, psn := x.nextPsn, pcp := y.pcp }] := by
  have he : exec (.getDataSend i false) s = execGetDataSend i false s := rfl
  unfold execGetDataSend at he
  dsimp only at he
  rw [hy, hx, hn, if_neg (by simp [hopen, hget, hst]), hdie, if_neg (by simp), if_neg (by simp), hread] at he
  obtain ⟨hnext, hunacked⟩ := State.sess_queueSeg (s := u) (c := i.val / 32) (by rw [hux]; exact hst) (by rw [hux]; exact hroom)
    { type := 2, xfer := i, offset := y.done, payload := data, pcp := y.pcp }
  rw [hux] at hnext hunacked
  have hvy := ((State.Sending.queueSeg (s := u) (i.val / 32)
    { type := 2, xfer := i, offset := y.done, payload := data, pcp := y.pcp }).xfer i).trans huy
  generalize u.queueSeg (i.val / 32) { type := 2, xfer := i, offset := y.done, payload := data, pcp := y.pcp } = v at he hnext hunacked hvy
  obtain ⟨w, hw⟩ : ∃ w, w = v.modXfer i fun t => { t with done := t.done + n } := ⟨_, rfl⟩
  have hwy : w.xfer i = { y with done := y.done + n } := by rw [hw, State.xfer_modXfer, if_pos rfl, hvy]
  have hwx (j : Nat) : w.sess j = v.sess j := by rw [hw]; rfl
  have he' : exec (.getDataSend i false) s = .next (if y.done + n = y.length then w.endXfer i .ok else w) := by
    rw [he, hw]
    rfl
  by_cases hend : y.done + n = y.length
  · rw [if_pos hend] at he' ⊢
    refine runs_of_exec he' ?_
    have hs (j : Nat) : (w.endXfer i .ok).sess j = v.sess j := hwx j
    rw [State.xfer_endXfer, if_pos rfl, hwy, hs]
    exact ⟨rfl, rfl, hnext, hunacked⟩
  · rw [if_neg hend] at he' ⊢
    refine runs_of_exec he' ?_
    rw [hwy, hwx]
    exact ⟨rfl, hopen, hnext, hunacked⟩

end

end Sys2Proof.Machine

namespace Sys2Proof.Machine

/-- Settles O46: a segment goes through the checks of its port, its MAC and its sequence, and each timer does its one thing. -/
theorem segmentsAreCheckedAndSequenced : Obligations.SegmentsAreCheckedAndSequenced := by
  unfold Obligations.SegmentsAreCheckedAndSequenced
  intro s
  refine ⟨?_, ?_, ?_⟩
  · intro k q f hin run c
    refine ⟨fun type ht hbad => exec_segRow_error ht (State.rxFront_bad hin hbad type),
      fun type ht hbad htype hc => exec_segRow_error ht (State.rxFront_stranger hin hbad htype hc),
      fun type c m ht h hmac => runs_segRow_badMac ht h hmac, ?_, ?_⟩
    · intro type c m ht h hst hmac hopen x d
      refine ⟨fun hd0 hd1 hn => runs_segRow_nak ht h rfl hst hmac hopen rfl hd0 hd1 hn,
        fun hd0 hd1 hn => exec_segRow_naked ht h rfl hst hmac hopen rfl hd0 hd1 hn,
        fun hd => runs_segRow_duplicate ht h rfl hst hmac hopen rfl hd, ?_, ?_⟩
      · intro hd htype hpend
        subst htype
        exact runs_mboxSegment_inOrder h rfl hst hmac hopen rfl hd hpend
      · intro hd htype i y data
        subst htype
        refine ⟨fun hc hy hget hoff => ?_, fun a u w hc hy hget hoff hfits hpart hdie ha hw hwy => ?_⟩
        · obtain ⟨t, he, hexp, hxfer, hhbm⟩ :=
            runs_dataSegment h rfl hst hmac rfl hd (State.putData_seq rfl rfl hc hy hget hoff)
          refine runs_of_exec he ?_
          rw [hxfer, State.xfer_endXfer, if_pos rfl]
          exact ⟨hexp, rfl, rfl, rfl, hhbm⟩
        · obtain ⟨v, hput, hvhbm, hdone, hst', hdue⟩ := State.putData_written rfl rfl rfl hc hy hget hoff hfits hpart hdie ha hw hwy
          obtain ⟨t, he, -, hxfer, hhbm⟩ := runs_dataSegment h rfl hst hmac rfl hd hput
          refine runs_of_exec he ?_
          rw [hxfer]
          exact ⟨hhbm.trans hvhbm, hdone, hst', hdue⟩
    · intro type c m ht h hst hmac x n hn0 hn1 hw
      exact runs_ackSegment ht h rfl hst hmac rfl hn0 hn1 hw
  · intro c hst x
    refine ⟨fun hto hdue => runs_transportAckTimer rfl hst hto hdue, fun hun hdue => ⟨fun hto => ?_, fun hto => ?_⟩⟩
    · exact runs_xportRtoExpiry rfl hst hun hdue hto
    · exact runs_xportRtoExpiry_lost rfl hst hun hdue hto
  · intro i y c x hst hroom
    refine ⟨fun hdue => runs_xferDoneSend rfl rfl hst hroom hdue, ?_⟩
    intro u data n hopen hget hdie hread huy hux
    exact runs_getDataSend rfl rfl hst hroom rfl hopen hget hdie hread huy hux

end Sys2Proof.Machine

namespace Sys2Proof.Machine

/-! What a reply leaves of the ports and of the transfers (R378, R395, R405). -/

/-- The port is as it was but for frames that joined its queues. -/
structure Eth.Joined (e e' : Eth) : Prop where
  only : e' = { e with queues := e'.queues }
  queue : ∀ q n, ∃ f g h, e'.queue q n = { e.queue q n with fifo := f, headTag := g, fLast := h }

theorem Eth.Joined.refl (e : Eth) : e.Joined e := ⟨rfl, fun _ _ => ⟨_, _, _, rfl⟩⟩

theorem EgQ.tagHead_joined (u : EgQ) (v : Nat) : ∃ g h, u.tagHead v = { u with headTag := g, fLast := h } := by
  unfold tagHead
  split
  · exact ⟨_, _, rfl⟩
  · split <;> exact ⟨_, _, rfl⟩

theorem EgQ.push_joined (u : EgQ) (v : Nat) (f : TxFrame) : ∃ a g h, u.push v f = { u with fifo := a, headTag := g, fLast := h } := by
  unfold push
  split
  · obtain ⟨g, h, ht⟩ := ({ u with fifo := [f] } : EgQ).tagHead_joined v
    exact ⟨_, g, h, ht⟩
  · exact ⟨_, _, _, rfl⟩

theorem Eth.push_joined (e : Eth) (q n : Nat) (f : TxFrame) : e.Joined (e.push q n f) := by
  refine ⟨rfl, fun p m => ?_⟩
  by_cases hp : 8 * p + m = 8 * q + n
  · have hq : (e.push q n f).queue p m = (e.queue q n).push (e.sub q).v f := by
      unfold push queue
      rw [tab_get_set, if_pos hp]
    have he : e.queue p m = e.queue q n := by rw [queue, hp, queue]
    rw [hq, he]
    exact EgQ.push_joined ..
  · have hq : (e.push q n f).queue p m = e.queue p m := by
      unfold push queue
      rw [tab_get_set, if_neg hp]
    rw [hq]
    exact ⟨_, _, _, rfl⟩

theorem Eth.Joined.of_eths {s u : State} {k : Nat} {e : Eth} (h : (u.eth k).Joined e) (hu : u.eths = s.eths) : (s.eth k).Joined e := by
  rw [State.eth, ← hu, ← State.eth]
  exact h

theorem State.eth_sendSeg (s : State) (c : Nat) (g : TxSeg) (z : Bool) (k : Nat) : (s.eth k).Joined ((s.sendSeg c g z).eth k) := by
  unfold sendSeg
  dsimp only
  rw [eth_modEth]
  split
  case isTrue h => rw [h]; exact Eth.push_joined ..
  case isFalse => exact .refl _

theorem State.eth_queueSeg (s : State) (c : Nat) (g : TxSeg) (k : Nat) : (s.eth k).Joined ((s.queueSeg c g).eth k) := by
  unfold queueSeg
  dsimp only
  split
  · exact .refl _
  · split
    · exact (eth_sendSeg _ _ _ _ k).of_eths rfl
    · exact .refl _

theorem State.eth_post (s : State) (oob : Bool) (f : Frame401) (k : Nat) : (s.eth k).Joined ((s.post oob f).eth k) := by
  unfold post
  dsimp only
  split
  · exact .refl _
  · exact (eth_queueSeg _ _ _ k).of_eths rfl

theorem State.eth_reply (s : State) (src : Src) (cmd : Nat) (e : Err) (payload : List Byte) (k : Nat) :
    (s.eth k).Joined ((s.reply src cmd e payload).eth k) :=
  (eth_post _ _ _ k).of_eths rfl

theorem State.xfer_reply (s : State) (src : Src) (cmd : Nat) (e : Err) (payload : List Byte) (j : Nat) :
    (s.reply src cmd e payload).xfer j = s.xfer j := by
  rw [xfer, xp_reply, xfer]

/-! The commands of the ports, meters, queues and transfers. -/

/-- What PORT_SET writes into the table of addresses (R373). -/
theorem tab_get_foldl_zipIdx {α β : Type} [DecidableEq α] (d : α) (g : β → α) (l : List β) (t : Tab α) {i : Nat} (hi : i < l.length) :
    Tab.get d (l.zipIdx.foldl (fun m b => Tab.set d m b.2 (g b.1)) t) i = g l[i] := by
  have hmem : (l[i], i) ∈ l.zipIdx := by
    rw [List.mk_mem_zipIdx_iff_getElem?]
    exact List.getElem?_eq_getElem hi
  have hnodup : (l.zipIdx.map Prod.snd).Nodup := by
    rw [List.zipIdx_map_snd]
    exact List.nodup_range' ..
  exact tab_get_foldl_entries d (key := Prod.snd) (fun b : β × Nat => g b.1) hnodup hmem t

section
variable {s : State} {src : Src}

/-- A port as PORT_SET leaves it (R373). -/
def Eth.portSet (e : Eth) (mode jumbo txTag : Nat) (addrs : List Byte) : Eth :=
  { e with
    mode := mode, jumbo := decide (jumbo = 1), txTag := decide (txTag = 1),
    addrs := (((List.range 4).map fun i => (addrs.drop (64 * i)).take 64).zipIdx).foldl (fun m b => Tab.set {} m b.2 (subAddrOf b.1)) e.addrs,
    subs := if decide (e.mode = mode) then e.subs else Tab.remap {} (fun _ u => { u with up := false }) e.subs }

theorem Eth.portSet_sub (e : Eth) (mode jumbo txTag : Nat) (addrs : List Byte) (q : Nat) :
    ((e.portSet mode jumbo txTag addrs).sub q).up = (decide (e.mode = mode) && (e.sub q).up) := by
  unfold portSet sub
  dsimp only
  by_cases h : e.mode = mode
  · rw [decide_eq_true h, if_pos rfl, Bool.true_and]
  · rw [decide_eq_false h, if_neg (by simp), tab_get_remap _ _ _ _ rfl, Bool.false_and]

theorem Eth.portSet_addr (e : Eth) (mode jumbo txTag : Nat) (addrs : List Byte) {i : Nat} (hi : i < 4) :
    (e.portSet mode jumbo txTag addrs).addr i = subAddrOf ((addrs.drop (64 * i)).take 64) := by
  unfold portSet addr
  dsimp only
  rw [tab_get_foldl_zipIdx _ _ _ _ (by simpa using hi), List.getElem_map, List.getElem_range]

theorem runs_portSet {port mode jumbo txTag : Nat} {addrs : List Byte} (ha : Admin s src 0x0901) (hhd : s.svc.hdIn = true)
    (hport : port < 8) (hmode : mode < 4) (hfree : s.modeBusy port mode = false) (hjumbo : jumbo < 2) (htag : txTag < 2)
    (hbytes : ∀ i, i < 4 → let b := (addrs.drop (64 * i)).take 64
        fld b 0 2 < 2 ^ 15 ∧ fld b 24 1 < 4 ∧ zeroAt b 25 39 = true ∧ (i < subCount mode → fld b 24 1 ≠ 0)) :
    Runs (.portSet src port mode jumbo txTag addrs) s fun t => Replied s t src 0x0901
          ((List.range 4).map fun q => BitVec.ofNat 8 (b2n (decide ((s.eth port).mode = mode) && ((s.eth port).sub q).up))) ∧
        (t.eth port).mode = mode ∧ (t.eth port).jumbo = decide (jumbo = 1) ∧ (t.eth port).txTag = decide (txTag = 1) ∧
        (∀ i, i < 4 → (t.eth port).addr i = subAddrOf ((addrs.drop (64 * i)).take 64)) ∧
        ((s.eth port).mode ≠ mode → ∀ q, ((t.eth port).sub q).up = false) ∧ t.cds = s.cds ∧ t.ctx = s.ctx := by
  have hx : exec (.portSet src port mode jumbo txTag addrs) s = execPortSet src port mode jumbo txTag addrs s := rfl
  unfold execPortSet at hx
  dsimp only at hx
  rw [State.command_runs ha.port ha.admin rfl] at hx
  rotate_left
  · refine firstErr_none fun c hc => ?_
    simp only [List.mem_cons, List.not_mem_nil, or_false] at hc
    rcases hc with rfl | rfl | rfl
    · simp [hhd]; omega
    · exact hfree
    · simp only [Bool.or_eq_false_iff, decide_eq_false_iff_not, List.any_eq_false, List.mem_map, List.mem_range, ← List.map_take,
        List.take_range, forall_exists_index, and_imp, forall_apply_eq_imp_iff₂]
      refine ⟨⟨by omega, fun i hi => ?_⟩, fun i hi => ?_⟩
      · obtain ⟨h0, h1, h2, -⟩ := hbytes i hi
        simp [h2]
        omega
      · obtain ⟨-, -, -, h3⟩ := hbytes i (by omega)
        simpa using h3 (by omega)
  obtain ⟨u, hu⟩ : ∃ u, u = s.modEth port fun e => e.portSet mode jumbo txTag addrs := ⟨_, rfl⟩
  have hue : u.eth port = (s.eth port).portSet mode jumbo txTag addrs := by rw [hu, State.eth_modEth, if_pos rfl]
  have hx' : exec (.portSet src port mode jumbo txTag addrs) s =
      .next (u.reply src 0x0901 .ok ((List.range 4).map fun q => BitVec.ofNat 8 (b2n ((u.eth port).sub q).up))) := by
    rw [hx, hu]
    rfl
  have hup (q : Nat) : ((u.eth port).sub q).up = (decide ((s.eth port).mode = mode) && ((s.eth port).sub q).up) := by
    rw [hue, Eth.portSet_sub]
  refine runs_of_exec hx' ?_
  generalize hpay : ((List.range 4).map fun q => BitVec.ofNat 8 (b2n ((u.eth port).sub q).up)) = payload
  obtain ⟨honly, -⟩ := u.eth_reply src 0x0901 .ok payload port
  rw [hue] at honly
  refine ⟨?_, (congrArg Eth.mode honly).trans rfl, (congrArg Eth.jumbo honly).trans rfl, (congrArg Eth.txTag honly).trans rfl,
    fun i hi => ?_, fun hm q => ?_, ?_, ?_⟩
  · have hpay' : ((List.range 4).map fun q => BitVec.ofNat 8 (b2n (decide ((s.eth port).mode = mode) && ((s.eth port).sub q).up))) = payload := by
      rw [← hpay]
      simp only [hup]
    rw [hpay']
    exact Replied.of_reply (by rw [hu]; rfl) (by rw [hu]; rfl) ..
  · have haddr := congrArg (fun e : Eth => e.addr i) honly
    exact haddr.trans ((s.eth port).portSet_addr mode jumbo txTag addrs hi)
  · have hsub := congrArg (fun e : Eth => (e.sub q).up) honly
    refine hsub.trans (((s.eth port).portSet_sub mode jumbo txTag addrs q).trans ?_)
    rw [decide_eq_false hm, Bool.false_and]
  · rw [State.reply_cds, hu]
    rfl
  · rw [State.reply_ctx, hu]
    rfl

theorem runs_portSet_busy {port mode jumbo txTag : Nat} {addrs : List Byte} (ha : Admin s src 0x0901) (hhd : s.svc.hdIn = true)
    (hport : port < 8) (hmode : mode < 4) (hbusy : s.modeBusy port mode = true) :
    Runs (.portSet src port mode jumbo txTag addrs) s fun t => OnlyReply s t ∧ t.out = answer s src 0x0901 .busy [] :: s.out ∧
        (t.eth port).mode = (s.eth port).mode := by
  have hx : exec (.portSet src port mode jumbo txTag addrs) s = execPortSet src port mode jumbo txTag addrs s := rfl
  have hrange : (!s.svc.hdIn || decide (7 < port ∨ 3 < mode)) = false := by simp [hhd]; omega
  unfold execPortSet at hx
  dsimp only at hx
  rw [State.command_fails ha.port ha.admin rfl (by rw [hrange, hbusy]; rfl)] at hx
  exact runs_of_exec hx
    ⟨OnlyReply.of_reply .., State.out_reply_error .., (congrArg Eth.mode (s.eth_reply src 0x0901 .busy [] port).only).trans rfl⟩

theorem runs_portStatus {port : Nat} (hp : s.portAdmits src 0x0902 = true) (hhd : s.svc.hdIn = true) (hport : port < 8) :
    Runs (.portStatus src port) s fun t => OnlyReply s t ∧
      Replied s t src 0x0902 ((List.range 32).flatMap fun i => leBytes 8 ((s.eth port).reg port s.now i)) := by
  have hx : exec (.portStatus src port) s = execPortStatus src port s := rfl
  unfold execPortStatus at hx
  rw [State.command_runs hp rfl rfl (by simp [firstErr, hhd]; omega)] at hx
  exact runs_of_exec hx ⟨OnlyReply.of_reply .., Replied.of_reply rfl rfl ..⟩

/-- A free transfer id is one of the controller's (R393). -/
theorem State.freeXfer_mine {c i : Nat} (h : s.freeXfer c = some i) : i / 32 = c := by
  have hmem := List.mem_of_find?_eq_some h
  obtain ⟨j, hj, rfl⟩ := List.mem_map.mp hmem
  have := List.mem_range.mp hj
  omega

theorem runs_xferOpen {x die dir pcp va len i : Nat} (ho : Owner s src 0x0903 x) (hhd : s.svc.hdIn = true) (hlen0 : 0 < len)
    (hlen : len ≤ 2 ^ 40) (hdie : die < 16) (hin : s.dieIn die = true) (hva : va % 64 = 0) (hlen4 : len % 4 = 0) (hdir : dir < 2)
    (hpcp : pcp < 8) (hslot : (s.cd die).tr.slotOf x ≠ none) (hfree : s.freeXfer src.ctrl.val = some i) :
    Runs (.xferOpen src x die dir pcp va len) s fun t => OnlyReply s t ∧ Replied s t src 0x0903 (leBytes 2 i) ∧
        t.xfer i = { st := 1, get := decide (dir = 1), ctx := x, die := die, pcp := pcp, va := va, length := len, opened := s.now } ∧
        (∀ j, j ≠ i → t.xfer j = s.xfer j) ∧ i / 32 = src.ctrl.val := by
  have hx : exec (.xferOpen src x die dir pcp va len) s = execXferOpen src x die dir pcp va len s := rfl
  unfold execXferOpen at hx
  dsimp only at hx
  rw [ho.ownCommand_runs hhd] at hx
  rotate_left
  · refine firstErr_none fun c hc => ?_
    simp only [List.mem_cons, List.not_mem_nil, or_false] at hc
    rcases hc with rfl | rfl | rfl | rfl | rfl
    · simp [hin]; omega
    · simp; omega
    · simp; omega
    · simpa [Option.isNone_eq_false_iff, Option.isSome_iff_ne_none] using hslot
    · simp [hfree]
  rw [hfree, Option.getD_some] at hx
  refine runs_of_exec hx ⟨State.reply_only .., Replied.of_reply rfl rfl .., ?_, fun j hj => ?_, State.freeXfer_mine hfree⟩
  · rw [State.xfer_reply, State.xfer_modXfer, if_pos rfl]
  · rw [State.xfer_reply, State.xfer_modXfer, if_neg hj]

section
variable {x : Nat} (hhd : s.svc.hdIn = true) (hx256 : x < 256) (hmine : x / 32 = src.ctrl.val)
include hhd hx256 hmine

theorem runs_xferStatus (hp : s.portAdmits src 0x0904 = true) : Runs (.xferStatus src x) s fun t => OnlyReply s t ∧
      Replied s t src 0x0904 (s.xfer x).bytes ∧ ∀ j, t.xfer j = s.xfer j := by
  have hx : exec (.xferStatus src x) s = execXferStatus src x s := rfl
  unfold execXferStatus State.xferChecks at hx
  rw [State.command_runs hp rfl rfl (by simp [firstErr, hhd, hmine]; omega)] at hx
  exact runs_of_exec hx ⟨OnlyReply.of_reply .., Replied.of_reply rfl rfl .., fun j => State.xfer_reply ..⟩

theorem runs_xferCancel (hp : s.portAdmits src 0x0905 = true) (hst : (s.xfer x).st = 1) : Runs (.xferCancel src x) s fun t =>
      Replied s t src 0x0905 (leBytes 8 (s.xfer x).done) ∧ (∀ j, j ≠ x → t.xfer j = s.xfer j) ∧ t.hbm = s.hbm ∧
      t.xfer x = { s.xfer x with st := 3, code := .aborted, ended := s.now, doneDue := true } := by
  have hx : exec (.xferCancel src x) s = execXferCancel src x s := rfl
  unfold execXferCancel State.xferChecks at hx
  rw [State.command_runs hp rfl rfl (by simp [firstErr, hhd, hmine, hst]; omega)] at hx
  refine runs_of_exec hx ⟨Replied.of_reply rfl rfl .., fun j hj => ?_, State.reply_hbm .., ?_⟩
  · rw [State.xfer_reply, State.xfer_endXfer, if_neg hj]
  · rw [State.xfer_reply, State.xfer_endXfer, if_pos rfl]
    rfl

end

theorem runs_meterSet {port meter enable actions cir pir cbs pbs : Nat} (ha : Admin s src 0x0906) (hhd : s.svc.hdIn = true)
    (hport : port < 8) (hmeter : meter < 16) (hcir : cir ≤ pir) (hpir : pir ≤ 400000) (hcbs : 9216 ≤ cbs) (hcbs' : cbs ≤ 2 ^ 24)
    (hpbs : 9216 ≤ pbs) (hpbs' : pbs ≤ 2 ^ 24) : Runs (.meterSet src port meter enable actions cir pir cbs pbs) s fun t =>
        Replied s t src 0x0906 [] ∧ (∀ m, m ≠ meter → (Tab.get {} (t.eth port).meters m : Meter) = Tab.get {} (s.eth port).meters m) ∧
        (Tab.get {} (t.eth port).meters meter : Meter) = { (Tab.get {} (s.eth port).meters meter : Meter) with
          cir := cir, pir := pir, cbs := cbs, pbs := pbs, enable := bit enable 0, yellowDrop := bit actions 0, redDrop := bit actions 1,
          tc := cbs * 2 ^ 32, tp := pbs * 2 ^ 32, tLast := s.now } := by
  have hx : exec (.meterSet src port meter enable actions cir pir cbs pbs) s = execMeterSet src port meter enable actions cir pir cbs pbs s :=
    rfl
  unfold execMeterSet at hx
  rw [State.command_runs ha.port ha.admin rfl (by simp [firstErr, hhd]; omega)] at hx
  refine runs_of_exec hx ⟨Replied.of_reply rfl rfl .., ?_⟩
  have honly := (State.eth_reply (s.modEth port fun e => { e with meters := Tab.modify {} e.meters meter fun m =>
    { m with cir := cir, pir := pir, cbs := cbs, pbs := pbs, enable := bit enable 0, yellowDrop := bit actions 0, redDrop := bit actions 1,
             tc := cbs * 2 ^ 32, tp := pbs * 2 ^ 32, tLast := s.now } }) src 0x0906 .ok [] port).only
  rw [State.eth_modEth, if_pos rfl] at honly
  have hmeters := congrArg Eth.meters honly
  dsimp only at hmeters
  rw [hmeters]
  refine ⟨fun m hm => ?_, ?_⟩
  · rw [tab_get_modify, if_neg hm]
  · rw [tab_get_modify, if_pos rfl]

theorem runs_queueSet {port sub queue weight rate burst : Nat} (ha : Admin s src 0x0907) (hhd : s.svc.hdIn = true)
    (hport : port < 8) (hqueue : queue < 8) (hweight : weight < 256) (hburst : 1536 ≤ burst) (hburst' : burst ≤ 1048576)
    (hsub : sub < subCount (s.eth port).mode) : Runs (.queueSet src port sub queue weight rate burst) s fun t =>
        Replied s t src 0x0907 [] ∧ (∃ f g h, (t.eth port).queue sub queue = { (s.eth port).queue sub queue with
          weight := weight, rate := rate, burst := burst, tokens := 0, tLast := s.now, wheel := none, fifo := f, headTag := g, fLast := h }) ∧
        ∀ n, n < 8 → n ≠ queue → ∃ f g h, (t.eth port).queue sub n =
          { (s.eth port).queue sub n with fifo := f, headTag := g, fLast := h } := by
  have hx : exec (.queueSet src port sub queue weight rate burst) s = execQueueSet src port sub queue weight rate burst s := rfl
  unfold execQueueSet at hx
  rw [State.command_runs ha.port ha.admin rfl (by simp [firstErr, hhd]; omega)] at hx
  refine runs_of_exec hx ⟨Replied.of_reply rfl rfl .., ?_⟩
  have hq := (State.eth_reply (s.modEth port fun e => e.modQueue sub queue fun u =>
    { u with weight := weight, rate := rate, burst := burst, tokens := 0, tLast := s.now, wheel := none }) src 0x0907 .ok [] port).queue sub
  rw [State.eth_modEth, if_pos rfl] at hq
  refine ⟨?_, fun n hn hne => ?_⟩
  · obtain ⟨f, g, h, hqueue⟩ := hq queue
    rw [Eth.queue_modQueue, if_pos rfl] at hqueue
    exact ⟨f, g, h, hqueue⟩
  · obtain ⟨f, g, h, hqueue⟩ := hq n
    rw [Eth.queue_modQueue, if_neg hne] at hqueue
    exact ⟨f, g, h, hqueue⟩

theorem runs_entrySet {rate : Nat} (ha : Admin s src 0x0908) (hhd : s.svc.hdIn = true) (hrate : rate ≤ 1600000 / s.hub.shareD) :
    Runs (.entrySet src rate) s fun t => Replied s t src 0x0908 [] ∧
      t.xp.entryRate = rate ∧ ∀ i, i < 612 → (Tab.get {} t.xp.shapers i : EntrySh) =
        { (Tab.get {} s.xp.shapers i : EntrySh) with tokens := 0, tLast := s.now } := by
  have hx : exec (.entrySet src rate) s = execEntrySet src rate s := rfl
  unfold execEntrySet at hx
  rw [State.command_runs ha.port ha.admin rfl (by simp [firstErr, hhd]; omega)] at hx
  refine runs_of_exec hx ⟨Replied.of_reply rfl rfl .., ?_, fun i hi => ?_⟩
  · rw [State.xp_reply]
  · rw [State.xp_reply]
    dsimp only
    rw [tab_get_foldl_modify _ _ _ List.nodup_range, if_pos (List.mem_range.mpr hi)]

end

/-- Settles O47: each host command is refused without effect or does the one thing it names. -/
theorem hostCommandsSetPortsAndTransfers : Obligations.HostCommandsSetPortsAndTransfers := by
  unfold Obligations.HostCommandsSetPortsAndTransfers
  intro src s hhd
  refine ⟨fun _ _ _ _ _ ha hport hmode hfree hjumbo htag hb => runs_portSet ha hhd hport hmode hfree hjumbo htag hb,
    fun _ _ _ _ _ ha hport hmode hbusy => runs_portSet_busy ha hhd hport hmode hbusy, fun _ hp hport => runs_portStatus hp hhd hport,
    ?_, fun _ hp hx hmine => runs_xferStatus hhd hx hmine hp, fun _ hp hx hmine hst => runs_xferCancel hhd hx hmine hp hst, ?_, ?_,
    fun _ ha hrate => runs_entrySet ha hhd hrate⟩
  · intro x die dir pcp va len i ho hlen0 hlen hdie hin hva hlen4 hdir hpcp hslot hfree
    exact runs_xferOpen ho hhd hlen0 hlen hdie hin hva hlen4 hdir hpcp hslot hfree
  · intro port meter enable actions cir pir cbs pbs ha hport hmeter hcir hpir hcbs hcbs' hpbs hpbs'
    exact runs_meterSet ha hhd hport hmeter hcir hpir hcbs hcbs' hpbs hpbs'
  · intro port sub queue weight rate burst ha hport hqueue hweight hburst hburst' hsub
    exact runs_queueSet ha hhd hport hqueue hweight hburst hburst' hsub

end Sys2Proof.Machine

namespace Sys2Proof.Machine

/-! Frames at the mailbox engine (R398 to R405). -/

/-- Checks 1 to 4 of R402 on a frame. -/
def FrameFits (c : Ctrl) (seg : List Byte) : Prop :=
  seg.length = fld seg 12 2 + 64 ∧ fld seg 12 2 ≤ 4096 ∧ fld seg 0 2 = 0x5A4E ∧ fld seg 2 1 = 1 ∧ fld seg 5 1 = 0 ∧ fld seg 3 1 = c.val

section
variable {s : State} {c : Ctrl} {oob : Bool} {seg : List Byte}

theorem exec_mailboxFrame (h : oob = true ∨ s.svc.hdIn = true) : exec (.mailboxFrame c oob seg) s = .next (s.mailboxFrame c oob seg) := by
  have hx : exec (.mailboxFrame c oob seg) s = execMailboxFrame c oob seg s := rfl
  rw [hx, execMailboxFrame, if_pos (by simpa using h)]

theorem State.mailboxFrame_unfit (h : ¬ FrameFits c seg) : s.mailboxFrame c oob seg = s.discardFrame := by
  unfold FrameFits at h
  unfold mailboxFrame
  dsimp only
  split
  · rfl
  case isFalse hshape =>
    rw [if_pos]
    intro hc
    exact h (by omega)

section
variable (hfits : FrameFits c seg) (hopen : fld seg 6 2 ≠ 0x0C01) (hpend : Tab.find? s.xp.pend c.val = none)
include hfits hopen hpend

theorem State.mailboxFrame_unsigned
    (hkey : (s.sess c).st ≠ 1 ∨ hmac (s.sess c).key (seg.take (32 + fld seg 12 2)) ≠ seg.drop (32 + fld seg 12 2)) :
    s.mailboxFrame c oob seg = s.discardFrame.logSig c := by
  obtain ⟨hlen, hn, hmagic, hver, hflags, hc⟩ := hfits
  have hnone : s.frameKey c (seg.take (32 + fld seg 12 2)) (seg.drop (32 + fld seg 12 2)) = none := by
    rw [frameKey, if_neg (by tauto), hpend]
  unfold mailboxFrame
  dsimp only
  rw [if_neg (by omega), if_neg (by omega), if_neg hopen, hnone]

theorem State.mailboxFrame_signed {m : Mbox} (hst : (s.sess c).st = 1)
    (hkey : hmac (s.sess c).key (seg.take (32 + fld seg 12 2)) = seg.drop (32 + fld seg 12 2)) (hm : fld seg 4 1 = m.val) :
    s.mailboxFrame c oob seg = s.takeFrame { ctrl := c, mbox := m, seq := fld seg 8 4, context := fld seg 16 2, oob := oob }
      { command := fld seg 6 2, seq := fld seg 8 4, context := fld seg 16 2, args := (seg.drop 32).take (fld seg 12 2) } := by
  obtain ⟨hlen, hn, hmagic, hver, hflags, hc⟩ := hfits
  have hsome : s.frameKey c (seg.take (32 + fld seg 12 2)) (seg.drop (32 + fld seg 12 2)) = some false := by
    rw [frameKey, if_pos ⟨hst, hkey⟩]
  unfold mailboxFrame
  dsimp only
  rw [if_neg (by omega), if_neg (by omega), if_neg hopen, hsome, hpend]
  dsimp only
  rw [dif_pos (by omega)]
  have hmbox : (⟨fld seg 4 1, by omega⟩ : Mbox) = m := Fin.ext hm
  rw [hmbox]

end

theorem State.logSig_keeps (s : State) (c : Nat) : (s.logSig c).mbx.discards = s.mbx.discards ∧ (s.logSig c).mbx.boxes = s.mbx.boxes ∧
    (s.logSig c).xp = s.xp ∧ (s.logSig c).out = s.out := by
  unfold logSig
  split
  · split
    · exact ⟨rfl, rfl, rfl, rfl⟩
    · rw [raise_mbx, raise_xp, raise_out]
      exact ⟨rfl, rfl, rfl, rfl⟩
  · rw [raise_mbx, raise_xp, raise_out]
    exact ⟨rfl, rfl, rfl, rfl⟩

end

/-! A frame in its mailbox (R402). -/

section
variable {s : State} {src : Src} {f : CmdFrame} {b : MboxU}

theorem seqDistance_self (n : Nat) : (n + 2 ^ 32 - n) % 2 ^ 32 = 0 := by
  rw [Nat.add_sub_cancel_left, Nat.mod_self]

/-- Whether a controller may use a command (R407). -/
def CmdAllowed (s : State) (src : Src) (f : CmdFrame) : Prop :=
  s.portAdmits src f.command = true ∧ (cmdAdmin f.command = true → s.isAdmin src = true) ∧
    (cmdOwner f.command = true → s.owns src (fld f.args 0 2) = true)

theorem cmdAllowed_iff (s : State) (src : Src) (f : CmdFrame) : CmdAllowed s src f ↔
    (!s.portAdmits src f.command || (cmdAdmin f.command && !s.isAdmin src) || (cmdOwner f.command && !s.owns src (fld f.args 0 2))) = false := by
  unfold CmdAllowed
  cases s.portAdmits src f.command <;> cases cmdAdmin f.command <;> cases cmdOwner f.command <;> simp

variable (hb : s.box src.ctrl src.mbox = b)
include hb

theorem State.takeFrame_accepted (hseq : f.seq = b.e) (hroom : b.frames.length < 4) (hdef : cmdDefined f.command = true)
    (hallowed : CmdAllowed s src f) (hctx : ∀ x, cmdCtx f.command f.args = some x → x = f.context) :
    s.takeFrame src f = s.acceptFrame src.ctrl src.mbox f true := by
  unfold takeFrame
  dsimp only
  rw [hb, hseq, seqDistance_self, if_neg (by simp), if_neg (by omega), hdef, if_neg (by simp), (cmdAllowed_iff ..).mp hallowed,
    if_neg (by simp), if_neg]
  split
  case h_1 x hx => simp [hctx x hx]
  case h_2 => simp

theorem State.takeFrame_denied (hseq : f.seq = b.e) (hroom : b.frames.length < 4) (hdef : cmdDefined f.command = true)
    (hallowed : ¬ CmdAllowed s src f) :
    s.takeFrame src f = (s.acceptFrame src.ctrl src.mbox f false).reply src f.command .denied [] := by
  unfold takeFrame
  dsimp only
  rw [hb, hseq, seqDistance_self, if_neg (by simp), if_neg (by omega), hdef, if_neg (by simp), if_pos]
  rw [cmdAllowed_iff, Bool.not_eq_false] at hallowed
  exact hallowed

theorem State.takeFrame_busy (hseq : f.seq = b.e) (hfull : 4 ≤ b.frames.length) :
    s.takeFrame src f = s.answer src f.command src.mbox .busy [] := by
  unfold takeFrame
  dsimp only
  rw [hb, hseq, seqDistance_self, if_neg (by simp), if_pos hfull]

theorem State.takeFrame_again {d : Nat} {r : Frame401} (hd : (f.seq + 2 ^ 32 - b.e) % 2 ^ 32 = d) (hd0 : 0 < d) (hnear : 2 ^ 32 - 4 ≤ d)
    (hr : List.find? (fun r => r.seq == f.seq) b.replies = some r) : s.takeFrame src f = s.post src.oob r := by
  unfold takeFrame
  dsimp only
  rw [hb, hd, if_pos (by omega), if_pos hnear, hr]

theorem State.takeFrame_outOfSeq {d : Nat} (hd : (f.seq + 2 ^ 32 - b.e) % 2 ^ 32 = d) (hd0 : 0 < d)
    (hfar : d < 2 ^ 32 - 4 ∨
      (List.find? (fun r => r.seq == f.seq) b.replies = none ∧ b.frames.any (fun q => q.seq == f.seq) = false)) :
    s.takeFrame src f = s.answer src f.command src.mbox .seq (leBytes 4 b.e) := by
  unfold takeFrame
  dsimp only
  rw [hb, hd, if_pos (by omega)]
  split
  case isFalse => rfl
  case isTrue hnear =>
    obtain ⟨hnone, hany⟩ := hfar.resolve_left (by omega)
    rw [hnone, hany]
    rfl

end

theorem State.box_of_boxes {s t : State} (h : t.mbx.boxes = s.mbx.boxes) (c m : Nat) : t.box c m = s.box c m := by
  rw [box, h, box]

theorem State.mbx_answer (s : State) (src : Src) (cmd mbox : Nat) (e : Err) (payload : List Byte) :
    (s.answer src cmd mbox e payload).mbx.boxes = s.mbx.boxes := by
  unfold answer
  rw [post_mbx]

theorem State.out_answer (s : State) (src : Src) (cmd mbox : Nat) (e : Err) (payload : List Byte) :
    (s.answer src cmd mbox e payload).out = .mailbox src.oob
      { ctrl := src.ctrl, mailbox := mbox, flags := 1, command := cmd, seq := src.seq, status := e.code, context := src.context,
        time := s.now, payload := payload } :: s.out := by
  unfold answer
  rw [out_post]

/-- A frame refused at a later check takes its SEQ and is answered (R402). -/
theorem State.refuseFrame_spec (s : State) (src : Src) (f : CmdFrame) (e : Err) (he : e ≠ .ok) :
    let t := (s.acceptFrame src.ctrl src.mbox f false).reply src f.command e []
    t.out = Machine.answer s src f.command e [] :: s.out ∧ (t.box src.ctrl src.mbox).e = ((s.box src.ctrl src.mbox).e + 1) % 2 ^ 32 ∧
      t.mbx.refused = s.mbx.refused + 1 := by
  refine ⟨?_, ?_, ?_⟩
  · rw [out_reply_error, answer_of_now (s := s) rfl]
    rfl
  · unfold reply
    dsimp only
    rw [box_of_boxes (congrArg Mbx.boxes (post_mbx ..)), box_modBox, if_pos rfl]
    change ((s.acceptFrame src.ctrl src.mbox f false).box src.ctrl src.mbox).e = _
    unfold acceptFrame
    dsimp only
    rw [box_modBox, if_pos rfl]
    rfl
  · unfold reply
    dsimp only
    rw [post_mbx, if_neg he]
    rfl

end Sys2Proof.Machine

namespace Sys2Proof.Machine

/-! The mailboxes' commands and the controllers' sessions (R397 to R404, R419, R473). -/

theorem runs_mailboxCommandStart {s : State} {c : Ctrl} {m : Mbox} {f : CmdFrame} {g : List CmdFrame} (hf : (s.box c m).frames = f :: g)
    (hidle : (s.box c m).running = false)
    (hfirst : (s.mbx.boxes.any fun o => o.1 != 8 * c.val + m.val && o.2.frames.any f.behind) = false) :
    Runs (.mailboxCommandStart c m) s fun t =>
        t = { s with mbx := { s.mbx with boxes := t.mbx.boxes } } ∧
        t.box c m = { s.box c m with running := true, runCmd := f.command, runSeq := f.seq } := by
  have hx : exec (.mailboxCommandStart c m) s = execMailboxCommandStart c m s := rfl
  unfold execMailboxCommandStart at hx
  dsimp only at hx
  rw [hf, hidle] at hx
  dsimp only at hx
  rw [if_neg (by simp [hfirst])] at hx
  exact runs_of_exec hx ⟨rfl, by rw [State.box_modBox, if_pos rfl]⟩

/-- No session of the host die is open after it has started again (R397, R419). -/
theorem Xport.start_sess (l : List CfgRec) (lost : List Nat) (c : Nat) :
    (Tab.get {} (Xport.start l lost).sess c : Xs).st ≠ 1 := by
  have hall : ∀ lost : List Nat, (Tab.get {} (lost.map fun c => (c, ({ st := 2 } : Xs))) c : Xs).st ≠ 1 := by
    intro lost
    unfold Tab.get
    cases h : Tab.find? (lost.map fun c => (c, ({ st := 2 } : Xs))) c with
    | none => simp
    | some x =>
      obtain ⟨d, -, hd⟩ := List.mem_map.mp (tab_mem_of_find h)
      cases hd
      simp
  exact hall lost

theorem runs_mbxWatchdogExpiry {s : State} (hhd : s.svc.hdIn = true) : Runs .mbxWatchdogExpiry s fun t => t.svc.hdIn = false ∧
    (t.dieU 23).resetting = true ∧ t.ctx = {} ∧ t.sq = {} ∧ t.mbx.boxes = [] ∧ ∀ c, c < 8 → (t.sess c).st ≠ 1 := by
  have hx : exec .mbxWatchdogExpiry s = execMbxWatchdogExpiry s := rfl
  rw [execMbxWatchdogExpiry, if_pos hhd] at hx
  unfold State.resetDie at hx
  dsimp only at hx
  obtain ⟨u, hu⟩ : ∃ u, u = s.dieDown 23 false := ⟨_, rfl⟩
  rw [← hu] at hx
  have hdown : u.ctx = {} ∧ u.sq = {} ∧ u.mbx.boxes = [] ∧ ∀ c, (u.sess c).st ≠ 1 := by
    rw [hu, State.dieDown]
    rw [if_neg (by decide), if_neg (by decide), if_neg (by decide), State.downHd]
    extract_lets a b lost gone v
    exact ⟨rfl, rfl, rfl, fun c => (Xport.start_sess _ _ c :)⟩
  obtain ⟨hctx, hsq, hboxes, hsess⟩ := hdown
  refine runs_of_exec hx ⟨?_, ?_, ?_, ?_, ?_, fun c _ => ?_⟩
  · rw [State.raise_svc, State.svc_service]
    rfl
  · rw [State.dieU, State.raise_dies, State.service_dies, ← State.dieU, State.dieU_modDie, if_pos rfl]
  · rw [State.raise_ctx, State.service_ctx, State.modDie_ctx, hctx]
  · rw [State.raise_sq, State.service_sq, State.modDie_sq, hsq]
  · rw [State.raise_mbx, State.service_mbx, State.modDie_mbx, hboxes]
  · rw [State.sess, State.raise_xp, State.service_xp, State.modDie_xp]
    exact hsess c

/-! Sessions begin and end (R399, R400). -/

theorem State.openReply_spec (s : State) (src : Src) (e : Err) (payload : List Byte) :
    (s.openReply src e payload).xp = s.xp ∧ (s.openReply src e payload).mbx.boxes = s.mbx.boxes ∧
      (s.openReply src e payload).mbx.enrol = s.mbx.enrol ∧
      (s.openReply src e payload).out = .mailbox src.oob
        { ctrl := src.ctrl, mailbox := src.mbox, flags := 1, command := 0x0C01, seq := src.seq, status := e.code, context := src.context,
          time := s.now, payload := if e = Err.ok then payload else [] } :: s.out := by
  unfold openReply
  dsimp only
  split
  · exact ⟨rfl, rfl, rfl, rfl⟩
  · rw [sendSeg_xp, sendSeg_mbx, sendSeg_out]
    exact ⟨rfl, rfl, rfl, rfl⟩

theorem State.resendNotices_sends (s : State) (c : Nat) : s.Sending (s.resendNotices c) ∧ (s.resendNotices c).mbx = s.mbx ∧
    s.out <:+ (s.resendNotices c).out := by
  refine ⟨Sending.foldl (fun s f => Sending.post ..) _ _, ?_, ?_⟩
  · exact foldl_keeps State.mbx (fun s f => post_mbx ..) _ _
  · have hall (l : List Frame401) (t : State) : t.out <:+ (l.foldl (fun s f => s.post (s.sess c).oob f) t).out := by
      induction l generalizing t with
      | nil => exact List.suffix_refl _
      | cons f l ih =>
        refine List.IsSuffix.trans ?_ (ih _)
        rw [out_post]
        exact List.suffix_cons _ _
    exact hall _ s

/-- A session that begins (R374, R399). -/
theorem State.beginSession_spec (s : State) (c : Nat) (p : PendS) :
    ((s.beginSession c p).sess c).st = 1 ∧ ((s.beginSession c p).sess c).key = p.key ∧ ((s.beginSession c p).sess c).expPsn = p.psnRx ∧
      ((s.beginSession c p).sess c).primary = (s.enrol c).primary ∧ Tab.find? (s.beginSession c p).xp.pend c = none ∧
      (s.beginSession c p).mbx = s.mbx ∧ s.out <:+ (s.beginSession c p).out := by
  obtain ⟨-, -, hmbx, hout⟩ := s.failXfers_keeps c
  unfold beginSession
  dsimp only
  generalize s.failXfers c = w at hmbx hout ⊢
  obtain ⟨u, hu⟩ : ∃ u, u = w.dropFrames c := ⟨_, rfl⟩
  have humbx : u.mbx = s.mbx := by rw [hu]; exact hmbx
  have huout : u.out = s.out := by rw [hu]; exact hout
  rw [← hu]
  obtain ⟨v, hv⟩ : ∃ v, v = u.modSess c fun x =>
    { st := 1, primary := (s.enrol c).primary, backup := (s.enrol c).backup, pcp := (s.enrol c).pcp, nextPsn := p.psnTx, expPsn := p.psnRx,
      ackPsn := (p.psnTx + 2 ^ 32 - 1) % 2 ^ 32, key := p.key, lastAdv := u.aonNs, lastSub := x.lastSub, peerMac := x.peerMac,
      peerIp := x.peerIp, peerPort := x.peerPort, oob := p.oob } := ⟨_, rfl⟩
  have hvx : (v.sess c).st = 1 ∧ (v.sess c).key = p.key ∧ (v.sess c).expPsn = p.psnRx ∧ (v.sess c).primary = (s.enrol c).primary := by
    rw [hv, sess_modSess, if_pos rfl]
    exact ⟨rfl, rfl, rfl, rfl⟩
  have hvmbx : v.mbx = s.mbx := by rw [hv, modSess_mbx, humbx]
  have hvout : v.out = s.out := by rw [hv, modSess_out, huout]
  rw [← hv]
  obtain ⟨w, hw⟩ : ∃ w : State, w = { v with
    xp := { v.xp with pend := Tab.del v.xp.pend c },
    sec := if c = 0 then { v.sec with claimSession := p.claim } else v.sec } := ⟨_, rfl⟩
  have hwx : w.sess c = v.sess c := by rw [hw]; rfl
  have hwpend : Tab.find? w.xp.pend c = none := by
    rw [hw]
    exact (tab_find_del ..).trans (if_pos rfl)
  have hwmbx : w.mbx = v.mbx := by rw [hw]
  have hwout : w.out = v.out := by rw [hw]
  rw [← hw]
  obtain ⟨hsend, hmbx', hout'⟩ := w.resendNotices_sends c
  have hr := hsend.sess c
  simp only [Xs.received, Prod.mk.injEq, hwx] at hr
  obtain ⟨hst, hexp, -, -, hkey, -, hprim⟩ := hr
  obtain ⟨hst', hkey', hexp', hprim'⟩ := hvx
  have hpend := congrArg (fun x : Xport => Tab.find? x.pend c) hsend.xp
  refine ⟨hst.trans hst', hkey.trans hkey', hexp.trans hexp', hprim.trans hprim', hpend.trans hwpend, ?_, ?_⟩
  · rw [hmbx', hwmbx, hvmbx]
  · rw [← hvout, ← hwout]
    exact hout'

section
variable {s : State} {src : Src} {modulus exponent nonce : List Byte} (hpuf : s.sec.pufOk = true) (hexp : beNat (padTo 4 exponent) = 65537)
  (hknown : s.claims src = true ∨ ((s.enrol src.ctrl).st = 1 ∧
    sha256 (padTo 384 modulus ++ padTo 4 exponent) = (s.enrol src.ctrl).hash ∧ (src.oob = true → (s.enrol src.ctrl).oob = true)))
include hpuf hexp hknown

/-- What SESSION_OPEN does when its checks pass (R399, R400): the reply, then a session that begins or is left pending. -/
theorem exec_sessionOpen : ∃ (u : State) (p : PendS) (f : Frame401), u.xp = s.xp ∧ u.mbx.boxes = s.mbx.boxes ∧ u.mbx.enrol = s.mbx.enrol ∧
    u.out = .mailbox src.oob f :: s.out ∧ f.command = 0x0C01 ∧ f.status = 0 ∧ p.key = Config.sessionKey s.free ∧
    p.psnRx = (Config.initialPsn s.free).2 % 2 ^ 32 ∧ p.claim = s.claims src ∧ p.oob = src.oob ∧
    exec (.sessionOpen src modulus exponent nonce) s = .next (if (s.sess src.ctrl).st = 1
      then { u with xp := { u.xp with pend := Tab.put u.xp.pend src.ctrl p } } else u.beginSession src.ctrl p) := by
  have hx : exec (.sessionOpen src modulus exponent nonce) s = execSessionOpen src modulus exponent nonce s := rfl
  unfold execSessionOpen at hx
  extract_lets c e claim key known k psn p body u at hx
  have hadmit : (!s.sec.pufOk || (!claim && !known)) = false := by
    rcases hknown with h | ⟨hst, hhash, hoob⟩
    · simp [hpuf, claim, h]
    · have hk : known = true := by
        cases ho : src.oob
        · simp [known, e, c, key, hst, hhash, ho]
        · simp [known, e, c, key, hst, hhash, ho, hoob ho]
      simp [hpuf, hk]
  have hchecks : firstErr [(!s.sec.pufOk || (!claim && !known), .denied), (decide (beNat (padTo 4 exponent) ≠ 65537), .badarg)] = none := by
    rw [hadmit]
    simp [firstErr, hexp]
  rw [hchecks] at hx
  dsimp only at hx
  obtain ⟨hxp, hboxes, henrol, hout⟩ := s.drew.openReply_spec src .ok (body ++ s.identitySig (body ++ nonce))
  have husess : u.sess c = s.sess c := by rw [State.sess, State.sess, hxp]; rfl
  rw [husess] at hx
  exact ⟨u, p, _, hxp, hboxes, henrol, hout, rfl, rfl, rfl, rfl, rfl, rfl, hx⟩

theorem runs_sessionOpen_begins (hst : (s.sess src.ctrl).st ≠ 1) :
    Runs (.sessionOpen src modulus exponent nonce) s fun t => (t.sess src.ctrl).st = 1 ∧
        (t.sess src.ctrl).key = Config.sessionKey s.free ∧ (t.sess src.ctrl).expPsn = (Config.initialPsn s.free).2 % 2 ^ 32 ∧
        (t.sess src.ctrl).primary = (s.enrol src.ctrl).primary ∧ Tab.find? t.xp.pend src.ctrl = none ∧ t.mbx.boxes = s.mbx.boxes ∧
        ∃ f, f.command = 0x0C01 ∧ f.status = 0 ∧ Sent s t (.mailbox src.oob f) := by
  obtain ⟨u, p, f, hxp, hboxes, henrol, hout, hcmd, hstatus, hkey, hrx, -, -, hx⟩ := exec_sessionOpen hpuf hexp hknown (nonce := nonce)
  rw [if_neg hst] at hx
  obtain ⟨hst', hkey', hexp', hprim', hpend', hmbx', hout'⟩ := u.beginSession_spec src.ctrl p
  refine runs_of_exec hx ⟨hst', hkey'.trans hkey, hexp'.trans hrx, ?_, hpend', ?_, f, hcmd, hstatus, ?_⟩
  · rw [hprim', State.enrol, henrol, State.enrol]
  · rw [hmbx', hboxes]
  · refine Sent.of_suffix (u := s) (List.suffix_refl _) ?_
    rw [hout] at hout'
    exact hout'

theorem runs_sessionOpen_pending (hst : (s.sess src.ctrl).st = 1) :
    Runs (.sessionOpen src modulus exponent nonce) s fun t => (t.sess src.ctrl).st = 1 ∧ (t.sess src.ctrl).key = (s.sess src.ctrl).key ∧
        (∃ p, Tab.find? t.xp.pend src.ctrl = some p ∧ p.key = Config.sessionKey s.free ∧ p.oob = src.oob ∧ p.claim = s.claims src) ∧
        ∃ f, f.command = 0x0C01 ∧ f.status = 0 ∧ Sent s t (.mailbox src.oob f) := by
  obtain ⟨u, p, f, hxp, -, -, hout, hcmd, hstatus, hkey, -, hclaim, hoob, hx⟩ := exec_sessionOpen hpuf hexp hknown (nonce := nonce)
  rw [if_pos hst] at hx
  have husess : u.sess src.ctrl = s.sess src.ctrl := by rw [State.sess, hxp, State.sess]
  refine runs_of_exec hx ⟨?_, ?_, ⟨p, ?_, hkey, hoob, hclaim⟩, f, hcmd, hstatus, [], [], hout⟩
  · exact (congrArg Xs.st husess).trans hst
  · exact congrArg Xs.key husess
  · dsimp only
    rw [tab_find_put, if_pos rfl]

end

/-- A reply goes out on its controller's session alone (R405). -/
theorem State.sess_reply (s : State) (src : Src) (cmd : Nat) (e : Err) (payload : List Byte) {c : Nat} (hc : c ≠ src.ctrl.val) :
    (s.reply src cmd e payload).sess c = s.sess c := by
  have hqueue (u : State) (g : TxSeg) : (u.queueSeg src.ctrl g).sess c = u.sess c := by
    unfold queueSeg
    dsimp only
    split
    · rfl
    · split
      · rw [sess, sendSeg_xp, ← sess, sess_modSess, if_neg hc]
      · rw [sess_modSess, if_neg hc]
  unfold reply post
  dsimp only
  split
  · rfl
  · exact hqueue ..

theorem runs_sessionClose {s : State} {src : Src} (hport : s.portAdmits src 0x0C02 = true) :
    Runs (.sessionClose src) s fun t => Replied s t src 0x0C02 [] ∧ (t.sess src.ctrl.val).st = 0 ∧
      (∀ i, i < 32 → (t.xfer (32 * src.ctrl.val + i)).st ≠ 1) ∧ ∀ c, c ≠ src.ctrl.val → t.sess c = s.sess c := by
  have hx : exec (.sessionClose src) s = execSessionClose src s := rfl
  unfold execSessionClose at hx
  rw [State.command_runs hport rfl rfl rfl] at hx
  have hreplied := Replied.of_reply (s := s) rfl rfl src 0x0C02 []
  have hsess (c : Nat) (hc : c ≠ src.ctrl.val) := s.sess_reply src 0x0C02 .ok [] hc
  generalize s.reply src 0x0C02 .ok [] = u at hx hreplied hsess
  obtain ⟨hst, -, hxfers⟩ := u.endSession_spec src.ctrl 0
  obtain ⟨hout, hkeep⟩ := u.endSession_keeps src.ctrl 0
  refine runs_of_exec hx ⟨?_, hst, hxfers, fun c hc => ?_⟩
  · rw [Replied, hout]
    exact hreplied
  · rw [hkeep c hc, hsess c hc]

theorem runs_ctrlList {s : State} {src : Src} (hport : s.portAdmits src 0x0C05 = true) : Runs (.ctrlList src) s fun t =>
    Replied s t src 0x0C05 ((List.range 8).flatMap fun c => (s.enrol c).bytes) ∧ OnlyReply s t := by
  have hx : exec (.ctrlList src) s = execCtrlList src s := rfl
  unfold execCtrlList at hx
  rw [State.command_runs hport rfl rfl rfl] at hx
  exact runs_of_exec hx ⟨Replied.of_reply rfl rfl .., OnlyReply.of_reply ..⟩

theorem exec_ctrlEnrol {s : State} {src : Src} {who rsv count : Nat} {entry keyHash sig : List Byte} (hport : s.portAdmits src 0x0C03 = true)
    (hwho : who < 8) (howned : s.sec.owned = true)
    (hsig : rsaVerify s.sec.ownerKey (s.ownerMsg 0x0C03 ([BitVec.ofNat 8 who] ++ padTo 5 entry ++ leBytes 2 rsv ++ leBytes 8 count ++
        padTo 32 keyHash)) sig = true) (hcount : (s.enrol who).count < count)
    (hprim : ∀ c, c < 8 → c ≠ who → (s.enrol c).st = 1 → (s.enrol c).primary ≠ fld entry 1 1) (h0 : fld entry 0 1 < 4)
    (h1 : fld entry 1 1 % 16 < 8) (h1' : fld entry 1 1 < 64) (h3 : fld entry 3 1 < 8) (h4 : fld entry 4 1 < 7)
    (h2 : fld entry 2 1 = 0xFF ∨ (fld entry 2 1 % 16 < 8 ∧ fld entry 2 1 < 64 ∧ fld entry 2 1 % 16 / 4 ≠ fld entry 1 1 % 16 / 4)) :
    exec (.ctrlEnrol src who entry rsv count keyHash sig) s = .next (s.queueCommit { src := some src, command := 0x0C03, recs :=
      [{ type := 4, index := who,
         data := padTo 32 keyHash ++ [1] ++ padTo 5 entry ++ [0, 0] ++ leBytes 8 count ++ leBytes 8 s.now ++ leBytes 8 0 }] }) := by
  have hx : exec (.ctrlEnrol src who entry rsv count keyHash sig) s = execCtrlEnrol src who entry rsv count keyHash sig s := rfl
  unfold execCtrlEnrol at hx
  dsimp only at hx
  rw [State.command_runs hport rfl rfl] at hx
  · exact hx
  · refine firstErr_none fun c hc => ?_
    simp only [List.mem_cons, List.not_mem_nil, or_false] at hc
    rcases hc with rfl | rfl | rfl | rfl | rfl | rfl
    · simp
      omega
    · rw [howned, hsig]
      rfl
    · simpa using hcount
    · rw [List.any_eq_false]
      intro c hc
      have := hprim c (List.mem_range.mp hc)
      simpa using this
    · simp only [decide_eq_false_iff_not]
      omega
    · rcases h2 with h2 | h2
      · simp [h2]
        omega
      · simp
        omega

theorem exec_ctrlRevoke {s : State} {src : Src} {who rsv count : Nat} {sig : List Byte} (hport : s.portAdmits src 0x0C04 = true)
    (hwho : who < 8) (howned : s.sec.owned = true)
    (hsig : rsaVerify s.sec.ownerKey (s.ownerMsg 0x0C04 ([BitVec.ofNat 8 who] ++ leBytes 7 rsv ++ leBytes 8 count)) sig = true)
    (hcount : (s.enrol who).count < count) :
    exec (.ctrlRevoke src who rsv count sig) s = .next (s.queueCommit { src := some src, command := 0x0C04, recs :=
      [{ type := 4, index := who, data := ({ s.enrol who with st := 2, count := count, time := s.now } : Enrol).bytes }] }) := by
  have hx : exec (.ctrlRevoke src who rsv count sig) s = execCtrlRevoke src who rsv count sig s := rfl
  unfold execCtrlRevoke at hx
  dsimp only at hx
  rw [State.command_runs hport rfl rfl] at hx
  · exact hx
  · rw [howned, hsig]
    refine firstErr_none fun c hc => ?_
    simp only [List.mem_cons, List.not_mem_nil, or_false] at hc
    rcases hc with rfl | rfl | rfl
    · simp
      omega
    · rfl
    · simpa using hcount

end Sys2Proof.Machine

namespace Sys2Proof.Machine

/-- A frame under its session's key, in a mailbox (R402). -/
theorem runs_mailboxFrame_signed {s : State} {c : Ctrl} {oob : Bool} {seg : List Byte} {m : Mbox} {f : CmdFrame} {src : Src}
    (hx : exec (.mailboxFrame c oob seg) s = .next (s.takeFrame src f)) (hsrc : src.ctrl = c) (hmbox : src.mbox = m)
    (hseq' : src.seq = f.seq) (hctx' : src.context = f.context) (hoob : src.oob = oob) :
    (f.seq = (s.box c m).e → (s.box c m).frames.length < 4 → cmdDefined f.command = true → CmdAllowed s src f →
      (∀ x, cmdCtx f.command f.args = some x → x = f.context) → Runs (.mailboxFrame c oob seg) s fun t =>
        t.box c m = { s.box c m with e := ((s.box c m).e + 1) % 2 ^ 32, accepted := (s.box c m).accepted + 1,
                                     frames := (s.box c m).frames ++ [{ f with no := s.mbx.accepted + 1 }] } ∧
        (∀ k, k ≠ m.val → k < 8 → t.box c k = s.box c k) ∧ t.mbx.accepted = s.mbx.accepted + 1 ∧ t = { s with mbx := t.mbx }) ∧
    (f.seq = (s.box c m).e → (s.box c m).frames.length < 4 → cmdDefined f.command = true → ¬ CmdAllowed s src f →
      Runs (.mailboxFrame c oob seg) s fun t => t.out = answer s src f.command .denied [] :: s.out ∧
        (t.box c m).e = ((s.box c m).e + 1) % 2 ^ 32 ∧ t.mbx.refused = s.mbx.refused + 1) ∧
    (f.seq = (s.box c m).e → 4 ≤ (s.box c m).frames.length → Runs (.mailboxFrame c oob seg) s fun t =>
      t.out = answer s src f.command .busy [] :: s.out ∧ t.box c m = s.box c m) ∧
    (∀ r, 0 < (f.seq + 2 ^ 32 - (s.box c m).e) % 2 ^ 32 → 2 ^ 32 - 4 ≤ (f.seq + 2 ^ 32 - (s.box c m).e) % 2 ^ 32 →
      List.find? (fun r => r.seq == f.seq) (s.box c m).replies = some r → Runs (.mailboxFrame c oob seg) s fun t =>
        t.out = .mailbox oob r :: s.out ∧ t.mbx = s.mbx) ∧
    (0 < (f.seq + 2 ^ 32 - (s.box c m).e) % 2 ^ 32 → ((f.seq + 2 ^ 32 - (s.box c m).e) % 2 ^ 32 < 2 ^ 32 - 4 ∨
      (List.find? (fun r => r.seq == f.seq) (s.box c m).replies = none ∧ (s.box c m).frames.any (fun q => q.seq == f.seq) = false)) →
      Runs (.mailboxFrame c oob seg) s fun t => t.box c m = s.box c m ∧ t.out = .mailbox oob
        { ctrl := c, mailbox := m, flags := 1, command := f.command, seq := f.seq, status := Err.seq.code, context := f.context,
          time := s.now, payload := leBytes 4 (s.box c m).e } :: s.out) := by
  subst hsrc hmbox hoob
  refine ⟨fun hseq hroom hdef hok hctx => ?_, fun hseq hroom hdef hno => ?_, fun hseq hfull => ?_, fun r hd0 hnear hr => ?_,
    fun hd0 hfar => ?_⟩
  · rw [State.takeFrame_accepted rfl hseq hroom hdef hok hctx] at hx
    refine runs_of_exec hx ⟨?_, fun k hk hk8 => ?_, rfl, rfl⟩
    · unfold State.acceptFrame
      dsimp only
      rw [State.box_modBox, if_pos rfl]
      rfl
    · unfold State.acceptFrame
      dsimp only
      rw [State.box_modBox, if_neg (by omega)]
      rfl
  · rw [State.takeFrame_denied rfl hseq hroom hdef hno] at hx
    exact runs_of_exec hx (s.refuseFrame_spec src f .denied nofun)
  · rw [State.takeFrame_busy rfl hseq hfull] at hx
    exact runs_of_exec hx ⟨State.out_answer .., State.box_of_boxes (State.mbx_answer ..) ..⟩
  · rw [State.takeFrame_again rfl rfl hd0 hnear hr] at hx
    exact runs_of_exec hx ⟨State.out_post .., State.post_mbx ..⟩
  · rw [State.takeFrame_outOfSeq rfl rfl hd0 hfar] at hx
    refine runs_of_exec hx ⟨State.box_of_boxes (State.mbx_answer ..) .., ?_⟩
    rw [State.out_answer, hseq', hctx']

/-- Settles O48: a frame of a mailbox is discarded, queued or answered by its checks, and sessions and enrolments follow their commands. -/
theorem mailboxesTakeFramesInSequence : Obligations.MailboxesTakeFramesInSequence := by
  unfold Obligations.MailboxesTakeFramesInSequence
  intro s
  refine ⟨?_, fun _ _ _ _ hf hidle hfirst => runs_mailboxCommandStart hf hidle hfirst, fun hhd => runs_mbxWatchdogExpiry hhd, ?_,
    fun _ hport => runs_sessionClose hport, fun _ hport => runs_ctrlList hport, ?_, ?_⟩
  · intro c oob seg hin n fits
    have hx := exec_mailboxFrame (seg := seg) (c := c) hin
    refine ⟨fun h => ?_, fun h hopen hpend hkey => ?_, fun m h hopen hpend hst hkey hm => ?_⟩
    · rw [hx, State.mailboxFrame_unfit h]
      rfl
    · rw [State.mailboxFrame_unsigned h hopen hpend hkey] at hx
      obtain ⟨hdis, hboxes, hxp, hout⟩ := s.discardFrame.logSig_keeps c
      exact runs_of_exec hx ⟨hdis, hboxes, hxp, hout⟩
    · rw [State.mailboxFrame_signed h hopen hpend hst hkey hm] at hx
      exact runs_mailboxFrame_signed hx rfl rfl rfl rfl rfl
  · intro src modulus exponent nonce c key hpuf hexp hknown
    exact ⟨fun hst => runs_sessionOpen_begins hpuf hexp hknown hst, fun hst => runs_sessionOpen_pending hpuf hexp hknown hst⟩
  · intro src who entry rsv count keyHash sig hport hwho howned hsig hcount hprim h0 h1 h1' h3 h4 h2 data k
    exact exec_ctrlEnrol hport hwho howned hsig hcount hprim h0 h1 h1' h3 h4 h2
  · intro src who rsv count sig hport hwho howned hsig hcount e k
    exact exec_ctrlRevoke hport hwho howned hsig hcount

end Sys2Proof.Machine

namespace Sys2Proof.Machine

/-! Units that stop at their resume points (R94, R121, R141, R195, R412): what that leaves of the contexts and of the Mules. -/

/-- The DMA engine e of die d (R217). -/
def State.eng (s : State) (d e : Nat) : DmaEng := Tab.get {} (s.cd d).dma.engines e

/-- From `s` to `t` no context changes, no Mule runs or halts, no tile changes its context, and no DMA engine starts. -/
structure State.Stops (s t : State) : Prop where
  ctx : t.ctx = s.ctx
  ft : t.ft = s.ft
  mule : ∀ d p, (t.tile d p).mule.st = (s.tile d p).mule.st
  mine : ∀ d p, (t.tile d p).mem.ctx = (s.tile d p).mem.ctx
  idle : ∀ d e, (s.eng d e).st ≠ 1 → (t.eng d e).st ≠ 1

namespace State.Stops

variable {s t u : State}

theorem refl (s : State) : s.Stops s := ⟨rfl, rfl, fun _ _ => rfl, fun _ _ => rfl, fun _ _ h => h⟩

theorem trans (h : s.Stops t) (h' : t.Stops u) : s.Stops u where
  ctx := h'.ctx.trans h.ctx
  ft := h'.ft.trans h.ft
  mule d p := (h'.mule d p).trans (h.mule d p)
  mine d p := (h'.mine d p).trans (h.mine d p)
  idle d e he := h'.idle d e (h.idle d e he)

theorem of_eq (hctx : t.ctx = s.ctx) (hft : t.ft = s.ft) (hcds : t.cds = s.cds) : s.Stops t := by
  have hcd (d : Nat) : t.cd d = s.cd d := cd_of_cds hcds d
  refine ⟨hctx, hft, fun d p => ?_, fun d p => ?_, fun d e he => ?_⟩
  · rw [tile_of_cds hcds]
  · rw [tile_of_cds hcds]
  · rw [eng, hcd, ← eng]
    exact he

theorem foldl {α : Type} {step : State → α → State} (h : ∀ (s : State) a, s.Stops (step s a)) (l : List α) (s : State) :
    s.Stops (l.foldl step s) :=
  State.foldl_only refl (fun _ _ _ => trans) h l s

theorem modCd (d : Nat) (f : ComputeDie → ComputeDie) (htiles : ∀ c, (f c).tiles = c.tiles)
    (heng : ∀ c e, (Tab.get {} c.dma.engines e : DmaEng).st ≠ 1 → (Tab.get {} (f c).dma.engines e : DmaEng).st ≠ 1) :
    s.Stops (s.modCd d f) := by
  refine ⟨rfl, rfl, fun k p => ?_, fun k p => ?_, fun k e he => ?_⟩
  · rw [tile_modCd d htiles]
  · rw [tile_modCd d htiles]
  · rw [eng, cd_modCd]
    split
    case isTrue h => rw [h] at he; exact heng _ e he
    case isFalse => exact he

theorem modTile (d p : Nat) (f : Tile → Tile) (hmule : (f (s.tile d p)).mule.st = (s.tile d p).mule.st)
    (hmine : (f (s.tile d p)).mem.ctx = (s.tile d p).mem.ctx) : s.Stops (s.modTile d p f) := by
  refine ⟨rfl, rfl, fun k q => ?_, fun k q => ?_, fun k e he => ?_⟩
  · rw [tile_modTile]
    split
    case isTrue h => rw [h.1, h.2, hmule]
    case isFalse => rfl
  · rw [tile_modTile]
    split
    case isTrue h => rw [h.1, h.2, hmine]
    case isFalse => rfl
  · rw [eng, State.modTile, cd_modCd]
    split
    case isTrue h => rw [h] at he; exact he
    case isFalse => exact he

theorem modEng (d e : Nat) (f : DmaEng → DmaEng) (hf : ∀ x, x.st ≠ 1 → (f x).st ≠ 1) : s.Stops (s.modEng d e f) := by
  refine modCd d _ (fun _ => rfl) fun c k hk => ?_
  dsimp only
  rw [tab_get_modify]
  split
  case isTrue h => rw [h] at hk; exact hf _ hk
  case isFalse => exact hk

theorem notice (c code : Nat) (payload : List Byte) : s.Stops (s.notice c code payload) :=
  of_eq (notice_ctx ..) (notice_ft ..) (notice_cds ..)

theorem reply (src : Src) (cmd : Nat) (e : Err) (payload : List Byte) : s.Stops (s.reply src cmd e payload) :=
  of_eq (reply_ctx ..) (reply_ft ..) (reply_cds ..)

theorem markUnit (d kind index : Nat) (off drain : Bool) : s.Stops (s.markUnit d kind index off drain) := by
  have harr (s : State) : s.Stops (s.modArr d index fun a => { a with disabled := off, draining := drain }) :=
    modTile d index _ rfl rfl
  have hee (s : State) : s.Stops (s.modEe d index fun e => { e with disabled := off, draining := drain }) :=
    modTile d index _ rfl rfl
  unfold State.markUnit
  dsimp only
  split
  · exact harr s
  · exact hee s
  · exact modCd d _ (fun _ => rfl) fun _ _ h => h
  · exact modEng d index _ fun _ h => h
  · split
    · exact modTile d index _ rfl rfl
    · exact ((harr s).trans (hee _)).trans (modTile d index _ rfl rfl)

theorem settle (s : State) : s.Stops s.settle := by
  refine foldl (fun s q => ?_) s.dis s
  split
  · have hdis : s.Stops { s with dis := s.dis.filter fun o => o ≠ q } := of_eq rfl rfl rfl
    exact (hdis.trans (markUnit ..)).trans (reply ..)
  · exact refl s

theorem drew (h : s.Stops t) (n : Nat) : s.Stops (t.drew n) := h.trans (of_eq rfl rfl rfl)

theorem modArr (d p : Nat) (f : ArrayU → ArrayU) : s.Stops (s.modArr d p f) := modTile d p _ rfl rfl

theorem modEe (d p : Nat) (f : EeU → EeU) : s.Stops (s.modEe d p f) := modTile d p _ rfl rfl

theorem tagDone (d i tag : Nat) : s.Stops (s.tagDone d i tag) := by
  unfold State.tagDone
  refine Stops.trans ?_ (settle _)
  exact modTile d _ _ rfl rfl

theorem passFull (d p : Nat) (q : Pass) : s.Stops (s.passFull d p q) := by
  unfold State.passFull
  dsimp only
  refine Stops.trans ?_ (tagDone ..)
  exact drew (modArr ..) 1

theorem stopArray (d p : Nat) : s.Stops (s.stopArray d p) := by
  unfold State.stopArray
  dsimp only
  refine Stops.trans ?_ (foldl (fun s q => ?_) _ _)
  · exact modArr ..
  · split
    · exact passFull ..
    · exact drew (modArr ..) 1

theorem stopEe (d p : Nat) : s.Stops (s.stopEe d p) := by
  unfold State.stopEe
  dsimp only
  split
  · exact refl s
  case h_2 q _ =>
    have hflags (u : State) (i fl flush : Nat) : u.Stops (u.orFlags d i fl flush) := by
      refine modCd d _ (fun c => ?_) fun c e he => ?_
      · unfold ComputeDie.addFlush ComputeDie.orFlags
        dsimp only
        split
        · rfl
        · split <;> rfl
      · unfold ComputeDie.addFlush ComputeDie.orFlags
        dsimp only
        split
        · exact he
        · split <;> exact he
    refine Stops.trans ?_ (modEe ..)
    split
    · split
      · exact drew (Stops.trans (modTile d p _ rfl rfl) (hflags ..)) 1
      · exact refl s
    · exact drew (modTile d p _ rfl rfl) 1

theorem queueFault (d : Nat) (f : FaultRec) : s.Stops (s.queueFault d f) := by
  unfold State.queueFault
  dsimp only
  split
  · refine Stops.trans ?_ (notice ..)
    exact modCd d _ (fun _ => rfl) fun _ _ h => h
  · exact modCd d _ (fun _ => rfl) fun _ _ h => h

theorem refillFaults (d : Nat) : s.Stops (s.refillFaults d) := by
  unfold State.refillFaults
  split
  · exact refl s
  · split
    · refine Stops.trans ?_ (queueFault ..)
      exact modCd d _ (fun _ => rfl) fun _ _ h => h
    · exact refl s

theorem dropWaiters (d : Nat) (gone : FaultRec → Requester → Bool) : s.Stops (s.dropWaiters d gone) := by
  unfold State.dropWaiters
  refine Stops.trans ?_ (foldl (fun s _ => refillFaults d) _ _)
  exact modCd d _ (fun _ => rfl) fun _ _ h => h

/-- A DMA engine with no copy under way stops without effect on anything else (R221). -/
theorem stopEng (d e : Nat) (h : (s.eng d e).st ≠ 1) : s.Stops (s.stopEng d e) := by
  unfold State.stopEng
  dsimp only
  split
  · exact modEng d e _ fun _ _ => by simp
  · rw [if_pos]
    · exact refl s
    · exact h

/-- The units of a context stop (R94, R412), with no copy under way. -/
theorem stopUnits (x : Nat) (hidle : ∀ d e, (s.eng d e).st ≠ 1) : s.Stops (s.stopUnits x) := by
  unfold State.stopUnits
  extract_lets u
  have hu : s.Stops u := foldl (fun s t => (stopArray ..).trans (stopEe ..)) _ _
  have hengs (l : List Nat) (d : Nat) (v : State) (hv : ∀ d e, (v.eng d e).st ≠ 1) :
      v.Stops (l.foldl (fun s e => if (Tab.get {} (s.cd d).dma.engines e : DmaEng).cur.ctx = x then s.stopEng d e else s) v) := by
    induction l generalizing v with
    | nil => exact refl v
    | cons e l ih =>
      have hstep : v.Stops (if (Tab.get {} (v.cd d).dma.engines e : DmaEng).cur.ctx = x then v.stopEng d e else v) := by
        split
        · exact stopEng d e (hv d e)
        · exact refl v
      exact hstep.trans (ih _ fun k e' => hstep.idle k e' (hv k e'))
  have hdies (l : List Nat) (v : State) (hv : ∀ d e, (v.eng d e).st ≠ 1) : v.Stops (l.foldl (fun s d =>
    if (s.cd d).map.count = 0 ∨ !bit (s.cx x).mask d then s
    else
      let s := (List.range 8).foldl (fun s e => if (Tab.get {} (s.cd d).dma.engines e : DmaEng).cur.ctx = x then s.stopEng d e else s) s
      let s := s.dropWaiters d fun f _ => f.ctx == x
      if (s.cd d).hen.jobs.any fun j => decide (j.2.ctx = x ∧ j.2.st = 1) then
        s.modCd d fun c => { c with hen := { c.hen with quiescing := true } }
      else s) v) := by
    induction l generalizing v with
    | nil => exact refl v
    | cons d l ih =>
      rw [List.foldl_cons]
      refine Stops.trans ?hstep (ih _ fun k e => Stops.idle ?hstep k e (hv k e))
      split
      · exact refl v
      · have h1 := (hengs (List.range 8) d v hv).trans (dropWaiters d fun f _ => f.ctx == x)
        dsimp only
        split
        · exact h1.trans (modCd d _ (fun _ => rfl) fun _ _ h => h)
        · exact h1
  exact hu.trans (hdies _ _ fun d e => hu.idle d e (hidle d e))

end State.Stops

end Sys2Proof.Machine

namespace Sys2Proof.Machine

/-! What becomes of the contexts (R408 to R412). -/

/-- A context's entry after a change of its state (R409). -/
theorem State.cx_setCtx_same (s : State) (x : Nat) (st : CtxSt) (code : Err) (die ltile : Nat) :
    (s.setCtx x st code die ltile).cx x =
      { s.cx x with st := st, changed := s.now, code := if code = Err.ok then (s.cx x).code else code } := by
  unfold setCtx
  dsimp only
  rw [cx, notice_ctx, ← cx, cx_modCx, if_pos rfl]
  rfl

theorem State.cx_setCtx_other (s : State) {x k : Nat} (h : k ≠ x) (st : CtxSt) (code : Err) (die ltile : Nat) :
    (s.setCtx x st code die ltile).cx k = s.cx k := by
  unfold setCtx
  dsimp only
  rw [cx, notice_ctx, ← cx, cx_modCx, if_neg h]
  rfl

theorem State.cx_of_ctx {s t : State} (h : t.ctx = s.ctx) (x : Nat) : t.cx x = s.cx x := by rw [cx, h, cx]

theorem State.cxx_of_ctx {s t : State} (h : t.ctx = s.ctx) (x : Nat) : t.cxx x = s.cxx x := by rw [cxx, h, cxx]

namespace State.Stops

variable {s : State}

theorem bpFree (d r a : Nat) : s.Stops (s.bpFree d r a).1 := by
  cases h : (s.cd d).bp.release r a with
  | ok b =>
    rw [bpFree_ok h]
    dsimp only
    refine modCd d _ ?_ ?_
    · exact fun _ => rfl
    · exact fun _ _ h => h
  | error e =>
    rw [bpFree_error h]
    refine Stops.trans ?_ (of_eq (raise_ctx ..) (raise_ft ..) (raise_cds ..))
    refine modCd d _ ?_ ?_
    · exact fun _ => rfl
    · exact fun _ _ h => h

theorem bpAlloc (d r p : Nat) : s.Stops (s.bpAlloc d r p).1 := by
  unfold State.bpAlloc
  dsimp only
  refine modCd d _ ?_ ?_
  · exact fun _ => rfl
  · exact fun _ _ h => h

theorem releaseOx (d : Nat) : s.Stops (s.releaseOx d) := by
  rw [releaseOx_only]
  exact of_eq rfl rfl rfl

theorem collRelease (b : Nat) : s.Stops (s.collRelease b) := by
  unfold State.collRelease
  dsimp only
  have hfold := foldl (fun (s : State) d => releaseOx d) (s.bindX b).run.descs s
  generalize List.foldl (fun s d => s.releaseOx d) s (s.bindX b).run.descs = u at hfold ⊢
  refine hfold.trans (Stops.trans (t := if (s.bind b).place = 2 then (u.bpFree (s.bind b).owner 9 (s.bind b).spill).1 else u) ?_ ?_)
  · split
    · exact bpFree ..
    · exact refl u
  · exact of_eq rfl rfl rfl

theorem collEndCtx (x : Nat) : s.Stops (s.collEndCtx x) := by
  refine foldl (fun s b => ?_) _ _
  refine Stops.trans ?_ (collRelease b)
  have hctx := congrArg Prod.snd (s.sq_ctx_abortBinding b .collAborted s.node 3 [] none 0)
  exact of_eq hctx (ft_of_outer (outer_abortBinding ..)) (abortBinding_cds ..)

end State.Stops

/-- Nothing of a context is left on a tile of the die whose work of it ends (R410). -/
theorem State.mine_dieCtxEnd (s : State) (d x k p : Nat) : ((s.dieCtxEnd d x).tile k p).mem.ctx =
    if k = d ∧ (s.tile k p).mem.ctx = some x then none else (s.tile k p).mem.ctx := by
  have hdrop := (Stops.dropWaiters (s := s) d fun f _ => f.ctx == x).mine
  unfold dieCtxEnd
  dsimp only
  generalize s.dropWaiters d (fun f _ => f.ctx == x) = u at hdrop ⊢
  rw [← hdrop k p, tile, cd_modCd]
  by_cases hk : k = d
  · subst hk
    rw [if_pos rfl]
    dsimp only
    rw [tab_get_remap _ _ _ _ (by rfl)]
    change (if (u.tile k p).mem.ctx = some x then (u.tile k p).ctxEnd else u.tile k p).mem.ctx = _
    split
    case isTrue h => rw [if_pos ⟨rfl, h⟩]; rfl
    case isFalse h => rw [if_neg (fun hh => h hh.2)]
  · rw [if_neg hk, if_neg (fun hh => hk hh.1)]
    rfl

theorem State.dieCtxEnd_keeps (s : State) (d x : Nat) : (s.dieCtxEnd d x).ctx = s.ctx ∧ (s.dieCtxEnd d x).ft = s.ft := by
  have h := Stops.dropWaiters (s := s) d fun f _ => f.ctx == x
  exact ⟨h.ctx, h.ft⟩

/-- A die of which nothing is held runs no context. -/
theorem State.mine_of_no_die {s : State} {d : Nat} (h : Tab.has s.cds d = false) (p x : Nat) : (s.tile d p).mem.ctx ≠ some x := by
  have hnone : Tab.find? s.cds d = none := by simpa [Tab.has] using h
  have hcd : s.cd d = {} := by rw [cd, Tab.get, hnone]; rfl
  rw [tile, hcd]
  exact nofun

/-- One die of those on which a context's program ends (R410). -/
theorem State.dieCtxEnd_spec (s : State) (a x : Nat) : let t := if Tab.has s.cds a then s.dieCtxEnd a x else s
    t.ctx = s.ctx ∧ t.ft = s.ft ∧ ∀ d p, d = a ∨ (s.tile d p).mem.ctx ≠ some x → (t.tile d p).mem.ctx ≠ some x := by
  intro t
  by_cases hhas : Tab.has s.cds a = true
  · have ht : t = s.dieCtxEnd a x := if_pos hhas
    rw [ht]
    refine ⟨(s.dieCtxEnd_keeps a x).1, (s.dieCtxEnd_keeps a x).2, fun d p h => ?_⟩
    rw [mine_dieCtxEnd]
    split
    · exact nofun
    case isFalse hno => exact fun hx => h.elim (fun hd => hno ⟨hd, hx⟩) fun hne => hne hx
  · have ht : t = s := if_neg hhas
    rw [ht]
    refine ⟨rfl, rfl, fun d p h => h.elim (fun hd => ?_) id⟩
    rw [hd]
    exact mine_of_no_die (by simpa using hhas) p x

/-- The end of a context's program on every die (R410). -/
theorem State.ctxUnitsEnd_spec (s : State) (x : Nat) : (s.ctxUnitsEnd x).ctx = s.ctx ∧ (s.ctxUnitsEnd x).ft = s.ft ∧
    ∀ d p, d < 16 → ((s.ctxUnitsEnd x).tile d p).mem.ctx ≠ some x := by
  obtain ⟨step, hstep⟩ : ∃ step : State → Nat → State, step = fun s d => if Tab.has s.cds d then s.dieCtxEnd d x else s := ⟨_, rfl⟩
  have hone (s : State) (a : Nat) : (step s a).ctx = s.ctx ∧ (step s a).ft = s.ft ∧
      ∀ d p, d = a ∨ (s.tile d p).mem.ctx ≠ some x → ((step s a).tile d p).mem.ctx ≠ some x := by
    rw [hstep]
    exact s.dieCtxEnd_spec a x
  have hfold (l : List Nat) (s : State) : (l.foldl step s).ctx = s.ctx ∧ (l.foldl step s).ft = s.ft ∧
      ∀ d p, d ∈ l ∨ (s.tile d p).mem.ctx ≠ some x → ((l.foldl step s).tile d p).mem.ctx ≠ some x := by
    induction l generalizing s with
    | nil => exact ⟨rfl, rfl, fun d p h => h.resolve_left List.not_mem_nil⟩
    | cons a l ih =>
      obtain ⟨hctx, hft, hmine⟩ := ih (step s a)
      obtain ⟨hctx', hft', hmine'⟩ := hone s a
      refine ⟨hctx.trans hctx', hft.trans hft', fun d p h => hmine d p ?_⟩
      by_cases hd : d ∈ l
      · exact Or.inl hd
      · exact Or.inr (hmine' d p (h.imp_left fun h => (List.mem_cons.mp h).resolve_right hd))
  obtain ⟨hctx, hft, hmine⟩ := hfold (List.range 16) s
  have hend : s.ctxUnitsEnd x = ((List.range 16).foldl step s).settle := by
    rw [hstep]
    rfl
  rw [hend]
  have hsettle := Stops.settle ((List.range 16).foldl step s)
  refine ⟨hsettle.ctx.trans hctx, hsettle.ft.trans hft, fun d p hd => ?_⟩
  rw [hsettle.mine d p]
  exact hmine d p (Or.inl (List.mem_range.mpr hd))

end Sys2Proof.Machine

namespace Sys2Proof.Machine

/-! The context commands (R408 to R412). -/

theorem mem_diesOf {mask d : Nat} : d ∈ diesOf mask ↔ d < 16 ∧ bit mask d = true := by
  rw [diesOf, List.mem_filter, List.mem_range]

theorem diesOf_nodup (mask : Nat) : (diesOf mask).Nodup := List.nodup_range.filter _

/-- A slot is bound to the context on its die (R209). -/
theorem State.slotOf_bindSlot {s : State} {d : Nat} (h : s.freeSlot d ≠ none) (x l1 : Nat) : ((s.bindSlot d x l1).cd d).tr.slotOf x ≠ none := by
  obtain ⟨i, hi⟩ := Option.ne_none_iff_exists'.mp h
  unfold bindSlot
  rw [hi]
  dsimp only
  rw [cd_modCd, if_pos rfl]
  unfold Trans.slotOf
  dsimp only
  rw [ne_eq, Option.map_eq_none_iff, List.find?_eq_none]
  intro hno
  have hmem := hno (i, _) (tab_mem_set_self (d := ({} : TSlot)) _ i
    (v := { (Tab.get {} (s.cd d).tr.slots i : TSlot) with bound := true, ctx := x, fail := false, l1 := l1 })
    fun hv => Bool.noConfusion (congrArg TSlot.bound hv))
  simp at hmem

theorem State.bindSlot_only (s : State) (d x l1 : Nat) : (s.bindSlot d x l1).ctx = s.ctx ∧ (s.bindSlot d x l1).ft = s.ft ∧
    (s.bindSlot d x l1).hbm = s.hbm ∧ ∀ k, k ≠ d → (s.bindSlot d x l1).cd k = s.cd k := by
  unfold bindSlot
  split
  · exact ⟨rfl, rfl, rfl, fun _ _ => rfl⟩
  · exact ⟨rfl, rfl, rfl, fun k hk => by rw [cd_modCd, if_neg hk]⟩

theorem State.freeSlot_of_cd {s t : State} {d : Nat} (h : t.cd d = s.cd d) : t.freeSlot d = s.freeSlot d := by
  rw [freeSlot, h, freeSlot]

/-- A context bound on the dies of its mask (R410). -/
theorem State.bindSlots_spec (l : List Nat) (hl : l.Nodup) (s : State) (hfree : ∀ d ∈ l, s.freeSlot d ≠ none) (x l1 : Nat) :
    let t := l.foldl (fun s d => s.bindSlot d x l1) s
    t.ctx = s.ctx ∧ t.ft = s.ft ∧ t.hbm = s.hbm ∧ (∀ d ∈ l, (t.cd d).tr.slotOf x ≠ none) ∧ ∀ d, d ∉ l → t.cd d = s.cd d := by
  induction l generalizing s with
  | nil => exact ⟨rfl, rfl, rfl, fun _ h => absurd h List.not_mem_nil, fun _ _ => rfl⟩
  | cons a l ih =>
    obtain ⟨ha, hl⟩ := List.nodup_cons.mp hl
    obtain ⟨hctx, hft, hhbm, hother⟩ := s.bindSlot_only a x l1
    have hne (d : Nat) (hd : d ∈ l) : d ≠ a := fun h => ha (h ▸ hd)
    obtain ⟨hctx', hft', hhbm', hslots, hrest⟩ := ih hl (s.bindSlot a x l1) fun d hd => by
      rw [freeSlot_of_cd (hother d (hne d hd))]
      exact hfree d (List.mem_cons_of_mem _ hd)
    refine ⟨hctx'.trans hctx, hft'.trans hft, hhbm'.trans hhbm, fun d hd => ?_, fun d hd => ?_⟩
    · rcases List.mem_cons.mp hd with rfl | hd
      · rw [List.foldl_cons, hrest d ha]
        exact slotOf_bindSlot (hfree d List.mem_cons_self) x l1
      · exact hslots d hd
    · rw [List.mem_cons, not_or] at hd
      rw [List.foldl_cons, hrest d hd.2, hother d hd.1]

theorem runs_ctxCreate {s : State} {src : Src} {x want flags mask l1 : Nat} (hhd : s.svc.hdIn = true) (hport : s.portAdmits src 0x0301 = true)
    (hwant : want = 0xFFFF ∨ (want < 4096 ∧ src.context = want)) (hflags : flags < 4) (hmask : mask % 2 ^ 16 ≠ 0) (hl1 : l1 % 4096 = 0)
    (hhbm : inHbm l1 4096 = true) (hpick : s.pickCtx want = some x) (hdies : ∀ d ∈ diesOf mask, s.dieIn d = true ∧ s.freeSlot d ≠ none) :
    Runs (.ctxCreate src want flags 0 mask l1) s fun t => RepliedLast s t src 0x0301 (leBytes 2 x) ∧
        t.cx x = { owner := src.ctrl, ieee := bit flags 0, goodput := bit flags 1, mask := mask % 2 ^ 16, l1 := l1, st := .open_, changed := s.now } ∧
        (∀ y, y ≠ x → t.cx y = s.cx y) ∧ (∀ d ∈ diesOf mask, (t.cd d).tr.slotOf x ≠ none) ∧
        (∀ d, d ∉ diesOf mask → t.cd d = s.cd d) ∧ t.hbm = s.hbm := by
  have hx : exec (.ctxCreate src want flags 0 mask l1) s = execCtxCreate src want flags 0 mask l1 s := rfl
  unfold execCtxCreate at hx
  have hchecks : firstErr [(!s.svc.hdIn, .range),
      (decide (4 ≤ flags ∨ 0 ≠ 0 ∨ mask % 2 ^ 16 = 0 ∨ (4096 ≤ want ∧ want ≠ 0xFFFF)), .badarg), (decide (l1 % 4096 ≠ 0), .align),
      (!inHbm l1 4096 || (diesOf mask).any fun d => !s.dieIn d, .range), (decide (want ≠ 0xFFFF) && !s.noCtx want, .busy),
      ((s.pickCtx want).isNone || (diesOf mask).any fun d => (s.freeSlot d).isNone, .quota)] = none := by
    refine firstErr_none fun c hc => ?_
    simp only [List.mem_cons, List.not_mem_nil, or_false] at hc
    rcases hc with rfl | rfl | rfl | rfl | rfl | rfl
    · simp [hhd]
    · simp only [decide_eq_false_iff_not]
      omega
    · simp [hl1]
    · rw [hhbm, Bool.not_true, Bool.false_or, List.any_eq_false]
      intro d hd
      simp [(hdies d hd).1]
    · by_cases hw : want = 0xFFFF
      · simp [hw]
      · have hfree : s.noCtx want = true := by
          rw [State.pickCtx, if_neg hw] at hpick
          by_contra hno
          rw [if_neg hno] at hpick
          cases hpick
        simp [hfree]
    · rw [hpick, Option.isNone_some, Bool.false_or, List.any_eq_false]
      intro d hd
      simpa using (hdies d hd).2
  rw [State.command_runs hport rfl (by simp; omega) hchecks, hpick] at hx
  rw [Option.getD_some] at hx
  dsimp only at hx
  obtain ⟨hctx, hft, hhbm', hslots, hrest⟩ := State.bindSlots_spec (diesOf mask) (diesOf_nodup mask) s (fun d hd => (hdies d hd).2) x l1
  generalize (diesOf mask).foldl (fun s d => s.bindSlot d x l1) s = u at hx hctx hft hhbm' hslots hrest
  obtain ⟨w, hw⟩ : ∃ w : State, w = ({ u with ctx := { u.ctx with creates := u.ctx.creates + 1 } } : State).modCx x fun _ =>
    { owner := src.ctrl, ieee := bit flags 0, goodput := bit flags 1, mask := mask % 2 ^ 16, l1 := l1 } := ⟨_, rfl⟩
  rw [← hw] at hx
  obtain ⟨z, hz⟩ : ∃ z : State, z = { w with
    ctx := { w.ctx with x := Tab.del w.ctx.x x, progress := Tab.put w.ctx.progress x { lastTick := w.now } } } := ⟨_, rfl⟩
  rw [← hz] at hx
  have hzcx : z.cx x = { owner := src.ctrl, ieee := bit flags 0, goodput := bit flags 1, mask := mask % 2 ^ 16, l1 := l1 } := by
    have hzw : z.cx x = w.cx x := by rw [hz]; rfl
    rw [hzw, hw, State.cx_modCx, if_pos rfl]
  have hzother (y : Nat) (hy : y ≠ x) : z.cx y = s.cx y := by
    have hzw : z.cx y = w.cx y := by rw [hz]; rfl
    rw [hzw, hw, State.cx_modCx, if_neg hy]
    exact State.cx_of_ctx hctx y
  have hzft : z.ft = s.ft := by
    have : z.ft = u.ft := by rw [hz, hw]; rfl
    exact this.trans hft
  have hzcd (d : Nat) : z.cd d = u.cd d := by
    rw [hz, hw]
    rfl
  have hzhbm : z.hbm = s.hbm := by
    have : z.hbm = u.hbm := by rw [hz, hw]; rfl
    exact this.trans hhbm'
  have hcd (d : Nat) : (((z.setCtx x .open_).reply src 0x0301 .ok (leBytes 2 x)).cd d) = u.cd d := by
    rw [State.cd_of_cds (State.reply_cds ..), State.cd_of_cds (State.setCtx_cds ..), hzcd]
  refine runs_of_exec hx ⟨?_, ?_, fun y hy => ?_, fun d hd => ?_, fun d hd => ?_, ?_⟩
  · refine RepliedLast.of_reply ?_ ..
    exact State.now_of_ft ((State.setCtx_ft ..).trans hzft)
  · rw [State.cx_reply, State.cx_setCtx_same, hzcx, State.now_of_ft hzft, if_pos rfl]
  · rw [State.cx_reply, State.cx_setCtx_other _ hy, hzother y hy]
  · rw [hcd]
    exact hslots d hd
  · rw [hcd]
    exact hrest d hd
  · rw [State.reply_hbm, State.setCtx_hbm, hzhbm]

/-- No slot is bound to the context any more (R209). -/
theorem State.slotOf_unbindSlots (s : State) (x d : Nat) : ((s.unbindSlots x).cd d).tr.slotOf x = none := by
  unfold unbindSlots
  rw [cd, tab_get_remap _ _ _ _ (by rfl)]
  unfold Trans.slotOf
  dsimp only
  rw [Option.map_eq_none_iff, List.find?_eq_none]
  intro e he
  have hv := tab_mem_remap he
  rw [hv]
  split
  · simp
  case isFalse h => simpa using h

theorem State.mine_unbindSlots (s : State) (x d p : Nat) : ((s.unbindSlots x).tile d p) = s.tile d p := by
  unfold unbindSlots
  rw [tile, cd, tab_get_remap _ _ _ _ (by rfl)]
  rfl

/-- The save buffers of a context given back (R412): no slot or tile changes, no other context. -/
theorem State.freeBuffers_spec (s : State) (x : Nat) : (s.freeBuffers x).ft = s.ft ∧ (∀ y, y ≠ x → (s.freeBuffers x).cx y = s.cx y) ∧
    (s.freeBuffers x).cx x = { s.cx x with saves := 0 } ∧ ((s.freeBuffers x).cxx x = { s.cxx x with saves := [] }) ∧
    (∀ d p, (s.freeBuffers x).tile d p = s.tile d p) ∧ ∀ d, ((s.freeBuffers x).cd d).tr = (s.cd d).tr := by
  have hfree (s : State) (d r a : Nat) : (s.bpFree d r a).1.ctx = s.ctx ∧ (s.bpFree d r a).1.ft = s.ft ∧
      (∀ k p, (s.bpFree d r a).1.tile k p = s.tile k p) ∧ ∀ k, ((s.bpFree d r a).1.cd k).tr = (s.cd k).tr := by
    have hmod (f : ComputeDie → ComputeDie) (htr : ∀ c, (f c).tr = c.tr) (k : Nat) : ((s.modCd d f).cd k).tr = (s.cd k).tr := by
      rw [cd_modCd]
      split
      case isTrue h => rw [htr, h]
      case isFalse => rfl
    cases h : (s.cd d).bp.release r a with
    | ok b =>
      rw [bpFree_ok h]
      refine ⟨rfl, rfl, fun k p => ?_, fun k => ?_⟩
      · exact tile_modCd d (fun _ => rfl) ..
      · refine hmod _ ?_ k
        exact fun _ => rfl
    | error e =>
      rw [bpFree_error h]
      refine ⟨raise_ctx .., raise_ft .., fun k p => ?_, fun k => ?_⟩
      · refine (tile_of_cds (raise_cds ..) ..).trans ?_
        exact tile_modCd d (fun _ => rfl) ..
      · rw [cd_of_cds (raise_cds ..)]
        refine hmod _ ?_ k
        exact fun _ => rfl
  have hfold (l : List SavedTile) (s : State) :
      let t := l.foldl (fun s v => ((s.bpFree v.die 10 v.buf).1.bpFree v.die 10 v.store).1) s
      t.ctx = s.ctx ∧ t.ft = s.ft ∧ (∀ k p, t.tile k p = s.tile k p) ∧ ∀ k, (t.cd k).tr = (s.cd k).tr := by
    induction l generalizing s with
    | nil => exact ⟨rfl, rfl, fun _ _ => rfl, fun _ => rfl⟩
    | cons v l ih =>
      obtain ⟨h1, h2, h3, h4⟩ := hfree s v.die 10 v.buf
      obtain ⟨h1', h2', h3', h4'⟩ := hfree (s.bpFree v.die 10 v.buf).1 v.die 10 v.store
      obtain ⟨i1, i2, i3, i4⟩ := ih ((s.bpFree v.die 10 v.buf).1.bpFree v.die 10 v.store).1
      exact ⟨i1.trans (h1'.trans h1), i2.trans (h2'.trans h2), fun k p => (i3 k p).trans ((h3' k p).trans (h3 k p)),
        fun k => (i4 k).trans ((h4' k).trans (h4 k))⟩
  obtain ⟨hctx, hft, htile, htr⟩ := hfold (s.cxx x).saves s
  unfold freeBuffers
  dsimp only
  generalize (s.cxx x).saves.foldl (fun s v => ((s.bpFree v.die 10 v.buf).1.bpFree v.die 10 v.store).1) s = u at hctx hft htile htr ⊢
  refine ⟨hft, fun y hy => ?_, ?_, ?_, htile, htr⟩
  · rw [cx_modCx, if_neg hy, cx_modCxx, cx_of_ctx hctx]
  · rw [cx_modCx, if_pos rfl, cx_modCxx, cx_of_ctx hctx]
  · rw [cxx_modCx, cxx_modCxx, if_pos rfl, cxx_of_ctx hctx]

end Sys2Proof.Machine

namespace Sys2Proof.Machine

/-! Contexts that end, stop and are saved (R409 to R412). -/

section
variable {s : State} {src : Src} {x : Nat}

theorem State.cx_schedDrop (s : State) {x y : Nat} (h : y ≠ x) : (s.schedDrop x).cx y = s.cx y := by
  unfold schedDrop
  extract_lets u v
  have hu (k : Nat) : u.cx k = s.cx k := rfl
  change v.cx y = s.cx y
  unfold v
  split
  · exact hu y
  · rw [cx_modCx, if_neg h]
    exact hu y

theorem State.schedDrop_keeps (s : State) (x : Nat) : (∀ d p, (s.schedDrop x).tile d p = s.tile d p) ∧
    ∀ d, ((s.schedDrop x).cd d).tr = (s.cd d).tr := by
  have hcds : (s.schedDrop x).cds = (s.slotsDrop x).cds := by
    unfold schedDrop
    extract_lets u v
    change v.cds = _
    unfold v
    split <;> rfl
  have hcd (d : Nat) : (s.schedDrop x).cd d = { s.cd d with slots := { (s.cd d).slots with
      entries := (s.cd d).slots.entries.filter fun e => e.2.ctx != x } } := by
    rw [cd_of_cds hcds, slotsDrop, cd, tab_get_remap _ _ _ _ (by rfl)]
    rfl
  exact ⟨fun d p => by rw [tile, hcd]; rfl, fun d => by rw [hcd]⟩

/-- A context destroyed (R410): it is FREE, on no die and in no tile. -/
theorem State.destroyCtx_spec (s : State) (x : Nat) : (s.destroyCtx x).ft = s.ft ∧ ((s.destroyCtx x).cx x).st = .free ∧
    (∀ y, y ≠ x → (s.destroyCtx x).cx y = s.cx y) ∧
    ∀ d, d < 16 → ((s.destroyCtx x).cd d).tr.slotOf x = none ∧ ∀ p, ((s.destroyCtx x).tile d p).mem.ctx ≠ some x := by
  obtain ⟨hctx, hft, hmine⟩ := s.ctxUnitsEnd_spec x
  unfold destroyCtx
  dsimp only
  generalize s.ctxUnitsEnd x = u at hctx hft hmine ⊢
  have hcoll := Stops.collEndCtx (s := u) x
  generalize u.collEndCtx x = v at hcoll ⊢
  have hslot := v.slotOf_unbindSlots x
  have htile := v.mine_unbindSlots x
  have hctxw : (v.unbindSlots x).ctx = s.ctx := hcoll.ctx.trans hctx
  have hftw : (v.unbindSlots x).ft = s.ft := hcoll.ft.trans hft
  generalize v.unbindSlots x = w at hslot htile hctxw hftw ⊢
  obtain ⟨hft1, hcx1, -, -, htile1, htr1⟩ := w.freeBuffers_spec x
  generalize w.freeBuffers x = b at hft1 hcx1 htile1 htr1 ⊢
  obtain ⟨hft2, -, -, -⟩ := b.schedDrop_spec x
  obtain ⟨htile2, htr2⟩ := b.schedDrop_keeps x
  have hcx2 (y : Nat) (hy : y ≠ x) := b.cx_schedDrop hy
  generalize b.schedDrop x = c at hft2 htile2 htr2 hcx2 ⊢
  have hcds := c.setCtx_cds x .free .ok 0xFF 0xFF
  have hft3 := c.setCtx_ft x .free .ok 0xFF 0xFF
  have hcx3 (y : Nat) (hy : y ≠ x) := c.cx_setCtx_other hy .free .ok 0xFF 0xFF
  generalize c.setCtx x .free = e at hcds hft3 hcx3 ⊢
  refine ⟨?_, ?_, fun y hy => ?_, fun d hd => ⟨?_, fun p => ?_⟩⟩
  · exact hft3.trans (hft2.trans (hft1.trans hftw))
  · exact congrArg Ctx.st (tab_get_del_same ({} : Ctx) e.ctx.tab x)
  · have hdel : (Tab.get {} (Tab.del e.ctx.tab x) y : Ctx) = e.cx y := by
      rw [Tab.get, tab_find_del, if_neg hy]
      rfl
    exact hdel.trans ((hcx3 y hy).trans ((hcx2 y hy).trans ((hcx1 y hy).trans (cx_of_ctx hctxw y))))
  · have : (e.cd d).tr = (w.cd d).tr := by rw [cd_of_cds hcds, htr2, htr1]
    exact (congrArg (fun t : Trans => t.slotOf x) this).trans (hslot d)
  · have : e.tile d p = v.tile d p := by rw [tile_of_cds hcds, htile2, htile1, htile]
    have hm := hmine d p hd
    rw [← hcoll.mine d p, ← this] at hm
    exact hm

theorem runs_ctxDestroy (ho : Owner s src 0x0302 x) (hhd : s.svc.hdIn = true) (hlive : (s.cx x).st.live = false) :
    Runs (.ctxDestroy src x) s fun t => RepliedLast s t src 0x0302 [] ∧ (t.cx x).st = .free ∧
      (∀ y, y ≠ x → (t.cx y).st = (s.cx y).st) ∧ ∀ d, d < 16 → (t.cd d).tr.slotOf x = none ∧ ∀ p, (t.tile d p).mem.ctx ≠ some x := by
  have hx : exec (.ctxDestroy src x) s = execCtxDestroy src x s := rfl
  unfold execCtxDestroy at hx
  rw [ho.ownCommand_runs hhd (by simp [firstErr, State.ctxLive, hlive])] at hx
  obtain ⟨hft, hfree, hother, hgone⟩ := s.destroyCtx_spec x
  generalize s.destroyCtx x = u at hx hft hfree hother hgone
  refine runs_of_exec hx ⟨RepliedLast.of_reply (State.now_of_ft hft) .., ?_, fun y hy => ?_, fun d hd => ?_⟩
  · rw [State.cx_reply, hfree]
  · rw [State.cx_reply, hother y hy]
  · rw [State.cd_of_cds (State.reply_cds ..)]
    refine ⟨(hgone d hd).1, fun p => ?_⟩
    rw [State.tile_of_cds (State.reply_cds ..)]
    exact (hgone d hd).2 p

theorem runs_ctxReset_open (ho : Owner s src 0x0307 x) (hhd : s.svc.hdIn = true) (hst : (s.cx x).st = .open_) :
    Runs (.ctxReset src x) s fun t => Replied s t src 0x0307 [] ∧ OnlyReply s t := by
  have hx : exec (.ctxReset src x) s = execCtxReset src x s := rfl
  unfold execCtxReset at hx
  rw [ho.ownCommand_runs hhd (by simp [firstErr, State.ctxLive, hst, CtxSt.live]), if_pos hst] at hx
  exact runs_of_exec hx ⟨Replied.of_reply rfl rfl .., OnlyReply.of_reply ..⟩

/-- The fault mode of slots changes nothing of a tile (R209). -/
theorem State.slotMode_keeps (s : State) (x mask : Nat) (fail : Bool) : s.Stops (s.slotMode x mask fail) := by
  refine Stops.foldl (fun s d => ?_) _ _
  refine Stops.modCd d _ ?_ ?_
  · exact fun _ => rfl
  · exact fun _ _ h => h

theorem runs_ctxReset (ho : Owner s src 0x0307 x) (hhd : s.svc.hdIn = true) (hlive : (s.cx x).st.live = false) (hst : (s.cx x).st ≠ .open_) :
    Runs (.ctxReset src x) s fun t =>
      RepliedLast s t src 0x0307 [] ∧ (t.cx x).st = .open_ ∧ (t.cx x).programId = 0 ∧ (t.cx x).owner = (s.cx x).owner ∧
      (t.cx x).mask = (s.cx x).mask ∧ (t.cxx x).prog = none ∧ (t.cxx x).windows = (s.cxx x).windows ∧
      ∀ d p, d < 16 → (t.tile d p).mem.ctx ≠ some x := by
  have hx : exec (.ctxReset src x) s = execCtxReset src x s := rfl
  unfold execCtxReset at hx
  rw [ho.ownCommand_runs hhd (by simp [firstErr, State.ctxLive, hlive]), if_neg hst] at hx
  obtain ⟨hctx, hft, hmine⟩ := s.ctxUnitsEnd_spec x
  generalize s.ctxUnitsEnd x = u at hx hctx hft hmine
  have hmode := u.slotMode_keeps x (s.cx x).mask false
  generalize u.slotMode x (s.cx x).mask false = v at hx hmode
  have hvctx : v.ctx = s.ctx := hmode.ctx.trans hctx
  obtain ⟨w, hw⟩ : ∃ w, w = (v.modCxx x fun c => { windows := c.windows, saves := c.saves }).modCx x fun c =>
    { c with debug := false, scheduled := false, urCompat := false, recIdx := 0xFF, programId := 0, schedId := 0, tiles := 0 } := ⟨_, rfl⟩
  have hwcx : w.cx x = { s.cx x with debug := false, scheduled := false, urCompat := false, recIdx := 0xFF, programId := 0,
                                     schedId := 0, tiles := 0 } := by
    rw [hw, State.cx_modCx, if_pos rfl, State.cx_modCxx, State.cx_of_ctx hvctx]
  have hwcxx : w.cxx x = { windows := (s.cxx x).windows, saves := (s.cxx x).saves } := by
    rw [hw, State.cxx_modCx, State.cxx_modCxx, if_pos rfl, State.cxx_of_ctx hvctx]
  have hwft : w.ft = s.ft := by
    have : w.ft = v.ft := by rw [hw]; rfl
    exact this.trans (hmode.ft.trans hft)
  have hwcds : w.cds = v.cds := by rw [hw]; rfl
  dsimp only at hx
  rw [← hw] at hx
  refine runs_of_exec hx ⟨?_, ?_, ?_, ?_, ?_, ?_, ?_, fun d p hd => ?_⟩
  · refine RepliedLast.of_reply ?_ ..
    exact State.now_of_ft ((State.setCtx_ft ..).trans hwft)
  · rw [State.cx_reply, State.cx_setCtx_same]
  · rw [State.cx_reply, State.cx_setCtx_same, hwcx]
  · rw [State.cx_reply, State.cx_setCtx_same, hwcx]
  · rw [State.cx_reply, State.cx_setCtx_same, hwcx]
  · rw [State.cxx_reply, State.cxx_setCtx, hwcxx]
  · rw [State.cxx_reply, State.cxx_setCtx, hwcxx]
  · rw [State.tile_of_cds (State.reply_cds ..), State.tile_of_cds (State.setCtx_cds ..), State.tile_of_cds hwcds, hmode.mine]
    exact hmine d p hd

theorem runs_ctxStatus (ho : Owner s src 0x0303 x) (hhd : s.svc.hdIn = true) : Runs (.ctxStatus src x) s fun t => OnlyReply s t ∧
      Replied s t src 0x0303 ((s.cx x).bytes ++ (s.ctxLogical x).flatMap fun k => leBytes 8 (s.tile k.1 k.2.2).mule.statusWord ++
        leBytes 8 (s.tile k.1 k.2.2).mule.pc.toNat ++ leBytes 8 (s.tile k.1 k.2.2).mule.faultWord) := by
  have hx : exec (.ctxStatus src x) s = execCtxStatus src x s := rfl
  unfold execCtxStatus at hx
  rw [ho.ownCommand_runs hhd rfl] at hx
  exact runs_of_exec hx ⟨OnlyReply.of_reply .., Replied.of_reply rfl rfl ..⟩

theorem runs_ctxList {first : Nat} (hport : s.portAdmits src 0x0305 = true) (hhd : s.svc.hdIn = true) (hfirst : first ≤ 0xFFF) :
    Runs (.ctxList src first) s fun t => OnlyReply s t ∧
      Replied s t src 0x0305 (((s.ctx.tab.filter fun e => decide (first ≤ e.1 ∧ e.2.st ≠ .free)).take 1024).flatMap fun e =>
        leBytes 2 e.1 ++ [BitVec.ofNat 8 e.2.st.code, BitVec.ofNat 8 e.2.owner]) := by
  have hx : exec (.ctxList src first) s = execCtxList src first s := rfl
  unfold execCtxList at hx
  rw [State.command_runs hport rfl rfl (by simp [firstErr, hhd]; omega)] at hx
  exact runs_of_exec hx ⟨OnlyReply.of_reply .., Replied.of_reply rfl rfl ..⟩

theorem runs_ctxAdopt (ha : Admin s src 0x0308) (hhd : s.svc.hdIn = true) (hnamed : src.context = x) (hst : (s.cx x).st ≠ .free) :
    Runs (.ctxAdopt src x) s fun t => Replied s t src 0x0308 [BitVec.ofNat 8 (s.cx x).owner] ∧
      t.cx x = { s.cx x with owner := src.ctrl } ∧ ∀ y, y ≠ x → t.cx y = s.cx y := by
  have hx : exec (.ctxAdopt src x) s = execCtxAdopt src x s := rfl
  unfold execCtxAdopt at hx
  rw [State.command_runs ha.port ha.admin (decide_eq_true hnamed) (by simp [firstErr, hhd, State.noCtx, hst])] at hx
  refine runs_of_exec hx ⟨Replied.of_reply rfl rfl .., ?_, fun y hy => ?_⟩
  · rw [State.cx_reply, State.cx_modCx, if_pos rfl]
  · rw [State.cx_reply, State.cx_modCx, if_neg hy]

theorem runs_ctxHalt (ho : Owner s src 0x0309 x) (hhd : s.svc.hdIn = true) (hst : (s.cx x).st = .running ∨ (s.cx x).st = .armed)
    (hsched : (s.cx x).scheduled = false) : Runs (.ctxHalt src x) s fun t =>
      RepliedLast s t src 0x0309 [] ∧ (t.cx x).st = .halted ∧ (t.cx x).code = .aborted ∧
      (∀ d p, (s.tile d p).mem.ctx = some x → (s.tile d p).mule.st.active = true → (t.tile d p).mule.st = .haltFault ∧
        (t.tile d p).mule.faultCode = .aborted ∧ (t.tile d p).mule.faultSource = 0 ∧ (t.tile d p).mule.tags = (s.tile d p).mule.tags) ∧
      ∀ d p, (s.tile d p).mem.ctx ≠ some x → (t.tile d p).mule = (s.tile d p).mule := by
  have hx : exec (.ctxHalt src x) s = execCtxHalt src x s := rfl
  unfold execCtxHalt at hx
  rw [ho.ownCommand_runs hhd (by rcases hst with h | h <;> simp [firstErr, h, hsched])] at hx
  dsimp only at hx
  obtain ⟨f, hf⟩ : ∃ f : Tile → Tile, f = fun t =>
    if t.mem.ctx = some x ∧ t.mule.st.active = true then { t with mule := t.mule.halt .aborted 0 0x1F 0 0 } else t := ⟨_, rfl⟩
  have hremap : (s.remapTiles fun _ _ t => if t.mem.ctx = some x ∧ t.mule.st.active = true
      then { t with mule := t.mule.halt .aborted 0 0x1F 0 0 } else t) = s.remapTiles fun _ _ t => f t := by rw [hf]
  rw [hremap] at hx
  have hmule (d p : Nat) : (((((s.remapTiles fun _ _ t => f t).setCtx x .halted .aborted).launchEnd x).reply src 0x0309 .ok []).tile d p).mule =
      (f (s.tile d p)).mule := by
    rw [State.tile_of_cds (State.reply_cds ..), State.mule_launchEnd, State.tile_of_cds (State.setCtx_cds ..),
      State.tile_remapTiles s (by rw [hf]; rfl)]
  refine runs_of_exec hx ⟨?_, ?_, ?_, fun d p hmine hact => ?_, fun d p hmine => ?_⟩
  · refine RepliedLast.of_reply ?_ ..
    exact State.now_of_ft ((State.launchEnd_ft ..).trans (State.setCtx_ft ..))
  · rw [State.cx_reply, State.cx_of_ctx (State.launchEnd_ctx ..), State.cx_setCtx_same]
  · rw [State.cx_reply, State.cx_of_ctx (State.launchEnd_ctx ..), State.cx_setCtx_same]
    rfl
  · rw [hmule, hf]
    dsimp only
    rw [if_pos ⟨hmine, hact⟩]
    exact ⟨rfl, rfl, rfl, rfl⟩
  · rw [hmule, hf]
    dsimp only
    rw [if_neg (fun h => hmine h.1)]

end

end Sys2Proof.Machine

namespace Sys2Proof.Machine

/-! CTX_SAVE and its completion (R94, R409, R412). -/

theorem runs_ctxSave {s : State} {src : Src} {x : Nat} (ho : Owner s src 0x0304 x) (hhd : s.svc.hdIn = true)
    (hnone : (s.cxx x).saveReply = none) (hcoll : (s.ox.binds.any fun b => decide (b.2.ctx = x ∧ b.2.st = .running)) = false)
    (hst : (s.cx x).st = .done ∨ (s.cx x).st = .halted ∨ ((s.cx x).st = .running ∧ (s.cx x).scheduled = false)) :
    Runs (.ctxSave src x) s fun t => (t.cxx x).saveReply = some src ∧
        ((s.cx x).st = .running → (∀ d e, (Tab.get {} (s.cd d).dma.engines e : DmaEng).st ≠ 1) → (t.cx x).st = .stopping ∧
          ∀ d p, (s.tile d p).mem.ctx = some x → (s.tile d p).mule.st = .run ∨ (s.tile d p).mule.st = .wait →
            (t.tile d p).mule.st = .saved) := by
  have hx : exec (.ctxSave src x) s = execCtxSave src x s := rfl
  unfold execCtxSave at hx
  dsimp only at hx
  rw [ho.ownCommand_runs hhd] at hx
  rotate_left
  · refine firstErr_none fun c hc => ?_
    simp only [List.mem_cons, List.not_mem_nil, or_false] at hc
    rcases hc with rfl | rfl | rfl
    · rcases hst with h | h | ⟨h, hs⟩
      · simp [h]
      · simp [h]
      · simp [hs]
    · rcases hst with h | h | ⟨h, -⟩ <;> simp [h, hnone]
    · exact hcoll
  refine runs_of_exec hx ⟨?_, fun hrun hidle => ?_⟩
  · rw [State.cxx_modCxx, if_pos rfl]
  · rw [if_pos hrun]
    obtain ⟨f, hf⟩ : ∃ f : ComputeDie → Tile → Tile, f = fun c t => if t.mem.ctx = some x then t.preempt c.rs.mem s.aonNs else t :=
      ⟨_, rfl⟩
    have hstop (d : Nat) : (s.stopMules x).cd d = { s.cd d with tiles := Tab.remap {} (fun _ t => f (s.cd d) t) (s.cd d).tiles } := by
      rw [hf, State.stopMules, State.cd, tab_get_remap _ _ _ _ (by rfl)]
      rfl
    have htile (d p : Nat) : (s.stopMules x).tile d p = f (s.cd d) (s.tile d p) := by
      rw [State.tile, hstop]
      dsimp only
      rw [tab_get_remap _ _ _ _ (by rw [hf]; rfl)]
      rfl
    have hcds : ((s.stopMules x).setCtx x .stopping).cds = (s.stopMules x).cds := State.setCtx_cds ..
    have hstops : ((s.stopMules x).setCtx x .stopping).Stops (((s.stopMules x).setCtx x .stopping).stopUnits x) := by
      refine State.Stops.stopUnits x fun d e => ?_
      rw [State.eng, State.cd_of_cds hcds, hstop]
      exact hidle d e
    generalize ((s.stopMules x).setCtx x .stopping).stopUnits x = u at hstops ⊢
    refine ⟨?_, fun d p hmine hmule => ?_⟩
    · rw [State.cx_modCxx, State.cx_of_ctx hstops.ctx, State.cx_setCtx]
    · have hu : (u.tile d p).mule.st = .saved := by
        rw [hstops.mule, State.tile_of_cds hcds, htile, hf]
        dsimp only
        rw [if_pos hmine]
        unfold Tile.preempt
        rcases hmule with h | h <;> rw [h]
      exact hu

/-- A refusal of a buffer says why (R225). -/
theorem Bp.alloc_error {b : Bp} {r p : Nat} {e : Err} (h : (b.alloc r p).2 = .error e) : e ≠ .ok := by
  unfold alloc at h
  split at h
  · cases h
  case h_2 e' hne =>
    cases h
    exact hne

theorem State.bpAlloc_error {s u : State} {d r p : Nat} {e : Err} (h : s.bpAlloc d r p = (u, .error e)) : e ≠ .ok :=
  Bp.alloc_error (congrArg Prod.snd h)

theorem State.stops_of_bpAlloc {s u : State} {d r p : Nat} {a : Except Err Nat} (h : s.bpAlloc d r p = (u, a)) : s.Stops u := by
  have hs := Stops.bpAlloc (s := s) d r p
  rw [h] at hs
  exact hs

/-- What taking buffers keeps on its way (R412). -/
structure TakesBuffers (s : State) (r : State × List (Nat × Nat) × Option Err) : Prop where
  stops : s.Stops r.1
  code : ∀ e, r.2.2 = some e → e ≠ .ok

theorem TakesBuffers.refused {s u : State} {l : List (Nat × Nat)} {e : Err} (h : s.Stops u) (he : e ≠ .ok) :
    TakesBuffers s (u, l, some e) :=
  ⟨h, fun e' h => by cases h; exact he⟩

theorem TakesBuffers.taken {s u : State} {l : List (Nat × Nat)} (h : s.Stops u) : TakesBuffers s (u, l, none) := ⟨h, nofun⟩

/-- Buffers taken for a save (R412): no context changes, and a refusal says why. -/
theorem State.takeBuffers_spec (s : State) (ts : List (Nat × Nat × Nat)) : s.Stops (s.takeBuffers ts).1 ∧
    ∀ e, (s.takeBuffers ts).2 = .error e → e ≠ .ok := by
  unfold takeBuffers
  extract_lets r
  have hr : TakesBuffers s r := by
    refine List.foldlRecOn ts _ (motive := TakesBuffers s) ⟨Stops.refl s, nofun⟩ fun r hr t _ => ?_
    split
    · exact hr
    · split
      next u e heq => exact .refused (hr.stops.trans (stops_of_bpAlloc heq)) (bpAlloc_error heq)
      next u a heq =>
        have h4 := hr.stops.trans (stops_of_bpAlloc heq)
        split
        next v e heq5 => exact .refused ((h4.trans (stops_of_bpAlloc heq5)).trans (Stops.bpFree ..)) (bpAlloc_error heq5)
        next v b heq5 => exact .taken (h4.trans (stops_of_bpAlloc heq5))
  clear_value r
  split
  · exact ⟨hr.stops, nofun⟩
  next e he =>
    have hback : r.1.Stops ((ts.zip r.2.1).foldl (fun s t => ((s.bpFree t.1.1 10 t.2.1).1.bpFree t.1.1 10 t.2.2).1) r.1) :=
      Stops.foldl (fun s t => (Stops.bpFree ..).trans (Stops.bpFree ..)) _ _
    refine ⟨hr.stops.trans hback, fun e' h => ?_⟩
    cases h
    exact hr.code e he

end Sys2Proof.Machine

namespace Sys2Proof.Machine

/-! The completion of CTX_SAVE (R409, R412). -/

/-- The Hen's jobs of a context held on the dies (R195) leave the contexts and the time. -/
theorem State.holdAll_keeps (l : List Nat) (s : State) (x : Nat) :
    let t := l.foldl (fun s d => if (s.cd d).hen.jobs.any fun j => decide (j.2.ctx = x ∧ j.2.st = 1) then s.holdJobs d x else s) s
    t.ctx = s.ctx ∧ t.ft = s.ft := by
  refine ⟨foldl_keeps State.ctx (fun s d => ?_) l s, foldl_keeps State.ft (fun s d => ?_) l s⟩
  · split <;> rfl
  · split <;> rfl

/-- A tile written to its buffers and cleared leaves the contexts and the time (R412). -/
theorem State.saveTile_keeps (s : State) (v : SavedTile) (t : Tile) (p : Nat) : ((s.writeSave v t).vacate v p).ctx = s.ctx ∧
    ((s.writeSave v t).vacate v p).ft = s.ft := ⟨rfl, rfl⟩

section
variable {s : State} {src : Src} {x : Nat}

/-- What CTX_SAVE_COMPLETE does before it takes its buffers: only the context's own entries change. -/
theorem exec_ctxSaveComplete {S : State} (hsrc : (S.cxx x).saveReply = some src) (hout : S.ctxOut x = false) : ∃ u : State, u.ft = S.ft ∧
    (u.cx x).st = (S.cx x).st ∧ (u.cxx x).saveReply = none ∧ (u.cxx x).saves = [] ∧
    (∀ s e, u.takeBuffers (u.ctxLogical x) = (s, .error e) → exec (.ctxSaveComplete x) S = .next
      ((if (s.cx x).st = .stopping then (s.setCtx x .halted .nomem).launchEnd x else s).reply src 0x0304 e [])) ∧
    (∀ s bufs, u.takeBuffers (u.ctxLogical x) = (s, .ok bufs) → exec (.ctxSaveComplete x) S = .next
        (let r := ((u.ctxLogical x).zip bufs).foldl (fun (r : State × List SavedTile) t =>
          let v := r.1.capture x t.1.1 t.1.2.1 t.1.2.2
          let v := { v with buf := t.2.1, store := t.2.2, len := v.length }
          ((r.1.writeSave v (r.1.tile v.die t.1.2.2)).vacate v t.1.2.2, r.2 ++ [v])) (s, [])
        let s := r.1.modCxx x fun c => { c with saves := r.2 }
        let s := { s with ctx := { s.ctx with savesDone := s.ctx.savesDone + 1 } }
        let s := (s.modCx x fun c => { c with saves := 2 * r.2.length }).setCtx x .saved
        s.reply src 0x0304 .ok (leBytes 2 (2 * r.2.length)))) := by
  have hx : exec (.ctxSaveComplete x) S = execCtxSaveComplete x S := rfl
  unfold execCtxSaveComplete at hx
  rw [hsrc] at hx
  dsimp only at hx
  rw [hout, if_neg (by simp)] at hx
  obtain ⟨v, hv⟩ : ∃ v, v = S.modCxx x fun c => { c with saveReply := none } := ⟨_, rfl⟩
  have hvx : (v.cxx x).saveReply = none := by rw [hv, State.cxx_modCxx, if_pos rfl]
  have hvc : v.cx x = S.cx x := by rw [hv, State.cx_modCxx]
  have hvft : v.ft = S.ft := by rw [hv]; rfl
  rw [← hv] at hx
  obtain ⟨hctx, hft⟩ := State.holdAll_keeps (List.range 16) v x
  generalize (List.range 16).foldl (fun s d => if (s.cd d).hen.jobs.any fun j => decide (j.2.ctx = x ∧ j.2.st = 1) then s.holdJobs d x else s) v
    = w at hx hctx hft
  obtain ⟨hft', -, hcx, hcxx, -, -⟩ := w.freeBuffers_spec x
  refine ⟨w.freeBuffers x, hft'.trans (hft.trans hvft), ?_, ?_, ?_, fun v e h => ?_, fun v bufs h => ?_⟩
  · rw [hcx, State.cx_of_ctx hctx, hvc]
  · rw [hcxx, State.cxx_of_ctx hctx]
    exact hvx
  · rw [hcxx]
  · rw [hx, h]
  · rw [hx, h]

theorem runs_ctxSaveComplete (hsrc : (s.cxx x).saveReply = some src) (hout : s.ctxOut x = false) :
    Runs (.ctxSaveComplete x) s fun t => (t.cxx x).saveReply = none ∧
      ∃ e p, t.out.head? = some (answer s src 0x0304 e p) ∧ (e = .ok → (t.cx x).st = .saved ∧ ∃ n, p = leBytes 2 (2 * n)) ∧
        (e ≠ .ok → p = [] ∧ (t.cxx x).saves = [] ∧ ((s.cx x).st = .stopping → (t.cx x).st = .halted ∧ (t.cx x).code = .nomem)) := by
  obtain ⟨u, huft, hust, hureply, husaves, hfails, htakes⟩ := exec_ctxSaveComplete hsrc hout
  obtain ⟨hstops, herr⟩ := u.takeBuffers_spec (u.ctxLogical x)
  cases htake : u.takeBuffers (u.ctxLogical x) with
  | mk v a =>
    rw [htake] at hstops herr
    have hvft : v.ft = s.ft := hstops.ft.trans huft
    have hvcxx : v.cxx x = u.cxx x := State.cxx_of_ctx hstops.ctx x
    have hvst : (v.cx x).st = (s.cx x).st := (congrArg Ctx.st (State.cx_of_ctx hstops.ctx x)).trans hust
    cases a with
    | error e =>
      have hx := hfails v e htake
      have he : e ≠ .ok := herr e rfl
      obtain ⟨w, hw⟩ : ∃ w, w = if (v.cx x).st = .stopping then (v.setCtx x .halted .nomem).launchEnd x else v := ⟨_, rfl⟩
      have hwft : w.ft = s.ft := by
        rw [hw]
        split
        · exact (State.launchEnd_ft ..).trans ((State.setCtx_ft ..).trans hvft)
        · exact hvft
      have hwcxx : w.cxx x = u.cxx x := by
        rw [hw, ← hvcxx]
        split
        · exact (State.cxx_of_ctx (State.launchEnd_ctx ..) x).trans (State.cxx_setCtx ..)
        · rfl
      have hwcx (hst : (s.cx x).st = .stopping) : (w.cx x).st = .halted ∧ (w.cx x).code = .nomem := by
        rw [hw, if_pos (hvst.trans hst), State.cx_of_ctx (State.launchEnd_ctx ..), State.cx_setCtx_same]
        exact ⟨rfl, rfl⟩
      rw [← hw] at hx
      refine runs_of_exec hx ⟨?_, e, [], ?_, fun h => absurd h he, fun _ => ⟨rfl, ?_, fun hst => ?_⟩⟩
      · rw [State.cxx_reply, hwcxx, hureply]
      · rw [State.out_reply_answer, List.head?_cons, answer_of_now (State.now_of_ft hwft), ite_self]
      · rw [State.cxx_reply, hwcxx, husaves]
      · rw [State.cx_reply]
        exact hwcx hst
    | ok bufs =>
      have hx := htakes v bufs htake
      dsimp only at hx
      obtain ⟨r, hr⟩ : ∃ r, r = ((u.ctxLogical x).zip bufs).foldl (fun (r : State × List SavedTile) t =>
          let v := r.1.capture x t.1.1 t.1.2.1 t.1.2.2
          let v := { v with buf := t.2.1, store := t.2.2, len := v.length }
          ((r.1.writeSave v (r.1.tile v.die t.1.2.2)).vacate v t.1.2.2, r.2 ++ [v])) (v, []) := ⟨_, rfl⟩
      have hrk : r.1.ctx = v.ctx ∧ r.1.ft = v.ft := by
        rw [hr]
        refine List.foldlRecOn _ _ (motive := fun r : State × List SavedTile => r.1.ctx = v.ctx ∧ r.1.ft = v.ft) ⟨rfl, rfl⟩
          fun r hr t _ => ?_
        have hk := r.1.saveTile_keeps (let v := r.1.capture x t.1.1 t.1.2.1 t.1.2.2
          { v with buf := t.2.1, store := t.2.2, len := v.length }) (r.1.tile t.1.1 t.1.2.2) t.1.2.2
        exact ⟨hk.1.trans hr.1, hk.2.trans hr.2⟩
      obtain ⟨hrctx, hrft⟩ := hrk
      dsimp only at hr
      rw [← hr] at hx
      obtain ⟨w, hw⟩ : ∃ w : State, w = r.1.modCxx x fun c => { c with saves := r.2 } := ⟨_, rfl⟩
      rw [← hw] at hx
      obtain ⟨z, hz⟩ : ∃ z : State, z = ({ w with ctx := { w.ctx with savesDone := w.ctx.savesDone + 1 } } : State).modCx x
        fun c => { c with saves := 2 * r.2.length } := ⟨_, rfl⟩
      rw [← hz] at hx
      have hzft : z.ft = s.ft := by
        have : z.ft = r.1.ft := by rw [hz, hw]; rfl
        exact this.trans (hrft.trans hvft)
      have hzcxx : (z.cxx x).saveReply = none := by
        have hzw : z.cxx x = w.cxx x := by rw [hz, State.cxx_modCx]; rfl
        rw [hzw, hw, State.cxx_modCxx, if_pos rfl, State.cxx_of_ctx hrctx, hvcxx]
        exact hureply
      refine runs_of_exec hx ⟨?_, .ok, _, ?_, fun _ => ⟨?_, r.2.length, rfl⟩, fun h => absurd rfl h⟩
      · rw [State.cxx_reply, State.cxx_setCtx, hzcxx]
      · rw [State.out_reply_ok, List.head?_cons, answer_of_now (State.now_of_ft ((State.setCtx_ft ..).trans hzft))]
      · rw [State.cx_reply, State.cx_setCtx]

end

/-- Settles O49: contexts are created, ended, halted and saved with the entries, slots, tiles and Mules the rules say. -/
theorem contextsAreCreatedAndEnd : Obligations.ContextsAreCreatedAndEnd := by
  unfold Obligations.ContextsAreCreatedAndEnd
  intro src x s hhd
  refine ⟨fun want flags mask l1 hport hwant hflags hmask hl1 hhbm hpick hdies =>
      runs_ctxCreate hhd hport hwant hflags hmask hl1 hhbm hpick hdies,
    fun ho hlive => runs_ctxDestroy ho hhd hlive, fun ho hst => runs_ctxReset_open ho hhd hst,
    fun ho hlive hst => runs_ctxReset ho hhd hlive hst, fun ho => runs_ctxStatus ho hhd,
    fun _ hport hfirst => runs_ctxList hport hhd hfirst, fun ha hnamed hst => runs_ctxAdopt ha hhd hnamed hst,
    fun ho hst hsched => runs_ctxHalt ho hhd hst hsched, fun ho hnone hcoll hst => runs_ctxSave ho hhd hnone hcoll hst,
    fun hsrc hout => runs_ctxSaveComplete hsrc hout⟩

end Sys2Proof.Machine

namespace Sys2Proof.Machine

/-! What a fault of a Mule leaves of the translation unit and of the copies under way (R76, R213). -/

/-- The translation units stand as they were, and each DMA engine is in the state it was in. -/
structure State.SamePaths (s t : State) : Prop where
  tr : ∀ k, (t.cd k).tr = (s.cd k).tr
  eng : ∀ k e, (t.eng k e).st = (s.eng k e).st

namespace State.SamePaths

variable {s t u : State}

theorem refl (s : State) : s.SamePaths s := ⟨fun _ => rfl, fun _ _ => rfl⟩

theorem trans (h : s.SamePaths t) (h' : t.SamePaths u) : s.SamePaths u :=
  ⟨fun k => (h'.tr k).trans (h.tr k), fun k e => (h'.eng k e).trans (h.eng k e)⟩

theorem of_cds (h : t.cds = s.cds) : s.SamePaths t :=
  ⟨fun k => by rw [cd_of_cds h], fun k e => by rw [State.eng, cd_of_cds h, ← State.eng]⟩

theorem modCd (d : Nat) (f : ComputeDie → ComputeDie) (htr : ∀ c, (f c).tr = c.tr)
    (heng : ∀ c e, (Tab.get {} (f c).dma.engines e : DmaEng).st = (Tab.get {} c.dma.engines e : DmaEng).st) : s.SamePaths (s.modCd d f) := by
  refine ⟨fun k => ?_, fun k e => ?_⟩
  · rw [cd_modCd]
    split
    case isTrue h => rw [h, htr]
    case isFalse => rfl
  · unfold State.eng
    rw [cd_modCd]
    split
    case isTrue h => rw [h, heng]
    case isFalse => rfl

theorem modTile (d p : Nat) (f : Tile → Tile) : s.SamePaths (s.modTile d p f) := by
  unfold State.modTile
  refine modCd d _ ?_ ?_
  · exact fun _ => rfl
  · exact fun _ _ => rfl

theorem modMule (d p : Nat) (f : Mule → Mule) : s.SamePaths (s.modMule d p f) := modTile d p _

theorem modEng (d e : Nat) (f : DmaEng → DmaEng) (hf : ∀ x, (f x).st = x.st) : s.SamePaths (s.modEng d e f) := by
  unfold State.modEng
  refine modCd d _ ?_ ?_
  · exact fun _ => rfl
  · intro c k
    dsimp only
    rw [tab_get_modify]
    split
    case isTrue h => rw [hf, h]
    case isFalse => rfl

theorem markUnit (d kind index : Nat) (off drain : Bool) : s.SamePaths (s.markUnit d kind index off drain) := by
  unfold State.markUnit
  dsimp only
  split
  · exact modTile d index _
  · exact modTile d index _
  · refine modCd d _ ?_ ?_
    · exact fun _ => rfl
    · exact fun _ _ => rfl
  · refine modEng d index _ ?_
    exact fun _ => rfl
  · split
    · exact modTile d index _
    · refine SamePaths.trans ?_ (modTile d index _)
      refine SamePaths.trans ?_ (modTile d index _)
      exact modTile d index _

theorem settle (s : State) : s.SamePaths s.settle := by
  refine State.foldl_only (R := SamePaths) refl (fun _ _ _ => trans) (fun s q => ?_) s.dis s
  split
  · have hdis : s.SamePaths { s with dis := s.dis.filter fun o => o ≠ q } := of_cds rfl
    exact (hdis.trans (markUnit ..)).trans (of_cds (reply_cds ..))
  · exact refl s

theorem launchEnd (x : Nat) : s.SamePaths (s.launchEnd x) := by
  refine SamePaths.trans (of_cds ?_) (settle _)
  split <;> split <;> simp

theorem haltLaunch (x : Nat) (code : Err) : s.SamePaths (s.haltLaunch x code) := by
  have hcd (k : Nat) : (s.haltLaunch x code).cd k = { s.cd k with tiles := ((s.haltLaunch x code).cd k).tiles } := by
    rw [State.haltLaunch, remapTiles, cd, tab_get_remap _ _ _ _ (by rfl)]
    rfl
  exact ⟨fun k => by rw [hcd], fun k e => by unfold State.eng; rw [hcd]⟩

theorem endPeriod (r : Nat) (code : Err) (die unit slot : Nat) (missed : Int) (node : Option Nat) (sev : Nat) :
    s.SamePaths (s.endPeriod r code die unit slot missed node sev) := by
  unfold State.endPeriod
  dsimp only
  split
  · refine SamePaths.trans ?_ (launchEnd _)
    refine (haltLaunch (s := s) (s.lrec r).ctx code).trans (of_cds ?_)
    rw [setCtx_cds, raise_cds, foldl_keeps State.cds]
    · rfl
    · intro t e
      split
      · exact abortBinding_cds ..
      · rfl
  · split
    · exact of_cds (raise_cds ..)
    · exact refl s

theorem muleFault (d p : Nat) (code : Err) (source unit tag lrc : Nat) : s.SamePaths (s.muleFault d p code source unit tag lrc) := by
  have hhalt : s.SamePaths (s.modMule d p fun m => m.halt code source unit tag lrc) := modMule d p _
  unfold State.muleFault
  dsimp only
  split
  · generalize s.modMule d p (fun m => m.halt code source unit tag lrc) = u at hhalt ⊢
    split
    · exact hhalt
    next x _ =>
      split
      · exact hhalt.trans (endPeriod ..)
      · have hlaunch := hhalt.trans (haltLaunch x code)
        split
        · exact (hlaunch.trans (of_cds (setCtx_cds ..))).trans (launchEnd _)
        · exact hlaunch.trans (of_cds rfl)
  · exact refl s

theorem unitFault (d i : Nat) (code : Err) (unit tag lrc : Nat) : s.SamePaths (s.unitFault d i code unit tag lrc) :=
  (muleFault ..).trans (settle _)

end State.SamePaths

/-- A copy that fails ends its engine (R218). -/
theorem State.dmaFail_spec (s : State) (d e : Nat) (code : Err) (resume : Nat) : ((s.dmaFail d e code resume).eng d e).st = 3 ∧
    ∀ k, ((s.dmaFail d e code resume).cd k).tr = (s.cd k).tr := by
  unfold dmaFail
  dsimp only
  generalize (Tab.get {} (s.cd d).dma.engines e : DmaEng).cur = q
  obtain ⟨u, hu⟩ : ∃ u, u = s.modEng d e fun x => { x with st := 3, code := code, resume := resume } := ⟨_, rfl⟩
  have hst : (u.eng d e).st = 3 := by
    rw [hu, eng, DmaEng.modEng]
  have htr (k : Nat) : (u.cd k).tr = (s.cd k).tr := by
    rw [hu, modEng, cd_modCd]
    split
    case isTrue h => rw [h]
    case isFalse => rfl
  rw [← hu]
  have hpaths : u.SamePaths ((u.setLoadBusy d q.ltile).unitFault d q.ltile code 3 q.tag q.lrc) :=
    SamePaths.trans (SamePaths.modMule ..) (SamePaths.unitFault ..)
  exact ⟨(hpaths.eng d e).trans hst, fun k => (hpaths.tr k).trans (htr k)⟩

section
variable {s : State} {src : Src} {x : Nat}

/-- MEM_PF_RESOLVE of a fault a copy alone waits for (R213). -/
theorem runs_memPfResolve {die id action : Nat} {f : FaultRec} {w : Requester} (hhd : s.svc.hdIn = true)
    (hport : s.portAdmits src 0x0401 = true) (hdie : die < 16) (hin : s.dieIn die = true) (haction : action < 2)
    (hf : (s.cd die).tr.record? id = some f) (howner : (s.cx f.ctx).owner = src.ctrl.val) (hall : f.all = [w]) (hcall : w.call = none)
    (hkind : w.kind = 0) (hst : (Tab.get {} (s.cd die).dma.engines w.no : DmaEng).st = 2) (hover : (s.cd die).tr.overflow = []) :
    Runs (.memPfResolve src die action id) s fun t => RepliedLast s t src 0x0401 [] ∧ (t.cd die).tr.record? id = none ∧
        ((Tab.get {} (t.cd die).dma.engines w.no : DmaEng).st = if action = 0 then 1 else 3) ∧
        (action = 0 → OnlyReply { s with cds := t.cds } t) := by
  have hx : exec (.memPfResolve src die action id) s = execMemPfResolve src die action id s := rfl
  unfold execMemPfResolve at hx
  dsimp only at hx
  rw [hf] at hx
  rw [State.command_runs hport rfl rfl] at hx
  rotate_left
  · refine firstErr_none fun c hc => ?_
    simp only [List.mem_cons, List.not_mem_nil, or_false] at hc
    rcases hc with rfl | rfl | rfl
    · simp [hhd, hin]
      omega
    · simp [howner]
    · simp
      omega
  obtain ⟨u, hu⟩ : ∃ u, u = s.modCd die fun c => { c with
      tr := Trans.headed { c.tr with faults := c.tr.faults.filter fun g => g.id ≠ id } } := ⟨_, rfl⟩
  have hhead (t : Trans) : t.headed.faults = t.faults ∧ t.headed.overflow = t.overflow := by
    unfold Trans.headed
    split <;> exact ⟨rfl, rfl⟩
  have hutr : (u.cd die).tr = Trans.headed { (s.cd die).tr with faults := (s.cd die).tr.faults.filter fun g => g.id ≠ id } := by
    rw [hu, State.cd_modCd, if_pos rfl]
  have hurec : (u.cd die).tr.record? id = none := by
    rw [hutr, Trans.record?, (hhead _).1, List.find?_eq_none]
    intro g hg
    simpa using (List.mem_filter.mp hg).2
  have huover : (u.cd die).tr.overflow = [] := by rw [hutr, (hhead _).2, hover]
  have hueng : (Tab.get {} (u.cd die).dma.engines w.no : DmaEng) = Tab.get {} (s.cd die).dma.engines w.no := by
    rw [hu, State.cd_modCd, if_pos rfl]
  have hres : s.pfResolve die id (action == 1) = (u.unpark die (action == 1) w).refillFaults die := by
    unfold State.pfResolve
    rw [hf]
    dsimp only
    rw [hall, ← hu]
    rfl
  have hpark : u.unpark die (action == 1) w = if action = 1 then u.dmaFail die w.no .pagefault (Tab.get {} (s.cd die).dma.engines w.no : DmaEng).resume
      else u.modEng die w.no fun x => { x with st := 1, faultVa := 0 } := by
    unfold State.unpark
    rw [hcall]
    dsimp only
    rw [if_pos hkind, hueng, if_neg (by simp [hst])]
    by_cases ha : action = 1
    · rw [if_pos ha, if_pos (by simpa using ha)]
    · rw [if_neg ha, if_neg (by simpa using ha)]
  have hrefill (v : State) (h : (v.cd die).tr = (u.cd die).tr) : v.refillFaults die = v := by
    unfold State.refillFaults
    rw [h, huover]
  have ha01 : action = 0 ∨ action = 1 := by omega
  rcases ha01 with rfl | rfl
  · rw [if_neg (by decide)] at hpark
    have htr : ((u.modEng die w.no fun x => { x with st := 1, faultVa := 0 }).cd die).tr = (u.cd die).tr := by
      rw [State.modEng, State.cd_modCd, if_pos rfl]
    rw [hpark, hrefill _ htr] at hres
    rw [hres] at hx
    refine runs_of_exec hx ⟨RepliedLast.of_reply (by rw [hu]; rfl) .., ?_, ?_, fun _ => ?_⟩
    · rw [State.cd_of_cds (State.reply_cds ..), htr, hurec]
    · rw [State.cd_of_cds (State.reply_cds ..), DmaEng.modEng, if_pos rfl]
    · have honly := State.reply_only (u.modEng die w.no fun x => { x with st := 1, faultVa := 0 }) src 0x0401 .ok []
      rw [OnlyReply, State.reply_cds]
      rw [honly, hu]
      rfl
  · rw [if_pos rfl] at hpark
    obtain ⟨hst3, htr⟩ := u.dmaFail_spec die w.no .pagefault (Tab.get {} (s.cd die).dma.engines w.no : DmaEng).resume
    have hft : (u.dmaFail die w.no .pagefault (Tab.get {} (s.cd die).dma.engines w.no : DmaEng).resume).ft = s.ft := by
      unfold State.dmaFail
      refine (State.ft_of_outer (State.outer_unitFault ..)).trans ?_
      rw [hu]
      rfl
    rw [hpark, hrefill _ (htr die)] at hres
    rw [hres] at hx
    generalize u.dmaFail die w.no .pagefault (Tab.get {} (s.cd die).dma.engines w.no : DmaEng).resume = v at hx hst3 htr hft
    refine runs_of_exec hx ⟨RepliedLast.of_reply (State.now_of_ft hft) .., ?_, ?_, nofun⟩
    · rw [State.cd_of_cds (State.reply_cds ..), htr, hurec]
    · rw [State.cd_of_cds (State.reply_cds ..), if_neg (by decide)]
      exact hst3

end

end Sys2Proof.Machine

namespace Sys2Proof.Machine

/-! The memory commands (R206, R209, R211, R226, R227). -/

/-- A step on each die of a list of different dies changes each of them once. -/
theorem State.foldl_modCd {f : ComputeDie → ComputeDie} (l : List Nat) (hl : l.Nodup) (s : State) (d : Nat) :
    (l.foldl (fun s d => s.modCd d f) s).cd d = if d ∈ l then f (s.cd d) else s.cd d := by
  induction l generalizing s with
  | nil => rw [if_neg List.not_mem_nil]; rfl
  | cons a l ih =>
    obtain ⟨ha, hl⟩ := List.nodup_cons.mp hl
    rw [List.foldl_cons, ih hl, cd_modCd]
    by_cases hd : d = a
    · subst hd
      rw [if_neg ha, if_pos rfl, if_pos List.mem_cons_self]
    · simp only [List.mem_cons, hd, false_or, if_false]

theorem State.foldl_modCd_only {f : ComputeDie → ComputeDie} (l : List Nat) (s : State) :
    l.foldl (fun s d => s.modCd d f) s = { s with cds := (l.foldl (fun s d => s.modCd d f) s).cds } := by
  induction l generalizing s with
  | nil => rfl
  | cons a l ih =>
    rw [List.foldl_cons, ih]
    rfl

section
variable {s : State} {src : Src} {x : Nat} (hhd : s.svc.hdIn = true)
include hhd

theorem runs_tlbFlush {mask all va pages : Nat} (ho : Owner s src 0x0402 x) (hva : va % 65536 = 0) (hmask : mask &&& (s.cx x).mask = mask)
    (hdies : ∀ d ∈ diesOf mask, s.dieIn d = true) (hsome : pages ≠ 0 ∨ all ≠ 0) :
    Runs (.tlbFlush src x mask all va pages) s fun t => Replied s t src 0x0402 [] ∧
        ∀ d, (d ∉ diesOf mask → t.cd d = s.cd d) ∧ ∀ i, d ∈ diesOf mask → (s.cd d).tr.slotOf x = some i →
          (t.cd d).tr.invDone = true ∧ (∀ j, j ≠ i → Tab.get [] (t.cd d).tr.tlb j = Tab.get [] (s.cd d).tr.tlb j) ∧
          ∀ e ∈ Tab.get [] (t.cd d).tr.tlb i, all = 0 ∧ (va + pages * 65536 ≤ e.va ∨ e.va + e.size ≤ va) := by
  have hx : exec (.tlbFlush src x mask all va pages) s = execTlbFlush src x mask all va pages s := rfl
  unfold execTlbFlush at hx
  rw [ho.ownCommand_runs hhd] at hx
  rotate_left
  · refine firstErr_none fun c hc => ?_
    simp only [List.mem_cons, List.not_mem_nil, or_false] at hc
    rcases hc with rfl | rfl | rfl | rfl
    · simp [hva]
    · simp [hmask]
    · simpa using hdies
    · simp only [decide_eq_false_iff_not]
      omega
  dsimp only at hx
  obtain ⟨f, hf⟩ : ∃ f : ComputeDie → ComputeDie, f = fun c =>
      match c.tr.slotOf x with
      | none => c
      | some i =>
        let t := { c.tr with invSlot := i, invAll := decide (all ≠ 0), invBase := va, invLen := pages }
        { c with tr := { (t.inval i (decide (all ≠ 0)) va pages) with invDone := true } } := ⟨_, rfl⟩
  obtain ⟨u, hu⟩ : ∃ u, u = (diesOf mask).foldl (fun s d => s.modCd d f) s := ⟨_, rfl⟩
  have hx' : exec (.tlbFlush src x mask all va pages) s = .next (u.reply src 0x0402 .ok []) := by
    rw [hu, hf]
    exact hx
  have hucd (d : Nat) : u.cd d = if d ∈ diesOf mask then f (s.cd d) else s.cd d := by
    rw [hu, State.foldl_modCd _ (diesOf_nodup mask)]
  have huonly : u = { s with cds := u.cds } := by
    rw [hu]
    exact State.foldl_modCd_only ..
  refine runs_of_exec hx' ⟨?_, fun d => ⟨fun hd => ?_, fun i hd hi => ?_⟩⟩
  · exact Replied.of_reply (by rw [huonly]; rfl) (by rw [huonly]) ..
  · rw [State.cd_of_cds (State.reply_cds ..), hucd, if_neg hd]
  · rw [State.cd_of_cds (State.reply_cds ..), hucd, if_pos hd, hf]
    dsimp only
    rw [hi]
    dsimp only
    unfold Trans.inval
    dsimp only
    refine ⟨rfl, fun j hj => ?_, fun e he => ?_⟩
    · rw [tab_get_modify, if_neg hj]
    · rw [tab_get_modify, if_pos rfl] at he
      have := (List.mem_filter.mp he).2
      simp only [Bool.not_or, Bool.and_eq_true, Bool.not_eq_true', decide_eq_false_iff_not] at this
      omega

theorem runs_exportSet {die entry : Nat} {data : List Byte} (ha : Admin s src 0x0403) (hdie : die < 16) (hin : s.dieIn die = true)
    (hentry : entry < 8) (hfits : (exportOf data).base + (exportOf data).len2m * 2 ^ 21 ≤ 0x1800000000)
    (halign : (exportOf data).base % 2 ^ 21 = 0) (hpeers : fld data 12 1 < 16) (haccess : fld data 13 1 < 2) (hzero : zeroAt data 14 2 = true) :
    Runs (.exportSet src die entry data) s fun t => Replied s t src 0x0403 [] ∧
        t.cd die = { s.cd die with hbm := { (s.cd die).hbm with exports := (t.cd die).hbm.exports } } ∧
        ∀ j, (Tab.get {} (t.cd die).hbm.exports j : Export) = if j = entry then exportOf data else Tab.get {} (s.cd die).hbm.exports j := by
  have hx : exec (.exportSet src die entry data) s = execExportSet src die entry data s := rfl
  unfold execExportSet at hx
  dsimp only at hx
  rw [State.command_runs ha.port ha.admin rfl] at hx
  rotate_left
  · refine firstErr_none fun c hc => ?_
    simp only [List.mem_cons, List.not_mem_nil, or_false] at hc
    rcases hc with rfl | rfl | rfl
    · simp [hhd, hin]
      omega
    · simpa using halign
    · simp [hzero]
      omega
  have hcd : (State.modCd s die fun c => { c with hbm := { c.hbm with exports := Tab.set {} c.hbm.exports entry (exportOf data) } }).cd die =
      { s.cd die with hbm := { (s.cd die).hbm with exports := Tab.set {} (s.cd die).hbm.exports entry (exportOf data) } } := by
    rw [State.cd_modCd, if_pos rfl]
  refine runs_of_exec hx ⟨Replied.of_reply rfl rfl .., ?_, fun j => ?_⟩
  · rw [State.cd_of_cds (State.reply_cds ..), hcd]
  · rw [State.cd_of_cds (State.reply_cds ..), hcd]
    dsimp only
    rw [tab_get_set]

theorem runs_poolSet {die region : Nat} {counts : List Nat} {quotas : List (Nat × Nat)} {a : Bp} (ha : Admin s src 0x0404) (hdie : die < 16)
    (hin : s.dieIn die = true) (happly : ((s.cd die).bp.config region counts quotas).apply = .ok a) :
    Runs (.poolSet src die region counts quotas) s fun t =>
        Replied s t src 0x0404 [] ∧ t.cd die = { s.cd die with bp := a } ∧ ∀ d, d ≠ die → t.cd d = s.cd d := by
  have hx : exec (.poolSet src die region counts quotas) s = execPoolSet src die region counts quotas s := rfl
  unfold execPoolSet at hx
  dsimp only at hx
  have herr : ((s.cd die).bp.config region counts quotas).applyErr = .ok := by rw [Bp.applyErr, happly]
  rw [happly, herr, State.command_runs ha.port ha.admin rfl (by simp [firstErr, hhd, hin]; omega)] at hx
  refine runs_of_exec hx ⟨Replied.of_reply rfl rfl .., ?_, fun d hd => ?_⟩
  · rw [State.cd_of_cds (State.reply_cds ..), State.cd_modCd, if_pos rfl]
  · rw [State.cd_of_cds (State.reply_cds ..), State.cd_modCd, if_neg hd]

theorem runs_memModeSet {mask mode : Nat} (ho : Owner s src 0x0405 x) (hmode : mode < 2) (hmask : mask &&& (s.cx x).mask = mask)
    (hdies : ∀ d ∈ diesOf mask, s.dieIn d = true) (hst : (s.cx x).st ≠ .running) (hsched : mode = 0 → (s.cx x).scheduled = false)
    (hfree : ∀ d ∈ diesOf mask, s.slotBusy d x = false) :
    Runs (.memModeSet src x mask mode) s fun t => Replied s t src 0x0405 [] ∧ ∀ d i, d ∈ diesOf mask →
        let b : TSlot := Tab.get {} (s.cd d).tr.slots i
        (Tab.get {} (t.cd d).tr.slots i : TSlot) = if b.bound = true ∧ b.ctx = x then { b with fail := mode == 1 } else b := by
  have hx : exec (.memModeSet src x mask mode) s = execMemModeSet src x mask mode s := rfl
  unfold execMemModeSet at hx
  rw [ho.ownCommand_runs hhd] at hx
  rotate_left
  · refine firstErr_none fun c hc => ?_
    simp only [List.mem_cons, List.not_mem_nil, or_false] at hc
    rcases hc with rfl | rfl | rfl | rfl | rfl | rfl
    · simp only [decide_eq_false_iff_not]
      omega
    · simp [hmask]
    · simpa using hdies
    · simp [hst]
    · by_cases h0 : mode = 0
      · simp [hsched h0]
      · simp [h0]
    · simpa using hfree
  unfold State.slotMode at hx
  refine runs_of_exec hx ⟨?_, fun d i hd => ?_⟩
  · refine Replied.of_reply ?_ ?_ ..
    · rw [State.foldl_modCd_only]
      rfl
    · rw [State.foldl_modCd_only]
  · rw [State.cd_of_cds (State.reply_cds ..), State.foldl_modCd _ (diesOf_nodup mask), if_pos hd]
    dsimp only
    rw [tab_get_remap _ _ _ _ (by
      split
      case isTrue h => exact absurd h.1 (by decide)
      case isFalse => rfl)]

theorem runs_poolStatus {die : Nat} (hport : s.portAdmits src 0x0406 = true) (hdie : die < 16) (hin : s.dieIn die = true) :
    Runs (.poolStatus src die) s fun t => OnlyReply s t ∧ Replied s t src 0x0406 (leBytes 8 (s.cd die).bp.statusWord ++
      (List.range 6).flatMap (fun p => leBytes 8 ((s.cd die).bp.pool p).freeWord) ++ (s.cd die).bp.quotaBytes) := by
  have hx : exec (.poolStatus src die) s = execPoolStatus src die s := rfl
  unfold execPoolStatus at hx
  rw [State.command_runs hport rfl rfl (by simp [firstErr, hhd, hin]; omega)] at hx
  exact runs_of_exec hx ⟨OnlyReply.of_reply .., Replied.of_reply rfl rfl ..⟩

end

end Sys2Proof.Machine

namespace Sys2Proof.Machine

/-! PROG_LOAD (R69 to R72, R414). -/

theorem firstErr_append {a b : List (Bool × Err)} (h : firstErr a = none) : firstErr (a ++ b) = firstErr b := by
  induction a with
  | nil => rfl
  | cons c a ih =>
    obtain ⟨e, c⟩ := c
    rw [firstErr] at h
    split at h
    · cases h
    case isFalse hc => rw [List.cons_append, firstErr, if_neg hc, ih h]

/-- A tile as a program leaves it (R70, R72): the loaded bank is the one not active. -/
theorem Tile.progLoad_spec (t : Tile) (x i : Nat) (imem dmem : List Byte) :
    let u := t.progLoad x i imem dmem
    u.mule.st = .idle ∧ u.mule.logical = some i ∧ u.mem.ctx = some x ∧ u.mule.bank = t.mule.bank ∧ u.mem.dmem = Mem.writeN [] 0 dmem ∧
      (if t.mule.bank then u.mem.bank0 else u.mem.bank1) = Mem.writeN [] 0 imem ∧
      (if t.mule.bank then u.mem.bank1 else u.mem.bank0) = (if t.mule.bank then t.mem.bank1 else t.mem.bank0) := by
  intro u
  obtain ⟨v, hv⟩ : ∃ v, v = (if t.mem.ctx = some x then t else
    { t with mule := { t.mule with lrCount := 0, instret := 0, tags := 0, stack := [], arm := none, switchReq := false, brkPending := false },
             mem := { t.mem with streams := [] } }) := ⟨_, rfl⟩
  have hbank : v.mule.bank = t.mule.bank ∧ v.mem.bank0 = t.mem.bank0 ∧ v.mem.bank1 = t.mem.bank1 := by
    rw [hv]
    split <;> exact ⟨rfl, rfl, rfl⟩
  obtain ⟨hb, h0, h1⟩ := hbank
  generalize hw : Mem.writeN [] 0 imem = code
  have hu : u = { v.modB (fun _ => code) with
      mule := { (v.modB fun _ => code).mule with st := .idle, logical := some i },
      mem := { (v.modB fun _ => code).mem with ctx := some x, dmem := Mem.writeN [] 0 dmem, wait := .none } } := by
    rw [hv, ← hw]
    rfl
  rw [hu]
  unfold modB
  rw [hb]
  cases hbk : t.mule.bank
  · refine ⟨rfl, rfl, rfl, hb.trans hbk, rfl, rfl, h0⟩
  · refine ⟨rfl, rfl, rfl, hb.trans hbk, rfl, rfl, h1⟩

section
variable {x : Nat} {i : PImage}

theorem State.progTile_only (s : State) (d t : Nat) : (s.progTile x i d t).ft = s.ft ∧ (s.progTile x i d t).ctx = s.ctx ∧
    (∀ k, ((s.progTile x i d t).cd k).map = (s.cd k).map) ∧ ∀ k p, (s.progTile x i d t).tile k p =
      if k = d ∧ p = (s.cd d).map.phys t then (s.tile d ((s.cd d).map.phys t)).progLoad x t
        ((i.bytes.drop (i.entry t).imem).take (i.entry t).imemLen) ((i.bytes.drop (i.entry t).dmem).take (i.entry t).dmemLen)
      else s.tile k p := by
  refine ⟨rfl, rfl, fun k => ?_, fun k p => ?_⟩
  · unfold progTile
    dsimp only
    rw [cd_modCd]
    split
    case isTrue h => rw [h]; exact map_modTile ..
    case isFalse => exact map_modTile ..
  · unfold progTile
    dsimp only
    refine (tile_modCd d ?_ ..).trans (tile_modTile ..)
    exact fun _ => rfl

/-- Tiles that are not loaded keep what they hold. -/
theorem State.progTiles_other (l : List (Nat × Nat)) (s : State) {d p : Nat} (h : ∀ u, (d, u) ∈ l → p ≠ (s.cd d).map.phys u) :
    (l.foldl (fun s t => s.progTile x i t.1 t.2) s).tile d p = s.tile d p := by
  induction l generalizing s with
  | nil => rfl
  | cons a l ih =>
    obtain ⟨-, -, hmap, htile⟩ := s.progTile_only (x := x) (i := i) a.1 a.2
    rw [List.foldl_cons, ih _ fun u hu => by rw [hmap]; exact h u (List.mem_cons_of_mem _ hu), htile, if_neg]
    rintro ⟨rfl, hp⟩
    exact h a.2 List.mem_cons_self hp

/-- A logical tile whose physical tile no other one has is loaded once (R70). -/
theorem State.progTiles_tile (l : List (Nat × Nat)) (hl : l.Nodup) (s : State) {d j : Nat} (hj : (d, j) ∈ l)
    (hone : ∀ u, (d, u) ∈ l → (s.cd d).map.phys u = (s.cd d).map.phys j → u = j) :
    (l.foldl (fun s t => s.progTile x i t.1 t.2) s).tile d ((s.cd d).map.phys j) = (s.tile d ((s.cd d).map.phys j)).progLoad x j
        ((i.bytes.drop (i.entry j).imem).take (i.entry j).imemLen) ((i.bytes.drop (i.entry j).dmem).take (i.entry j).dmemLen) := by
  induction l generalizing s with
  | nil => exact absurd hj List.not_mem_nil
  | cons a l ih =>
    obtain ⟨ha, hl⟩ := List.nodup_cons.mp hl
    obtain ⟨-, -, hmap, htile⟩ := s.progTile_only (x := x) (i := i) a.1 a.2
    rw [List.foldl_cons]
    by_cases haj : a = (d, j)
    · subst haj
      rw [progTiles_other, htile, if_pos ⟨rfl, rfl⟩]
      intro u hu hp
      rw [hmap] at hp
      rw [hone u (List.mem_cons_of_mem _ hu) hp.symm] at hu
      exact ha hu
    · have hmem : (d, j) ∈ l := (List.mem_cons.mp hj).resolve_left fun h => haj h.symm
      have hkeep := ih hl (s.progTile x i a.1 a.2) hmem fun u hu hp => by
        rw [hmap] at hp
        exact hone u (List.mem_cons_of_mem _ hu) hp
      rw [hmap] at hkeep
      rw [hkeep, htile, if_neg]
      obtain ⟨a₁, a₂⟩ := a
      dsimp only
      rintro ⟨hd, hp⟩
      subst hd
      exact haj (by rw [hone a₂ List.mem_cons_self hp.symm])

theorem State.progTiles_only (l : List (Nat × Nat)) (s : State) : (l.foldl (fun s t => s.progTile x i t.1 t.2) s).ft = s.ft ∧
    (l.foldl (fun s t => s.progTile x i t.1 t.2) s).ctx = s.ctx := by
  induction l generalizing s with
  | nil => exact ⟨rfl, rfl⟩
  | cons a l ih =>
    obtain ⟨hft, hctx, -, -⟩ := s.progTile_only (x := x) (i := i) a.1 a.2
    rw [List.foldl_cons]
    exact ⟨(ih _).1.trans hft, (ih _).2.trans hctx⟩

end

/-- The logical tiles of an image on the dies of a mask. -/
def tilesOn (mask n : Nat) : List (Nat × Nat) := (diesOf mask).flatMap fun d => (List.range n).map fun t => (d, t)

theorem mem_tilesOn {mask n d j : Nat} : (d, j) ∈ tilesOn mask n ↔ d ∈ diesOf mask ∧ j < n := by
  simp [tilesOn]

theorem tilesOn_nodup (mask n : Nat) : (tilesOn mask n).Nodup := by
  rw [tilesOn, List.nodup_flatMap]
  refine ⟨fun d _ => List.Nodup.map (fun a b h => congrArg Prod.snd h) List.nodup_range, ?_⟩
  refine List.Pairwise.imp ?_ (diesOf_nodup mask)
  intro a b hab t ha hb
  obtain ⟨i, -, rfl⟩ := List.mem_map.mp ha
  obtain ⟨j, -, hj⟩ := List.mem_map.mp hb
  exact hab (congrArg Prod.fst hj).symm

theorem foldl_tilesOn {σ : Type} (step : σ → Nat → Nat → σ) (mask n : Nat) (s : σ) :
    (diesOf mask).foldl (fun s d => (List.range n).foldl (fun s t => step s d t) s) s =
      (tilesOn mask n).foldl (fun s t => step s t.1 t.2) s := by
  rw [tilesOn, List.foldl_flatMap]
  simp only [List.foldl_map]

theorem State.tile_slotMode (s : State) (x mask : Nat) (fail : Bool) (d p : Nat) : (s.slotMode x mask fail).tile d p = s.tile d p := by
  unfold slotMode
  generalize diesOf mask = l
  induction l generalizing s with
  | nil => rfl
  | cons k l ih =>
    rw [List.foldl_cons]
    refine (ih _).trans (tile_modCd k ?_ ..)
    exact fun _ => rfl

theorem State.tile_remapEach (s : State) {f : Nat → Nat → Tile → Tile} (hf : ∀ d p, f d p {} = {}) (d p : Nat) :
    (s.remapTiles f).tile d p = f d p (s.tile d p) := by
  simp only [remapTiles, tile, cd]
  rw [tab_get_remap _ _ _ _ (by rfl), tab_get_remap _ _ _ _ (hf d p)]

theorem State.map_remapTiles (s : State) (f : Nat → Nat → Tile → Tile) (d : Nat) : ((s.remapTiles f).cd d).map = (s.cd d).map := by
  rw [remapTiles, cd, tab_get_remap _ _ _ _ (by rfl)]
  rfl

/-- What PROG_LOAD puts into its context and its tiles (R70 to R72). -/
theorem State.progPut_spec (s : State) (x mask : Nat) (i : PImage) : (s.progPut x mask i).ft = s.ft ∧
    ((s.progPut x mask i).cx x).st = .loaded ∧ ((s.progPut x mask i).cx x).programId = fld i.bytes 0x18 8 ∧
    ((s.progPut x mask i).cx x).scheduled = bit i.flags 2 ∧ ((s.progPut x mask i).cx x).tiles = i.tiles ∧
    ∀ d j, d ∈ diesOf mask → j < i.tiles → (∀ u, u < i.tiles → (s.cd d).map.phys u = (s.cd d).map.phys j → u = j) →
      (s.progPut x mask i).tile d ((s.cd d).map.phys j) = (s.tile d ((s.cd d).map.phys j)).progLoad x j
        ((i.bytes.drop (i.entry j).imem).take (i.entry j).imemLen) ((i.bytes.drop (i.entry j).dmem).take (i.entry j).dmemLen) := by
  unfold progPut
  extract_lets used u v w y
  have hft : y.ft = s.ft := by
    have hv : v = (tilesOn mask i.tiles).foldl (fun s t => s.progTile x i t.1 t.2) u := foldl_tilesOn (fun s d t => State.progTile s x i d t) ..
    have hvft : v.ft = s.ft := by
      rw [hv, (progTiles_only ..).1]
      rfl
    exact (v.slotMode_keeps x (v.cx x).mask (bit i.flags 2)).ft.trans hvft
  have htile (d j : Nat) (hd : d ∈ diesOf mask) (hj : j < i.tiles)
      (hone : ∀ u, u < i.tiles → (s.cd d).map.phys u = (s.cd d).map.phys j → u = j) :
      y.tile d ((s.cd d).map.phys j) = (s.tile d ((s.cd d).map.phys j)).progLoad x j
        ((i.bytes.drop (i.entry j).imem).take (i.entry j).imemLen) ((i.bytes.drop (i.entry j).dmem).take (i.entry j).dmemLen) := by
    have humap : (u.cd d).map = (s.cd d).map := map_remapTiles ..
    have hused : used d ((s.cd d).map.phys j) = true := by
      simp only [used, (mem_diesOf.mp hd).2, Bool.true_and, List.any_eq_true, List.mem_range, beq_iff_eq]
      exact ⟨j, hj, rfl⟩
    have hut : u.tile d ((s.cd d).map.phys j) = s.tile d ((s.cd d).map.phys j) := by
      unfold u
      rw [tile_remapEach]
      · rw [if_neg]
        rintro ⟨-, h⟩
        exact Bool.noConfusion (hused.symm.trans h)
      · intro d p
        rw [if_neg]
        exact fun h => nomatch h.1
    have hyv : y.tile d ((s.cd d).map.phys j) = v.tile d ((s.cd d).map.phys j) := tile_slotMode ..
    have hv : v = (tilesOn mask i.tiles).foldl (fun s t => s.progTile x i t.1 t.2) u := foldl_tilesOn (fun s d t => State.progTile s x i d t) ..
    rw [hyv, hv, ← humap, progTiles_tile _ (tilesOn_nodup ..) u (mem_tilesOn.mpr ⟨hd, hj⟩), humap, hut]
    intro k hk
    rw [humap]
    exact hone k (mem_tilesOn.mp hk).2
  clear_value y
  refine ⟨?_, ?_, ?_, ?_, ?_, fun d j hd hj hone => ?_⟩
  · rw [setCtx_ft]
    exact hft
  · rw [cx_setCtx_same]
  · rw [cx_setCtx_same, cx_modCx, if_pos rfl]
  · rw [cx_setCtx_same, cx_modCx, if_pos rfl]
  · rw [cx_setCtx_same, cx_modCx, if_pos rfl]
  · rw [tile_of_cds (setCtx_cds ..)]
    exact htile d j hd hj hone

end Sys2Proof.Machine

namespace Sys2Proof.Machine

/-! The commands PROG_LOAD and LAUNCH (R72, R409, R411, R414). -/

/-- PROG_LOAD puts an image that passes its checks into the tiles it names (R69 to R72). -/
theorem State.runs_progLoad {s : State} {src : Src} {x mask va len : Nat} {b : List Byte} (hhd : s.svc.hdIn = true)
    (ho : Owner s src 0x0501 x) (himg : s.readImage (lowestDie mask) x va len = (.ok, b)) (hq : s.health.quarantined = false)
    (hst : (s.cx x).st = .open_ ∨ (s.cx x).st = .loaded ∨ (s.cx x).st = .done) (hmask : firstErr (s.maskChecks x mask) = none)
    (hprog : firstErr (s.progChecks x mask { bytes := b }) = none) : Runs (.progLoad src x mask va len) s fun t =>
      RepliedLast s t src 0x0501 (leBytes 8 (fld b 0x18 8)) ∧ (t.cx x).st = .loaded ∧ (t.cx x).programId = fld b 0x18 8 ∧
      (t.cx x).scheduled = bit ({ bytes := b } : PImage).flags 2 ∧ (t.cx x).tiles = ({ bytes := b } : PImage).tiles ∧
      ∀ d j, d ∈ diesOf mask → j < ({ bytes := b } : PImage).tiles →
        (∀ u, u < ({ bytes := b } : PImage).tiles → (s.cd d).map.phys u = (s.cd d).map.phys j → u = j) →
        t.tile d ((s.cd d).map.phys j) = (s.tile d ((s.cd d).map.phys j)).progLoad x j
          ((b.drop (({ bytes := b } : PImage).entry j).imem).take (({ bytes := b } : PImage).entry j).imemLen)
          ((b.drop (({ bytes := b } : PImage).entry j).dmem).take (({ bytes := b } : PImage).entry j).dmemLen) := by
  have hchecks : firstErr ([(s.health.quarantined, Err.denied),
      (decide ((s.cx x).st ≠ .open_ ∧ (s.cx x).st ≠ .loaded ∧ (s.cx x).st ≠ .done), Err.seq)] ++ s.maskChecks x mask ++
      [(decide (Err.ok ≠ Err.ok), Err.ok)] ++ s.progChecks x mask { bytes := b }) = none := by
    rw [List.append_assoc, List.append_assoc, firstErr_append, firstErr_append hmask, firstErr_append, hprog]
    · rfl
    · refine firstErr_none fun c hc => ?_
      simp only [List.mem_cons, List.not_mem_nil, or_false] at hc
      rcases hc with rfl | rfl
      · exact hq
      · rcases hst with h | h | h <;> simp [h]
  have hx : exec (.progLoad src x mask va len) s = execProgLoad src x mask va len s := rfl
  unfold execProgLoad at hx
  dsimp only at hx
  rw [himg] at hx
  rw [ho.ownCommand_runs hhd hchecks] at hx
  obtain ⟨hft, hcst, hid, hsched, htiles, hput⟩ := s.progPut_spec x mask { bytes := b }
  refine runs_of_exec hx ⟨?_, ?_, ?_, ?_, ?_, fun d j hd hj hone => ?_⟩
  · refine RepliedLast.of_reply ?_ ..
    exact now_of_ft hft
  · rw [cx_reply, hcst]
  · rw [cx_reply, hid]
  · rw [cx_reply, hsched]
  · rw [cx_reply, htiles]
  · rw [tile_of_cds (reply_cds ..)]
    exact hput d j hd hj hone

/-- The array checks a launch sets up on its tiles (R126). -/
def State.armChecks (s : State) (l : List (Nat × Nat)) : State :=
  l.foldl (fun s t =>
    let p := (s.cd t.1).map.phys t.2
    let on := s.checkAt t.1 p
    s.modArr t.1 p fun a => { a with checkedLaunch := on, checkNext := on }) s

theorem State.armChecks_only (s : State) (l : List (Nat × Nat)) : s.armChecks l = { s with cds := (s.armChecks l).cds } :=
  State.foldl_only (R := fun s t : State => t = { s with cds := t.cds }) (fun _ => rfl)
    (fun s t u h h' => by rw [h', h]) (fun _ _ => rfl) l s

/-- The checks of an array change no Mule and no memory. -/
theorem State.armChecks_tiles (s : State) (l : List (Nat × Nat)) (d p : Nat) : ((s.armChecks l).cd d).map = (s.cd d).map ∧
    ((s.armChecks l).tile d p).mule = (s.tile d p).mule ∧ ((s.armChecks l).tile d p).mem = (s.tile d p).mem := by
  unfold armChecks
  induction l generalizing s with
  | nil => exact ⟨rfl, rfl, rfl⟩
  | cons a l ih =>
    rw [List.foldl_cons]
    obtain ⟨hmap, hmule, hmem⟩ := ih (s.modArr a.1 ((s.cd a.1).map.phys a.2) _)
    have htile : ∀ f : ArrayU → ArrayU, ((s.modArr a.1 ((s.cd a.1).map.phys a.2) f).tile d p).mule = (s.tile d p).mule ∧
        ((s.modArr a.1 ((s.cd a.1).map.phys a.2) f).tile d p).mem = (s.tile d p).mem := by
      intro f
      rw [modArr, tile_modTile]
      split
      case isTrue h => rw [h.1, h.2]; exact ⟨rfl, rfl⟩
      · exact ⟨rfl, rfl⟩
    exact ⟨hmap.trans (map_modTile ..), hmule.trans (htile _).1, hmem.trans (htile _).2⟩

/-- The state a LAUNCH leaves before its launch is armed or starts. -/
def State.launchSet (s : State) (x flags t0 : Nat) : State :=
  let sched := (s.cx x).scheduled
  let s := s.armChecks ((s.cxx x).prog.getD {}).uses
  let s := { s with health := { s.health with checking := s.suspect } }
  let s := s.modCx x fun c => { c with debug := bit flags 0, launches := c.launches + 1, recIdx := 0xFF }
  s.modCxx x fun c => { c with
    notify := bit flags 2, resume := bit flags 1, debug := bit flags 0, lastPeriod := none, t0 := if sched then none else some t0 }

theorem State.launchSet_spec (s : State) (x flags t0 : Nat) : (s.launchSet x flags t0).ft = s.ft ∧ (s.launchSet x flags t0).sq = s.sq ∧
    ((s.launchSet x flags t0).cx x).launches = (s.cx x).launches + 1 ∧
    ((s.launchSet x flags t0).cxx x).t0 = (if (s.cx x).scheduled then none else some t0) ∧
    ((s.launchSet x flags t0).cxx x).resume = bit flags 1 ∧ ((s.launchSet x flags t0).cxx x).prog = (s.cxx x).prog ∧
    ∀ d p, ((s.launchSet x flags t0).cd d).map = (s.cd d).map ∧
      ((s.launchSet x flags t0).tile d p).mule = (s.tile d p).mule ∧ ((s.launchSet x flags t0).tile d p).mem = (s.tile d p).mem := by
  unfold launchSet
  generalize ((s.cxx x).prog.getD {}).uses = l
  have htiles := s.armChecks_tiles l
  have honly := s.armChecks_only l
  dsimp only
  generalize s.armChecks l = u at htiles honly
  have hctx : u.ctx = s.ctx := by rw [honly]
  have hcx : u.cx x = s.cx x := cx_of_ctx hctx x
  have hcxx : u.cxx x = s.cxx x := cxx_of_ctx hctx x
  have hft : u.ft = s.ft := by rw [honly]
  have hsq : u.sq = s.sq := by rw [honly]
  refine ⟨hft, hsq, ?_, ?_, ?_, ?_, htiles⟩
  · rw [cx_modCxx, cx_modCx, if_pos rfl, ← hcx]
    rfl
  · rw [cxx_modCxx, if_pos rfl]
  · rw [cxx_modCxx, if_pos rfl]
  · rw [cxx_modCxx, if_pos rfl, ← hcxx]
    rfl

section
variable {s : State} {src : Src} {x flags t0 p0 : Nat} {g : Prog} (hhd : s.svc.hdIn = true) (ho : Owner s src 0x0502 x)
  (hprog : (s.cxx x).prog = some g) (hchecks : firstErr (s.launchChecks x flags t0 p0) = none) (hresume : bit flags 1 = false)
include hhd ho hchecks

/-- LAUNCH arms or starts what it has set up. -/
theorem State.exec_launch : exec (.launch src x flags t0 p0) s =
    .next ((if (s.cx x).scheduled then ((s.launchSet x flags t0).armRec ((s.recFor x).getD 0) x t0 p0 (bit flags 2)).setCtx x .armed
      else if (s.launchSet x flags t0).now < t0 then (s.launchSet x flags t0).setCtx x .armed
      else (s.launchSet x flags t0).startFree x).reply src 0x0502 .ok
        ([if (s.cx x).scheduled then BitVec.ofNat 8 ((s.recFor x).getD 0) else 0xFF] ++ leBytes 7 0)) := by
  have hx : exec (.launch src x flags t0 p0) s = execLaunch src x flags t0 p0 s := rfl
  unfold execLaunch at hx
  rw [ho.ownCommand_runs hhd hchecks] at hx
  exact hx

/-- LAUNCH of an unscheduled program before its T0 arms it. -/
theorem State.runs_launch_armed (hsched : (s.cx x).scheduled = false) (hlate : s.now < t0) : Runs (.launch src x flags t0 p0) s fun t =>
    RepliedLast s t src 0x0502 (0xFF :: leBytes 7 0) ∧
    (t.cx x).st = .armed ∧ (t.cxx x).t0 = some t0 ∧ (t.cx x).launches = (s.cx x).launches + 1 := by
  have hx := exec_launch hhd ho hchecks
  obtain ⟨hft, -, hlaunches, ht0, -⟩ := s.launchSet_spec x flags t0
  generalize s.launchSet x flags t0 = u at *
  have hnow : u.now = s.now := now_of_ft hft
  rw [hsched, if_neg Bool.false_ne_true, if_neg Bool.false_ne_true, if_pos (by rwa [hnow])] at hx
  rw [hsched, if_neg Bool.false_ne_true] at ht0
  refine runs_of_exec hx ⟨?_, ?_, ?_, ?_⟩
  · refine RepliedLast.of_reply ?_ ..
    exact now_of_ft ((setCtx_ft ..).trans hft)
  · rw [cx_reply, cx_setCtx_same]
  · rw [cxx_reply, cxx_setCtx, ht0]
  · rw [cx_reply, cx_setCtx_same, hlaunches]

include hprog hresume in
/-- LAUNCH of an unscheduled program at or after its T0 starts its tiles (R72, R414). -/
theorem State.runs_launch_started {d i : Nat} (hsched : (s.cx x).scheduled = false) (ht0 : t0 ≤ s.now) (huse : (d, i) ∈ g.uses)
    (hone : ∀ j, (d, j) ∈ g.uses → (s.cd d).map.phys j = (s.cd d).map.phys i → j = i)
    (hctx : (s.tile d ((s.cd d).map.phys i)).mem.ctx = some x) : Runs (.launch src x flags t0 p0) s fun t =>
      RepliedLast s t src 0x0502 (0xFF :: leBytes 7 0) ∧ (t.cx x).st = .running ∧
      (t.tile d ((s.cd d).map.phys i)).mule.st = .run ∧
      (t.tile d ((s.cd d).map.phys i)).mule.pc = BitVec.ofNat 64 (g.entry.getD i 0) ∧
      (t.tile d ((s.cd d).map.phys i)).mule.bank = !(s.tile d ((s.cd d).map.phys i)).mule.bank := by
  have hx := exec_launch hhd ho hchecks
  obtain ⟨hft, -, -, -, hres, hpr, htiles⟩ := s.launchSet_spec x flags t0
  generalize s.launchSet x flags t0 = u at *
  have hnow : u.now = s.now := now_of_ft hft
  obtain ⟨hmap, hmule, hmem⟩ := htiles d ((s.cd d).map.phys i)
  rw [hsched, if_neg Bool.false_ne_true, if_neg Bool.false_ne_true, if_neg (by rw [hnow]; omega)] at hx
  unfold startFree at hx
  obtain ⟨v, hv⟩ : ∃ v, v = (u.modCxx x fun c => { c with t0 := none }).setCtx x .running := ⟨_, rfl⟩
  rw [← hv] at hx
  have hvcxx : v.cxx x = { u.cxx x with t0 := none } := by
    rw [hv, cxx_setCtx, cxx_modCxx, if_pos rfl]
  have hvcds : v.cds = u.cds := by rw [hv, setCtx_cds, modCxx_cds]
  have hvft : v.ft = s.ft := by rw [hv, setCtx_ft, modCxx_ft, hft]
  have hvst : (v.cx x).st = .running := by rw [hv, cx_setCtx_same]
  clear hv
  have hvmap (k : Nat) : (v.cd k).map = (u.cd k).map := by rw [cd, hvcds, cd]
  have hstart : v.startTiles x = v.startEach (fun t k => k.start (g.entry.getD t.2 0) (bit g.flags 0) (v.cxx x).debug) g.uses := by
    refine startTiles_fresh ?_ ?_
    · rw [hvcxx]
      exact hres.trans hresume
    · rw [hvcxx]
      exact hpr.trans hprog
  have htile : (v.startTiles x).tile d ((s.cd d).map.phys i) =
      (u.tile d ((s.cd d).map.phys i)).start (g.entry.getD i 0) (bit g.flags 0) (v.cxx x).debug := by
    have h := tile_startEach (s := v) (fun t k => k.start (g.entry.getD t.2 0) (bit g.flags 0) (v.cxx x).debug) g.uses_nodup huse
      (by rwa [hvmap, hmap])
    rw [hvmap, hmap] at h
    rw [hstart, h, tile_of_cds hvcds]
  have honly := v.startEach_only (fun t k => k.start (g.entry.getD t.2 0) (bit g.flags 0) (v.cxx x).debug) g.uses
  rw [← hstart] at honly
  have hwft : (v.startTiles x).ft = v.ft := by rw [honly]
  have hwctx : (v.startTiles x).ctx = v.ctx := by rw [honly]
  clear honly hstart
  generalize v.startTiles x = w at *
  rw [checkDone_running (d := d) (p := (s.cd d).map.phys i) (by rw [htile]; exact (congrArg MuleMem.ctx hmem).trans hctx) (by rw [htile]; rfl)] at hx
  refine runs_of_exec hx ⟨?_, ?_, ?_⟩
  · refine RepliedLast.of_reply ?_ ..
    exact now_of_ft (hwft.trans hvft)
  · rw [cx_reply, cx_of_ctx hwctx, hvst]
  · rw [tile_of_cds (reply_cds ..), htile]
    exact ⟨rfl, rfl, congrArg (fun m : Mule => !m.bank) hmule⟩

/-- LAUNCH of a scheduled program arms its record (R350, R411). -/
theorem State.runs_launch_scheduled {r : Nat} (hsched : (s.cx x).scheduled = true) (hrec : s.recFor x = some r) :
    Runs (.launch src x flags t0 p0) s fun t =>
      RepliedLast s t src 0x0502 (BitVec.ofNat 8 r :: leBytes 7 0) ∧ (t.cx x).st = .armed ∧ (t.cx x).recIdx = r ∧
      (t.lrec r).st = .armed ∧ (t.lrec r).ctx = x ∧ (t.lrec r).t0 = t0 ∧ (t.lrec r).p0 = p0 ∧
      (t.lrec r).schedId = (Tab.get {} s.sq.scheds x : Sched).id ∧ (t.lrec r).last = (Tab.get {} s.sq.scheds x : Sched).pcount - 1 := by
  have hx := exec_launch hhd ho hchecks
  obtain ⟨hft, hsq, -⟩ := s.launchSet_spec x flags t0
  generalize s.launchSet x flags t0 = u at *
  rw [hsched, if_pos rfl, if_pos rfl, hrec, Option.getD_some] at hx
  obtain ⟨v, hv⟩ : ∃ v, v = u.armRec r x t0 p0 (bit flags 2) := ⟨_, rfl⟩
  have hvft : v.ft = u.ft := by rw [hv]; rfl
  have hvidx : (v.cx x).recIdx = r := by
    rw [hv, armRec, cx_modCx, if_pos rfl]
  have hvrec : v.lrec r =
      { st := .armed, checked := (Tab.get {} s.sq.scheds x : Sched).checked, ctx := x, lag := (Tab.get {} s.sq.scheds x : Sched).lag,
        schedId := (Tab.get {} s.sq.scheds x : Sched).id, t0 := t0, period := p0, nominal := t0, p0 := p0,
        last := (Tab.get {} s.sq.scheds x : Sched).pcount - 1, slack := ((Tab.get {} s.sq.scheds x : Sched).desc p0).slack } := by
    rw [hv, ← hsq]
    unfold armRec
    extract_lets q lines a b
    refine Eq.trans (b := b.lrec r) rfl ?_
    rw [lrec_modRecX, lrec_modRec, if_pos rfl]
  rw [← hv] at hx
  clear hv
  have hrec' : ((v.setCtx x .armed).reply src 0x0502 .ok ([BitVec.ofNat 8 r] ++ leBytes 7 0)).lrec r = v.lrec r := by
    rw [lrec_reply, lrec, setCtx_sq, ← lrec]
  refine runs_of_exec hx ⟨?_, ?_, ?_, ?_⟩
  · refine RepliedLast.of_reply ?_ ..
    exact now_of_ft ((setCtx_ft ..).trans (hvft.trans hft))
  · rw [cx_reply, cx_setCtx_same]
  · rw [cx_reply, cx_setCtx_same, hvidx]
  · rw [hrec', hvrec]
    exact ⟨rfl, rfl, rfl, rfl, rfl, rfl⟩

end

end Sys2Proof.Machine

namespace Sys2Proof.Machine

/-! The routine store's commands (R143, R168 to R170, R481). -/

/-- Bytes outside a run that is written read as before. -/
theorem mem_readN_writeN_out (m : Mem) {a c n : Nat} {bs : List Byte} (h : c + n ≤ a ∨ a + bs.length ≤ c) :
    Mem.readN (Mem.writeN m a bs) c n = Mem.readN m c n := by
  induction n generalizing c with
  | zero => rfl
  | succ n ih => rw [Mem.readN, mem_read_writeN_out _ _ _ _ (by omega), ih (by omega), Mem.readN]

/-- The first bytes of a run read after it is written. -/
theorem mem_readN_writeN_append (m : Mem) (a : Nat) (bs cs : List Byte) : Mem.readN (Mem.writeN m a (bs ++ cs)) a bs.length = bs := by
  induction bs generalizing m a with
  | nil => rfl
  | cons b bs ih =>
    rw [List.length_cons, Mem.readN, List.cons_append, Mem.writeN, ih, mem_read_writeN_out _ _ _ _ (by omega), mem_read_write, if_pos rfl]

/-- The code space a patch gets lies behind the directory, within the store (R143, R169). -/
theorem storeGap_bounds {m : Mem} {n a : Nat} (h : storeGap m n = some a) : 0x10400 ≤ a ∧ a + n ≤ 0x400000 := by
  have hp := List.find?_some h
  rw [Bool.and_eq_true, decide_eq_true_eq] at hp
  exact hp.1

/-- A step on each die whose status is OK changes those dies alone. -/
theorem State.foldl_okDies {f : ComputeDie → ComputeDie} {e : Nat → Err} (l : List Nat) (hl : l.Nodup) (s : State) (d : Nat) :
    ((((l.map fun d => (d, e d)).filter fun p => decide (p.2 = Err.ok)).foldl (fun s p => s.modCd p.1 f) s).cd d) =
      if d ∈ l ∧ e d = .ok then f (s.cd d) else s.cd d := by
  have hmap : (l.map fun d => (d, e d)).filter (fun p => decide (p.2 = Err.ok)) =
      (l.filter fun d => decide (e d = Err.ok)).map fun d => (d, e d) := by
    rw [List.filter_map]
    rfl
  rw [hmap, List.foldl_map, foldl_modCd _ (hl.filter _)]
  simp only [List.mem_filter, decide_eq_true_eq]

theorem State.foldl_okDies_only {f : ComputeDie → ComputeDie} (l : List (Nat × Err)) (s : State) :
    l.foldl (fun s p => s.modCd p.1 f) s = { s with cds := (l.foldl (fun s p => s.modCd p.1 f) s).cds } :=
  State.foldl_only (R := fun s t : State => t = { s with cds := t.cds }) (fun _ => rfl)
    (fun s t u h h' => by rw [h', h]) (fun _ _ => rfl) l s

/-- A store command puts what it brings on the dies that accept it, and extends register 3 with it once. -/
def State.storeEach (s : State) (st : List (Nat × Err)) (f : ComputeDie → ComputeDie) (digest : List Byte) : State :=
  let ok := st.filter fun e => e.2 = Err.ok
  let s := ok.foldl (fun s p => s.modCd p.1 f) s
  if ok = [] then s else s.extend 3 digest

theorem State.storeEach_spec (s : State) (l : List Nat) (hl : l.Nodup) (e : Nat → Err) (f : ComputeDie → ComputeDie) (digest : List Byte) :
    let t := s.storeEach (l.map fun d => (d, e d)) f digest
    t.ft = s.ft ∧ t.out = s.out ∧ t.ctx = s.ctx ∧ (∀ d, t.cd d = if d ∈ l ∧ e d = .ok then f (s.cd d) else s.cd d) ∧
      ∀ d, d ∈ l → e d = .ok → Tab.get [] t.sec.meas 3 = sha256 (padTo 32 (Tab.get [] s.sec.meas 3) ++ digest) := by
  unfold storeEach
  have hcd := fun d => s.foldl_okDies (f := f) (e := e) l hl d
  have honly := s.foldl_okDies_only (f := f) ((l.map fun d => (d, e d)).filter fun p => decide (p.2 = Err.ok))
  have hne : ∀ d, d ∈ l → e d = .ok → (l.map fun d => (d, e d)).filter (fun p => decide (p.2 = Err.ok)) ≠ [] := fun d hd he =>
    List.ne_nil_of_mem (List.mem_filter.mpr ⟨List.mem_map.mpr ⟨d, hd, rfl⟩, decide_eq_true he⟩)
  dsimp only at hcd honly hne ⊢
  generalize (l.map fun d => (d, e d)).filter (fun p => decide (p.2 = Err.ok)) = ok at *
  generalize ok.foldl (fun s p => s.modCd p.1 f) s = u at *
  have hft : u.ft = s.ft := by rw [honly]
  have hout : u.out = s.out := by rw [honly]
  have hctx : u.ctx = s.ctx := by rw [honly]
  have hsec : u.sec = s.sec := by rw [honly]
  split
  case isTrue h => exact ⟨hft, hout, hctx, hcd, fun d hd he => absurd h (hne d hd he)⟩
  case isFalse =>
    refine ⟨hft, hout, hctx, hcd, fun d hd he => ?_⟩
    unfold extend
    dsimp only
    rw [hsec, Tab.get, tab_find_put, if_pos rfl, Option.getD_some]

section
variable {s : State} {src : Src} {x mask va len : Nat} {b : List Byte} (hhd : s.svc.hdIn = true) (hctx : src.context = x)
  (hst : (s.cx x).st = .open_) (hmask : firstErr (s.maskChecks x mask) = none)
  (himg : s.readImage (lowestDie mask) x va len = (.ok, b))
include hhd hctx hst hmask himg

/-- The checks of the store's commands (R168, R169). -/
theorem State.storeChecks_pass {cmd : Nat} (ha : Admin s src cmd) (run : State → State) : s.command src cmd (s.isAdmin src) (decide (src.context = x))
    ([(!s.svc.hdIn || s.noCtx x, .range), (decide ((s.cx x).st ≠ .open_), .seq)] ++ s.maskChecks x mask ++
      [(decide ((s.readImage (lowestDie mask) x va len).1 ≠ Err.ok), (s.readImage (lowestDie mask) x va len).1)]) run = run s := by
  refine command_runs ha.port ha.admin (decide_eq_true hctx) ?_
  rw [himg, List.append_assoc, firstErr_append, firstErr_append hmask]
  · rfl
  · refine firstErr_none fun c hc => ?_
    simp only [List.mem_cons, List.not_mem_nil, or_false] at hc
    rcases hc with rfl | rfl
    · simp [hhd, noCtx, hst]
    · simp [hst]

/-- ROUTINE_LOAD takes a library on each die that accepts it (R168, R481). -/
theorem State.runs_routineLoad (ha : Admin s src 0x0503) {lib : List Byte} (hlib : padTo 0x400000 b = lib) :
    Runs (.routineLoad src x mask va len) s fun t => t.ctx = s.ctx ∧
      Replied s t src 0x0503 (dieStatuses ((diesOf mask).map fun d =>
        (d, if (s.cd d).tiles.any fun t => t.2.mem.ctx.isSome then Err.busy else libraryErr lib))) ∧
      (∀ d, t.cd d = if d ∈ diesOf mask ∧ (if (s.cd d).tiles.any fun t => t.2.mem.ctx.isSome then Err.busy else libraryErr lib) = .ok then
          { s.cd d with rs := { (s.cd d).rs with mem := Mem.writeN [] 0 lib, libVersion := fld lib 6 2 } } else s.cd d) ∧
      ∀ d, d ∈ diesOf mask → (if (s.cd d).tiles.any fun t => t.2.mem.ctx.isSome then Err.busy else libraryErr lib) = .ok →
        Tab.get [] t.sec.meas 3 = sha256 (padTo 32 (Tab.get [] s.sec.meas 3) ++ (lib.drop 64).take 32) := by
  have hx : exec (.routineLoad src x mask va len) s = execRoutineLoad src x mask va len s := rfl
  unfold execRoutineLoad at hx
  dsimp only at hx
  rw [storeChecks_pass hhd hctx hst hmask himg ha, himg] at hx
  dsimp only at hx
  rw [hlib] at hx
  obtain ⟨hft, hout, hctx', hcd, hmeas⟩ := s.storeEach_spec (diesOf mask) (diesOf_nodup mask)
    (fun d => if (s.cd d).tiles.any fun t => t.2.mem.ctx.isSome then Err.busy else libraryErr lib)
    (fun c => { c with rs := { c.rs with mem := Mem.writeN [] 0 lib, libVersion := fld lib 6 2 } }) ((lib.drop 64).take 32)
  refine runs_of_exec hx ⟨?_, ?_, fun d => ?_, fun d hd he => ?_⟩
  · rw [reply_ctx]
    exact hctx'
  · refine Replied.of_reply ?_ ?_ ..
    · exact now_of_ft hft
    · exact hout
  · rw [cd_of_cds (reply_cds ..)]
    exact hcd d
  · rw [reply_sec]
    exact hmeas d hd he

/-- A store with a patch in it (R143, R169). -/
def patchedStore (k : PatchImage) (c : ComputeDie) : ComputeDie :=
  let a := (storeGap c.rs.mem k.code.length).getD 0x10400
  let m := Mem.writeN (Mem.writeN c.rs.mem a k.code) (0x400 + 16 * k.number)
    (leBytes 4 a ++ leBytes 4 k.code.length ++ leBytes 2 k.version ++ leBytes 2 k.flags ++ [BitVec.ofNat 8 k.tags, 0, 0, 0])
  { c with rs := { c.rs with mem := m, patches := c.rs.patches + 1 } }

/-- ROUTINE_PATCH takes a patch on each die that accepts it (R169). -/
theorem State.runs_routinePatch (ha : Admin s src 0x0504) {k : PatchImage}
    (hk : { Config.patchImage b with number := (Config.patchImage b).number % 4096 } = k) :
    Runs (.routinePatch src x mask va len) s fun t => t.ctx = s.ctx ∧
      Replied s t src 0x0504 (dieStatuses ((diesOf mask).map fun d => (d, s.patchErr d k))) ∧
      ∀ d, t.cd d = if d ∈ diesOf mask ∧ s.patchErr d k = .ok then patchedStore k (s.cd d) else s.cd d := by
  have hx : exec (.routinePatch src x mask va len) s = execRoutinePatch src x mask va len s := rfl
  unfold execRoutinePatch at hx
  dsimp only at hx
  rw [storeChecks_pass hhd hctx hst hmask himg ha, himg] at hx
  dsimp only at hx
  have hdigest : (Config.patchImage b).digest = k.digest := by rw [← hk]
  rw [hk, hdigest] at hx
  obtain ⟨hft, hout, hctx', hcd, -⟩ := s.storeEach_spec (diesOf mask) (diesOf_nodup mask) (fun d => s.patchErr d k) (patchedStore k) k.digest
  refine runs_of_exec hx ⟨?_, ?_, fun d => ?_⟩
  · rw [reply_ctx]
    exact hctx'
  · refine Replied.of_reply ?_ ?_ ..
    · exact now_of_ft hft
    · exact hout
  · rw [cd_of_cds (reply_cds ..)]
    exact hcd d

end

/-- What a patch leaves in its store: its code in the gap, its entry in the directory, and all else as before (R143, R169). -/
theorem patchedStore_spec {k : PatchImage} {c : ComputeDie} {a : Nat} (hn : k.number < 4096) (ha : storeGap c.rs.mem k.code.length = some a) :
    (patchedStore k c).rs.patches = c.rs.patches + 1 ∧ Mem.readN (patchedStore k c).rs.mem a k.code.length = k.code ∧
      Mem.readN (patchedStore k c).rs.mem (0x400 + 16 * k.number) 10 = leBytes 4 a ++ leBytes 4 k.code.length ++ leBytes 2 k.version ∧
      ∀ o, (o < a ∨ a + k.code.length ≤ o) → (o < 0x400 + 16 * k.number ∨ 0x400 + 16 * k.number + 16 ≤ o) →
        Mem.read (patchedStore k c).rs.mem o = Mem.read c.rs.mem o := by
  obtain ⟨hlow, -⟩ := storeGap_bounds ha
  obtain ⟨entry, hentry⟩ : ∃ e, e = leBytes 4 a ++ leBytes 4 k.code.length ++ leBytes 2 k.version := ⟨_, rfl⟩
  obtain ⟨rest, hrest⟩ : ∃ r, r = leBytes 2 k.flags ++ [BitVec.ofNat 8 k.tags, (0 : Byte), 0, 0] := ⟨_, rfl⟩
  have hlen : entry.length = 10 := by simp [hentry]
  have hrlen : rest.length = 6 := by simp [hrest]
  have hmem : (patchedStore k c).rs.mem = Mem.writeN (Mem.writeN c.rs.mem a k.code) (0x400 + 16 * k.number) (entry ++ rest) := by
    unfold patchedStore
    dsimp only
    rw [ha, Option.getD_some, hentry, hrest, ← List.append_assoc]
  rw [hmem, ← hentry]
  refine ⟨rfl, ?_, ?_, fun o hcode hdir => ?_⟩
  · rw [mem_readN_writeN_out _ (by rw [List.length_append]; omega), mem_readN_writeN]
  · rw [← hlen, mem_readN_writeN_append]
  · rw [mem_read_writeN_out _ _ _ _ (by rw [List.length_append]; omega), mem_read_writeN_out _ _ _ _ hcode]

end Sys2Proof.Machine

namespace Sys2Proof.Machine

theorem Runs.imp {c : Instr} {s : State} {P Q : State → Prop} (h : Runs c s P) (hpq : ∀ t, P t → Q t) : Runs c s Q :=
  h.elim fun t ht => ⟨t, ht.1, hpq t ht.2⟩

/-- Settles O50: the memory commands resolve a fault, drop cached translations, set exports, the pools and a fault mode, and read the pools;
PROG_LOAD puts an image into the tiles it names, LAUNCH starts or arms it, and the routine store takes a library or a patch on each die that
accepts it. -/
theorem memoryAndProgramCommands : Obligations.MemoryAndProgramCommands := by
  unfold Obligations.MemoryAndProgramCommands
  intro src x s hhd
  refine ⟨?_, ?_, ?_, ?_, ?_, ?_, ?_, ?_, ?_, ?_⟩
  · intro die id action f w hport hdie hin haction hf howner hall hcall hkind hst hover
    exact runs_memPfResolve hhd hport hdie hin haction hf howner hall hcall hkind hst hover
  · intro mask all va pages ho hva hmask hdies hsome
    exact runs_tlbFlush hhd ho hva hmask hdies hsome
  · intro die entry data ha hdie hin hentry e hfits halign hpeers haccess hzero
    exact runs_exportSet hhd ha hdie hin hentry hfits halign hpeers haccess hzero
  · intro die region counts quotas a ha hdie hin happly
    exact runs_poolSet hhd ha hdie hin happly
  · intro mask mode ho hmode hmask hdies hst hsched hfree
    exact runs_memModeSet hhd ho hmode hmask hdies hst hsched hfree
  · intro die hport hdie hin
    exact runs_poolStatus hhd hport hdie hin
  · intro mask va len b ho himg i hq hst hmask hprog
    refine (State.runs_progLoad hhd ho himg hq hst hmask hprog).imp fun t ht => ?_
    obtain ⟨hreply, hcst, hid, hsched, htiles, hput⟩ := ht
    refine ⟨hreply, hcst, hid, hsched, htiles, fun d j hd hj hone => ?_⟩
    obtain ⟨hidle, hlogical, hctx, hbank, hdmem, hcode, hother⟩ := (s.tile d ((s.cd d).map.phys j)).progLoad_spec x j
      ((b.drop (i.entry j).imem).take (i.entry j).imemLen) ((b.drop (i.entry j).dmem).take (i.entry j).dmemLen)
    intro p m e
    have htile := hput d j hd hj hone
    refine ⟨?_, ?_, ?_, ?_, ?_, ?_, ?_⟩
    · rw [htile]; exact hidle
    · rw [htile]; exact hlogical
    · unfold m; rw [htile]; exact hctx
    · rw [htile]; exact hbank
    · unfold m; rw [htile]; exact hdmem
    · unfold m; rw [htile]; exact hcode
    · unfold m; rw [htile]; exact hother
  · intro flags t0 p0 g ho hprog hchecks hresume
    refine ⟨fun hsched hlate => State.runs_launch_armed hhd ho hchecks hsched hlate, fun d i hsched ht0 huse hone hctx => ?_,
      fun r hsched hrec => State.runs_launch_scheduled hhd ho hchecks hsched hrec⟩
    exact State.runs_launch_started hhd ho hprog hchecks hresume hsched ht0 huse hone hctx
  · intro mask va len b ha hctx hst hmask himg lib free
    have hlib : padTo 0x400000 b = lib := rfl
    clear_value lib
    refine (State.runs_routineLoad hhd hctx hst hmask himg ha hlib).imp fun t ht => ?_
    obtain ⟨hctx', hreply, hcd, hmeas⟩ := ht
    have herr (d : Nat) : (if (s.cd d).tiles.any fun t => t.2.mem.ctx.isSome then Err.busy else libraryErr lib) =
        if free d then libraryErr lib else .busy := by
      unfold free
      cases (s.cd d).tiles.any fun t => t.2.mem.ctx.isSome <;> rfl
    simp only [herr] at hreply hcd hmeas
    refine ⟨hctx', hreply, fun d hd hfree hok => ⟨?_, hmeas d hd ?_⟩, fun d hno => ?_⟩
    · rw [hcd, if_pos ⟨hd, by rw [if_pos hfree, hok]⟩]
    · rw [if_pos hfree, hok]
    · rw [hcd, if_neg]
      rintro ⟨hd, hok⟩
      rcases hno with hn | hn | hn
      · exact hn hd
      · rw [hn] at hok
        cases hok
      · split at hok
        · exact hn hok
        · cases hok
  · intro mask va len b ha hctx hst hmask himg k
    have hk : { Config.patchImage b with number := (Config.patchImage b).number % 4096 } = k := rfl
    have hnum : k.number < 4096 := Nat.mod_lt _ (by decide)
    clear_value k
    refine (State.runs_routinePatch hhd hctx hst hmask himg ha hk).imp fun t ht => ?_
    obtain ⟨hctx', hreply, hcd⟩ := ht
    refine ⟨hctx', hreply, fun d hno => ?_, fun d a hd hok ha => ?_⟩
    · rw [hcd, if_neg]
      rintro ⟨hd, hok⟩
      exact hno.elim (fun h => h hd) fun h => h hok
    · rw [hcd, if_pos ⟨hd, hok⟩]
      exact patchedStore_spec hnum ha

end Sys2Proof.Machine

namespace Sys2Proof.Machine

/-! Stopping and enabling units (R123, R142, R196, R221, R415, R416). -/

/-- From `s` to `t` fabric time stands, more may have been sent, and where no UNIT_DISABLE was pending none is. -/
structure State.Speaks (s t : State) : Prop where
  ft : t.ft = s.ft
  out : s.out <:+ t.out
  dis : s.dis = [] → t.dis = []

namespace State.Speaks

variable {s t u : State}

theorem refl (s : State) : s.Speaks s := ⟨rfl, List.suffix_refl _, id⟩

theorem trans (h : s.Speaks t) (h' : t.Speaks u) : s.Speaks u :=
  ⟨h'.ft.trans h.ft, h.out.trans h'.out, fun hd => h'.dis (h.dis hd)⟩

theorem of_eq (hft : t.ft = s.ft) (hout : t.out = s.out) (hdis : t.dis = s.dis) : s.Speaks t :=
  ⟨hft, hout ▸ List.suffix_refl _, fun h => hdis.trans h⟩

theorem foldl {α : Type} {step : State → α → State} (h : ∀ (s : State) a, s.Speaks (step s a)) (l : List α) (s : State) :
    s.Speaks (l.foldl step s) :=
  State.foldl_only refl (fun _ _ _ => trans) h l s

theorem notice (c code : Nat) (payload : List Byte) : s.Speaks (s.notice c code payload) :=
  ⟨notice_ft .., out_notice .., fun h => (notice_dis ..).trans h⟩

theorem setCtx (x : Nat) (st : CtxSt) (code : Err) (die ltile : Nat) : s.Speaks (s.setCtx x st code die ltile) := by
  unfold State.setCtx
  dsimp only
  refine Speaks.trans ?_ (notice ..)
  exact of_eq rfl rfl rfl

theorem raise (die unit sev : Nat) (code : Err) (data : List Byte) (x : Nat) (contrib : Option Nat) (l : Nat) :
    s.Speaks (s.raise die unit sev code data x contrib l) :=
  of_eq (raise_ft ..) (raise_out ..) (raise_dis ..)

theorem reply (src : Src) (cmd : Nat) (e : Err) (payload : List Byte) : s.Speaks (s.reply src cmd e payload) := by
  refine ⟨reply_ft .., ?_, fun h => (reply_dis ..).trans h⟩
  rw [out_reply]
  exact List.suffix_cons ..

theorem markUnit (d kind index : Nat) (off drain : Bool) : s.Speaks (s.markUnit d kind index off drain) := by
  unfold State.markUnit
  dsimp only
  split
  · exact of_eq rfl rfl rfl
  · exact of_eq rfl rfl rfl
  · exact of_eq rfl rfl rfl
  · exact of_eq rfl rfl rfl
  · split
    · exact of_eq rfl rfl rfl
    · exact of_eq rfl rfl rfl

theorem settle (s : State) : s.Speaks s.settle := by
  refine foldl (fun s q => ?_) s.dis s
  split
  · have hdis : s.Speaks { s with dis := s.dis.filter fun o => o ≠ q } :=
      ⟨rfl, List.suffix_refl _, fun h => by dsimp only; rw [h]; rfl⟩
    exact (hdis.trans (markUnit ..)).trans (reply ..)
  · exact refl s

theorem launchEnd (x : Nat) : s.Speaks (s.launchEnd x) := by
  refine Speaks.trans ?_ (settle _)
  split <;> split
  · exact notice ..
  · exact refl s
  · exact notice ..
  · exact refl s

theorem collEnd (b : Nat) : s.Speaks (s.collEnd b) := by
  unfold State.collEnd
  split
  · exact notice ..
  · exact refl s

theorem abortBinding (b : Nat) (code : Err) (origin sev : Nat) (data : List Byte) (contrib : Option Nat) (l : Nat) :
    s.Speaks (s.abortBinding b code origin sev data contrib l) := by
  have hfold : s.Speaks ((s.bindX b).run.descs.foldl (fun s d => s.releaseOx d) s) := by
    refine foldl (fun t d => ?_) _ s
    rw [releaseOx_only]
    exact of_eq rfl rfl rfl
  unfold State.abortBinding
  dsimp only
  generalize List.foldl (fun s d => s.releaseOx d) s (s.bindX b).run.descs = u at hfold ⊢
  split
  · refine hfold.trans (Speaks.trans ?_ (collEnd b))
    refine Speaks.trans ?_ (raise ..)
    exact of_eq rfl rfl rfl
  · refine hfold.trans (Speaks.trans ?_ (collEnd b))
    refine Speaks.trans ?_ (raise ..)
    exact of_eq rfl rfl rfl
  · refine hfold.trans (Speaks.trans ?_ (collEnd b))
    refine Speaks.trans ?_ (raise ..)
    exact of_eq rfl rfl rfl
  · split
    · refine Speaks.trans ?_ (raise ..)
      split <;> exact of_eq rfl rfl rfl
    · exact refl s
  · exact refl s

theorem endPeriod (r : Nat) (code : Err) (die unit slot : Nat) (missed : Int) (node : Option Nat) (sev : Nat) :
    s.Speaks (s.endPeriod r code die unit slot missed node sev) := by
  unfold State.endPeriod
  dsimp only
  split
  · refine Speaks.trans ?_ (launchEnd _)
    refine Speaks.trans ?_ (setCtx ..)
    refine Speaks.trans ?_ (raise ..)
    refine Speaks.trans ?_ (foldl (fun t e => ?_) _ _)
    · exact of_eq rfl rfl rfl
    · split
      · exact abortBinding ..
      · exact refl t
  · split
    · refine Speaks.trans ?_ (raise ..)
      exact of_eq rfl rfl rfl
    · exact refl s

theorem muleFault (d p : Nat) (code : Err) (source unit tag lrc : Nat) : s.Speaks (s.muleFault d p code source unit tag lrc) := by
  unfold State.muleFault
  dsimp only
  split
  · split
    · exact of_eq rfl rfl rfl
    · split
      · refine Speaks.trans ?_ (endPeriod ..)
        exact of_eq rfl rfl rfl
      · split
        · refine Speaks.trans ?_ (launchEnd _)
          refine Speaks.trans ?_ (setCtx ..)
          exact of_eq rfl rfl rfl
        · exact of_eq rfl rfl rfl
  · exact refl s

theorem unitFault (d i : Nat) (code : Err) (unit tag lrc : Nat) : s.Speaks (s.unitFault d i code unit tag lrc) :=
  (muleFault ..).trans (settle _)

theorem abortArray (d p : Nat) : s.Speaks (s.abortArray d p) := by
  unfold State.abortArray
  dsimp only
  refine Speaks.trans ?_ (foldl (fun t q => ?_) _ _)
  · exact of_eq rfl rfl rfl
  · refine Speaks.trans ?_ (unitFault ..)
    exact of_eq rfl rfl rfl

end State.Speaks

theorem State.markUnit_hen (s : State) (d i : Nat) (off drain : Bool) : s.markUnit d 2 i off drain =
    s.modCd d fun c => { c with hen := { c.hen with disabled := off, draining := drain, quiescing := false } } := rfl

theorem State.markUnit_dma (s : State) (d e : Nat) (off drain : Bool) : s.markUnit d 3 e off drain =
    s.modEng d e fun x => { x with disabled := off, draining := drain } := rfl

/-- An aborted array holds no pass (R123). -/
theorem State.passes_abortArray (s : State) (d p : Nat) : ((s.abortArray d p).tile d p).arr.passes = [] := by
  unfold abortArray
  dsimp only
  generalize (s.tile d p).arr.passes = l
  have hstart : ((s.modArr d p fun a => { a with passes := [] }).tile d p).arr.passes = [] := by
    rw [modArr, tile_modTile, if_pos ⟨rfl, rfl⟩]
  generalize (s.modArr d p fun a => { a with passes := [] }) = u at hstart ⊢
  induction l generalizing u with
  | nil => exact hstart
  | cons q l ih =>
    rw [List.foldl_cons]
    refine ih _ ?_
    rw [(sameUnits_unitFault ..).arr]
    dsimp only
    rw [tile_of_cds (drew_cds ..), modArr, tile_modTile, if_pos ⟨rfl, rfl⟩]
    exact (ArrayU.passes_setPlane ..).trans hstart

section
variable {s : State} {die kind index : Nat} {q : PendDis}

theorem State.unitQuiet_markUnit (s : State) (d kind index : Nat) (off drain : Bool) :
    (s.markUnit d kind index off drain).unitQuiet d kind index = s.unitQuiet d kind index := by
  have hwork := s.sameWork_markUnit d kind index off drain d index
  have hpasses : ((s.markUnit d kind index off drain).tile d index).arr.passes = (s.tile d index).arr.passes := by rw [hwork.arr]
  have hrun : ((s.markUnit d kind index off drain).tile d index).ee.run = (s.tile d index).ee.run := by rw [hwork.ee]
  unfold unitQuiet
  dsimp only
  split
  · rw [hpasses]
  · rw [hrun]
  · rw [markUnit_hen, cd_modCd, if_pos rfl]
  · rw [markUnit_dma, modEng, cd_modCd, if_pos rfl, tab_get_modify, if_pos rfl]
  · rw [hpasses, hrun, hwork.mule, hwork.mem]
    have hctx : (s.markUnit d kind index off drain).ctx = s.ctx := (Stops.markUnit ..).ctx
    simp only [cx, hctx]

/-- A disable whose unit is quiescent completes at once (R416). -/
theorem State.settle_quiet (hdis : s.dis = [q]) (hq : s.unitQuiet q.die q.kind q.index = true) : s.settle =
    ({ s with dis := [] }.markUnit q.die q.kind q.index true false).reply q.src 0x0B10 .ok ([BitVec.ofNat 8 q.prior] ++ leBytes 4 q.aborted) := by
  unfold settle
  rw [hdis, List.foldl_cons, List.foldl_nil, if_pos hq]
  simp [hdis]

theorem State.settle_busy (hdis : s.dis = [q]) (hq : s.unitQuiet q.die q.kind q.index = false) : s.settle = s := by
  unfold settle
  rw [hdis, List.foldl_cons, List.foldl_nil, if_neg (by rw [hq]; exact Bool.false_ne_true)]

/-- A unit with a disable pending (R416). -/
theorem State.unitState_pending (h : s.dis = [q]) : s.unitState q.die q.kind q.index = 1 := by
  unfold unitState
  dsimp only
  rw [h, if_pos (by simp)]

/-- A unit that is marked disabled, with no disable pending (R416). -/
theorem State.unitState_marked (hdis : s.dis = []) : (s.markUnit die kind index true false).unitState die kind index = 2 := by
  have hd : (s.markUnit die kind index true false).dis = [] := (Speaks.markUnit ..).dis hdis
  unfold unitState
  dsimp only
  rw [hd, List.any_nil, if_neg Bool.false_ne_true, if_pos]
  split
  · refine Eq.trans (b := ((s.modArr die index fun a => { a with disabled := true, draining := false }).tile die index).arr.disabled) rfl ?_
    rw [modArr, tile_modTile, if_pos ⟨rfl, rfl⟩]
  · refine Eq.trans (b := ((s.modEe die index fun a => { a with disabled := true, draining := false }).tile die index).ee.disabled) rfl ?_
    rw [modEe, tile_modTile, if_pos ⟨rfl, rfl⟩]
  · rw [markUnit_hen, cd_modCd, if_pos rfl]
  · rw [markUnit_dma, modEng, cd_modCd, if_pos rfl, tab_get_modify, if_pos rfl]
  · unfold markUnit
    split
    · contradiction
    · contradiction
    · contradiction
    · contradiction
    · rw [if_neg Bool.false_ne_true, tile_modTile, if_pos ⟨rfl, rfl⟩]

theorem State.unitState_reply (s : State) (src : Src) (cmd : Nat) (e : Err) (payload : List Byte) :
    (s.reply src cmd e payload).unitState die kind index = s.unitState die kind index := by
  simp only [unitState, tile_of_cds (reply_cds ..), cd_of_cds (reply_cds ..), reply_dis]

theorem unitNamed_le (h : unitNamed kind index = true) : kind ≤ 4 := by
  unfold unitNamed at h
  split at h
  · omega
  · omega
  · omega
  · omega
  · omega
  · cases h

section
variable {src : Src} (hhd : s.svc.hdIn = true) (hdie : die < 16) (hin : s.dieIn die = true) (hnamed : unitNamed kind index = true)
include hhd hdie hin hnamed

theorem State.unitChecks_pass : firstErr (s.unitChecks die kind index) = none := by
  have hk := unitNamed_le hnamed
  refine firstErr_none fun c hc => ?_
  simp only [unitChecks, List.mem_cons, List.not_mem_nil, or_false] at hc
  rcases hc with rfl | rfl | rfl
  · simp [hhd, hin]; omega
  · simp; omega
  · simp [hnamed]

/-- What UNIT_DISABLE does once its checks pass (R415). -/
def State.disableUnit (s : State) (src : Src) (die kind index mode : Nat) : State :=
  let was := s.unitState die kind index
  let q : PendDis := { src := src, die := die, kind := kind, index := index, prior := was,
                       aborted := if mode = 0 then 0 else s.inFlight die kind index }
  if was = 2 then s.reply src 0x0B10 .ok ([2] ++ leBytes 4 0)
  else
    let same := fun o : PendDis => o.die == die && o.kind == kind && o.index == index
    if mode = 0 then ({ s with dis := s.dis ++ [q] }.markUnit die kind index false true).settle
    else
      let old := s.dis.filter same
      let s := { s with dis := s.dis.filter fun o => !same o }
      let s := old.foldl (fun s o => s.reply o.src 0x0B10 .aborted []) s
      let s := (s.markUnit die kind index false true).abortUnit die kind index
      { s with dis := s.dis ++ [q] }.settle

variable (ha : Admin s src 0x0B10)
include ha

theorem State.exec_unitDisable {mode : Nat} (hmode : mode < 2) :
    exec (.unitDisable src die kind index mode) s = .next (s.disableUnit src die kind index mode) := by
  have hx : exec (.unitDisable src die kind index mode) s = execUnitDisable src die kind index mode s := rfl
  unfold execUnitDisable at hx
  rw [command_runs ha.port ha.admin rfl (by
    rw [firstErr_append (unitChecks_pass hhd hdie hin hnamed)]
    simp [firstErr]; omega)] at hx
  exact hx

/-- UNIT_DISABLE of a disabled unit answers at once (R415). -/
theorem State.runs_unitDisable_again {mode : Nat} (hmode : mode < 2) (hst : s.unitState die kind index = 2) :
    Runs (.unitDisable src die kind index mode) s fun t => Replied s t src 0x0B10 (2 :: leBytes 4 0) ∧ OnlyReply s t := by
  have hx := exec_unitDisable hhd hdie hin hnamed ha hmode
  rw [disableUnit, hst] at hx
  dsimp only at hx
  rw [if_pos rfl] at hx
  exact runs_of_exec hx ⟨Replied.of_reply rfl rfl .., OnlyReply.of_reply ..⟩

variable (hdis : s.dis = []) (hst : s.unitState die kind index = 0)
include hdis hst

/-- UNIT_DISABLE in DRAIN mode of a quiescent unit disables it at once (R416). -/
theorem State.runs_unitDisable_quiet (hquiet : s.unitQuiet die kind index = true) : Runs (.unitDisable src die kind index 0) s fun t =>
    Replied s t src 0x0B10 (0 :: leBytes 4 0) ∧ t.unitState die kind index = 2 := by
  have hx := exec_unitDisable hhd hdie hin hnamed ha (mode := 0) (by omega)
  rw [disableUnit, hst, hdis] at hx
  dsimp only at hx
  rw [if_neg (by omega), if_pos rfl, List.nil_append] at hx
  obtain ⟨q, hq⟩ : ∃ q : PendDis, q = { src := src, die := die, kind := kind, index := index, prior := 0, aborted := 0 } := ⟨_, rfl⟩
  obtain ⟨u, hu⟩ : ∃ u, u = { s with dis := [q] }.markUnit die kind index false true := ⟨_, rfl⟩
  have honly := { s with dis := [q] }.markUnit_only die kind index false true
  have hqu : u.unitQuiet die kind index = true := by
    rw [hu, unitQuiet_markUnit]
    exact hquiet
  rw [← hu] at honly
  have hud : u.dis = [q] := by rw [honly]
  have hft : u.ft = s.ft := by rw [honly]
  have hout : u.out = s.out := by rw [honly]
  rw [if_pos rfl, ← hq, ← hu, settle_quiet hud (by rw [hq]; exact hqu)] at hx
  rw [hq] at hx
  dsimp only at hx
  have hsp : ({ u with dis := [] }.markUnit die kind index true false).ft = s.ft := (Speaks.markUnit ..).ft.trans hft
  have hso : ({ u with dis := [] }.markUnit die kind index true false).out = s.out := by
    rw [markUnit_only]
    exact hout
  refine runs_of_exec hx ⟨?_, ?_⟩
  · refine Replied.of_reply ?_ ?_ ..
    · exact now_of_ft hsp
    · exact hso
  · rw [unitState_reply, unitState_marked]
    rfl

/-- UNIT_DISABLE in DRAIN mode of a busy unit waits for it (R416). -/
theorem State.runs_unitDisable_busy (hbusy : s.unitQuiet die kind index = false) : Runs (.unitDisable src die kind index 0) s fun t =>
    t.out = s.out ∧ t.unitState die kind index = 1 ∧ t = { s with cds := t.cds, dis := t.dis } := by
  have hx := exec_unitDisable hhd hdie hin hnamed ha (mode := 0) (by omega)
  rw [disableUnit, hst, hdis] at hx
  dsimp only at hx
  rw [if_neg (by omega), if_pos rfl, List.nil_append] at hx
  obtain ⟨q, hq⟩ : ∃ q : PendDis, q = { src := src, die := die, kind := kind, index := index, prior := 0, aborted := 0 } := ⟨_, rfl⟩
  obtain ⟨u, hu⟩ : ∃ u, u = { s with dis := [q] }.markUnit die kind index false true := ⟨_, rfl⟩
  have honly := { s with dis := [q] }.markUnit_only die kind index false true
  have hqu : u.unitQuiet die kind index = false := by
    rw [hu, unitQuiet_markUnit]
    exact hbusy
  rw [← hu] at honly
  have hud : u.dis = [q] := by rw [honly]
  have hpend := unitState_pending hud
  rw [if_pos rfl, ← hq, ← hu, settle_busy hud (by rw [hq]; exact hqu)] at hx
  rw [hq] at hpend
  refine runs_of_exec hx ⟨?_, hpend, ?_⟩
  · rw [honly]
  · rw [honly]

omit hnamed in
/-- UNIT_DISABLE in ABORT mode on a matrix array: its passes end, and it is disabled (R123, R415). -/
theorem State.runs_unitDisable_abort (hkind : kind = 0) (hnamed : unitNamed kind index = true) :
    Runs (.unitDisable src die kind index 1) s fun t =>
      (t.tile die index).arr.passes = [] ∧ (t.tile die index).arr.disabled = true ∧
      Answered s t src 0x0B10 (0 :: leBytes 4 (s.tile die index).arr.passes.length) ∧ t.unitState die kind index = 2 := by
  subst hkind
  have hx := exec_unitDisable hhd hdie hin hnamed ha (mode := 1) (by omega)
  rw [disableUnit, hst, hdis] at hx
  dsimp only at hx
  rw [if_neg (by omega), if_neg (by omega), if_neg (by omega), List.filter_nil, List.filter_nil, List.foldl_nil] at hx
  obtain ⟨u, hu⟩ : ∃ u, u = ({ s with dis := [] }.markUnit die 0 index false true).abortArray die index := ⟨_, rfl⟩
  have hsp : s.Speaks u := by
    rw [hu]
    refine Speaks.trans ?_ (Speaks.abortArray ..)
    refine Speaks.trans ?_ (Speaks.markUnit ..)
    exact ⟨rfl, List.suffix_refl _, fun _ => rfl⟩
  have hpasses : (u.tile die index).arr.passes = [] := by
    rw [hu]
    exact passes_abortArray ..
  have habort : ({ s with dis := [] }.markUnit die 0 index false true).abortUnit die 0 index = u := hu.symm
  rw [habort, hsp.dis hdis, List.nil_append] at hx
  clear habort hu
  obtain ⟨q, hq⟩ : ∃ q : PendDis, q = { src := src, die := die, kind := 0, index := index, prior := 0, aborted := s.inFlight die 0 index } :=
    ⟨_, rfl⟩
  rw [← hq] at hx
  have hqu : ({ u with dis := [q] } : State).unitQuiet q.die q.kind q.index = true := by
    rw [hq]
    exact decide_eq_true hpasses
  rw [settle_quiet (q := q) rfl hqu, hq] at hx
  dsimp only at hx
  obtain ⟨v, hv⟩ : ∃ v, v = ({ u with dis := [] } : State).markUnit die 0 index true false := ⟨_, rfl⟩
  have hvtile : v.tile die index = { u.tile die index with arr := { (u.tile die index).arr with disabled := true, draining := false } } := by
    rw [hv]
    refine (tile_modTile ..).trans ?_
    rw [if_pos ⟨rfl, rfl⟩]
    rfl
  have hvst : v.unitState die 0 index = 2 := by
    rw [hv, unitState_marked]
    rfl
  have hvft : v.ft = u.ft := by
    rw [hv, markUnit_only]
  have hvout : v.out = u.out := by
    rw [hv, markUnit_only]
  rw [← hv] at hx
  clear hv
  refine runs_of_exec hx ⟨?_, ?_, ?_, ?_⟩
  · rw [tile_of_cds (reply_cds ..), hvtile]
    exact hpasses
  · rw [tile_of_cds (reply_cds ..), hvtile]
  · refine Sent.of_suffix (u := u) hsp.out ?_
    rw [out_reply_ok, answer_of_now (now_of_ft (hvft.trans hsp.ft)), hvout]
    exact List.suffix_refl _
  · rw [unitState_reply, hvst]

end

end

end Sys2Proof.Machine

namespace Sys2Proof.Machine

/-! UNIT_ENABLE (R123, R142, R196, R221, R416). -/

section
variable {s : State} {die kind index : Nat}

theorem State.onlyCd_modTile (s : State) (d p : Nat) (f : Tile → Tile) : OnlyCd s (s.modTile d p f) d := by
  unfold modTile
  exact onlyCd_modCd ..

/-- UNIT_ENABLE of a matrix array: its partial results are gone (R123). -/
def State.enableArr (s : State) (d p : Nat) : State := s.modTile d p fun t =>
  { t with arr := { t.arr with disabled := false, draining := false, plane0 := {}, plane1 := {}, resumeK := 0, resumeValid := false,
                               resumePlane := 0, resumeAborted := false, stopped := none } }

/-- UNIT_ENABLE of an element engine: its partial results are gone (R142). -/
def State.enableEe (s : State) (d p : Nat) : State := s.modTile d p fun t =>
  { t with ee := { t.ee with disabled := false, draining := false, resumePos := 0, resumeValid := false, resumeAborted := false,
                             resumeKind := 0, stopped := none } }

theorem State.enableUnit_onlyCd (s : State) (die kind index : Nat) : OnlyCd s (s.enableUnit die kind index) die := by
  have harr (s : State) : OnlyCd s (s.enableArr die index) die := onlyCd_modTile ..
  have hee (s : State) : OnlyCd s (s.enableEe die index) die := onlyCd_modTile ..
  unfold enableUnit
  dsimp only
  split
  · exact harr s
  · exact hee s
  · refine onlyCd_modCd ..
  · unfold modEng
    exact onlyCd_modCd ..
  · exact ((harr s).trans (hee _)).trans (onlyCd_modTile ..)

theorem State.enableUnit_arr (s : State) (die p : Nat) : s.enableUnit die 0 p = s.enableArr die p := rfl

theorem State.enableUnit_ee (s : State) (die p : Nat) : s.enableUnit die 1 p = s.enableEe die p := rfl

theorem State.enableUnit_dma (s : State) (die e : Nat) : s.enableUnit die 3 e = s.modEng die e fun _ => {} := rfl

/-- A unit that is enabled is neither disabled nor draining (R416). -/
theorem State.unitState_enableUnit (hst : s.unitState die kind index = 2) : (s.enableUnit die kind index).unitState die kind index = 0 := by
  have hdis : (s.dis.any fun q => q.die == die && q.kind == kind && q.index == index) = false := by
    unfold unitState at hst
    dsimp only at hst
    cases h : s.dis.any fun q => q.die == die && q.kind == kind && q.index == index
    · rfl
    · rw [h, if_pos rfl] at hst
      omega
  have hd : (s.enableUnit die kind index).dis = s.dis := by rw [(enableUnit_onlyCd ..).rest]
  unfold unitState
  dsimp only
  rw [hd, hdis, if_neg Bool.false_ne_true, if_neg]
  rw [Bool.not_eq_true]
  split
  · rw [enableUnit_arr, enableArr, tile_modTile, if_pos ⟨rfl, rfl⟩]
  · rw [enableUnit_ee, enableEe, tile_modTile, if_pos ⟨rfl, rfl⟩]
  · show ((s.modCd die _).cd die).hen.disabled = false
    rw [cd_modCd, if_pos rfl]
  · rw [enableUnit_dma, modEng, cd_modCd, if_pos rfl, tab_get_modify, if_pos rfl]
  · unfold enableUnit
    split
    · contradiction
    · contradiction
    · contradiction
    · contradiction
    · rw [tile_modTile, if_pos ⟨rfl, rfl⟩]

/-- UNIT_ENABLE takes a disabled unit back (R416). -/
theorem State.runs_unitEnable {src : Src} (hhd : s.svc.hdIn = true) (hdie : die < 16) (hin : s.dieIn die = true)
    (hnamed : unitNamed kind index = true) (ha : Admin s src 0x0B11) (hst : s.unitState die kind index = 2) :
    Runs (.unitEnable src die kind index) s fun t => Replied s t src 0x0B11 [] ∧
      OnlyCd s { t with out := s.out, mbx := s.mbx, xp := s.xp, eths := s.eths } die ∧ t.unitState die kind index = 0 ∧
      (kind = 0 → (t.tile die index).arr.plane0 = {} ∧ (t.tile die index).arr.plane1 = {} ∧
        (t.tile die index).arr.resumeValid = false) ∧
      (kind = 3 → (Tab.get {} (t.cd die).dma.engines index : DmaEng) = {}) := by
  have hx : exec (.unitEnable src die kind index) s = execUnitEnable src die kind index s := rfl
  unfold execUnitEnable at hx
  rw [command_runs ha.port ha.admin rfl (by
    rw [firstErr_append (unitChecks_pass hhd hdie hin hnamed), hst]
    rfl)] at hx
  have honly := s.enableUnit_onlyCd die kind index
  have hstate := unitState_enableUnit hst
  have harr (h : kind = 0) : ((s.enableUnit die kind index).tile die index).arr.plane0 = {} ∧
      ((s.enableUnit die kind index).tile die index).arr.plane1 = {} ∧
      ((s.enableUnit die kind index).tile die index).arr.resumeValid = false := by
    rw [h, enableUnit_arr, enableArr, tile_modTile, if_pos ⟨rfl, rfl⟩]
    exact ⟨rfl, rfl, rfl⟩
  have hdma (h : kind = 3) : (Tab.get {} ((s.enableUnit die kind index).cd die).dma.engines index : DmaEng) = {} := by
    rw [h, enableUnit_dma, modEng, cd_modCd, if_pos rfl, tab_get_modify, if_pos rfl]
  generalize s.enableUnit die kind index = u at *
  refine runs_of_exec hx ⟨?_, ?_, ?_, fun h => ?_, fun h => ?_⟩
  · refine Replied.of_reply ?_ ?_ ..
    · rw [honly.rest]
      rfl
    · rw [honly.rest]
  · refine ⟨?_, fun k hk => ?_⟩
    · rw [reply_only, honly.rest]
    · refine Eq.trans ?_ (honly.dies k hk)
      exact cd_of_cds (reply_cds ..) k
  · rw [unitState_reply, hstate]
  · rw [tile_of_cds (reply_cds ..)]
    exact harr h
  · rw [cd_of_cds (reply_cds ..)]
    exact hdma h

end

end Sys2Proof.Machine

namespace Sys2Proof.Machine

/-! The debug commands (R92, R93, R417). -/

theorem Tile.mule_dbgStop {t : Tile} (h : t.mule.st = .run ∨ t.mule.st = .wait) : t.dbgStop.mule = { t.mule with st := .haltBreak } := by
  unfold dbgStop
  rcases h with h | h <;> rw [h]

/-- A Mule that waits for nothing runs on, past the break that stopped it (R417). -/
theorem Tile.mule_dbgGo {t : Tile} (h : t.mem.wait = .none) : t.dbgGo.mule = { t.mule with st := .run, brkSkip := true } := by
  unfold dbgGo
  rw [h]

theorem fetch_dbgGo (t : Tile) (rs : Mem) : fetch t.dbgGo rs = fetch t rs := rfl

section
variable {s : State} {x die i p : Nat} (hdebug : (s.cx x).debug = true) (htile : s.loadedTile x die i = some p)

include htile in
/-- A loaded tile is one of a die, and its context's. -/
theorem State.loadedTile_spec : die < 16 ∧ p < 5 ∧ (s.tile die p).mem.ctx = some x := by
  unfold loadedTile at htile
  dsimp only at htile
  split at htile
  case isTrue h =>
    obtain ⟨hdie, -, hp, hctx⟩ := h
    rw [Option.some.injEq] at htile
    rw [← htile]
    exact ⟨hdie, hp, hctx⟩
  case isFalse => cases htile

include hdebug htile in
theorem State.dbgChecks_pass : firstErr (s.dbgChecks x die i) = none := by
  rw [dbgChecks, hdebug, htile]
  rfl

variable {src : Src} (hhd : s.svc.hdIn = true)
include hdebug htile hhd

/-- DBG_BREAK_SET sets the break registers of a Mule (R92, R417). -/
theorem State.runs_dbgBreakSet (ctl inst lrc : Nat) (ho : Owner s src 0x0D01 x) : Runs (.dbgBreakSet src x die i ctl inst lrc) s fun t =>
    Replied s t src 0x0D01 [] ∧
    (t.tile die p).mule = { (s.tile die p).mule.setBrk ctl with brkInstVal := inst % 2 ^ 64, brkLrcVal := lrc % 2 ^ 64 } ∧
    (t.tile die p).mem = (s.tile die p).mem ∧ ∀ q, q ≠ p → t.tile die q = s.tile die q := by
  have hx : exec (.dbgBreakSet src x die i ctl inst lrc) s = execDbgBreakSet src x die i ctl inst lrc s := rfl
  unfold execDbgBreakSet at hx
  rw [ho.ownCommand_runs hhd (dbgChecks_pass hdebug htile), htile, Option.getD_some] at hx
  refine runs_of_exec hx ⟨Replied.of_reply rfl rfl .., ?_, ?_, fun q hq => ?_⟩
  · rw [tile_of_cds (reply_cds ..), tile_modMule, if_pos ⟨rfl, rfl⟩]
  · rw [tile_of_cds (reply_cds ..), tile_modMule, if_pos ⟨rfl, rfl⟩]
  · rw [tile_of_cds (reply_cds ..), tile_modMule, if_neg fun h => hq h.2]

/-- DBG_HALT breaks a Mule (R417). -/
theorem State.runs_dbgHalt (ho : Owner s src 0x0D04 x) (hst : (s.tile die p).mule.st = .run ∨ (s.tile die p).mule.st = .wait) :
    Runs (.dbgHalt src x die i) s fun t => Replied s t src 0x0D04 (leBytes 8 (s.tile die p).mule.pc.toNat) ∧
      (t.tile die p).mule = { (s.tile die p).mule with st := .haltBreak } ∧ ∀ q, q ≠ p → t.tile die q = s.tile die q := by
  have hx : exec (.dbgHalt src x die i) s = execDbgHalt src x die i s := rfl
  unfold execDbgHalt at hx
  dsimp only at hx
  rw [htile, Option.getD_some, ho.ownCommand_runs hhd (by
    rw [firstErr_append (dbgChecks_pass hdebug htile)]
    rcases hst with h | h <;> simp [firstErr, h])] at hx
  refine runs_of_exec hx ⟨Replied.of_reply rfl rfl .., ?_, fun q hq => ?_⟩
  · rw [tile_of_cds (reply_cds ..), tile_modTile, if_pos ⟨rfl, rfl⟩, Tile.mule_dbgStop hst]
  · rw [tile_of_cds (reply_cds ..), tile_modTile, if_neg fun h => hq h.2]

end

/-- Broken Mules that a list names go on; one that waits for nothing runs. -/
theorem State.foldl_dbgGo (l : List (Nat × Nat)) (s : State) {d p : Nat} (hwait : (s.tile d p).mem.wait = .none) (hmem : (d, p) ∈ l) :
    ((l.foldl (fun s t => s.modTile t.1 t.2 Tile.dbgGo) s).tile d p).mule = { (s.tile d p).mule with st := .run, brkSkip := true } := by
  induction l generalizing s with
  | nil => exact absurd hmem List.not_mem_nil
  | cons a l ih =>
    rw [List.foldl_cons]
    have hstep : (s.modTile a.1 a.2 Tile.dbgGo).tile d p = s.tile d p ∨
        (s.modTile a.1 a.2 Tile.dbgGo).tile d p = (s.tile d p).dbgGo := by
      rw [tile_modTile]
      split
      case isTrue h => rw [h.1, h.2]; exact .inr rfl
      case isFalse => exact .inl rfl
    have hwait' : ((s.modTile a.1 a.2 Tile.dbgGo).tile d p).mem.wait = .none := by
      rcases hstep with h | h <;> rw [h]
      · exact hwait
      · exact hwait
    by_cases hl : (d, p) ∈ l
    · rw [ih _ hwait' hl]
      rcases hstep with h | h <;> rw [h]
      rw [Tile.mule_dbgGo hwait]
    · obtain rfl : (d, p) = a := (List.mem_cons.mp hmem).resolve_right hl
      have hrest (l : List (Nat × Nat)) (u : State) (hl : (d, p) ∉ l) :
          (l.foldl (fun s t => s.modTile t.1 t.2 Tile.dbgGo) u).tile d p = u.tile d p := by
        induction l generalizing u with
        | nil => rfl
        | cons b l ih =>
          rw [List.foldl_cons, ih _ fun h => hl (List.mem_cons_of_mem _ h), tile_modTile, if_neg]
          rintro ⟨h1, h2⟩
          exact hl (by rw [h1, h2]; exact List.mem_cons_self)
      rw [hrest l _ hl, tile_modTile, if_pos ⟨rfl, rfl⟩, Tile.mule_dbgGo hwait]

section
variable {s : State} {x die i p : Nat} (hdebug : (s.cx x).debug = true) (htile : s.loadedTile x die i = some p)
variable {src : Src} (hhd : s.svc.hdIn = true) (hst : (s.tile die p).mule.st = .haltBreak) (hwait : (s.tile die p).mem.wait = .none)
include hdebug htile hhd hst hwait

/-- DBG_RESUME lets the broken Mules go on (R417). -/
theorem State.runs_dbgResume {mask : Nat} (ho : Owner s src 0x0D02 x) (hmask : bit mask die = true) : Runs (.dbgResume src x mask) s fun t =>
    Replied s t src 0x0D02 (leBytes 2 (s.inBreak x mask).length) ∧
      (t.tile die p).mule = { (s.tile die p).mule with st := .run, brkSkip := true } := by
  obtain ⟨-, -, hctx⟩ := loadedTile_spec htile
  have hmem : (die, p) ∈ s.inBreak x mask := by
    refine List.mem_map.mpr ⟨(die, p, s.tile die p), List.mem_filter.mpr ⟨mem_allTiles hctx, ?_⟩, rfl⟩
    simp [hmask, hctx, hst]
  have hx : exec (.dbgResume src x mask) s = execDbgResume src x mask s := rfl
  unfold execDbgResume at hx
  dsimp only at hx
  rw [ho.ownCommand_runs hhd (by simp [firstErr, hdebug, List.ne_nil_of_mem hmem])] at hx
  have hgo := s.foldl_dbgGo (s.inBreak x mask) hwait hmem
  have honly : (s.inBreak x mask).foldl (fun s t => s.modTile t.1 t.2 Tile.dbgGo) s =
      { s with cds := ((s.inBreak x mask).foldl (fun s t => s.modTile t.1 t.2 Tile.dbgGo) s).cds } :=
    State.foldl_only (R := fun s t : State => t = { s with cds := t.cds }) (fun _ => rfl)
      (fun s t u h h' => by rw [h', h]) (fun _ _ => rfl) _ s
  generalize (s.inBreak x mask).foldl (fun s t => s.modTile t.1 t.2 Tile.dbgGo) s = u at *
  refine runs_of_exec hx ⟨?_, ?_⟩
  · refine Replied.of_reply ?_ ?_ ..
    · rw [honly]
      rfl
    · rw [honly]
  · rw [tile_of_cds (reply_cds ..), hgo]

end

end Sys2Proof.Machine

namespace Sys2Proof.Machine

/-! DBG_STEP (R417). -/

/-- The word of ADDI with a non-negative immediate. -/
def addiWord (imm rs rd : Nat) : Nat := imm * 2 ^ 20 + rs * 2 ^ 15 + rd * 2 ^ 7 + 0x13

theorem sext12_of_lt {imm : Nat} (himm : imm < 2048) : sext 12 imm = BitVec.ofNat 64 imm := by
  have hmod : (imm : Int) % 2 ^ 12 = imm := by omega
  rw [sext, sx, if_pos (by omega), hmod, BitVec.ofInt_natCast]

/-- ADDI adds its immediate to a register (R73). -/
theorem muleEff_of_addi (x : Nat → Word) (pc : Word) {w : Nat} (hop : bits w 6 0 = 0x13) (hf3 : bits w 14 12 = 0) :
    muleEff x pc w = .write (bits w 11 7) (x (bits w 19 15) + sext 12 (bits w 31 20)) 1 := by
  simp only [muleEff, hop, hf3, rvOpI]

section
variable {imm rs rd : Nat} (himm : imm < 2048) (hrs : rs < 32) (hrd : rd < 32)
include himm hrs hrd

theorem addiWord_fields : bits (addiWord imm rs rd) 6 0 = 0x13 ∧ bits (addiWord imm rs rd) 11 7 = rd ∧
    bits (addiWord imm rs rd) 14 12 = 0 ∧ bits (addiWord imm rs rd) 19 15 = rs ∧ bits (addiWord imm rs rd) 31 20 = imm := by
  unfold addiWord
  simp only [bits, Nat.shiftRight_eq_div_pow]
  refine ⟨?_, ?_, ?_, ?_, ?_⟩ <;> omega

theorem muleEff_addi (x : Nat → Word) (pc : Word) : muleEff x pc (addiWord imm rs rd) = .write rd (x rs + BitVec.ofNat 64 imm) 1 := by
  obtain ⟨hop, hfrd, hf3, hfrs, hfimm⟩ := addiWord_fields himm hrs hrd
  rw [muleEff_of_addi x pc hop hf3, hfrd, hfrs, hfimm, sext12_of_lt himm]

end

/-- A step of a Mule whose next instruction is an ordinary one that writes a register (R417). -/
theorem State.stepInsn_write {s : State} {d : CdId} {p : PTile} {w len rd c : Nat} {v : Word} (hready : Ready s d p none)
    (hfetch : fetch (s.tile d p) (s.cd d).rs.mem = .ok (w, len))
    (heff : muleEff (s.tile d p).mule.x (s.tile d p).mule.pc w = .write rd v c) :
    s.stepInsn d p = .next (s.retire d p rd v ((s.tile d p).mule.pc + BitVec.ofNat 64 len) c) := by
  obtain ⟨hwrite, -⟩ := ordinaryInstructionsRetire d p s w len hready hfetch
  have hexec : execMuleInstruction d p s = exec (.muleInstruction d p) s := rfl
  rw [← hwrite rd v c heff, ← hexec]
  unfold stepInsn
  dsimp only
  rw [hfetch]
  dsimp only
  rw [heff]

section
variable {s : State} {x die i p : Nat} (hdebug : (s.cx x).debug = true) (htile : s.loadedTile x die i = some p)
variable {src : Src} (hhd : s.svc.hdIn = true) (hst : (s.tile die p).mule.st = .haltBreak) (hwait : (s.tile die p).mem.wait = .none)
include hdebug htile hhd hst hwait

/-- DBG_STEP over an ADDI (R417). -/
theorem State.runs_dbgStep {imm rd rs : Nat} (ho : Owner s src 0x0D03 x)
    (hfetch : fetch (s.tile die p) (s.cd die).rs.mem = .ok (addiWord imm rs rd, 4)) (himm : imm < 2048) (hrs : rs < 32) (hrd : rd < 32)
    (hpos : 0 < rd) : Runs (.dbgStep src x die i) s fun t => (t.tile die p).mule.st = .haltBreak ∧
      (t.tile die p).mule.pc = (s.tile die p).mule.pc + 4 ∧
      (t.tile die p).mule.x rd = (s.tile die p).mule.x rs + BitVec.ofNat 64 imm ∧
      RepliedLast s t src 0x0D03 (leBytes 8 ((s.tile die p).mule.pc + 4).toNat) := by
  obtain ⟨hdie, hp, hctx⟩ := loadedTile_spec htile
  have hx : exec (.dbgStep src x die i) s = execDbgStep src x die i s := rfl
  unfold execDbgStep at hx
  dsimp only at hx
  rw [htile, Option.getD_some, ho.ownCommand_runs hhd (by
    rw [firstErr_append (dbgChecks_pass hdebug htile)]
    simp [firstErr, hst])] at hx
  obtain ⟨d, hd⟩ : ∃ d : CdId, d.val = die := ⟨⟨die, hdie⟩, rfl⟩
  obtain ⟨q, hq⟩ : ∃ q : PTile, q.val = p := ⟨⟨p, hp⟩, rfl⟩
  have hdo : Fin.ofNat 16 die = d := Fin.ext ((Nat.mod_eq_of_lt hdie).trans hd.symm)
  have hqo : Fin.ofNat 5 p = q := Fin.ext ((Nat.mod_eq_of_lt hp).trans hq.symm)
  obtain ⟨u, hu⟩ : ∃ u, u = s.modTile die p Tile.dbgGo := ⟨_, rfl⟩
  have hutile : u.tile die p = (s.tile die p).dbgGo := by
    rw [hu, tile_modTile, if_pos ⟨rfl, rfl⟩]
  have humule : (u.tile die p).mule = { (s.tile die p).mule with st := .run, brkSkip := true } := by
    rw [hutile, Tile.mule_dbgGo hwait]
  have hurs : (u.cd die).rs = (s.cd die).rs := by
    rw [hu, modTile, cd_modCd, if_pos rfl]
  have huft : u.ft = s.ft := by rw [hu]; rfl
  have hready : Ready u d q none := by
    rw [Ready, hd, hq, humule]
    exact ⟨rfl, by simp [Mule.breakDue]⟩
  have hstep : u.stepInsn d q = .next (u.retire d q rd ((s.tile die p).mule.x rs + BitVec.ofNat 64 imm)
      ((s.tile die p).mule.pc + 4) 1) := by
    have h := stepInsn_write hready (w := addiWord imm rs rd) (len := 4) (rd := rd) (c := 1)
      (v := (s.tile die p).mule.x rs + BitVec.ofNat 64 imm) (by rw [hd, hq, hutile, hurs, fetch_dbgGo, hfetch]) (by
        rw [hd, hq, humule]
        exact muleEff_addi himm hrs hrd _ _)
    rw [h, hd, hq, humule]
    rfl
  obtain ⟨v, hv⟩ : ∃ v, v = u.retire die p rd ((s.tile die p).mule.x rs + BitVec.ofNat 64 imm) ((s.tile die p).mule.pc + 4) 1 := ⟨_, rfl⟩
  have hafter : (if (u.tile die p).mule.st = .run then (u.stepInsn (Fin.ofNat 16 die) (Fin.ofNat 5 p)).state u else u) = v := by
    rw [hdo, hqo, if_pos (by rw [humule]), hstep, hd, hq, hv, Out.state]
  rw [← hu, hafter] at hx
  have hvmule : (v.tile die p).mule = (u.tile die p).mule.retire rd ((s.tile die p).mule.x rs + BitVec.ofNat 64 imm)
      ((s.tile die p).mule.pc + 4) 1 := by
    rw [hv, mule_retire]
  have hvft : v.ft = s.ft := by rw [hv]; exact huft
  have hvst : (v.tile die p).mule.st = .run := by rw [hvmule, Mule.retire_st, humule]
  have hvx : (v.tile die p).mule.x rd = (s.tile die p).mule.x rs + BitVec.ofNat 64 imm := by
    rw [hvmule, Mule.x_retire, if_pos ⟨rfl, by omega⟩]
  have hvpc : (v.tile die p).mule.pc = (s.tile die p).mule.pc + 4 := by rw [hvmule, Mule.retire_pc]
  have hstop : ((v.modTile die p Tile.dbgStop).tile die p).mule = { (v.tile die p).mule with st := .haltBreak } := by
    rw [tile_modTile, if_pos ⟨rfl, rfl⟩, Tile.mule_dbgStop (.inl hvst)]
  rw [hstop] at hx
  refine runs_of_exec hx ⟨?_, ?_, ?_, ?_⟩
  · rw [tile_of_cds (reply_cds ..), hstop]
  · rw [tile_of_cds (reply_cds ..), hstop]
    exact hvpc
  · rw [tile_of_cds (reply_cds ..), hstop]
    exact hvx
  · dsimp only
    rw [hvpc]
    refine RepliedLast.of_reply ?_ ..
    exact now_of_ft hvft

end

/-- Settles O51: UNIT_DISABLE and UNIT_ENABLE stop a unit and take it back; the debug commands set breaks, break, resume and step a Mule. -/
theorem unitsStopAndMulesBreak : Obligations.UnitsStopAndMulesBreak := by
  unfold Obligations.UnitsStopAndMulesBreak
  intro src s hhd
  refine ⟨?_, ?_, ?_⟩
  · intro die kind index mode ha hdie hin hnamed hmode
    refine ⟨fun hst => ?_, fun hdis hst hquiet => ?_, fun hdis hst hbusy => ?_, fun hdis hkind hst => ?_⟩
    · exact State.runs_unitDisable_again hhd hdie hin hnamed ha hmode hst
    · exact State.runs_unitDisable_quiet hhd hdie hin hnamed ha hdis hst hquiet
    · exact State.runs_unitDisable_busy hhd hdie hin hnamed ha hdis hst hbusy
    · exact State.runs_unitDisable_abort hhd hdie hin ha hdis hst hkind hnamed
  · intro die kind index ha hdie hin hnamed hst
    exact State.runs_unitEnable hhd hdie hin hnamed ha hst
  · intro x die i p hdebug htile m
    refine ⟨fun ctl inst lrc ho => ?_, fun ho hst => ?_, fun mask ho hmask hst hwait => ?_,
      fun imm rd rs ho hst hwait hfetch himm hrs hrd hpos => ?_⟩
    · exact State.runs_dbgBreakSet hdebug htile hhd ctl inst lrc ho
    · exact State.runs_dbgHalt hdebug htile hhd ho hst
    · exact State.runs_dbgResume hdebug htile hhd hst hwait ho hmask
    · exact State.runs_dbgStep hdebug htile hhd hst hwait ho hfetch himm hrs hrd hpos

end Sys2Proof.Machine

namespace Sys2Proof.Machine

/-! The state address space (R9, R10, R422 to R431). -/

/-- Die, unit and offset of a state address (R12, R422). -/
theorem stAddr {d u o : Nat} (hd : d < 64) (hu : u < 64) (ho : o < 2 ^ 36) : stDie (d * 2 ^ 42 + u * 2 ^ 36 + o) = d ∧
    stUnit (d * 2 ^ 42 + u * 2 ^ 36 + o) = u ∧ stOff (d * 2 ^ 42 + u * 2 ^ 36 + o) = o := by
  simp only [stDie, stUnit, stOff, bits, Nat.shiftRight_eq_div_pow]
  refine ⟨?_, ?_, ?_⟩ <;> omega

/-- A word of a mapped unit on a die in service is in range (R424). -/
theorem State.stRange_word {s : State} {d u o : Nat} (hd : d < 25) (hu : u < 64) (ho : o + 8 ≤ 2 ^ 36) (hmap : (unitsOf d).contains u = true)
    (hin : s.dieIn d = true) : s.stRange (d * 2 ^ 42 + u * 2 ^ 36 + o) 8 8 false = false := by
  obtain ⟨hdie, hunit, hoff⟩ := stAddr (d := d) (u := u) (o := o) (by omega) hu (by omega)
  have hlt : d * 2 ^ 42 + u * 2 ^ 36 + o < 2 ^ 48 := by omega
  have hfits : ¬(8 = 0 ∨ 8 < 8 ∨ 2 ^ 36 < o + 8) := by omega
  unfold stRange stMapped
  dsimp only
  rw [hdie, hunit, hoff, hin, hmap, decide_eq_true (⟨hlt, hd⟩ : _ ∧ _), decide_eq_false hfits]
  rfl

/-- A direct write of a word of a mapped unit on a die in service (R9). -/
theorem exec_registerWrite {s : State} {d u o : Nat} (v : Word) (hd : d < 25) (hu : u < 64) (ho : o + 8 ≤ 2 ^ 36) (halign : o % 8 = 0)
    (hmap : (unitsOf d).contains u = true) (hin : s.dieIn d = true) :
    exec (.registerWrite (d * 2 ^ 42 + u * 2 ^ 36 + o) v) s = wrote s (s.unitWrite d u o v.toNat) := by
  obtain ⟨hdie, hunit, hoff⟩ := stAddr (d := d) (u := u) (o := o) (by omega) hu (by omega)
  have hx : exec (.registerWrite (d * 2 ^ 42 + u * 2 ^ 36 + o) v) s = execRegisterWrite (d * 2 ^ 42 + u * 2 ^ 36 + o) v s := rfl
  have hrange := State.stRange_word (s := s) hd hu ho hmap hin
  unfold execRegisterWrite at hx
  rw [hrange, if_neg (by simp only [Bool.false_eq_true, or_false]; omega), State.stWrite, hdie, hunit, hoff] at hx
  exact hx

/-- A direct write that its unit refuses changes nothing (R9). -/
theorem exec_registerWrite_refused {s : State} {d u o : Nat} {e : Err} (v : Word) (hd : d < 64) (hu : u < 64) (ho : o < 2 ^ 36)
    (herr : s.unitWrite d u o v.toNat = .error e) : exec (.registerWrite (d * 2 ^ 42 + u * 2 ^ 36 + o) v) s = .next s := by
  obtain ⟨hdie, hunit, hoff⟩ := stAddr hd hu ho
  have hx : exec (.registerWrite (d * 2 ^ 42 + u * 2 ^ 36 + o) v) s = execRegisterWrite (d * 2 ^ 42 + u * 2 ^ 36 + o) v s := rfl
  unfold execRegisterWrite at hx
  rw [State.stWrite, hdie, hunit, hoff, herr] at hx
  split at hx
  · exact hx
  · exact hx

/-- A write of the break count of a Mule (R77, R92). -/
theorem unitWrite_brkInst (s : State) (d : CdId) (p : PTile) (v : Nat) : s.unitWrite d (8 + p.val) 0x50 v =
    if (s.tile d p).mule.st = .idle ∨ (s.tile d p).mule.st = .haltFault ∨ (s.tile d p).mule.st = .haltBreak ∨ (s.tile d p).mule.st = .saved
    then .ok (s.modMule d p fun m => { m with brkInstVal := v }) else .error .busy := by
  have hp : 8 + p.val - 8 = p.val := by omega
  unfold State.unitWrite State.cdWrite State.muleWrite
  rw [if_neg (by omega), if_pos (by omega), if_neg (by omega), if_neg (by omega), if_pos (by omega), hp]
  dsimp only
  rw [if_neg (by omega), if_neg (by omega), if_pos rfl]

/-- The MAC address of an Ethernet port reads as it stands (R394). -/
theorem State.stWord_mac (s : State) (k : EthPort) (h : (s.eth k).mac < 2 ^ 48) :
    s.stWord (23 * 2 ^ 42 + (0x10 + k.val) * 2 ^ 36 + 0x10) = (s.eth k).mac := by
  obtain ⟨hdie, hunit, hoff⟩ := stAddr (d := 23) (u := 0x10 + k.val) (o := 0x10) (by omega) (by omega) (by omega)
  have hk : 0x10 + k.val - 0x10 = k.val := by omega
  have hword : s.ethWord k 0x10 = (s.eth k).mac := by
    unfold ethWord tabAt
    dsimp only
    rw [if_pos (by omega), firstWord]
    have hreg : (s.eth k).reg k s.now 2 = (s.eth k).mac := rfl
    rw [show (0x10 - 0) / 8 = 2 from rfl, hreg, fld, show (0x10 - 0) % 8 = 0 from rfl, List.drop_zero,
      List.take_of_length_le (by rw [leBytes_length]), leNat_leBytes _ _ (by omega)]
  unfold stWord unitWord hdWord
  rw [hdie, hunit, hoff, if_neg (by omega), if_neg (by omega), if_neg (by omega), if_neg (by omega), if_pos rfl, if_neg (by omega),
    if_neg (by omega), if_neg (by omega), if_neg (by omega), if_neg (by omega), if_neg (by omega), hk, hword]

section
variable {s : State}

/-- A direct write of a port's MAC address changes it alone (R9, R394). -/
theorem runs_registerWrite_mac (k : EthPort) (v : Word) (hhd : s.svc.hdIn = true) :
    Runs (.registerWrite (23 * 2 ^ 42 + (0x10 + k.val) * 2 ^ 36 + 0x10) v) s fun t => t = { s with eths := t.eths } ∧
      t.eth k = { s.eth k with mac := v.toNat % 2 ^ 48 } ∧ (∀ j : Nat, j ≠ k.val → t.eth j = s.eth j) ∧
      t.stWord (23 * 2 ^ 42 + (0x10 + k.val) * 2 ^ 36 + 0x10) = v.toNat % 2 ^ 48 := by
  have hmap : ∀ k : EthPort, (unitsOf 23).contains (0x10 + k.val) = true := by decide
  have hx := exec_registerWrite (s := s) (d := 23) (u := 0x10 + k.val) (o := 0x10) v (by omega) (by omega) (by omega) (by omega) (hmap k) hhd
  have hw : s.unitWrite 23 (0x10 + k.val) 0x10 v.toNat = .ok (s.modEth k fun e => { e with mac := bits v.toNat 47 0 }) := by
    have hk : 0x10 + k.val - 0x10 = k.val := by omega
    unfold State.unitWrite State.hdWrite State.ethWrite
    rw [if_neg (by omega), if_neg (by omega), if_neg (by omega), if_neg (by omega), if_pos rfl, if_neg (by omega), if_neg (by omega),
      if_neg (by omega), if_neg (by omega), if_neg (by omega), hk]
    dsimp only
    rw [if_neg (by omega), if_pos rfl]
  have hmac : bits v.toNat 47 0 = v.toNat % 2 ^ 48 := by
    simp only [bits, Nat.shiftRight_zero]
  rw [hw, hmac] at hx
  have heth (j : Nat) : (s.modEth k fun e => { e with mac := v.toNat % 2 ^ 48 }).eth j =
      if j = k.val then { s.eth k with mac := v.toNat % 2 ^ 48 } else s.eth j := State.eth_modEth ..
  refine runs_of_exec hx ⟨rfl, ?_, fun j hj => ?_, ?_⟩
  · rw [heth, if_pos rfl]
  · rw [heth, if_neg hj]
  · rw [State.stWord_mac _ k (by rw [heth, if_pos rfl]; exact Nat.mod_lt _ (by omega)), heth, if_pos rfl]

/-- A direct write of the break count of a Mule that does not run (R77, R92). -/
theorem runs_registerWrite_brkInst (d : CdId) (p : PTile) (v : Word) (hin : s.dieIn d = true)
    (hst : (s.tile d p).mule.st = .idle ∨ (s.tile d p).mule.st = .haltBreak) :
    Runs (.registerWrite (d.val * 2 ^ 42 + (8 + p.val) * 2 ^ 36 + 0x50) v) s fun t =>
      OnlyTile s t d p ∧ t.tile d p = { s.tile d p with mule := { (s.tile d p).mule with brkInstVal := v.toNat } } := by
  have hmap : (unitsOf d).contains (8 + p.val) = true := by
    have hunits : ∀ p : PTile, (unitsOf 0).contains (8 + p.val) = true := by decide
    have hd : unitsOf d = unitsOf 0 := by
      unfold unitsOf
      rw [if_pos (by omega), if_pos (by omega)]
    rw [hd]
    exact hunits p
  have hx := exec_registerWrite (s := s) (d := d) (u := 8 + p.val) (o := 0x50) v (by omega) (by omega) (by omega) (by omega) hmap hin
  have hst' : (s.tile d p).mule.st = .idle ∨ (s.tile d p).mule.st = .haltFault ∨ (s.tile d p).mule.st = .haltBreak ∨
      (s.tile d p).mule.st = .saved := hst.elim .inl fun h => .inr (.inr (.inl h))
  rw [unitWrite_brkInst, if_pos hst'] at hx
  refine runs_of_exec hx ⟨s.onlyTile_modMule .., ?_⟩
  rw [State.tile_modMule, if_pos ⟨rfl, rfl⟩]

/-- A running Mule refuses a write of its break count (R77). -/
theorem exec_registerWrite_running (d : CdId) (p : PTile) (v : Word) (hst : (s.tile d p).mule.st = .run) :
    exec (.registerWrite (d.val * 2 ^ 42 + (8 + p.val) * 2 ^ 36 + 0x50) v) s = .next s := by
  refine exec_registerWrite_refused (e := .busy) v (by omega) (by omega) (by omega) ?_
  rw [unitWrite_brkInst, if_neg (by rw [hst]; decide)]

/-- The DMA engines' registers are read only (R9). -/
theorem exec_registerWrite_dma (d : CdId) (v : Word) : exec (.registerWrite (d.val * 2 ^ 42 + 0x26 * 2 ^ 36) v) s = .next s := by
  have h : s.unitWrite d 0x26 0 v.toNat = .error .denied := by
    unfold State.unitWrite State.cdWrite
    rw [if_neg (by omega), if_pos (by omega), if_neg (by omega), if_neg (by omega), if_neg (by omega), if_neg (by omega), if_neg (by omega),
      if_neg (by omega), if_neg (by omega), if_neg (by omega), if_pos rfl]
  have hx := exec_registerWrite_refused (o := 0) v (by omega) (by omega) (by omega) h
  rwa [Nat.add_zero] at hx

end

end Sys2Proof.Machine

namespace Sys2Proof.Machine

/-! The readback commands and STATE_WRITE (R412, R423 to R431). -/

theorem ctx_bytes_length (c : Ctx) : c.bytes.length = 64 := by
  simp only [Ctx.bytes, List.length_append, leBytes_length, List.length_cons, List.length_nil]

theorem rec_bytes_length (r : Rec) : r.bytes.length = 128 := by
  unfold Rec.bytes
  repeat rw [List.length_append]
  repeat rw [leBytes_length]
  rfl

section
variable {s : State} {src : Src}

theorem runs_devInfo (hport : s.portAdmits src 0x0101 = true) : Runs (.devInfo src) s fun t => OnlyReply s t ∧ Replied s t src 0x0101
    (((List.range 25).flatMap fun d => leBytes 8 (s.dieId d) ++ leBytes 8 (dieUnits d)) ++ leBytes 8 s.kdService ++ leBytes 8 s.now ++
      leBytes 4 s.node ++ [BitVec.ofNat 8 (s.pins.member % 4), 0, 0, 0] ++ leBytes 4 s.boot.version ++ leBytes 4 s.boot.version) := by
  have hx : exec (.devInfo src) s = execDevInfo src s := rfl
  unfold execDevInfo at hx
  rw [State.command_runs hport rfl rfl rfl] at hx
  exact runs_of_exec hx ⟨OnlyReply.of_reply .., Replied.of_reply rfl rfl ..⟩

theorem runs_devCaps (hport : s.portAdmits src 0x0102 = true) : Runs (.devCaps src) s fun t => OnlyReply s t ∧ Replied s t src 0x0102
    ((((List.range 16).flatMap fun d => (s.caps d).take 2) ++ ((List.range 16).flatMap fun d => (s.caps d).drop 2) ++ s.caps 16 ++
      (List.range 6).flatMap fun m => s.caps (17 + m)).flatMap fun w => leBytes 8 w) := by
  have hx : exec (.devCaps src) s = execDevCaps src s := rfl
  unfold execDevCaps at hx
  rw [State.command_runs hport rfl rfl rfl] at hx
  exact runs_of_exec hx ⟨OnlyReply.of_reply .., Replied.of_reply rfl rfl ..⟩

theorem runs_collList {first : Nat} (hport : s.portAdmits src 0x0A08 = true) (hhub : s.svc.hubIn = true) (hfirst : first < 1024) :
    Runs (.collList src first) s fun t => OnlyReply s t ∧ Replied s t src 0x0A08
      (((s.ox.binds.filter fun b => decide (first ≤ b.1 ∧ b.2.st ≠ .free)).take 500).flatMap fun b =>
        leBytes 2 b.1 ++ [BitVec.ofNat 8 b.2.st.code, BitVec.ofNat 8 b.2.place] ++ leBytes 4 b.2.collId) := by
  have hx : exec (.collList src first) s = execCollList src first s := rfl
  unfold execCollList at hx
  rw [State.command_runs hport rfl rfl (by simp [firstErr, hhub]; omega)] at hx
  exact runs_of_exec hx ⟨OnlyReply.of_reply .., Replied.of_reply rfl rfl ..⟩

/-- COLL_LINES_READ of lines that can be read (R431). -/
theorem runs_collLinesRead {x coll first count b : Nat} (hport : s.portAdmits src 0x0A05 = true) (hctx : src.context = x)
    (hhub : s.svc.hubIn = true) (hheld : s.collHeld coll = some b) (hpos : 0 < count) (hcount : count < 6) (hmine : (s.bind b).ctx = x)
    (hst : (s.bind b).st = .done ∨ (s.bind b).st = .aborted) (hread : ∀ l, first ≤ l → l < first + count → s.lineRead b l ≠ none) :
    Runs (.collLinesRead src x coll first count none) s fun t => OnlyReply s t ∧
      Replied s t src 0x0A05 ((List.range count).flatMap fun i => leBytes 4 (first + i) ++
        [BitVec.ofNat 8 (s.lineState b (first + i)), 0, 0, 0] ++ (s.lineRead b (first + i)).getD []) := by
  have hx : exec (.collLinesRead src x coll first count none) s = execCollLinesRead src x coll first count none s := rfl
  unfold execCollLinesRead at hx
  dsimp only at hx
  rw [hheld, Option.getD_some, State.command_runs hport rfl (decide_eq_true hctx) (by
    refine firstErr_none fun c hc => ?_
    simp only [List.mem_cons, List.not_mem_nil, or_false] at hc
    rcases hc with rfl | rfl | rfl
    · simp [hhub]; omega
    · simp [hmine]
    · rcases hst with h | h <;> simp [h])] at hx
  have hfind : List.find? (fun l => (s.lineRead b l).isNone)
      (((List.range count).map (first + ·)).filter fun l => decide (s.lineState b l = 1)) = none := by
    refine List.find?_eq_none.mpr fun l hl => ?_
    obtain ⟨i, hi, rfl⟩ := List.mem_map.mp (List.mem_of_mem_filter hl)
    have hi := List.mem_range.mp hi
    rw [Option.isNone_iff_eq_none]
    exact hread _ (by omega) (by omega)
  rw [hfind] at hx
  have hnone : (if (s.bind b).place = 2 then none else (none : Option Nat).bind fun bank =>
      (((List.range count).map (first + ·)).filter fun l => decide (s.lineState b l = 1)).head?.map fun l => (l, bank)) = none := by
    split <;> rfl
  rw [hnone] at hx
  dsimp only at hx
  rw [List.flatMap_map] at hx
  exact runs_of_exec hx ⟨OnlyReply.of_reply .., Replied.of_reply rfl rfl ..⟩

variable (hhd : s.svc.hdIn = true)
include hhd

/-- STATE_READ answers the words of its range (R424, R429). -/
theorem runs_stateRead {a len : Nat} (hport : s.portAdmits src 0x0A01 = true) (hchecks : firstErr (s.readChecks a len) = none) :
    Runs (.stateRead src a len) s fun t => OnlyReply s t ∧
      Replied s t src 0x0A01 ((List.range (len / 8)).flatMap fun i => leBytes 8 (s.stWord (a + 8 * i))) := by
  have hx : exec (.stateRead src a len) s = execStateRead src a len s := rfl
  unfold execStateRead at hx
  rw [State.command_runs hport rfl rfl (by rw [firstErr, hhd]; exact hchecks)] at hx
  exact runs_of_exec hx ⟨OnlyReply.of_reply .., Replied.of_reply rfl rfl ..⟩

section
variable {a : Nat} {data : List Byte} (ha : Admin s src 0x0A02) (halign : a % 8 = 0) (hlen : data.length % 8 = 0)
  (hrange : s.stRange a data.length 256 false = false)
include ha halign hlen hrange

omit ha in
/-- The checks of STATE_WRITE, up to its words' own (R429). -/
theorem firstErr_stateWrite (e : Err) : firstErr [(!s.svc.hdIn, .range), (decide (data.length ≠ data.length), .badarg),
    (decide (a % 8 ≠ 0 ∨ data.length % 8 ≠ 0), .align), (s.stRange a data.length 256 false, .range), (decide (e ≠ Err.ok), e)] =
      if e = .ok then none else some e := by
  simp [firstErr, hhd, halign, hlen, hrange]

theorem runs_stateWrite {u : State} (herr : s.wordsErr (stWords a data) = .ok) (hwrite : s.writeWords (stWords a data) = .ok u) :
    Runs (.stateWrite src a data.length data) s fun t => t = u.reply src 0x0A02 .ok [] := by
  have hx : exec (.stateWrite src a data.length data) s = execStateWrite src a data.length data s := rfl
  unfold execStateWrite at hx
  dsimp only at hx
  rw [herr, State.command_runs ha.port ha.admin rfl (firstErr_stateWrite hhd halign hlen hrange .ok), hwrite] at hx
  exact runs_of_exec hx rfl

/-- A refused STATE_WRITE changes nothing (R429). -/
theorem runs_stateWrite_refused {e : Err} (herr : s.wordsErr (stWords a data) = e) (hne : e ≠ .ok) :
    Runs (.stateWrite src a data.length data) s fun t =>
      OnlyReply s t ∧ t.out = answer s src 0x0A02 e [] :: s.out ∧ t.cds = s.cds ∧ t.hbm = s.hbm := by
  have hx : exec (.stateWrite src a data.length data) s = execStateWrite src a data.length data s := rfl
  unfold execStateWrite at hx
  dsimp only at hx
  rw [herr, State.command_fails ha.port ha.admin rfl ((firstErr_stateWrite hhd halign hlen hrange e).trans (if_neg hne))] at hx
  refine runs_of_exec hx ⟨OnlyReply.of_reply .., ?_, State.reply_cds .., State.reply_hbm ..⟩
  exact State.out_reply_error ..

end

/-- STATE_SNAP answers every range from one instant (R429). -/
theorem runs_stateSnap {ranges : List (Nat × Nat)} (hport : s.portAdmits src 0x0A03 = true) (hne : ranges ≠ []) (hcount : ranges.length ≤ 16)
    (hsum : (ranges.map (·.2)).sum ≤ 512) (hdie : ∀ r ∈ ranges, ∀ q ∈ ranges, stDie r.1 = stDie q.1)
    (hchecks : ∀ r ∈ ranges, firstErr (s.readChecks r.1 r.2) = none) : Runs (.stateSnap src ranges.length ranges) s fun t => OnlyReply s t ∧
      Replied s t src 0x0A03 (leBytes 8 s.now ++ ranges.flatMap fun r => s.stBytes r.1 r.2) := by
  have hx : exec (.stateSnap src ranges.length ranges) s = execStateSnap src ranges.length ranges s := rfl
  have hall : firstErr (ranges.flatMap fun r => s.readChecks r.1 r.2) = none := by
    clear hne hcount hsum hdie hx
    induction ranges with
    | nil => rfl
    | cons r l ih =>
      rw [List.flatMap_cons, firstErr_append (hchecks r List.mem_cons_self), ih fun q hq => hchecks q (List.mem_cons_of_mem _ hq)]
  unfold execStateSnap at hx
  dsimp only at hx
  cases ranges with
  | nil => exact absurd rfl hne
  | cons r l =>
    have hone : (l.all fun q => stDie q.1 == stDie r.1) = true :=
      List.all_eq_true.mpr fun q hq => beq_iff_eq.mpr (hdie q (List.mem_cons_of_mem _ hq) r List.mem_cons_self)
    rw [State.command_runs hport rfl rfl (by
      rw [firstErr_append, hall]
      dsimp only
      rw [hone]
      refine firstErr_none fun c hc => ?_
      simp only [List.mem_cons, List.not_mem_nil, or_false] at hc
      rcases hc with rfl | rfl
      · simp [hhd]
      · simp only [List.length_cons] at hcount
        simp only [List.map_cons, List.sum_cons] at hsum
        simp
        omega)] at hx
    exact runs_of_exec hx ⟨OnlyReply.of_reply .., Replied.of_reply rfl rfl ..⟩

theorem runs_unitMap {die : Nat} (hport : s.portAdmits src 0x0A04 = true) (hdie : die < 25) : Runs (.unitMap src die) s fun t => OnlyReply s t ∧
    Replied s t src 0x0A04 ([s.dieId die, dieUnits die, (s.dieU die).resets, (s.dieU die).resetTime].flatMap fun w => leBytes 8 w) := by
  have hx : exec (.unitMap src die) s = execUnitMap src die s := rfl
  unfold execUnitMap at hx
  rw [State.command_runs hport rfl rfl (by simp [firstErr, hhd]; omega)] at hx
  exact runs_of_exec hx ⟨OnlyReply.of_reply .., Replied.of_reply rfl rfl ..⟩

/-- SAVE_READ answers the bytes of a saved tile (R412). -/
theorem runs_saveRead {x die tile buffer offset len : Nat} {v : SavedTile} {bs : List Byte} (hport : s.portAdmits src 0x0A06 = true)
    (hctx : src.context = x) (hst : (s.cx x).st = .saved)
    (hfind : List.find? (fun v => v.die == die && v.ltile == tile) (s.cxx x).saves = some v) (hbuf : buffer < 2) (hlen : len ≤ 4096)
    (hroom : offset + len ≤ (if buffer = 0 then v.len else 2 ^ 24)) (halign : offset % 8 = 0) (halign' : len % 8 = 0)
    (hread : s.devReadN (die * 2 ^ 37 + (if buffer = 0 then v.buf else v.store) + offset) len = .ok bs) :
    Runs (.saveRead src x die tile buffer offset len) s fun t => OnlyReply s t ∧ Replied s t src 0x0A06 bs := by
  have hx : exec (.saveRead src x die tile buffer offset len) s = execSaveRead src x die tile buffer offset len s := rfl
  unfold execSaveRead at hx
  dsimp only at hx
  rw [hfind, Option.getD_some, State.command_runs hport rfl (decide_eq_true hctx) (by
    refine firstErr_none fun c hc => ?_
    simp only [List.mem_cons, List.not_mem_nil, or_false] at hc
    rcases hc with rfl | rfl | rfl | rfl | rfl
    · simp [hhd]
    · simp [hst]
    · simp; omega
    · simp only [Option.isNone_some, Bool.false_or, decide_eq_false_iff_not]
      omega
    · simp [halign, halign'])] at hx
  rw [hread] at hx
  exact runs_of_exec hx ⟨OnlyReply.of_reply .., Replied.of_reply rfl rfl ..⟩

/-- CTX_VIEW answers the context and its launch record (R428). -/
theorem runs_ctxView {x : Nat} (hport : s.portAdmits src 0x0A07 = true) (hctx : src.context = x) (hst : (s.cx x).st ≠ .free) :
    Runs (.ctxView src x) s fun t => OnlyReply s t ∧ ∃ p, Replied s t src 0x0A07 p ∧ p.take 64 = (s.cx x).bytes ∧
      ((s.cx x).recIdx < 16 → (p.drop 64).take 128 = (s.lrec (s.cx x).recIdx).bytes) := by
  have hx : exec (.ctxView src x) s = execCtxView src x s := rfl
  unfold execCtxView at hx
  rw [State.command_runs hport rfl (decide_eq_true hctx) (by simp [firstErr, hhd, State.noCtx, hst])] at hx
  refine runs_of_exec hx ⟨OnlyReply.of_reply .., _, Replied.of_reply rfl rfl .., ?_, fun hrec => ?_⟩
  · simp only [List.append_assoc]
    rw [← ctx_bytes_length (s.cx x), List.take_left]
  · simp only [List.append_assoc]
    rw [← ctx_bytes_length (s.cx x), List.drop_left, if_pos hrec, ← rec_bytes_length (s.lrec (s.cx x).recIdx), List.take_left]

end

end Sys2Proof.Machine

namespace Sys2Proof.Machine

/-- Settles O52: the readback commands answer what is held and change nothing, STATE_WRITE writes its words or refuses, and a direct write
changes its register alone. -/
theorem stateIsReadAndWrittenByAddress : Obligations.StateIsReadAndWrittenByAddress := by
  unfold Obligations.StateIsReadAndWrittenByAddress
  intro src s
  refine ⟨runs_devInfo, runs_devCaps, ?_, ?_, ?_, ?_, ?_, ?_, ?_, ?_, ?_, ?_, ?_, ?_, ?_, ?_⟩
  · intro a len hhd hport hchecks
    exact runs_stateRead hhd hport hchecks
  · intro a data u hhd ha halign hlen hrange herr hwrite
    exact runs_stateWrite hhd ha halign hlen hrange herr hwrite
  · intro a data e hhd ha halign hlen hrange herr hne
    exact runs_stateWrite_refused hhd ha halign hlen hrange herr hne
  · intro ranges hhd hport hne hcount hsum hdie hchecks
    exact runs_stateSnap hhd hport hne hcount hsum hdie hchecks
  · intro die hhd hport hdie
    exact runs_unitMap hhd hport hdie
  · intro x coll first count b hport hctx hhub hheld hpos hcount hmine hst hread
    exact runs_collLinesRead hport hctx hhub hheld hpos hcount hmine hst hread
  · intro x die tile buffer offset len v bs hhd hport hctx hst hfind hbuf hlen hroom halign halign' hread
    exact runs_saveRead hhd hport hctx hst hfind hbuf hlen hroom halign halign' hread
  · intro x hhd hport hctx hst
    exact runs_ctxView hhd hport hctx hst
  · intro first hport hhub hfirst
    exact runs_collList hport hhub hfirst
  · intro k v hhd
    exact runs_registerWrite_mac k v hhd
  · intro d p v hin hst
    exact runs_registerWrite_brkInst d p v hin hst
  · intro d p v hst
    exact exec_registerWrite_running d p v hst
  · intro d v
    exact exec_registerWrite_dma d v
  · intro a v ha
    have hx : exec (.registerWrite a v) s = execRegisterWrite a v s := rfl
    rw [hx, execRegisterWrite, if_pos (.inl ha)]

end Sys2Proof.Machine

namespace Sys2Proof.Machine

/-! Monitor samples and the coolant sensors (R433, R434, R497, R502). -/

/-- What the sample of a die reads, and leaves. -/
structure State.SameSensors (s t : State) : Prop where
  ft : t.ft = s.ft
  aonNs : t.aonNs = s.aonNs
  svc : t.svc = s.svc
  cfg : t.cfg = s.cfg
  flash : t.flash = s.flash
  limit : t.health.marginLimit = s.health.marginLimit

namespace State.SameSensors

variable {s t u : State}

theorem refl (s : State) : s.SameSensors s := ⟨rfl, rfl, rfl, rfl, rfl, rfl⟩

theorem trans (h : s.SameSensors t) (h' : t.SameSensors u) : s.SameSensors u :=
  ⟨h'.ft.trans h.ft, h'.aonNs.trans h.aonNs, h'.svc.trans h.svc, h'.cfg.trans h.cfg, h'.flash.trans h.flash, h'.limit.trans h.limit⟩

theorem raise (die unit sev : Nat) (code : Err) (data : List Byte) (x : Nat) (contrib : Option Nat) (l : Nat) :
    s.SameSensors (s.raise die unit sev code data x contrib l) :=
  ⟨raise_ft .., raise_aonNs .., raise_svc .., raise_cfg .., raise_flash ..,
    (congrArg Health.marginLimit (core_raise s die unit sev code data x contrib l) :)⟩

theorem modMon (d : Nat) (f : Mon → Mon) : s.SameSensors (s.modMon d f) := ⟨rfl, rfl, rfl, rfl, rfl, rfl⟩

theorem modCd (d : Nat) (f : ComputeDie → ComputeDie) : s.SameSensors (s.modCd d f) := ⟨rfl, rfl, rfl, rfl, rfl, rfl⟩

theorem setpoint (h : s.SameSensors t) (d : Nat) : t.setpoint d = s.setpoint d := by
  unfold State.setpoint flashN
  rw [h.cfg, h.flash]

theorem dieIn (h : s.SameSensors t) (d : Nat) : t.dieIn d = s.dieIn d := by
  unfold State.dieIn
  rw [h.svc]

theorem now (h : s.SameSensors t) : t.now = s.now := now_of_ft h.ft

end State.SameSensors

theorem State.mon_modMon (s : State) (d k : Nat) (f : Mon → Mon) : (s.modMon d f).mon k = if k = d then f (s.mon d) else s.mon k := by
  unfold modMon mon
  exact tab_get_set ..

theorem State.mon_raise (s : State) (die unit sev : Nat) (code : Err) (data : List Byte) (x : Nat) (contrib : Option Nat) (l k : Nat) :
    (s.raise die unit sev code data x contrib l).mon k = s.mon k := by
  have hmons := congrArg Health.mons (core_raise s die unit sev code data x contrib l)
  exact congrArg (fun t => Tab.get {} t k) hmons

/-- Entries for a list of alarms change no sensor and no monitor. -/
theorem State.raiseEach_keeps {α : Type} (l : List α) (s : State) (die unit sev : Nat) (code : Err) (f : State → List Byte) :
    s.SameSensors (l.foldl (fun s _ => s.raise die unit sev code (f s)) s) ∧
      ∀ k, (l.foldl (fun s _ => s.raise die unit sev code (f s)) s).mon k = s.mon k :=
  ⟨State.foldl_only SameSensors.refl (fun _ _ _ => SameSensors.trans) (fun _ _ => SameSensors.raise ..) l s,
    fun k => foldl_keeps (fun s : State => s.mon k) (fun _ _ => mon_raise ..) l s⟩

/-- The alarms of a die are logged; of its entry they change when each bit was last set (R434). -/
theorem State.alarms_spec (s : State) (d old : Nat) : s.SameSensors (s.alarms d old) ∧ (∀ k, k ≠ d → (s.alarms d old).mon k = s.mon k) ∧
    (s.alarms d old).mon d = { s.mon d with lastSet := ((s.alarms d old).mon d).lastSet } := by
  unfold alarms
  dsimp only
  obtain ⟨hsame, hmon⟩ := raiseEach_keeps (risen old (s.mon d).alarm (s.mon d).lastSet s.aonNs) s d 0x02 2 .ok fun _ => ((s.mon d).bytes.take 16)
  refine ⟨hsame.trans (SameSensors.modMon ..), fun k hk => ?_, ?_⟩
  · rw [mon_modMon, if_neg hk, hmon]
  · rw [mon_modMon, if_pos rfl, hmon]

theorem State.setLevel_keeps (s : State) (n l : Nat) : s.SameSensors (s.setLevel n l) ∧ ∀ k, (s.setLevel n l).mon k = s.mon k := by
  unfold setLevel
  dsimp only
  split
  · exact ⟨((SameSensors.modCd ..).trans (SameSensors.modCd ..)).trans (SameSensors.raise ..), fun k => mon_raise ..⟩
  · split
    · exact ⟨((SameSensors.modCd ..).trans (SameSensors.modCd ..)).trans (SameSensors.raise ..), fun k => mon_raise ..⟩
    · exact ⟨SameSensors.modCd .., fun _ => rfl⟩

theorem State.sampleLevel_keeps (s : State) (n : Nat) : s.SameSensors (s.sampleLevel n) ∧ ∀ k, (s.sampleLevel n).mon k = s.mon k := by
  unfold sampleLevel
  dsimp only
  split
  · split
    · exact ⟨SameSensors.refl s, fun _ => rfl⟩
    · exact setLevel_keeps ..
  · split
    · exact setLevel_keeps ..
    · exact ⟨SameSensors.refl s, fun _ => rfl⟩

/-- The sample of a die changes the entry of that die. -/
theorem State.sampleDie_keeps (s : State) (m : List MonSample) (d : Nat) :
    s.SameSensors (s.sampleDie m d) ∧ ∀ k, k ≠ d → (s.sampleDie m d).mon k = s.mon k := by
  have hmod (f : Mon → Mon) (old : Nat) :
      s.SameSensors ((s.modMon d f).alarms d old) ∧ ∀ k, k ≠ d → ((s.modMon d f).alarms d old).mon k = s.mon k := by
    obtain ⟨hsame, hother, -⟩ := (s.modMon d f).alarms_spec d old
    refine ⟨(SameSensors.modMon d f).trans hsame, fun k hk => ?_⟩
    rw [hother k hk, mon_modMon, if_neg hk]
  unfold sampleDie
  dsimp only
  split
  · split
    · obtain ⟨hsame, hother⟩ := hmod _ _
      obtain ⟨hsame', hmon⟩ := sampleLevel_keeps _ d
      exact ⟨hsame.trans hsame', fun k hk => (hmon k).trans (hother k hk)⟩
    · exact hmod _ _
  · exact hmod _ _

theorem State.mon_sampleDies_other {m : List MonSample} {d : Nat} (l : List Nat) (s : State) (h : d ∉ l) :
    (l.foldl (fun s d => s.sampleDie m d) s).mon d = s.mon d := by
  induction l generalizing s with
  | nil => rfl
  | cons a l ih =>
    obtain ⟨hda, hdl⟩ := not_or.mp (mt List.mem_cons.mpr h)
    rw [List.foldl_cons, ih _ hdl, (sampleDie_keeps ..).2 d hda]

section
variable {m : List MonSample} {d : Nat} {q : MonSample} (hq : (m.find? fun q : MonSample => q.die.val == d) = some q)
include hq

/-- The sample of a die in service fills its entry (R433). -/
theorem State.mon_sampleDie {s : State} (hin : s.dieIn d = true) : (s.sampleDie m d).mon d =
    { (s.mon d).sample q (s.setpoint d) s.health.marginLimit s.now s.aonNs with lastSet := ((s.sampleDie m d).mon d).lastSet } := by
  have hmod (f : Mon → Mon) (old : Nat) : ((s.modMon d f).alarms d old).mon d =
      { f (s.mon d) with lastSet := (((s.modMon d f).alarms d old).mon d).lastSet } := by
    obtain ⟨-, -, hself⟩ := (s.modMon d f).alarms_spec d old
    rw [hself, mon_modMon, if_pos rfl]
  unfold sampleDie
  dsimp only
  rw [hin, if_pos rfl, hq]
  dsimp only
  split
  · rw [(sampleLevel_keeps _ d).2]
    exact hmod _ _
  · exact hmod _ _

/-- A round of samples takes each die once (R433). -/
theorem State.mon_sampleDies {s : State} (l : List Nat) (hl : l.Nodup) (hmem : d ∈ l) (hin : s.dieIn d = true) :
    ∃ last, (l.foldl (fun s d => s.sampleDie m d) s).mon d =
      { (s.mon d).sample q (s.setpoint d) s.health.marginLimit s.now s.aonNs with lastSet := last } := by
  induction l generalizing s with
  | nil => exact absurd hmem List.not_mem_nil
  | cons a l ih =>
    obtain ⟨ha, hl⟩ := List.nodup_cons.mp hl
    rw [List.foldl_cons]
    by_cases had : a = d
    · subst had
      exact ⟨_, (mon_sampleDies_other l _ ha).trans (mon_sampleDie hq hin)⟩
    · obtain ⟨hsame, hother⟩ := s.sampleDie_keeps m a
      have hd : d ∈ l := (List.mem_cons.mp hmem).resolve_left fun h => had h.symm
      obtain ⟨last, hlast⟩ := ih hl hd (hsame.dieIn d ▸ hin)
      refine ⟨last, hlast.trans ?_⟩
      rw [hother d (fun h => had h.symm), hsame.setpoint, hsame.limit, hsame.now, hsame.aonNs]

/-- A monitor sample fills the entries of the dies in service and the coolant's readings (R433, R502). -/
theorem runs_monitorSample {s : State} {inlet outlet : Int} (hd : d < 25) (hin : s.dieIn d = true) :
    Runs (.monitorSample m inlet outlet) s fun t => (∃ last, t.mon d =
        { (s.mon d).sample q (s.setpoint d) s.health.marginLimit s.now s.aonNs with lastSet := last }) ∧
      t.pwr.inlet = inlet ∧ t.pwr.outlet = outlet ∧ t.pwr.inletHigh = decide (640 < inlet) ∧ t.pwr.inletLow = decide (inlet < 240) ∧
      t.pwr.dtHigh = decide (224 < outlet - inlet) := by
  have hx : exec (.monitorSample m inlet outlet) s = execMonitorSample m inlet outlet s := rfl
  unfold execMonitorSample at hx
  obtain ⟨last, hlast⟩ := State.mon_sampleDies hq (s := s) (List.range 25) List.nodup_range (List.mem_range.mpr hd) hin
  generalize (List.range 25).foldl (fun s d => s.sampleDie m d) s = u at hx hlast
  unfold State.sampleCool at hx
  dsimp only at hx
  have hpwr {α : Type} (l : List α) (v : State) : (l.foldl (fun s _ => s.raise 24 0x00 2 .ok (leBytes 8 s.pwr.cool)) v).pwr = v.pwr :=
    State.foldl_keeps State.pwr (fun _ _ => State.raise_pwr ..) l v
  have hmon {α : Type} (l : List α) (v : State) : (l.foldl (fun s _ => s.raise 24 0x00 2 .ok (leBytes 8 s.pwr.cool)) v).mon d = v.mon d :=
    (State.raiseEach_keeps l v 24 0x00 2 .ok fun s => leBytes 8 s.pwr.cool).2 d
  refine runs_of_exec hx ⟨⟨last, ?_⟩, ?_⟩
  · rw [hmon]
    exact hlast
  · rw [hpwr]
    exact ⟨rfl, rfl, rfl, rfl, rfl⟩

end

end Sys2Proof.Machine

namespace Sys2Proof.Machine

/-! The health score, the days, quarantine and its token (R435 to R441). -/

theorem State.health_toLedger (s : State) {e : Event} (h : e.ledger ≠ 5) : (s.toLedger e).health = s.health := by
  unfold toLedger
  dsimp only
  rw [if_neg h]
  split <;> rfl

theorem State.health_counted (s : State) {e : Event} (h : e.contrib = none) : (s.counted e).health = s.health := by
  unfold counted
  rw [h]

/-- An event without a contributor and with no ledger record leaves the health state. -/
theorem State.health_raise (s : State) (die unit sev : Nat) (code : Err) (data : List Byte) (x l : Nat) (hl : l ≠ 5) :
    (s.raise die unit sev code data x none l).health = s.health := by
  have hledger : (if sev = 5 then 7 else l) ≠ 5 := by split <;> omega
  unfold raise logEv
  dsimp only
  generalize (if sev = 5 then 7 else l) = k at hledger ⊢
  split
  · split <;> rfl
  · split
    · exact (health_toLedger _ hledger).trans (health_counted _ rfl)
    · rfl

theorem State.health_healthEvent (s : State) (sev : Nat) (code : Err) (old oldState : Nat) :
    (s.healthEvent sev code old oldState).health = s.health :=
  health_raise _ _ _ _ _ _ _ _ (by omega)

theorem State.outer_healthEvent (s : State) (sev : Nat) (code : Err) (old oldState : Nat) : (s.healthEvent sev code old oldState).outer = s.outer :=
  outer_raise ..

/-- The hourly counts are of the health state alone (R435). -/
theorem State.hourly_spec (s : State) : s.hourly = { s with health := s.hourly.health } ∧ s.hourly.health.band = s.health.band ∧
    s.hourly.health.quarantined = s.health.quarantined ∧ s.hourly.health.dayMin = s.health.dayMin ∧ s.hourly.health.dayMax = s.health.dayMax := by
  unfold hourly
  dsimp only
  split
  · exact ⟨rfl, rfl, rfl, rfl, rfl⟩
  · exact ⟨rfl, rfl, rfl, rfl, rfl⟩

theorem State.health_askQuarantine (s : State) : s.askQuarantine.health = { s.health with qRequest := true, qAt := s.aonNs } :=
  health_raise _ _ _ _ _ _ _ _ (by omega)

/-- HEALTH_SCORE_COMPUTE: the score of the penalties, its band, and the request it makes or withdraws (R435 to R438). -/
theorem runs_healthScoreCompute {s : State} {sc : Nat} (hsc : scoreOf ((List.range 20).map fun i => penaltyOf i (s.hourly.measureOf i)) = sc) :
    Runs .healthScoreCompute s fun t => t.health.score = sc ∧ t.health.band = nextBand s.health.band sc ∧
      (t.health.qRequest = true ↔ t.health.band = 3 ∧ s.health.quarantined = false) ∧ t.health.quarantined = s.health.quarantined ∧
      t.health.dayMin = min s.health.dayMin sc ∧ t.health.dayMax = max s.health.dayMax sc ∧ t.cds = s.cds ∧ t.links = s.links := by
  have hx : exec .healthScoreCompute s = execHealthScoreCompute s := rfl
  have hps : ((List.range 20).map fun i => penaltyOf i (((List.range 20).map s.hourly.measureOf).getD i 0)) =
      (List.range 20).map fun i => penaltyOf i (s.hourly.measureOf i) := by
    refine List.map_congr_left fun i hi => ?_
    rw [List.getD_eq_getElem?_getD, List.getElem?_map, List.getElem?_range (List.mem_range.mp hi)]
    rfl
  obtain ⟨honly, hband, hquar, hmin, hmax⟩ := s.hourly_spec
  unfold execHealthScoreCompute at hx
  dsimp only at hx
  rw [hps, hsc] at hx
  generalize s.hourly = u at *
  generalize hb : nextBand u.health.band sc = b at hx
  obtain ⟨v, hexec, hscore, hvb, hvq, hvmin, hvmax, hreq, hvcds, hvlinks⟩ : ∃ v : State, exec .healthScoreCompute s = .next
        (if b = 3 ∧ u.health.quarantined = false then (if u.health.qRequest then v else v.askQuarantine)
          else { v with health := { v.health with qRequest := false } }) ∧
      v.health.score = sc ∧ v.health.band = b ∧ v.health.quarantined = u.health.quarantined ∧ v.health.dayMin = min u.health.dayMin sc ∧
      v.health.dayMax = max u.health.dayMax sc ∧ v.health.qRequest = u.health.qRequest ∧ v.cds = u.cds ∧ v.links = u.links := by
    refine ⟨_, hx, ?_⟩
    split
    · exact ⟨rfl, rfl, rfl, rfl, rfl, rfl, rfl, rfl⟩
    · rw [State.health_healthEvent]
      exact ⟨rfl, rfl, rfl, rfl, rfl, rfl, State.raise_cds .., State.raise_links ..⟩
  have hucds : u.cds = s.cds := by rw [honly]
  have hulinks : u.links = s.links := by rw [honly]
  rw [hquar] at hvq
  rw [hmin] at hvmin
  rw [hmax] at hvmax
  rw [hucds] at hvcds
  rw [hulinks] at hvlinks
  rw [hband] at hb
  rw [hquar] at hexec
  by_cases hask : b = 3 ∧ s.health.quarantined = false
  · rw [if_pos hask] at hexec
    cases hr : u.health.qRequest with
    | true =>
      rw [hr, if_pos rfl] at hexec
      refine runs_of_exec hexec ⟨hscore, hvb.trans hb.symm, ?_, hvq, hvmin, hvmax, hvcds, hvlinks⟩
      rw [hvb, hreq, hr]
      exact ⟨fun _ => hask, fun _ => rfl⟩
    | false =>
      rw [hr, if_neg Bool.false_ne_true] at hexec
      refine runs_of_exec hexec ?_
      rw [State.health_askQuarantine]
      refine ⟨hscore, hvb.trans hb.symm, ?_, hvq, hvmin, hvmax, ?_, ?_⟩
      · dsimp only
        rw [hvb]
        exact ⟨fun _ => hask, fun _ => rfl⟩
      · exact (State.raise_cds ..).trans hvcds
      · exact (State.raise_links ..).trans hvlinks
  · rw [if_neg hask] at hexec
    refine runs_of_exec hexec ⟨hscore, hvb.trans hb.symm, ?_, hvq, hvmin, hvmax, hvcds, hvlinks⟩
    dsimp only
    rw [hvb]
    exact ⟨fun h => absurd h Bool.false_ne_true, fun h => absurd h hask⟩

theorem scoreOf_le (p : List Nat) : scoreOf p ≤ 1000 := Nat.sub_le ..

/-- The day buckets move one place down (R436). -/
theorem tab_get_days (t : Tab Nat) (k : Nat) : Tab.get 0 ((t.filter fun b => b.1 % 8 ≠ 7).map fun b => (b.1 + 1, b.2)) k =
    if k % 8 = 0 then 0 else Tab.get 0 t (k - 1) := by
  induction t with
  | nil => simp [Tab.get, Tab.find?]
  | cons b t ih =>
    obtain ⟨j, v⟩ := b
    have hcons (t : Tab Nat) (j v k : Nat) : Tab.get 0 ((j, v) :: t) k = if j = k then v else Tab.get 0 t k := by
      unfold Tab.get
      rw [Tab.find?]
      split <;> rfl
    by_cases hj : j % 8 = 7
    · have hkeep : (List.filter (fun b : Nat × Nat => decide (b.1 % 8 ≠ 7)) ((j, v) :: t)) = t.filter fun b => decide (b.1 % 8 ≠ 7) :=
        List.filter_cons_of_neg (by simp [hj])
      rw [hkeep, ih, hcons]
      split
      · rfl
      · rw [if_neg (by omega)]
    · rw [List.filter_cons_of_pos (by simp [hj]), List.map_cons, hcons, ih, hcons]
      by_cases hk : j + 1 = k
      · rw [if_pos hk, if_neg (by omega), if_pos (by omega)]
      · rw [if_neg hk]
        split
        · rfl
        · rw [if_neg (by omega)]

theorem runs_dayRollover {s : State} (hday : s.health.dayNo < s.aonNs / (86400 * secNs)) : Runs .dayRollover s fun t =>
    t.health.dayNo = s.health.dayNo + 1 ∧ (∀ k, Tab.get 0 t.health.days k = if k % 8 = 0 then 0 else Tab.get 0 s.health.days (k - 1)) ∧
      t.health.dayMin = s.health.score ∧ t.health.dayMax = s.health.score ∧ (∃ e, t.ledger.pending = s.ledger.pending ++ [(8, e)]) ∧
      t = { s with health := t.health, ledger := t.ledger } := by
  have hx : exec .dayRollover s = execDayRollover s := rfl
  unfold execDayRollover at hx
  dsimp only at hx
  rw [if_neg (Nat.not_le.mpr hday)] at hx
  exact runs_of_exec hx ⟨rfl, fun k => tab_get_days .., rfl, rfl, ⟨_, rfl⟩, rfl⟩

/-- Q_REQUEST repeats once per hour (R438). -/
theorem runs_qRequestRepeat {s : State} (hreq : s.health.qRequest = true) (hdue : s.health.qAt + 3600 * secNs ≤ s.aonNs) :
    Runs .qRequestRepeat s fun t => t.health = { s.health with qAt := s.aonNs } ∧
      (s.svc.hdIn = true → s.log.intake.length < 256 → ∃ e, t.log.intake = s.log.intake ++ [e] ∧ e.sev = 4 ∧ e.die = 24) := by
  have hx : exec .qRequestRepeat s = execQRequestRepeat s := rfl
  unfold execQRequestRepeat at hx
  rw [if_pos ⟨hreq, hdue⟩] at hx
  refine runs_of_exec hx ⟨?_, fun hhd hroom => ?_⟩
  · rw [State.health_askQuarantine, ← hreq]
  · unfold State.askQuarantine State.raise State.logEv
    dsimp only
    rw [if_pos hhd, if_pos hroom]
    exact ⟨_, rfl, rfl, rfl⟩

/-- A quarantine token lapses at its end (R440). -/
theorem runs_tokenLapse {s : State} (htoken : s.health.token = true) (hdue : s.health.tokenX ≤ s.now) : Runs .tokenLapse s fun t =>
    t.health = { s.health with token := false } ∧ t.links = s.links ∧ t.svc = s.svc := by
  have hx : exec .tokenLapse s = execTokenLapse s := rfl
  unfold execTokenLapse at hx
  dsimp only at hx
  rw [if_pos ⟨htoken, hdue⟩] at hx
  exact runs_of_exec hx ⟨State.health_healthEvent .., State.raise_links .., State.raise_svc ..⟩

end Sys2Proof.Machine

namespace Sys2Proof.Machine

/-! Quarantine takes effect (R440, R441). -/

theorem State.core_linkDown (s : State) (l cause : Nat) (st : LinkSt) (say : Bool) : (s.linkDown l cause st say).health.core = s.health.core := by
  unfold linkDown
  dsimp only
  split
  · rfl
  · generalize hv : List.foldl (fun (s : State) q => s.copyLeaves q) _ _ = v
    have hov : v.health.core = s.health.core := by
      refine core_of_outer ?_
      rw [← hv, foldl_keeps State.outer fun t q => outer_copyLeaves t q, outer_outputDown]
      split <;> rfl
    have hdown (u : State) := foldl_keeps State.outer (fun (t : State) (e : Nat × Nat × Nat) => outer_henReply t e.1 e.2.1 e.2.2 .uncorr [])
      (s.peerOutstanding l) u
    refine (core_of_outer ((outer_raise ..).trans (hdown _))).trans ?_
    exact hov

theorem State.linkDown_other (s : State) {l k : Nat} (hk : k ≠ l) (cause : Nat) (st : LinkSt) (say : Bool) :
    (s.linkDown l cause st say).link k = s.link k ∧ (s.linkDown l cause st say).lx k = s.lx k := by
  unfold linkDown
  dsimp only
  split
  · exact ⟨by rw [link_modLink, if_neg hk], rfl⟩
  · generalize hv : List.foldl (fun (s : State) q => s.copyLeaves q) _ _ = v
    have hov : v.outer = s.outer := by
      rw [← hv, foldl_keeps State.outer fun t q => outer_copyLeaves t q, outer_outputDown]
      split <;> rfl
    have hdown (u : State) := foldl_keeps State.outer (fun (t : State) (e : Nat × Nat × Nat) => outer_henReply t e.1 e.2.1 e.2.2 .uncorr [])
      (s.peerOutstanding l) u
    rw [link_of_outer ((outer_raise ..).trans (hdown _)), lx_of_outer ((outer_raise ..).trans (hdown _))]
    refine ⟨?_, ?_⟩
    · rw [link_modLink, if_neg hk, link_modLx, link_of_outer hov]
    · rw [lx_modLink, lx_modLx, if_neg hk, lx_of_outer hov]

/-- A link that quarantine cut: it neither carries nor trains, nor will it (R441). -/
def State.Cut (s : State) (l : Nat) : Prop := (s.link l).st ≠ .up ∧ (s.link l).st ≠ .training ∧ (s.lx l).trainAt = none

/-- Quarantine cuts a link (R441). -/
def State.cut (s : State) (l : Nat) : State :=
  (if (s.link l).st = .up ∨ (s.link l).st = .training then s.linkDown l 7 .down true else s).modLx l fun x => { x with trainAt := none }

theorem State.cut_spec (s : State) (l : Nat) : (s.cut l).Cut l ∧ (∀ k, k ≠ l → (s.cut l).link k = s.link k ∧ (s.cut l).lx k = s.lx k) ∧
    (s.cut l).health.core = s.health.core := by
  unfold cut Cut
  rw [lx_modLx, if_pos rfl, link_modLx]
  split
  case isTrue =>
    obtain ⟨hst, -⟩ := link_linkDown s l 7 .down true
    refine ⟨⟨by rw [hst]; decide, by rw [hst]; decide, rfl⟩, fun k hk => ?_, core_linkDown ..⟩
    obtain ⟨hlink, hlx⟩ := s.linkDown_other hk 7 .down true
    rw [link_modLx, lx_modLx, if_neg hk]
    exact ⟨hlink, hlx⟩
  case isFalse h =>
    refine ⟨⟨fun hu => h (.inl hu), fun ht => h (.inr ht), rfl⟩, fun k hk => ?_, rfl⟩
    rw [link_modLx, lx_modLx, if_neg hk]
    exact ⟨rfl, rfl⟩

theorem State.cuts_spec (l : List Nat) (s : State) : (∀ k, k ∈ l ∨ s.Cut k → (l.foldl cut s).Cut k) ∧
    (l.foldl cut s).health.core = s.health.core := by
  induction l generalizing s with
  | nil => exact ⟨fun k h => h.elim (fun hk => absurd hk List.not_mem_nil) id, rfl⟩
  | cons a l ih =>
    obtain ⟨hcut, hother, hcore⟩ := s.cut_spec a
    obtain ⟨hall, hcore'⟩ := ih (s.cut a)
    rw [List.foldl_cons]
    refine ⟨fun k hk => hall k ?_, hcore'.trans hcore⟩
    by_cases hka : k = a
    · rw [hka]
      exact .inr hcut
    · refine hk.imp (fun hm => (List.mem_cons.mp hm).resolve_left hka) fun hc => ?_
      obtain ⟨hlink, hlx⟩ := hother k hka
      unfold Cut
      rw [hlink, hlx]
      exact hc

/-- A quarantined device's LEVEL is at most 2 (R441). -/
theorem State.levelOf_quarantined {s : State} (h : s.health.quarantined = true) (v : Service) : s.levelOf v ≤ 2 := by
  unfold levelOf
  extract_lets a b c e
  have hb : b ≤ 2 := by
    unfold b
    rw [h, if_pos rfl]
    exact Nat.min_le_right ..
  have hc : c ≤ b := by
    unfold c
    split
    · exact Nat.le_refl b
    · exact Nat.min_le_left ..
  have he : e ≤ c := by
    unfold e
    split
    · exact Nat.le_refl c
    · exact Nat.min_le_left ..
  split <;> omega

theorem State.service_spec (s : State) (v : Service) (cause : Err) : (s.service v cause).svc.level = s.levelOf v ∧
    (s.service v cause).health.core = s.health.core ∧ (s.service v cause).linkx = s.linkx := by
  unfold service
  dsimp only
  split
  · exact ⟨congrArg Service.level (raise_svc ..), core_raise .., raise_linkx ..⟩
  · split
    · exact ⟨congrArg Service.level (raise_svc ..), core_raise .., raise_linkx ..⟩
    · exact ⟨rfl, rfl, rfl⟩

theorem runs_quarantineTakeEffect {s : State} (hdue : s.quarantineDue = true) : Runs .quarantineTakeEffect s fun t =>
    t.health.quarantined = true ∧ t.health.token = false ∧ t.health.qRequest = false ∧ t.svc.level ≤ 2 ∧
      ∀ l, l < 36 → (t.link l).st ≠ .up ∧ (t.link l).st ≠ .training ∧ (t.lx l).trainAt = none := by
  have hx : exec .quarantineTakeEffect s = execQuarantineTakeEffect s := rfl
  unfold execQuarantineTakeEffect at hx
  rw [hdue, if_neg (by decide)] at hx
  obtain ⟨v, hv⟩ : ∃ v : State, v = { s with health := { s.health with quarantined := true, token := false, qRequest := false } } :=
    ⟨_, rfl⟩
  obtain ⟨ls, hls⟩ : ∃ ls, ls = List.range 36 := ⟨_, rfl⟩
  rw [← hls] at hx
  obtain ⟨hcut, hcore⟩ := State.cuts_spec ls v
  have hx' : exec .quarantineTakeEffect s = .next (((ls.foldl State.cut v).service (ls.foldl State.cut v).svc .ok).healthEvent
      4 .ok (ls.foldl State.cut v).health.score s.health.hstate) := by
    rw [hv]
    exact hx
  have hquar : v.health.quarantined = true := by rw [hv]
  have htoken : v.health.token = false := by rw [hv]
  have hreq : v.health.qRequest = false := by rw [hv]
  generalize ls.foldl State.cut v = u at *
  obtain ⟨hlevel, hcore', hlx⟩ := u.service_spec u.svc .ok
  have hlinks := u.service_links u.svc .ok
  have huq : u.health.quarantined = true := (congrArg Health.quarantined hcore).trans hquar
  have houter := (u.service u.svc .ok).outer_healthEvent 4 .ok u.health.score s.health.hstate
  have hc := (State.core_of_outer houter).trans (hcore'.trans hcore)
  refine runs_of_exec hx' ⟨(congrArg Health.quarantined hc).trans hquar, (congrArg Health.token hc).trans htoken,
    (congrArg Health.qRequest hc).trans hreq, ?_, fun l hl => ?_⟩
  · rw [State.svc_of_outer houter, hlevel]
    exact State.levelOf_quarantined huq _
  · have h := hcut l (.inl (hls ▸ List.mem_range.mpr hl))
    rw [State.link_of_outer houter, State.lx_of_outer houter, State.link, hlinks, State.lx, hlx]
    exact h

/-! The log, its mirror (R446 to R448). -/

theorem tab_get_put {α : Type} (d : α) (t : Tab α) (k j : Nat) (v : α) : Tab.get d (Tab.put t k v) j = if j = k then v else Tab.get d t j := by
  rw [Tab.get, tab_find_put]
  split
  · rfl
  · rfl

theorem State.log_mirror_eventNotices (s : State) (sev : Nat) (entry : List Byte) :
    (s.eventNotices sev entry).log = s.log ∧ (s.eventNotices sev entry).mirror = s.mirror := by
  unfold eventNotices
  refine ⟨foldl_keeps State.log (fun t c => ?_) _ s, foldl_keeps State.mirror (fun t c => ?_) _ s⟩
  · split
    · exact notice_log ..
    · rfl
  · split
    · exact notice_mirror ..
    · rfl

/-- What an entry does beyond the rings leaves them (R406, R436, R450, R473). -/
theorem State.log_mirror_entered (s : State) (e : Event) (entry : List Byte) :
    (if e.ledger = 2 then (((s.counted e).toLedger e).eventNotices e.sev entry).queueRepairs
      else ((s.counted e).toLedger e).eventNotices e.sev entry).log = s.log ∧
    (if e.ledger = 2 then (((s.counted e).toLedger e).eventNotices e.sev entry).queueRepairs
      else ((s.counted e).toLedger e).eventNotices e.sev entry).mirror = s.mirror := by
  obtain ⟨hlog, hmirror⟩ := ((s.counted e).toLedger e).log_mirror_eventNotices e.sev entry
  generalize ((s.counted e).toLedger e).eventNotices e.sev entry = u at *
  rw [toLedger_log, counted_log] at hlog
  rw [toLedger_mirror, counted_mirror] at hmirror
  have hrep : u.queueRepairs.log = u.log ∧ u.queueRepairs.mirror = u.mirror := by
    unfold queueRepairs
    split <;> exact ⟨rfl, rfl⟩
  split
  · exact ⟨hrep.1.trans hlog, hrep.2.trans hmirror⟩
  · exact ⟨hlog, hmirror⟩

/-- LOG_INTAKE: the oldest event becomes the next entry of the ring, a severe one goes to the mirror (R446 to R448). -/
theorem runs_logIntake {s : State} {e : Event} {rest : List Event} {entry : List Byte} (hintake : s.log.intake = e :: rest)
    (hentry : e.bytes (s.log.head % 2 ^ 32) ((if 3 ≤ e.sev then 1 else 0) + (if s.log.lostNow then 4 else 0)) = entry) :
    Runs .logIntake s fun t => t.log.intake = rest ∧ t.log.head = s.log.head + 1 ∧ t.log.lostNow = false ∧
      (Tab.get [] t.log.ring (s.log.head % 65536) = entry ∧ t.mirror.queue = s.mirror.queue ++ (if 3 ≤ e.sev then [entry] else [])) ∧
      ∀ i, i ≠ s.log.head % 65536 → Tab.get [] t.log.ring i = Tab.get [] s.log.ring i := by
  have hx : exec .logIntake s = execLogIntake s := rfl
  unfold execLogIntake at hx
  rw [hintake] at hx
  dsimp only at hx
  rw [hentry] at hx
  obtain ⟨w, hw⟩ : ∃ w : State, w = { s with log := { s.log with
      intake := rest, head := s.log.head + 1, lostNow := false, ring := Tab.put s.log.ring (s.log.head % 65536) entry,
      overwrites := if decide (65536 ≤ s.log.head) && decide (s.log.readTo ≤ s.log.head - 65536) then sat 32 (s.log.overwrites + 1)
        else s.log.overwrites } } := ⟨_, rfl⟩
  obtain ⟨u, hu⟩ : ∃ u : State, u =
      if 3 ≤ e.sev then { w with mirror := { w.mirror with queue := w.mirror.queue ++ [entry] } } else w := ⟨_, rfl⟩
  have hwm : w.mirror = s.mirror := by rw [hw]
  have hulog : u.log = w.log := by
    rw [hu]
    split <;> rfl
  have huq : u.mirror.queue = s.mirror.queue ++ (if 3 ≤ e.sev then [entry] else []) := by
    rw [hu, ← hwm]
    split
    · rfl
    · exact (List.append_nil _).symm
  have hx' : exec .logIntake s = .next (if e.ledger = 2 then (((u.counted e).toLedger e).eventNotices e.sev entry).queueRepairs
      else ((u.counted e).toLedger e).eventNotices e.sev entry) := by
    rw [hu, hw]
    exact hx
  obtain ⟨hlog, hmirror⟩ := u.log_mirror_entered e entry
  refine runs_of_exec hx' ?_
  rw [hlog, hmirror, hulog, huq, hw]
  refine ⟨rfl, rfl, rfl, ⟨?_, rfl⟩, fun i hi => ?_⟩
  · exact (tab_get_put ..).trans (if_pos rfl)
  · exact (tab_get_put ..).trans (if_neg hi)

theorem runs_mirrorCopy {s : State} {e : List Byte} {rest : List (List Byte)} (hqueue : s.mirror.queue = e :: rest) :
    Runs .mirrorCopy s fun t => t.mirror.queue = rest ∧ t.mirror.head = s.mirror.head + 1 ∧
      Tab.get [] t.mirror.ring (s.mirror.head % 4096) = e ∧
      t.pins = { s.pins with smbAlert := s.pins.smbAlert || decide (4 ≤ fld e 18 1) } ∧ t = { s with mirror := t.mirror, pins := t.pins } := by
  have hx : exec .mirrorCopy s = execMirrorCopy s := rfl
  unfold execMirrorCopy at hx
  rw [hqueue] at hx
  refine runs_of_exec hx ⟨rfl, rfl, ?_, rfl, rfl⟩
  exact (tab_get_put ..).trans (if_pos rfl)

end Sys2Proof.Machine

namespace Sys2Proof
/-- Clearing a bit leaves the others. -/
theorem bit_setBit_other {x i j : Nat} (hj : j ≠ i) : bit (setBit x i false) j = bit x j := by
  unfold setBit
  split
  · rfl
  case isFalse h =>
    have hodd : x / 2 ^ i % 2 = 1 := by simpa [bit, Nat.shiftRight_eq_div_pow] using h
    have hpos : 0 < 2 ^ i := Nat.two_pow_pos i
    have hle : 2 ^ i ≤ x := by
      by_contra hlt
      rw [Nat.div_eq_of_lt (by omega)] at hodd
      omega
    simp only [bit, Nat.shiftRight_eq_div_pow, Bool.false_eq_true, if_false]
    rcases Nat.lt_or_gt_of_ne hj with hlt | hgt
    · obtain ⟨k, rfl⟩ := Nat.exists_eq_add_of_lt hlt
      have hpow : 2 ^ (j + k + 1) = 2 ^ j * (2 * 2 ^ k) := by ring
      have hdiv : (x - 2 ^ (j + k + 1)) / 2 ^ j = x / 2 ^ j - 2 * 2 ^ k := by
        rw [hpow]
        exact Nat.sub_mul_div ..
      have hbig : 2 * 2 ^ k ≤ x / 2 ^ j := by
        rw [Nat.le_div_iff_mul_le (Nat.two_pow_pos j), Nat.mul_comm, ← hpow]
        exact hle
      rw [hdiv]
      generalize x / 2 ^ j = y at *
      generalize 2 ^ k = z at *
      congr 1
      simp only [eq_iff_iff]
      omega
    · obtain ⟨k, rfl⟩ := Nat.exists_eq_add_of_lt hgt
      have hpow : 2 ^ (i + k + 1) = 2 ^ i * (2 * 2 ^ k) := by ring
      have hdiv : (x - 2 ^ i) / 2 ^ i = x / 2 ^ i - 1 := by
        have := Nat.sub_mul_div x (2 ^ i) 1
        rwa [Nat.mul_one] at this
      rw [hpow, ← Nat.div_div_eq_div_mul, ← Nat.div_div_eq_div_mul, ← Nat.div_div_eq_div_mul, ← Nat.div_div_eq_div_mul, hdiv]
      generalize x / 2 ^ i = y at *
      rw [show (y - 1) / 2 = y / 2 by omega]
end Sys2Proof

namespace Sys2Proof.Machine

/-! T4 takes over a tile (R16 to R18, R113, R443). -/

theorem TileMap.phys_setPhys {m : TileMap} {i : Nat} (hi : i < 4) (q j : Nat) : (m.setPhys i q).phys j = if j = i then q else m.phys j := by
  unfold setPhys phys
  interval_cases i
  · by_cases h : j = 0 <;> simp [h]
  · by_cases h : j = 1 <;> simp [h]
  · by_cases h : j = 2 <;> simp [h]
  · by_cases h : j = 3 <;> simp [h]

theorem TileMap.phys_ok (m : TileMap) (n j : Nat) : ({ m with ok := n } : TileMap).phys j = m.phys j := rfl

/-- A tile marked not working stays so when the widths are taken anew (R113). -/
theorem bit_ok_reWidth {c : ComputeDie} {p : Nat} (h : bit c.map.ok p = false) : bit c.reWidth.map.ok p = false := by
  have hfold (l : List Nat) (w : Nat → Nat) (x : Nat) (hx : bit x p = false) :
      bit (l.foldl (fun a p => if w p = 0 then setBit a p false else a) x) p = false := by
    induction l generalizing x with
    | nil => exact hx
    | cons a l ih =>
      rw [List.foldl_cons]
      refine ih _ ?_
      split
      · by_cases hp : p = a
        · rw [hp]
          exact bit_setBit_false x a
        · rw [bit_setBit_other hp, hx]
      · exact hx
  exact hfold _ _ _ h

theorem ComputeDie.phys_reWidth (c : ComputeDie) (j : Nat) : c.reWidth.map.phys j = c.map.phys j := rfl

theorem ComputeDie.tiles_reWidth (c : ComputeDie) : c.reWidth.tiles = c.tiles := rfl

theorem State.subs_of_core {s t : State} (h : t.health.core = s.health.core) : t.health.subs = s.health.subs := by
  have hsubs := congrArg Health.subs h
  exact hsubs

theorem State.core_substituted (s : State) (die unit kind index old new sev : Nat) (code : Err) :
    (s.substituted die unit kind index old new sev code).health.core = s.health.core := by
  unfold substituted
  dsimp only
  split
  · exact core_raise ..
  · exact core_toLedger ..

theorem State.core_cdDown (s : State) (n : Nat) (cause : Err) : (s.cdDown n cause).health.core = s.health.core := by
  unfold cdDown
  rw [(service_spec ..).2.1]
  exact core_of_outer (outer_outputDown ..)

theorem State.ft_cdDown (s : State) (n : Nat) (cause : Err) : (s.cdDown n cause).ft = s.ft := by
  unfold cdDown
  rw [service_ft]
  exact ft_of_outer (outer_outputDown ..)

section
variable {s : State} {d p i : Nat} (hi : i < 4) (hphys : (s.cd d).map.phys i = p) (hfirst : ∀ j, j < i → (s.cd d).map.phys j ≠ p)
include hi hphys hfirst

theorem State.find_phys : (List.range 4).find? (fun i => (s.cd d).map.phys i == p) = some i :=
  List.find?_range_eq_some.mpr ⟨beq_iff_eq.mpr hphys, List.mem_range.mpr hi, fun j hj => by simp [hfirst j hj]⟩

/-- A tile that retires: its logical tile moves to T4, or becomes absent (R443). -/
theorem State.retireTile_spec {q : Nat} (hq : (if p ≠ 4 ∧ (s.cd d).spareFit = true then 4 else 7) = q) :
    ((∀ j, ((s.retireTile d p false).cd d).map.phys j = if j = i then q else (s.cd d).map.phys j) ∧
      bit ((s.retireTile d p false).cd d).map.ok p = false) ∧
    (∀ k, k ≠ p → (s.retireTile d p false).tile d k = if q = 4 ∧ k = 4 then (s.tile d 4).takeOver (s.tile d p) else s.tile d k) ∧
      Tab.get false (s.retireTile d p false).health.subs (5 * d + p) = false ∧ (s.retireTile d p false).ft = s.ft := by
  unfold retireTile
  dsimp only
  rw [find_phys hi hphys hfirst]
  dsimp only
  rw [hq, if_neg Bool.false_ne_true]
  obtain ⟨u, hu⟩ : ∃ u, u = if q = 4 then s.modTile d 4 fun t => t.takeOver (s.tile d p) else s := ⟨_, rfl⟩
  obtain ⟨v, hv⟩ : ∃ v, v = (u.modTile d p Tile.ctxEnd).modCd d fun c =>
    ({ c with map := { c.map.setPhys i q with ok := setBit c.map.ok p false } } : ComputeDie).reWidth := ⟨_, rfl⟩
  rw [← hu, ← hv]
  have humap : (u.cd d).map = (s.cd d).map := by
    rw [hu]
    split
    · exact map_modTile ..
    · rfl
  have hutile (k : Nat) : u.tile d k = if q = 4 ∧ k = 4 then (s.tile d 4).takeOver (s.tile d p) else s.tile d k := by
    rw [hu]
    by_cases hq4 : q = 4
    · rw [if_pos hq4, tile_modTile]
      simp only [hq4, true_and]
    · rw [if_neg hq4, if_neg fun h => hq4 h.1]
  have hvcd : v.cd d = ({ (u.modTile d p Tile.ctxEnd).cd d with map :=
      { ((u.modTile d p Tile.ctxEnd).cd d).map.setPhys i q with ok := setBit ((u.modTile d p Tile.ctxEnd).cd d).map.ok p false } } :
      ComputeDie).reWidth := by
    rw [hv, cd_modCd, if_pos rfl]
  have hmap : ((u.modTile d p Tile.ctxEnd).cd d).map = (s.cd d).map := (map_modTile ..).trans humap
  have hvphys (j : Nat) : (v.cd d).map.phys j = if j = i then q else (s.cd d).map.phys j := by
    rw [hvcd, ComputeDie.phys_reWidth, TileMap.phys_ok, TileMap.phys_setPhys hi, hmap]
  have hvok : bit (v.cd d).map.ok p = false := by
    rw [hvcd]
    exact bit_ok_reWidth (bit_setBit_false _ _)
  have hvtile (k : Nat) (hk : k ≠ p) : v.tile d k = u.tile d k := by
    rw [hv]
    refine (tile_modCd d ?_ ..).trans ?_
    · exact fun c => ComputeDie.tiles_reWidth _
    · rw [tile_modTile, if_neg fun h => hk h.2]
  obtain ⟨w, hw⟩ : ∃ w : State, w = { v with health := { v.health with subs := Tab.set false v.health.subs (5 * d + p) false } } := ⟨_, rfl⟩
  rw [← hw]
  have hwcds : (w.substituted d (0x10 + p) 0 i p q).cds = v.cds := by
    rw [substituted_cds, hw]
  have hwsubs : Tab.get false (w.substituted d (0x10 + p) 0 i p q).health.subs (5 * d + p) = false := by
    rw [subs_of_core (core_substituted w d (0x10 + p) 0 i p q 1 .ok), hw]
    dsimp only
    rw [tab_get_set, if_pos rfl]
  have hwft : (w.substituted d (0x10 + p) 0 i p q).ft = s.ft := by
    rw [substituted_ft, hw, hv, hu]
    split <;> rfl
  generalize w.substituted d (0x10 + p) 0 i p q = x at *
  have hend : (if x.cdFit d = true then x else x.cdDown d .internal).cds = v.cds ∧
      Tab.get false (if x.cdFit d = true then x else x.cdDown d .internal).health.subs (5 * d + p) = false ∧
      (if x.cdFit d = true then x else x.cdDown d .internal).ft = s.ft := by
    split
    · exact ⟨hwcds, hwsubs, hwft⟩
    · refine ⟨(cds_cdDown ..).trans hwcds, ?_, (ft_cdDown ..).trans hwft⟩
      rw [subs_of_core (core_cdDown x d .internal), hwsubs]
  obtain ⟨hcds, hsubs, hft⟩ := hend
  generalize (if x.cdFit d = true then x else x.cdDown d .internal) = y at *
  refine ⟨⟨fun j => ?_, ?_⟩, fun k hk => ?_, hsubs, hft⟩
  · rw [cd_of_cds hcds, hvphys]
  · rw [cd_of_cds hcds, hvok]
  · rw [tile_of_cds hcds, hvtile k hk, hutile]

end

theorem exec_tileSubstitution {s : State} {d : CdId} {p : PTile} (hsub : Tab.get false s.health.subs (5 * d.val + p.val) = true)
    (hin : s.dieIn d = true) (hfree : s.launchOn d = false) : exec (.tileSubstitution d p false) s = .next (s.retireTile d p false) := by
  have hx : exec (.tileSubstitution d p false) s = execTileSubstitution d p false s := rfl
  rw [hx, execTileSubstitution, if_pos ⟨hsub, hin, hfree⟩]

end Sys2Proof.Machine

namespace Sys2Proof.Machine

/-! Programming the flash, and the ledger's records (R449 to R451, R458). -/

theorem map_not_not (bs : List Byte) : (bs.map fun b => ~~~b).map (fun b => ~~~b) = bs := by
  rw [List.map_map]
  exact (List.map_congr_left fun b _ => BitVec.not_not).trans (List.map_id _)

/-- What erased bytes hold (R458, log entry 3). -/
theorem State.readN_of_erased {s : State} {a n : Nat} (h : s.flashN a n = List.replicate n 0xFF) : Mem.readN s.flash a n = List.replicate n 0 := by
  have h' := congrArg (List.map fun b : Byte => ~~~b) h
  rw [flashN, map_not_not, List.map_replicate] at h'
  exact h'

theorem zip_erased (bs : List Byte) : ((List.replicate bs.length (0 : Byte)).zip bs).map (fun p => p.1 ||| ~~~p.2) = bs.map fun b => ~~~b := by
  induction bs with
  | nil => rfl
  | cons b bs ih =>
    have hzero : (0 : Byte) ||| ~~~b = ~~~b := BitVec.zero_or
    rw [List.length_cons, List.replicate_succ, List.zip_cons_cons, List.map_cons, ih, List.map_cons, hzero]

/-- What is programmed into erased bytes is read back (R458). -/
theorem State.flashN_flashProg {s : State} {a : Nat} {bs : List Byte} (h : s.flashN a bs.length = List.replicate bs.length 0xFF) :
    (s.flashProg a bs).flashN a bs.length = bs := by
  unfold flashProg flashN
  dsimp only
  rw [readN_of_erased h, zip_erased]
  have hread := mem_readN_writeN s.flash a (bs.map fun b => ~~~b)
  rw [List.length_map] at hread
  rw [hread, map_not_not]

/-- Bytes outside a range that is programmed stay. -/
theorem State.read_flashProg_out (s : State) {a c : Nat} {bs : List Byte} (h : c < a ∨ a + bs.length ≤ c) :
    Mem.read (s.flashProg a bs).flash c = Mem.read s.flash c := by
  refine mem_read_writeN_out _ _ _ _ ?_
  rw [List.length_map, List.length_zip, readN_length, Nat.min_self]
  exact h

theorem padTo_length (n : Nat) (bs : List Byte) : (padTo n bs).length = n := by
  rw [padTo, List.length_take, List.length_append, List.length_replicate]
  omega

/-- A ledger record has 64 bytes (R450). -/
theorem State.record_length (s : State) (type : Nat) (e : Event) (seq : Nat) : (s.record type e seq).length = 64 := by
  unfold record recordData
  dsimp only
  repeat rw [List.length_append]
  repeat rw [leBytes_length]
  rw [padTo_length]
  rfl

theorem State.openSector_only (s : State) : ∃ f, s.openSector = { s with flash := f, ledger := { s.ledger with opened := true } } := by
  have hprog (u : State) (a : Nat) (bs : List Byte) : ∃ f,
      ({ u.flashProg a bs with ledger := { (u.flashProg a bs).ledger with opened := true } } : State) =
        { u with flash := f, ledger := { u.ledger with opened := true } } := ⟨_, rfl⟩
  have herase (c : Bool) (a n : Nat) : ∃ f, (if c then s.flashErase a n else s) = { s with flash := f } := by
    cases c
    · exact ⟨s.flash, rfl⟩
    · exact ⟨_, rfl⟩
  unfold openSector
  extract_lets n old used head
  clear_value head used
  obtain ⟨g, hg⟩ := herase used (sectorAt n) 0x10000
  obtain ⟨f, hf⟩ := hprog (if used then s.flashErase (sectorAt n) 0x10000 else s) (sectorAt n) head
  exact ⟨f, hf.trans (by rw [hg])⟩

/-- LEDGER_RECORD_WRITE: the oldest waiting record is written in the next place (R449 to R451). -/
theorem runs_ledgerRecordWrite {s : State} {type : Nat} {e : Event} {rest : List (Nat × Event)} (hpend : s.ledger.pending = (type, e) :: rest) :
    Runs .ledgerRecordWrite s fun t => t.ledger.pending = rest ∧
      t.ledger.seq = s.ledger.seq + 1 ∧ t = { s with flash := t.flash, ledger := t.ledger } ∧
      (s.ledger.opened = true → s.ledger.seq % 1008 ≠ 0 → s.flashN (recordAt s.ledger.seq) 64 = List.replicate 64 0xFF →
        t.flashN (recordAt s.ledger.seq) 64 = s.record type e s.ledger.seq ∧
        ∀ a, (a < recordAt s.ledger.seq ∨ recordAt s.ledger.seq + 64 ≤ a) → Mem.read t.flash a = Mem.read s.flash a) := by
  have hx : exec .ledgerRecordWrite s = execLedgerRecordWrite s := rfl
  unfold execLedgerRecordWrite at hx
  rw [hpend] at hx
  dsimp -zeta only at hx
  extract_lets l₀ w q u v l₁ at hx
  have hwflash : w.flash = s.flash := rfl
  have hwrec : w.record type e q = s.record type e q := rfl
  have hwpend : w.ledger.pending = rest := rfl
  obtain ⟨f, o, huonly⟩ : ∃ f o, u = { s with flash := f, ledger := { w.ledger with opened := o } } := by
    unfold u
    split
    · exact ⟨w.flash, w.ledger.opened, rfl⟩
    · obtain ⟨f, hf⟩ := w.openSector_only
      exact ⟨f, true, hf⟩
  have huopen (hopen : s.ledger.opened = true) (hmid : s.ledger.seq % 1008 ≠ 0) : u = w := by
    unfold u
    exact if_pos (by rw [Bool.and_eq_true]; exact ⟨hopen, decide_eq_true hmid⟩)
  have hvflash : v.flash = (u.flashProg (recordAt q) (u.record type e q)).flash := rfl
  obtain ⟨g, hv⟩ : ∃ g, v = { u with flash := g } := ⟨_, rfl⟩
  have hq : q = s.ledger.seq := rfl
  have hl₁ : l₁.pending = rest := by
    unfold l₁
    rw [hv, huonly]
  have hvonly : ∃ f l, v = { s with flash := f, ledger := l } := ⟨g, { w.ledger with opened := o }, by rw [hv, huonly]⟩
  clear_value w u v l₁ q
  refine runs_of_exec hx ⟨hl₁, by rw [hq], ?_, fun hopen hmid herased => ⟨?_, fun a ha => ?_⟩⟩
  · obtain ⟨f', l', rfl⟩ := hvonly
    rfl
  · have hflash := hvflash
    rw [huopen hopen hmid, hwrec] at hflash
    have hlen := s.record_length type e q
    have h := State.flashN_flashProg (s := w) (a := recordAt q) (bs := s.record type e q) (by
      rw [hlen, State.flashN, hwflash, hq]
      exact herased)
    rw [hlen, State.flashN, ← hflash, hq] at h
    exact h
  · refine (congrArg (fun m => Mem.read m a) hvflash).trans ?_
    rw [huopen hopen hmid, hwrec]
    refine (w.read_flashProg_out ?_).trans (by rw [hwflash])
    rw [State.record_length, hq]
    exact ha

end Sys2Proof.Machine

namespace Sys2Proof.Machine

section
variable {s : State} {d : CdId} {p : PTile} {i : Nat} (hsub : Tab.get false s.health.subs (5 * d.val + p.val) = true)
  (hin : s.dieIn d = true) (hfree : s.launchOn d = false) (hi : i < 4) (hphys : (s.cd d).map.phys i = p.val)
  (hfirst : ∀ j, j < i → (s.cd d).map.phys j ≠ p.val)
include hsub hin hfree hi hphys hfirst

/-- T4 takes over a tile that retires (R443). -/
theorem runs_tileSubstitution_spare (hp : p.val ≠ 4) (hspare : (s.cd d).spareFit = true) :
    Runs (.tileSubstitution d p false) s fun t => (t.cd d).map.phys i = 4 ∧
      bit (t.cd d).map.ok p = false ∧ (t.tile d 4).mule = (s.tile d p).mule ∧ (t.tile d 4).mem = (s.tile d p).mem ∧
      (t.tile d 4).os = (s.tile d p).os ∧ Tab.get false t.health.subs (5 * d.val + p.val) = false ∧
      ∀ j, j < 4 → j ≠ i → (t.cd d).map.phys j = (s.cd d).map.phys j := by
  obtain ⟨⟨hmap, hok⟩, htile, hsubs, -⟩ := State.retireTile_spec hi hphys hfirst (if_pos ⟨hp, hspare⟩)
  have ht := htile 4 hp.symm
  rw [if_pos ⟨rfl, rfl⟩] at ht
  refine runs_of_exec (exec_tileSubstitution hsub hin hfree) ⟨?_, hok, ?_, ?_, ?_, hsubs, fun j _ hj => ?_⟩
  · rw [hmap, if_pos rfl]
  · rw [ht]
    rfl
  · rw [ht]
    rfl
  · rw [ht]
    rfl
  · rw [hmap, if_neg hj]

/-- Without a spare the logical tile is absent (R443). -/
theorem runs_tileSubstitution_absent (hspare : (s.cd d).spareFit = false) : Runs (.tileSubstitution d p false) s fun t =>
    (t.cd d).map.phys i = 7 ∧ bit (t.cd d).map.ok p = false ∧ Tab.get false t.health.subs (5 * d.val + p.val) = false := by
  obtain ⟨⟨hmap, hok⟩, -, hsubs, -⟩ := State.retireTile_spec hi hphys hfirst
    (if_neg (c := p.val ≠ 4 ∧ (s.cd d).spareFit = true) (fun h => Bool.false_ne_true (hspare.symm.trans h.2)))
  refine runs_of_exec (exec_tileSubstitution hsub hin hfree) ⟨?_, hok, hsubs⟩
  rw [hmap, if_pos rfl]

end

/-- Settles O53: monitors, score, days, quarantine, substitution and the logs follow their events. -/
theorem healthEventsAreRecorded : Obligations.HealthEventsAreRecorded := by
  unfold Obligations.HealthEventsAreRecorded
  intro s
  refine ⟨?_, ?_, runs_dayRollover, runs_qRequestRepeat, runs_quarantineTakeEffect, runs_tokenLapse, ?_, ?_, ?_, ?_⟩
  · intro m inlet outlet d q hd hin hq
    refine (runs_monitorSample hq hd hin).imp fun t ht => ?_
    obtain ⟨⟨last, hmon⟩, hinlet, houtlet, hhigh, hlow, hdt⟩ := ht
    rw [hmon]
    refine ⟨rfl, rfl, rfl, ?_, rfl, rfl, rfl, hinlet, houtlet, hhigh, hlow, hdt⟩
    by_cases h : (s.mon d).samples = 0 <;> simp [Mon.sample, h]
  · intro sc
    refine (runs_healthScoreCompute (sc := sc) rfl).imp fun t ht => ?_
    obtain ⟨hscore, hrest⟩ := ht
    exact ⟨hscore, scoreOf_le _, hrest⟩
  · intro d p i hsub hin hfree hi hphys hfirst
    exact ⟨fun hp hspare => runs_tileSubstitution_spare hsub hin hfree hi hphys hfirst hp hspare,
      fun hspare => runs_tileSubstitution_absent hsub hin hfree hi hphys hfirst hspare⟩
  · intro e rest hintake
    exact runs_logIntake hintake rfl
  · intro e rest hqueue
    exact runs_mirrorCopy hqueue
  · intro type e rest hpend
    exact runs_ledgerRecordWrite hpend

end Sys2Proof.Machine

namespace Sys2Proof.Machine

/-! The health commands (R113, R433, R440 to R445, R448 to R451, R453, R455, R456). -/

section
variable {s : State} {src : Src}

theorem runs_healthStatus (hport : s.portAdmits src 0x0B01 = true) : Runs (.healthStatus src) s fun t => OnlyReply s t ∧
    Replied s t src 0x0B01 (leBytes 8 s.health.status ++
      leBytes 8 s.health.domains ++ leBytes 8 s.health.hardUe ++ s.health.contribBytes ++ s.health.dayBytes) := by
  have hx : exec (.healthStatus src) s = execHealthStatus src s := rfl
  unfold execHealthStatus at hx
  rw [State.command_runs hport rfl rfl rfl] at hx
  exact runs_of_exec hx ⟨OnlyReply.of_reply .., Replied.of_reply rfl rfl ..⟩

theorem runs_monRead {die : Nat} (hport : s.portAdmits src 0x0B02 = true) (hdie : die < 25) : Runs (.monRead src die 0) s fun t =>
    OnlyReply s t ∧ Replied s t src 0x0B02 (s.mon die).bytes := by
  have hx : exec (.monRead src die 0) s = execMonRead src die 0 s := rfl
  unfold execMonRead at hx
  rw [State.command_runs hport (by simp) rfl (by simp [firstErr]; omega)] at hx
  exact runs_of_exec hx ⟨OnlyReply.of_reply .., Replied.of_reply rfl rfl ..⟩

/-- MON_READ with CLEAR starts the extremes of an entry anew (R433). -/
theorem runs_monRead_clear {die clear : Nat} (ha : Admin s src 0x0B02) (hdie : die < 25) (hclear : clear ≠ 0) :
    Runs (.monRead src die clear) s fun t => Replied s t src 0x0B02 (s.mon die).bytes ∧
      t.mon die = { s.mon die with tempMax := (s.mon die).temp, vcoreMin := (s.mon die).vcore, marginMin := (s.mon die).margin } ∧
      ∀ d, d ≠ die → t.mon d = s.mon d := by
  have hx : exec (.monRead src die clear) s = execMonRead src die clear s := rfl
  unfold execMonRead at hx
  rw [State.command_runs ha.port (by rw [ha.admin, Bool.or_true]) rfl (by simp [firstErr]; omega)] at hx
  dsimp only at hx
  rw [if_neg hclear] at hx
  have hmon (u : State) (e : Err) (b : List Byte) (k : Nat) : (u.reply src 0x0B02 e b).mon k = u.mon k := by
    rw [State.mon, State.reply_health, State.mon]
  refine runs_of_exec hx ⟨Replied.of_reply rfl rfl .., ?_, fun d hd => ?_⟩
  · rw [hmon, State.mon_modMon, if_pos rfl]
  · rw [hmon, State.mon_modMon, if_neg hd]

section
variable {first count : Nat} (hpos : 0 < count) (hcount : count ≤ 63)
include hpos hcount

theorem runs_logRead (hport : s.portAdmits src 0x0B03 = true) (hhd : s.svc.hdIn = true) (hahead : ringAhead s.log.head first = false) :
    Runs (.logRead src first count) s fun t =>
      Replied s t src 0x0B03 (leBytes 4 (s.log.head - min s.log.head 65536) ++ leBytes 4 s.log.head ++
        ringRead s.log.head 65536 s.log.ring first count) ∧
      t.log = { s.log with readTo := readUpTo s.log.head 65536 s.log.readTo first count } := by
  have hx : exec (.logRead src first count) s = execLogRead src first count s := rfl
  unfold execLogRead at hx
  rw [State.command_runs hport rfl rfl (by simp [firstErr, hhd, hahead]; omega)] at hx
  refine runs_of_exec hx ⟨?_, State.reply_log ..⟩
  refine Replied.of_reply ?_ ?_ ..
  · rfl
  · rfl

omit hpos hcount in
/-- A read from the head on is refused (R526). -/
theorem runs_logRead_refused (hport : s.portAdmits src 0x0B03 = true) (hhd : s.svc.hdIn = true) (hahead : ringAhead s.log.head first = true) :
    Runs (.logRead src first count) s fun t => OnlyReply s t ∧ t.out = answer s src 0x0B03 .range [] :: s.out := by
  have hx : exec (.logRead src first count) s = execLogRead src first count s := rfl
  unfold execLogRead at hx
  rw [State.command_fails (e := .range) hport rfl rfl (by simp [firstErr, hhd, hahead])] at hx
  exact runs_of_exec hx ⟨OnlyReply.of_reply .., State.out_reply_error ..⟩

theorem runs_mirrorRead (hport : s.portAdmits src 0x0B04 = true) (hahead : ringAhead s.mirror.head first = false) :
    Runs (.mirrorRead src first count) s fun t =>
      Replied s t src 0x0B04 (leBytes 4 (s.mirror.head - min s.mirror.head 4096) ++ leBytes 4 s.mirror.head ++
        ringRead s.mirror.head 4096 s.mirror.ring first count) ∧
      t.mirror = { s.mirror with readTo := readUpTo s.mirror.head 4096 s.mirror.readTo first count } := by
  have hx : exec (.mirrorRead src first count) s = execMirrorRead src first count s := rfl
  unfold execMirrorRead at hx
  rw [State.command_runs hport rfl rfl (by simp [firstErr, hahead]; omega)] at hx
  refine runs_of_exec hx ⟨?_, State.reply_mirror ..⟩
  refine Replied.of_reply ?_ ?_ ..
  · rfl
  · rfl

theorem runs_ledgerRead (hport : s.portAdmits src 0x0B05 = true) (hfirst : first < s.ledger.seq) :
    Runs (.ledgerRead src first count) s fun t => OnlyReply s t ∧
      Replied s t src 0x0B05 (leBytes 4 s.ledger.oldest ++ leBytes 4 s.ledger.seq ++ (List.range count).flatMap fun i =>
        if max first s.ledger.oldest + i < s.ledger.seq then (s.recordRead (max first s.ledger.oldest + i)).getD [] else []) := by
  have hx : exec (.ledgerRead src first count) s = execLedgerRead src first count s := rfl
  unfold execLedgerRead at hx
  rw [State.command_runs hport rfl rfl (by simp [firstErr]; omega)] at hx
  exact runs_of_exec hx ⟨OnlyReply.of_reply .., Replied.of_reply rfl rfl ..⟩

end

theorem runs_spareList (hport : s.portAdmits src 0x0B06 = true) : Runs (.spareList src) s fun t => OnlyReply s t ∧
    Replied s t src 0x0B06 (((s.sparesUsed.zip spareTotals).flatMap fun e => leBytes 2 e.1 ++ leBytes 2 e.2) ++
      ((List.range 16).map fun n => BitVec.ofNat 8 (s.cd n).map.ok) ++
      (List.range 16).map fun n => BitVec.ofNat 8 (bits (s.cd n).hbm.status 3 2)) := by
  have hx : exec (.spareList src) s = execSpareList src s := rfl
  unfold execSpareList at hx
  rw [State.command_runs hport rfl rfl rfl] at hx
  exact runs_of_exec hx ⟨OnlyReply.of_reply .., Replied.of_reply rfl rfl ..⟩

theorem runs_histRead {die : Nat} (hport : s.portAdmits src 0x0B0F = true) (hdie : die < 16) : Runs (.histRead src die) s fun t =>
    OnlyReply s t ∧ Replied s t src 0x0B0F ((List.range 40).flatMap fun i => leBytes 2 (Tab.get 0 s.health.hist (40 * die + i))) := by
  have hx : exec (.histRead src die) s = execHistRead src die s := rfl
  unfold execHistRead at hx
  rw [State.command_runs hport rfl rfl (by simp [firstErr]; omega)] at hx
  exact runs_of_exec hx ⟨OnlyReply.of_reply .., Replied.of_reply rfl rfl ..⟩

theorem runs_ledgerNote {note : List Byte} (ha : Admin s src 0x0B0E) : Runs (.ledgerNote src note) s fun t =>
    Replied s t src 0x0B0E (leBytes 4 (s.ledger.seq + s.ledger.pending.length)) ∧
      ∃ e, t.ledger.pending = s.ledger.pending ++ [(9, e)] ∧ e.data = padTo 32 note ∧ t.flash = s.flash := by
  have hx : exec (.ledgerNote src note) s = execLedgerNote src note s := rfl
  unfold execLedgerNote at hx
  rw [State.command_runs ha.port ha.admin rfl rfl] at hx
  refine runs_of_exec hx ⟨?_, _, congrArg Ledger.pending (State.reply_ledger ..), rfl, State.reply_flash ..⟩
  refine Replied.of_reply ?_ ?_ ..
  · rfl
  · rfl

theorem runs_quarantineGrant {token a b : Nat} (ha : Admin s src 0x0B09) (hab : a < b) (hq : s.health.quarantined = false)
    (ht : s.health.token = false) : Runs (.quarantineGrant src s.node token a b) s fun t => Replied s t src 0x0B09 [] ∧
      t.health = { s.health with token := true, tokenId := token, tokenT := a, tokenX := b } := by
  have hx : exec (.quarantineGrant src s.node token a b) s = execQuarantineGrant src s.node token a b s := rfl
  unfold execQuarantineGrant at hx
  rw [State.command_runs ha.port ha.admin rfl (by simp [firstErr, hq, ht]; omega)] at hx
  refine runs_of_exec hx ⟨?_, State.reply_health ..⟩
  refine Replied.of_reply ?_ ?_ ..
  · rfl
  · rfl

section
variable {x : Nat} (hctx : src.context = x) (hhd : s.svc.hdIn = true) (hst : (s.cx x).st ≠ .free)
include hctx hhd hst

theorem runs_progressRead (hport : s.portAdmits src 0x0B0C = true) : Runs (.progressRead src x) s fun t => OnlyReply s t ∧
    Replied s t src 0x0B0C (leBytes 8 (s.progNow x).pending ++ leBytes 8 (s.progNow x).useful ++ leBytes 8 (s.progNow x).lost ++
      leBytes 8 (s.progNow x).moved) := by
  have hx : exec (.progressRead src x) s = execProgressRead src x s := rfl
  unfold execProgressRead at hx
  rw [State.command_runs hport rfl (decide_eq_true hctx) (by simp [firstErr, hhd, State.noCtx, hst])] at hx
  exact runs_of_exec hx ⟨OnlyReply.of_reply .., Replied.of_reply rfl rfl ..⟩

/-- PROGRESS_MARK moves the pending time (R453). -/
theorem runs_progressMark {action : Nat} (ha : Admin s src 0x0B0D) (haction : action < 2) (hgood : (s.cx x).goodput = false)
    (hrun : (s.cx x).st ≠ .running) : Runs (.progressMark src x action) s fun t =>
      Replied s t src 0x0B0D (leBytes 8 (s.progNow x).pending) ∧ (t.prog x).pending = 0 ∧ (t.prog x).moved = s.now ∧
      ((t.prog x).useful = if action = 0 then (s.progNow x).useful + (s.progNow x).pending else (s.progNow x).useful) ∧
      ((t.prog x).lost = if action = 0 then (s.progNow x).lost else (s.progNow x).lost + (s.progNow x).pending) := by
  have hx : exec (.progressMark src x action) s = execProgressMark src x action s := rfl
  unfold execProgressMark at hx
  rw [State.command_runs ha.port ha.admin (decide_eq_true hctx) (by simp [firstErr, hhd, State.noCtx, hst, hgood, hrun]; omega)] at hx
  have hprog (u : State) (b : List Byte) : (u.reply src 0x0B0D .ok b).prog x = u.prog x := by
    rw [State.prog, State.reply_ctx, State.prog]
  refine runs_of_exec hx ⟨Replied.of_reply rfl rfl .., ?_⟩
  rw [hprog, State.modProg, State.prog]
  dsimp only
  rw [tab_get_set, if_pos rfl]
  split
  · exact ⟨rfl, rfl, rfl, rfl⟩
  · exact ⟨rfl, rfl, rfl, rfl⟩

end

end

end Sys2Proof.Machine

namespace Sys2Proof.Machine

/-! Spares, self-test, quarantine and limits by command (R203, R247, R440 to R445, R455). -/

theorem State.replyWrite_ok (s u : State) (src : Src) (c : Nat) : s.replyWrite src c (.ok u) = u.reply src c .ok [] := rfl

section
variable {s : State} {src : Src} {die index : Nat} (ha : Admin s src 0x0B07)
include ha

/-- The checks that SPARE_APPLY makes of every kind (R455). -/
theorem exec_spareApply {kind : Nat} (hkind : kind ≤ 2) (hdie : die < 24) (hin : s.dieIn die = true) {run : State → State}
    (hrun : exec (.spareApply src kind die index) s = .next (s.command src 0x0B07 (s.isAdmin src) true
      [(decide (2 < kind), .range), (!s.dieIn die || decide (24 ≤ die), .range)] run)) :
    exec (.spareApply src kind die index) s = .next (run s) := by
  rw [hrun, State.command_runs ha.port ha.admin rfl]
  refine firstErr_none fun c hc => ?_
  simp only [List.mem_cons, List.not_mem_nil, or_false] at hc
  rcases hc with rfl | rfl
  · simp; omega
  · simp [hin]; omega

/-- SPARE_APPLY moves a tile to T4 (R443). -/
theorem runs_spareApply_tile (hdie : die < 16) (hin : s.dieIn die = true) (hindex : index < 4) (hcarries : (s.cd die).carries index = true)
    (hfree : s.launchOn die = false) (hspare : (s.cd die).spareFit = true) : Runs (.spareApply src 0 die index) s fun t =>
      RepliedLast s t src 0x0B07 [] ∧ bit (t.cd die).map.ok index = false ∧
        (t.tile die 4).mule = (s.tile die index).mule ∧ (t.tile die 4).mem = (s.tile die index).mem := by
  have hnone : firstErr [(decide (15 < die) || decide (4 < index) || !(s.cd die).carries index, Err.range), (s.launchOn die, .busy),
      (decide (index = 4) || !(s.cd die).spareFit, .nomem)] = none := by
    refine firstErr_none fun c hc => ?_
    simp only [List.mem_cons, List.not_mem_nil, or_false] at hc
    rcases hc with rfl | rfl | rfl
    · simp [hcarries]; omega
    · exact hfree
    · simp [hspare]; omega
  have hx := exec_spareApply ha (index := index) (kind := 0) (by omega) (by omega) hin (run := _) rfl
  obtain ⟨i, hi⟩ : ∃ i, (List.range 4).find? (fun i => (s.cd die).map.phys i == index) = some i :=
    Option.isSome_iff_exists.mp (List.find?_isSome.mpr (by simpa [ComputeDie.carries] using hcarries))
  obtain ⟨hphys, hmem, hfirst⟩ := List.find?_range_eq_some.mp hi
  obtain ⟨⟨-, hok⟩, htile, -, hft⟩ := State.retireTile_spec (List.mem_range.mp hmem) (beq_iff_eq.mp hphys)
    (fun j hj heq => by simpa [heq] using hfirst j hj) (if_pos (c := index ≠ 4 ∧ (s.cd die).spareFit = true) ⟨by omega, hspare⟩)
  have ht := htile 4 (by omega)
  rw [if_pos ⟨rfl, rfl⟩] at ht
  have hx' : exec (.spareApply src 0 die index) s = .next ((s.retireTile die index false).reply src 0x0B07 .ok []) := by
    rw [hx]
    change Host.Outcome.next (match firstErr _ with | some e => s.reply src 0x0B07 e [] | none => _) = _
    rw [hnone]
  generalize s.retireTile die index false = u at *
  refine runs_of_exec hx' ⟨?_, ?_, ?_, ?_⟩
  · refine RepliedLast.of_reply ?_ ..
    exact State.now_of_ft hft
  · rw [State.cd_of_cds (State.reply_cds ..), hok]
  · rw [State.tile_of_cds (State.reply_cds ..), ht]
    rfl
  · rw [State.tile_of_cds (State.reply_cds ..), ht]
    rfl

/-- SPARE_APPLY moves a bank of the hub memory to its spare (R247). -/
theorem runs_spareApply_bank (hhub : s.svc.hubIn = true) (hindex : index < 1024) (hmig : s.hubm.migrating = none)
    (hspares : s.hubm.sparesUsed < 32) (hgone : s.hubm.gone index = false) : Runs (.spareApply src 1 16 index) s fun t =>
      Replied s t src 0x0B07 [] ∧ t.hubm.migrating = some (index, 1024 + s.hubm.sparesUsed) ∧ t.hubm.map = s.hubm.map := by
  have hlow : bits (index + 2 ^ 10) 9 0 = index := by
    simp only [bits, Nat.shiftRight_zero]
    omega
  have htop : bit (index + 2 ^ 10) 10 = true := by
    simp only [bit, Nat.shiftRight_eq_div_pow, decide_eq_true_eq]
    omega
  have hmove : s.bankMigrate (index + 2 ^ 10) = .ok { s with hubm :=
      { s.hubm with logicalSel := index, migrating := some (index, 1024 + s.hubm.sparesUsed), done := false, code := .ok } } := by
    unfold State.bankMigrate
    rw [hlow, htop]
    dsimp only
    rw [if_neg (by decide), hmig, if_neg (by decide), if_neg (by omega)]
    exact if_neg (by rw [Bool.not_eq_true]; exact hgone)
  have hx : exec (.spareApply src 1 16 index) s = .next (s.replyWrite src 0x0B07
      (if 16 ≠ 16 ∨ 1023 < index then .error .range else s.bankMigrate (index + 2 ^ 10))) :=
    exec_spareApply ha (die := 16) (kind := 1) (index := index) (by omega) (by omega) hhub rfl
  rw [if_neg (by omega), hmove] at hx
  refine runs_of_exec (hx.trans (congrArg Host.Outcome.next (State.replyWrite_ok ..))) ⟨?_, ?_, ?_⟩
  · refine Replied.of_reply ?_ ?_ ..
    · rfl
    · rfl
  · rw [State.reply_hubm]
  · rw [State.reply_hubm]

/-- SPARE_APPLY moves a pseudo-channel to its spare (R203). -/
theorem runs_spareApply_stack (hdie : die < 16) (hin : s.dieIn die = true) (hindex : index < 32) (hrun : s.running = false)
    (hmig : (s.cd die).hbm.migrating = false) (hspares : (s.cd die).hbm.sparesUsed < 2) : Runs (.spareApply src 2 die index) s fun t =>
      Replied s t src 0x0B07 [] ∧ (t.cd die).hbm.migrating = true ∧ (t.cd die).hbm.logicalSel = index := by
  have hlow : bits (index + 2 ^ 5) 4 0 = index := by
    simp only [bits, Nat.shiftRight_zero]
    omega
  have htop : bit (index + 2 ^ 5) 5 = true := by
    simp only [bit, Nat.shiftRight_eq_div_pow, decide_eq_true_eq]
    omega
  obtain ⟨u, hmove, hft, hout, hcd⟩ : ∃ u, s.hbmMigrate die (index + 2 ^ 5) = .ok u ∧ u.ft = s.ft ∧ u.out = s.out ∧
      ((u.cd die).hbm.migrating = true ∧ (u.cd die).hbm.logicalSel = index) := by
    unfold State.hbmMigrate
    dsimp only
    rw [hlow, htop, if_neg (by decide), hrun, hmig, if_neg (by decide), if_pos hspares]
    refine ⟨_, rfl, rfl, rfl, ?_⟩
    rw [State.cd_modCd, if_pos rfl, State.cd_modCd, if_pos rfl]
    exact ⟨rfl, rfl⟩
  have hx : exec (.spareApply src 2 die index) s = .next (s.replyWrite src 0x0B07 (if 15 < die ∨ 31 < index then .error .range
      else if s.running || (s.cd die).hbm.migrating then .error .busy
      else if 2 ≤ (s.cd die).hbm.sparesUsed then .error .nomem
      else s.hbmMigrate die (index + 2 ^ 5))) :=
    exec_spareApply ha (by omega) (by omega) hin rfl
  rw [if_neg (by omega), hrun, hmig, if_neg (by decide), if_neg (by omega), hmove] at hx
  refine runs_of_exec (hx.trans (congrArg Host.Outcome.next (State.replyWrite_ok ..))) ⟨?_, ?_⟩
  · refine Replied.of_reply ?_ ?_ ..
    · exact State.now_of_ft hft
    · exact hout
  · rw [State.cd_of_cds (State.reply_cds ..)]
    exact hcd

end

end Sys2Proof.Machine

namespace Sys2Proof.Machine

/-! The self-test, the release of a quarantine and the limits by command (R113, R440, R449, R451). -/

/-- A self-test counts the misses it finds, whatever they are (R113). -/
theorem State.misses_spec (d p : Nat) (found : List TestMiss) (f : State → TestMiss → State)
    (hf : ∀ s m, ∃ mech phys col row lrc load fmt chk ctx, f s m = s.miscompare d p mech phys col row lrc load fmt chk ctx) :
    ∀ s : State, (found.foldl f s).ft = s.ft ∧ ((s.tile d p).arr.misCount ≤ 0xFFFF →
      ((found.foldl f s).tile d p).arr.misCount = min 0xFFFF ((s.tile d p).arr.misCount + found.length)) := by
  induction found with
  | nil =>
    intro s
    refine ⟨rfl, fun h => ?_⟩
    rw [List.foldl_nil, List.length_nil, Nat.add_zero, Nat.min_eq_right h]
  | cons m found ih =>
    intro s
    obtain ⟨mech, phys, col, row, lrc, load, fmt, chk, ctx, hm⟩ := hf s m
    rw [List.foldl_cons, hm]
    obtain ⟨hft, hcount⟩ := ih (s.miscompare d p mech phys col row lrc load fmt chk ctx)
    have hone := congrArg (fun t : Tile => t.arr.misCount) (s.tile_miscompare d p mech phys col row lrc load fmt chk ctx)
    dsimp only at hone
    refine ⟨hft.trans ?_, fun h => ?_⟩
    · unfold State.miscompare
      dsimp only
      rw [State.raise_ft]
      split <;> rfl
    · rw [hcount (by omega), hone, List.length_cons]
      omega

/-- One miss found by a self-test, counted (R113). -/
def State.testMiss (die tile : Nat) (s : State) (m : TestMiss) : State :=
  s.miscompare die tile 2 m.phys m.col m.row 0 (m.load % 2 ^ 24) (m.load / 2 ^ 24) 0xFFFF 0xFFFF

theorem runs_selftest {s : State} {src : Src} {die tile n : Nat} {found : List TestMiss} (ha : Admin s src 0x0B08) (hdie : die < 16)
    (hin : s.dieIn die = true) (htile : tile < 5) (hpos : 0 < n) (hn : n < 256) (hbusy : s.testBusy die tile = false) :
    Runs (.selftest src die tile n found) s fun t =>
      RepliedLast s t src 0x0B08 (leBytes 4 found.length) ∧ (found = [] → OnlyReply { s with health := t.health } t) ∧
        ((s.tile die tile).arr.misCount ≤ 0xFFFF →
          (t.tile die tile).arr.misCount = min 0xFFFF ((s.tile die tile).arr.misCount + found.length)) := by
  have hx : exec (.selftest src die tile n found) s = execSelftest src die tile n found s := rfl
  unfold execSelftest at hx
  rw [State.command_runs ha.port ha.admin rfl
    (firstErr_none fun c hc => by
      simp only [List.mem_cons, List.not_mem_nil, or_false] at hc
      rcases hc with rfl | rfl
      · simp [hin]; omega
      · exact hbusy)] at hx
  obtain ⟨hft, hcount⟩ := State.misses_spec die tile found (State.testMiss die tile)
    (fun _ _ => ⟨_, _, _, _, _, _, _, _, _, rfl⟩) s
  obtain ⟨u, hu⟩ : ∃ u, u = found.foldl (State.testMiss die tile) s := ⟨_, rfl⟩
  rw [← hu] at hft hcount
  obtain ⟨h, hx'⟩ : ∃ h, exec (.selftest src die tile n found) s =
      .next ({ u with health := h }.reply src 0x0B08 .ok (leBytes 4 found.length)) := by
    rw [hu]
    unfold State.testMiss
    dsimp only at hx
    split at hx
    · exact ⟨_, hx⟩
    · exact ⟨_, hx⟩
  refine runs_of_exec hx' ⟨?_, ?_, ?_⟩
  · refine RepliedLast.of_reply ?_ ..
    exact State.now_of_ft hft
  · rintro rfl
    obtain rfl : u = s := hu
    rw [State.reply_health]
    exact OnlyReply.of_reply ..
  · rw [State.tile_of_cds (State.reply_cds ..)]
    exact hcount

/-- What a release of the quarantine does for a link (R451). -/
def State.retrain (s : State) (l : Nat) : State :=
  if (s.link l).st = .down ∧ (s.link l).auto = true ∧ (s.link l).enable = true ∧ s.dieIn (linkDie l) = true then
    s.modLx l fun x => { x with trainAt := some s.aonNs }
  else s

theorem State.retrain_only (s : State) (l : Nat) : s.retrain l = { s with linkx := (s.retrain l).linkx } := by
  unfold retrain
  split <;> rfl

theorem State.foldl_retrain_only (ls : List Nat) :
    ∀ s : State, ls.foldl State.retrain s = { s with linkx := (ls.foldl State.retrain s).linkx } := by
  induction ls with
  | nil => exact fun _ => rfl
  | cons l ls ih =>
    intro s
    rw [List.foldl_cons]
    have hrest := ih (s.retrain l)
    rw [retrain_only] at hrest ⊢
    exact hrest

theorem State.trainAt_retrain {s : State} {l : Nat} (hst : (s.link l).st = .down) (hauto : (s.link l).auto = true)
    (hen : (s.link l).enable = true) (hin : s.dieIn (linkDie l) = true) : (s.retrain l).lx l = { s.lx l with trainAt := some s.aonNs } := by
  rw [retrain, if_pos ⟨hst, hauto, hen, hin⟩, lx_modLx, if_pos rfl]

theorem State.trainAt_foldl_retrain {l : Nat} (ls : List Nat) : ∀ s : State, (s.link l).st = .down → (s.link l).auto = true →
    (s.link l).enable = true → s.dieIn (linkDie l) = true → l ∈ ls ∨ (s.lx l).trainAt = some s.aonNs →
    ((ls.foldl State.retrain s).lx l).trainAt = some s.aonNs := by
  induction ls with
  | nil =>
    intro s _ _ _ _ h
    exact h.resolve_left List.not_mem_nil
  | cons k ls ih =>
    intro s hst hauto hen hin h
    obtain ⟨x, hx⟩ : ∃ x, s.retrain k = { s with linkx := x } := ⟨_, s.retrain_only k⟩
    have hnext : l ∈ ls ∨ ((s.retrain k).lx l).trainAt = some s.aonNs := by
      by_cases hk : k = l
      · rw [hk, trainAt_retrain hst hauto hen hin]
        exact .inr rfl
      · refine (h.imp_left fun h => (List.mem_cons.mp h).resolve_left (Ne.symm hk)).imp_right fun h => ?_
        unfold retrain
        split
        · rw [lx_modLx, if_neg (Ne.symm hk)]
          exact h
        · exact h
    rw [List.foldl_cons]
    rw [hx] at hnext ⊢
    exact ih { s with linkx := x } hst hauto hen hin hnext

/-- The miscompare limit of the arrays es (R113). -/
def State.limitArrays (s : State) (limit : Nat) (es : List (Nat × Nat)) : State :=
  es.foldl (fun s e => s.modArr e.1 e.2 fun a => { a with misLimit := limit }) s

theorem State.limitArrays_only (limit : Nat) (es : List (Nat × Nat)) :
    ∀ s : State, s.limitArrays limit es = { s with cds := (s.limitArrays limit es).cds } := by
  induction es with
  | nil => exact fun _ => rfl
  | cons e es ih => exact fun s => (ih _).trans rfl

theorem State.arr_limitArrays {d p limit : Nat} (es : List (Nat × Nat)) :
    ∀ s : State, (d, p) ∈ es ∨ (s.tile d p).arr.misLimit = limit →
      ((s.limitArrays limit es).tile d p).arr = { (s.tile d p).arr with misLimit := limit } := by
  induction es with
  | nil =>
    intro s h
    rw [← h.resolve_left List.not_mem_nil]
    rfl
  | cons e es ih =>
    intro s h
    have hone := s.tile_modArr e.1 e.2 d p (fun a : ArrayU => { a with misLimit := limit })
    have hrest := ih (s.modArr e.1 e.2 fun a => { a with misLimit := limit })
    by_cases he : d = e.1 ∧ p = e.2
    · obtain ⟨rfl, rfl⟩ := he
      rw [if_pos ⟨rfl, rfl⟩] at hone
      rw [hone] at hrest
      exact hrest (.inr rfl)
    · rw [if_neg he] at hone
      rw [hone] at hrest
      exact hrest (h.imp_left fun h => (List.mem_cons.mp h).resolve_left fun h => he (Prod.mk.inj h))

section
variable {s : State} {src : Src}

theorem runs_quarantineRelease (ha : Admin s src 0x0B0A) (hq : s.health.quarantined = true) (hhard : s.health.hard = false) :
    Runs (.quarantineRelease src) s fun t => RepliedLast s t src 0x0B0A [] ∧ t.health.quarantined = false ∧ t.links = s.links ∧
      ∀ l, l < 36 → (s.link l).st = .down → (s.link l).auto = true → (s.link l).enable = true → s.dieIn (linkDie l) = true →
        (t.lx l).trainAt = some s.aonNs := by
  have hx : exec (.quarantineRelease src) s = execQuarantineRelease src s := rfl
  unfold execQuarantineRelease at hx
  rw [State.command_runs ha.port ha.admin rfl (by rw [hq, hhard]; rfl)] at hx
  obtain ⟨ls, hls⟩ : ∃ ls, ls = List.range 36 := ⟨_, rfl⟩
  rw [← hls] at hx
  obtain ⟨v, hv⟩ : ∃ v : State, v = { s with health := { s.health with quarantined := false } } := ⟨_, rfl⟩
  have htrain := fun l => State.trainAt_foldl_retrain (l := l) ls v
  obtain ⟨x, hw⟩ : ∃ x, ls.foldl State.retrain v = { v with linkx := x } := ⟨_, State.foldl_retrain_only ls v⟩
  rw [hw] at htrain
  obtain ⟨w, hwx⟩ : ∃ w : State, w = { v with linkx := x } := ⟨_, rfl⟩
  have hx' : exec (.quarantineRelease src) s =
      .next (((w.service w.svc .ok).healthEvent 1 .ok w.health.score s.health.hstate).reply src 0x0B0A .ok []) := by
    rw [hwx, ← hw, hv]
    exact hx
  obtain ⟨-, hcore, hlinkx⟩ := w.service_spec w.svc .ok
  have houter := State.outer_healthEvent (w.service w.svc .ok) 1 .ok w.health.score s.health.hstate
  have hlinks : (w.service w.svc .ok).links = w.links := State.service_links ..
  have hft : (w.service w.svc .ok).ft = w.ft := State.service_ft ..
  generalize w.service w.svc .ok = u at *
  generalize u.healthEvent 1 .ok w.health.score s.health.hstate = r at *
  refine runs_of_exec hx' ⟨?_, ?_, ?_, ?_⟩
  · refine RepliedLast.of_reply ?_ ..
    rw [State.now_of_outer houter]
    refine State.now_of_ft (hft.trans ?_)
    rw [hwx, hv]
  · rw [State.reply_health]
    have hquar := congrArg Health.quarantined ((State.core_of_outer houter).trans hcore)
    refine Eq.trans hquar ?_
    rw [hwx, hv]
    rfl
  · rw [State.reply_links, State.links_of_outer houter, hlinks, hwx, hv]
  · intro l hl hst hauto hen hin
    have hlx : (r.reply src 0x0B0A .ok []).linkx = w.linkx := by
      rw [State.reply_linkx, State.linkx_of_outer houter, hlinkx]
    rw [State.lx, hlx, hwx]
    refine Eq.trans (htrain l ?_ ?_ ?_ ?_ (.inl ?_)) ?_
    · rw [hv]; exact hst
    · rw [hv]; exact hauto
    · rw [hv]; exact hen
    · rw [hv]; exact hin
    · rw [hls]; exact List.mem_range.mpr hl
    · rw [hv]

theorem runs_healthSet {limit margin : Nat} (ha : Admin s src 0x0B0B) (hlimit : limit ≠ 0) : Runs (.healthSet src limit margin) s fun t =>
    Replied s t src 0x0B0B [] ∧ t.health = { s.health with marginLimit := margin } ∧
      ∀ d p, d < 16 → p < 5 → s.dieIn d = true → (t.tile d p).arr = { (s.tile d p).arr with misLimit := limit } := by
  obtain ⟨es, hes⟩ : ∃ es, es = ((List.range 16).filter s.dieIn).flatMap fun n => (List.range 5).map fun p => (n, p) := ⟨_, rfl⟩
  have hx : exec (.healthSet src limit margin) s = execHealthSet src limit margin s := rfl
  unfold execHealthSet at hx
  rw [State.command_runs ha.port ha.admin rfl (by simp [firstErr, hlimit])] at hx
  have hfold : ((List.range 16).filter s.dieIn).foldl (fun s n =>
      (List.range 5).foldl (fun s p => s.modArr n p fun a => { a with misLimit := limit }) s) s = s.limitArrays limit es := by
    rw [State.limitArrays, hes, List.foldl_flatMap]
    simp only [List.foldl_map]
  dsimp only at hx
  rw [hfold] at hx
  have harr := fun d p => State.arr_limitArrays (d := d) (p := p) (limit := limit) es s
  obtain ⟨cds, hcds⟩ : ∃ cds, s.limitArrays limit es = { s with cds := cds } := ⟨_, State.limitArrays_only limit es s⟩
  rw [hcds] at hx harr
  refine runs_of_exec hx ⟨?_, ?_, ?_⟩
  · refine Replied.of_reply ?_ ?_ ..
    · rfl
    · rfl
  · rw [State.reply_health]
  · intro d p hd hp hin
    rw [State.tile_of_cds (State.reply_cds ..)]
    refine harr d p (.inl ?_)
    rw [hes]
    exact List.mem_flatMap.mpr ⟨d, List.mem_filter.mpr ⟨List.mem_range.mpr hd, hin⟩, List.mem_map.mpr ⟨p, List.mem_range.mpr hp, rfl⟩⟩
end

end Sys2Proof.Machine

namespace Sys2Proof.Machine

/-- Settles O54: each health command answers what it reads, and changes what it names alone. -/
theorem healthCommandsAnswer : Obligations.HealthCommandsAnswer := by
  unfold Obligations.HealthCommandsAnswer
  intro src s
  refine ⟨runs_healthStatus, fun _ => runs_monRead, fun _ _ => runs_monRead_clear, ?_, ?_, ?_, ?_, runs_spareList, ?_, ?_,
    fun _ _ _ => runs_quarantineGrant, runs_quarantineRelease, fun _ _ => runs_healthSet, ?_, ?_, fun _ => runs_ledgerNote,
    fun _ => runs_histRead⟩
  · intro first count hport hhd hpos hcount hahead
    exact runs_logRead hpos hcount hport hhd hahead
  · intro first count hport hpos hcount hahead
    exact runs_mirrorRead hpos hcount hport hahead
  · intro first count hport hhd hpos hcount hahead
    exact runs_logRead_refused hport hhd hahead
  · intro first count hport hpos hcount hfirst
    exact runs_ledgerRead hpos hcount hport hfirst
  · intro die index ha
    exact ⟨runs_spareApply_tile ha, runs_spareApply_bank ha, runs_spareApply_stack ha⟩
  · intro die tile n found ha hdie hin htile hpos hn hbusy
    exact runs_selftest ha hdie hin htile hpos hn hbusy
  · intro x hport hctx hhd hst
    exact runs_progressRead hctx hhd hst hport
  · intro x action ha hctx hhd hst haction hgood hrun
    exact runs_progressMark hctx hhd hst ha haction hgood hrun

end Sys2Proof.Machine

namespace Sys2Proof

theorem crc32Byte_lt {c : Nat} (h : c < 2 ^ 32) (b : Byte) : crc32Byte c b < 2 ^ 32 := by
  have hshift (l : List Nat) : ∀ c : Nat, c < 2 ^ 32 →
      l.foldl (fun c _ => if bit c 0 then (c >>> 1) ^^^ 0xEDB88320 else c >>> 1) c < 2 ^ 32 := by
    induction l with
    | nil => exact fun _ hc => hc
    | cons _ l ih =>
      intro c hc
      have hhalf : c >>> 1 < 2 ^ 32 := by
        rw [Nat.shiftRight_eq_div_pow]
        omega
      refine ih _ ?_
      dsimp only
      split
      · exact Nat.xor_lt_two_pow hhalf (by omega)
      · exact hhalf
  exact hshift _ _ (Nat.xor_lt_two_pow h (by omega))

theorem crc32_lt (bs : List Byte) : crc32 bs < 2 ^ 32 := by
  have hbytes : ∀ c, c < 2 ^ 32 → bs.foldl crc32Byte c < 2 ^ 32 := by
    induction bs with
    | nil => exact fun _ hc => hc
    | cons b bs ih => exact fun c hc => ih _ (crc32Byte_lt hc b)
  exact Nat.xor_lt_two_pow (hbytes _ (by omega)) (by omega)

theorem tab_find_filter {α : Type} (t : Tab α) (p : Nat → Bool) (j : Nat) :
    Tab.find? (t.filter fun e => p e.1) j = if p j then Tab.find? t j else none := by
  induction t with
  | nil => split <;> rfl
  | cons e t ih =>
    obtain ⟨i, v⟩ := e
    by_cases hij : i = j
    · subst hij
      by_cases hp : p i = true
      · simp [Tab.find?, hp]
      · rw [if_neg hp] at ih
        simp [hp, ih]
    · by_cases hp : p i = true
      · simp [Tab.find?, hp, hij, ih]
      · simp [Tab.find?, hp, hij, ih]

end Sys2Proof

namespace Sys2Proof.Machine

/-! Erasing and programming the flash, and its directory (R458, R465). -/

theorem State.read_flashErase (s : State) (a n o : Nat) :
    Mem.read (s.flashErase a n).flash o = if o < a ∨ a + n ≤ o then Mem.read s.flash o else Mem.unlisted := by
  unfold flashErase Mem.read Tab.get
  rw [tab_find_filter s.flash (fun i => decide (i < a ∨ a + n ≤ i)) o]
  by_cases h : o < a ∨ a + n ≤ o
  · rw [if_pos (decide_eq_true h), if_pos h]
  · rw [if_neg (by simpa using h), if_neg h]
    rfl

theorem readN_congr {m m' : Mem} {n : Nat} : ∀ {a : Nat}, (∀ o, a ≤ o → o < a + n → Mem.read m' o = Mem.read m o) →
    Mem.readN m' a n = Mem.readN m a n := by
  induction n with
  | zero => exact fun _ => rfl
  | succ n ih =>
    intro a h
    rw [Mem.readN, Mem.readN, h a (by omega) (by omega), ih fun o ho hlt => h o (by omega) (by omega)]

theorem State.flashN_congr {s t : State} {a n : Nat} (h : ∀ o, a ≤ o → o < a + n → Mem.read t.flash o = Mem.read s.flash o) :
    t.flashN a n = s.flashN a n := congrArg _ (readN_congr h)

theorem State.flashN_erased {s : State} {n : Nat} : ∀ {a : Nat}, (∀ o, a ≤ o → o < a + n → Mem.read s.flash o = Mem.unlisted) →
    s.flashN a n = List.replicate n 0xFF := by
  induction n with
  | zero => exact fun _ => rfl
  | succ n ih =>
    intro a h
    have hrest := ih (a := a + 1) fun o ho hlt => h o (by omega) (by omega)
    unfold flashN at hrest ⊢
    rw [Mem.readN, h a (by omega) (by omega), List.map_cons, hrest, List.replicate_succ]
    rfl

/-- A bit programmed to 0 stays 0 (R458). -/
theorem State.flashN_flashProg_and (s : State) (a : Nat) (bs : List Byte) :
    (s.flashProg a bs).flashN a bs.length = List.zipWith (· &&& ·) (s.flashN a bs.length) bs := by
  have hbits (rs : List Byte) : ∀ bs : List Byte, ((rs.zip bs).map fun p => p.1 ||| ~~~p.2).map (fun b => ~~~b) =
      List.zipWith (· &&& ·) (rs.map fun b => ~~~b) bs := by
    induction rs with
    | nil => exact fun bs => rfl
    | cons r rs ih =>
      intro bs
      cases bs with
      | nil => rfl
      | cons b bs =>
        have hone : ~~~(r ||| ~~~b) = ~~~r &&& b := by
          rw [BitVec.not_or, BitVec.not_not]
        simp only [List.zip_cons_cons, List.map_cons, List.zipWith_cons_cons, hone, ih]
  have hlen : (((Mem.readN s.flash a bs.length).zip bs).map fun p => p.1 ||| ~~~p.2).length = bs.length := by
    rw [List.length_map, List.length_zip, readN_length, Nat.min_self]
  unfold flashProg flashN
  have hread := mem_readN_writeN s.flash a (((Mem.readN s.flash a bs.length).zip bs).map fun p => p.1 ||| ~~~p.2)
  rw [hlen] at hread
  rw [hread, hbits]

theorem State.dirCopy_congr {s t : State} (h : ∀ o, o < 0x20000 → Mem.read t.flash o = Mem.read s.flash o) {i : Nat} (hi : i < 2) :
    t.dirCopy i = s.dirCopy i := by
  rw [dirCopy, flashN_congr fun o _ hlt => h o (by omega), dirCopy]

/-- The directory that two copies give (R465, log entry 48). -/
def FwDir.pick : Option FwDir → Option FwDir → FwDir
  | some a, some b => if a.dseq < b.dseq then b else a
  | some a, none => a
  | none, some b => b
  | none, none => { confirmed := 1 }

theorem State.dir_eq (s : State) : s.dir = FwDir.pick (s.dirCopy 0) (s.dirCopy 1) := by
  unfold dir dirUse
  cases h0 : s.dirCopy 0 with
  | none =>
    cases h1 : s.dirCopy 1 with
    | none => rfl
    | some b =>
      dsimp only
      rw [h1]
      rfl
  | some a =>
    cases h1 : s.dirCopy 1 with
    | none =>
      dsimp only
      rw [h0]
      rfl
    | some b =>
      dsimp only [FwDir.pick]
      by_cases h : a.dseq < b.dseq
      · rw [if_pos h, if_pos h, h1]
        rfl
      · rw [if_neg h, if_neg h, h0]
        rfl

theorem State.dir_congr {s t : State} (h : ∀ o, o < 0x20000 → Mem.read t.flash o = Mem.read s.flash o) : t.dir = s.dir := by
  rw [dir_eq, dirCopy_congr h (by omega), dirCopy_congr h (by omega), dir_eq]

theorem State.confirmed_dirCopy {s : State} {i : Nat} {d : FwDir} (h : s.dirCopy i = some d) : d.confirmed < 4 := by
  unfold dirCopy at h
  dsimp only at h
  split at h
  · cases h
    exact Nat.mod_lt _ (by omega)
  · cases h

theorem State.confirmed_dir (s : State) : s.dir.confirmed < 4 := by
  rw [dir_eq]
  cases h0 : s.dirCopy 0 with
  | none =>
    cases h1 : s.dirCopy 1 with
    | none => exact (by decide : 1 < 4)
    | some b => exact confirmed_dirCopy h1
  | some a =>
    cases h1 : s.dirCopy 1 with
    | none => exact confirmed_dirCopy h0
    | some b =>
      unfold FwDir.pick
      dsimp only
      split
      · exact confirmed_dirCopy h1
      · exact confirmed_dirCopy h0

/-- The directory before its CRC (R465). -/
def FwDir.fields (d : FwDir) : List Byte :=
  leBytes 4 0x44495243 ++ leBytes 4 d.dseq ++ [BitVec.ofNat 8 d.preferred, BitVec.ofNat 8 d.tries, BitVec.ofNat 8 d.confirmed] ++
    leBytes 49 0

theorem FwDir.fields_length (d : FwDir) : d.fields.length = 60 := by
  unfold fields
  repeat rw [List.length_append]
  repeat rw [leBytes_length]
  rfl

theorem FwDir.bytes_length (d : FwDir) : d.bytes.length = 64 := by
  unfold bytes
  dsimp only
  repeat rw [List.length_append]
  repeat rw [leBytes_length]
  rfl

/-- A directory programmed into erased bytes is read back (R465). -/
theorem State.dirCopy_flashProg {s : State} {i : Nat} {d : FwDir} (herased : s.flashN (0x10000 * i) 64 = List.replicate 64 0xFF)
    (hseq : d.dseq < 2 ^ 32) (hpref : d.preferred < 2) (htries : d.tries < 4) (hconf : d.confirmed < 4) :
    (s.flashProg (0x10000 * i) d.bytes).dirCopy i = some d := by
  have hread := State.flashN_flashProg (s := s) (a := 0x10000 * i) (bs := d.bytes) (by rw [FwDir.bytes_length]; exact herased)
  rw [FwDir.bytes_length] at hread
  unfold dirCopy
  dsimp only
  rw [hread]
  have hcrc := crc32_lt d.fields
  have hfields : d.bytes = d.fields ++ leBytes 4 (crc32 d.fields) := rfl
  have hmagic : fld d.bytes 0 4 = 0x44495243 := leNat_leBytes 4 _ (by omega)
  have hsum : fld d.bytes 60 4 = crc32 (d.bytes.take 60) := by
    rw [hfields, List.take_left' d.fields_length, fld, List.drop_left' d.fields_length]
    exact leNat_leBytes 4 _ (by omega)
  have hdseq : fld d.bytes 4 4 = d.dseq := leNat_leBytes 4 _ (by omega)
  have hbyte (n : Nat) (hn : n < 4) : (BitVec.ofNat 8 n).toNat = n := by
    rw [BitVec.toNat_ofNat]
    omega
  have hp : fld d.bytes 8 1 = d.preferred := hbyte d.preferred (by omega)
  have ht : fld d.bytes 9 1 = d.tries := hbyte d.tries htries
  have hc : fld d.bytes 10 1 = d.confirmed := hbyte d.confirmed hconf
  rw [if_pos ⟨hmagic, hsum⟩, hdseq, hp, ht, hc, Nat.mod_eq_of_lt hpref, Nat.mod_eq_of_lt htries, Nat.mod_eq_of_lt hconf]

/-- The copy that a rewrite of the directory takes (R465). -/
def State.dirNext (s : State) : Nat :=
  match s.dirUse with
  | some 0 => 1
  | _ => 0

theorem State.writeDir_eq (s : State) (d : FwDir) : s.writeDir d =
    (s.flashErase (0x10000 * s.dirNext) 0x10000).flashProg (0x10000 * s.dirNext) ({ d with dseq := s.dir.dseq + 1 } : FwDir).bytes := rfl

theorem State.writeDir_only (s : State) (d : FwDir) : ∃ f, s.writeDir d = { s with flash := f } := ⟨_, rfl⟩

theorem State.dirNext_lt (s : State) : s.dirNext < 2 := by
  unfold dirNext
  split <;> omega

theorem State.read_writeDir_out (s : State) (d : FwDir) {o : Nat} (h : o < 0x10000 * s.dirNext ∨ 0x10000 * s.dirNext + 0x10000 ≤ o) :
    Mem.read (s.writeDir d).flash o = Mem.read s.flash o := by
  rw [writeDir_eq, read_flashProg_out _ (by rw [FwDir.bytes_length]; omega), read_flashErase, if_pos h]

/-- The directory in force stands in the copy that a rewrite leaves, or in none. -/
theorem State.dirNext_spec (s : State) : (s.dirNext = 1 ∧ s.dirCopy 0 = some s.dir) ∨
    (s.dirNext = 0 ∧ (s.dirCopy 1 = none ∨ s.dirCopy 1 = some s.dir)) := by
  have hdir := s.dir_eq
  unfold dirNext dirUse
  cases h0 : s.dirCopy 0 with
  | none =>
    rw [h0] at hdir
    cases h1 : s.dirCopy 1 with
    | none => exact .inr ⟨rfl, .inl rfl⟩
    | some b =>
      rw [h1] at hdir
      exact .inr ⟨rfl, .inr (congrArg some hdir.symm)⟩
  | some a =>
    rw [h0] at hdir
    cases h1 : s.dirCopy 1 with
    | none =>
      rw [h1] at hdir
      exact .inl ⟨rfl, congrArg some hdir.symm⟩
    | some b =>
      rw [h1] at hdir
      dsimp only [FwDir.pick] at hdir ⊢
      by_cases h : a.dseq < b.dseq
      · rw [if_pos h] at hdir ⊢
        exact .inr ⟨rfl, .inr (congrArg some hdir.symm)⟩
      · rw [if_neg h] at hdir ⊢
        exact .inl ⟨rfl, congrArg some hdir.symm⟩

theorem State.dir_writeDir {s : State} {d : FwDir} (hseq : s.dir.dseq + 1 < 2 ^ 32) (hpref : d.preferred < 2) (htries : d.tries < 4)
    (hconf : d.confirmed < 4) : (s.writeDir d).dir = { d with dseq := s.dir.dseq + 1 } := by
  have hnew : (s.writeDir d).dirCopy s.dirNext = some { d with dseq := s.dir.dseq + 1 } := by
    rw [writeDir_eq]
    refine dirCopy_flashProg (flashN_erased fun o ho hlt => ?_) hseq hpref htries hconf
    rw [read_flashErase, if_neg (by omega)]
  have hother (i : Nat) (hi : i ≠ s.dirNext) : (s.writeDir d).dirCopy i = s.dirCopy i := by
    rw [dirCopy, flashN_congr fun o ho hlt => s.read_writeDir_out d (by omega), dirCopy]
  rw [dir_eq (s.writeDir d)]
  rcases s.dirNext_spec with ⟨hnext, h0⟩ | ⟨hnext, h1 | h1⟩
  · rw [hnext] at hnew
    rw [hnew, hother 0 (by omega), h0, FwDir.pick, if_pos (Nat.lt_succ_self _)]
  · rw [hnext] at hnew
    rw [hnew, hother 1 (by omega), h1, FwDir.pick]
  · rw [hnext] at hnew
    rw [hnew, hother 1 (by omega), h1, FwDir.pick, if_neg (Nat.not_lt.mpr (Nat.le_succ _))]

end Sys2Proof.Machine

namespace Sys2Proof.Machine

theorem setBit_false_lt {x i n : Nat} (h : x < n) : setBit x i false < n := by
  unfold setBit
  split
  · exact h
  · exact lt_of_le_of_lt (Nat.sub_le ..) h

/-! The security and firmware commands (R459, R461, R464, R465, R476, R477, R480 to R482, R485). -/

section
variable {s : State} {src : Src}

theorem exec_ownerSet {modulus exponent rsv sig : List Byte} {count flags : Nat} (hport : s.portAdmits src 0x0C06 = true)
    (hexp : beNat (padTo 4 exponent) = 65537) (hcount : s.sec.owned = true → s.sec.ownerCount < count)
    (hsig : rsaVerify (if s.sec.owned then s.sec.ownerKey else padTo 384 modulus ++ padTo 4 exponent)
      (leBytes 8 s.sec.serial ++ (padTo 384 modulus ++ padTo 4 exponent) ++ leBytes 8 count ++ [BitVec.ofNat 8 flags]) sig = true) :
    exec (.ownerSet src modulus exponent count flags rsv sig) s = .next (s.queueCommit
      { src := some src, command := 0x0C06, closes := !bit flags 0,
        recs := { type := 5, index := 0, data := padTo 384 modulus ++ padTo 4 exponent ++ leBytes 8 count } ::
          (if bit flags 0 then [] else ((List.range 8).filter fun c => (s.enrol c).st = 1).map fun c =>
            { type := 4, index := c, data := ({ s.enrol c with st := 2 } : Enrol).bytes }) }) := by
  have hx : exec (.ownerSet src modulus exponent count flags rsv sig) s = execOwnerSet src modulus exponent count flags rsv sig s := rfl
  unfold execOwnerSet at hx
  dsimp only at hx
  rw [State.command_runs hport rfl rfl] at hx
  · exact hx
  · refine firstErr_none fun c hc => ?_
    simp only [List.mem_cons, List.not_mem_nil, or_false] at hc
    rcases hc with rfl | rfl | rfl
    · dsimp only
      rw [hsig]
      rfl
    · cases howned : s.sec.owned with
      | false => rfl
      | true => simpa using hcount howned
    · simp [hexp]

theorem runs_idCert (hport : s.portAdmits src 0x0C07 = true) (hid : s.sec.idOk = true) : Runs (.idCert src) s fun t => OnlyReply s t ∧
    Replied s t src 0x0C07 (leBytes 2 (fld s.factory 0x848 2) ++ leBytes 6 0 ++ (s.factory.drop 0x850).take (fld s.factory 0x848 2) ++
      padTo 388 Config.identityKey) := by
  have hx : exec (.idCert src) s = execIdCert src s := rfl
  unfold execIdCert at hx
  rw [State.command_runs hport rfl rfl (by rw [hid]; rfl)] at hx
  exact runs_of_exec hx ⟨OnlyReply.of_reply .., Replied.of_reply rfl rfl ..⟩

theorem runs_attestQuote {nonce : List Byte} {mask : Nat} (hport : s.portAdmits src 0x0C08 = true) (hid : s.sec.idOk = true)
    (hmask : mask % 256 ≠ 0) : Runs (.attestQuote src nonce mask) s fun t =>
      OnlyReply s t ∧ ∃ q, Replied s t src 0x0C08 (q ++ padTo 384 (Config.identitySign q)) ∧ q.take 4 = leBytes 4 0x51554F54 ∧
        (q.drop 8).take 32 = padTo 32 nonce ∧
        q.drop 96 = (List.range 8).flatMap fun r => if bit mask r then s.measBytes r else leBytes 40 0 := by
  have hx : exec (.attestQuote src nonce mask) s = execAttestQuote src nonce mask s := rfl
  unfold execAttestQuote at hx
  rw [State.command_runs hport rfl rfl (by simp [firstErr, hid, hmask])] at hx
  dsimp only at hx
  refine runs_of_exec hx ⟨OnlyReply.of_reply .., _, Replied.of_reply rfl rfl .., ?_, ?_, ?_⟩
  · simp only [List.append_assoc]
    exact List.take_left' (leBytes_length ..)
  · simp [List.drop_append, List.drop_eq_nil_of_le, padTo_length]
  · refine List.drop_left' ?_
    repeat rw [List.length_append]
    repeat rw [leBytes_length]
    rw [padTo_length]
    rfl

theorem runs_measRead (hport : s.portAdmits src 0x0C09 = true) : Runs (.measRead src) s fun t => OnlyReply s t ∧
    Replied s t src 0x0C09 ((List.range 8).flatMap s.measBytes) := by
  have hx : exec (.measRead src) s = execMeasRead src s := rfl
  unfold execMeasRead at hx
  rw [State.command_runs hport rfl rfl rfl] at hx
  exact runs_of_exec hx ⟨OnlyReply.of_reply .., Replied.of_reply rfl rfl ..⟩

theorem runs_measExtend {digest : List Byte} (ha : Admin s src 0x0C0A) : Runs (.measExtend src digest) s fun t =>
    Replied s t src 0x0C0A (padTo 32 (sha256 (padTo 32 (Tab.get [] s.sec.meas 7) ++ padTo 32 digest))) ∧
      Tab.get [] t.sec.meas 7 = sha256 (padTo 32 (Tab.get [] s.sec.meas 7) ++ padTo 32 digest) ∧
      Tab.get 0 t.sec.ext 7 = Tab.get 0 s.sec.ext 7 + 1 ∧
      ∀ k, k ≠ 7 → Tab.get [] t.sec.meas k = Tab.get [] s.sec.meas k ∧ Tab.get 0 t.sec.ext k = Tab.get 0 s.sec.ext k := by
  have hx : exec (.measExtend src digest) s = execMeasExtend src digest s := rfl
  unfold execMeasExtend State.extend at hx
  rw [State.command_runs ha.port ha.admin rfl rfl] at hx
  generalize hm : sha256 (padTo 32 (Tab.get [] s.sec.meas 7) ++ padTo 32 digest) = m at hx ⊢
  dsimp only at hx
  rw [tab_get_put, if_pos rfl] at hx
  refine runs_of_exec hx ⟨?_, ?_, ?_, fun k hk => ⟨?_, ?_⟩⟩
  · refine Replied.of_reply ?_ ?_ ..
    · rfl
    · rfl
  · rw [State.reply_sec, tab_get_put, if_pos rfl]
  · rw [State.reply_sec, tab_get_modify, if_pos rfl]
  · rw [State.reply_sec, tab_get_put, if_neg hk]
  · rw [State.reply_sec, tab_get_modify, if_neg hk]

theorem runs_fwStatus (hport : s.portAdmits src 0x0C0D = true) : Runs (.fwStatus src) s fun t => OnlyReply s t ∧
    Replied s t src 0x0C0D (s.flashN 0 64 ++ s.flashN 0x10000 64 ++ s.flashN (fwAt 0) 32 ++ s.flashN (fwAt 1) 32) := by
  have hx : exec (.fwStatus src) s = execFwStatus src s := rfl
  unfold execFwStatus at hx
  rw [State.command_runs hport rfl rfl rfl] at hx
  exact runs_of_exec hx ⟨OnlyReply.of_reply .., Replied.of_reply rfl rfl ..⟩

theorem runs_factoryRead {block : Nat} (hport : s.portAdmits src 0x0C0E = true) (hblock : block < 2)
    (hok : (if block = 0 then s.cfg.facA else s.cfg.facB) = true) : Runs (.factoryRead src block) s fun t => OnlyReply s t ∧
      Replied s t src 0x0C0E ((s.flashN (0xA0000 + 0x10000 * block) 0x16B0).take 0x20 ++
        (s.flashN (0xA0000 + 0x10000 * block) 0x16B0).drop 0x1050) := by
  have hx : exec (.factoryRead src block) s = execFactoryRead src block s := rfl
  unfold execFactoryRead at hx
  rw [State.command_runs hport rfl rfl (by simp [firstErr, hok]; omega)] at hx
  dsimp only at hx
  exact runs_of_exec hx ⟨OnlyReply.of_reply .., Replied.of_reply rfl rfl ..⟩

theorem exec_svnRaise {svn keys : Nat} (ha : Admin s src 0x0C0F) (hmin : s.sec.svnMin ≤ svn) (hsvn : svn ≤ s.sec.svn)
    (hkey : bit keys s.boot.keyIndex = false) : exec (.svnRaise src svn keys) s = .next (s.queueCommit
      { src := some src, command := 0x0C0F,
        recs := [{ type := 0xB, index := 0, data := leBytes 4 svn ++ leBytes 1 (s.sec.revoked ||| keys % 16) }] }) := by
  have hx : exec (.svnRaise src svn keys) s = execSvnRaise src svn keys s := rfl
  unfold execSvnRaise at hx
  rw [State.command_runs ha.port ha.admin rfl (by simp [firstErr, hkey, Nat.not_lt.mpr hmin, Nat.not_lt.mpr hsvn])] at hx
  exact hx

theorem runs_fwActivate {flags : Nat} (ha : Admin s src 0x0C0C) (hok : s.bundleErr (1 - s.boot.fwSlot) = .ok)
    (hlaunch : bit flags 0 = true → s.anyLaunch = false) : Runs (.fwActivate src flags) s fun t =>
      Replied s t src 0x0C0C (((s.flashN (fwAt (1 - s.boot.fwSlot)) 16).drop 8).take 8) ∧
        t.boot = { s.boot with activating := bit flags 0 } ∧
        (s.dir.dseq + 1 < 2 ^ 32 → t.dir = { dseq := s.dir.dseq + 1, preferred := 1 - s.boot.fwSlot, tries := 3,
                                             confirmed := setBit s.dir.confirmed (1 - s.boot.fwSlot) false }) := by
  have hx : exec (.fwActivate src flags) s = execFwActivate src flags s := rfl
  unfold execFwActivate at hx
  dsimp only at hx
  rw [State.command_runs ha.port ha.admin rfl] at hx
  · obtain ⟨d, hd⟩ : ∃ d : FwDir, d = { dseq := s.dir.dseq, preferred := 1 - s.boot.fwSlot, tries := 3,
                                         confirmed := setBit s.dir.confirmed (1 - s.boot.fwSlot) false } := ⟨_, rfl⟩
    have hdir := fun h => State.dir_writeDir (s := s) (d := d) h (by rw [hd]; dsimp only; omega) (by rw [hd]; dsimp only; omega)
      (by rw [hd]; exact setBit_false_lt s.confirmed_dir)
    obtain ⟨f, hf⟩ := s.writeDir_only d
    rw [hd] at hf hdir
    rw [hf] at hx hdir
    refine runs_of_exec hx ⟨?_, ?_, fun h => ?_⟩
    · refine Replied.of_reply ?_ ?_ ..
      · rfl
      · rfl
    · rw [State.reply_boot]
    · refine (State.dir_congr fun o _ => ?_).trans (hdir h)
      rw [State.reply_flash]
  · refine firstErr_none fun c hc => ?_
    simp only [List.mem_cons, List.not_mem_nil, or_false] at hc
    rcases hc with rfl | rfl
    · simp [hok]
    · cases hbit : bit flags 0 with
      | false => rfl
      | true => exact hlaunch hbit

/-- FW_WRITE without ERASE_FIRST clears bits alone (R465). -/
theorem runs_fwWrite {offset flags : Nat} {data : List Byte} (ha : Admin s src 0x0C0B) (hsize : offset + data.length ≤ fwSize)
    (hact : s.boot.activating = false) (hflag : bit flags 0 = false)
    (hdirty : ∀ e ∈ s.boot.dirty, e.1 + e.2 ≤ offset ∨ offset + data.length ≤ e.1) :
    Runs (.fwWrite src offset flags data) s fun t =>
      Replied s t src 0x0C0B [] ∧
        t.flashN (fwAt (1 - s.boot.fwSlot) + offset) data.length =
          List.zipWith (· &&& ·) (s.flashN (fwAt (1 - s.boot.fwSlot) + offset) data.length) data ∧
        ∀ o, (o < fwAt (1 - s.boot.fwSlot) + offset ∨ fwAt (1 - s.boot.fwSlot) + offset + data.length ≤ o) →
          Mem.read t.flash o = Mem.read s.flash o := by
  have hx : exec (.fwWrite src offset flags data) s = execFwWrite src offset flags data s := rfl
  unfold execFwWrite at hx
  dsimp only at hx
  rw [hflag, State.command_runs ha.port ha.admin rfl] at hx
  · have hprog := s.flashN_flashProg_and (fwAt (1 - s.boot.fwSlot) + offset) data
    have hout := fun o h => s.read_flashProg_out (a := fwAt (1 - s.boot.fwSlot) + offset) (c := o) (bs := data) h
    obtain ⟨f, hf⟩ : ∃ f, s.flashProg (fwAt (1 - s.boot.fwSlot) + offset) data = { s with flash := f } := ⟨_, rfl⟩
    rw [if_neg Bool.false_ne_true, hf] at hx
    rw [hf] at hprog hout
    refine runs_of_exec hx ⟨?_, ?_, fun o h => ?_⟩
    · refine Replied.of_reply ?_ ?_ ..
      · rfl
      · rfl
    · rw [State.flashN, State.reply_flash]
      exact hprog
    · rw [State.reply_flash]
      exact hout o h
  · refine firstErr_none fun c hc => ?_
    simp only [List.mem_cons, List.not_mem_nil, or_false] at hc
    rcases hc with rfl | rfl | rfl
    · simpa using hsize
    · simpa using fun a b hab hlt => (hdirty (a, b) hab).elim (fun h => absurd hlt (by omega)) id
    · exact hact

/-- FW_WRITE with ERASE_FIRST writes into an erased slot (R465, log entry 51). -/
theorem runs_fwWrite_erase {offset flags : Nat} {data : List Byte} (ha : Admin s src 0x0C0B) (hsize : offset + data.length ≤ fwSize)
    (hact : s.boot.activating = false) (hflag : bit flags 0 = true) : Runs (.fwWrite src offset flags data) s fun t =>
      Replied s t src 0x0C0B [] ∧ t.flashN (fwAt (1 - s.boot.fwSlot) + offset) data.length = data ∧
        (s.dir.preferred ≠ 1 - s.boot.fwSlot → ∀ o, (o < fwAt (1 - s.boot.fwSlot) ∨ fwAt (1 - s.boot.fwSlot) + fwSize ≤ o) →
          Mem.read t.flash o = Mem.read s.flash o) := by
  have hx : exec (.fwWrite src offset flags data) s = execFwWrite src offset flags data s := rfl
  unfold execFwWrite at hx
  extract_lets i n at hx
  rw [hflag, State.command_runs ha.port ha.admin rfl] at hx
  · have hslot : 0x20000 ≤ fwAt (1 - s.boot.fwSlot) := by
      unfold fwAt
      omega
    have hin : fwAt (1 - s.boot.fwSlot) + offset + data.length ≤ fwAt (1 - s.boot.fwSlot) + fwSize := by omega
    have herase := s.read_flashErase (fwAt (1 - s.boot.fwSlot)) fwSize
    rw [if_pos rfl] at hx
    obtain ⟨b, hb⟩ : ∃ b, fwAt (1 - s.boot.fwSlot) = b := ⟨_, rfl⟩
    have hbi : fwAt i = b := hb
    rw [hbi] at hx
    rw [hb] at hslot hin herase ⊢
    extract_lets r boot e fd w v boot' at hx
    obtain ⟨d, hw⟩ : ∃ d, w = if e.dir.preferred = 1 - s.boot.fwSlot then e.writeDir d else e := ⟨_, rfl⟩
    have hv : v = w.flashProg (b + offset) data := rfl
    have henow : e.now = s.now := rfl
    have heout : e.out = s.out := rfl
    have heread : ∀ o, Mem.read e.flash o = if o < b ∨ b + fwSize ≤ o then Mem.read s.flash o else Mem.unlisted := by
      exact herase
    clear_value r boot e fd w v boot'
    obtain ⟨f, hf⟩ : ∃ f, w = { e with flash := f } := by
      rw [hw]
      split
      · exact e.writeDir_only _
      · exact ⟨e.flash, rfl⟩
    have hwread : ∀ o, 0x20000 ≤ o → Mem.read w.flash o = Mem.read e.flash o := by
      intro o ho
      rw [hw]
      split
      · have hnext := e.dirNext_lt
        exact e.read_writeDir_out _ (.inr (by omega))
      · rfl
    have hkeep (hpref : s.dir.preferred ≠ 1 - s.boot.fwSlot) : w = e := by
      have hdir : e.dir = s.dir := State.dir_congr fun o ho => by rw [heread, if_pos (.inl (by omega))]
      rw [hw, hdir, if_neg hpref]
    have hprog := State.flashN_flashProg (s := w) (a := b + offset) (bs := data) (State.flashN_erased fun o ho hlt => by
      rw [hwread o (by omega), heread, if_neg (by omega)])
    have hout := fun o h => w.read_flashProg_out (a := b + offset) (c := o) (bs := data) h
    rw [← hv] at hprog hout
    obtain ⟨g, hg⟩ : ∃ g, v = { w with flash := g } := ⟨_, hv⟩
    refine runs_of_exec hx ⟨?_, ?_, fun hpref o h => ?_⟩
    · refine Replied.of_reply ?_ ?_ ..
      · rw [hg, hf]
        exact henow
      · rw [hg, hf]
        exact heout
    · rw [State.flashN, State.reply_flash]
      exact hprog
    · rw [State.reply_flash]
      refine (hout o (by omega)).trans ?_
      rw [hkeep hpref, heread, if_pos h]
  · refine firstErr_none fun c hc => ?_
    simp only [List.mem_cons, List.not_mem_nil, or_false] at hc
    rcases hc with rfl | rfl | rfl
    · simpa using hsize
    · rfl
    · exact hact

end

/-- Settles O56: the security and firmware commands answer what they read, and have their effects. -/
theorem securityCommandsAnswer : Obligations.SecurityCommandsAnswer := by
  unfold Obligations.SecurityCommandsAnswer
  intro src s
  refine ⟨?_, runs_idCert, fun _ _ => runs_attestQuote, runs_measRead, fun _ => runs_measExtend, ?_, fun _ => runs_fwActivate, runs_fwStatus,
    fun _ => runs_factoryRead, fun _ _ => exec_svnRaise⟩
  · intro modulus exponent count flags rsv sig key hport hexp hcount hsig
    exact exec_ownerSet hport hexp hcount hsig
  · intro offset flags data ha hsize hact
    exact ⟨runs_fwWrite ha hsize hact, runs_fwWrite_erase ha hsize hact⟩

end Sys2Proof.Machine

namespace Sys2Proof.Machine

/-! What goes out while links go down (R171, R181, R321): fabric time and what was sent before stay. -/

namespace State.Speaks

variable {s t : State}

theorem henFail (d j item : Nat) (code : Err) : s.Speaks (s.henFail d j item code) := by
  unfold State.henFail
  dsimp only
  split
  · split
    · exact of_eq rfl rfl rfl
    · exact refl s
  · split
    · refine Speaks.trans ?_ (unitFault ..)
      exact of_eq rfl rfl rfl
    · exact refl s

theorem hard (s : State) (n : Nat) : s.Speaks { s with health := { s.health with hard := true, hardUe := n } } := of_eq rfl rfl rfl

theorem hbmUe (a : Nat) : s.Speaks (s.hbmUe a) := by
  unfold State.hbmUe
  dsimp only
  split
  · exact refl s
  · split
    · refine Speaks.trans ?_ (raise ..)
      refine Speaks.trans ?_ (hard ..)
      refine Speaks.trans ?_ (raise ..)
      exact of_eq rfl rfl rfl
    · refine Speaks.trans ?_ (raise ..)
      exact of_eq rfl rfl rfl

theorem henRun_error (d t e : Nat) (herr : (Tab.get {} (s.thr d t).reqs e : HenReq).status ≠ .ok) : s.Speaks (s.henRun d t e) := by
  unfold State.henRun
  dsimp only
  rw [if_pos herr]
  refine Speaks.trans ?_ (henFail ..)
  split
  · exact hbmUe _
  · exact refl s

/-- A request that ends with an error (R181). -/
theorem henReply_error (d t e : Nat) (status : Err) (herr : status ≠ .ok) (data : List Byte) : s.Speaks (s.henReply d t e status data) := by
  have hthr (r : HenReq) : s.Speaks (s.modThr d t fun h => { h with reqs := Tab.set {} h.reqs e r }) := of_eq rfl rfl rfl
  unfold State.henReply
  dsimp only
  split
  · exact refl s
  · split
    · refine Speaks.trans ?_ (settle _)
      refine Speaks.trans ?_ (henFail ..)
      exact of_eq rfl rfl rfl
    · split
      · exact refl s
      · refine (hthr _).trans (henRun_error _ _ _ ?_)
        rw [State.thr_modThr, if_pos rfl, tab_get_set, if_pos rfl]
        exact herr

theorem dropQueue (q : Nat) : s.Speaks (s.dropQueue q) := by
  unfold State.dropQueue
  dsimp only
  refine Speaks.trans (foldl (fun t e => ?_) (s.hub.queue q).entries s) (of_eq rfl rfl rfl)
  rw [releaseOx_only]
  exact of_eq rfl rfl rfl

theorem outputDown (o : Nat) : s.Speaks (s.outputDown o) := by
  unfold State.outputDown
  refine Speaks.trans ?_ (foldl (fun t i => dropQueue _) _ _)
  exact of_eq rfl rfl rfl

theorem copyLeaves (q : Nat) : s.Speaks (s.copyLeaves q) := by
  rw [copyLeaves_only]
  exact of_eq rfl rfl rfl

theorem emit (o : Output) : s.Speaks (s.emit o) := ⟨rfl, List.suffix_cons .., id⟩

theorem modLink (l : Nat) (f : Link → Link) : s.Speaks (s.modLink l f) := of_eq rfl rfl rfl

theorem modLx (l : Nat) (f : LinkX → LinkX) : s.Speaks (s.modLx l f) := of_eq rfl rfl rfl

theorem linkDown (l cause : Nat) (st : LinkSt) (say : Bool) : s.Speaks (s.linkDown l cause st say) := by
  unfold State.linkDown
  dsimp only
  split
  · exact modLink ..
  · refine Speaks.trans ?_ (raise ..)
    refine Speaks.trans ?_ (foldl (fun t e => henReply_error _ _ _ _ (by decide) _) _ _)
    refine Speaks.trans ?_ (modLink ..)
    refine Speaks.trans ?_ (modLx ..)
    refine Speaks.trans ?_ (foldl (fun t q => copyLeaves q) _ _)
    refine Speaks.trans ?_ (outputDown l)
    split
    · exact emit _
    · exact refl s

theorem launchFail (x : Nat) (code : Err) (d unit : Nat) : s.Speaks (s.launchFail x code d unit) := by
  unfold State.launchFail
  split
  · exact endPeriod ..
  · refine Speaks.trans ?_ (launchEnd _)
    refine Speaks.trans ?_ (setCtx ..)
    exact of_eq rfl rfl rfl

end State.Speaks

end Sys2Proof.Machine

namespace Sys2Proof.Machine

/-! Dies that leave service (R36, R419, R454, R468, R489, R495, R500): what of the Keeper die stands. -/

/-- What no die but the Keeper die holds. -/
def State.fixed (s : State) := (s.ft, s.aonNs, s.pins, s.pwr, s.sec, s.boot)

theorem State.fixed_of_outer {s t : State} (h : t.outer = s.outer) : t.fixed = s.fixed := by
  have hp := congrArg (fun o => (o.2.2.1, o.2.2.2.1, o.2.2.2.2.2.2.2.2.2.2.1, o.2.2.2.2.2.2.2.2.2.1, o.2.2.2.2.2.2.2.2.1,
    o.2.2.2.2.2.2.2.1)) h
  exact hp

theorem State.fixed_raise (s : State) (die unit sev : Nat) (code : Err) (data : List Byte) (x : Nat) (contrib : Option Nat) (l : Nat) :
    (s.raise die unit sev code data x contrib l).fixed = s.fixed := fixed_of_outer (outer_raise ..)

theorem State.fixed_settle (s : State) : s.settle.fixed = s.fixed := fixed_of_outer s.outer_settle

theorem State.fixed_outputDown (s : State) (o : Nat) : (s.outputDown o).fixed = s.fixed := fixed_of_outer (outer_outputDown ..)

theorem State.fixed_linkDown (s : State) (l cause : Nat) (st : LinkSt) (say : Bool) : (s.linkDown l cause st say).fixed = s.fixed := by
  unfold linkDown
  dsimp only
  split
  · rfl
  · generalize hv : List.foldl (fun (s : State) q => s.copyLeaves q) _ _ = v
    have hov : v.fixed = s.fixed := by
      refine fixed_of_outer ?_
      rw [← hv, foldl_keeps State.outer fun t q => outer_copyLeaves t q, outer_outputDown]
      split <;> rfl
    have hdown (u : State) := foldl_keeps State.outer (fun (t : State) (e : Nat × Nat × Nat) => outer_henReply t e.1 e.2.1 e.2.2 .uncorr [])
      (s.peerOutstanding l) u
    refine (fixed_of_outer ((outer_raise ..).trans (hdown _))).trans ?_
    exact hov

theorem State.fixed_launchFail (s : State) (x : Nat) (code : Err) (d unit : Nat) : (s.launchFail x code d unit).fixed = s.fixed := by
  refine fixed_of_outer ?_
  unfold launchFail
  split
  · exact outer_endPeriod ..
  · rw [outer_launchEnd, outer_setCtx, outer_haltLaunch]

theorem State.fixed_clearCd (s : State) (n : Nat) : (s.clearCd n).fixed = s.fixed := by
  unfold clearCd
  dsimp only
  rw [fixed_settle]
  rfl

theorem State.speaks_clearCd (s : State) (n : Nat) : s.Speaks (s.clearCd n) := by
  unfold clearCd
  refine Speaks.trans ?_ (Speaks.settle _)
  exact Speaks.of_eq rfl rfl rfl

theorem State.fixed_downCd (s : State) (n : Nat) : (s.downCd n).fixed = s.fixed := by
  rw [downCd, fixed_clearCd, fixed_outputDown]
  exact foldl_keeps State.fixed (fun t x => fixed_launchFail ..) _ _

theorem State.speaks_downCd (s : State) (n : Nat) : s.Speaks (s.downCd n) := by
  unfold downCd
  refine Speaks.trans ?_ (speaks_clearCd ..)
  refine Speaks.trans ?_ (Speaks.outputDown (36 + n))
  exact Speaks.foldl (fun t x => Speaks.launchFail x .internal n 0) (s.liveOn n) s

theorem State.fixed_linkReset (s : State) (l : Nat) (say : Bool) : (s.linkReset l say).fixed = s.fixed := by
  unfold linkReset
  dsimp only
  rw [fixed_linkDown]
  split <;> rfl

theorem State.speaks_linkReset (s : State) (l : Nat) (say : Bool) : s.Speaks (s.linkReset l say) := by
  unfold linkReset
  dsimp only
  refine Speaks.trans ?_ (Speaks.linkDown ..)
  split
  · exact Speaks.emit _
  · exact Speaks.refl s

theorem State.fixed_downLd (s : State) (m : Nat) (say : Bool) : (s.downLd m say).fixed = s.fixed := by
  unfold downLd
  generalize List.range 6 = ls
  have hfold := foldl_keeps State.fixed (fun t i => fixed_linkReset t (6 * m + i) say) ls s
  generalize List.foldl _ s ls = u at hfold ⊢
  exact hfold

theorem State.speaks_downLd (s : State) (m : Nat) (say : Bool) : s.Speaks (s.downLd m say) := by
  unfold downLd
  generalize List.range 6 = ls
  have hfold := Speaks.foldl (fun t i => speaks_linkReset t (6 * m + i) say) ls s
  generalize List.foldl _ s ls = u at hfold ⊢
  refine hfold.trans ?_
  exact Speaks.of_eq rfl rfl rfl

theorem State.fixed_downHub (s : State) (say : Bool) : (s.downHub say).fixed = s.fixed := by
  unfold downHub
  generalize List.range 36 = ls
  have hfold := foldl_keeps State.fixed (fun t l => fixed_linkReset t l say) ls s
  generalize List.foldl _ s ls = u at hfold ⊢
  exact hfold

theorem State.speaks_downHub (s : State) (say : Bool) : s.Speaks (s.downHub say) := by
  unfold downHub
  generalize List.range 36 = ls
  have hfold := Speaks.foldl (fun t l => speaks_linkReset t l say) ls s
  generalize List.foldl _ s ls = u at hfold ⊢
  refine hfold.trans ?_
  exact Speaks.of_eq rfl rfl rfl

/-! The host die (R419). -/

theorem State.fixed_modCd (s : State) (d : Nat) (f : ComputeDie → ComputeDie) : (s.modCd d f).fixed = s.fixed := rfl

theorem State.fixed_modCx (s : State) (x : Nat) (f : Ctx → Ctx) : (s.modCx x f).fixed = s.fixed := rfl

theorem State.fixed_modCxx (s : State) (x : Nat) (f : CtxX → CtxX) : (s.modCxx x f).fixed = s.fixed := rfl

theorem State.fixed_modBind (s : State) (b : Nat) (f : Binding → Binding) : (s.modBind b f).fixed = s.fixed := rfl

theorem State.fixed_modBindX (s : State) (b : Nat) (f : BindX → BindX) : (s.modBindX b f).fixed = s.fixed := rfl

theorem State.fixed_bpFree (s : State) (d r a : Nat) : (s.bpFree d r a).1.fixed = s.fixed := by
  cases h : (s.cd d).bp.release r a with
  | ok b =>
    rw [bpFree_ok h]
    exact fixed_modCd ..
  | error e =>
    rw [bpFree_error h]
    exact (fixed_raise ..).trans (fixed_modCd ..)

theorem State.fixed_refillFaults (s : State) (d : Nat) : (s.refillFaults d).fixed = s.fixed := by
  refine fixed_of_outer ?_
  unfold refillFaults
  split
  · rfl
  · split
    · rw [outer_queueFault, outer_modCd]
    · rfl

theorem State.fixed_dieCtxEnd (s : State) (d x : Nat) : (s.dieCtxEnd d x).fixed = s.fixed := by
  have hdrop : (s.dropWaiters d fun f _ => f.ctx == x).fixed = s.fixed := by
    unfold dropWaiters
    exact (foldl_keeps State.fixed (fun t _ => fixed_refillFaults t d) _ _).trans rfl
  unfold dieCtxEnd
  exact (fixed_modCd ..).trans hdrop

theorem State.fixed_ctxUnitsEnd (s : State) (x : Nat) : (s.ctxUnitsEnd x).fixed = s.fixed := by
  rw [ctxUnitsEnd, fixed_settle]
  refine foldl_keeps State.fixed (fun t d => ?_) _ s
  split
  · exact fixed_dieCtxEnd ..
  · rfl

theorem State.fixed_collRelease (s : State) (b : Nat) : (s.collRelease b).fixed = s.fixed := by
  have hfold : ((s.bindX b).run.descs.foldl (fun s d => s.releaseOx d) s).fixed = s.fixed :=
    foldl_keeps State.fixed (fun t d => fixed_of_outer (outer_releaseOx t d)) _ s
  unfold collRelease
  dsimp only
  rw [fixed_modBindX, fixed_modBind]
  split
  · exact (fixed_bpFree ..).trans hfold
  · exact hfold

theorem State.fixed_collEndCtx (s : State) (x : Nat) : (s.collEndCtx x).fixed = s.fixed := by
  unfold collEndCtx
  refine foldl_keeps State.fixed (fun t b => ?_) _ s
  rw [fixed_collRelease]
  exact fixed_of_outer (outer_abortBinding ..)

theorem State.fixed_freeBuffers (s : State) (x : Nat) : (s.freeBuffers x).fixed = s.fixed := by
  unfold freeBuffers
  dsimp only
  rw [fixed_modCx, fixed_modCxx]
  refine foldl_keeps State.fixed (fun t v => ?_) _ s
  rw [fixed_bpFree, fixed_bpFree]

theorem State.fixed_schedDrop (s : State) (x : Nat) : (s.schedDrop x).fixed = s.fixed := by
  unfold schedDrop
  extract_lets u v
  have hv : v.fixed = s.fixed := by
    unfold v
    split <;> rfl
  exact hv

theorem State.fixed_ctxLost (s : State) (x : Nat) : (s.ctxLost x).fixed = s.fixed := by
  have hunbind (u : State) : (u.unbindSlots x).fixed = u.fixed := rfl
  unfold ctxLost
  dsimp only
  rw [fixed_schedDrop, fixed_freeBuffers, hunbind, fixed_collEndCtx, fixed_ctxUnitsEnd]
  rfl

/-- What stands when dies leave service or start: an operator's transition under way may lose its asker, nothing else. -/
structure State.Moves (s t : State) : Prop extends s.Speaks t where
  pins : t.pins = s.pins
  aonNs : t.aonNs = s.aonNs
  pwr : t.pwr = { s.pwr with moving := t.pwr.moving }
  moving : s.pwr.moving = none → t.pwr.moving = none
  puf : t.sec.pufOk = s.sec.pufOk
  started : t.boot.started = s.boot.started
  romHold : t.boot.romHold = s.boot.romHold
  held : t.boot.held = s.boot.held

namespace State.Moves

variable {s t u : State}

theorem of_fixed (h : t.fixed = s.fixed) (hs : s.Speaks t) : s.Moves t := by
  have hpwr : t.pwr = s.pwr := congrArg (·.2.2.2.1) h
  have hsec : t.sec = s.sec := congrArg (·.2.2.2.2.1) h
  have hboot : t.boot = s.boot := congrArg (·.2.2.2.2.2) h
  refine ⟨hs, congrArg (·.2.2.1) h, congrArg (·.2.1) h, ?_, fun hm => ?_, ?_, ?_, ?_, ?_⟩
  · rw [hpwr]
  · rw [hpwr, hm]
  · rw [hsec]
  · rw [hboot]
  · rw [hboot]
  · rw [hboot]

theorem refl (s : State) : s.Moves s := of_fixed rfl (Speaks.refl s)

theorem trans (h : s.Moves t) (h' : t.Moves u) : s.Moves u where
  toSpeaks := h.toSpeaks.trans h'.toSpeaks
  pins := h'.pins.trans h.pins
  aonNs := h'.aonNs.trans h.aonNs
  pwr := by rw [h'.pwr, h.pwr]
  moving hm := h'.moving (h.moving hm)
  puf := h'.puf.trans h.puf
  started := h'.started.trans h.started
  romHold := h'.romHold.trans h.romHold
  held := h'.held.trans h.held

theorem foldl {α : Type} {step : State → α → State} (h : ∀ (s : State) a, s.Moves (step s a)) (l : List α) (s : State) :
    s.Moves (l.foldl step s) :=
  State.foldl_only refl (fun _ _ _ => trans) h l s

theorem raise (die unit sev : Nat) (code : Err) (data : List Byte) (x : Nat) (contrib : Option Nat) (l : Nat) :
    s.Moves (s.raise die unit sev code data x contrib l) := of_fixed (fixed_raise ..) (Speaks.raise ..)

theorem service (v : Service) (cause : Err) : s.Moves (s.service v cause) := by
  unfold State.service
  dsimp only
  split
  · refine Moves.trans ?_ (raise ..)
    exact of_fixed rfl (Speaks.of_eq rfl rfl rfl)
  · split
    · refine Moves.trans ?_ (raise ..)
      exact of_fixed rfl (Speaks.of_eq rfl rfl rfl)
    · exact of_fixed rfl (Speaks.of_eq rfl rfl rfl)

theorem modDie (d : Nat) (f : DieU → DieU) : s.Moves (s.modDie d f) := of_fixed rfl (Speaks.of_eq rfl rfl rfl)

/-- The host die goes: what it was to answer is lost, nothing new is sent. -/
theorem downHd : s.Moves s.downHd := by
  have hfold := foldl_keeps State.fixed fixed_ctxLost (s.ctx.tab.map (·.1)) s
  unfold State.downHd
  dsimp only
  generalize List.foldl State.ctxLost s _ = ends at hfold ⊢
  obtain ⟨v, hv⟩ : ∃ v : State, v = { ends with out := s.out, log := {}, eths := [] } := ⟨_, rfl⟩
  have hvfixed : v.fixed = s.fixed := by
    rw [hv]
    exact hfold
  have hvout : v.out = s.out := by rw [hv]
  rw [← hv]
  have hdown := (fixed_outputDown v 52).trans hvfixed
  have hspeaks := Speaks.outputDown (s := v) 52
  generalize v.outputDown 52 = u at hdown hspeaks ⊢
  have hpwr : u.pwr = s.pwr := congrArg (·.2.2.2.1) hdown
  have hsec : u.sec = s.sec := congrArg (·.2.2.2.2.1) hdown
  have hboot : u.boot = s.boot := congrArg (·.2.2.2.2.2) hdown
  have hout : s.out <:+ u.out := hvout ▸ hspeaks.out
  refine ⟨⟨congrArg (·.1) hdown, hout, fun _ => rfl⟩, congrArg (·.2.2.1) hdown, congrArg (·.2.1) hdown, ?_, fun hm => ?_, ?_, ?_, ?_, ?_⟩
  · rw [hpwr]
  · rw [hpwr, hm]
    rfl
  · rw [hsec]
  · exact congrArg Boot.started hboot
  · exact congrArg Boot.romHold hboot
  · exact congrArg Boot.held hboot

theorem dieDown (d : Nat) (say : Bool) : s.Moves (s.dieDown d say) := by
  unfold State.dieDown
  extract_lets u
  have hu : s.Moves u := modDie d _
  clear_value u
  refine hu.trans ?_
  split
  · exact of_fixed (u.fixed_downCd d) (u.speaks_downCd d)
  · split
    · exact of_fixed (u.fixed_downHub say) (u.speaks_downHub say)
    · split
      · exact of_fixed (u.fixed_downLd (d - 17) say) (u.speaks_downLd (d - 17) say)
      · exact downHd

theorem linkDown (l cause : Nat) (st : LinkSt) (say : Bool) : s.Moves (s.linkDown l cause st say) :=
  of_fixed (fixed_linkDown ..) (Speaks.linkDown ..)

end State.Moves

/-- What the dies do before they go dark (R495). -/
def State.leaveAll (s : State) (say : Bool) (links dies : List Nat) : State :=
  let s := if say then links.foldl (fun (s : State) l => if (s.link l).st = .up then s.linkDown l 7 .down true else s) s else s
  (dies.filter s.dieIn).foldl (fun s d => s.dieDown d false) s

theorem State.moves_leaveAll (s : State) (say : Bool) (links dies : List Nat) : s.Moves (s.leaveAll say links dies) := by
  unfold leaveAll
  dsimp only
  refine Moves.trans ?_ (Moves.foldl (fun t d => Moves.dieDown ..) _ _)
  split
  · refine Moves.foldl (fun t l => ?_) links s
    split
    · exact Moves.linkDown ..
    · exact Moves.refl t
  · exact Moves.refl s

/-- Every die but the Keeper die leaves service (R419, R468, R489, R495, R500). -/
theorem State.darken_spec {s : State} (hdark : s.pwr.dark = false) (say : Bool) (cause : Err) : ∃ u t : State, s.Moves u ∧
    t = { u with dies := t.dies, pwr := { u.pwr with dark := true } } ∧ s.darken say cause = t.service t.svc.keeperOnly cause := by
  have hmoves := s.moves_leaveAll say (List.range 36) (23 :: 16 :: (List.range 16 ++ (List.range 6).map (17 + ·)))
  unfold darken
  rw [if_neg (by rw [hdark]; exact Bool.false_ne_true)]
  dsimp only
  unfold leaveAll at hmoves
  dsimp only at hmoves
  generalize List.range 36 = ls at hmoves ⊢
  generalize 23 :: 16 :: (List.range 16 ++ (List.range 6).map (17 + ·)) = ds at hmoves ⊢
  generalize List.foldl (fun (s : State) d => s.dieDown d false) _ _ = u at hmoves ⊢
  exact ⟨u, _, hmoves, rfl, rfl⟩

end Sys2Proof.Machine

namespace Sys2Proof.Machine

/-! Power events and thermal events (R26, R346, R489, R493, R496, R497, R500, R503, R514). -/

/-- The dies have left service (R489, R495, R500). -/
structure State.Darkened (s t : State) : Prop extends s.Speaks t where
  pins : t.pins = s.pins
  aonNs : t.aonNs = s.aonNs
  pwr : t.pwr = { s.pwr with moving := t.pwr.moving, dark := true }
  moving : s.pwr.moving = none → t.pwr.moving = none
  puf : t.sec.pufOk = s.sec.pufOk
  started : t.boot.started = s.boot.started
  romHold : t.boot.romHold = s.boot.romHold
  held : t.boot.held = s.boot.held
  hostOut : t.svc.hdIn = false
  hubOut : t.svc.hubIn = false
  cdsOut : t.svc.cdIn = 0
  ldsOut : t.svc.ldIn = 0

theorem State.darkened {s : State} (hdark : s.pwr.dark = false) (say : Bool) (cause : Err) : s.Darkened (s.darken say cause) := by
  obtain ⟨u, t, hu, ht, hx⟩ := State.darken_spec hdark say cause
  have hpwr : t.pwr = { u.pwr with dark := true } := by rw [ht]
  have hpins : t.pins = u.pins := by rw [ht]
  have haon : t.aonNs = u.aonNs := by rw [ht]
  have hsec : t.sec = u.sec := by rw [ht]
  have hboot : t.boot = u.boot := by rw [ht]
  have hspeaks : u.Speaks t := by
    rw [ht]
    exact Speaks.of_eq rfl rfl rfl
  have hservice : t.Moves (t.service t.svc.keeperOnly cause) := Moves.service ..
  have hsvc := t.svc_service t.svc.keeperOnly cause
  rw [← hx] at hservice hsvc
  generalize s.darken say cause = r at hservice hsvc
  clear ht
  refine ⟨(hu.toSpeaks.trans hspeaks).trans hservice.toSpeaks, ?_, ?_, ?_, fun hm => ?_, ?_, ?_, ?_, ?_, ?_, ?_, ?_, ?_⟩
  · rw [hservice.pins, hpins, hu.pins]
  · rw [hservice.aonNs, haon, hu.aonNs]
  · rw [hservice.pwr, hpwr, hu.pwr]
  · refine hservice.moving ?_
    rw [hpwr]
    exact hu.moving hm
  · rw [hservice.puf, hsec, hu.puf]
  · rw [hservice.started, hboot, hu.started]
  · rw [hservice.romHold, hboot, hu.romHold]
  · rw [hservice.held, hboot, hu.held]
  · rw [hsvc]
    rfl
  · rw [hsvc]
    rfl
  · rw [hsvc]
    rfl
  · rw [hsvc]
    rfl

theorem runs_refclkLoss {s : State} (hlost : s.pwr.refLost = false) (hdark : s.pwr.dark = false) : Runs .refclkLoss s fun t =>
    t.pwr.refLost = true ∧ t.pwr.dark = true ∧ t.svc.hdIn = false ∧
      t.svc.hubIn = false ∧ t.svc.cdIn = 0 ∧ t.svc.ldIn = 0 ∧ t.ft.now = s.ft.now ∧
      (s.ft.st = .locked → s.ft.ctlRoot = false → t.ft.st = .holdover ∧ t.ft.holdFrom = s.now) := by
  have hx : exec .refclkLoss s = execRefclkLoss s := rfl
  unfold execRefclkLoss at hx
  rw [if_neg (by rw [hlost]; exact Bool.false_ne_true)] at hx
  obtain ⟨v, hv⟩ : ∃ v : State, v = { s with pwr := { s.pwr with refLost := true } } := ⟨_, rfl⟩
  have hd := State.darkened (s := v) (by rw [hv]; exact hdark) false .internal
  have hvft : v.ft = s.ft := by rw [hv]
  have hvref : v.pwr.refLost = true := by rw [hv]
  dsimp only at hx
  rw [← hv] at hx
  generalize v.darken false .internal = w at hx hd
  clear hv
  have hft : w.ft = s.ft := hd.ft.trans hvft
  obtain ⟨f, hf, hnow, hhold⟩ : ∃ f : Ft, (if w.ft.st = .locked ∧ w.ft.ctlRoot = false then
        { w with ft := { w.ft with st := .holdover, parent := none, holdFrom := w.now } } else w) = { w with ft := f } ∧ f.now = s.ft.now ∧
      (s.ft.st = .locked → s.ft.ctlRoot = false → f.st = .holdover ∧ f.holdFrom = s.now) := by
    rw [hft]
    split
    · exact ⟨_, rfl, rfl, fun _ _ => ⟨rfl, State.now_of_ft hft⟩⟩
    case isFalse h => exact ⟨w.ft, rfl, by rw [hft], fun h1 h2 => absurd ⟨h1, h2⟩ h⟩
  rw [hf] at hx
  refine runs_of_exec hx ?_
  rw [State.raise_pwr, State.raise_svc, State.raise_ft]
  dsimp only
  refine ⟨?_, ?_, hd.hostOut, hd.hubOut, hd.cdsOut, hd.ldsOut, hnow, hhold⟩
  · rw [hd.pwr]
    exact hvref
  · rw [hd.pwr]

/-- An event of the worst severity while the host die is out reaches the mirror and the ledger (R448, R451). -/
theorem State.raise_out_of_service {s : State} (hd : s.svc.hdIn = false) (unit : Nat) (code : Err) (data : List Byte) (x : Nat) :
    (∃ l e, (s.raise 24 unit 5 code data x).mirror.queue = l ++ [e]) ∧
      ∃ l e, (s.raise 24 unit 5 code data x).ledger.pending = l ++ [(7, e)] := by
  unfold raise logEv
  dsimp only
  rw [if_neg (by rw [hd]; exact Bool.false_ne_true), if_pos rfl, if_pos rfl]
  exact ⟨⟨_, _, rfl⟩, _, _, rfl⟩

/-- A transition cut short (log entry 54). -/
theorem State.dropMove_spec (s : State) : ∃ m, s.dropMove.pwr = { s.pwr with moving := m } ∧ s.dropMove.aonNs = s.aonNs ∧
    s.dropMove.pins = s.pins ∧ s.dropMove.svc = s.svc := by
  unfold dropMove
  split
  · refine ⟨none, ?_, ?_, ?_, ?_⟩
    · rw [reply_pwr]
    · rw [reply_aonNs]
    · rw [reply_pins]
    · rw [reply_svc]
  · exact ⟨none, rfl, rfl, rfl, rfl⟩
  · exact ⟨s.pwr.moving, rfl, rfl, rfl, rfl⟩

/-- What a trip leaves (R493, R500). -/
theorem State.tripNow_spec {s : State} (htrip : s.pwr.trip = false) (hdark : s.pwr.dark = false) (cause die : Nat) :
    let t := s.tripNow cause die
    t.pwr.trip = true ∧ t.pwr.tripCause = cause ∧ (cause = 1 → t.pwr.tripDie = die) ∧ t.pwr.tripAt = s.aonNs ∧ t.pwr.st = .mgmt ∧
      t.pwr.dark = true ∧ t.svc.hdIn = false ∧ t.svc.cdIn = 0 ∧ (∃ l e, t.mirror.queue = l ++ [e]) ∧
      ∃ l e, t.ledger.pending = l ++ [(7, e)] := by
  intro t
  obtain ⟨m, hpwr, haon, -, -⟩ := s.dropMove_spec
  have hx : t = s.tripNow cause die := rfl
  clear_value t
  unfold tripNow at hx
  rw [if_neg (by rw [htrip]; exact Bool.false_ne_true)] at hx
  generalize s.dropMove = d at hx hpwr haon
  obtain ⟨v, hv⟩ : ∃ v : State, v = { d with
    boot := { d.boot with held := false },
    pwr := { d.pwr with st := .mgmt, trip := true, tripCause := cause, tripDie := if cause = 1 then die else 0, tripAt := d.aonNs } } := ⟨_, rfl⟩
  dsimp only at hx
  rw [← hv] at hx
  have hvpwr : v.pwr =
      { s.pwr with moving := m, st := .mgmt, trip := true, tripCause := cause, tripDie := if cause = 1 then die else 0, tripAt := s.aonNs } := by
    rw [hv, hpwr, haon]
  have hd := State.darkened (s := v) (by rw [hvpwr]; exact hdark) false .aborted
  generalize v.darken false .aborted = w at hx hd
  have hsvc := w.svc_service w.svc .aborted
  have hspwr : (w.service w.svc .aborted).pwr = w.pwr := service_pwr ..
  generalize w.service w.svc .aborted = u at hx hsvc hspwr
  have hhd : u.svc.hdIn = false := by rw [hsvc]; exact hd.hostOut
  obtain ⟨⟨lm, em, hmirror⟩, ll, el, hledger⟩ := raise_out_of_service (s := { u with ledger := { u.ledger with
    totals := Tab.modify 0 u.ledger.totals 64 (· + 1) } }) hhd 0x00 .aborted [BitVec.ofNat 8 cause, BitVec.ofNat 8 die] 0xFFFF
  have hfinal : t.pwr = { v.pwr with moving := w.pwr.moving, dark := true } := by
    rw [hx, raise_pwr, hspwr, hd.pwr]
  have htsvc : t.svc = u.svc := by rw [hx, raise_svc]
  rw [hvpwr] at hfinal
  rw [hfinal, htsvc]
  refine ⟨rfl, rfl, fun h => if_pos h, rfl, rfl, rfl, hhd, ?_, ⟨lm, em, ?_⟩, ll, el, ?_⟩
  · rw [hsvc]
    exact hd.cdsOut
  · rw [hx]
    exact hmirror
  · rw [hx]
    exact hledger

end Sys2Proof.Machine

namespace Sys2Proof.Machine

theorem runs_powerSample {s : State} {vin iin pin energy : Nat} {sustained : Bool} (h : sustained = false ∨ powerFault vin iin = 0) :
    Runs (.powerSample vin iin pin energy sustained) s fun t =>
      t = { s with pwr := { s.pwr with vin := vin, iin := iin, pin := pin, energy := s.pwr.energy + energy } } := by
  have hx : exec (.powerSample vin iin pin energy sustained) s = execPowerSample vin iin pin energy sustained s := rfl
  unfold execPowerSample at hx
  dsimp only at hx
  rw [if_neg (by rcases h with h | h <;> simp [h])] at hx
  exact runs_of_exec hx rfl

theorem runs_powerSample_fault {s : State} {vin iin pin energy : Nat} (h : powerFault vin iin ≠ 0) (htrip : s.pwr.trip = false)
    (hdark : s.pwr.dark = false) : Runs (.powerSample vin iin pin energy true) s fun t =>
      t.pwr.trip = true ∧ t.pwr.tripCause = powerFault vin iin ∧ t.pwr.st = .mgmt ∧ t.pwr.dark = true := by
  have hx : exec (.powerSample vin iin pin energy true) s = execPowerSample vin iin pin energy true s := rfl
  unfold execPowerSample at hx
  dsimp only at hx
  rw [if_pos ⟨rfl, h⟩] at hx
  obtain ⟨v, hv⟩ : ∃ v : State, v = { s with pwr := { s.pwr with vin := vin, iin := iin, pin := pin, energy := s.pwr.energy + energy } } :=
    ⟨_, rfl⟩
  rw [← hv] at hx
  obtain ⟨htripped, hcause, -, -, hst, hd, -⟩ := State.tripNow_spec (s := v) (by rw [hv]; exact htrip) (by rw [hv]; exact hdark)
    (powerFault vin iin) 0
  exact runs_of_exec hx ⟨htripped, hcause, hst, hd⟩

theorem runs_trip {s : State} {cause : Fin 5} {die : DieId} (hcause : cause.val ≠ 0) (htrip : s.pwr.trip = false) (hdark : s.pwr.dark = false) :
    Runs (.trip cause die) s fun t =>
      t.pwr.trip = true ∧ t.pwr.tripCause = cause.val ∧ (cause.val = 1 → t.pwr.tripDie = die.val) ∧ t.pwr.tripAt = s.aonNs ∧
      t.pwr.st = .mgmt ∧
      t.pwr.dark = true ∧ t.svc.hdIn = false ∧ t.svc.cdIn = 0 ∧
      (∃ l e, t.mirror.queue = l ++ [e]) ∧ ∃ l e, t.ledger.pending = l ++ [(7, e)] := by
  have hx : exec (.trip cause die) s = execTrip cause die s := rfl
  rw [execTrip, if_neg hcause] at hx
  exact runs_of_exec hx (State.tripNow_spec htrip hdark cause.val die.val)

theorem State.levelOf_mgmt {s : State} (h : s.pwr.st = .mgmt) (v : Service) : s.levelOf v ≤ 1 := by
  unfold levelOf
  extract_lets a b c e
  rw [h]
  exact Nat.min_le_right ..

theorem State.levelOf_parked {s : State} (h : s.pwr.st = .parked) (v : Service) : s.levelOf v ≤ 2 := by
  unfold levelOf
  extract_lets a b c e
  rw [h]
  exact Nat.min_le_right ..

theorem runs_modEnFall {s : State} (hst : s.pwr.st ≠ .mgmt) (hdark : s.pwr.dark = false) : Runs .modEnFall s fun t =>
    t.pins = { s.pins with modEn := false } ∧ t.pwr.st = .mgmt ∧ t.pwr.dark = true ∧ t.svc.level ≤ 1 ∧ t.svc.hdIn = false := by
  have hx : exec .modEnFall s = execModEnFall s := rfl
  unfold execModEnFall at hx
  dsimp only at hx
  rw [if_neg hst] at hx
  obtain ⟨v, hv⟩ : ∃ v : State, v = { s with pins := { s.pins with modEn := false } } := ⟨_, rfl⟩
  rw [← hv] at hx
  obtain ⟨m, hpwr, -, hpins, -⟩ := v.dropMove_spec
  have hvpwr : v.pwr = s.pwr := by rw [hv]
  have hvpins : v.pins = { s.pins with modEn := false } := by rw [hv]
  generalize v.dropMove = d at hx hpwr hpins
  obtain ⟨e, he⟩ : ∃ e : State, e = { d with pwr := { d.pwr with st := .mgmt } } := ⟨_, rfl⟩
  rw [← he] at hx
  have hepins : e.pins = { s.pins with modEn := false } := by rw [he, hpins, hvpins]
  have hest : e.pwr.st = .mgmt := by rw [he]
  have hd := State.darkened (s := e) (by rw [he, hpwr, hvpwr]; exact hdark) true .aborted
  generalize e.darken true .aborted = w at hx hd
  have hwst : w.pwr.st = .mgmt := by rw [hd.pwr]; exact hest
  have hsvc := w.svc_service w.svc .aborted
  have hlevel := State.levelOf_mgmt hwst w.svc
  refine runs_of_exec hx ?_
  rw [State.raise_pins, State.raise_pwr, State.raise_svc, State.service_pins, State.service_pwr, hsvc]
  refine ⟨hd.pins.trans hepins, hwst, ?_, hlevel, hd.hostOut⟩
  rw [hd.pwr]

theorem runs_inputPowerLoss (s : State) : Runs .inputPowerLoss s fun t => t.flash = s.flash ∧ t.cds = [] ∧ t.hbm = [] ∧ t.ctx = {} ∧
    t.boot.started = false ∧ t.aonNs = 0 ∧ t.svc.hdIn = false :=
  runs_of_exec (rfl : exec .inputPowerLoss s = execInputPowerLoss s) ⟨rfl, rfl, rfl, rfl, rfl, rfl, rfl⟩

/-- An insertion level is of its die alone (R496, R497). -/
theorem State.setLevel_spec (s : State) (n l : Nat) : ((s.setLevel n l).cd n).level = l ∧ (s.setLevel n l).pwr = s.pwr ∧
    (∀ k, (s.setLevel n l).mon k = s.mon k) ∧ ∀ k, k ≠ n → ((s.setLevel n l).cd k).level = (s.cd k).level := by
  unfold setLevel
  dsimp only
  split
  · refine ⟨?_, raise_pwr .., fun k => mon_raise .., fun k hk => ?_⟩
    · rw [cd_of_cds (raise_cds ..), cd_modCd, if_pos rfl, cd_modCd, if_pos rfl]
    · rw [cd_of_cds (raise_cds ..), cd_modCd, if_neg hk, cd_modCd, if_neg hk]
  · split
    · refine ⟨?_, raise_pwr .., fun k => mon_raise .., fun k hk => ?_⟩
      · rw [cd_of_cds (raise_cds ..), cd_modCd, if_pos rfl, cd_modCd, if_pos rfl]
      · rw [cd_of_cds (raise_cds ..), cd_modCd, if_neg hk, cd_modCd, if_neg hk]
    · refine ⟨?_, rfl, fun _ => rfl, fun k hk => ?_⟩
      · rw [cd_modCd, if_pos rfl]
      · rw [cd_modCd, if_neg hk]

/-- The insertion level that a die steps to (R497). -/
def State.nextLevel (s : State) (n : Nat) : Nat :=
  if 16 * (s.pwr.insertTemp : Int) + 32 ≤ (s.mon n).temp ∧ (s.cd n).level < 4 then (s.cd n).level + 1
  else if (s.mon n).temp < 16 * (s.pwr.insertTemp : Int) - 32 ∧ 0 < (s.cd n).level then (s.cd n).level - 1 else (s.cd n).level

def State.stepLevel (s : State) (n : Nat) : State :=
  if 16 * (s.pwr.insertTemp : Int) + 32 ≤ (s.mon n).temp ∧ (s.cd n).level < 4 then s.setLevel n ((s.cd n).level + 1)
  else if (s.mon n).temp < 16 * (s.pwr.insertTemp : Int) - 32 ∧ 0 < (s.cd n).level then s.setLevel n ((s.cd n).level - 1) else s

theorem State.stepLevel_spec (s : State) (n : Nat) : ((s.stepLevel n).cd n).level = s.nextLevel n ∧ (s.stepLevel n).pwr = s.pwr ∧
    (∀ k, (s.stepLevel n).mon k = s.mon k) ∧ ∀ k, k ≠ n → ((s.stepLevel n).cd k).level = (s.cd k).level := by
  unfold stepLevel nextLevel
  split
  · exact s.setLevel_spec ..
  · split
    · exact s.setLevel_spec ..
    · exact ⟨rfl, rfl, fun _ => rfl, fun _ _ => rfl⟩

theorem State.nextLevel_stepLevel (s : State) {n k : Nat} (h : k ≠ n) : (s.stepLevel n).nextLevel k = s.nextLevel k := by
  obtain ⟨-, hpwr, hmon, hlevel⟩ := s.stepLevel_spec n
  unfold nextLevel
  rw [hpwr, hmon, hlevel k h]

theorem State.level_stepLevels {k : Nat} (ns : List Nat) : ∀ s : State, ns.Nodup →
    ((ns.foldl State.stepLevel s).cd k).level = if k ∈ ns then s.nextLevel k else (s.cd k).level := by
  induction ns with
  | nil => exact fun s _ => (if_neg List.not_mem_nil).symm
  | cons n ns ih =>
    intro s hnodup
    obtain ⟨hn, hns⟩ := List.nodup_cons.mp hnodup
    obtain ⟨hlevel, -, -, hother⟩ := s.stepLevel_spec n
    rw [List.foldl_cons, ih _ hns]
    by_cases hk : k = n
    · subst hk
      rw [if_neg hn, if_pos List.mem_cons_self, hlevel]
    · rw [nextLevel_stepLevel s hk, hother k hk]
      simp [hk]

theorem runs_insertionLevelStep {s : State} {n : Nat} (hn : n < 16) (hin : s.dieIn n = true) :
    Runs .insertionLevelStep s fun t => (t.cd n).level = s.nextLevel n := by
  have hx : exec .insertionLevelStep s = .next (((List.range 16).filter s.dieIn).foldl State.stepLevel s) := rfl
  refine runs_of_exec hx ?_
  rw [State.level_stepLevels _ s (List.nodup_range.filter _), if_pos (List.mem_filter.mpr ⟨List.mem_range.mpr hn, hin⟩)]

/-! The power stages (R503, R512). -/

/-- A poll of one stage, in the power registers (R503). -/
def Pwr.polled (p : Pwr) (a : Nat) : Option (List Nat) → Pwr
  | some l =>
    { p with
      stages := Tab.put p.stages a ((List.range 5).map fun i => l.getD i 0 % 2 ^ 16), fails := Tab.del p.fails a,
      faulty := (p.faulty.filter (· ≠ a)) ++ if l.getD 4 0 % 2 ^ 16 = 0 then [] else [a] }
  | none => { p with fails := Tab.put p.fails a (Tab.get 0 p.fails a + 1) }

theorem State.pwr_stagePoll (s : State) (a : Nat) (w : Option (List Nat)) : (s.stagePoll a w).pwr = s.pwr.polled a w := by
  unfold stagePoll
  cases w with
  | none =>
    dsimp only
    split
    · rw [raise_pwr]
      rfl
    · rfl
  | some l =>
    dsimp only
    split
    · rw [raise_pwr]
      rfl
    · rfl

/-- What the power registers say of a stage that answered l. -/
def Pwr.Says (p : Pwr) (a : Nat) (l : List Nat) : Prop :=
  Tab.get [] p.stages a = (List.range 5).map (fun i => l.getD i 0 % 2 ^ 16) ∧ Tab.get 0 p.fails a = 0 ∧
    (a ∈ p.faulty ↔ l.getD 4 0 % 2 ^ 16 ≠ 0)

theorem Pwr.says_polled (p : Pwr) (a : Nat) (l : List Nat) : (p.polled a (some l)).Says a l := by
  refine ⟨?_, ?_, ?_⟩
  · exact (tab_get_put ..).trans (if_pos rfl)
  · exact tab_get_del_same ..
  · unfold polled
    dsimp only
    by_cases h : l.getD 4 0 % 2 ^ 16 = 0
    · rw [if_pos h, List.append_nil]
      exact iff_of_false (by simp) fun hn => hn h
    · rw [if_neg h]
      exact iff_of_true (by simp) h

theorem Pwr.Says.polled {p : Pwr} {a : Nat} {l : List Nat} (h : p.Says a l) {k : Nat} (hk : a ≠ k) (w : Option (List Nat)) :
    (p.polled k w).Says a l := by
  obtain ⟨hstage, hfail, hfaulty⟩ := h
  cases w with
  | none =>
    refine ⟨hstage, ?_, hfaulty⟩
    exact (tab_get_put ..).trans ((if_neg hk).trans hfail)
  | some m =>
    refine ⟨?_, ?_, ?_⟩
    · exact (tab_get_put ..).trans ((if_neg hk).trans hstage)
    · exact (congrArg (·.getD 0) ((tab_find_del ..).trans (if_neg hk))).trans hfail
    · rw [← hfaulty]
      unfold Pwr.polled
      dsimp only
      split <;> simp [hk]

theorem Pwr.says_foldl {words : Nat → Option (List Nat)} {a : Nat} {l : List Nat} (hwords : words a = some l) (ns : List Nat) :
    ∀ p : Pwr, ns.Nodup → a ∈ ns ∨ p.Says a l → (ns.foldl (fun p k => p.polled k (words k)) p).Says a l := by
  induction ns with
  | nil => exact fun _ _ h => h.resolve_left List.not_mem_nil
  | cons n ns ih =>
    intro p hnodup h
    obtain ⟨hn, hns⟩ := List.nodup_cons.mp hnodup
    refine ih (p.polled n (words n)) hns ?_
    by_cases ha : a = n
    · subst ha
      rw [hwords]
      exact .inr (p.says_polled a l)
    · exact (h.imp_left fun h => (List.mem_cons.mp h).resolve_left ha).imp_right fun h => h.polled ha _

theorem State.pwr_poll (s : State) (answers : List PmbAnswer) : (s.poll answers).pwr = s.pwr.answered.foldl
    (fun p k => p.polled k ((answers.find? fun q => q.stage.val == k).bind (·.words))) s.pwr := by
  unfold poll
  exact (List.foldl_hom State.pwr fun t a => (pwr_stagePoll t a _).symm).symm

theorem runs_poll {s : State} {answers : List PmbAnswer} (hnodup : s.pwr.answered.Nodup) {a : Nat} {l : List Nat} (ha : a ∈ s.pwr.answered)
    (hwords : (answers.find? fun q : PmbAnswer => q.stage.val == a).bind (·.words) = some l) {c : Instr}
    (hc : c ∈ [Instr.pmbusPoll answers, Instr.pmbAlert answers]) : Runs c s fun t => t.pwr.Says a l := by
  have hx : exec c s = .next (s.poll answers) := by
    simp only [List.mem_cons, List.not_mem_nil, or_false] at hc
    rcases hc with rfl | rfl
    · rfl
    · rfl
  refine runs_of_exec hx ?_
  rw [State.pwr_poll]
  exact Pwr.says_foldl (words := fun k => (answers.find? fun q => q.stage.val == k).bind (·.words)) hwords _ _ hnodup (.inl ha)

end Sys2Proof.Machine

namespace Sys2Proof.Machine

/-! The contacts, the SMBus, the test port and the power commands (R490, R491, R495, R496, R500, R504, R514, R515, R517). -/

theorem exec_modEnRise {s : State} (hheld : s.boot.held = true) (htrip : s.pwr.trip = false) (hmove : s.pwr.moving = none) :
    exec .modEnRise s = .next { s with
      pins := { s.pins with modEn := true }, boot := { s.boot with held := false }, pwr := { s.pwr with moving := some (.run, none) } } := by
  have hx : exec .modEnRise s = execModEnRise s := rfl
  unfold execModEnRise at hx
  dsimp only at hx
  rw [if_pos ⟨hheld, htrip, by rw [hmove]; rfl⟩] at hx
  exact hx

theorem exec_smbusBlockRead {s : State} (cmd : Nat) (h : 1000000 ≤ s.aonNs) :
    exec (.smbusBlockRead cmd) s = .next { s with out := .smbus ((s.smbusWord cmd).map (leBytes 8)) :: s.out } := by
  have hx : exec (.smbusBlockRead cmd) s = execSmbusBlockRead cmd s := rfl
  rw [execSmbusBlockRead, if_neg (by omega)] at hx
  exact hx

theorem exec_smbusAlertResponse {s : State} (h : s.pins.smbAlert = true) : exec .smbusAlertResponse s = .next { s with
    pins := { s.pins with smbAlert := false }, out := .smbus (some [BitVec.ofNat 8 (0x60 + s.pins.member)]) :: s.out } := by
  have hx : exec .smbusAlertResponse s = execSmbusAlertResponse s := rfl
  rw [execSmbusAlertResponse, if_pos h] at hx
  exact hx

theorem runs_testPort_extest (s : State) : Runs (.testPortInstruction .extest) s fun t =>
    t.pins = { s.pins with tapIr := if s.pins.modEn then .bypass else .extest } := by
  have hx : exec (.testPortInstruction .extest) s = execTestPortInstruction .extest s := rfl
  unfold execTestPortInstruction at hx
  refine runs_of_exec hx ?_
  cases h : s.pins.modEn with
  | true => simp [State.emit]
  | false => simp [State.emit]

theorem runs_testPort_bypass (s : State) : Runs (.testPortInstruction .bypass) s fun t =>
    t.pins = { s.pins with tapIr := .bypass } ∧ t.out = .tap .bypass (some 0) :: s.out := by
  have hx : exec (.testPortInstruction .bypass) s = execTestPortInstruction .bypass s := rfl
  unfold execTestPortInstruction at hx
  exact runs_of_exec hx ⟨rfl, rfl⟩

section
variable {s : State} {src : Src}

theorem runs_clkStatus {die : Nat} (hport : s.portAdmits src 0x0E01 = true) (hdie : die < 25) : Runs (.clkStatus src die) s fun t =>
    OnlyReply s t ∧ Replied s t src 0x0E01 (s.sleepBytes die) := by
  have hx : exec (.clkStatus src die) s = execClkStatus src die s := rfl
  unfold execClkStatus at hx
  rw [State.command_runs hport rfl rfl (by simp [firstErr]; omega)] at hx
  exact runs_of_exec hx ⟨OnlyReply.of_reply .., Replied.of_reply rfl rfl ..⟩

theorem runs_pwrStatus (hport : s.portAdmits src 0x0E02 = true) : Runs (.pwrStatus src) s fun t => OnlyReply s t ∧
    Replied s t src 0x0E02 ((List.range 9).flatMap fun i => leBytes 8 (s.pwrReg i)) := by
  have hx : exec (.pwrStatus src) s = execPwrStatus src s := rfl
  unfold execPwrStatus at hx
  rw [State.command_runs hport rfl rfl rfl] at hx
  exact runs_of_exec hx ⟨OnlyReply.of_reply .., Replied.of_reply rfl rfl ..⟩

theorem exec_powerStateSet {state : Nat} (ha : Admin s src 0x0E03) (hstate : state < 3) (hlaunch : s.anyLaunch = false)
    (hmove : s.pwr.moving = none) (hup : state ≠ 2 → s.pwr.trip = false ∧ s.pins.modEn = true ∧ s.pwr.refLost = false) :
    exec (.powerStateSet src state) s =
      .next { s with pwr := { s.pwr with moving := some ([PwrSt.run, .parked, .mgmt].getD state .mgmt, some src) } } := by
  have hx : exec (.powerStateSet src state) s = execPowerStateSet src state s := rfl
  unfold execPowerStateSet at hx
  rw [State.command_runs ha.port ha.admin rfl] at hx
  · have hst : (if state = 0 then PwrSt.run else if state = 1 then .parked else .mgmt) = [PwrSt.run, .parked, .mgmt].getD state .mgmt := by
      match state, hstate with
      | 0, _ => rfl
      | 1, _ => rfl
      | 2, _ => rfl
    rw [hst] at hx
    exact hx
  · refine firstErr_none fun c hc => ?_
    simp only [List.mem_cons, List.not_mem_nil, or_false] at hc
    by_cases h2 : state = 2
    · subst h2
      rcases hc with rfl | rfl | rfl
      · rfl
      · rfl
      · simp [hlaunch, hmove]
    · obtain ⟨htrip, hen, href⟩ := hup h2
      rcases hc with rfl | rfl | rfl
      · simpa using Nat.le_of_lt_succ hstate
      · simp [htrip, hen]
      · simp [hlaunch, hmove, href]

theorem runs_idleTimerSet {us : Nat} (ha : Admin s src 0x0E04) (hlaunch : s.anyLaunch = false) : Runs (.idleTimerSet src us) s fun t =>
    Replied s t src 0x0E04 (leBytes 2 (max 1 (min 1000 us))) ∧ t.pwr = { s.pwr with idle := max 1 (min 1000 us) } := by
  have hx : exec (.idleTimerSet src us) s = execIdleTimerSet src us s := rfl
  have hset : s.idleSet us = .ok { s with pwr := { s.pwr with idle := max 1 (min 1000 us) } } := by
    rw [State.idleSet, if_neg (by rw [hlaunch]; exact Bool.false_ne_true)]
  unfold execIdleTimerSet at hx
  rw [State.command_runs ha.port ha.admin rfl (by rw [hlaunch]; rfl), hset] at hx
  dsimp only at hx
  refine runs_of_exec hx ⟨?_, ?_⟩
  · refine Replied.of_reply ?_ ?_ ..
    · rfl
    · rfl
  · rw [State.reply_pwr]

theorem State.sleepOf_reply (t : State) (src : Src) (cmd : Nat) (e : Err) (payload : List Byte) (u : SleepUnit) :
    (t.reply src cmd e payload).sleepOf u = t.sleepOf u := by
  cases u with
  | tile d p => rw [sleepOf, tile_of_cds (reply_cds ..), sleepOf]
  | hen d => rw [sleepOf, cd_of_cds (reply_cds ..), sleepOf]
  | ox g => rw [sleepOf, reply_ox, sleepOf]
  | link l => rw [sleepOf, lx, reply_linkx, sleepOf, lx]

theorem runs_unitSleep {die kind index state : Nat} {u : SleepUnit} (ha : Admin s src 0x0E05) (hu : sleepUnitOf die kind index = some u)
    (hin : s.dieIn die = true) (hpos : 0 < state) (hstate : state < 3)
    (hsup : sleepSupports u (if state = 1 then .pllOff else .retained) = true) (hworks : s.unitWorks u = false)
    (hfree : (if die < 16 then s.launchOn die else s.anyLaunch) = false) : Runs (.unitSleep src die kind index state) s fun t =>
      Replied s t src 0x0E05 [] ∧
        t.sleepOf u = { s.sleepOf u with st := if state = 1 then .pllOff else .retained, waking := false } := by
  have hx : exec (.unitSleep src die kind index state) s = execUnitSleep src die kind index state s := rfl
  unfold execUnitSleep at hx
  rw [hu] at hx
  generalize (if state = 1 then Sleep.pllOff else .retained) = st at hx hsup ⊢
  dsimp only at hx
  rw [State.command_runs ha.port ha.admin rfl] at hx
  · have hsleep := s.sleepOf_modSleep u u fun v => { v with st := st, waking := false }
    rw [if_pos rfl] at hsleep
    refine runs_of_exec hx ⟨?_, ?_⟩
    · refine Replied.of_reply ?_ ?_ ..
      · exact State.now_of_ft (State.modSleep_ft ..)
      · exact State.modSleep_out ..
    · rw [State.sleepOf_reply]
      exact hsleep
  · refine firstErr_none fun c hc => ?_
    simp only [List.mem_cons, List.not_mem_nil, or_false] at hc
    rcases hc with rfl | rfl | rfl | rfl
    · simp [hin]
    · simp; omega
    · simp [hsup]
    · simp [hworks, hfree]

theorem runs_thermSet {temp : Nat} (ha : Admin s src 0x0E06) : Runs (.thermSet src temp) s fun t =>
    Replied s t src 0x0E06 [BitVec.ofNat 8 (max 85 (min 100 temp))] ∧ t.pwr = { s.pwr with insertTemp := max 85 (min 100 temp) } := by
  have hx : exec (.thermSet src temp) s = execThermSet src temp s := rfl
  unfold execThermSet State.thermSet at hx
  rw [State.command_runs ha.port ha.admin rfl rfl] at hx
  dsimp only at hx
  refine runs_of_exec hx ⟨?_, ?_⟩
  · refine Replied.of_reply ?_ ?_ ..
    · rfl
    · rfl
  · rw [State.reply_pwr]

theorem runs_tripClear (ha : Admin s src 0x0E07) (htrip : s.pwr.trip = true) (hdue : s.pwr.tripAt + 60000000000 ≤ s.aonNs) :
    Runs (.tripClear src) s fun t => Replied s t src 0x0E07 [] ∧ t.pwr = { s.pwr with trip := false } := by
  have hx : exec (.tripClear src) s = execTripClear src s := rfl
  unfold execTripClear at hx
  rw [State.command_runs ha.port ha.admin rfl] at hx
  · refine runs_of_exec hx ⟨?_, ?_⟩
    · refine Replied.of_reply ?_ ?_ ..
      · rfl
      · rfl
    · rw [State.reply_pwr]
  · refine firstErr_none fun c hc => ?_
    simp only [List.mem_cons, List.not_mem_nil, or_false] at hc
    rcases hc with rfl | rfl
    · simp [htrip]
    · have hsec : 60 * secNs = 60000000000 := rfl
      rw [hsec]
      exact decide_eq_false (by omega)

theorem runs_pmbusRead {addr cmd len : Nat} {b : List Byte} (hport : s.portAdmits src 0x0E08 = true) (hlow : 0x40 ≤ addr) (hhigh : addr ≤ 0x47)
    (hcmd : cmd < 256) (hpos : 0 < len) (hlen : len < 3) (hb : b.length = len) : Runs (.pmbusRead src addr cmd len (some b)) s fun t =>
      OnlyReply s t ∧ Replied s t src 0x0E08 b := by
  have hx : exec (.pmbusRead src addr cmd len (some b)) s = execPmbusRead src addr cmd len (some b) s := rfl
  unfold execPmbusRead at hx
  rw [State.command_runs hport rfl rfl] at hx
  · exact runs_of_exec hx ⟨OnlyReply.of_reply .., Replied.of_reply rfl rfl ..⟩
  · refine firstErr_none fun c hc => ?_
    simp only [List.mem_cons, List.not_mem_nil, or_false] at hc
    rcases hc with rfl | rfl
    · simp; omega
    · simp [hb]

end

end Sys2Proof.Machine

namespace Sys2Proof.Machine

/-! Dies that start (R466, R467). -/

namespace State.Moves

variable {s t u : State}

theorem of_eq (hft : t.ft = s.ft) (hout : t.out = s.out) (hdis : t.dis = s.dis) (hpins : t.pins = s.pins) (haon : t.aonNs = s.aonNs)
    (hpwr : t.pwr = s.pwr) (hpuf : t.sec.pufOk = s.sec.pufOk)
    (hboot : (t.boot.started, t.boot.romHold, t.boot.held) = (s.boot.started, s.boot.romHold, s.boot.held)) : s.Moves t where
  toSpeaks := Speaks.of_eq hft hout hdis
  pins := hpins
  aonNs := haon
  pwr := by rw [hpwr]
  moving hm := by rw [hpwr, hm]
  puf := hpuf
  started := congrArg (·.1) hboot
  romHold := congrArg (·.2.1) hboot
  held := congrArg (·.2.2) hboot

theorem modCd (d : Nat) (f : ComputeDie → ComputeDie) : s.Moves (s.modCd d f) := of_eq rfl rfl rfl rfl rfl rfl rfl rfl

theorem modArr (d p : Nat) (f : ArrayU → ArrayU) : s.Moves (s.modArr d p f) := of_eq rfl rfl rfl rfl rfl rfl rfl rfl

theorem modLink (l : Nat) (f : Link → Link) : s.Moves (s.modLink l f) := of_eq rfl rfl rfl rfl rfl rfl rfl rfl

theorem modLx (l : Nat) (f : LinkX → LinkX) : s.Moves (s.modLx l f) := of_eq rfl rfl rfl rfl rfl rfl rfl rfl

theorem outputUp (o : Nat) : s.Moves (s.outputUp o) := of_eq rfl rfl rfl rfl rfl rfl rfl rfl

theorem extend (k : Nat) (digest : List Byte) : s.Moves (s.extend k digest) := of_eq rfl rfl rfl rfl rfl rfl rfl rfl

theorem substituted (die unit kind index old new sev : Nat) (code : Err) : s.Moves (s.substituted die unit kind index old new sev code) :=
  of_eq (substituted_ft ..) (substituted_out ..) (substituted_dis ..) (substituted_pins ..) (substituted_aonNs ..) (substituted_pwr ..)
    (congrArg Sec.pufOk (substituted_sec ..)) (congrArg (fun b : Boot => (b.started, b.romHold, b.held)) (substituted_boot ..))

theorem subsForColumns (d p : Nat) : s.Moves (s.subsForColumns d p) := by
  unfold State.subsForColumns
  dsimp only
  split
  · exact of_eq rfl rfl rfl rfl rfl rfl rfl rfl
  · exact refl s

/-! The hub (R246, R284, R329, R467). -/

theorem startHub : s.Moves s.startHub := by
  unfold State.startHub
  extract_lets l hub₀ hub m units u ups
  have hu : s.Moves u := of_eq rfl rfl rfl rfl rfl rfl rfl rfl
  clear_value ups u
  exact hu.trans (foldl (fun _ _ => outputUp _) ups u)

theorem bankFound (bad : List Nat) (p : Nat) : s.Moves (s.bankFound bad p) := by
  unfold State.bankFound
  split
  · exact refl s
  · split
    · refine Moves.trans ?_ (substituted ..)
      exact of_eq rfl rfl rfl rfl rfl rfl rfl rfl
    · refine Moves.trans ?_ (substituted ..)
      exact of_eq rfl rfl rfl rfl rfl rfl rfl rfl

theorem collFail (b : Nat) (code : Err) (data : List Byte) (contrib : Option Nat) (l : Nat) : s.Moves (s.collFail b code data contrib l) := by
  refine of_fixed (fixed_of_outer (outer_collAbortBy ..)) ?_
  unfold State.collFail collAbortBy
  dsimp only
  split
  · split
    · exact (Speaks.abortBinding ..).trans (Speaks.endPeriod ..)
    · exact Speaks.abortBinding ..
  · exact Speaks.abortBinding ..

theorem oxRetire (u : Nat) : s.Moves (s.oxRetire u) := by
  unfold State.oxRetire
  extract_lets g n uses hit ox v w sp x ox' r
  have hv : s.Moves v := of_eq rfl rfl rfl rfl rfl rfl rfl rfl
  have hw : s.Moves w := hv.trans (foldl (fun _ _ => collFail ..) hit v)
  clear_value w
  split
  · refine hw.trans (Moves.trans ?_ (substituted ..))
    exact of_eq rfl rfl rfl rfl rfl rfl rfl rfl
  · have hr : s.Moves r := hw.trans (substituted ..)
    clear_value r
    refine hr.trans (foldl (fun t e => ?_) _ r)
    split
    · exact collFail ..
    · exact refl t

theorem testHub (b : BootFinds) : s.Moves (s.testHub b) := by
  unfold State.testHub
  extract_lets bad u
  have hu : s.Moves u := foldl (fun _ _ => bankFound ..) bad s
  clear_value u
  refine hu.trans (foldl (fun t k => ?_) _ u)
  split
  · exact refl t
  · exact oxRetire k

/-! The compute dies (R16, R112, R120, R202, R467). -/

theorem startCd (n : Nat) : s.Moves (s.startCd n) := by
  unfold State.startCd
  extract_lets c c' u v w
  have hu : s.Moves u := of_eq rfl rfl rfl rfl rfl rfl rfl rfl
  have hv : s.Moves v := by
    unfold v
    split
    · exact hu
    · exact hu.trans (modCd ..)
  have hw : s.Moves w := hv.trans (foldl (fun _ _ => subsForColumns ..) _ v)
  clear_value w
  split
  · exact hw.trans (outputUp _)
  · exact hw

theorem colcfgApply (d p : Nat) : s.Moves (s.colcfgApply d p) := by
  unfold State.colcfgApply
  refine Moves.trans ?_ (raise ..)
  refine Moves.trans ?_ (subsForColumns ..)
  refine Moves.trans ?_ (modCd ..)
  exact modArr ..

theorem testCd (n : Nat) (b : BootFinds) : s.Moves (s.testCd n b) := by
  unfold State.testCd
  extract_lets rows u
  have hu : s.Moves u := foldl (fun _ _ => (modCd ..).trans (substituted ..)) rows s
  clear_value u
  refine hu.trans (foldl (fun t p => ?_) _ u)
  dsimp only
  split
  · exact refl t
  · refine Moves.trans ?_ (colcfgApply ..)
    exact modArr ..

/-! The link dies (R318, R339, R467). -/

theorem startLd (m : Nat) : s.Moves (s.startLd m) := by
  unfold State.startLd
  exact foldl (fun _ _ => (modLink ..).trans (modLx ..)) _ s

theorem of_linkTraining {l : LinkId} {t : Training} (h : execLinkTrainingComplete l t s = .next u) : s.Moves u := by
  have hfail (u : State) (f : Link → Link) (g : LinkX → LinkX) : u.Moves ((u.modLink l f).modLx l g) := (modLink l f).trans (modLx l g)
  have hflight {a b : State} (most : Nat) (ha : s.Moves a) (hb : s.Moves b)
      (h : (if most < t.flight then .next a else .next b : Out) = .next u) : s.Moves u := by
    split at h
    · cases h
      exact ha
    · cases h
      exact hb
  unfold execLinkTrainingComplete at h
  dsimp only at h
  split at h
  · cases h
    exact refl s
  · split at h
    · cases h
      exact hfail ..
    · split at h
      · cases h
        refine Moves.trans ?_ (hfail ..)
        exact (modLink ..).trans (raise ..)
      · refine hflight _ ?_ ?_ h
        · refine Moves.trans ?_ (hfail ..)
          exact modLink ..
        · refine Moves.trans ?_ (outputUp _)
          refine Moves.trans ?_ (hfail ..)
          exact modLink ..

theorem linkTraining (l : LinkId) (t : Training) : s.Moves (nextOf s (execLinkTrainingComplete l t s)) := by
  unfold nextOf
  split
  · exact of_linkTraining ‹_›
  · exact refl s

theorem trainLd (m : Nat) (b : BootFinds) : s.Moves (s.trainLd m b) := by
  unfold State.trainLd
  refine (startLd m).trans (foldl (fun t l => ?_) _ _)
  dsimp only
  split
  · exact linkTraining ..
  · exact refl t

/-! The host die and the store (R419, R448, R465, R473, R474). -/

theorem startHd : s.Moves s.startHd := by
  unfold State.startHd
  extract_lets l mbx xp u v svc w
  have hu : s.Moves u := of_eq rfl rfl rfl rfl rfl rfl rfl rfl
  have hv : s.Moves v := by
    unfold v
    refine Moves.trans ?_ (extend ..)
    split
    · exact hu.trans (outputUp _)
    · exact hu
  have hw : s.Moves w := hv.trans (of_eq rfl rfl rfl rfl rfl rfl rfl rfl)
  clear_value w
  refine hw.trans ?_
  split
  · refine Moves.trans ?_ (raise ..)
    exact of_eq rfl rfl rfl rfl rfl rfl rfl rfl
  · exact refl w

theorem flashProg (a : Nat) (bs : List Byte) : s.Moves (s.flashProg a bs) := of_eq rfl rfl rfl rfl rfl rfl rfl rfl

theorem writeSlot (base size magic seq res : Nat) (recs : List CfgRec) (ok : Bool) : s.Moves (s.writeSlot base size magic seq res recs ok) := by
  unfold State.writeSlot
  refine Moves.trans ?_ (flashProg ..)
  refine Moves.trans ?_ (flashProg ..)
  exact of_eq rfl rfl rfl rfl rfl rfl rfl rfl

theorem confirm : s.Moves s.confirm := by
  unfold State.confirm
  split
  · exact refl s
  · exact of_eq rfl rfl rfl rfl rfl rfl rfl rfl

theorem writeRepair (ok : Bool) : s.Moves (s.writeRepair ok) := by
  unfold State.writeRepair
  extract_lets i u
  have hu : s.Moves u := writeSlot ..
  clear_value u
  split
  · exact hu.trans (of_eq rfl rfl rfl rfl rfl rfl rfl rfl)
  · exact hu.trans (raise ..)

theorem commitStore (recs : List CfgRec) (ok repairOk : Bool) : s.Moves (s.commitStore recs ok repairOk).1 := by
  unfold State.commitStore
  extract_lets all seq i good u mark c v w x
  have hu : s.Moves u := writeSlot ..
  have hw : s.Moves w := by
    refine hu.trans (Moves.trans ?_ (extend ..))
    exact of_eq rfl rfl rfl rfl rfl rfl rfl rfl
  have hx : s.Moves x := by
    unfold x
    split
    · exact hw.trans (writeRepair _)
    · exact hw
  clear_value x u
  split
  · exact hx
  · exact hu.trans (of_eq rfl rfl rfl rfl rfl rfl rfl rfl)

theorem commitRepairs : s.Moves s.commitRepairs := by
  unfold State.commitRepairs
  split
  · exact refl s
  · exact commitStore ..

theorem logFailures (b : BootFinds) : s.Moves (s.logFailures b) := by
  unfold State.logFailures
  exact foldl (fun _ _ => (modDie ..).trans (raise ..)) _ s

end State.Moves

theorem State.levelOf_noPuf {s : State} (h : s.sec.pufOk = false) (v : Service) : s.levelOf v ≤ 1 := by
  unfold levelOf
  extract_lets a b c e
  have hc : c ≤ 1 := by
    unfold c
    rw [h, if_neg Bool.false_ne_true]
    exact Nat.min_le_right ..
  have he : e ≤ c := by
    unfold e
    split
    · exact Nat.le_refl c
    · exact Nat.min_le_left ..
  split <;> omega

theorem State.svc_confirm (s : State) : s.confirm.svc = s.svc := by
  unfold confirm
  split <;> rfl

/-- The start of the dies, from the state in which they are powered and taken as good (R466, R467). -/
theorem State.startDies_spec (s : State) (b : BootFinds) : ∃ v : State, v = { s with pwr := { s.pwr with dark := false }, dies := v.dies } ∧
    v.Moves (s.startDies b) ∧ (s.sec.pufOk = false → (s.startDies b).svc.level ≤ 1) := by
  obtain ⟨t, ht⟩ : ∃ t, t = s.startDies b := ⟨_, rfl⟩
  rw [← ht]
  unfold startDies at ht
  extract_lets pwr v a fw fwOk lib image libE boot c svc hub hd d e f lds g cds h i k v1 sv l v2 m fit v3 n at ht
  have ha : v.Moves a := Moves.logFailures b
  have hc : v.Moves c := ha.trans (Moves.of_eq rfl rfl rfl rfl rfl rfl rfl rfl)
  have hd : v.Moves d := by
    unfold d
    split
    · exact hc
    · exact hc.trans (Moves.raise ..)
  have he : d.Moves e := Moves.startHub.trans (Moves.testHub b)
  have hf : v.Moves f := by
    unfold f
    split
    · exact hd.trans (he.trans (Moves.of_eq rfl rfl rfl rfl rfl rfl rfl rfl))
    · exact hd
  have hg : v.Moves g := hf.trans (Moves.foldl (fun _ _ => Moves.trainLd _ b) lds f)
  have hh : v.Moves h := hg.trans (Moves.foldl (fun _ _ => (Moves.startCd _).trans (Moves.testCd _ b)) cds g)
  have hi : v.Moves i := by
    unfold i
    split
    · exact hh.trans Moves.startHd
    · exact hh
  have hk : v.Moves k := by
    unfold k
    split
    · exact hi.trans (Moves.extend ..)
    · exact hi.trans (Moves.raise ..)
  have hl : v.Moves l := (hk.trans (Moves.of_eq rfl rfl rfl rfl rfl rfl rfl rfl)).trans (Moves.service v1 .ok)
  have hm : v.Moves m := hl.trans (Moves.service v2 .ok)
  have hn : v.Moves (m.service v3 .ok) := hm.trans (Moves.service v3 .ok)
  have hconfirm : v.Moves n := hn.trans Moves.confirm
  refine ⟨v, rfl, ?_, fun hpuf => ?_⟩
  · rw [ht]
    exact hconfirm.trans Moves.commitRepairs
  · have hvpuf : v.sec.pufOk = false := hpuf
    have htn : t = n := by
      rw [ht, commitRepairs, if_pos (.inr (hconfirm.puf.trans hvpuf))]
    obtain ⟨hlevel, -, -⟩ := m.service_spec v3 .ok
    rw [htn]
    unfold n
    rw [svc_confirm, hlevel]
    exact levelOf_noPuf (hm.puf.trans hvpuf) v3

end Sys2Proof.Machine

namespace Sys2Proof.Machine

/-! Power states (R489, R494, R495). -/

theorem State.Moves.trainStart {s : State} (l : Nat) : s.Moves (s.trainStart l) := by
  unfold State.trainStart
  refine Moves.trans ?_ (modLx ..)
  refine Moves.trans ?_ (modLink ..)
  split
  · exact linkDown ..
  · exact refl s

theorem State.Moves.unitsSleep {s : State} (st ox : Sleep) : s.Moves (s.unitsSleep st ox) := of_eq rfl rfl rfl rfl rfl rfl rfl rfl

theorem State.Moves.powerUnpark {s : State} : s.Moves s.powerUnpark := by
  unfold State.powerUnpark
  refine (unitsSleep ..).trans (foldl (fun t l => ?_) _ _)
  split
  · exact trainStart l
  · exact refl t

theorem State.powerPark_spec (s : State) : ∃ u f, s.Moves u ∧ s.powerPark = { u with ft := f } := by
  unfold powerPark
  extract_lets u v
  have hu : s.Moves u := by
    refine Moves.foldl (fun t l => ?_) _ s
    split
    · exact Moves.refl t
    · exact (Moves.linkDown ..).trans (Moves.modLx ..)
  have hv : s.Moves v := hu.trans (Moves.unitsSleep ..)
  clear_value v
  split
  · exact ⟨v, _, hv, rfl⟩
  · exact ⟨v, v.ft, hv, rfl⟩

/-- What a power state that takes effect leaves. -/
structure State.PowerAt (s t : State) (st : PwrSt) : Prop where
  st : t.pwr.st = st
  moving : t.pwr.moving = none
  out : s.out <:+ t.out

theorem State.PowerAt.of_moves {s t u : State} {st : PwrSt} (h : s.PowerAt t st) (hm : t.Moves u) : s.PowerAt u st :=
  ⟨by rw [hm.pwr]; exact h.st, hm.moving h.moving, h.out.trans hm.out⟩

theorem State.PowerAt.startDies {s t : State} {st : PwrSt} (h : s.PowerAt t st) (b : BootFinds) : s.PowerAt (t.startDies b) st := by
  obtain ⟨v, hv, hm, -⟩ := t.startDies_spec b
  refine PowerAt.of_moves ⟨?_, ?_, ?_⟩ hm
  · rw [hv]
    exact h.st
  · rw [hv]
    exact h.moving
  · rw [hv]
    exact h.out

theorem State.PowerAt.powerPark {s t : State} {st : PwrSt} (h : s.PowerAt t st) : s.PowerAt t.powerPark st := by
  obtain ⟨u, f, hu, hx⟩ := t.powerPark_spec
  rw [hx]
  have hat := h.of_moves hu
  exact ⟨hat.st, hat.moving, hat.out⟩

/-- A power state is written, and the service level follows (R34, R494). -/
def State.powerSet (s : State) (st : PwrSt) : State := { s with pwr := { s.pwr with st := st, moving := none } }
def State.serveAgain (s : State) : State := s.service s.svc .ok

theorem State.powerTo_mgmt (s : State) (b : BootFinds) : s.powerTo .mgmt b = ((s.powerSet .mgmt).darken true .ok).serveAgain := rfl

theorem State.powerTo_run (s : State) (b : BootFinds) : s.powerTo .run b = if s.pwr.dark then (s.powerSet .run).startDies b
    else (if s.pwr.st = .parked then (s.powerSet .run).powerUnpark else s.powerSet .run).serveAgain := rfl

theorem State.powerTo_parked (s : State) (b : BootFinds) : s.powerTo .parked b =
    let u := if s.pwr.dark then (s.powerSet .parked).startDies b else s.powerSet .parked
    (if s.pwr.st = .parked then u else u.powerPark).serveAgain := rfl

theorem State.powerAt_powerSet (s : State) (st : PwrSt) : s.PowerAt (s.powerSet st) st := ⟨rfl, rfl, List.suffix_refl _⟩

theorem State.level_serveAgain (s : State) : s.serveAgain.svc.level = s.levelOf s.svc := (s.service_spec s.svc .ok).1

theorem State.powerTo_mgmt_spec (s : State) (b : BootFinds) : s.PowerAt (s.powerTo .mgmt b) .mgmt ∧
    (s.powerTo .mgmt b).svc.level ≤ 1 ∧ (s.powerTo .mgmt b).pwr.dark = true := by
  have hat := s.powerAt_powerSet .mgmt
  have hdark : s.PowerAt ((s.powerSet .mgmt).darken true .ok) .mgmt ∧ ((s.powerSet .mgmt).darken true .ok).pwr.dark = true := by
    cases hd : (s.powerSet .mgmt).pwr.dark with
    | true =>
      rw [darken, if_pos hd]
      exact ⟨hat, hd⟩
    | false =>
      have h := darkened hd true .ok
      exact ⟨⟨by rw [h.pwr]; exact hat.st, h.moving hat.moving, hat.out.trans h.out⟩, by rw [h.pwr]⟩
  rw [powerTo_mgmt]
  generalize (s.powerSet .mgmt).darken true .ok = w at hdark
  obtain ⟨hw, hd⟩ := hdark
  refine ⟨hw.of_moves (Moves.service ..), ?_, ?_⟩
  · rw [level_serveAgain]
    exact levelOf_mgmt hw.st w.svc
  · rw [serveAgain, service_pwr]
    exact hd

theorem State.powerTo_run_spec (s : State) (b : BootFinds) : s.PowerAt (s.powerTo .run b) .run := by
  have hat := s.powerAt_powerSet .run
  rw [powerTo_run]
  split
  · exact hat.startDies b
  · refine PowerAt.of_moves ?_ (Moves.service ..)
    split
    · exact hat.of_moves Moves.powerUnpark
    · exact hat

theorem State.powerTo_parked_spec (s : State) (b : BootFinds) : s.PowerAt (s.powerTo .parked b) .parked ∧
    (s.powerTo .parked b).svc.level ≤ 2 := by
  have hat := s.powerAt_powerSet .parked
  rw [powerTo_parked]
  extract_lets u
  have hu : s.PowerAt u .parked := by
    unfold u
    split
    · exact hat.startDies b
    · exact hat
  clear_value u
  have hpark : s.PowerAt (if s.pwr.st = .parked then u else u.powerPark) .parked := by
    split
    · exact hu
    · exact hu.powerPark
  generalize (if s.pwr.st = .parked then u else u.powerPark) = w at hpark
  refine ⟨hpark.of_moves (Moves.service ..), ?_⟩
  rw [level_serveAgain]
  exact levelOf_parked hpark.st w.svc

theorem State.powerTo_spec (s : State) (st : PwrSt) (b : BootFinds) : s.PowerAt (s.powerTo st b) st ∧
    (st = .mgmt → (s.powerTo st b).svc.level ≤ 1 ∧ (s.powerTo st b).pwr.dark = true) ∧
    (st = .parked → (s.powerTo st b).svc.level ≤ 2) := by
  cases st with
  | mgmt => exact ⟨(s.powerTo_mgmt_spec b).1, fun _ => (s.powerTo_mgmt_spec b).2, nofun⟩
  | run => exact ⟨s.powerTo_run_spec b, nofun, nofun⟩
  | parked => exact ⟨(s.powerTo_parked_spec b).1, nofun, fun _ => (s.powerTo_parked_spec b).2⟩

theorem runs_powerTransitionComplete {s : State} {b : BootFinds} {st : PwrSt} {src : Option Src} (hmove : s.pwr.moving = some (st, src))
    (href : st = .mgmt ∨ s.pwr.refLost = false) : Runs (.powerTransitionComplete b) s fun t =>
      t.pwr.st = st ∧ t.pwr.moving = none ∧ (st = .mgmt → t.svc.level ≤ 1 ∧ t.pwr.dark = true) ∧ (st = .parked → t.svc.level ≤ 2) ∧
      ∀ c, src = some c → Answered s t c 0x0E03 [BitVec.ofNat 8 s.pwr.st.code] := by
  have hx : exec (.powerTransitionComplete b) s = execPowerTransitionComplete b s := rfl
  unfold execPowerTransitionComplete at hx
  rw [hmove] at hx
  dsimp only at hx
  rw [if_neg (fun h => href.elim h.1 fun hf => Bool.false_ne_true (hf.symm.trans h.2))] at hx
  cases src with
  | none =>
    obtain ⟨hat, hmgmt, hpark⟩ := s.powerTo_spec st b
    exact runs_of_exec hx ⟨hat.st, hat.moving, hmgmt, hpark, nofun⟩
  | some c =>
    obtain ⟨hat, hmgmt, hpark⟩ := (s.reply c 0x0E03 .ok [BitVec.ofNat 8 s.pwr.st.code]).powerTo_spec st b
    refine runs_of_exec hx ⟨hat.st, hat.moving, hmgmt, hpark, fun d hd => ?_⟩
    cases hd
    refine Sent.of_suffix (u := s) (List.suffix_refl _) ?_
    have hout := hat.out
    rw [State.out_reply_ok] at hout
    exact hout

/-- Settles O57: power, reference and thermal events, the contacts and the power commands have their effects. -/
theorem powerEventsAndCommands : Obligations.PowerEventsAndCommands := by
  unfold Obligations.PowerEventsAndCommands
  intro s
  refine ⟨runs_refclkLoss, rfl, fun _ _ _ _ _ => runs_powerSample, fun _ _ _ _ => runs_powerSample_fault, fun _ _ => runs_trip,
    runs_inputPowerLoss s, fun _ => runs_insertionLevelStep, fun _ _ _ => runs_powerTransitionComplete, ?_, exec_modEnRise, runs_modEnFall,
    exec_smbusBlockRead, exec_smbusAlertResponse, runs_testPort_extest s, runs_testPort_bypass s, fun src => ⟨fun _ => runs_clkStatus,
    runs_pwrStatus, fun _ => exec_powerStateSet, fun _ => runs_idleTimerSet,
    fun _ _ _ _ _ ha hu hin hpos hstate => runs_unitSleep ha hu hin hpos hstate, fun _ => runs_thermSet, runs_tripClear,
    fun _ _ _ _ => runs_pmbusRead⟩⟩
  intro answers hnodup a l ha hwords c hc
  exact runs_poll hnodup ha hwords hc

end Sys2Proof.Machine

namespace Sys2Proof.Machine

/-! The boot ROM and the start of the Goose firmware (R459, R460, R462, R464, R466, R468, R472, R475, R476). -/

/-- What the boot leaves: the contacts, the count, a trip, the PUF, and whether firmware runs. -/
structure State.Stands (s t : State) : Prop where
  pins : t.pins = s.pins
  aonNs : t.aonNs = s.aonNs
  trip : t.pwr.trip = s.pwr.trip
  puf : t.sec.pufOk = s.sec.pufOk
  started : t.boot.started = s.boot.started
  romHold : t.boot.romHold = s.boot.romHold

theorem State.Moves.stands {s t : State} (h : s.Moves t) : s.Stands t :=
  ⟨h.pins, h.aonNs, by rw [h.pwr], h.puf, h.started, h.romHold⟩

theorem State.Stands.trans {s t u : State} (h : s.Stands t) (h' : t.Stands u) : s.Stands u :=
  ⟨h'.pins.trans h.pins, h'.aonNs.trans h.aonNs, h'.trip.trans h.trip, h'.puf.trans h.puf, h'.started.trans h.started,
    h'.romHold.trans h.romHold⟩

namespace State.Moves

variable {s : State}

theorem logSlot (i : Nat) : s.Moves (s.logSlot i) := by
  unfold State.logSlot
  dsimp only
  split
  · exact refl s
  · exact raise ..

theorem bootSlots : s.Moves s.bootSlots := by
  unfold State.bootSlots
  extract_lets u a c cfg
  have hu : s.Moves u := (logSlot 0).trans (logSlot 1)
  clear_value u cfg a c
  refine hu.trans ?_
  split
  · refine Moves.trans ?_ (extend ..)
    exact of_eq rfl rfl rfl rfl rfl rfl rfl rfl
  · refine Moves.trans ?_ (raise ..)
    exact of_eq rfl rfl rfl rfl rfl rfl rfl rfl

theorem bootFactory : s.Moves s.bootFactory := by
  unfold State.bootFactory
  extract_lets a c cfg u f
  have hu : s.Moves u := of_eq rfl rfl rfl rfl rfl rfl rfl rfl
  clear_value u f
  refine hu.trans ?_
  split
  · refine Moves.trans ?_ (extend ..)
    refine Moves.trans ?_ (extend ..)
    exact of_eq rfl rfl rfl rfl rfl rfl rfl rfl
  · exact raise ..

theorem rebuild : s.Moves s.rebuild := by
  unfold State.rebuild
  split
  · exact refl s
  · extract_lets half base first recs u cfg v
    have hv : s.Moves v := (commitStore recs true true).trans (of_eq rfl rfl rfl rfl rfl rfl rfl rfl)
    clear_value v
    split
    · exact hv.trans (raise ..)
    · exact hv

theorem writeDir (d : FwDir) : s.Moves (s.writeDir d) := of_eq rfl rfl rfl rfl rfl rfl rfl rfl

theorem bootIdentity (b : BootFinds) : s.Moves (s.bootIdentity b) := by
  unfold State.bootIdentity
  extract_lets ok sec u
  have hu : s.Moves u := of_eq rfl rfl rfl rfl rfl rfl rfl rfl
  clear_value u
  split
  · exact hu
  · exact hu.trans (raise ..)

end State.Moves

theorem State.stands_bootRecords (s : State) : s.Stands s.bootRecords := by
  have hext (u : State) (k : Nat) (d : List Byte) : u.Stands (u.extend k d) := (Moves.extend k d).stands
  unfold bootRecords
  extract_lets l health sec u ft v w x sec'
  have hu : s.Stands u := ⟨rfl, rfl, rfl, rfl, rfl, rfl⟩
  have hv : s.Stands v := by
    unfold v
    split
    · exact hu.trans ⟨rfl, rfl, rfl, rfl, rfl, rfl⟩
    · exact hu
  have hw : s.Stands w := by
    unfold w
    split
    · refine hv.trans (Stands.trans ?_ (hext ..))
      exact ⟨rfl, rfl, rfl, rfl, rfl, rfl⟩
    · exact hv
  have hx : s.Stands x := hw.trans (Moves.foldl (fun _ _ => Moves.extend ..) _ w).stands
  clear_value x
  exact hx.trans ⟨rfl, rfl, rfl, rfl, rfl, rfl⟩

/-- The boot ROM has run: firmware runs, or the ROM holds (R464). -/
structure State.Booted (s t : State) : Prop where
  pins : t.pins = s.pins
  aonNs : t.aonNs = s.aonNs
  trip : t.pwr.trip = s.pwr.trip
  puf : t.sec.pufOk = s.sec.pufOk
  boot : (t.boot.started = true ∧ t.boot.romHold = false) ∨ (t.boot.started = false ∧ t.boot.romHold = true)

theorem State.Stands.booted {s t u : State} (h : s.Stands t) (h' : t.Booted u) : s.Booted u :=
  ⟨h'.pins.trans h.pins, h'.aonNs.trans h.aonNs, h'.trip.trans h.trip, h'.puf.trans h.puf, h'.boot⟩

theorem State.Booted.stands {s t u : State} (h : s.Booted t) (h' : t.Stands u) : s.Booted u :=
  ⟨h'.pins.trans h.pins, h'.aonNs.trans h.aonNs, h'.trip.trans h.trip, h'.puf.trans h.puf, by rw [h'.started, h'.romHold]; exact h.boot⟩

theorem State.booted_bootFrom (s : State) (i : Nat) : s.Booted (s.bootFrom i) := by
  unfold bootFrom
  extract_lets h d boot sec u
  have hu : s.Booted u := ⟨rfl, rfl, rfl, rfl, .inl ⟨rfl, rfl⟩⟩
  clear_value u
  exact hu.stands ((Moves.extend ..).trans (Moves.extend ..)).stands

theorem State.booted_bootFirmware (s : State) : s.Booted s.bootFirmware := by
  have hfall (u : State) (b : Bool) : u.Stands { u with boot := { u.boot with fallback := b } } := ⟨rfl, rfl, rfl, rfl, rfl, rfl⟩
  unfold bootFirmware
  extract_lets d p tried u e spent boot v boot'
  have hu : s.Stands u := by
    unfold u
    split
    · exact (Moves.writeDir _).stands
    · exact ⟨rfl, rfl, rfl, rfl, rfl, rfl⟩
  clear_value u
  split
  · exact (hu.trans (hfall u false)).booted (State.booted_bootFrom _ p)
  · have hv : s.Stands v := hu.trans ((hfall u true).trans (Moves.raise ..).stands)
    clear_value v
    split
    · exact hv.booted (v.booted_bootFrom (1 - p))
    · exact ⟨hv.pins, hv.aonNs, hv.trip, hv.puf, .inr ⟨rfl, rfl⟩⟩

theorem State.stands_answered (s : State) (l : List Nat) : s.Stands { s with pwr := { s.pwr with answered := l } } :=
  ⟨rfl, rfl, rfl, rfl, rfl, rfl⟩

/-- The boot, from the state with the PUF as found (R459 to R466). -/
theorem State.bootKeeper_spec (s : State) (b : BootFinds) : (s.bootKeeper b).pins = s.pins ∧ (s.bootKeeper b).aonNs = s.aonNs ∧
    (s.bootKeeper b).pwr.trip = s.pwr.trip ∧ (s.bootKeeper b).sec.pufOk = b.pufOk ∧
    (((s.bootKeeper b).boot.started = true ∧ (s.bootKeeper b).boot.romHold = false) ∨
      ((s.bootKeeper b).boot.started = false ∧ (s.bootKeeper b).boot.romHold = true)) := by
  obtain ⟨t, ht⟩ : ∃ t, t = s.bootKeeper b := ⟨_, rfl⟩
  rw [← ht]
  unfold bootKeeper at ht
  extract_lets sec u v w l sec' x y z pwr z' svc z'' at ht
  have huv : u.Moves v := by
    unfold v
    split
    · exact Moves.refl u
    · exact Moves.raise ..
  have hw : u.Moves w := huv.trans (Moves.bootSlots.trans Moves.bootFactory)
  have hx : u.Stands x := hw.stands.trans ⟨rfl, rfl, rfl, rfl, rfl, rfl⟩
  have hy : u.Booted y := hx.booted x.booted_bootFirmware
  have hu : u.pins = s.pins ∧ u.aonNs = s.aonNs ∧ u.pwr = s.pwr ∧ u.sec.pufOk = b.pufOk := ⟨rfl, rfl, rfl, rfl⟩
  have hbooted : u.Booted t := by
    have hz : y.Stands z := Moves.rebuild.stands.trans (State.stands_bootRecords _)
    have hz' : y.Stands z' := hz.trans (State.stands_answered z _)
    have hz'' : z'.Moves z'' := Moves.service ..
    clear_value z'' z' y u
    rw [ht]
    split
    · exact hy
    · exact hy.stands (hz'.trans (hz''.trans (Moves.bootIdentity b)).stands)
  obtain ⟨hpins, haon, hpwr, hpuf⟩ := hu
  exact ⟨hbooted.pins.trans hpins, hbooted.aonNs.trans haon, hbooted.trip.trans (congrArg Pwr.trip hpwr), hbooted.puf.trans hpuf, hbooted.boot⟩

theorem State.stampStart_only (s : State) (ms : List Nat) : ∃ a f, s.stampStart ms = { s with aonNs := a, ft := f } := by
  unfold stampStart
  extract_lets n
  clear_value n
  split
  · exact ⟨s.aonNs, s.ft, rfl⟩
  · exact ⟨_, _, rfl⟩

theorem State.Moves.ledger {s : State} (l : Ledger) : s.Moves { s with ledger := l } := of_eq rfl rfl rfl rfl rfl rfl rfl rfl

theorem State.Moves.bootLedger {s : State} : s.Moves s.bootLedger := by
  obtain ⟨l, hl⟩ : ∃ l, s.bootLedger = if ({ s with ledger := l } : State).newestSector.isNone then
      ({ s with ledger := l } : State).raise 24 0x02 4 .checksum else { s with ledger := l } :=
    ⟨{ s.ledgerScan with pending := s.ledger.pending }, rfl⟩
  rw [hl]
  split
  · exact (ledger l).trans (raise ..)
  · exact ledger l

end Sys2Proof.Machine

namespace Sys2Proof.Machine

/-! Power-on and restart (R466, R468, R514, R516). -/

theorem exec_powerOn_held {s : State} {b : BootFinds} (hstart : s.boot.started = false) (hhold : s.boot.romHold = false)
    (hreq : s.pins.fspiReq = true) (hb : b.fspiReq = false) : exec (.powerOn b) s = .next { s with
      pins := { s.pins with member := b.grp, modEn := b.modEn, present := true, fspiReq := b.fspiReq } } := by
  have hx : exec (.powerOn b) s = execPowerOn b s := rfl
  unfold execPowerOn at hx
  rw [if_neg (by rw [hstart, hhold, hreq]; decide), if_pos (by rw [hb]; rfl)] at hx
  exact hx

theorem State.startRecord_spec (s : State) :
    ∃ l e t, s.startRecord = { s with ledger := { s.ledger with pending := l ++ [(1, e)], totals := t } } := by
  unfold startRecord
  extract_lets c flags ms data e
  exact ⟨_, _, _, rfl⟩

/-- The dies of a start, held off by MOD_EN (R514). -/
def State.holdDies (s : State) : State :=
  ({ s with boot := { s.boot with held := true }, pwr := { s.pwr with st := .mgmt } } : State).serveAgain

theorem State.holdDies_spec (s : State) : s.Stands s.holdDies ∧ s.holdDies.boot.held = true ∧ s.holdDies.pwr.st = .mgmt ∧
    s.holdDies.svc.level ≤ 1 := by
  obtain ⟨v, hv⟩ : ∃ v : State, v = { s with boot := { s.boot with held := true }, pwr := { s.pwr with st := .mgmt } } := ⟨_, rfl⟩
  have hx : s.holdDies = v.serveAgain := by rw [hv]; rfl
  have hsv : s.Stands v := by
    rw [hv]
    exact ⟨rfl, rfl, rfl, rfl, rfl, rfl⟩
  have hheld : v.boot.held = true := by rw [hv]
  have hst : v.pwr.st = .mgmt := by rw [hv]
  have hserve : v.Moves v.serveAgain := Moves.service ..
  rw [hx]
  refine ⟨hsv.trans hserve.stands, hserve.held.trans hheld, ?_, ?_⟩
  · rw [hserve.pwr]
    exact hst
  · rw [level_serveAgain]
    exact levelOf_mgmt hst v.svc

theorem State.startDies_stands (s : State) (b : BootFinds) : s.Stands (s.startDies b) := by
  obtain ⟨v, hv, hm, -⟩ := s.startDies_spec b
  refine Stands.trans ?_ hm.stands
  rw [hv]
  exact ⟨rfl, rfl, rfl, rfl, rfl, rfl⟩

/-- The dies after a power-on (R466, R514). -/
theorem State.started_spec {k u : State} {b : BootFinds} (hu : u = if b.modEn then (k.stampStart b.levelMs).startDies b else k.holdDies) :
    u.pins = k.pins ∧ u.sec.pufOk = k.sec.pufOk ∧ u.boot.started = k.boot.started ∧ (k.sec.pufOk = false → u.svc.level ≤ 1) ∧
      (b.modEn = false → u.svc.level ≤ 1 ∧ u.pwr.st = .mgmt ∧ u.boot.held = true) := by
  cases hen : b.modEn with
  | true =>
    rw [hen, if_pos rfl] at hu
    obtain ⟨a, f, hstamp⟩ := k.stampStart_only b.levelMs
    rw [hstamp] at hu
    obtain ⟨-, -, -, hlevel⟩ := ({ k with aonNs := a, ft := f } : State).startDies_spec b
    have hstands := ({ k with aonNs := a, ft := f } : State).startDies_stands b
    rw [← hu] at hlevel hstands
    exact ⟨hstands.pins, hstands.puf, hstands.started, hlevel, nofun⟩
  | false =>
    rw [hen, if_neg Bool.false_ne_true] at hu
    obtain ⟨hstands, hheld, hst, hlevel⟩ := k.holdDies_spec
    rw [hu]
    exact ⟨hstands.pins, hstands.puf, hstands.started, fun _ => hlevel, fun _ => ⟨hlevel, hst, hheld⟩⟩

theorem runs_powerOn {s : State} {b : BootFinds} (hstart : s.boot.started = false) (hhold : s.boot.romHold = false)
    (hreq : s.pins.fspiReq = true) (hb : b.fspiReq = true) : Runs (.powerOn b) s fun t =>
      t.pins = { s.pins with member := b.grp, modEn := b.modEn, present := true, fspiReq := b.fspiReq } ∧ t.sec.pufOk = b.pufOk ∧
        (t.boot.started = true ∨ t.boot.romHold = true) ∧
        (t.boot.started = true → (∃ l e, t.ledger.pending = l ++ [(1, e)]) ∧ (b.pufOk = false → t.svc.level ≤ 1) ∧
          (b.modEn = false → t.svc.level ≤ 1 ∧ t.pwr.st = .mgmt ∧ t.boot.held = true)) := by
  have hx : exec (.powerOn b) s = execPowerOn b s := rfl
  unfold execPowerOn at hx
  rw [if_neg (by rw [hstart, hhold, hreq]; decide), if_neg (by rw [hb]; decide)] at hx
  extract_lets pins k boot pwr r u cfg at hx
  obtain ⟨v, hv, hvpins⟩ : ∃ v : State, k = (v.stampStart (b.levelMs.take 1)).bootLedger.bootKeeper b ∧
      v.pins = { s.pins with member := b.grp, modEn := b.modEn, present := true, fspiReq := b.fspiReq } := ⟨_, rfl, rfl⟩
  have hu : u = if b.modEn then (k.stampStart b.levelMs).startDies b else k.holdDies := rfl
  obtain ⟨c, hc⟩ : ∃ c, exec (.powerOn b) s = if k.boot.romHold = true then .next k else .next ({ u with cfg := c } : State).startRecord :=
    ⟨_, hx⟩
  clear_value u r cfg boot pwr k
  obtain ⟨a, f, hstamp⟩ := v.stampStart_only (b.levelMs.take 1)
  have hledger : (v.stampStart (b.levelMs.take 1)).Moves (v.stampStart (b.levelMs.take 1)).bootLedger :=
    State.Moves.bootLedger
  obtain ⟨hkpins, -, -, hkpuf, hkboot⟩ := (v.stampStart (b.levelMs.take 1)).bootLedger.bootKeeper_spec b
  have hpins : ((v.stampStart (b.levelMs.take 1)).bootLedger.bootKeeper b).pins = v.pins := by
    rw [hkpins, hledger.pins, hstamp]
  rw [← hv] at hpins hkpuf hkboot
  rw [hvpins] at hpins
  rcases hkboot with ⟨hks, hkh⟩ | ⟨hks, hkh⟩
  · obtain ⟨hupins, hupuf, hustart, hulevel, huheld⟩ := State.started_spec hu
    rw [if_neg (by rw [hkh]; exact Bool.false_ne_true)] at hc
    obtain ⟨l, e, t, hrec⟩ := ({ u with cfg := c } : State).startRecord_spec
    rw [hrec] at hc
    exact runs_of_exec hc ⟨hupins.trans hpins, hupuf.trans hkpuf, .inl (hustart.trans hks), fun _ => ⟨⟨l, e, rfl⟩,
      fun hpuf => hulevel (hkpuf.trans hpuf), huheld⟩⟩
  · rw [if_pos hkh] at hc
    exact runs_of_exec hc ⟨hpins, hkpuf, .inr hkh, fun h => absurd (hks.symm.trans h) Bool.false_ne_true⟩

/-! Restart. -/

theorem State.darken_stands (s : State) (say : Bool) (cause : Err) : (s.darken say cause).aonNs = s.aonNs ∧
    (s.darken say cause).pwr.trip = s.pwr.trip ∧ (s.pwr.dark = false → (s.darken say cause).svc.hdIn = false) := by
  cases hd : s.pwr.dark with
  | true =>
    rw [darken, if_pos hd]
    exact ⟨rfl, rfl, nofun⟩
  | false =>
    have h := darkened hd say cause
    exact ⟨h.aonNs, by rw [h.pwr], fun _ => h.hostOut⟩

theorem State.powerPark_stands (s : State) : s.Stands s.powerPark := by
  obtain ⟨u, f, hu, hx⟩ := s.powerPark_spec
  rw [hx]
  exact hu.stands.trans ⟨rfl, rfl, rfl, rfl, rfl, rfl⟩

theorem runs_gooseRestart {s : State} {b : BootFinds} (hstart : s.boot.started = true) (hlaunch : s.anyLaunch = false) :
    Runs (.gooseRestart b) s fun t => t.aonNs = s.aonNs ∧ t.pwr.trip = s.pwr.trip ∧
      (b.fspiReq = false → t.boot = {} ∧ (s.pwr.dark = false → t.svc.hdIn = false)) ∧
      (b.fspiReq = true → t.sec.pufOk = b.pufOk ∧ (t.boot.started = true ∨ t.boot.romHold = true)) := by
  have hx : exec (.gooseRestart b) s = execGooseRestart b s := rfl
  unfold execGooseRestart at hx
  rw [if_neg (by rw [hstart, hlaunch]; decide)] at hx
  obtain ⟨haon, htrip, hhd⟩ := s.darken_stands false .internal
  extract_lets st d svc pwr pins e k off boot pwr' r u w cfg at hx
  have heaon : e.aonNs = s.aonNs := haon
  have hetrip : e.pwr.trip = s.pwr.trip := htrip
  have heboot : e.boot = {} := rfl
  have hehd : s.pwr.dark = false → e.svc.hdIn = false := hhd
  have hk : k = e.bootKeeper b := rfl
  have hheld : k.Stands (r.service r.svc .ok) := k.holdDies_spec.1
  have hdies : k.Stands u := k.startDies_stands b
  obtain ⟨c, hc⟩ : ∃ c, exec (.gooseRestart b) s = if (!b.fspiReq) = true then .next (e.service e.svc .internal)
    else if k.boot.romHold = true then .next (k.service k.svc .internal) else .next { w with cfg := c } := ⟨_, hx⟩
  have hw : k.Stands w := by
    clear_value u r k
    unfold w
    split
    · exact ⟨rfl, rfl, rfl, rfl, rfl, rfl⟩
    · split
      · exact hheld
      · split
        · exact hdies.trans u.powerPark_stands
        · exact hdies
  clear_value cfg w u r pwr' boot off k e pins pwr svc d
  cases hreq : b.fspiReq with
  | false =>
    rw [hreq, if_pos (by decide)] at hc
    have hserve := State.Moves.service (s := e) e.svc .internal
    refine runs_of_exec hc ⟨hserve.aonNs.trans heaon, ?_, fun _ => ⟨?_, fun hdark => ?_⟩, nofun⟩
    · rw [hserve.pwr]
      exact hetrip
    · rw [State.service_boot, heboot]
    · rw [State.svc_service]
      exact hehd hdark
  | true =>
    rw [hreq, if_neg (by decide)] at hc
    obtain ⟨-, hkaon, hktrip, hkpuf, hkboot⟩ := e.bootKeeper_spec b
    rw [← hk] at hkaon hktrip hkpuf hkboot
    rcases hkboot with ⟨hks, hkh⟩ | ⟨-, hkh⟩
    · rw [if_neg (by rw [hkh]; exact Bool.false_ne_true)] at hc
      exact runs_of_exec hc ⟨hw.aonNs.trans (hkaon.trans heaon), hw.trip.trans (hktrip.trans hetrip), nofun, fun _ =>
        ⟨hw.puf.trans hkpuf, .inl (hw.started.trans hks)⟩⟩
    · rw [if_pos hkh] at hc
      have hserve := (State.Moves.service (s := k) k.svc .internal).stands
      exact runs_of_exec hc ⟨hserve.aonNs.trans (hkaon.trans heaon), hserve.trip.trans (hktrip.trans hetrip), nofun, fun _ =>
        ⟨hserve.puf.trans hkpuf, .inr (hserve.romHold.trans hkh)⟩⟩

end Sys2Proof.Machine

namespace Sys2Proof.Machine

/-! Die resets (R36, R423, R454, R467). -/

theorem bit_setBit_same (x i : Nat) (b : Bool) : bit (setBit x i b) i = b := by
  cases b with
  | false => exact bit_setBit_false x i
  | true =>
    unfold setBit
    split
    case isTrue h => exact h
    case isFalse h =>
      rw [if_pos rfl]
      have hx : x / 2 ^ i % 2 = 0 := by
        unfold bit at h
        rw [Nat.shiftRight_eq_div_pow] at h
        have := decide_eq_false_iff_not.mp (Bool.not_eq_true _ ▸ h)
        omega
      unfold bit
      rw [Nat.shiftRight_eq_div_pow, Nat.add_div_right _ (Nat.two_pow_pos i)]
      exact decide_eq_true (by omega)

/-- Whether a die is in service is its bit (R34). -/
theorem State.dieIn_setDie {s t : State} {d : Nat} (hd : d < 24) {on : Bool} {l : Nat} (h : t.svc = { s.svc.setDie d on with level := l }) :
    t.dieIn d = on := by
  unfold dieIn
  rw [h]
  unfold Service.setDie
  by_cases h16 : d < 16
  · rw [if_pos h16, if_pos h16]
    exact bit_setBit_same ..
  · rw [if_neg h16, if_neg h16]
    by_cases hhub : d = 16
    · rw [if_pos hhub, if_pos hhub]
    · rw [if_neg hhub, if_neg hhub]
      by_cases hld : d < 23
      · rw [if_pos hld, if_pos hld]
        exact bit_setBit_same ..
      · rw [if_neg hld, if_neg hld, if_pos (by omega)]

theorem State.hbm_downCd (s : State) {n a : Nat} (ha : a / 2 ^ 37 = n) : Mem.read (s.downCd n).hbm a = Mem.unlisted := by
  unfold downCd
  generalize State.outputDown _ _ = u
  have hclear : (u.clearCd n).hbm = u.hbm.filter fun e => decide (e.1 / 2 ^ 37 ≠ n) := by
    unfold clearCd
    dsimp only
    rw [settle_hbm]
  rw [hclear, Mem.read, Tab.get, tab_find_filter u.hbm (fun i => decide (i / 2 ^ 37 ≠ n)) a,
    if_neg (by rw [decide_eq_true_iff]; exact not_not.mpr ha)]
  rfl

theorem runs_dieReset {s : State} {d : DieId} {byCtrl : Bool} (hd : d.val ≠ 24) (hreset : (s.dieU d).resetting = false)
    (hdark : s.pwr.dark = false) : Runs (.dieReset d byCtrl) s fun t =>
      (t.dieU d).resetting = true ∧ t.dieIn d = false ∧ (d.val < 16 → ∀ a, a / 2 ^ 37 = d.val → Mem.read t.hbm a = Mem.unlisted) := by
  have hx : exec (.dieReset d byCtrl) s = .next (s.resetDie d byCtrl) := by
    have hx : exec (.dieReset d byCtrl) s = execDieReset d byCtrl s := rfl
    rw [execDieReset, if_neg (by simp [hd, hreset, hdark])] at hx
    exact hx
  have hdown : d.val < 16 → ∀ a, a / 2 ^ 37 = d.val → Mem.read (s.dieDown d byCtrl).hbm a = Mem.unlisted := by
    intro hlt a ha
    unfold State.dieDown
    dsimp only
    rw [if_pos hlt]
    exact State.hbm_downCd _ ha
  unfold State.resetDie at hx
  dsimp only at hx
  generalize s.dieDown d byCtrl = u at hx hdown
  obtain ⟨v, hv⟩ : ∃ v : State, v = u.modDie d fun u => { u with resetting := true } := ⟨_, rfl⟩
  have hvu : (v.dieU d).resetting = true := by
    rw [hv, State.dieU_modDie, if_pos rfl]
  have hvhbm : v.hbm = u.hbm := by rw [hv]; rfl
  rw [← hv] at hx
  clear hv
  refine runs_of_exec hx ⟨?_, ?_, fun hlt a ha => ?_⟩
  · rw [State.dieU, State.raise_dies, State.service_dies]
    exact hvu
  · refine State.dieIn_setDie (s := v) (by omega) (l := v.levelOf (v.svc.setDie d false)) ?_
    rw [State.raise_svc, State.svc_service]
  · rw [State.raise_hbm, State.service_hbm, hvhbm]
    exact hdown hlt a ha

theorem State.dies_startHub (s : State) : s.startHub.dies = s.dies := by
  unfold startHub
  extract_lets l hub₀ hub m units u ups
  have hu : u.dies = s.dies := rfl
  clear_value ups u
  refine (foldl_keeps State.dies (fun t o => ?_) ups u).trans hu
  rfl

theorem State.dies_startCd (s : State) (n : Nat) : (s.startCd n).dies = s.dies := by
  have hsubs (u : State) (p : Nat) : (u.subsForColumns n p).dies = u.dies := by
    unfold subsForColumns
    dsimp only
    split <;> rfl
  unfold startCd
  extract_lets c c' u v w
  have hv : v.dies = s.dies := by
    unfold v
    split <;> rfl
  have hw : w.dies = s.dies := (foldl_keeps State.dies hsubs _ v).trans hv
  clear_value w
  split
  · exact hw
  · exact hw

theorem State.dies_startLd (s : State) (m : Nat) : (s.startLd m).dies = s.dies := by
  unfold startLd
  refine foldl_keeps State.dies (fun t i => ?_) _ s
  rfl

theorem State.dies_startHd (s : State) : s.startHd.dies = s.dies := by
  unfold startHd
  extract_lets l mbx xp u v svc w
  have hw : w.dies = s.dies := by
    have hv : v.dies = s.dies := by
      unfold v
      split <;> rfl
    exact hv
  clear_value w
  split
  · rw [raise_dies]
    exact hw
  · exact hw

theorem State.dies_dieUp (s : State) (d : Nat) : (s.dieUp d).dies = s.dies := by
  unfold dieUp
  split
  · exact s.dies_startCd d
  · split
    · exact s.dies_startHub
    · split
      · exact s.dies_startLd (d - 17)
      · exact s.dies_startHd

theorem State.confirm_only (s : State) : ∃ b f, s.confirm = { s with boot := b, flash := f } := by
  unfold confirm
  split
  · exact ⟨s.boot, s.flash, rfl⟩
  · exact ⟨_, _, rfl⟩

theorem runs_dieResetComplete {s : State} {d : DieId} (hd : d.val ≠ 24) (hreset : (s.dieU d).resetting = true) :
    Runs (.dieResetComplete d true) s fun t => (t.dieU d).resetting = false ∧ (t.dieU d).resets = (s.dieU d).resets + 1 ∧
      (t.dieU d).resetTime = s.now ∧ t.dieIn d = (decide (16 ≤ d.val) || t.cdFit d) := by
  have hx : exec (.dieResetComplete d true) s = execDieResetComplete d true s := rfl
  unfold execDieResetComplete at hx
  rw [if_neg (by rw [hreset]; decide)] at hx
  dsimp only at hx
  rw [if_pos rfl] at hx
  obtain ⟨u, hu⟩ : ∃ u : State, u =
      s.modDie d fun u => { u with resetting := false, resets := u.resets + 1, resetTime := s.now, failed := !true } :=
    ⟨_, rfl⟩
  have hunit : u.dieU d = { s.dieU d with resetting := false, resets := (s.dieU d).resets + 1, resetTime := s.now, failed := !true } := by
    rw [hu, State.dieU_modDie, if_pos rfl]
  rw [← hu] at hx
  clear hu
  have hdies := u.dies_dieUp d
  generalize u.dieUp d = v at hx hdies
  obtain ⟨on, hon⟩ : ∃ on, on = (decide (16 ≤ d.val) || v.cdFit d) := ⟨_, rfl⟩
  rw [← hon] at hx
  have hrdies : (v.service (v.svc.setDie d on) .ok).dies = v.dies := State.service_dies ..
  have hrcds : (v.service (v.svc.setDie d on) .ok).cds = v.cds := State.service_cds ..
  have hrsvc := v.svc_service (v.svc.setDie d on) .ok
  generalize v.service (v.svc.setDie d on) .ok = r at hx hrdies hrcds hrsvc
  obtain ⟨b, f, hconfirm⟩ := r.confirm_only
  rw [hconfirm] at hx
  have ht : ({ r with boot := b, flash := f } : State).dieU d = u.dieU d := by
    rw [State.dieU, hrdies, hdies, State.dieU]
  have hfit : ({ r with boot := b, flash := f } : State).cdFit d = v.cdFit d :=
    congrArg (fun c : ComputeDie => decide (0 < c.map.count)) (State.cd_of_cds hrcds d)
  refine runs_of_exec hx ?_
  rw [ht, hunit, hfit, ← hon]
  exact ⟨rfl, rfl, rfl, State.dieIn_setDie (s := v) (by omega) hrsvc⟩

theorem runs_dieResetComplete_failed {s : State} {d : DieId} (hreset : (s.dieU d).resetting = true) :
    Runs (.dieResetComplete d false) s fun t => (t.dieU d).resetting = false ∧ (t.dieU d).resets = (s.dieU d).resets + 1 ∧
      (t.dieU d).failed = true ∧ t.svc = s.svc := by
  have hx : exec (.dieResetComplete d false) s = execDieResetComplete d false s := rfl
  unfold execDieResetComplete at hx
  rw [if_neg (by rw [hreset]; decide)] at hx
  dsimp only at hx
  rw [if_neg Bool.false_ne_true] at hx
  refine runs_of_exec hx ?_
  rw [State.dieU, State.raise_dies, State.raise_svc, ← State.dieU, State.dieU_modDie, if_pos rfl]
  exact ⟨rfl, rfl, rfl, rfl⟩

end Sys2Proof.Machine

namespace Sys2Proof.Machine

/-! Commits of the configuration (R471, R473, R474, R480). -/

theorem State.writeSlot_only (s : State) (base size magic seq res : Nat) (recs : List CfgRec) (ok : Bool) :
    ∃ f, s.writeSlot base size magic seq res recs ok = { s with flash := f } := by
  have hprog (u : State) (a : Nat) (bs : List Byte) : ∃ f, u.flashProg a bs = { u with flash := f } := ⟨_, rfl⟩
  obtain ⟨f, hf⟩ : ∃ f, s.flashErase base size = { s with flash := f } := ⟨_, rfl⟩
  unfold writeSlot
  dsimp only
  rw [hf]
  obtain ⟨g, hg⟩ := hprog { s with flash := f } (base + 0x1000) (recs.flatMap CfgRec.bytes)
  rw [hg]
  exact hprog _ _ _

/-- What the copy of the repair records leaves (R474). -/
structure State.SameStore (s t : State) : Prop where
  queue : t.cfg.queue = s.cfg.queue
  seq : t.cfg.seq = s.cfg.seq
  commits : t.cfg.commits = s.cfg.commits
  inUse : t.cfg.inUse = s.cfg.inUse
  recs : t.cfg.recs = s.cfg.recs
  out : t.out = s.out
  ft : t.ft = s.ft

theorem State.SameStore.of_cfg {s t : State} (hcfg : t.cfg = s.cfg) (hout : t.out = s.out) (hft : t.ft = s.ft) : s.SameStore t :=
  ⟨by rw [hcfg], by rw [hcfg], by rw [hcfg], by rw [hcfg], by rw [hcfg], hout, hft⟩

theorem State.SameStore.trans {s t u : State} (h : s.SameStore t) (h' : t.SameStore u) : s.SameStore u :=
  ⟨h'.queue.trans h.queue, h'.seq.trans h.seq, h'.commits.trans h.commits, h'.inUse.trans h.inUse, h'.recs.trans h.recs,
    h'.out.trans h.out, h'.ft.trans h.ft⟩

theorem State.sameStore_writeRepair (s : State) (ok : Bool) : s.SameStore (s.writeRepair ok) := by
  unfold writeRepair
  extract_lets i u
  obtain ⟨f, hf⟩ : ∃ f, u = { s with flash := f } := s.writeSlot_only ..
  have hu : s.SameStore u := by
    rw [hf]
    exact SameStore.of_cfg rfl rfl rfl
  clear_value u
  split
  · exact ⟨hu.queue, hu.seq, hu.commits, hu.inUse, hu.recs, hu.out, hu.ft⟩
  · exact hu.trans (SameStore.of_cfg (raise_cfg ..) (raise_out ..) (raise_ft ..))

/-- A commit that is read back (R473). -/
theorem State.commitStore_ok {s : State} (hpuf : s.sec.pufOk = true) (recs : List CfgRec) (repairOk : Bool) :
    ∃ t, s.commitStore recs true repairOk = (t, true) ∧ t.cfg.queue = s.cfg.queue ∧ t.cfg.seq = s.cfg.seq + 1 ∧
      t.cfg.commits = s.cfg.commits + 1 ∧ t.cfg.inUse = s.cfg.target ∧ t.cfg.recs = recs.foldl recPut s.cfg.recs ∧ t.out = s.out ∧
      t.ft = s.ft := by
  unfold commitStore
  extract_lets all seq i good u mark c v w x
  have hgood : good = true := by
    unfold good
    rw [hpuf]
    rfl
  obtain ⟨f, hf⟩ : ∃ f, u = { s with flash := f } := s.writeSlot_only ..
  have hx : v.SameStore x := by
    have hw : v.SameStore w := SameStore.of_cfg rfl rfl rfl
    unfold x
    split
    · exact hw.trans (w.sameStore_writeRepair _)
    · exact hw
  have hv : v.cfg.queue = s.cfg.queue ∧ v.cfg.seq = s.cfg.seq + 1 ∧ v.cfg.commits = s.cfg.commits + 1 ∧ v.cfg.inUse = s.cfg.target ∧
      v.cfg.recs = recs.foldl recPut s.cfg.recs ∧ v.out = s.out ∧ v.ft = s.ft := by
    have hqueue : (mark u.cfg true).queue = u.cfg.queue := by
      unfold mark
      split <;> rfl
    refine ⟨?_, rfl, ?_, rfl, rfl, ?_, ?_⟩
    · exact hqueue.trans (by rw [hf])
    · change u.cfg.commits + 1 = _
      rw [hf]
    · exact (by rw [hf] : u.out = s.out)
    · exact (by rw [hf] : u.ft = s.ft)
  clear_value v x
  rw [hgood]
  obtain ⟨h1, h2, h3, h4, h5, h6, h7⟩ := hv
  exact ⟨x, rfl, hx.queue.trans h1, hx.seq.trans h2, hx.commits.trans h3, hx.inUse.trans h4, hx.recs.trans h5, hx.out.trans h6, hx.ft.trans h7⟩

/-- A commit whose read-back fails (R473). -/
theorem State.commitStore_failed (s : State) (recs : List CfgRec) (repairOk : Bool) : ∃ f c,
    s.commitStore recs false repairOk = ({ s with flash := f, cfg := c }, false) ∧ c.queue = s.cfg.queue ∧ c.seq = s.cfg.seq ∧
      c.recs = s.cfg.recs ∧ c.inUse = s.cfg.inUse := by
  unfold commitStore
  extract_lets all seq i good u mark c v w x
  have hgood : good = false := rfl
  obtain ⟨f, hf⟩ : ∃ f, u = { s with flash := f } := s.writeSlot_only ..
  have hmark (k : Cfg) : (mark k false).queue = k.queue ∧ (mark k false).seq = k.seq ∧ (mark k false).recs = k.recs ∧
      (mark k false).inUse = k.inUse := by
    unfold mark
    split <;> exact ⟨rfl, rfl, rfl, rfl⟩
  clear_value x mark
  rw [hgood, hf]
  exact ⟨f, mark s.cfg false, rfl, hmark s.cfg⟩

/-! What a commit's records do, and its reply. -/

theorem State.sameStore_recEffect (s : State) (r : CfgRec) : s.SameStore (s.recEffect r) := by
  have hboxes (u : State) (l : List Nat) : u.SameStore (l.foldl (fun s m => s.modBox r.index m fun b => { b with e := 0 }) u) := by
    refine SameStore.of_cfg ?_ ?_ ?_
    · exact foldl_keeps State.cfg (fun t m => modBox_cfg ..) l u
    · exact foldl_keeps State.out (fun t m => modBox_out ..) l u
    · exact foldl_keeps State.ft (fun t m => modBox_ft ..) l u
  unfold recEffect
  split
  · exact SameStore.of_cfg rfl rfl rfl
  · extract_lets e mbx u
    have hu : s.SameStore u := SameStore.of_cfg rfl rfl rfl
    clear_value u
    split
    · exact hu.trans (hboxes u _)
    · exact hu
  · exact SameStore.of_cfg rfl rfl rfl
  · exact SameStore.of_cfg rfl rfl rfl
  · exact SameStore.of_cfg rfl rfl rfl

theorem State.sameStore_recEffects (recs : List CfgRec) : ∀ s : State, s.SameStore (recs.foldl State.recEffect s) :=
  State.foldl_only (fun s => SameStore.of_cfg rfl rfl rfl) (fun _ _ _ => SameStore.trans) sameStore_recEffect recs

theorem State.failXfers_other (s : State) (c : Nat) : (s.failXfers c).cfg = s.cfg ∧ (s.failXfers c).sec = s.sec := by
  have h (l : List Nat) : (fun t : State => (t.cfg, t.sec)) (l.foldl (fun s i =>
      let x := 32 * c + i
      if (s.xfer x).st = 1 then s.modXfer x fun f => { f with st := 3, code := .aborted, ended := s.now, doneDue := true } else s) s) =
        (s.cfg, s.sec) := by
    refine foldl_keeps (fun t : State => (t.cfg, t.sec)) (fun t i => ?_) l s
    dsimp only
    split <;> rfl
  unfold failXfers
  simpa only [Prod.mk.injEq] using h (List.range 32)

/-- From `s` to `t` sessions end, and nothing that a commit writes changes (R397, R480). -/
structure State.Closes (s t : State) : Prop where
  cfg : t.cfg = s.cfg
  out : t.out = s.out
  enrol : t.mbx.enrol = s.mbx.enrol
  sec : t.sec = { s.sec with claimSession := t.sec.claimSession }
  sess : ∀ c, (s.sess c).st = 0 → (t.sess c).st = 0

namespace State.Closes

variable {s t u : State}

theorem refl (s : State) : s.Closes s := ⟨rfl, rfl, rfl, rfl, fun _ h => h⟩

theorem trans (h : s.Closes t) (h' : t.Closes u) : s.Closes u :=
  ⟨h'.cfg.trans h.cfg, h'.out.trans h.out, h'.enrol.trans h.enrol, by rw [h'.sec, h.sec], fun c hc => h'.sess c (h.sess c hc)⟩

theorem service (v : Service) (cause : Err) : s.Closes (s.service v cause) :=
  ⟨service_cfg .., service_out .., by rw [service_mbx], by rw [service_sec], fun c hc => by rw [State.sess, service_xp]; exact hc⟩

theorem endSession (c : Nat) : s.Closes (s.endSession c 0) := by
  obtain ⟨hout, hother⟩ := s.endSession_keeps c 0
  obtain ⟨hst, -, -⟩ := s.endSession_spec c 0
  obtain ⟨hcfg, hmbx, hsec⟩ : (s.endSession c 0).cfg = s.cfg ∧ (s.endSession c 0).mbx = s.mbx ∧
      (s.endSession c 0).sec = { s.sec with claimSession := (s.endSession c 0).sec.claimSession } := by
    obtain ⟨-, -, hmbx, -⟩ := s.failXfers_keeps c
    obtain ⟨hcfg, hsec⟩ := s.failXfers_other c
    unfold State.endSession
    dsimp only
    generalize s.failXfers c = u at hmbx hcfg hsec ⊢
    rw [modSess_sec]
    refine ⟨hcfg, hmbx, ?_⟩
    split
    · rw [hsec]
    · rw [hsec]
  refine ⟨hcfg, hout, by rw [hmbx], hsec, fun k hk => ?_⟩
  · by_cases h : k = c
    · rw [h, hst]
    · rw [hother k h]
      exact hk

end State.Closes

theorem State.closes_replacedSessions (s : State) (recs : List CfgRec) : s.Closes (s.replacedSessions recs) ∧
    ∀ r ∈ recs, r.type = 4 → ((s.replacedSessions recs).sess r.index).st = 0 := by
  have hall (l : List CfgRec) : ∀ s : State, s.Closes (l.foldl (fun s r => s.endSession r.index 0) s) ∧
      ∀ r ∈ l, ((l.foldl (fun s r => s.endSession r.index 0) s).sess r.index).st = 0 := by
    induction l with
    | nil => exact fun s => ⟨Closes.refl s, nofun⟩
    | cons r l ih =>
      intro s
      obtain ⟨hcloses, hended⟩ := ih (s.endSession r.index 0)
      have hfirst : s.Closes (s.endSession r.index 0) := Closes.endSession r.index
      simp only [List.foldl_cons]
      refine ⟨hfirst.trans hcloses, fun q hq => ?_⟩
      rcases List.mem_cons.mp hq with rfl | hq
      · exact hcloses.sess _ (s.endSession_spec q.index 0).1
      · exact hended q hq
  obtain ⟨hcloses, hended⟩ := hall (recs.filter fun r => r.type == 4) s
  exact ⟨hcloses, fun r hr htype => hended r (List.mem_filter.mpr ⟨hr, by rw [htype]; rfl⟩)⟩

/-- What follows the reply of a commit (R397, R480). -/
def State.afterCommit (s : State) (c : Commit) : State :=
  let s := s.replacedSessions c.recs
  let s := match c.src with
    | some src => if c.closes then s.endSession src.ctrl 0 else s
    | none => s
  if s.svc.flashIn then s else s.service { s.svc with flashIn := true } .ok

theorem State.closes_afterCommit (s : State) (c : Commit) : s.Closes (s.afterCommit c) ∧
    (∀ r ∈ c.recs, r.type = 4 → ((s.afterCommit c).sess r.index).st = 0) ∧
    ∀ src, c.src = some src → c.closes = true → ((s.afterCommit c).sess src.ctrl).st = 0 := by
  obtain ⟨hrep, hended⟩ := s.closes_replacedSessions c.recs
  unfold afterCommit
  extract_lets u v
  have huv : u.Closes v ∧ ∀ src, c.src = some src → c.closes = true → (v.sess src.ctrl).st = 0 := by
    unfold v
    cases hsrc : c.src with
    | none => exact ⟨Closes.refl u, nofun⟩
    | some src =>
      dsimp only
      cases hcl : c.closes with
      | false => exact ⟨Closes.refl u, nofun⟩
      | true =>
        refine ⟨Closes.endSession _, fun r hr _ => ?_⟩
        cases hr
        exact (u.endSession_spec src.ctrl 0).1
  obtain ⟨hv, hvend⟩ := huv
  have hfinal : v.Closes (if v.svc.flashIn = true then v else v.service { v.svc with flashIn := true } .ok) := by
    split
    · exact Closes.refl v
    · exact Closes.service ..
  clear_value v
  exact ⟨hrep.trans (hv.trans hfinal), fun r hr htype => hfinal.sess _ (hv.sess _ (hended r hr htype)),
    fun src hsrc hcl => hfinal.sess _ (hvend src hsrc hcl)⟩

theorem State.enrol_reply (s : State) (src : Src) (cmd : Nat) (e : Err) (payload : List Byte) :
    (s.reply src cmd e payload).mbx.enrol = s.mbx.enrol := by
  unfold reply post
  dsimp only
  split
  · rfl
  · rw [queueSeg_mbx]
    rfl

end Sys2Proof.Machine

namespace Sys2Proof.Machine

/-! A queued commit runs (R471, R473). -/

/-- CFG_COMMIT takes its staged records (R471). -/
def State.dropStaged (s : State) (c : Commit) : State :=
  match c.src with
  | some src => if c.command = 0x0203 then { s with cfg := { s.cfg with staged := Tab.del s.cfg.staged src.ctrl } } else s
  | none => s

theorem State.dropStaged_only (s : State) (c : Commit) : ∃ l, s.dropStaged c = { s with cfg := { s.cfg with staged := l } } := by
  unfold dropStaged
  split
  · split
    · exact ⟨_, rfl⟩
    · exact ⟨s.cfg.staged, rfl⟩
  · exact ⟨s.cfg.staged, rfl⟩

theorem State.sameStore_dropStaged (s : State) (c : Commit) : s.SameStore (s.dropStaged c) := by
  obtain ⟨l, hl⟩ := s.dropStaged_only c
  rw [hl]
  exact ⟨rfl, rfl, rfl, rfl, rfl, rfl, rfl⟩

theorem State.out_commitReply {s : State} {c : Commit} {src : Src} (hsrc : c.src = some src) (e : Err) (payload : List Byte) :
    (s.commitReply c e payload).out = Machine.answer s src c.command e (if e = .ok then payload else []) :: s.out := by
  unfold commitReply
  rw [hsrc]
  exact out_reply_answer ..

theorem State.commitReply_keeps (s : State) (c : Commit) (e : Err) (payload : List Byte) : (s.commitReply c e payload).cfg = s.cfg ∧
    (s.commitReply c e payload).sec = s.sec ∧ (s.commitReply c e payload).flash = s.flash ∧
    (s.commitReply c e payload).mbx.enrol = s.mbx.enrol := by
  unfold commitReply
  split
  · exact ⟨reply_cfg .., reply_sec .., reply_flash .., enrol_reply ..⟩
  · exact ⟨rfl, rfl, rfl, rfl⟩

/-- A commit that another one came before (R471). -/
theorem State.runCommit_outdated {s : State} {c : Commit} {n : Nat} (hn : c.expected = some n) (hne : n ≠ s.cfg.seq) (ok repairOk : Bool) :
    s.runCommit c ok repairOk = s.commitReply c .cfgSeq [] := by
  unfold runCommit
  rw [hn]
  exact if_pos hne

theorem Commit.expects {c : Commit} {n : Nat} (h : c.expected = none ∨ c.expected = some n) : ¬ (c.expected.getD n) ≠ n := by
  rcases h with h | h
  · rw [h]
    exact fun hne => hne rfl
  · rw [h]
    exact fun hne => hne rfl

theorem State.runCommit_failed {s u : State} {c : Commit} (hexp : c.expected = none ∨ c.expected = some s.cfg.seq) {ok repairOk : Bool}
    (hstore : s.commitStore c.recs ok repairOk = (u, false)) : s.runCommit c ok repairOk = u.commitReply c .internal [] := by
  unfold runCommit
  rw [if_neg (Commit.expects hexp), hstore]
  exact if_neg Bool.false_ne_true

theorem State.runCommit_stored {s u : State} {c : Commit} (hexp : c.expected = none ∨ c.expected = some s.cfg.seq) {ok repairOk : Bool}
    (hstore : s.commitStore c.recs ok repairOk = (u, true)) :
    let v := (c.recs.foldl State.recEffect u).dropStaged c
    s.runCommit c ok repairOk = (v.commitReply c .ok (if c.command = 0x0203 then leBytes 8 v.cfg.seq else c.reply)).afterCommit c := by
  unfold runCommit
  rw [if_neg (Commit.expects hexp), hstore]
  dsimp only
  rw [if_pos rfl]
  rfl

/-- What the record of an enrolment sets (R397). -/
theorem State.enrol_recEffect (s : State) (i : Nat) (data : List Byte) :
    (s.recEffect { type := 4, index := i, data := data }).enrol i = Enrol.ofBytes data := by
  have hboxes (l : List Nat) (u : State) : (l.foldl (fun s m => s.modBox i m fun b => { b with e := 0 }) u).mbx.enrol = u.mbx.enrol := by
    refine foldl_keeps (fun t : State => t.mbx.enrol) (fun t m => ?_) l u
    rfl
  have hset : Tab.get {} (Tab.set {} s.mbx.enrol i (Enrol.ofBytes data)) i = Enrol.ofBytes data := by rw [tab_get_set, if_pos rfl]
  simp only [recEffect]
  split
  · rw [enrol, hboxes]
    exact hset
  · exact hset

/-- What the record of an owner sets (R480). -/
theorem State.sec_recEffect_owner (s : State) (data : List Byte) :
    let u := (s.recEffect { type := 5, index := 0, data := data }).sec
    u.owned = true ∧ u.ownerKey = data.take 388 ∧ u.ownerCount = fld data 388 8 ∧ u.claimOpen = false :=
  ⟨rfl, rfl, rfl, rfl⟩

section

variable {s : State} {k : Commit} {rest : List Commit} (hqueue : s.cfg.queue = k :: rest)
include hqueue

theorem exec_configCommitRun (ok repairOk : Bool) :
    exec (.configCommitRun ok repairOk) s = .next ({ s with cfg := { s.cfg with queue := rest } }.runCommit k ok repairOk) := by
  have hx : exec (.configCommitRun ok repairOk) s = execConfigCommitRun ok repairOk s := rfl
  unfold execConfigCommitRun at hx
  rw [hqueue] at hx
  exact hx

theorem runs_configCommitRun_outdated {n : Nat} (hn : k.expected = some n) (hne : n ≠ s.cfg.seq) (ok repairOk : Bool) :
    Runs (.configCommitRun ok repairOk) s fun t => t.cfg = { s.cfg with queue := rest } ∧
      t.flash = s.flash ∧ t.sec = s.sec ∧ ∀ src, k.src = some src → t.out = answer s src k.command .cfgSeq [] :: s.out := by
  refine runs_of_exec (exec_configCommitRun hqueue ok repairOk) ?_
  rw [State.runCommit_outdated (s := { s with cfg := { s.cfg with queue := rest } }) hn hne]
  obtain ⟨hcfg, hsec, hflash, -⟩ := State.commitReply_keeps { s with cfg := { s.cfg with queue := rest } } k .cfgSeq []
  exact ⟨hcfg, hflash, hsec, fun src hsrc => State.out_commitReply hsrc ..⟩

theorem runs_configCommitRun_failed (hexp : k.expected = none ∨ k.expected = some s.cfg.seq) (repairOk : Bool) :
    Runs (.configCommitRun false repairOk) s fun t =>
      t.cfg.queue = rest ∧ t.cfg.seq = s.cfg.seq ∧ t.cfg.recs = s.cfg.recs ∧ t.cfg.inUse = s.cfg.inUse ∧ t.sec = s.sec ∧
      ∀ src, k.src = some src → t.out = answer s src k.command .internal [] :: s.out := by
  refine runs_of_exec (exec_configCommitRun hqueue false repairOk) ?_
  obtain ⟨f, c, hstore, hq, hseq, hrecs, huse⟩ := State.commitStore_failed { s with cfg := { s.cfg with queue := rest } } k.recs repairOk
  rw [State.runCommit_failed (s := { s with cfg := { s.cfg with queue := rest } }) hexp hstore]
  obtain ⟨hcfg, hsec, -, -⟩ := State.commitReply_keeps { s with cfg := c, flash := f } k .internal []
  exact ⟨(congrArg Cfg.queue hcfg).trans hq, (congrArg Cfg.seq hcfg).trans hseq, (congrArg Cfg.recs hcfg).trans hrecs,
    (congrArg Cfg.inUse hcfg).trans huse, hsec, fun src hsrc => State.out_commitReply hsrc ..⟩

theorem runs_configCommitRun_stored (hpuf : s.sec.pufOk = true) (hexp : k.expected = none ∨ k.expected = some s.cfg.seq) (repairOk : Bool) :
    Runs (.configCommitRun true repairOk) s fun t =>
      t.cfg.queue = rest ∧ t.cfg.seq = s.cfg.seq + 1 ∧ t.cfg.commits = s.cfg.commits + 1 ∧ t.cfg.inUse = s.cfg.target ∧
      t.cfg.recs = k.recs.foldl recPut s.cfg.recs ∧
      (∀ src, k.src = some src → Replied s t src k.command (if k.command = 0x0203 then leBytes 8 (s.cfg.seq + 1) else k.reply)) ∧
      (∀ src, k.src = some src → k.closes = true → (t.sess src.ctrl).st = 0) ∧
      (∀ i data, k.recs = [{ type := 4, index := i, data := data }] → t.enrol i = Enrol.ofBytes data ∧ (t.sess i).st = 0) ∧
      (∀ data, k.recs = [{ type := 5, index := 0, data := data }] → t.sec.owned = true ∧ t.sec.ownerKey = data.take 388 ∧
        t.sec.ownerCount = fld data 388 8 ∧ t.sec.claimOpen = false) := by
  refine runs_of_exec (exec_configCommitRun hqueue true repairOk) ?_
  obtain ⟨u, hstore, hq, hseq, hcommits, huse, hrecs, hout, hft⟩ :=
    State.commitStore_ok (s := { s with cfg := { s.cfg with queue := rest } }) hpuf k.recs repairOk
  rw [State.runCommit_stored (s := { s with cfg := { s.cfg with queue := rest } }) hexp hstore]
  obtain ⟨v, hv⟩ : ∃ v, v = (k.recs.foldl State.recEffect u).dropStaged k := ⟨_, rfl⟩
  have hsame : u.SameStore v := by
    rw [hv]
    exact (u.sameStore_recEffects k.recs).trans (State.sameStore_dropStaged _ k)
  have henrol (i : Nat) (data : List Byte) (hk : k.recs = [{ type := 4, index := i, data := data }]) : v.enrol i = Enrol.ofBytes data := by
    obtain ⟨l, hl⟩ := (k.recs.foldl State.recEffect u).dropStaged_only k
    rw [hv, hl, hk]
    exact u.enrol_recEffect i data
  have howner (data : List Byte) (hk : k.recs = [{ type := 5, index := 0, data := data }]) : v.sec.owned = true ∧
      v.sec.ownerKey = data.take 388 ∧ v.sec.ownerCount = fld data 388 8 ∧ v.sec.claimOpen = false := by
    obtain ⟨l, hl⟩ := (k.recs.foldl State.recEffect u).dropStaged_only k
    rw [hv, hl, hk]
    exact u.sec_recEffect_owner data
  rw [← hv]
  clear hv
  have hvseq : v.cfg.seq = s.cfg.seq + 1 := hsame.seq.trans hseq
  rw [hvseq]
  obtain ⟨w, hw⟩ : ∃ w, w = v.commitReply k .ok (if k.command = 0x0203 then leBytes 8 (s.cfg.seq + 1) else k.reply) := ⟨_, rfl⟩
  obtain ⟨hwcfg, hwsec, -, hwenrol⟩ : w.cfg = v.cfg ∧ w.sec = v.sec ∧ w.flash = v.flash ∧ w.mbx.enrol = v.mbx.enrol := by
    rw [hw]
    exact v.commitReply_keeps ..
  have hwout (src : Src) (hsrc : k.src = some src) :
      Replied s w src k.command (if k.command = 0x0203 then leBytes 8 (s.cfg.seq + 1) else k.reply) := by
    have hnow : v.now = s.now := State.now_of_ft (hsame.ft.trans hft)
    rw [Replied, hw, State.out_commitReply hsrc, answer_of_now hnow, if_pos rfl, hsame.out, hout]
  rw [← hw]
  clear hw
  obtain ⟨hcloses, hrepl, hsrcend⟩ := w.closes_afterCommit k
  generalize w.afterCommit k = t at hcloses hrepl hsrcend
  have htcfg : t.cfg = v.cfg := hcloses.cfg.trans hwcfg
  have htsec (p : Sec → Prop) (hp : ∀ x c, p { x with claimSession := c } ↔ p x) : p v.sec → p t.sec := by
    intro h
    rw [hcloses.sec, hwsec, hp]
    exact h
  refine ⟨?_, ?_, ?_, ?_, ?_, fun src hsrc => ?_, hsrcend, fun i data hk => ⟨?_, ?_⟩, fun data hk => ?_⟩
  · rw [htcfg, hsame.queue, hq]
  · rw [htcfg, hvseq]
  · rw [htcfg, hsame.commits, hcommits]
  · rw [htcfg, hsame.inUse, huse]
    rfl
  · rw [htcfg, hsame.recs, hrecs]
  · rw [Replied, hcloses.out]
    exact hwout src hsrc
  · rw [State.enrol, hcloses.enrol, hwenrol]
    exact henrol i data hk
  · exact hrepl { type := 4, index := i, data := data } (by rw [hk]; exact List.mem_singleton.mpr rfl) rfl
  · exact htsec (fun x => x.owned = true ∧ x.ownerKey = data.take 388 ∧ x.ownerCount = fld data 388 8 ∧ x.claimOpen = false)
      (fun x c => Iff.rfl) (howner data hk)

end

/-- The claim window closes after 30 minutes (R479). -/
theorem exec_claimWindowClose {s : State} (h : 1800000000000 ≤ s.aonNs) :
    exec .claimWindowClose s = .next { s with sec := { s.sec with claimOpen := false } } := by
  have hx : exec .claimWindowClose s = execClaimWindowClose s := rfl
  rw [hx, execClaimWindowClose, if_pos h]

/-! The configuration commands (R471, R472). -/

section

variable {s : State} {src : Src}

theorem runs_cfgRead_inForce {type : Nat} (hport : s.portAdmits src 0x0201 = true) (htype : recTypes.contains type = true)
    (hvalid : s.cfg.valid0 = true ∨ s.cfg.valid1 = true) (first : Nat) : Runs (.cfgRead src 0 type first) s fun t => OnlyReply s t ∧
      Replied s t src 0x0201 (leBytes 8 s.cfg.seq ++ takeRecs 4000 (s.cfg.recs.filter fun r => decide (r.type = type ∧ first ≤ r.index))) := by
  have hx : exec (.cfgRead src 0 type first) s = execCfgRead src 0 type first s := rfl
  unfold execCfgRead at hx
  dsimp only at hx
  rw [State.command_runs hport rfl rfl] at hx
  · exact runs_of_exec hx ⟨OnlyReply.of_reply .., Replied.of_reply rfl rfl ..⟩
  · refine firstErr_none fun c hc => ?_
    simp only [List.mem_cons, List.not_mem_nil, or_false] at hc
    rcases hc with rfl | rfl | rfl
    · rfl
    · rw [htype]
      rfl
    · rcases hvalid with h | h <;> simp [h]

theorem runs_cfgRead_staged {type : Nat} (hport : s.portAdmits src 0x0201 = true) (htype : recTypes.contains type = true) (first : Nat) :
    Runs (.cfgRead src 3 type first) s fun t => OnlyReply s t ∧ Replied s t src 0x0201
      (leBytes 8 s.cfg.seq ++ takeRecs 4000 ((s.staged src.ctrl).filter fun r => decide (r.type = type ∧ first ≤ r.index))) := by
  have hx : exec (.cfgRead src 3 type first) s = execCfgRead src 3 type first s := rfl
  unfold execCfgRead at hx
  dsimp only at hx
  rw [State.command_runs hport rfl rfl] at hx
  · exact runs_of_exec hx ⟨OnlyReply.of_reply .., Replied.of_reply rfl rfl ..⟩
  · refine firstErr_none fun c hc => ?_
    simp only [List.mem_cons, List.not_mem_nil, or_false] at hc
    rcases hc with rfl | rfl | rfl
    · rfl
    · rw [htype]
      rfl
    · rfl

theorem runs_cfgSet {type index n : Nat} {data : List Byte} (ha : Admin s src 0x0202) (hlen : setLen type = some (data.length, n))
    (hgood : setBad type data = false) (hindex : index < n)
    (hsize : ((recPut (s.staged src.ctrl) { type := type, index := index, data := data }).flatMap CfgRec.bytes).length ≤ 65536) :
    let new := recPut (s.staged src.ctrl) { type := type, index := index, data := data }
    Runs (.cfgSet src type index data data.length) s fun t =>
      Replied s t src 0x0202 (leBytes 4 (new.flatMap CfgRec.bytes).length) ∧ t.staged src.ctrl = new ∧ t.cfg.recs = s.cfg.recs ∧
      ∀ c, c ≠ src.ctrl.val → t.staged c = s.staged c := by
  have hx : exec (.cfgSet src type index data data.length) s = execCfgSet src type index data data.length s := rfl
  unfold execCfgSet at hx
  rw [hlen] at hx
  dsimp only [Option.getD_some] at hx
  generalize recPut (s.staged src.ctrl) { type := type, index := index, data := data } = new at hx hsize ⊢
  rw [State.command_runs ha.port ha.admin rfl] at hx
  · have hstaged (c : Nat) : State.staged (State.reply { s with cfg := { s.cfg with staged := Tab.put s.cfg.staged src.ctrl new } } src 0x0202 .ok
        (leBytes 4 (new.flatMap CfgRec.bytes).length)) c = if c = src.ctrl.val then new else s.staged c := by
      rw [State.staged, State.reply_cfg, tab_get_put, State.staged]
    refine runs_of_exec hx ⟨Replied.of_reply ?_ ?_ .., ?_, ?_, fun c hc => ?_⟩
    · rfl
    · rfl
    · rw [hstaged, if_pos rfl]
    · rw [State.reply_cfg]
    · rw [hstaged, if_neg hc]
  · refine firstErr_none fun c hc => ?_
    simp only [List.mem_cons, List.not_mem_nil, or_false] at hc
    rcases hc with rfl | rfl | rfl | rfl
    · rfl
    · simp [hgood]
    · exact decide_eq_false (by omega)
    · exact decide_eq_false (by omega)

theorem exec_cfgCommit (ha : Admin s src 0x0203) (hstaged : s.staged src.ctrl ≠ []) (expected : Nat) :
    exec (.cfgCommit src expected) s = .next (s.queueCommit
      { src := some src, command := 0x0203, expected := if expected = 2 ^ 64 - 1 then none else some expected,
        recs := s.staged src.ctrl }) := by
  have hx : exec (.cfgCommit src expected) s = execCfgCommit src expected s := rfl
  unfold execCfgCommit at hx
  rw [State.command_runs ha.port ha.admin rfl] at hx
  · exact hx
  · refine firstErr_none fun c hc => ?_
    rw [List.mem_singleton.mp hc]
    exact decide_eq_false hstaged

theorem runs_cfgDiscard (ha : Admin s src 0x0204) (hstaged : s.staged src.ctrl ≠ []) : Runs (.cfgDiscard src) s fun t =>
    Replied s t src 0x0204 [] ∧ t.staged src.ctrl = [] ∧ t.cfg.recs = s.cfg.recs := by
  have hx : exec (.cfgDiscard src) s = execCfgDiscard src s := rfl
  unfold execCfgDiscard at hx
  rw [State.command_runs ha.port ha.admin rfl] at hx
  · refine runs_of_exec hx ⟨Replied.of_reply ?_ ?_ .., ?_, ?_⟩
    · rfl
    · rfl
    · rw [State.staged, State.reply_cfg]
      exact tab_get_del_same ..
    · rw [State.reply_cfg]
  · refine firstErr_none fun c hc => ?_
    rw [List.mem_singleton.mp hc]
    exact decide_eq_false hstaged

theorem runs_cfgStatus (hport : s.portAdmits src 0x0205 = true) : Runs (.cfgStatus src) s fun t => OnlyReply s t ∧
    Replied s t src 0x0205 ((List.range 5).flatMap fun i => leBytes 8 (s.cfgReg i)) := by
  have hx : exec (.cfgStatus src) s = execCfgStatus src s := rfl
  unfold execCfgStatus at hx
  rw [State.command_runs hport rfl rfl rfl] at hx
  exact runs_of_exec hx ⟨OnlyReply.of_reply .., Replied.of_reply rfl rfl ..⟩

end

/-- Settles O55: power-on and the restart through the boot, the resets by their die, the commits through their store and their replies. -/
theorem theDeviceBootsAndCommits : Obligations.TheDeviceBootsAndCommits := by
  unfold Obligations.TheDeviceBootsAndCommits
  intro s
  refine ⟨fun b hstart hhold hreq => ⟨exec_powerOn_held hstart hhold hreq, runs_powerOn hstart hhold hreq⟩,
    fun b => runs_gooseRestart, fun d byCtrl => runs_dieReset,
    fun d hd hreset => ⟨runs_dieResetComplete hd hreset, runs_dieResetComplete_failed hreset⟩,
    fun k rest ok repairOk hqueue hpuf => ⟨?_, ?_, ?_⟩, exec_claimWindowClose, fun src => ⟨?_, ?_, ?_, runs_cfgDiscard, runs_cfgStatus⟩⟩
  · intro hok hexp
    rw [hok]
    exact runs_configCommitRun_stored hqueue hpuf hexp repairOk
  · intro hok hexp
    rw [hok]
    exact runs_configCommitRun_failed hqueue hexp repairOk
  · exact fun n hn hne => runs_configCommitRun_outdated hqueue hn hne ok repairOk
  · exact fun type first hport htype => ⟨fun hvalid => runs_cfgRead_inForce hport htype hvalid first, runs_cfgRead_staged hport htype first⟩
  · exact fun type index data n => runs_cfgSet
  · exact fun expected ha hstaged => exec_cfgCommit ha hstaged expected

end Sys2Proof.Machine
